-- ==== Sys2Proof/Word.lean ====
section
/-! DEFINITION. The plain words of the module: bytes, 64-bit registers, and a table keyed by a number. -/

namespace Sys2Proof

/-- One byte. -/
abbrev Byte := BitVec 8
/-- A 64-bit register, address or state word. -/
abbrev Reg := BitVec 64
/-- A sparse table: entries under rising keys; a key that is not listed holds the table's default. -/
abbrev Tab (α : Type) := List (Nat × α)

end Sys2Proof
end

