-- ==== Sys2Proof/Syntax.lean ====
section
/-! DEFINITION. The commands the module takes, one constructor per row of spec/opcode_table.json, with the operands
the world supplies: which unit acts, what the host wrote, what a sensor or a link showed. -/

namespace Sys2Proof

/-- A defect-map element: its kind under R671 and its number. -/
structure Element where
  kind : Nat
  id   : Nat
  deriving DecidableEq, Repr

/-- A fault that a unit meets before an access: none; its two address generators differ (R736); or its i-th cached translation
has an uncorrectable error (R517). -/
inductive Upset where
  | none
  | address
  | cached (i : Nat)
  deriving DecidableEq, Repr

/-- What a lookup in a route table meets: nothing; an uncorrectable error in a cached route (R517); one in the table (R516). -/
inductive Lookup where
  | good
  | cachedError
  | tableError
  deriving DecidableEq, Repr

/-- The unit, stream or endpoint whose turn it is, and what it meets before its next access. -/
structure Turn where
  place : Nat
  upset : Upset
  deriving DecidableEq, Repr

/-- A memory endpoint whose next read request takes effect, and where, by byte of what it reads, memory words are found
uncorrectable (R510). -/
structure Reading where
  ep  : Nat
  bad : List Nat := []
  deriving DecidableEq, Repr

/-- What a host read asks for, as the state in which the host will hold the line (R604), and what the host port's look into its
translation cache meets (R517). -/
structure Holding where
  hold   : Nat
  lookup : Lookup := .good
  deriving DecidableEq, Repr

/-- The bytes of a host write, and its 8-byte words, by number from its first byte, that Furelo finds poisoned (R515). -/
structure HostBytes where
  bytes  : List Byte
  poison : List Nat := []
  deriving DecidableEq, Repr

/-- What a training of the host link came to: the rate, the flit replays since the last one, and the errors that the port has
found since, as the status bits of its AER and CXL RAS capabilities (R589). -/
structure Trained where
  rate    : Nat
  replays : Nat := 0
  aerCor  : BitVec 32 := 0
  aerUnc  : BitVec 32 := 0
  rasCor  : BitVec 32 := 0
  rasUnc  : BitVec 32 := 0
  deriving DecidableEq, Repr

/-- What a walker's read of a table word meets: nothing; its two address generators differ (R736); an uncorrectable word (R516). -/
inductive WalkCheck where
  | good
  | address
  | uncorrectable
  deriving DecidableEq, Repr

/-- What a narrow-network message meets at a router: its CRC-32C, and its lookup of a route (R293, R413). -/
structure Passage where
  crcOk  : Bool
  lookup : Lookup
  deriving DecidableEq, Repr

/-- Entries that Furelo writes into the shadow route tables: router, destination and code, of the wafer mesh and of the narrow
network (R293, R457). -/
structure RouteWrites where
  mesh   : List (Nat × Nat × Nat)
  narrow : List (Nat × Nat × Nat)
  deriving DecidableEq, Repr

/-- What a Rolben receiver found in a train: the words it could not correct, and how many symbols it corrected (R571). -/
structure Symbols where
  badWords  : List Nat
  corrected : Nat
  deriving DecidableEq, Repr

/-- Samples of the hourly ageing evaluation, R904: predictions in operating hours, by unit. -/
structure AgeingObs where
  regions : List (Nat × Nat × Nat)
  ports   : List (Nat × Nat × Nat)
  hbmStacks : List (Nat × Nat × Nat)
  /-- the edge dies and the supervisor, R906: prediction in hours and dominant input -/
  common  : Nat × Nat
  deriving DecidableEq, Repr

/-- What a start finds out about the wafer and its images (R877 to R890): the model does not decide it. -/
structure StartObs where
  /-- R886: the defect map's signatures verify. -/
  mapOk       : Bool
  /-- Phase 0: the activated image verifies; then the previous one. -/
  imageOk     : Bool
  prevOk      : Bool
  /-- Phase 1: the key store can be unsealed. -/
  keyOk       : Bool
  /-- R886: a fused unit answered. -/
  fusedAnswer : Bool
  /-- R897, R886: cores, hubs and links that failed a test or stayed silent (cause 0x17). -/
  failed      : List Element
  /-- R887: elements whose known-answer run failed (cause 0x14). -/
  wrong       : List Element
  /-- R889: regions held dark. -/
  darkRegions : List Nat
  /-- R880: stacks whose PHY failed training. -/
  deadStacks  : List Nat
  /-- R617: per tier port, the capacities in GiB of its devices in port order. -/
  tierDevices : List (List Nat)
  /-- R585, R617: per tier port, the lanes of its link and its rate as TP_STATUS codes it (3: 32 GT/s, 4: 64 GT/s), where they are
  not 16 lanes at 64 GT/s. -/
  tierLinks   : List (Nat × Nat) := []
  /-- R882: tier lines that failed: port and line number. -/
  tierBad     : List (Nat × Nat)
  /-- R884: pages that the read-back of a warm start finds bad. -/
  warmBad     : List Nat := []
  /-- R886: the route tables built from the map, where they differ from the default ones: router, destination and code, of the
  wafer mesh and of the narrow network. -/
  routes      : List (Nat × Nat × Nat) := []
  narrow      : List (Nat × Nat × Nat) := []
  /-- R906: the predictions recomputed at the start. -/
  ageing      : Option AgeingObs := none
  deriving DecidableEq, Repr

/-- A command. -/
inductive Instr where
  -- host registers and the mailbox
  | registerWrite (bar off : Nat) (data : HostBytes)
  | hpEventEnWrite (v : BitVec 64)
  | hpErrInfoClear (v : BitVec 64)
  | hpMbRingCfgWrite (v : BitVec 64)
  | msixUnmask (vector : Nat)
  | commandCompletion (frame slot : Nat)
  | commandTimeout (frame slot : Nat)
  -- mailbox commands, each the running command of one slot
  | capsRead (frame slot : Nat)
  | defectRead (frame slot : Nat)
  | fenceQuery (frame slot : Nat)
  | ageingRead (frame slot : Nat)
  | bistRead (frame slot : Nat)
  | powerSetM0 (frame slot : Nat)
  | powerSetM1 (frame slot : Nat)
  | powerSetM2 (frame slot : Nat)
  | powerSetM3 (frame slot : Nat) (failed : List Element) (common : Bool) (vmin : List Nat)
  | logRead (frame slot : Nat)
  | lifecycleAdvance (frame slot : Nat)
  | lifecycleReturn (frame slot : Nat)
  | debugUnlockChallenge (frame slot : Nat)
  | debugUnlockToken (frame slot : Nat)
  | debugUnlockRelock (frame slot : Nat)
  | fwStage (frame slot : Nat)
  | fwActivate (frame slot : Nat)
  | packInstall (frame slot : Nat)
  | sliceCreate (frame slot : Nat)
  | sliceDestroy (frame slot : Nat)
  | sliceQuery (frame slot : Nat)
  | sliceReset (frame slot : Nat)
  | ctxLoad (frame slot : Nat)
  | ctxStart (frame slot : Nat)
  | ctxStop (frame slot : Nat)
  | ctxSave (frame slot : Nat)
  | ctxRestore (frame slot : Nat)
  | ctxStatus (frame slot : Nat)
  | memMap (frame slot : Nat)
  | memUnmap (frame slot : Nat)
  | memFill (frame slot : Nat)
  | memCopy (frame slot : Nat)
  | memDigest (frame slot : Nat)
  | memScrub (frame slot : Nat)
  | memPoisonQuery (frame slot : Nat)
  | fabJoin (frame slot : Nat) (loopback : List Nat)
  | fabLeave (frame slot : Nat)
  | fabMembersRead (frame slot : Nat)
  | fabMembersReplace (frame slot : Nat)
  | fabRouteSet (frame slot : Nat)
  | checkMode (frame slot : Nat)
  | fenceSet (frame slot : Nat)
  | fenceClear (frame slot : Nat) (link : Option (Nat × Nat)) (devices : List Nat)
  | healPolicy (frame slot : Nat)
  | injectPlan (frame slot : Nat)
  | resetEscalate (frame slot : Nat)
  | recordRead (frame slot : Nat)
  | admitPrepare (frame slot : Nat) (passed : Bool) (seconds : Nat)
  | admitLoad (frame slot : Nat)
  | admitCommit (frame slot : Nat)
  | admitBarrierPoll (frame slot : Nat) (status phase : Nat)
  -- engine steps and events
  | mma (core : Nat)
  | mmaGc (core : Nat)
  | sumac (core : Nat)
  | epi (core : Nat)
  | loadComplete (engine : Nat)
  | accumulationFinalisation (engine : Nat) (mismatch : Bool)
  | epilogueOutput (engine : Nat) (mismatch : Bool)
  | operandCheckVerify (core slot stream : Nat)
  | streamChunkDeliver (core slot : Nat) (stream : Turn)
  | stackCacheFill (region line : Nat) (uncorrectable : Bool)
  | vectorKernel (core : Nat) (mismatch : Bool)
  | expressionProgram (core : Nat) (mismatch : Bool)
  | merge (core : Turn)
  | copy (core : Turn)
  | copyHub (core : Turn)
  | strmBind (core : Nat)
  | strmUnbind (core : Nat)
  | qSend (core : Nat)
  | qRecv (core : Nat)
  | ctlLoop (core : Nat)
  | ctlJump (core : Nat)
  | ctlWait (core : Nat)
  | ctlYield (core : Nat)
  | ctlHalt (core : Nat)
  | msgSend (core : Nat)
  | msgRecv (core : Nat)
  | syncOpRead (core : Nat)
  | syncOpInit (core : Nat)
  | syncOpAdd (core : Nat) (mismatch : Bool)
  | syncOpCas (core : Nat)
  | syncOpPost (core : Nat) (mismatch : Bool)
  | syncOpTake (core : Nat)
  | syncOpArrive (core : Nat) (mismatch : Bool)
  | syncOpWaitGe (core : Nat)
  | syncOpWaitPhase (core : Nat)
  | syncOpArriveWait (core : Nat)
  | syncOpTakeWait (core : Nat)
  | syncResponse (i : Nat)
  | syncCancel (i : Nat)
  | syncWaitRetry (core slot : Nat)
  | syncRemoteTimeout (core slot step : Nat)
  | quantumEnd (core : Nat)
  -- wafer mesh
  | routerPacketReceive (router port : Nat) (crcOk : Bool) (lookup : Lookup)
  | readRequest (ep : Reading)
  | writePacket (ep : Nat)
  | readResponse (ep : Nat)
  | writeAck (ep : Nat)
  | dropResponse (ep : Nat)
  | orderAck (ep : Nat)
  | tokenArrive (ep : Nat)
  | flaggedPacket (ep : Nat)
  | flaggedPacketRelease (ep : Nat)
  | vc5Packet (ep : Nat)
  | reductionPacketLand (ep : Turn)
  | reductionAccept (i : Nat)
  | reductionReplayRequest (i : Nat)
  | reductionAbort (i : Nat)
  | routeRebuild (writes : RouteWrites) (done : Bool)
  | switchOrder (ep : Nat)
  | routeRetire
  -- narrow network and contexts
  | messageDeliver (i : Nat) (crcOk : Passage)
  | orphanNotice (i : Nat)
  | openGrant (i : Nat)
  | openRequest (i : Nat)
  | creditReturn (i : Nat)
  | stallBeacon (i : Nat)
  | progressBeacon (i : Nat)
  | stallWindowEnd (handle config : Nat)
  | extendCommand (i : Nat)
  | twinCheckValue (i : Nat)
  | twinTimeout (core slot : Nat) (again primaryFails twinFails : Bool)
  | watchdogProgressReport (i : Nat)
  | watchdogExpiry (handle config : Nat)
  | signatureCheck (core slot : Nat) (differs : Bool)
  -- translation and time-slicing
  | translationWalk (i : Nat) (check : WalkCheck)
  | migrationComplete (i : Nat)
  | timeSliceEnd (handle : Nat)
  | saveComplete (handle group : Nat)
  | restoreComplete (handle group : Nat)
  -- the Rolben fabric
  | contentionWindowEnd (port : Nat) (slots : List (List Nat)) (mine : Nat) (rand : Nat)
  | entryWindowEnd (port : Nat) (slots : List (List Nat)) (mine : Nat) (rand : Nat)
  | startToleranceExpire (port : Nat)
  | trainCollision (port : Nat) (own : Bool) (rand : Nat)
  | trainReceive (port : Nat) (data : List Byte) (badWords : Symbols) (lookup : Lookup)
  | trainAssemble (port : Nat)
  | retransmitTimeout (port member : Nat)
  | pairLost (port member : Nat)
  | portFence (port : Nat) (routes : List (Nat × Nat × Nat))
  | loopbackMeasure (port delay : Nat)
  | joinSilenceExpire (port : Nat)
  | ackHoldExpire (port : Nat)
  | e2eAckDue (origin : Nat)
  -- host port and DOE
  | hostLinkTrain (width : Nat) (rate : Trained)
  | hostLinkDown
  | functionLevelReset
  | cxlReset
  | hotReset
  | hdmDecoderCommit (decoder base size skip ways : Nat) (biOn : Bool)
  | hostMemRead (dpa : Nat) (hold : Holding)
  | hostMemWrite (dpa : Nat) (data : List Byte) (poisoned : Bool)
  | birsp (line : Nat) (writeback : List Byte)
  | biTimeout (line : Nat)
  | h2dSnoop (line : Nat)
  | hostRequestTimeout (frame slot : Nat)
  | doeDiscovery (index : Nat)
  | spdmGetVersion
  | spdmGetCapabilities
  | spdmNegotiateAlgorithms (asym hash : BitVec 32)
  | spdmGetDigests
  | spdmGetCertificate (slot offset length : Nat)
  | spdmChallenge (slot : Nat) (nonce : List Byte)
  | spdmGetMeasurements (index slot : Nat) (signed : Bool) (nonce : List Byte)
  | cdatTableAccess (entry : Nat)
  | attestationExtension (request : BitVec 64)
  -- tier ports
  | tierLinkDown (port : Nat)
  | tierDeviceHotAdd (port gib : Nat)
  | tierDeviceRemoval (port device : Nat)
  | tierDeviceFatal (port : Nat)
  | tierRequestTimeout (port request : Nat)
  -- health
  | controllerHeartbeat (region : Nat)
  | heartbeatTimeout (region : Nat)
  | supervisorHeartbeat
  | telemetry (vmv ma10 watts : Nat) (inlet outlet junction hbm : Int)
  | regulatorExcursion (region : Nat) (memory : Bool)
  | pllLossOfLock (region : Nat)
  | patrolPassComplete (stack : Nat) (corrected : List Nat) (uncorrectable : List Nat)
  | patrolWindowEnd (region : Nat)
  | anisePassDue (region : Nat)
  | anisePassComplete (region : Nat) (passed : Bool)
  | injectionDue (i : Nat)
  | fence (kind id cls : Nat) (detours : List (Nat × Nat × Nat × Nat))
  | replacement (handle group : Nat) (unreadable : Bool)
  | thermalStep (region kind : Nat) (reading : Int)
  | shedRelease (region demand : Nat) (reading : Int)
  | powerWindowEnd (watts vmv : Nat) (regions : List Nat)
  | powerRelease
  | overcurrentThrottle
  | regionPark (region : Nat) (park : Bool)
  | plannedDark (region : Nat)
  | relight (region : Nat) (failed : List Element) (badPages : List Nat) (anisePassed : Bool)
  | thermalTrip (kind index : Nat)
  | referenceLoss
  | referenceHoldoverExpire
  | referenceReturn
  | supplyBandChange (mv : Nat)
  | supplyLoss
  | supplyWithinLimits
  -- resets and starts
  | contextReset (core slot : Nat)
  | engineReset (engine : Nat)
  | partitionReset (handle : Nat)
  | moduleComputeReset (failed : List Element)
  | resetClear (i : Nat)
  | resetTimeout (i : Nat) (engine : Option Nat) (router : Bool)
  | modResetNAssert
  | modResetNRelease
  | start (obs : StartObs)
  | hbmMarchPauseEnd (stack : Nat) (badPages : List Nat) (corrected : Nat)
  | startReady
  | startFailed (code : Nat)
  | selfTestSample (voltageOk clockOk : Bool) (inlet : Int)
  | ageingHour (obs : AgeingObs)
  | debugSessionEnd
  | dapTransfer (write : Bool) (address : Nat) (data : List Byte) (count : Nat)
  | tapInstruction (code : Nat)
  -- tray controller
  | trayStatus (flow : Nat) (valid : Bool) (cap : Nat)
  | trayStatusMissing
  | trayReqN
  -- the mailbox commit and other late rows
  | commit (off : Nat) (data : HostBytes)
  | bar2Discard (off length : Nat)
  | hostRequestCompletion (frame slot : Nat) (data : List Byte) (poison : List Nat)
  | tierRequestCompletion (port request : Nat) (poisoned : Bool)
  | ioDieGroupExcursion (die : Nat)
  | envelopeEvaluation (inlet die : Int)
  | firmwareMemoryError (region : Nat)
  deriving DecidableEq, Repr

end Sys2Proof
end

