-- ==== Sys2Proof/Config.lean ====
section
/-! DEFINITION. What one module has and the spec does not fix: keys, signatures, and the free values.
Each is opaque: no value of it can be computed or proved. -/

namespace Sys2Proof.Config

/-- A free value: the n-th value the module produces that the spec leaves open. Log entry 4. -/
opaque freeWord : Nat → BitVec 64

/-- R499: byte `off` of the state of slots in section 0 of the save image that a save numbered `n` wrote, whose layout no rule
gives (log entry 16). -/
opaque stateByte (n off : Nat) : BitVec 8

/-- R831: a byte, by its offset, of the sections of a clove record whose layout no rule gives, in the capture of the given
number. Log entry 19. -/
opaque cloveByte (capture off : Nat) : BitVec 8

/-- R845: whether both Yomurel signatures of key pair `key` verify over the signed bytes. The keys in the
boot ROM are not in the spec. Log entry 5. -/
opaque envelopeVerifies (key : Nat) (signed rsa slh : List Byte) : Bool

/-- R851, R614: a signature by the identity keys made at the given life-cycle count (scheme 0 RSA, 1 SLH-DSA).
The keys are not in the spec. Log entry 5. -/
opaque identitySign (generation scheme : Nat) (msg : List Byte) : List Byte

/-- R853 block 8: the identity public keys of a generation. Log entry 5. -/
opaque identityPublic (generation : Nat) : List Byte

/-- R853 block 1: the SHA-384 digest of the boot ROM, which the spec does not give. Log entry 5. -/
opaque bootRomDigest : List Byte

/-- R173 kernel 0x0C: the optimiser's arithmetic is defined by the toolchain, outside the spec: operand bits in,
result bits out (which output, parameter 0 and 1, inputs, constants). Log entry 6. -/
opaque adamW (output : Nat) (p0 p1 : BitVec 32) (inputs consts : List (BitVec 32)) : BitVec 32

/-- R168, R176: an FP32 result the spec does not state (a logarithm of zero, a quotient by zero, an operand that is not
finite, a result beyond the range), by operation and operand bits. Log entry 9. -/
opaque fp32Open (op a b c : Nat) : BitVec 32

/-- R860: the n-th fresh 32-byte challenge. Log entry 4. -/
opaque challenge (n : Nat) : List Byte

/-- R593: the address that the host gives BAR0 (false) or BAR2 (true) the n-th time. Log entry 97. -/
opaque barBase (n : Nat) (second : Bool) : BitVec 64

/-- R592: Yomurel's PCI-SIG vendor identifier, which the spec does not give. Log entry 7. -/
opaque vendorId : BitVec 16

end Sys2Proof.Config
end

