-- ==== Sys2Proof/Machine/State.lean ====
section
/-! DEFINITION. The state of the Galef G2 wafer module as plain data: everything the spec gives the machine, and the
queue of commands that wait. Each field names the rule of spec/ it holds. -/

namespace Sys2Proof.Machine

/-- Why the module could stop with a fault: never. Every command of this block answers a next state (log entry 1). -/
inductive Fault where
  deriving DecidableEq, Repr

/-- Why a command has no meaning in this model. -/
inductive Refusal where
  /-- Raised by a dispatch arm that has no meaning yet; safe. -/
  | notModelled (mnemonic : String)
  deriving DecidableEq, Repr

/-! ## Fuses and the non-volatile store -/

/-- R6: the ordering codes, coded 1, 2 and 3 under R670. -/
inductive Ordering where
  | h48
  | m48
  | h40
  deriving DecidableEq, Repr

/-- R837: the life-cycle states. -/
inductive LifeCycle where
  | blank
  | factory
  | deployed
  | returned
  | scrapped
  deriving DecidableEq, Repr

/-- The fuses, R10, R838, R847, R849. -/
structure Fuses where
  /-- R6, R10. -/
  ordering : Ordering
  /-- R837. -/
  life     : LifeCycle
  /-- R838: the life-cycle count, 0 to 16. -/
  lcCount  : Nat
  /-- R847: minimum security version, 0 to 64. -/
  minSvn   : Nat
  /-- R847: revoked key indices, bit n for index n. -/
  revoked  : BitVec 4
  /-- R849: serial number. -/
  serial   : BitVec 128
  deriving DecidableEq, Repr

/-- A verified image: its body's SHA-384 digest, security version, key index and revocations (R679, R844). -/
structure Image where
  digest  : List Byte
  svn     : Nat
  key     : Nat
  revoke  : BitVec 4
  deriving DecidableEq, Repr

/-- R671: a defect-map record. -/
structure DefectRec where
  element : Nat
  origin  : Nat
  cause   : Nat
  id      : Nat
  stampRegion : Nat
  stamp   : Nat
  /-- R770, R851: the module's signature over the record, empty for factory records. -/
  sig     : List Byte
  deriving DecidableEq, Repr

/-- R673: the last shut-down self-test. -/
structure SelfTest where
  result  : Nat
  abort   : Nat
  logicMs : Nat
  sramMs  : Nat
  stamp   : Nat
  /-- per region: stuck-at, transition coverage, SRAM pass, cores failing -/
  regions : Tab (Nat × Nat × Bool × Nat)
  /-- R900: the test is running now, and since when. -/
  running : Bool
  began   : Nat
  deriving DecidableEq, Repr

/-- R904, R905: the ageing entry of a unit: predicted hours, dominant input, operating hours sampled, told below 90 days. -/
structure AgeEntry where
  hours    : Nat
  dominant : Nat
  sampled  : Nat
  told     : Bool
  deriving DecidableEq, Repr

/-- R862: one journal entry. -/
structure JournalEntry where
  kind  : Nat
  addr  : Nat
  count : Nat
  write : Bool
  stamp : Nat
  /-- R27: the counter that stamped it, by unit class of R676 -/
  counter : Nat
  deriving DecidableEq, Repr

/-- The supervisor's non-volatile store: kept through every reset and power cycle (R823). -/
structure NonVolatile where
  /-- R770: the defect map, oldest first. -/
  map       : List DefectRec
  /-- R772: the fence bitmap, as the fenced elements. -/
  fenceBits : List Element
  /-- R766, R807: the fenced elements whose fence `fence.set` made, and no injection. -/
  hostFences : List Element
  /-- R839, R850: identity keys held, and the generation (count of FACTORY transitions) they belong to. -/
  keysHeld  : Bool
  keyGen    : Nat
  /-- R839: the count the key store is sealed under. -/
  sealedAt  : Nat
  /-- R852: slot 0 certificate chain. -/
  chain     : Option (List Byte)
  /-- R841. -/
  wipePending : Bool
  /-- R760. -/
  drained   : Bool
  suspect   : Nat
  /-- R679, R680: the boot image, its predecessor, the staged one, the one activated for the next start, and whether
  the boot image is new and has not yet brought the module to ready. -/
  bootImage : Image
  prevImage : Option Image
  staged    : Option Image
  nextImage : Option Image
  activated : Bool
  /-- R679: anise packs by number, as digest and security version. -/
  packs     : Tab (List Byte × Nat)
  /-- R862: the debug journal, newest first, at most 16,384. -/
  journal   : List JournalEntry
  /-- R875: start marker. -/
  startMark : Bool
  /-- R902: self-test marker. -/
  testMark  : Bool
  bist      : SelfTest
  /-- R875: the last event recorded is a passing self-test followed by entry into M3, and its image digest. -/
  cleanDown : Option (List Byte)
  /-- R875: a defect-map record was held in supervisor memory when that test ended. -/
  heldDown  : Bool
  /-- R903: operating hours. -/
  hours     : Nat
  /-- R905: entries by region, Rolben port, stack; and of the edge dies and supervisor. -/
  ageRegion : Tab AgeEntry
  agePort   : Tab AgeEntry
  ageStack  : Tab AgeEntry
  ageCommon : AgeEntry
  /-- R899: the lowest passing setpoint of each region, in mV. -/
  vmin      : Tab Nat
  deriving DecidableEq, Repr

/-! ## Power, clocks and pins -/

/-- R864. -/
inductive PowerState where
  | m0
  | m1
  | m2
  | m3
  | m4
  deriving DecidableEq, Repr

/-- R909: the bands of the input voltage. -/
inductive Band where
  | operating
  | marginal
  | lost
  deriving DecidableEq, Repr

/-- R922: what can demand a shedding step of a region. -/
structure Demands where
  /-- thermal step, R930 -/
  thermal   : Nat
  power     : Nat
  mask      : Bool
  reference : Bool
  /-- R749: a regulator or clock excursion. -/
  excursion : Bool
  /-- R764: the region's controller is fenced; R889: held dark at ready. -/
  held      : Bool
  deriving DecidableEq, Repr

/-- The electrical and thermal surroundings as the module last saw them. -/
structure Power where
  state     : PowerState
  /-- R865: the M1 mask. -/
  mask      : BitVec 48
  /-- R908: input voltage in mV. -/
  inputMv   : Nat
  band      : Band
  /-- R911. -/
  within    : Bool
  /-- R912: the standby rails and the supervisor are up. -/
  standby   : Bool
  /-- R926: reference lost, since when, and held in step 2. -/
  refLost   : Bool
  refSince  : Nat
  refParked : Bool
  /-- R942: last flow in 0.1 L/min, its validity, and the supervisor's count at the last tray status. -/
  flow      : Nat
  flowValid : Bool
  trayAt    : Nat
  trayMissed : Bool
  /-- R918: the tray cap in W. -/
  trayCap   : Nat
  /-- R932: coolant inlet in 0.1 degrees. -/
  inlet     : Int
  /-- R930, R932: the hottest edge I/O die reading in 0.1 degrees. -/
  ioDie     : Int
  /-- R919: the last window's average input power. -/
  watts     : Nat
  /-- R920: regions stepped up by power, latest first. -/
  steps     : List Nat
  /-- R920: when the power last was not below the release threshold, or a release happened. -/
  releaseAt : Nat
  /-- R929: the last readings, by kind * 128 + region, in 0.1 degrees. -/
  sensors   : Tab Int
  /-- R931. -/
  tripped   : Bool
  /-- R793: per region, since when its condition has stayed below the release threshold. -/
  coolSince : Tab Nat
  /-- R914: I/O die groups cut. -/
  dieCut    : List Nat
  /-- R922. -/
  demands   : Tab Demands
  /-- R800: per region, since when a step waits for a re-placement to finish. -/
  waiting   : Tab Nat
  deriving DecidableEq, Repr

/-- The counters of R523, R909, R924 and R925. -/
structure Clocks where
  /-- The supervisor's housekeeping counter. -/
  sup     : Nat
  /-- Each region's, counted from its last power-up. -/
  region  : Tab Nat
  /-- The edge I/O dies', by die. -/
  die     : Tab Nat
  /-- The Rolben port counters. -/
  port    : Tab Nat
  /-- The input monitor's. -/
  input   : Nat
  /-- The core clocks: compute cycles of a lit region's cores, and the mesh clock, counted from the start. -/
  compute : Tab Nat
  mesh    : Nat
  deriving DecidableEq, Repr

/-- The pins of R935. -/
structure Pins where
  modReset  : Bool
  perst     : Bool
  trayReq   : Bool
  vio       : Bool
  thermTrip : Bool
  alert     : Bool
  dbgPrsnt  : Bool
  /-- R857: the TAP instruction in force. -/
  tap       : Nat
  /-- R937: the supervisor's count at the last accepted TRAY_REQ_N. -/
  trayReqAt : Option Nat
  /-- R939: a tray request is being processed. -/
  trayBusy  : Bool
  deriving DecidableEq, Repr

/-- The progress of a start, R876, R877. -/
structure Boot where
  warm       : Bool
  /-- 0 to 5; 6 ready; 7 failed. -/
  phase      : Nat
  fail       : Nat
  fallback   : Bool
  coldReason : Nat
  elapsed    : Nat
  /-- the supervisor's count when the start began -/
  began      : Nat
  running    : Bool
  /-- R879: the march element of each stack still under test, and its pause's start on the region's counter. -/
  march      : Tab (Nat × Nat)
  /-- R877: phase 5 has ended. -/
  tested     : Bool
  deriving DecidableEq, Repr

/-- The unit that makes an access by global address (R473). -/
inductive Unit where
  | coreCopy (core : Nat)
  | hubCopy (cluster : Nat)
  | stream (core slot stream : Nat)
  | merge (cluster : Nat)
  | fabric
  | hostPort
  | furelo
  deriving DecidableEq, Repr

/-! ## The host port -/

/-- R595: one MSI-X table entry. -/
structure MsixEntry where
  addr    : Reg
  data    : BitVec 32
  masked  : Bool
  deriving DecidableEq, Repr

/-- R601. -/
structure HdmDecoder where
  (base skip size : Nat)
  (committed error : Bool)
  deriving DecidableEq, Repr

/-- R604: a line the host holds; `exclusive` is state A. -/
structure FilterEntry where
  line      : Nat
  exclusive : Bool
  deriving DecidableEq, Repr

/-- R605, R606: a back-invalidation sent and not yet answered. -/
structure BackInval where
  line  : Nat
  data  : Bool
  since : Nat
  /-- what waits for it: 0 a module read, 1 a module write, 2 an eviction, 3 a map or unmap, 4 a CXL reset -/
  why   : Nat
  /-- the units that wait for it -/
  units : List Unit
  /-- a BISnpInv of the line is wanted once a BISnpData has been answered -/
  again : Bool := false
  deriving DecidableEq, Repr

/-- R591 to R593, R589: the configuration registers of the host port's function: the command register, the two BARs as they read,
the status registers of AER and of the CXL RAS capability, and how often the host has placed the BARs. -/
structure PortConfig where
  command : BitVec 16
  bar0    : Reg
  bar2    : Reg
  aerCor  : BitVec 32
  aerUnc  : BitVec 32
  rasCor  : BitVec 32
  rasUnc  : BitVec 32
  placed  : Nat
  deriving DecidableEq, Repr

/-- R612, R614: the SPDM exchange on the DOE mailbox. -/
structure Doe where
  /-- the version, capability and algorithm exchanges -/
  vca        : List Byte
  /-- digest and certificate exchanges since -/
  certs      : List Byte
  /-- measurement exchanges since the last signed one -/
  meas       : List Byte
  negotiated : Bool
  /-- R614: the transcript of the last completed CHALLENGE or signed GET_MEASUREMENTS. -/
  completed  : Option (List Byte)
  /-- The last response object. -/
  response   : List Byte
  deriving DecidableEq, Repr

/-- The host port, 11_cxl.md. -/
structure HostPort where
  event     : BitVec 6
  eventEn   : BitVec 6
  errInfo   : Reg
  errAddr   : Reg
  msix      : Tab MsixEntry
  msixPend  : List Nat
  msixOn    : Bool
  linkUp    : Bool
  width     : Nat
  rate      : Nat
  biOn      : Bool
  decoder0  : HdmDecoder
  decoder1  : HdmDecoder
  config    : PortConfig
  /-- R594: the writable CXL component registers as the host last wrote them. -/
  component : Tab Byte
  filter    : List FilterEntry
  backInv   : List BackInval
  /-- R604: host reads that wait for room in the snoop filter: line and whether they ask for state A -/
  waitReads : List (Nat × Bool)
  /-- R591: a CXL Reset waits for its back-invalidations. -/
  cxlReset  : Bool
  doe       : Doe
  deriving DecidableEq, Repr

/-! ## The mailbox -/

/-- A leaf: space (0 HBM, 2 tier-2), slice offset, page-size code (0 64 KiB, 1 2 MiB, 2 1 GiB), entry of R478. -/
structure Leaf where
  space : Nat
  off   : Nat
  size  : Nat
  entry : Reg
  deriving DecidableEq, Repr

/-- What a running command still waits for before COMMAND_COMPLETION may write it. -/
inductive Wait where
  | nothing
  /-- ctx.stop, R686: every slot of the configured region stopped. -/
  | stopped (config : Nat)
  /-- ctx.save and ctx.restore, R687: the group of a configured region. -/
  | saved (config : Nat)
  | restored (config : Nat)
  /-- fab.join, R694: the ports still to observe an idle edge. -/
  | idle (ports : List Nat)
  /-- fab.leave, R533. -/
  | left (ports : List Nat)
  /-- slice.reset and reset.escalate, R683, R702: the reset of this number. -/
  | reset (id : Nat)
  /-- mem.map and mem.unmap: windows whose old copy has not retired (R486), lines of R607 the host still holds, the leaves
  replaced (R405). -/
  | lines (windows ls : List Nat) (gone : List Leaf)
  /-- mem.copy: host requests outstanding, R610. -/
  | host
  /-- power.set: the state asked for. -/
  | power (target : Nat)
  /-- fab.route.set: the swap has not retired, R697. -/
  | routes
  /-- slice.destroy: lines the host still holds, R633. -/
  | destroy (handle : Nat)
  /-- admit.load: remote reads outstanding. -/
  | fabric
  /-- admit.commit, R707. -/
  | barrier
  /-- accepted; its own row has not acted yet. -/
  | unstarted
  deriving DecidableEq, Repr

/-- R645, R646: a command in flight. -/
structure Running where
  seq     : Nat
  opcode  : Nat
  ring    : Bool
  irq     : Bool
  payload : List Byte
  /-- R665: the supervisor's count at step 2 of R651. -/
  since   : Nat
  /-- R651: the timeout in ticks, when there is one. -/
  timeout : Option Nat
  /-- the slice concerned, R639 -/
  handle  : Nat
  wait    : Wait
  code    : Nat
  resp    : List Byte
  /-- R691: bytes completed; R692 tiles; R686 slots to stop; R707 consecutive polls that read status 5. -/
  progress : Nat
  /-- R649: its place in the order of acceptance. -/
  order    : Nat
  /-- R610: the north die's count when its outstanding host request was sent; R707: the supervisor's at the last poll. -/
  at_      : Nat
  /-- R513, R515: the words of its payload that are poisoned -/
  poison   : List Nat := []
  /-- R347, R609: bytes it has read and not written, hashed or reported yet, and which of them are poisoned -/
  data     : List Byte := []
  bad      : List Bool := []
  deriving DecidableEq, Repr

/-- R642: a mailbox slot. -/
structure MbSlot where
  commit  : Reg
  status  : Reg
  payload : Tab Byte
  last    : Nat
  run     : Option Running
  /-- R515: the 8-byte words of the payload that are poisoned, by number -/
  poison  : List Nat := []
  deriving DecidableEq, Repr

/-- R656, R659: the ring and vector of a frame. -/
structure FrameRing where
  base    : Nat
  enable  : Bool
  logSize : Nat
  vector  : Nat
  /-- records since the ring was enabled -/
  written : Nat
  deriving DecidableEq, Repr

/-- A frame of the mailbox; `owner` 0 is none (frame 0 has no owner). -/
structure Frame where
  owner : Nat
  ring  : FrameRing
  slots : Tab MbSlot
  deriving DecidableEq, Repr

/-! ## The supervisor -/

/-- R699: a healing policy. -/
structure HealPolicy where
  auto  : Bool
  hold  : Bool
  limit : Nat
  deriving DecidableEq, Repr

/-- R816: a reset in progress. -/
structure Reset where
  id      : Nat
  domain  : Nat
  /-- core * 4 + slot, engine, handle or 0 -/
  target  : Nat
  trigger : Nat
  since   : Nat
  /-- R825: the units that have not released, as engines or hubs; empty once everything has. -/
  holding : List Element
  /-- it has begun; before that it has been decided only -/
  begun   : Bool
  /-- R832: class of the clove record, and the configured region of a reset of several slots -/
  cls     : Nat
  config  : Nat
  /-- R822: the structure of R516 to repair and its place -/
  repair  : Option (Nat × Nat)
  deriving DecidableEq, Repr

/-- R701: one planned injection. -/
structure Injection where
  cls   : Nat
  unit  : Nat
  id    : Nat
  delay : Nat
  left  : Nat
  dueAt : Nat
  /-- R805: made, and still awaiting detection or recovery. -/
  live  : Bool
  deriving DecidableEq, Repr

/-- R848, R679: the chunks gathered by a command. -/
structure Gather where
  bytes : List Byte
  /-- R860: the first chunk consumed a challenge issued at this count. -/
  challenge : Option (List Byte × Nat)
  deriving DecidableEq, Repr

/-- R764: a detection remembered for a trigger's window. -/
structure Detection where
  element : Element
  cls     : Nat
  at_     : Nat
  /-- a hard result, which meets its trigger at once -/
  hard    : Bool
  /-- the page address or word, for triggers that count one place -/
  place   : Nat
  deriving DecidableEq, Repr

/-- The supervisor's volatile state. -/
structure Supervisor where
  alive      : Bool
  /-- R48: the next handle to assign. -/
  nextHandle : Nat
  /-- R678. -/
  challenge  : Option (List Byte × Nat)
  challengeN : Nat
  /-- R860: the open session: full view, minutes, since. -/
  session    : Option (Bool × Nat × Nat)
  /-- R863: a DAP write has cleared the firmware bit. -/
  dapWrote   : Bool
  gathers    : Tab Gather
  checkDefault : Nat
  healDefault  : HealPolicy
  injections : List Injection
  /-- R747: last heartbeat of each region controller; R764: its failures. -/
  beat       : Tab Nat
  beatFail   : Tab Nat
  ctrlHalted : List Nat
  resets     : List Reset
  nextReset  : Nat
  detections : List Detection
  /-- R771: records held in supervisor memory. -/
  heldRecs   : List DefectRec
  /-- R716 fields of HP_ASSURE. -/
  envelope   : Bool
  scrub      : Bool
  selftest   : Bool
  firmware   : Bool
  holds      : Bool
  lapse      : Nat
  lapses     : Nat
  /-- R825: a power-cycle request is pending. -/
  cycleAsked : Bool
  /-- R821: resetting of HP_STATUS. -/
  resetting  : Bool
  /-- R940. -/
  mctpSeq    : Nat
  /-- R751: the count at each region's last pass, R752: the pass running. -/
  aniseAt    : Tab Nat
  aniseRun   : Option Nat
  /-- R752: the groups a pass has had saved, as slice and one of the group's configured regions. -/
  aniseHeld  : List (Nat × Nat)
  /-- R788: re-placements by slice, as stamps. -/
  replaced   : Tab (List Nat)
  /-- R841: a life-cycle transition in progress (target code). -/
  lifeMove   : Option Nat
  /-- R865: a power transition in progress. -/
  powerMove  : Option Nat
  /-- R748, R941: last heartbeat and telemetry sent. -/
  beatSent   : Nat
  teleSent   : Nat
  /-- R706: the admission stage of each slice: 1 prepared, 2 loaded, 3 committed. -/
  admitted   : Tab Nat
  /-- R649: the next place in the order of acceptance. -/
  nextOrder  : Nat
  /-- R633, R683: destructions accepted and not finished, with their scrub flags. -/
  destroys   : Tab Bool
  deriving DecidableEq, Repr

/-! ## The capability table -/

/-- R792. -/
inductive Shed where
  | lit
  | throttled
  | parked
  | dark
  deriving DecidableEq, Repr

/-- R58: what the capability table rests on: what is out of service. -/
structure Capability where
  /-- R60. -/
  gen        : Nat
  /-- cores that failed factory test or are fenced -/
  coresOut   : List Nat
  hubsOut    : List Nat
  /-- R669: fenced full and seam links, as link positions, ascending -/
  linksOut   : List Nat
  seamsOut   : List Nat
  /-- HBM pages retired, as stack * 2^21 + page -/
  pagesOut   : List Nat
  /-- R880: stacks withdrawn. -/
  stacksOut  : List Nat
  portsOut   : List Nat
  tiersOut   : List Nat
  ctrlsOut   : List Nat
  /-- R792: the step of each region that is not lit. -/
  shed       : Tab Shed
  deriving DecidableEq, Repr

/-! ## Slices -/

/-- R281, R813: what the anchor and its region controller keep for a configured region. -/
structure Conf where
  /-- its slots, as core * 4 + slot -/
  members  : List Nat
  /-- slots that have sent a stall beacon since their last progress beacon -/
  stalled  : List Nat
  /-- full lanes reported whose producer lacks credit: consumer slot, lane -/
  full     : List (Nat × Nat)
  /-- R281: the anchor's mesh clock when the last stall beacon arrived -/
  beaconAt : Nat
  /-- R281: start of the open stall window on the anchor's mesh clock. -/
  window   : Option Nat
  /-- R283: the lanes of the last deadlock signature, as slot and lane -/
  signature : List (Nat × Nat)
  exhausted : Bool
  /-- R813: counted time. -/
  counted  : Nat
  deriving DecidableEq, Repr

/-- R500: where a save or a restore of a group stands. -/
inductive ImageState where
  | empty
  | saving
  | saved
  | restoring
  | failed
  deriving DecidableEq, Repr

/-- R832: a clove record as kept: its header fields and the state words and waits it captured. -/
structure Clove where
  domain   : Nat
  trigger  : Nat
  cls      : Nat
  injected : Bool
  target   : Nat
  handle   : Nat
  config   : Nat
  stamp    : Nat
  sections : BitVec 8
  seq      : Nat
  /-- R822: the index of the state word that a module compute reset repairs; no rule gives its place in the header. -/
  noted    : Option Nat
  /-- the number of the free values that stand for the sections without a layout, log entry 19 -/
  free     : Nat
  body     : Tab Byte
  deriving DecidableEq, Repr

/-- R457: a fabric route table: active and shadow copies and overrides. -/
structure RouteTab where
  active  : Tab (BitVec 16)
  shadow  : Tab (BitVec 16)
  /-- R697: the shadow holds writes since the last retirement. -/
  fresh   : Bool
  detour   : Tab (BitVec 16)
  /-- R535: trains that were being assembled at the last swap, which has not retired: port, and when its first row was queued -/
  users    : List (Nat × Nat) := []
  deriving DecidableEq, Repr

/-! ## Translation -/

/-- R474. -/
structure Window where
  owner    : Nat
  root0    : Nat
  root1    : Nat
  second   : Bool
  /-- R457: the override entries, by offset, that the last rebuild folded in -/
  folded   : List Nat
  deriving DecidableEq, Repr

/-- R483: a walk in progress. -/
structure Walk where
  unit  : Unit
  addr  : Nat
  write : Bool
  /-- the root the walk is bound to -/
  root  : Nat
  /-- R736: it is being retried after an address mismatch. -/
  retried : Bool
  deriving DecidableEq, Repr

/-- R481: a cached translation. -/
structure Cached where
  unit : Unit
  leaf : Leaf
  deriving DecidableEq, Repr

/-- R491: a page under migration; the units halted on it. -/
structure Migration where
  leaf    : Leaf
  target  : Leaf
  waiting : List Unit
  owner   : Nat
  deriving DecidableEq, Repr

/-- Address translation, 09_translation.md. -/
structure Translation where
  /-- key: (space / 2) * 256 + window -/
  windows   : Tab Window
  /-- R822: the supervisor's record of every mem.map in force. -/
  leaves    : List Leaf
  overrides : List Leaf
  walks     : List Walk
  cache     : List Cached
  migrating : List Migration
  /-- R477: the page tables in use: address to bytes and the window they serve. -/
  tables : Tab (Nat × Nat)
  deriving DecidableEq, Repr

/-! ## Memory -/

/-- All byte-addressed memory of the module in one physical numbering (Ops.lean gives the map), and the poisoned
8-byte words by number (R509). -/
structure Memory where
  cells  : List Host.Cell
  poison : List Nat
  deriving DecidableEq, Repr

/-! ## Engines -/

/-- R147. -/
inductive Tag where
  | finite
  | posInf
  | negInf
  | nan
  deriving DecidableEq, Repr

/-- R82: an accumulator word in its extended form, with its tag, and whether a product or preload overflowed it. -/
structure AccWord where
  ext : BitVec 80
  tag : Tag
  ovf : Bool
  deriving DecidableEq, Repr

/-- A descriptor an engine has accepted, and who issued it. -/
structure Accepted where
  core : Nat
  slot : Nat
  step : Nat
  desc : BitVec 512
  deriving DecidableEq, Repr

/-- R123, R378: one half of the operand buffer. -/
structure Half where
  aDone  : Bool
  bDone  : Bool
  /-- R194: the coding of the B source. -/
  gc     : Bool
  /-- R138: poisoned elements were written. -/
  poison : Bool
  /-- R127, R217: held after its K-steps. -/
  held   : Bool
  /-- R188: bytes of a 4-bit group-coded load beyond the half's 98,304 (log entry 104), by offset. -/
  spare  : Tab Byte
  deriving DecidableEq, Repr

/-- The sumac pass's interval of one word, R197. -/
structure Bounds where
  lo     : BitVec 32
  hi     : BitVec 32
  forced : Bool
  deriving DecidableEq, Repr

/-- A load an accumulation has taken: its opcode, A and B streams and k_blocks (R386). -/
structure Used where
  op : Nat
  a  : Nat
  b  : Nat
  k  : Nat
  deriving DecidableEq, Repr

/-- R725, R726: the 64 row sums and 64 column sums of an engine's checksum unit, with 23 fraction bits. -/
structure Sums where
  rows : List (BitVec 128)
  cols : List (BitVec 128)
  deriving DecidableEq, Repr

/-- R136: an open accumulation or sumac pass. -/
structure OpenAcc where
  first   : Accepted
  /-- R91: effective E_t and replay of this attempt. -/
  et      : Int
  replay  : Nat
  kBlocks : Nat
  loads   : Nat
  tile    : Nat
  /-- R208: live columns of an armed accumulation. -/
  armed   : Bool
  live    : List Nat
  audited : List Nat
  mode    : Nat
  /-- R728: a check replay has been made. -/
  checked : Bool
  /-- row-major when the pass has begun -/
  bounds  : List Bounds
  /-- R725: the checksum unit's sums of this attempt, when one is kept. -/
  sums    : Option Sums
  /-- R96: loads of this attempt still to be delivered again by the streams. -/
  pending : Nat
  /-- its finishing load has not been taken -/
  more    : Bool
  /-- the loads taken, in order -/
  used    : List Used
  /-- R730: the epilogue has been rerun. -/
  again   : Bool
  /-- the step that carried finish = 1 -/
  finish  : Nat
  deriving DecidableEq, Repr

/-- R139: an accumulator tile. -/
structure TileBuf where
  /-- 4,096 words, row-major, once an accumulation has cleared or preloaded them -/
  words : List AccWord
  /-- a finished accumulation that waits for the epilogue or the sender -/
  done  : Option OpenAcc
  deriving DecidableEq, Repr

/-- An engine, 03_engines.md. -/
structure Engine where
  nextHalf : Nat
  half0    : Half
  half1    : Half
  waiting  : Option Accepted
  /-- R137, R256: descriptors issued that wait for the engine in the sequencer, oldest first. -/
  queue    : List Accepted
  acc      : Option OpenAcc
  /-- the accumulation has taken its last K-step and waits for the finalisation check -/
  ended    : Bool
  curTile  : Nat
  tile0    : TileBuf
  tile1    : TileBuf
  /-- R384: partials sent with reduce = 1, not accepted yet. -/
  sent     : List OpenAcc
  /-- R387, R499: replays to take, or deferred by a save. -/
  replays  : List Nat
  /-- R217: the half a one-load pass used, and the pass. -/
  kept     : Option (Nat × OpenAcc)
  /-- R804: a planted defect: 0 none, 1 transient, 2 persistent. -/
  defect   : Nat
  deriving DecidableEq, Repr

/-! ## Cores and slots -/

/-- R241, in the order `ctx.status` codes them. -/
inductive SlotState where
  | empty
  | loaded
  | ready
  | running
  | blocked
  | halted
  | stopped
  | faulted
  deriving DecidableEq, Repr

/-- R490, R798: why a unit is halted. -/
inductive Halt where
  | fault (cause addr : Nat)
  | migrating (addr : Nat)
  | fence
  | dark (region : Nat)
  /-- R817: abandoned by a reset, finishing what is in flight -/
  | reset
  deriving DecidableEq, Repr

/-- R258: a token held in a lane or the reserve. -/
structure Token where
  header : Reg
  data   : List Byte
  poison : List Bool
  deriving DecidableEq, Repr

/-- R258, R285: an input lane. -/
structure Lane where
  gen     : Nat
  /-- the entries of the lane store, in arrival order, each with its turn: its place in the order the lane hands over -/
  tokens  : List (Nat × Token)
  /-- R285: the entries of the reserve, from its head: turn, and the entry of core memory that holds the token -/
  spilled : List (Nat × Nat)
  /-- R261: the turn to hand over next, the first turn whose token has not arrived, and the turn of seq 0 -/
  hand    : Nat
  due     : Nat
  start   : Nat
  /-- R262: dequeued since the last return. -/
  taken   : Nat
  armed   : Bool
  deriving DecidableEq, Repr

/-- R262: an output port. -/
structure Port where
  gen     : Nat
  credits : Nat
  seq     : Nat
  deriving DecidableEq, Repr

/-- R271, R272: a handle queue: its two FIFOs of handles, heads first. -/
structure HandleQ where
  gen   : Nat
  free  : List Nat
  ready : List Nat
  deriving DecidableEq, Repr

/-- Where a byte range lies for a copy or stream: a physical address, or a global address still to be translated,
or another module's. -/
inductive Loc where
  | phys (addr : Nat)
  | glob (addr : Nat)
  /-- a global address whose translation is known -/
  | here (addr phys : Nat) (shared : Bool)
  | host (addr : Nat)
  | nowhere
  deriving DecidableEq, Repr

/-- One transfer of at most 256 bytes of a record or chunk: 0 to read, 1 reading, 2 to write, 3 writing, 4 done. -/
structure Seg where
  recNo  : Nat
  /-- what it carries: 0 bytes to move, 1 a tile header, 2 payload to gather, 3 an index, 4 bytes to write, 5 payload to check
  alone, 6 bytes of an mcopy whose memory is not yet known, 7 a reduce row, 8 bytes of a record with a side in another module, read whole
  before they are written, 9 an index that such a record has used -/
  kind   : Nat
  /-- its place in the record -/
  off    : Nat
  src    : Loc
  dst    : Loc
  len    : Nat
  stage  : Nat
  tag    : Nat
  data   : List Byte
  poison : List Bool
  deriving DecidableEq, Repr

/-- R366: a copy step in its engine. -/
structure CopyJob where
  core   : Nat
  slot   : Nat
  step   : Nat
  desc   : BitVec 1024
  dAddr  : Nat
  /-- R368. -/
  done   : Nat
  /-- records whose segments have been made -/
  made   : Nat
  segs   : List Seg
  halt   : Option Halt
  /-- R354: records whose tile has been read and whose check is pending. -/
  checks : List Nat
  /-- R404, R408: the record at which the copy will stop once those before it are written: a step cause, or none for poison -/
  ending : Option (Nat × Option Nat)
  /-- what the records in flight will count when they are written: record and note -/
  notes  : List (Nat × Nat)
  /-- R736: an address mismatch has been retried. -/
  retried : Bool
  deriving DecidableEq, Repr

/-- R380, R383, R395: a chunk begun: a load of an operand stream, or a slot of a vector stream's row. -/
structure Chunk where
  pos     : Nat
  /-- the source tile's header with its poison, kept once the chunk is staged -/
  head    : List (Byte × Bool)
  /-- R408: why it cannot be delivered, when it cannot -/
  bad     : Option Nat
  segs    : List Seg
  /-- read, and staged in core memory where its stream stages, so that it can be delivered -/
  full    : Bool
  /-- R380: bytes of a load's share beyond its staging slot (log entry 104) -/
  rest    : List (Byte × Bool)
  /-- R394: the headers that it completes have been sent -/
  headed  : Bool
  /-- R394: it only writes headers with poison, for a stream about to be unbound -/
  closing : Bool
  deriving DecidableEq, Repr

/-- R372: a stream slot. -/
structure Stream where
  bound   : Bool
  desc    : BitVec 1024
  dAddr   : Nat
  /-- loads, or slots of rows, delivered, R396 -/
  done    : Nat
  /-- R354: where it has read from since it was bound, resumed or rewound -/
  since   : Nat
  /-- R409: the chunks that it had begun to fetch before it was last rewound: one begun again below this is refetched -/
  fetched : Nat
  /-- R384: the marks held, by accumulator tile. -/
  marks   : Tab Nat
  resume  : Option Nat
  /-- R388: handles held, with the first load drawn from each. -/
  handles : List (Nat × Nat)
  /-- R376: engine number and role (0 A, 1 B). -/
  engine  : Option (Nat × Nat)
  staged  : List Chunk
  halt    : Option Halt
  /-- R354: the tiles read whose check is pending: true for one that disagrees. -/
  checks  : List Bool
  /-- R381, R382: the tiles drawn from a lane or from handles' buffers, the last maybe in part, with their poison by byte. -/
  drawn   : List (List (Byte × Bool))
  /-- a vector row that the vector unit receives, or has handed over, in FP32, and whether a poisoned element is in it -/
  row     : Option (List (BitVec 32))
  rowPoison : Bool
  /-- R394: payload bytes written of tiles not complete, by (i3 * 2^32 + s) * 2^32 + payload offset -/
  written : Tab Byte
  /-- R736: the chunk at hand is being retried after an address mismatch. -/
  retried : Bool
  deriving DecidableEq, Repr

/-- R247: a step issued and not complete. -/
structure Issued where
  step : Nat
  op   : Nat
  /-- a vector step's rows done, a send's tokens sent -/
  done : Nat
  deriving DecidableEq, Repr

/-- A `q.send` or `q.recv` under way: tokens moved, bytes of the tile, the address of its buffer and the handle held. -/
structure Moving where
  tokens : Nat
  addr   : Nat
  bytes  : Nat
  handle : Option Nat
  poison : Bool
  deriving DecidableEq, Repr

/-- R447: a landing area. -/
structure Area where
  bound  : Bool
  row    : Nat
  col    : Nat
  replay : Nat
  chunks : List Nat
  /-- R736: a packet of it is being retried after an address mismatch. -/
  retried : Bool
  deriving DecidableEq, Repr

/-- R329: a synchronisation operation outstanding at its core. -/
structure SyncOut where
  step   : Nat
  /-- which request of the core it is -/
  tag    : Nat
  op     : Nat
  remote : Bool
  result : Nat
  since  : Nat
  /-- R332: refused by a full wait table, to issue again. -/
  retry  : Bool
  deriving DecidableEq, Repr

/-- R743, R744: what a primary waits for from its twin. -/
structure TwinWait where
  step  : Nat
  crc   : BitVec 32
  since : Nat
  /-- the two values agreed -/
  agreed : Bool
  rerun : Bool
  deriving DecidableEq, Repr

/-- A context slot, 05_spatial.md. -/
structure Slot where
  state    : SlotState
  /-- R243. -/
  stopping : Bool
  /-- R236. -/
  image    : BitVec 1536
  g1       : Bool
  /-- R304: the ring table stands, and where -/
  ringOn   : Bool
  ringTab  : Nat
  landOn   : Bool
  landTab  : Nat
  ip       : Nat
  loops    : Tab Nat
  /-- R254: the core's compute count when it became RUNNING. -/
  since    : Nat
  /-- R269, R322: the load generation, modulo 16. -/
  gen      : Nat
  lanes    : Tab Lane
  ports    : Tab Port
  hqs      : Tab HandleQ
  /-- R284: the lane the reserve serves. -/
  reserve  : Option Nat
  strms    : Tab Stream
  issued   : List Issued
  /-- R260: the tile a queue step is moving. -/
  moving   : Option Moving
  /-- R742: outside steps of the primary that completed before the twin issued them, by step index. -/
  fwd      : Tab Nat
  areas    : Tab Area
  syncs    : List SyncOut
  /-- R280: a stall beacon stands; the full lanes it reported -/
  beacon   : Bool
  told     : List Nat
  /-- R811: in a declared wait as last reported; R810: progress reported in the window starting here. -/
  waits    : Bool
  progAt   : Option Nat
  /-- R734, R735. -/
  monIp    : Nat
  monLoops : Tab Nat
  sigSeq   : BitVec 32
  sigMon   : BitVec 32
  /-- R323. -/
  errLost  : Bool
  lastErr  : BitVec 256
  /-- R688. -/
  faultAddr : Nat
  faultUnit : Nat
  faultCause : Nat
  /-- R739: the twin's core and slot; the primary's, when this slot is a twin. -/
  twin     : Option (Nat × Nat)
  primary  : Option (Nat × Nat)
  twinWait : List TwinWait
  /-- R781. -/
  reloc    : List (Nat × Nat)
  /-- R806: a pending divergence was injected. -/
  injected : Bool
  deriving DecidableEq, Repr

/-- R304, R308: an endpoint. -/
structure Endpoint where
  slot   : Nat
  epoch  : Nat
  isOpen : Bool
  /-- R306: epoch of the previous binding. -/
  prev   : Option Nat
  /-- R502. -/
  parked : Bool
  deriving DecidableEq, Repr

/-- A core. -/
structure Core where
  slots  : Tab Slot
  ends   : Tab Endpoint
  copies : List CopyJob
  /-- next request tag of its copy engine, R421 -/
  nextTag : Nat
  /-- R253: the slot selected last. -/
  last   : Nat
  /-- R137, R256: the slots whose vector steps the vector unit works on or has waiting, oldest first. -/
  vecQ   : List Nat
  /-- R171: the partials its vector unit has formed, by row and stage, the partners that have still to fold each, and
  those formed in the step under way -/
  parts  : Tab (List (BitVec 32))
  owed   : Tab (List Nat)
  formed : List Nat
  /-- R731: the row under way has been executed again. -/
  vecRetry : Bool
  deriving DecidableEq, Repr

/-- R224: the output record being formed. -/
structure MergeRec where
  index  : Nat
  count  : Nat
  poison : Bool
  words  : List AccWord
  deriving DecidableEq, Repr

/-- R222: a merge in a hub. -/
structure MergeJob where
  core : Nat
  slot : Nat
  step : Nat
  desc : BitVec 512
  /-- R227: out_done and rec_done. -/
  out  : Nat
  recs : List Nat
  halt : Option Halt
  /-- records consumed, the last index read and the last consumed of each input, its next record, and the sum under way -/
  taken : List Nat
  prev : Tab Nat
  used : Tab Nat
  next : Tab (List Byte × List Bool)
  /-- the last index of each input among the records of out_done -/
  last : Tab Nat
  sum  : Option MergeRec
  /-- the sum is being written -/
  emitting : Bool
  segs : List Seg
  /-- R736: it is being retried after an address mismatch. -/
  retried : Bool
  deriving DecidableEq, Repr

/-- R449 step 3: a post of a completed tile that its hub has sent: its request's tag, the slot it is for, with that slot's load
generation, and the object. -/
structure HubPost where
  tag    : Nat
  core   : Nat
  slot   : Nat
  gen    : Nat
  region : Nat
  index  : Nat
  deriving DecidableEq, Repr

/-- A cluster hub. -/
structure Hub where
  merges : List MergeJob
  copies : List CopyJob
  nextTag : Nat
  /-- R401: the hub's share of the stack cache's directory: the lines held, by physical line. -/
  dir : List Nat
  /-- R449, R294: the posts it has sent and that have not been answered. -/
  posts : List HubPost
  deriving DecidableEq, Repr

/-! ## Slices and their groups -/

/-- R495: a time-slicing group. -/
structure Group where
  configs  : List Nat
  cores    : List Nat
  resident : Bool
  /-- saved out by ctx.save or a planned dark, not by time-slicing -/
  byHost   : Bool
  image    : ImageState
  /-- R687: the image pool's global address; none for the slice's own pool. -/
  pool     : Option Nat
  /-- R796: the dark regions its cores lie in, each with the region that holds their images meanwhile. -/
  dark     : List (Nat × Nat)
  /-- R495: the supervisor's count when its period began. -/
  began    : Nat
  /-- R497: which of the four save images of each of its cores is this group's, by core -/
  places   : Tab Nat
  /-- R500, R501, R503: while its images are written or read, by core, the section that comes next and the bytes of it that are
  copied: of a save 0 to 5, and 6 for one that cannot go on; of a restore the sections left, 5 to 0, and 6 -/
  prog     : Tab (Nat × Nat)
  /-- R498 section 0 while saved out, and from step 8 of R501 on: the cores and engines as saved. -/
  saved    : Tab Core
  engs     : Tab Engine
  /-- the steps of its cores in their hubs -/
  jobs     : Tab Hub
  /-- R779: halted for a re-placement, and the affected cores. -/
  halted   : Bool
  affected : List Nat
  deriving DecidableEq, Repr

/-- R637. -/
inductive SliceState where
  | active
  | resetting
  | failed
  | destroying
  deriving DecidableEq, Repr

/-- R624: a slice. -/
structure Slice where
  state     : SliceState
  frame     : Nat
  regions   : List Nat
  ports     : List Nat
  tiers     : List Nat
  periodMs  : Nat
  mode      : Nat
  heal      : HealPolicy
  partResets : Nat
  confs     : Tab Conf
  groups    : List Group
  /-- R500: saves of each save image since the slice was created, by core * 4 + place -/
  saves     : Tab Nat
  origin    : RouteTab
  deriving DecidableEq, Repr

/-! ## Regions -/

/-- R331: a parked wait. -/
structure Parked where
  index   : Nat
  op      : Nat
  operand : Reg
  /-- the word an arrive_wait returns -/
  before  : Reg
  core    : Nat
  slot    : Nat
  step    : Nat
  tag     : Nat
  deriving DecidableEq, Repr

/-- R420: a packet. `phys` is the translated address of the access word. -/
structure Packet where
  dest    : Nat
  src     : Nat
  vc      : Nat
  flagged : Bool
  kind    : Nat
  tbl     : Bool
  pseq    : Nat
  fepoch  : Bool
  fwait   : Nat
  rtag    : Nat
  /-- the bytes it reads or writes, and where they lie -/
  count   : Nat
  phys    : Nat
  /-- R421: the extension word: access word, token header or reduction key -/
  ext     : Reg
  payload : List Byte
  poison  : List Bool
  /-- the unit that sent it, for what is answered to it -/
  unit    : Unit
  /-- R399: a read by a stream or copy from a page marked shared -/
  cached  : Bool
  /-- an answer: the channel of the packet it answers, 4 or 5, when that channel counts answers -/
  answers : Nat
  /-- R412: the check word it carries -/
  check   : Reg
  /-- R427: its place in the order of arrivals at the router that holds it -/
  seen    : Nat
  /-- R434, R443: this router has counted its stall, or reported its sum_check -/
  noted   : Bool
  deriving DecidableEq, Repr

/-- R402: a stack-cache fill under way. -/
structure Fill where
  line    : Nat
  waiting : List Packet
  deriving DecidableEq, Repr

/-! ## Narrow network -/

/-- What a narrow-network message carries (R294). -/
inductive Body where
  | user (tag epoch : Nat) (words : List Reg) (poison : Bool)
  | openGrant (port gen credits : Nat)
  | openRequest (lane srcPort : Nat)
  | credit (port gen n : Nat)
  | stall (handle config : Nat) (full : List Nat)
  | progress (handle config : Nat)
  | extend (lane : Nat)
  | replayRequest (engine row col replay : Nat)
  | accept (engine row col : Nat)
  | abort (engine row col : Nat)
  | watchdog (handle config : Nat) (moved waits : Bool)
  | twin (step : Nat) (crc : BitVec 32)
  /-- R294: an operation on its way to its object: its number under R328 and its operands -/
  | syncReq (region index op : Nat) (a b : Reg) (step tag : Nat)
  | cancel (region index tag : Nat)
  | syncResp (tag status : Nat) (word : Reg)
  | orphan (gen kind : Nat) (detail : Reg)
  deriving DecidableEq, Repr

/-- A narrow-network message in flight; `src` and `dst` are core IDs, region indices for a die, or a hub's endpoint ID. -/
structure Msg where
  src     : Nat
  srcSlot : Nat
  dst     : Nat
  dstSlot : Nat
  body    : Body
  /-- R322: the sending slot's load generation -/
  gen     : Nat := 0
  /-- R319: the step that sent it, for a notice about it; 0 where no step did -/
  step    : Nat := 0
  /-- R292: where it is: router * 8 + input port, a router named by the endpoint it belongs to; none while it waits at its
  source -/
  place   : Option Nat := none
  /-- R461: the route-table copy stamped when it entered the network -/
  tbl     : Bool := false
  deriving DecidableEq, Repr

/-- A region: its memory-side die, its objects and its controller. -/
structure Region where
  /-- R324: state words, zero when not listed. -/
  sync     : Tab Reg
  /-- R331. -/
  waits    : List Parked
  /-- R402: the fills of the stack cache under way. -/
  fills    : List Fill
  /-- R502: parked messages. -/
  parked   : List Msg
  /-- R829, newest first; R832. -/
  cloves   : List Clove
  cloveSeq : Nat
  /-- R750: start of the patrol window on the region's counter, passes done per stack of the region. -/
  patrolAt : Nat
  patrolOk : List Nat
  /-- R764: errors per 64 KiB page in this patrol window: page, corrected, uncorrectable. -/
  pageErrs : Tab (Nat × Nat)
  /-- R764: core-memory words that met a double-bit error, with when. -/
  dblErrs  : Tab Nat
  /-- R797: the memory output failed while dark; R798. -/
  memLost  : Bool
  /-- R864: the memory-side die is in retention. -/
  retained : Bool
  /-- R890: its stacks await the HBM test at relighting. -/
  untested : Bool
  /-- R843: it awaits its wipe at relighting. -/
  unwiped  : Bool
  deriving DecidableEq, Repr

/-! ## The wafer mesh -/

/-- R415: a link's retries in its window. -/
structure LinkState where
  since   : Nat
  retries : Nat
  /-- R804: CRC errors planted. -/
  planted : Nat
  deriving DecidableEq, Repr

/-- R456. -/
structure Override where
  mtch  : BitVec 14
  mask  : BitVec 14
  code  : Nat
  valid : Bool
  deriving DecidableEq, Repr

/-- R432, R433, R435: the source's side of one (source, destination) pair. -/
structure PairSrc where
  sent    : Nat
  epoch   : Bool
  unanswered : Bool
  pseq    : Nat
  vc5Out  : Nat
  /-- R459: the switches of the source's stamp when it last sent to this destination -/
  swap    : Nat
  deriving DecidableEq, Repr

/-- R432, R435: the destination's side. -/
structure PairDst where
  got0    : Nat
  got1    : Nat
  pseq    : Nat
  deriving DecidableEq, Repr

/-- The wafer mesh and the routes of the narrow network. -/
structure Mesh where
  /-- packets in router buffers, by router * 8 + input port -/
  wires    : Tab (List Packet)
  /-- R424: packets that wait for room in a local input port, by the same key -/
  entering : Tab (List Packet)
  /-- R413: failed attempts of the packet that an input port receives, by the same key -/
  tries    : Tab Nat
  /-- R427: the channel an output port sent last, by router * 8 + output port; the next arrival's number -/
  turn     : Tab Nat
  nextSeen : Nat
  /-- R413: the packets, by arrival number, that the router holding them has verified -/
  passed   : List Nat
  /-- R434: stalls counted by an endpoint -/
  stalls   : Tab Nat
  /-- R464: token and reduction packets dropped, as reported to Furelo: router, kind and destination, newest first -/
  dropped  : List (Nat × Nat × Nat)
  /-- packets handed to an endpoint, not acted on yet -/
  arrived  : Tab (List Packet)
  /-- R432: hold buffers; R435: reorder buffers, by endpoint -/
  held     : Tab (List Packet)
  reorder  : Tab (List Packet)
  links    : Tab LinkState
  /-- R455: entries that differ from the default route, by router * 2^14 + destination -/
  copy0    : Tab Nat
  copy1    : Tab Nat
  /-- R456: override entries, the lowest number first: of a router of the wafer mesh, or, from 2^14 on, of the narrow network -/
  detour   : Tab (List Override)
  /-- R462: how many override entries each router had at the switch order, which the new copy covers: the last of its list -/
  covered  : Tab Nat
  /-- R455: the same of the narrow network's routers -/
  narrow0  : Tab Nat
  narrow1  : Tab Nat
  /-- R458: the copy new packets are stamped with, when an endpoint differs from `active` -/
  active   : Bool
  switched : List Nat
  /-- R457, R462: 0 idle, 1 writing the shadow, 2 switch order sent and the old copy not retired -/
  rebuild  : Nat
  restart  : Bool
  /-- R459: how often an endpoint has switched its stamp -/
  swaps    : Tab Nat
  pairSrc  : Tab PairSrc
  pairDst  : Tab PairDst
  /-- R413: packets delivered twice cannot be; R421: next packet number for tags -/
  nextTag  : Nat
  deriving DecidableEq, Repr

/-! ## The Rolben fabric -/

/-- R542: a row. -/
structure Row where
  kind    : Nat
  hops    : Nat
  origin  : Nat
  final   : Nat
  mask    : BitVec 32
  addr    : Nat
  e2e     : Nat
  aux     : BitVec 32
  payload : List Byte
  poison  : List Bool
  flagged : Bool
  strict  : Bool
  /-- R574: whose records it carries, with their tags and the member each is for -/
  owners  : List (Unit × Nat × Nat)
  /-- R548: where its bytes were read, when they were -/
  source  : Option Nat
  /-- R536, R538: the slices whose origin route table sent what it carries -/
  handles : List Nat := []
  /-- R547: when it was queued, by its port's counter -/
  queuedAt : Nat := 0
  deriving DecidableEq, Repr

/-- R564: a retained train. -/
structure Train where
  seqs    : Tab Nat
  rows    : List Row
  flagged : Bool
  strict  : Bool
  first   : Nat
  last    : Tab Nat
  tries   : Tab Nat
  waiting : List Nat
  deriving DecidableEq, Repr

/-- R531. -/
structure Stranger where
  module : Nat
  tag    : BitVec 32
  member : Nat
  count  : Nat
  seen   : Nat
  deriving DecidableEq, Repr

/-- A Rolben port, 10_rolben.md. -/
structure RolPort where
  joined   : Bool
  member   : Nat
  table    : Tab Nat
  nextTable : Option (Tab Nat)
  strangers : List Stranger
  loopback : Nat
  /-- R532: when it joined and whether an idle edge has been seen. -/
  joinAt   : Nat
  edgeSeen : Bool
  /-- R554..R558. -/
  roster   : Bool
  pending  : BitVec 32
  named    : Option Nat
  /-- R556: the speaker whose preamble is awaited, and its start point -/
  await    : Option (Nat × Nat)
  /-- what it last sent and has not heard yet: the pair_seq values of a train sent for the first time, or none -/
  sending  : Option (Option (Tab Nat))
  /-- R565: retransmissions to make: member and pair_seq -/
  resend   : List (Nat × Nat)
  /-- R568: codewords received and uncorrectable in the window that began at cwAt -/
  cwAt     : Nat
  cwAll    : Nat
  cwBad    : Nat
  collisions : Nat
  skip     : Nat
  idleEdge : Nat
  /-- rows queued, and when the first was -/
  queue    : List Row
  queueAt  : Nat
  /-- assembled trains waiting to be sent -/
  ready    : List Train
  retained : List Train
  /-- R563: expected pair_seq per sender; R541 applied; sent per member -/
  expect   : Tab Nat
  sendSeq  : Tab Nat
  /-- R559: senders with applied trains unacknowledged, and since when -/
  owed     : Tab Nat
  /-- R566: failed attempts of the expected train per sender -/
  failed   : Tab Nat
  lost     : List Nat
  leaving  : Bool
  /-- R926: stopped by a reference loss. -/
  quiet    : Bool
  /-- R559: a train is wanted for the acknowledgements it carries. -/
  wantNull : Bool
  /-- R557, R559: what the train being sent acknowledges, and that it was wanted for that, until its echo is heard -/
  sentOwed : Tab Nat := []
  sentNull : Bool := false
  deriving DecidableEq, Repr

/-- A request that waits for a response row: a read, a sync operation. -/
structure FabReq where
  id   : Nat
  kind : Nat
  unit : Unit
  tag  : Nat
  slot : Nat
  step : Nat
  deriving DecidableEq, Repr

/-- R575: the final module's end-to-end state for one origin. -/
structure E2e where
  /-- the last e2e_seq applied in order -/
  applied : Nat
  /-- the last e2e_seq in order that was applied or refused, and those beyond it: whether each was applied -/
  seen    : Nat := 0
  ahead   : Tab Bool := []
  unacked : Nat
  /-- when the first row that is not acknowledged was applied, by the counter of the port `clock` -/
  since   : Nat
  clock   : Nat := 0
  /-- the port and member its rows came from, as port * 32 + member -/
  via     : Nat
  deriving DecidableEq, Repr

/-- R347: an access that Furelo makes for a command in another module: the command's slot, the bytes, and the answer's code once
it has come. -/
structure Far where
  frame  : Nat
  slot   : Nat
  id     : Nat
  addr   : Nat
  len    : Nat
  write  : Bool
  answer : Option Nat
  data   : List Byte
  poison : List Bool
  deriving DecidableEq, Repr

/-- R706: a range being loaded by admit.load. -/
structure AdmitLoad where
  handle : Nat
  /-- what remains: remote source, local destination, bytes -/
  ranges : List (Nat × Nat × Nat)
  done   : Nat
  /-- the ranges as the command gave them -/
  all_   : List (Nat × Nat × Nat)
  /-- the request outstanding: its ID, its bytes and its port -/
  out    : Option (Nat × Nat × Nat)
  deriving DecidableEq, Repr

/-- The fabric engines and the module's membership. -/
structure Fabric where
  moduleId : Nat
  key      : List Byte
  domain   : BitVec 32
  ports    : Tab RolPort
  relay    : RouteTab
  e2eNext  : Tab Nat
  e2eIn    : Tab E2e
  /-- R574: relayed rows sent and unacknowledged, by final module -/
  e2eOut   : List Row
  /-- R538, R549: the route entry of the last row to each module, by slice * 2^14 + module -/
  lastVia  : Tab Nat
  /-- R576: the unit behind the last one-hop write to each module that was acknowledged, with its core, slot and step -/
  lastAcked : Tab (Unit × Nat × Nat × Nat) := []
  requests : List FabReq
  nextReq  : Nat
  /-- R538: rows held while rows sent by an earlier route are unacknowledged, with their route entries -/
  heldRows : List (Nat × Row)
  /-- R605: rows received that wait for a back-invalidation, with port and sender -/
  waitRows : List (Nat × Nat × Nat × Row)
  admits   : List AdmitLoad
  far      : List Far := []
  deriving DecidableEq, Repr

/-! ## Tier ports -/

/-- R621: a request to a device. -/
structure TierReq where
  id      : Nat
  since   : Nat
  again   : Bool
  /-- the read request or write of the mesh it serves -/
  packet  : Packet
  /-- R430, R431: what a read found as it took effect -/
  data    : List Byte
  poison  : List Bool
  deriving DecidableEq, Repr

/-- R615: a tier port. -/
structure TierPort where
  linkUp  : Bool
  fenced  : Bool
  unsupported : Bool
  width   : Nat
  rate    : Nat
  /-- R617: base and capacity in GiB of each device; 0 capacity for one removed. -/
  devices : List (Nat × Nat)
  reqs    : List TierReq
  nextReq : Nat
  deriving DecidableEq, Repr

/-! ## What leaves the module -/

/-- An effect outside the module: a write to host memory, an MSI-X message, a message to the tray, a request on a link,
a transmission on a segment. -/
inductive Out where
  | hostWrite (addr : Nat) (data : List Byte)
  | msix (vector : Nat) (addr data : Nat)
  | mctp (code seq : Nat) (payload : List Byte)
  /-- the device requests of CXL.cache: RdCurr, and ItoMWr for a whole line and WrCur for a part of one (R609) -/
  | rdCurr (addr len : Nat)
  | itoMWr (addr : Nat) (data : List Byte) (poison : Bool)
  | wrCur (addr : Nat) (data : List Byte) (poison : Bool)
  | bisnp (line : Nat) (data : Bool)
  | hostData (dpa : Nat) (data : List Byte) (poison : Bool)
  | snoopResp (line : Nat)
  | tierReq (port id : Nat)
  /-- a reservation burst of R550, in a slot of a window, with the value of the port's counter at which it leaves (R526) -/
  | burst (port slot at_ : Nat) (record : List Byte)
  /-- a train, with the value of the port's counter at which it leaves (R526) -/
  | train (port at_ : Nat) (data : List Byte)
  | doe (data : List Byte)
  | barRead (off value : Nat)
  | tdo (instruction : Nat)
  | dap (addr : Nat) (data : List Byte)
  deriving DecidableEq, Repr

/-- The machine. -/
structure State where
  /-- Commands that wait, first in first out. -/
  pending : List Instr
  fuses   : Fuses
  nv      : NonVolatile
  power   : Power
  clocks  : Clocks
  pins    : Pins
  boot    : Boot
  hp      : HostPort
  frames  : Tab Frame
  sup     : Supervisor
  caps    : Capability
  slices  : Tab Slice
  xlat    : Translation
  mem     : Memory
  engines : Tab Engine
  cores   : Tab Core
  hubs    : Tab Hub
  regions : Tab Region
  mesh    : Mesh
  narrow  : List Msg
  fabric  : Fabric
  tiers   : Tab TierPort
  /-- R675: counters by class, unit and number. -/
  counts  : Tab Nat
  /-- What has left the module, newest first. -/
  outbox  : List Out
  /-- The model's own: free values used so far. -/
  free    : Nat
  deriving DecidableEq, Repr

/-! ## Reset: the supply has just come within limits and `MOD_RESET_N` is released; no start has begun -/

/-- R847, R845: the image the factory wrote (its digest is open: log entry 8). -/
def Image.factory : Image := { digest := [], svn := 0, key := 0, revoke := 0 }

/-- R673: no test has run. -/
def SelfTest.none : SelfTest :=
  { result := 0, abort := 0, logicMs := 0, sramMs := 0, stamp := 0, regions := [], running := false, began := 0 }

/-- R905: below 720 hours of samples. -/
def AgeEntry.fresh : AgeEntry := { hours := 0, dominant := 0, sampled := 0, told := false }

/-- A module as shipped: DEPLOYED, at the life-cycle count its two transitions gave it. Log entries 3 and 8. -/
def Fuses.shipped : Fuses :=
  { ordering := .h48, life := .deployed, lcCount := 2, minSvn := 0, revoked := 0, serial := 0 }

/-- The non-volatile store as shipped. Log entry 8. -/
def NonVolatile.shipped : NonVolatile :=
  { map := [], fenceBits := [], hostFences := [], keysHeld := true, keyGen := 1, sealedAt := 2, chain := some [], wipePending := false,
    drained := false, suspect := 0, bootImage := .factory, prevImage := none, staged := none, nextImage := none, activated := false,
    packs := [], journal := [], startMark := false, testMark := false, bist := .none, cleanDown := none, heldDown := false, hours := 0,
    ageRegion := [], agePort := [], ageStack := [], ageCommon := .fresh, vmin := [] }

/-- R911, R926, R931: supply and reference good, nothing tripped. Log entry 8. -/
def Power.atReset : Power :=
  { state := .m4, mask := 0, inputMv := 50000, band := .operating, within := true, standby := true, refLost := false,
    refSince := 0, refParked := false, flow := 0, flowValid := false, trayAt := 0, trayMissed := false,
    trayCap := 34000, inlet := 250, ioDie := 250, watts := 0, steps := [], releaseAt := 0, sensors := [], tripped := false,
    coolSince := [], dieCut := [], demands := [], waiting := [] }

/-- R925: every counter starts at 0. -/
def Clocks.atReset : Clocks :=
  { sup := 0, region := [], die := [], port := [], input := 0, compute := [], mesh := 0 }

/-- R935: both resets released, no tray request, no probe. -/
def Pins.atReset : Pins :=
  { modReset := false, perst := false, trayReq := false, vio := true, thermTrip := false, alert := false,
    dbgPrsnt := false, tap := 0, trayReqAt := none, trayBusy := false }

/-- R876: `HP_BOOT` reads 0. -/
def Boot.atReset : Boot :=
  { warm := false, phase := 0, fail := 0, fallback := false, coldReason := 0, elapsed := 0, began := 0,
    running := false, march := [], tested := false }

/-- R601: an uncommitted decoder. -/
def HdmDecoder.off : HdmDecoder := { base := 0, skip := 0, size := 0, committed := false, error := false }

/-- R593: the command register and the addresses of the BARs are clear; bits 3:0 of a BAR say 64-bit and not prefetchable. -/
def PortConfig.fresh : PortConfig :=
  { command := 0, bar0 := 4, bar2 := 4, aerCor := 0, aerUnc := 0, rasCor := 0, rasUnc := 0, placed := 0 }

/-- R611: no exchange on the DOE mailbox. -/
def Doe.fresh : Doe := { vca := [], certs := [], meas := [], negotiated := false, completed := none, response := [] }

/-- R596, R656, R595: registers read 0, MSI-X disabled, the link down. -/
def HostPort.atReset : HostPort :=
  { event := 0, eventEn := 0, errInfo := 0, errAddr := 0, msix := [], msixPend := [],
    msixOn := false, linkUp := false, width := 0, rate := 0, biOn := false, decoder0 := .off,
    decoder1 := .off, config := .fresh, component := [], filter := [], backInv := [], waitReads := [], cxlReset := false,
    doe := .fresh }

/-- R699: the module default before any heal.policy. Log entry 8. -/
def HealPolicy.initial : HealPolicy := { auto := true, hold := false, limit := 0 }

/-- The supervisor's memory after it boots. -/
def Supervisor.atReset : Supervisor :=
  { alive := true, nextHandle := 1, challenge := none, challengeN := 0, session := none, dapWrote := false,
    gathers := [], checkDefault := 0, healDefault := .initial, injections := [], beat := [], beatFail := [],
    ctrlHalted := [], resets := [], nextReset := 0, detections := [], heldRecs := [],
    envelope := false, scrub := false, selftest := false, firmware := false, holds := false, lapse := 0, lapses := 0,
    cycleAsked := false, resetting := false, mctpSeq := 0, aniseAt := [], aniseRun := none, aniseHeld := [], replaced := [],
    lifeMove := none, powerMove := none, beatSent := 0, teleSent := 0, admitted := [],
    nextOrder := 0, destroys := [] }

/-- R60: generation 1 comes at ready; nothing out of service. -/
def Capability.atReset : Capability :=
  { gen := 0, coresOut := [], hubsOut := [], linksOut := [], seamsOut := [], pagesOut := [], stacksOut := [],
    portsOut := [], tiersOut := [], ctrlsOut := [], shed := [] }

/-- R474: every window unowned. -/
def Translation.atReset : Translation :=
  { windows := [], leaves := [], overrides := [], walks := [], cache := [], migrating := [], tables := [] }

/-- An empty mesh. -/
def Mesh.atReset : Mesh :=
  { wires := [], entering := [], tries := [], turn := [], nextSeen := 0, passed := [], stalls := [], dropped := [], arrived := [], held := [], reorder := [], links := [], copy0 := [], copy1 := [], detour := [], covered := [], narrow0 := [], narrow1 := [],
    active := false, switched := [], rebuild := 0, restart := false, swaps := [], pairSrc := [], pairDst := [], nextTag := 0 }

/-- R534: a route table of invalid entries. -/
def RouteTab.empty : RouteTab := { active := [], shadow := [], fresh := false, detour := [] }

/-- R46: no domain. -/
def Fabric.atReset : Fabric :=
  { moduleId := 0, key := [], domain := 0, ports := [], relay := .empty, e2eNext := [], e2eIn := [], e2eOut := [],
    lastVia := [], requests := [], nextReq := 1, heldRows := [], waitRows := [], admits := [] }

/-- The machine right after reset. -/
def State.reset : State :=
  { pending := [], fuses := .shipped, nv := .shipped, power := .atReset, clocks := .atReset, pins := .atReset,
    boot := .atReset, hp := .atReset, frames := [], sup := .atReset, caps := .atReset, slices := [],
    xlat := .atReset, mem := { cells := [], poison := [] }, engines := [], cores := [], hubs := [], regions := [],
    mesh := .atReset, narrow := [], fabric := .atReset, tiers := [], counts := [], outbox := [], free := 0 }

end Sys2Proof.Machine
end

