-- ==== Sys2Proof/Machine/Tab.lean ====
section
/-! DEFINITION. Sparse tables and byte lists: the plain helpers every operation uses. -/

namespace Sys2Proof.Machine

/-- The entry of a key, when listed. -/
def look? {α : Type} : Tab α → Nat → Option α
  | [], _ => none
  | (a, b) :: t, k => if a = k then some b else look? t k

/-- The entry of a key, or the default of keys not listed. -/
def look {α : Type} (t : Tab α) (k : Nat) (d : α) : α := (look? t k).getD d

/-- Write an entry, in key order. -/
def put {α : Type} : Tab α → Nat → α → Tab α
  | [], k, v => [(k, v)]
  | (a, b) :: t, k, v =>
    if k < a then (k, v) :: (a, b) :: t else if a = k then (k, v) :: t else (a, b) :: put t k v

/-- Remove an entry. -/
def cut {α : Type} (t : Tab α) (k : Nat) : Tab α := t.filter (fun e => e.1 ≠ k)

/-- The keys listed. -/
def keys {α : Type} (t : Tab α) : List Nat := t.map (·.1)

/-- The entries under keys that satisfy p only. -/
def keep {α : Type} (t : Tab α) (p : Nat → Bool) : Tab α := t.filter (fun e => p e.1)

/-- A list of numbers that rises strictly. -/
def rising : List Nat → Bool
  | [] => true
  | a :: t => t.all (a < ·) && rising t

/-! ## Sets of numbers, kept rising -/

/-- Add a number to a rising list. -/
def addTo : List Nat → Nat → List Nat
  | [], k => [k]
  | a :: t, k => if k < a then k :: a :: t else if a = k then a :: t else a :: addTo t k

/-- Remove a number. -/
def dropFrom (l : List Nat) (k : Nat) : List Nat := l.filter (· ≠ k)

/-- Apply f for each element in order. -/
def each {σ α : Type} (l : List α) (s : σ) (f : α → σ → σ) : σ := l.foldl (fun s a => f a s) s

/-- Change the first element that satisfies p. -/
def onFirst {α : Type} (p : α → Bool) (f : α → α) : List α → List α
  | [] => []
  | a :: t => if p a then f a :: t else a :: onFirst p f t

/-! ## Bytes -/

/-- R23: the n bytes of a number, least significant first. -/
def bytesOf : Nat → Nat → List Byte
  | 0, _ => []
  | n + 1, v => BitVec.ofNat 8 v :: bytesOf n (v / 256)

/-- R23: the number a little-endian byte string spells. -/
def natOf : List Byte → Nat
  | [] => 0
  | b :: t => b.toNat + 256 * natOf t

/-- `n` bytes of a list from an offset, zero beyond its end. -/
def sub (l : List Byte) (off n : Nat) : List Byte :=
  let d := (l.drop off).take n
  d ++ List.replicate (n - d.length) 0

/-- The little-endian number of n bytes at an offset. -/
def natAt (l : List Byte) (off n : Nat) : Nat := natOf (sub l off n)

/-- Pad or cut to n bytes. -/
def fit (l : List Byte) (n : Nat) : List Byte := sub l 0 n

/-- Bits lo to lo + n - 1 of a number. -/
def bitsOf (v lo n : Nat) : Nat := v / 2 ^ lo % 2 ^ n

/-- Bit i of a number. -/
def bitAt (v i : Nat) : Bool := v / 2 ^ i % 2 = 1

/-- A Bool as 0 or 1. -/
def bn (b : Bool) : Nat := if b then 1 else 0

/-- Round up to a multiple. -/
def roundUp (v m : Nat) : Nat := (v + m - 1) / m * m

/-- Rounded-up division. -/
def ceilDiv (v m : Nat) : Nat := (v + m - 1) / m

/-- A two's complement number of w bits. -/
def signed (v w : Nat) : Int := if v < 2 ^ (w - 1) then v else (v : Int) - 2 ^ w

/-- Pieces of n elements. Fuel is the length. -/
def piecesAux {α : Type} (n : Nat) : Nat → List α → List (List α)
  | 0, _ => []
  | _, [] => []
  | f + 1, l => l.take n :: piecesAux n f (l.drop n)

/-- The list in pieces of n, the last maybe shorter. -/
def pieces {α : Type} (n : Nat) (l : List α) : List (List α) := piecesAux n l.length l

end Sys2Proof.Machine
end

