-- ==== Sys2Proof/Machine/Formats.lean ====
section
/-! DEFINITION. Number formats: exact decoding (R65 to R76) and rounding into a format (R159 to R165). -/

namespace Sys2Proof.Machine

/-- R69, R108: a decoded number: sign, significand and exponent, or a non-finite value. -/
inductive Val where
  | fin (neg : Bool) (m : Nat) (e : Int)
  | inf (neg : Bool)
  | nan
  deriving DecidableEq, Repr

/-- R70: the parameters of a floating-point element format. `special` is 0 for none, 1 for the E4M3 NaN, 2 for IEEE. -/
structure Fmt where
  (eBits mBits bias special maxM : Nat)
  maxE : Int
  eMax : Int
  deriving DecidableEq, Repr

/-- R65, R70: the floating-point formats by code, and 0xC for FP32; INT8 and INT4 have none. -/
def fmtOf : Nat → Option Fmt
  | 0x1 => some ⟨2, 1, 1, 0, 3, 1, 3⟩
  | 0x2 => some ⟨2, 3, 1, 0, 15, -1, 3⟩
  | 0x3 => some ⟨3, 2, 3, 0, 7, 2, 5⟩
  | 0x4 => some ⟨4, 3, 7, 1, 14, 5, 9⟩
  | 0x5 => some ⟨5, 2, 15, 2, 7, 13, 16⟩
  | 0x6 => some ⟨4, 3, 7, 1, 14, 5, 9⟩
  | 0x7 => some ⟨5, 2, 15, 2, 7, 13, 16⟩
  | 0x8 => some ⟨8, 7, 127, 2, 255, 120, 128⟩
  | 0x9 => some ⟨5, 10, 15, 2, 2047, 5, 16⟩
  | 0xC => some ⟨8, 23, 127, 2, 16777215, 104, 128⟩
  | _ => none

/-- R65: the element width in bits, 32 for FP32, 0 for a reserved code. -/
def fmtBits : Nat → Nat
  | 0x1 => 4
  | 0x2 => 6
  | 0x3 => 6
  | 0x4 => 8
  | 0x5 => 8
  | 0x6 => 8
  | 0x7 => 8
  | 0x8 => 16
  | 0x9 => 16
  | 0xA => 8
  | 0xB => 4
  | 0xC => 32
  | _ => 0

/-- R65: codes with an E8M0 scale per 32 elements. -/
def fmtScaled (code : Nat) : Bool := (1 ≤ code && code ≤ 5) || code = 0xA || code = 0xB

/-- R65: an operand format code. -/
def fmtOperand (code : Nat) : Bool := 1 ≤ code && code ≤ 0xB

/-- R70, R71: e_max. -/
def fmtEMax (code : Nat) : Int :=
  match fmtOf code with
  | some f => f.eMax
  | none => if code = 0xA then 8 else 4

/-- R69: decode a floating-point element. -/
def decodeFloat (f : Fmt) (bits : Nat) : Val :=
  let frac := bits % 2 ^ f.mBits
  let ex := bits / 2 ^ f.mBits % 2 ^ f.eBits
  let neg := bitAt bits (f.eBits + f.mBits)
  if f.special = 1 && ex = 2 ^ f.eBits - 1 && frac = 2 ^ f.mBits - 1 then .nan
  else if f.special = 2 && ex = 2 ^ f.eBits - 1 then (if frac = 0 then .inf neg else .nan)
  else if ex = 0 then .fin neg frac (1 - (f.bias : Int) - f.mBits)
  else .fin neg (2 ^ f.mBits + frac) ((ex : Int) - f.bias - f.mBits)

/-- R71: decode a two's-complement element of w bits. -/
def decodeInt (bits w : Nat) : Val :=
  let v := signed bits w
  .fin (v < 0) v.natAbs 0

/-- R69, R71: decode an element by its format code. -/
def decodeElem (code bits : Nat) : Val :=
  match fmtOf code with
  | some f => decodeFloat f bits
  | none => decodeInt bits (fmtBits code)

/-- R74: the exponent of a block scale byte; none is NaN. -/
def scaleExp (b : Nat) : Option Int := if b = 255 then none else some ((b : Int) - 127)

/-- R74: a value times its block scale. -/
def Val.scaled (v : Val) (b : Nat) : Val :=
  match scaleExp b, v with
  | none, _ => .nan
  | some x, .fin n m e => .fin n m (e + x)
  | some _, v => v

/-- A sign and a magnitude as an integer. -/
def sgn (neg : Bool) (m : Nat) : Int := if neg then -(m : Int) else m

/-- R78: p ÷ 2^k to the nearest integer, ties to even. -/
def roundEven (p : Int) (k : Nat) : Int :=
  let d : Int := 2 ^ k
  let q := p / d
  let r := p % d
  if 2 * r < d then q else if d < 2 * r then q + 1 else if q % 2 = 0 then q else q + 1

/-- R78: an integer at exponent e on the grid of spacing 2^et. -/
def alignTo (p e et : Int) : Int :=
  if et ≤ e then p * 2 ^ (e - et).toNat else roundEven p (et - e).toNat

/-- R164: floor(log₂) of a positive m × 2^e. -/
def log2Of (m : Nat) (e : Int) : Int := (Nat.log2 m : Int) + e

/-- R159, R160: how a value is rounded: nearest-even, or stochastically with a 24-bit hash. -/
inductive Rounding where
  | nearest
  | stochastic (r : Nat)
  deriving DecidableEq, Repr

/-- R159, R160: m × 2^e in units of 2^sp. -/
def roundUnits (mode : Rounding) (m : Nat) (e sp : Int) : Nat :=
  if sp ≤ e then m * 2 ^ (e - sp).toNat
  else
    let k := (sp - e).toNat
    match mode with
    | .nearest => (roundEven m k).toNat
    | .stochastic r =>
      let lo := m / 2 ^ k
      let f := (m % 2 ^ k) * 2 ^ 24 / 2 ^ k
      if r < f then lo + 1 else lo

/-- R162: the spacing of a format at a magnitude, its top binade continued. -/
def spacingAt (f : Fmt) (m : Nat) (e : Int) : Int :=
  let top := log2Of f.maxM f.maxE
  let low : Int := 1 - f.bias
  min (max (log2Of m e) low) top - f.mBits

/-- Compare n × 2^a with m × 2^b: is the first larger? -/
def magGt (n : Nat) (a : Int) (m : Nat) (b : Int) : Bool :=
  if b ≤ a then m < n * 2 ^ (a - b).toNat else m * 2 ^ (b - a).toNat < n

/-- The encoding, without sign, of n units of 2^sp that lies in range. -/
def encodeUnits (f : Fmt) (n : Nat) (sp : Int) : Nat :=
  if n < 2 ^ f.mBits then n
  else
    let n' := if n = 2 ^ (f.mBits + 1) then 2 ^ f.mBits else n
    let sp' := if n = 2 ^ (f.mBits + 1) then sp + 1 else sp
    ((sp' + f.mBits + f.bias).toNat) * 2 ^ f.mBits + (n' - 2 ^ f.mBits)

/-- The encoding of the largest finite magnitude. -/
def maxCode (f : Fmt) : Nat := encodeUnits f f.maxM f.maxE

/-- The code bits of a sign. -/
def signCode (f : Fmt) (neg : Bool) : Nat := if neg then 2 ^ (f.eBits + f.mBits) else 0

/-- R163: the canonical NaN. -/
def nanCode (f : Fmt) : Nat :=
  if f.special = 1 then 2 ^ (f.eBits + f.mBits) - 1
  else if f.eBits = 5 && f.mBits = 2 then 0x7F
  else (2 ^ f.eBits - 1) * 2 ^ f.mBits + 2 ^ (f.mBits - 1)

/-- The code of an infinity in a format that has one. -/
def infCode (f : Fmt) : Nat := (2 ^ f.eBits - 1) * 2 ^ f.mBits

/-- R162, R163: convert a value into an unscaled format: the code, whether it was beyond the range and finite, and
whether a NaN was written. -/
def convert (f : Fmt) (mode : Rounding) (sat : Bool) (v : Val) : Nat × Bool × Bool :=
  match v with
  | .nan => (nanCode f, false, true)
  | .inf neg =>
    if f.special = 2 then (signCode f neg + infCode f, false, false)
    else if sat then (signCode f neg + maxCode f, false, false) else (nanCode f, false, true)
  | .fin neg m e =>
    if m = 0 then (0, false, false)
    else
      let sp := spacingAt f m e
      let n := roundUnits mode m e sp
      if n = 0 then (0, false, false)
      else if magGt n sp f.maxM f.maxE then
        (if sat then (signCode f neg + maxCode f, true, false)
         else if f.special = 2 then (signCode f neg + infCode f, false, false)
         else (nanCode f, false, true))
      else (signCode f neg + encodeUnits f n sp, false, false)

/-- R164: the exponent q of a block-scaled output format. -/
def blockQ : Nat → Int
  | 0x1 => 2
  | 0x2 => 2
  | 0x3 => 4
  | 0x4 => 8
  | 0x5 => 15
  | 0xA => 6
  | _ => 2

/-- Whether a value is finite. -/
def Val.finite : Val → Bool
  | .fin _ _ _ => true
  | _ => false

/-- The larger of two magnitudes. -/
def magMax (a b : Nat × Int) : Nat × Int := if magGt a.1 a.2 b.1 b.2 then a else b

/-- R164: a value of a block as an element under scale exponent x: its code, and whether it saturated. -/
def blockElem (code : Nat) (mode : Rounding) (x : Int) (v : Val) : Nat × Bool :=
  match v with
  | .fin neg m e =>
    match fmtOf code with
    | some f =>
      if m = 0 then (0, false)
      else
        let e' := e - x
        let sp := spacingAt f m e'
        let n := roundUnits mode m e' sp
        if n = 0 then (0, false)
        else if magGt n sp f.maxM f.maxE then (signCode f neg + maxCode f, true)
        else (signCode f neg + encodeUnits f n sp, false)
    | none =>
      let w := fmtBits code
      let top := 2 ^ (w - 1) - 1
      let n := roundUnits mode m (e - x) 0
      let n' := min n top
      (if neg && n' ≠ 0 then 2 ^ w - n' else n', decide (top < n))
  | _ => (0, false)

/-- R164: convert a block of values: the scale byte, the codes and how many saturated. -/
def convertBlock (code : Nat) (modes : List Rounding) (vs : List Val) : Nat × List Nat × Nat :=
  if vs.all Val.finite then
    let amax := vs.foldl (fun a v => match v with
      | .fin _ m e => if m = 0 then a else if a.1 = 0 then (m, e) else magMax (m, e) a
      | _ => a) ((0 : Nat), (0 : Int))
    let x : Int := if amax.1 = 0 then -127 else max (-127) (min 127 (log2Of amax.1 amax.2 - blockQ code))
    let r := (modes.zip vs).map (fun p => blockElem code p.1 x p.2)
    ((x + 127).toNat, r.map (·.1), (r.filter (·.2)).length)
  else (255, vs.map (fun _ => 0), 0)

/-! ## Packing, R76 and R348 -/

/-- Elements of w bits packed from bit 0 up, as one number. -/
def packNat (w : Nat) : List Nat → Nat
  | [] => 0
  | x :: t => x % 2 ^ w + 2 ^ w * packNat w t

/-- Elements of w bits packed into bytes. -/
def packBits (w : Nat) (xs : List Nat) : List Byte := bytesOf (ceilDiv (w * xs.length) 8) (packNat w xs)

/-- The n elements of w bits a number packs. -/
def unpackNat (w : Nat) : Nat → Nat → List Nat
  | 0, _ => []
  | n + 1, v => v % 2 ^ w :: unpackNat w n (v / 2 ^ w)

/-- n elements of w bits from bytes. -/
def unpackBits (w n : Nat) (l : List Byte) : List Nat := unpackNat w n (natOf l)

end Sys2Proof.Machine
end

