-- ==== Sys2Proof/Machine/Float.lean ====
section
/-! DEFINITION. FP32 arithmetic of the vector unit and the epilogue (R153 to R157, R168, R176): exact integers rounded
once. A binary32 number is its 32 bits as a Nat. -/

namespace Sys2Proof.Machine

/-- R86: FP32. -/
def fp32 : Fmt := ⟨8, 23, 127, 2, 16777215, 104, 128⟩

/-- R86: decode FP32 bits. -/
def dec32 (x : Nat) : Val := decodeFloat fp32 x

/-- R153: round a value to FP32, magnitudes beyond the range infinite. A zero keeps its sign. -/
def enc32 (v : Val) : Nat :=
  match v with
  | .fin neg 0 _ => signCode fp32 neg
  | v =>
    match v, (convert fp32 .nearest false v).1 with
    | .fin neg _ _, 0 => signCode fp32 neg
    | _, c => c

/-- R168: a finite result rounded nearest-even; a result beyond the range is open (log entry 9). -/
def result32 (op a b c : Nat) (v : Val) : Nat :=
  let r := enc32 v
  match dec32 r with
  | .fin _ _ _ => r
  | _ => (Config.fp32Open op a b c).toNat

/-- An operation on finite operands; others are open. -/
def finite1 (op a : Nat) (f : Bool → Nat → Int → Val) : Nat :=
  match dec32 a with
  | .fin n m e => result32 op a 0 0 (f n m e)
  | _ => (Config.fp32Open op a 0 0).toNat

/-- The exact sum of two finite values; a zero sum is −0 only when both are (log entry 10). -/
def addVal (an : Bool) (am : Nat) (ae : Int) (bn : Bool) (bm : Nat) (be : Int) : Val :=
  let e := min ae be
  let t := sgn an am * 2 ^ (ae - e).toNat + sgn bn bm * 2 ^ (be - e).toNat
  if t = 0 then .fin (an && bn) 0 e else .fin (t < 0) t.natAbs e

/-- R176 0x01. -/
def fAdd (a b : Nat) : Nat :=
  match dec32 a, dec32 b with
  | .fin an am ae, .fin bn bm be => result32 1 a b 0 (addVal an am ae bn bm be)
  | _, _ => (Config.fp32Open 1 a b 0).toNat

/-- R176 0x09: the sign bit inverted. -/
def fNeg (a : Nat) : Nat := if a < 2 ^ 31 then a + 2 ^ 31 else a - 2 ^ 31
/-- R176 0x08: the sign bit cleared. -/
def fAbs (a : Nat) : Nat := a % 2 ^ 31

/-- R176 0x02. -/
def fSub (a b : Nat) : Nat :=
  match dec32 a, dec32 b with
  | .fin an am ae, .fin bn bm be => result32 2 a b 0 (addVal an am ae (!bn) bm be)
  | _, _ => (Config.fp32Open 2 a b 0).toNat

/-- R176 0x03. -/
def fMul (a b : Nat) : Nat :=
  match dec32 a, dec32 b with
  | .fin an am ae, .fin bn bm be => result32 3 a b 0 (.fin (an != bn) (am * bm) (ae + be))
  | _, _ => (Config.fp32Open 3 a b 0).toNat

/-- R176 0x04: one rounding. -/
def fFma (a b c : Nat) : Nat :=
  match dec32 a, dec32 b, dec32 c with
  | .fin an am ae, .fin bn bm be, .fin cn cm ce =>
    result32 4 a b c (addVal (an != bn) (am * bm) (ae + be) cn cm ce)
  | _, _, _ => (Config.fp32Open 4 a b c).toNat

/-- A quotient of integers carried far enough to round correctly: its last bit is sticky. -/
def quotVal (neg : Bool) (n d : Nat) (e : Int) : Val :=
  let k := 64 + Nat.log2 d
  let q := n * 2 ^ k / d
  let s := if n * 2 ^ k % d = 0 then 0 else 1
  .fin neg (2 * q + s) (e - k - 1)

/-- R176 0x05. -/
def fDiv (a b : Nat) : Nat :=
  match dec32 a, dec32 b with
  | .fin an am ae, .fin bn bm be =>
    if bm = 0 then (Config.fp32Open 5 a b 0).toNat
    else result32 5 a b 0 (quotVal (an != bn) am bm (ae - be))
  | _, _ => (Config.fp32Open 5 a b 0).toNat

/-- Less than, for operands that are not NaN: zeros are equal. -/
def fLt? (a b : Nat) : Option Bool :=
  let key (x : Nat) : Int := if x < 2 ^ 31 then x else -((x - 2 ^ 31 : Nat) : Int)
  match dec32 a, dec32 b with
  | .nan, _ => none
  | _, .nan => none
  | _, _ => some (key a < key b)

/-- R176 0x06; with a NaN open. -/
def fMax (a b : Nat) : Nat :=
  match fLt? a b with
  | some l => if l then b else a
  | none => (Config.fp32Open 6 a b 0).toNat

/-- R176 0x07; with a NaN open. -/
def fMin (a b : Nat) : Nat :=
  match fLt? b a with
  | some l => if l then b else a
  | none => (Config.fp32Open 7 a b 0).toNat

/-- R176 0x0A: the largest integer not above; a result beyond 2^24 is the operand. -/
def fFloor (a : Nat) : Nat :=
  finite1 10 a (fun n m e =>
    if 0 ≤ e then .fin n m e
    else
      let q := sgn n m / 2 ^ (-e).toNat
      if q = 0 then .fin n 0 0 else .fin (q < 0) q.natAbs 0)

/-! ## Square roots, by bits -/

/-- floor(√n): the bits of the root from bit k down. -/
def sqrtBits (n : Nat) : Nat → Nat → Nat
  | 0, r => r
  | k + 1, r => sqrtBits n k (if (r + 2 ^ k) * (r + 2 ^ k) ≤ n then r + 2 ^ k else r)

/-- floor(√n). -/
def isqrt (n : Nat) : Nat := sqrtBits n (Nat.log2 n / 2 + 1) 0

/-- m × 2^e with an even exponent. -/
def evenExp (m : Nat) (e : Int) : Nat × Int := if e % 2 = 0 then (m, e) else (2 * m, e - 1)

/-- R176 0x0D: correctly rounded; of a negative number open. -/
def fSqrt (a : Nat) : Nat :=
  match dec32 a with
  | .fin n m e =>
    if m = 0 then a
    else if n then (Config.fp32Open 13 a 0 0).toNat
    else
      let p := evenExp m e
      let w := p.1 * 2 ^ 128
      let q := isqrt w
      result32 13 a 0 0 (.fin false (2 * q + (if q * q = w then 0 else 1)) (p.2 / 2 - 65))
  | _ => (Config.fp32Open 13 a 0 0).toNat

/-- R176 0x0E: correctly rounded; of zero or a negative number open. -/
def fRsqrt (a : Nat) : Nat :=
  match dec32 a with
  | .fin n m e =>
    if m = 0 || n then (Config.fp32Open 14 a 0 0).toNat
    else
      let p := evenExp m e
      let w := 2 ^ 192 / p.1
      let q := isqrt w
      let s := if q * q * p.1 = 2 ^ 192 then 0 else 1
      result32 14 a 0 0 (.fin false (2 * q + s) (-(p.2 / 2) - 97))
  | _ => (Config.fp32Open 14 a 0 0).toNat

/-! ## Exponential and logarithm in fixed point, 256 fraction bits -/

/-- Fraction bits carried. -/
def fixBits : Nat := 256
/-- One, in fixed point. -/
def fixOne : Nat := 2 ^ fixBits

/-- Σ t^(2i+1) ÷ (2i+1) from term i on: p is t^(2i+1), t2 is t². -/
def atanhTerms (t2 : Nat) : Nat → Nat → Nat → Nat
  | 0, _, _ => 0
  | k + 1, i, p => p / (2 * i + 1) + atanhTerms t2 k (i + 1) (p * t2 / fixOne)

/-- ln((1 + t) ÷ (1 − t)) for 0 ≤ t ≤ 1/3. -/
def lnRatio (t : Nat) : Nat := 2 * atanhTerms (t * t / fixOne) 90 0 t

/-- ln 2. -/
def fixLn2 : Nat := lnRatio (fixOne / 3)

/-- Σ r^n ÷ n! from term n on: p is r^n ÷ n!. -/
def expTerms (r : Nat) : Nat → Nat → Nat → Nat
  | 0, _, _ => 0
  | k + 1, n, p => p + expTerms r k (n + 1) (p * r / fixOne / (n + 1))

/-- m × 2^e, signed, in fixed point. -/
def toFix (neg : Bool) (m : Nat) (e : Int) : Int := alignTo (sgn neg m) e (-(fixBits : Int))

/-- e^x of a fixed-point x: significand and exponent, the last bit sticky. -/
def expFix (x : Int) : Nat × Int :=
  let k := x / (fixLn2 : Int)
  let r := (x % (fixLn2 : Int)).toNat
  (2 * expTerms r 80 0 fixOne + 1, k - fixBits - 1)

/-- ln of a positive m × 2^e, in fixed point. -/
def lnFix (m : Nat) (e : Int) : Int :=
  let l := Nat.log2 m
  let y := m * fixOne / 2 ^ l
  (e + l) * (fixLn2 : Int) + (lnRatio ((y - fixOne) * fixOne / (y + fixOne)) : Int)

/-- e^x as a value; beyond ±512 its exponent alone decides the rounding. -/
def expVal (neg : Bool) (m : Nat) (e : Int) : Val :=
  if m = 0 then .fin false 1 0
  else if magGt m e 512 0 then (if neg then .fin false 1 (-600) else .fin false 1 600)
  else
    let r := expFix (toFix neg m e)
    .fin false r.1 r.2

/-- R176 0x0B, R168. -/
def fExp (a : Nat) : Nat := finite1 11 a expVal

/-- R176 0x0C, R168: of zero or a negative number open. -/
def fLog (a : Nat) : Nat :=
  match dec32 a with
  | .fin n m e =>
    if m = 0 || n then (Config.fp32Open 12 a 0 0).toNat
    else
      let v := lnFix m e
      if log2Of m e = 0 && m = 2 ^ Nat.log2 m then 0
      else result32 12 a 0 0 (.fin (v < 0) (2 * v.natAbs + 1) (-(fixBits : Int) - 1))
  | _ => (Config.fp32Open 12 a 0 0).toNat

/-- The bits of 1.0. -/
def f1 : Nat := 0x3F800000
/-- The bits of 2.0. -/
def f2 : Nat := 0x40000000

/-- R168: 1 ÷ (1 + exp(−x)), each operation rounded. -/
def fSigmoid (a : Nat) : Nat := fDiv f1 (fAdd f1 (fExp (fNeg a)))
/-- R168: 1 − 2 ÷ (exp(2x) + 1), each operation rounded. -/
def fTanh (a : Nat) : Nat := fSub f1 (fDiv f2 (fAdd (fExp (fMul f2 a)) f1))

/-- R176 0x11. -/
def fLess (a b : Nat) : Nat :=
  match fLt? a b with
  | some l => if l then f1 else 0
  | none => (Config.fp32Open 17 a b 0).toNat

/-- R176 0x12. -/
def fEqual (a b : Nat) : Nat :=
  match fLt? a b, fLt? b a with
  | some l, some g => if l || g then 0 else f1
  | _, _ => (Config.fp32Open 18 a b 0).toNat

/-- R176 0x13: any operand but ±0 selects b; a NaN is open. -/
def fSelect (a b c : Nat) : Nat :=
  match dec32 a with
  | .nan => (Config.fp32Open 19 a b c).toNat
  | .fin _ 0 _ => c
  | _ => b

/-- The FP32 number nearest a natural number. -/
def fOfNat (n : Nat) : Nat := enc32 (.fin false n 0)

/-- R170: the lane totals: value j added to lane j mod 256, in increasing j. -/
def laneTotals (xs : List Nat) : List Nat :=
  (pieces 256 xs).foldl (fun (acc : List Nat) row =>
    (acc.zipIdx).map (fun p => match row[p.2]? with
      | some x => if p.1 = 2 ^ 32 then x else fAdd p.1 x
      | none => p.1)) (List.replicate 256 (2 ^ 32))

/-- R170 stage 3: half the lanes, l adding l + n. A lane that received no value is left out (2^32 marks it). -/
def foldLanes (l : List Nat) : List Nat :=
  let n := l.length / 2
  ((l.take n).zip (l.drop n)).map (fun p =>
    if p.2 = 2 ^ 32 then p.1 else if p.1 = 2 ^ 32 then p.2 else fAdd p.1 p.2)

/-- R170: the lane-order sum of n values. -/
def laneSum (xs : List Nat) : Nat :=
  let r := foldLanes (foldLanes (foldLanes (foldLanes (foldLanes (foldLanes (foldLanes (foldLanes (laneTotals xs))))))))
  match r with
  | x :: _ => if x = 2 ^ 32 then 0 else x
  | [] => 0

end Sys2Proof.Machine
end

