-- ==== Sys2Proof/Machine/Operands.lean ====
section
/-! DEFINITION. The fields of the records software and units exchange: plan words, step descriptors, tile headers. -/

namespace Sys2Proof.Machine

/-- Bits lo to lo + n - 1 of a record. -/
def fld {w : Nat} (d : BitVec w) (lo n : Nat) : Nat := bitsOf d.toNat lo n

/-- A record of w bits from bytes. -/
def recordOf (w : Nat) (l : List Byte) : BitVec w := BitVec.ofNat w (natOf l)

/-- Replace bits lo to lo + n - 1 of a number. -/
def setBits (v lo n x : Nat) : Nat := v - bitsOf v lo n * 2 ^ lo + x % 2 ^ n * 2 ^ lo

/-! ## The scale plan word, R93 -/

/-- R93 e_t. -/
def planEt (p : Nat) : Int := signed (bitsOf p 0 10) 10
/-- R93 headroom. -/
def planHeadroom (p : Nat) : Nat := bitsOf p 10 6
/-- R93 et_mode. -/
def planPlanned (p : Nat) : Bool := bitAt p 16
/-- R93 replay. -/
def planReplay (p : Nat) : Nat := bitsOf p 17 2
/-- R93 reduce. -/
def planReduce (p : Nat) : Bool := bitAt p 19
/-- R93 preload. -/
def planPreload (p : Nat) : Bool := bitAt p 20
/-- R93 fmt_a. -/
def planFmtA (p : Nat) : Nat := bitsOf p 21 4
/-- R93 fmt_b. -/
def planFmtB (p : Nat) : Nat := bitsOf p 25 4
/-- R93 k_count. -/
def planK (p : Nat) : Nat := bitsOf p 29 16
/-- R93 ovf. -/
def planOvf (p : Nat) : Bool := bitAt p 45
/-- R93 mismatch. -/
def planMismatch (p : Nat) : Bool := bitAt p 46
/-- R93 nonfinite. -/
def planNonfinite (p : Nat) : Bool := bitAt p 47

/-- R94: a plan word software may not write. -/
def planRejected (p : Nat) : Bool :=
  !(fmtOperand (planFmtA p)) || !(fmtOperand (planFmtB p)) || planHeadroom p = 63 || planK p = 0 ||
  bitsOf p 48 16 ≠ 0 || planReplay p ≠ 0 || bitsOf p 45 3 ≠ 0

/-- R91: the effective E_t of an attempt. -/
def effectiveEt (et : Int) (replay : Nat) : Int := et + 8 * replay

/-- R92. -/
def etOutside (et : Int) : Bool := et < -512 || 511 < et

/-- R93: the plan word a result carries: E_t, replay and the RO flags replaced. -/
def planResult (p : Nat) (et : Int) (replay : Nat) (ovf mismatch nonfinite : Bool) : Nat :=
  setBits (setBits (setBits p 0 10 ((et + 1024).toNat % 1024)) 17 2 replay) 45 3
    (bn ovf + 2 * bn mismatch + 4 * bn nonfinite)

/-! ## The engine step descriptor, R130 -/

/-- R130 opcode. -/
def sdOpcode (d : BitVec 512) : Nat := fld d 0 8
/-- R130 engine. -/
def sdEngine (d : BitVec 512) : Nat := fld d 8 2
/-- R130 start. -/
def sdStart (d : BitVec 512) : Bool := fld d 10 1 = 1
/-- R130 finish. -/
def sdFinish (d : BitVec 512) : Bool := fld d 11 1 = 1
/-- R130 a_stream. -/
def sdAStream (d : BitVec 512) : Nat := fld d 12 4
/-- R130 b_stream. -/
def sdBStream (d : BitVec 512) : Nat := fld d 16 4
/-- R130 k_blocks. -/
def sdKBlocks (d : BitVec 512) : Nat := fld d 20 6
/-- R130 preload_src. -/
def sdPreload (d : BitVec 512) : Nat := fld d 26 2
/-- R130 plan. -/
def sdPlan (d : BitVec 512) : Nat := fld d 64 64
/-- R130 in_addr. -/
def sdIn (d : BitVec 512) : Nat := fld d 128 23
/-- R130 out_addr. -/
def sdOut (d : BitVec 512) : Nat := fld d 160 23
/-- R130 out_mode. -/
def sdOutMode (d : BitVec 512) : Nat := fld d 183 3
/-- R130 dest_core. -/
def sdDest (d : BitVec 512) : Nat := fld d 192 12
/-- R130 red_tag. -/
def sdTag (d : BitVec 512) : Nat := fld d 204 16
/-- R130 tile_row. -/
def sdRow (d : BitVec 512) : Nat := fld d 256 24
/-- R130 tile_col. -/
def sdCol (d : BitVec 512) : Nat := fld d 280 20
/-- R130 step_seed. -/
def sdSeed (d : BitVec 512) : Nat := fld d 320 64
/-- R130 epi. -/
def sdEpi (d : BitVec 512) : Nat := fld d 384 64
/-- R130 scale_addr. -/
def sdScale (d : BitVec 512) : Nat := fld d 448 23
/-- R130 bias_addr. -/
def sdBias (d : BitVec 512) : Nat := fld d 472 23

/-- R25, R130: a non-zero reserved field. -/
def sdReserved (d : BitVec 512) : Bool :=
  fld d 28 36 ≠ 0 || fld d 151 9 ≠ 0 || fld d 186 6 ≠ 0 || fld d 220 36 ≠ 0 || fld d 300 20 ≠ 0 ||
  fld d 471 1 ≠ 0 || fld d 495 17 ≠ 0

/-- R131: the fields the descriptors of one accumulation share. -/
def sdShared (d : BitVec 512) : List Nat :=
  [sdPlan d, sdPreload d, sdIn d, sdOut d, sdOutMode d, sdDest d, sdTag d, sdRow d, sdCol d, sdSeed d, sdEpi d,
   sdScale d, sdBias d]

/-! ## The epilogue and sumac control words, R149, R201 -/

/-- R149 scale_mode. -/
def epScale (e : Nat) : Nat := bitsOf e 0 2
/-- R149 bias_mode. -/
def epBias (e : Nat) : Nat := bitsOf e 2 2
/-- R149 act. -/
def epAct (e : Nat) : Nat := bitsOf e 4 4
/-- R149 out_fmt. -/
def epFmt (e : Nat) : Nat := bitsOf e 8 4
/-- R149 round. -/
def epStochastic (e : Nat) : Bool := bitAt e 12
/-- R149 sat. -/
def epSat (e : Nat) : Bool := bitAt e 13
/-- R149 table_addr. -/
def epTable (e : Nat) : Nat := bitsOf e 14 23
/-- R149 table_ts. -/
def epTs (e : Nat) : Int := signed (bitsOf e 37 8) 8

/-- R132 0x21: a reserved value in an epilogue control word. -/
def epReserved (e : Nat) : Bool :=
  epBias e = 3 || 5 < epAct e || fmtBits (epFmt e) = 0 || bitsOf e 45 19 ≠ 0 ||
  (epAct e = 5 && (epTs e < -24 || 8 < epTs e))

/-- R201 mode. -/
def suMode (e : Nat) : Nat := bitsOf e 8 2
/-- R201 gc_b. -/
def suGc (e : Nat) : Bool := bitAt e 10
/-- R201 audit_rate. -/
def suRate (e : Nat) : Nat := bitsOf e 16 16
/-- R202: a control word the pass rejects. -/
def suRejected (e : Nat) : Bool :=
  !(epAct e = 1 || epAct e = 4) || suMode e = 3 || bitsOf e 11 5 ≠ 0 || bitsOf e 32 32 ≠ 0

/-! ## The tile header, R145 -/

/-- R145 kind. -/
def thKind (h : Nat) : Nat := bitsOf h 0 4
/-- R145 fmt. -/
def thFmt (h : Nat) : Nat := bitsOf h 4 4
/-- R145 poison. -/
def thPoison (h : Nat) : Bool := bitAt h 8
/-- R145 gc. -/
def thGc (h : Nat) : Bool := bitAt h 9
/-- R145 gc_dense. -/
def thGcDense (h : Nat) : Bool := bitAt h 10
/-- R145 rows. -/
def thRows (h : Nat) : Nat := bitsOf h 12 11
/-- R145 cols. -/
def thCols (h : Nat) : Nat := bitsOf h 23 11
/-- R145 plan. -/
def thPlan (h : Nat) : Nat := bitsOf h 64 64
/-- R145 check. -/
def thCheck (h : Nat) : Nat := bitsOf h 192 32
/-- R145 payload_bytes. -/
def thBytes (h : Nat) : Nat := bitsOf h 224 32

/-- R145: a header. -/
def mkHeader (kind fmt : Nat) (poison gc gcDense : Bool) (rows cols plan trow tcol check bytes : Nat) : List Byte :=
  bytesOf 32 (kind + fmt * 2 ^ 4 + bn poison * 2 ^ 8 + bn gc * 2 ^ 9 + bn gcDense * 2 ^ 10 + rows * 2 ^ 12 +
    cols * 2 ^ 23 + plan * 2 ^ 64 + trow * 2 ^ 128 + tcol * 2 ^ 152 + check * 2 ^ 192 + bytes * 2 ^ 224)

/-- R348, R349: payload bytes of a dense element tile; none when the tile is invalid. -/
def densePayload (fmt rows cols : Nat) : Option Nat :=
  let w := fmtBits fmt
  if w = 0 || rows = 0 || cols = 0 then none
  else if fmtScaled fmt then
    (if rows % 32 ≠ 0 || cols * w % 64 ≠ 0 then none
     else some (rows / 32 * (roundUp cols 8 + 32 * (cols * w / 8))))
  else if cols * w % 64 ≠ 0 then none else some (rows * (cols * w / 8))

/-- R189: payload bytes of a group-coded tile. -/
def gcPayload (fmt rows cols : Nat) : Option Nat :=
  if fmtBits fmt = 0 || fmt = 0xC || rows = 0 || cols = 0 || rows % 32 ≠ 0 then none
  else some (rows / 32 * ((if fmtScaled fmt then cols else 0) + 2 * (ceilDiv cols 2 + 4 * cols + fmtBits fmt * cols)))

/-- R351: the payload size a header's kind and shape give. -/
def payloadOf (h : Nat) : Option Nat :=
  if thKind h = 1 then
    (if thGc h && thGcDense h then none
     else if thGc h then gcPayload (thFmt h) (thRows h) (thCols h)
     else densePayload (thFmt h) (thRows h) (thCols h))
  else if thKind h = 2 then some 33792
  else if thKind h = 3 then some 41984
  else none

/-- R351: a valid header. -/
def thValid (h : Nat) : Bool := payloadOf h = some (thBytes h)

/-- R124: bytes a dense load of one K-step takes. -/
def kStepBytes (fa fb : Nat) : Nat :=
  8 * (fmtBits fa + fmtBits fb) + 2 * (bn (fmtScaled fa) + bn (fmtScaled fb))

/-- R185: bytes a group-coded load of one K-step takes. -/
def gcKStepBytes (fa fb : Nat) : Nat :=
  8 * fmtBits fa + 2 * bn (fmtScaled fa) + 4 * fmtBits fb + 18 + 2 * bn (fmtScaled fb)

end Sys2Proof.Machine
end

