-- ==== Sys2Proof/Machine/Accumulate.lean ====
section
/-! DEFINITION. Exact block accumulation (02_arithmetic.md), group coding and the bounds of the sumac pass
(04_sparsity.md), as arithmetic on values. -/

namespace Sys2Proof.Machine

/-! ## Products and words -/

/-- R108: the tag of a value. -/
def tagOf : Val → Tag
  | .fin _ _ _ => .finite
  | .inf false => .posInf
  | .inf true => .negInf
  | .nan => .nan

/-- R109: tags combined. -/
def tagJoin : Tag → Tag → Tag
  | .finite, t => t
  | t, .finite => t
  | .posInf, .posInf => .posInf
  | .negInf, .negInf => .negInf
  | _, _ => .nan

/-- R77, R108: an exact product. -/
def mulVal : Val → Val → Val
  | .nan, _ => .nan
  | _, .nan => .nan
  | .fin an am ae, .fin bn bm be => .fin (an != bn) (am * bm) (ae + be)
  | .inf an, .inf bn => .inf (an != bn)
  | .inf an, .fin bn bm _ => if bm = 0 then .nan else .inf (an != bn)
  | .fin an am _, .inf bn => if am = 0 then .nan else .inf (an != bn)

/-- The largest 64-bit signed word. -/
def maxWord : Int := 2 ^ 63 - 1

/-- An accumulator word cleared. -/
def AccWord.zero : AccWord := { ext := 0, tag := .finite, ovf := false }

/-- R78, R80, R85, R110: add a product or a preload to a word. -/
def addProduct (et : Int) (w : AccWord) (p : Val) : AccWord :=
  match p with
  | .fin n m e =>
    let q := alignTo (sgn n m) e et
    { w with ext := w.ext + BitVec.ofInt 80 q, ovf := w.ovf || decide (maxWord < (q.natAbs : Int)) }
  | p => { w with tag := tagJoin w.tag (tagOf p) }

/-- R84, R111: the finished word does not fit in 64 bits. -/
def wordOver (w : AccWord) : Bool :=
  w.tag = .finite && (w.ovf || decide (w.ext.toInt < -2 ^ 63) || decide (maxWord < w.ext.toInt))

/-- R100: a contributor's word is marked by a single product or preload alone. -/
def wordOvf (w : AccWord) : Bool := w.tag = .finite && w.ovf

/-- R102, R109: two partial words added. -/
def addWords (a b : AccWord) : AccWord :=
  { ext := a.ext + b.ext, tag := tagJoin a.tag b.tag, ovf := a.ovf || b.ovf }

/-- R112: a word as the epilogue receives it. -/
def wordVal (et : Int) (w : AccWord) : Val :=
  match w.tag with
  | .finite => .fin (w.ext.toInt < 0) w.ext.toInt.natAbs et
  | .posInf => .inf false
  | .negInf => .inf true
  | .nan => .nan

/-- R147: tag codes. -/
def tagCode : Tag → Nat
  | .finite => 0
  | .posInf => 1
  | .negInf => 2
  | .nan => 3

/-- R147. -/
def codeTag : Nat → Tag
  | 0 => .finite
  | 1 => .posInf
  | 2 => .negInf
  | _ => .nan

/-- R146: the payload of a kind 0x2 tile (8-byte words) or a kind 0x3 tile (10-byte words). The integer of a word whose
tag is not finite, which R111 discards, is written as 0 (DESIGN CHOICE, log entry 105). -/
def wordBytes (size : Nat) (ws : List AccWord) : List Byte :=
  (ws.map (fun w => bytesOf size (if w.tag = .finite then w.ext.toNat else 0))).flatten ++
    packBits 2 (ws.map (fun w => tagCode w.tag))

/-- R146: the words of such a payload. -/
def bytesWords (size n : Nat) (l : List Byte) : List AccWord :=
  let tags := unpackBits 2 n (l.drop (size * n))
  ((pieces size (l.take (size * n))).zip tags).map (fun p =>
    { ext := BitVec.ofInt 80 (signed (natOf p.1) (8 * size)), tag := codeTag p.2, ovf := false })

/-! ## Loads, R125, R184 -/

/-- The operands of one load: rows of 64 values by K-step, the largest block-scale exponents, dropped slots. -/
structure Load where
  a  : List (List Val)
  b  : List (List Val)
  xa : Option Int
  xb : Option Int
  /-- R229: slots dropped as out of range, and as repeats. -/
  far : Nat
  twice : Nat
  deriving DecidableEq, Repr

/-- The larger exponent, when there is one. -/
def maxExp : Option Int → Option Int → Option Int
  | none, y => y
  | x, none => x
  | some x, some y => some (max x y)

/-- R87: the largest X over scale bytes that are not NaN. -/
def maxScale (bytes : List Byte) : Option Int := bytes.foldl (fun a b => maxExp a (scaleExp b.toNat)) none

/-- R125: the element rows of a dense operand: 8 × w bytes per K-step. -/
def denseRows (code : Nat) (k : Nat) (l : List Byte) : List (List Val) :=
  (pieces (8 * fmtBits code) (l.take (8 * fmtBits code * k))).map (fun row =>
    (unpackBits (fmtBits code) 64 row).map (decodeElem code))

/-- R74, R75: the block scales applied, 64 bytes per 32 K-steps. -/
def scaleRows (code : Nat) (scales : List Byte) (rows : List (List Val)) : List (List Val) :=
  if fmtScaled code then
    (((pieces 32 rows).zip (pieces 64 scales)).map (fun p =>
      p.1.map (fun row => (row.zip p.2).map (fun e => e.1.scaled e.2.toNat)))).flatten
  else rows

/-- R125: a dense load of k K-steps. -/
def denseLoad (fa fb k : Nat) (half : List Byte) : Load :=
  let na := 8 * fmtBits fa * k
  let nb := 8 * fmtBits fb * k
  let ns := 64 * (k / 32)
  let sa := if fmtScaled fa then (half.drop (na + nb)).take ns else []
  let sb := if fmtScaled fb then (half.drop (na + nb + sa.length)).take ns else []
  { a := scaleRows fa sa (denseRows fa k half), b := scaleRows fb sb (denseRows fb k (half.drop na))
    xa := if fmtScaled fa then maxScale sa else some 0, xb := if fmtScaled fb then maxScale sb else some 0
    far := 0, twice := 0 }

/-- R181: the in-use slots of a group, first naming of a position kept: (position, code) pairs, and the repeats. -/
def keepSlots : List (Nat × Nat) → List (Nat × Nat) → Nat → List (Nat × Nat) × Nat
  | [], acc, n => (acc.reverse, n)
  | s :: t, acc, n => if acc.any (·.1 = s.1) then keepSlots t acc (n + 1) else keepSlots t (s :: acc) n

/-- R181: one group of one column: 16 element codes, slots out of range, repeats. -/
def expandGroup (count pos : Nat) (vals : List Nat) : List Nat × Nat × Nat :=
  let used := ((unpackNat 4 8 pos).zip vals).take (min count 8)
  let r := keepSlots used [] 0
  ((List.range 16).map (fun i => ((r.1.find? (·.1 = i)).map (·.2)).getD 0), count - 8, r.2)

/-- The transpose of a list of equal rows of n. -/
def columns {α : Type} (n : Nat) (rows : List (List α)) : List (List α) :=
  (List.range n).map (fun j => rows.filterMap (·[j]?))

/-- R181, R184: the group-coded B operand of k K-steps, 64 columns. -/
def gcRows (code k : Nat) (vals pos counts : List Byte) : List (List Val) × Nat × Nat :=
  let w := fmtBits code
  let groups := (List.range (k / 16)).map (fun g =>
    let cs := unpackBits 4 64 (sub counts (32 * g) 32)
    (List.range 64).map (fun c =>
      expandGroup (cs.getD c 0) (natAt pos (4 * (64 * g + c)) 4) (unpackBits w 8 (sub vals (w * (64 * g + c)) w))))
  let rows := (groups.map (fun cols => columns 16 (cols.map (·.1)))).flatten
  let all := groups.flatten
  (rows.map (fun row => row.map (decodeElem code)), (all.map (·.2.1)).sum, (all.map (·.2.2)).sum)

/-- R184: a group-coded load of k K-steps. -/
def gcLoad (fa fb k : Nat) (half : List Byte) : Load :=
  let na := 8 * fmtBits fa * k
  let nv := 4 * fmtBits fb * k
  let np := 16 * k
  let nc := 2 * k
  let ns := 64 * (k / 32)
  let sa := if fmtScaled fa then (half.drop (na + nv + np + nc)).take ns else []
  let sb := if fmtScaled fb then (half.drop (na + nv + np + nc + sa.length)).take ns else []
  let g := gcRows fb k ((half.drop na).take nv) ((half.drop (na + nv)).take np)
    ((half.drop (na + nv + np)).take nc)
  { a := scaleRows fa sa (denseRows fa k half), b := scaleRows fb sb g.1
    xa := if fmtScaled fa then maxScale sa else some 0, xb := if fmtScaled fb then maxScale sb else some 0
    far := g.2.1, twice := g.2.2 }

/-- R87: the derived E_t of a one-load accumulation. -/
def deriveEt (fa fb headroom : Nat) (ld : Load) : Int :=
  fmtEMax fa + fmtEMax fb + ld.xa.getD 0 + ld.xb.getD 0 - (62 - headroom)

/-- R77, R78: one K-step: every word receives the product of its row and column elements. -/
def kStep (et : Int) (ws : List AccWord) (a b : List Val) : List AccWord :=
  (ws.zip ((a.map (fun x => b.map (mulVal x))).flatten)).map (fun p => addProduct et p.1 p.2)

/-- R183: a whole load accumulated. -/
def accumulate (et : Int) (ws : List AccWord) (ld : Load) : List AccWord :=
  (ld.a.zip ld.b).foldl (fun ws p => kStep et ws p.1 p.2) ws

/-! ## The checksum unit, R725 to R727 -/

/-- R725: the rounding adjustment q − P ÷ 2^n, in units of 2^-n, of a magnitude P from the n low bits that the array
discards: up when they exceed one half, or equal it below an odd quotient. -/
def roundingAdjust (m n : Nat) : Int :=
  let low := m % 2 ^ n
  let up := decide (2 ^ n < 2 * low) || (2 * low = 2 ^ n && (m / 2 ^ n) % 2 = 1 && decide (0 < n))
  if up then (2 ^ n : Int) - low else - (low : Int)

/-- R725, R726: what a product adds to its row sum and its column sum, in units of 2^-23 of the grid: its exact value and
its rounding adjustment, and nothing when its shift is below −23. A product that is not finite adds nothing: R727 leaves
its row and its column out. -/
def checkTerm (et : Int) : Val → Int
  | .fin neg m e =>
    let shift := e - et
    if shift < -23 then 0
    else
      let exact := sgn neg m * 2 ^ (shift + 23).toNat
      let delta := if shift < 0 then roundingAdjust m (-shift).toNat * 2 ^ (23 + shift).toNat else 0
      exact + (if neg then - delta else delta)
  | _ => 0

/-- R725: one K-step enters the sums. -/
def sumStep (et : Int) (t : Sums) (a b : List Val) : Sums :=
  { rows := (t.rows.zip a).map (fun r => r.1 + BitVec.ofInt 128 ((b.map (fun y => checkTerm et (mulVal r.2 y))).sum))
    cols := (t.cols.zip b).map (fun c => c.1 + BitVec.ofInt 128 ((a.map (fun x => checkTerm et (mulVal x c.2))).sum)) }

/-- R725: the K-steps of a load enter the sums. -/
def sumLoad (et : Int) (t : Sums) (ld : Load) : Sums :=
  (ld.a.zip ld.b).foldl (fun t p => sumStep et t p.1 p.2) t

/-- R727: the sums over the rows and over the columns of a tile's words. Preloaded words enter the checksum unit so. -/
def wordSums (ws : List AccWord) : Sums :=
  let rows := pieces 64 ws
  let total (l : List AccWord) : BitVec 128 := BitVec.ofInt 128 ((l.map (fun w => w.ext.toInt)).sum * 2 ^ 23)
  { rows := rows.map total, cols := (columns 64 rows).map total }

/-- R727: every row sum and every column sum equals that of its words, but for a row or a column that holds a word with
a non-finite tag. -/
def sumsAgree (t : Sums) (ws : List AccWord) : Bool :=
  let rows := pieces 64 ws
  let w := wordSums ws
  let same (lines : List (List AccWord)) (a b : List (BitVec 128)) : Bool :=
    (lines.zip (a.zip b)).all (fun x => x.1.any (fun v => v.tag ≠ .finite) || x.2.1 = x.2.2)
  same rows t.rows w.rows && same (columns 64 rows) t.cols w.cols

/-- A cleared tile. -/
def clearTile : List AccWord := List.replicate 4096 AccWord.zero

/-! ## Storing group-coded tiles, R190, R191 -/

/-- R190: the non-zero elements of a group of 16 with their positions. -/
def groupNonZero (code : Nat) (scaleNan : Bool) (els : List Nat) : List (Nat × Nat) :=
  (els.zipIdx).filterMap (fun p =>
    let zero := match decodeElem code p.1 with
      | .fin _ 0 _ => true
      | _ => false
    if zero && !scaleNan then none else some (p.2, p.1))

/-- R348, R349: the element codes and scale bytes of a dense payload, row by row. -/
def denseElems (fmt rows cols : Nat) (payload : List Byte) : List (List Nat) × List (List Byte) :=
  let w := fmtBits fmt
  let rb := cols * w / 8
  if fmtScaled fmt then
    let bands := pieces (roundUp cols 8 + 32 * rb) payload
    (((bands.map (fun b => (pieces rb (b.drop (roundUp cols 8))).map (unpackBits w cols))).flatten).take rows,
     bands.map (fun b => b.take cols))
  else (((pieces rb payload).map (unpackBits w cols)).take rows, [])

/-- R190, R191: the group-coded payload, if the form exists. -/
def gcForm (fmt rows cols : Nat) (payload : List Byte) : Option (List Byte) :=
  let w := fmtBits fmt
  let d := denseElems fmt rows cols payload
  let blocks := (pieces 32 d.1).zipIdx.map (fun p =>
    let scales := d.2.getD p.2 []
    let groups := (pieces 16 p.1).map (fun rows16 =>
      (List.range cols).map (fun c =>
        groupNonZero fmt (fmtScaled fmt && (scales.getD c 0).toNat = 255) (rows16.map (fun r => r.getD c 0))))
    (scales, groups))
  if blocks.all (fun b => b.2.all (fun g => g.all (fun c => c.length ≤ 8))) then
    some ((blocks.map (fun b => b.1 ++ (b.2.map (fun g =>
      packBits 4 (g.map (·.length)) ++
      (g.map (fun c => bytesOf 4 (packNat 4 (c.map (·.1))))).flatten ++
      (g.map (fun c => packBits w (c.map (·.2) ++ List.replicate (8 - c.length) 0))).flatten)).flatten)).flatten)
  else none

/-! ## The sumac pass, R196, R197 -/

/-- R196: the 2-bit significand, and its factor in halves: 2 when exact, 3 otherwise. -/
def reduceVal : Val → Val × Nat
  | .fin n m e =>
    let l := Nat.log2 m
    if l ≤ 1 then (.fin n m e, 2)
    else
      let t := m / 2 ^ (l - 1)
      (.fin n t (e + (l - 1 : Nat)), if t * 2 ^ (l - 1) = m then 2 else 3)
  | v => (v, 2)

/-- An FP32 rounding toward +∞ (up) or −∞. -/
def dir32 (up : Bool) (v : Val) : Nat :=
  match v with
  | .fin n m e =>
    if m = 0 then 0
    else
      let sp := spacingAt fp32 m e
      let away := up != n
      let u := if sp ≤ e then m * 2 ^ (e - sp).toNat
        else if away then ceilDiv m (2 ^ (sp - e).toNat) else m / 2 ^ (sp - e).toNat
      if u = 0 then 0
      else if magGt u sp fp32.maxM fp32.maxE then
        signCode fp32 n + (if away then infCode fp32 else maxCode fp32)
      else signCode fp32 n + encodeUnits fp32 u sp
  | v => enc32 v

/-- x + v rounded toward one side; an infinite endpoint stays. -/
def dirAdd (up : Bool) (x : Nat) (v : Val) : Nat :=
  match dec32 x, v with
  | .fin an am ae, .fin bn bm be => dir32 up (addVal an am ae bn bm be)
  | _, _ => x

/-- Whether FP32 bits are infinite or NaN. -/
def notFinite32 (x : Nat) : Bool := !(dec32 x).finite

/-- R197: one K-step of one word's bounds. -/
def boundStep (w : Bounds) (a b : Val) : Bounds :=
  let f := w.forced || !a.finite || !b.finite
  match reduceVal a, reduceVal b with
  | (.fin an am ae, ga), (.fin bn bm be, gb) =>
    let neg := an != bn
    let m := am * bm
    let p : Val := .fin neg m (ae + be)
    let gp : Val := .fin neg (m * ga * gb) (ae + be - 2)
    if m = 0 then { w with forced := f }
    else if neg then
      { lo := BitVec.ofNat 32 (dirAdd false w.lo.toNat gp), hi := BitVec.ofNat 32 (dirAdd true w.hi.toNat p),
        forced := f }
    else
      { lo := BitVec.ofNat 32 (dirAdd false w.lo.toNat p), hi := BitVec.ofNat 32 (dirAdd true w.hi.toNat gp),
        forced := f }
  | _, _ => { w with forced := f }

/-- R197: a load's K-steps over 4,096 words. -/
def boundLoad (ws : List Bounds) (ld : Load) : List Bounds :=
  (ld.a.zip ld.b).foldl (fun ws p =>
    (ws.zip ((p.1.map (fun x => p.2.map (fun y => (x, y)))).flatten)).map (fun q => boundStep q.1 q.2.1 q.2.2)) ws

/-- R197: widen a bound pair by ±w. -/
def widen (b : Bounds) (w : Val) : Bounds :=
  let neg := match w with
    | .fin n m e => Val.fin (!n) m e
    | v => v
  { b with lo := BitVec.ofNat 32 (dirAdd false b.lo.toNat neg), hi := BitVec.ofNat 32 (dirAdd true b.hi.toNat w) }

/-- R197: the scale stage on the bounds. -/
def scaleBounds (b : Bounds) (f : Val) : Bounds :=
  match f, dec32 b.lo.toNat, dec32 b.hi.toNat with
  | .fin fn fm fe, .fin ln lm le, .fin hn hm he =>
    let l : Val := .fin (fn != ln) (fm * lm) (fe + le)
    let h : Val := .fin (fn != hn) (fm * hm) (fe + he)
    let p := if fn then (h, l) else (l, h)
    { b with lo := BitVec.ofNat 32 (dir32 false p.1), hi := BitVec.ofNat 32 (dir32 true p.2) }
  | .fin _ _ _, _, _ => b
  | _, _, _ => { b with forced := true }

/-- R197: the bias stage on the bounds. -/
def biasBounds (b : Bounds) (v : Val) (et ef : Int) : Bounds :=
  match v with
  | .fin n m e =>
    let c := { b with lo := BitVec.ofNat 32 (dirAdd false b.lo.toNat (.fin n m e)),
                      hi := BitVec.ofNat 32 (dirAdd true b.hi.toNat (.fin n m e)) }
    widen c (.fin false 1 (et + 23 + ef))
  | _ => { b with forced := true }

/-- R195, R203: the class of a word: 0 skip, 1 compute, 2 doubt, 3 forced. An infinite endpoint makes it doubt. -/
def classOf (b : Bounds) : Nat :=
  if b.forced then 3
  else if notFinite32 b.lo.toNat || notFinite32 b.hi.toNat then 2
  else if 2 ^ 31 < b.hi.toNat then 0
  else if b.lo.toNat ≤ 2 ^ 31 then 1
  else 2

/-! ## The epilogue on values, R150 to R157 -/

/-- R151: the scale stage. -/
def scaleStage (v f : Val) : Val := mulVal v f

/-- R152: the bias stage at exponent ev: b aligned once, 2^126 the limit. A value already tagged infinite keeps its tag beside
a finite bias, also one whose aligned magnitude is 2^126 or more (DESIGN CHOICE, log entry 112). -/
def biasStage (v b : Val) (ev : Int) : Val :=
  match v, b with
  | .fin vn vm ve, .fin bn bm be =>
    let bq := alignTo (sgn bn bm) be ev
    let t := alignTo (sgn vn vm) ve ev + bq
    if 2 ^ 126 ≤ bq.natAbs then .inf (bq < 0)
    else if 2 ^ 126 ≤ t.natAbs then .inf (t < 0)
    else .fin (t < 0) t.natAbs ev
  | .fin _ _ _, b => b
  | v, .fin _ _ _ => v
  | .inf an, .inf bn => if an = bn then .inf an else .nan
  | _, _ => .nan

/-- R153: a value rounded to FP32 before an activation. -/
def actIn (v : Val) : Val := dec32 (enc32 v)

/-- The opposite value. -/
def negV : Val → Val
  | .fin n m e => .fin (!n) m e
  | .inf n => .inf (!n)
  | .nan => .nan

/-- A sum, non-finite values combined under R109. -/
def addV : Val → Val → Val
  | .fin an am ae, .fin bn bm be => addVal an am ae bn bm be
  | .fin _ _ _, b => b
  | a, .fin _ _ _ => a
  | .inf an, .inf bn => if an = bn then .inf an else .nan
  | _, _ => .nan

/-- R157: table interpolation of FP32 entries at x, the table starting at x0 with steps of 2^ts: below it `lowV`,
above `hiV`. n is the number of steps inside the domain. -/
def tableLookup (entry : Nat → Nat) (x0 : Int) (ts : Int) (n : Nat) (x lowV hiV : Val) : Val :=
  match x with
  | .nan => .nan
  | .inf true => lowV
  | .inf false => hiV
  | .fin neg m e =>
    -- u in units of 2^-24 steps, floored
    let shift := e - ts + 24
    let ux : Int := (if 0 ≤ shift then sgn neg m * 2 ^ shift.toNat else sgn neg m / 2 ^ (-shift).toNat) - x0 * 2 ^ 24
    if ux < 0 then lowV
    else if (n : Int) * 2 ^ 24 ≤ ux then hiV
    else
      let u := ux.toNat
      let i := u / 2 ^ 24
      let t0 := dec32 (entry i)
      let d := actIn (addV (dec32 (entry (i + 1))) (negV t0))
      actIn (addV t0 (mulVal (.fin false (u % 2 ^ 24) (-24)) d))

/-- R155: SiLU at i steps of 2^-5 from −16, rounded to FP32. -/
def siluEntry (i : Nat) : Nat :=
  let x : Int := (i : Int) - 512
  if x = 0 then 0
  else
    -- x ÷ (1 + e^-x), x in units of 2^-5
    let ex := expFix (alignTo (-x) (-5) (-(fixBits : Int)))
    let den := alignTo ex.1 ex.2 (-(fixBits : Int)) + fixOne
    enc32 (quotVal (x < 0) (x.natAbs * fixOne) den.natAbs (-5))

/-- √(2/π) to 256 fraction bits, from π. -/
def fixPi : Nat :=
  -- Machin: π = 16 atan(1/5) − 4 atan(1/239), with alternating series
  let atanInv (k : Nat) : Nat :=
    ((List.range 120).foldl (fun (a : Nat × Nat × Nat) i =>
      let term := a.2.2 / (2 * i + 1)
      if i % 2 = 0 then (a.1 + term, a.2.1, a.2.2 / (k * k)) else (a.1, a.2.1 + term, a.2.2 / (k * k)))
      (0, 0, fixOne / k) |> fun a => a.1 - a.2.1)
  16 * atanInv 5 - 4 * atanInv 239

/-- √(2/π) in fixed point. -/
def fixRoot2Pi : Nat := isqrt (2 * fixOne * fixOne * fixOne / fixPi)

/-- R155: GELU, tanh form, at i steps of 2^-6 from −8, rounded to FP32: x ÷ (1 + e^(−2z)),
z = √(2/π)(x + 0.044715x³), which equals 0.5x(1 + tanh z). -/
def geluEntry (i : Nat) : Nat :=
  let x : Int := (i : Int) - 512
  if x = 0 then 0
  else
    -- x + 0.044715 x³ in fixed point; x in units of 2^-6
    let inner : Int := x * fixOne / 64 + 44715 * (x * x * x) * fixOne / (1000000 * 2 ^ 18)
    let z2 : Int := 2 * inner * fixRoot2Pi / fixOne
    let ex := expFix (-z2)
    let den := alignTo ex.1 ex.2 (-(fixBits : Int)) + fixOne
    enc32 (quotVal (x < 0) (x.natAbs * fixOne) den.natAbs (-6))

/-- R153, R154: ReLU on an exact value. -/
def reluVal : Val → Val
  | .fin n m e => if n then .fin false 0 e else .fin n m e
  | .inf true => .fin false 0 0
  | v => v

/-- R153 to R157: the activation stage; `user` are the entries of a user table. -/
def activate (act : Nat) (ts : Int) (user : Nat → Nat) (v : Val) : Val :=
  match act with
  | 0 => v
  | 1 => reluVal v
  | 2 => let x := actIn v
         tableLookup geluEntry (-512) (-6) 1024 x (.fin false 0 0) x
  | 3 => let x := actIn v
         tableLookup siluEntry (-512) (-5) 1024 x (.fin false 0 0) x
  | 4 => match reluVal (actIn v) with
         | .fin n m e => actIn (.fin n (m * m) (2 * e))
         | w => w
  | _ => tableLookup user (-128) ts 255 (actIn v) (dec32 (user 0)) (dec32 (user 255))

/-- R161: the 24-bit hash of word n. -/
def hash24 (seed row col n : Nat) : Nat :=
  let m := 2 ^ 64
  let z := Nat.xor (Nat.xor (Nat.xor seed (row * 2 ^ 40 % m)) (col * 2 ^ 20 % m)) n
  let z := (z + 0x9E3779B97F4A7C15) % m
  let z := Nat.xor z (z / 2 ^ 30) * 0xBF58476D1CE4E5B9 % m
  let z := Nat.xor z (z / 2 ^ 27) * 0x94D049BB133111EB % m
  let z := Nat.xor z (z / 2 ^ 31)
  z / 2 ^ 40

end Sys2Proof.Machine
end

