-- ==== Sys2Proof/Machine/Wafer.lean ====
section
/-! DEFINITION. The five levels and their identifiers (01_organisation.md), and what each ordering code enables
(00_scope.md). -/

namespace Sys2Proof.Machine

/-- R41, R42. -/
def coreX (core : Nat) : Nat := core % 80
/-- R41, R42. -/
def coreY (core : Nat) : Nat := core / 80
/-- R41: the core at (x, y). -/
def coreAt (x y : Nat) : Nat := y * 80 + x
/-- R41: the region of a core. -/
def regionOf (core : Nat) : Nat := coreY core / 8 * 8 + coreX core / 10
/-- R41: the row of a core within its region. -/
def rowOf (core : Nat) : Nat := coreY core % 8
/-- R41: the cluster of a core. -/
def clusterOf (core : Nat) : Nat := regionOf core * 8 + rowOf core
/-- R41: the position of a core in its cluster. -/
def positionOf (core : Nat) : Nat := coreX core % 10
/-- R40. -/
def engineOf (core number : Nat) : Nat := core * 4 + number
/-- R40. -/
def coreOfEngine (engine : Nat) : Nat := engine / 4
/-- R40. -/
def regionOfCluster (cluster : Nat) : Nat := cluster / 8
/-- R41: the core at a position of a cluster. -/
def coreInCluster (cluster position : Nat) : Nat :=
  let r := cluster / 8
  coreAt (r % 8 * 10 + position) (r / 8 * 8 + cluster % 8)
/-- The ten cores of a cluster, west to east. -/
def clusterCores (cluster : Nat) : List Nat := (List.range 10).map (coreInCluster cluster)
/-- The 80 cores of a region, cluster by cluster (R831's order). -/
def regionCores (region : Nat) : List Nat := ((List.range 8).map (fun r => clusterCores (region * 8 + r))).flatten
/-- R40: the region of a stack. -/
def regionOfStack (stack : Nat) : Nat := stack / 2
/-- R37: the stacks of a region. -/
def regionStacks (region : Nat) : List Nat := [region * 2, region * 2 + 1]

/-- R6, R7: regions enabled. -/
def regionCount : Ordering → Nat
  | .h40 => 40
  | _ => 48

/-- R6: usable pages of 64 KiB in a stack. -/
def stackPages : Ordering → Nat
  | .m48 => 48 * 16384
  | _ => 80 * 16384

/-- R8: Rolben ports 4 to 7 are fused on YG2-40H. -/
def portEnabled (o : Ordering) (port : Nat) : Bool :=
  decide (port < 16) && !(o = .h40 && 4 ≤ port && port ≤ 7)

/-- R8: tier ports 2 and 3 are fused on YG2-40H. -/
def tierEnabled (o : Ordering) (port : Nat) : Bool :=
  decide (port < 8) && !(o = .h40 && 2 ≤ port && port ≤ 3)

/-- R670: the code of an ordering. -/
def orderingCode : Ordering → Nat
  | .h48 => 1
  | .m48 => 2
  | .h40 => 3

/-- R43, R44. -/
def regionExists (s : State) (region : Nat) : Bool := decide (region < regionCount s.fuses.ordering)
/-- R43, R44. -/
def coreExists (s : State) (core : Nat) : Bool := decide (core < regionCount s.fuses.ordering * 80)
/-- R43, R44. -/
def clusterExists (s : State) (cluster : Nat) : Bool := decide (cluster < regionCount s.fuses.ordering * 8)
/-- R43, R44. -/
def stackExists (s : State) (stack : Nat) : Bool := decide (stack < regionCount s.fuses.ordering * 2)

/-- R792: the step of a region. -/
def shedOf (s : State) (region : Nat) : Shed := look s.caps.shed region .lit

/-- R33, R45, R58: a core placements may use. -/
def coreUsable (s : State) (core : Nat) : Bool :=
  coreExists s core && !(s.caps.coresOut.contains core) && !(s.caps.hubsOut.contains (clusterOf core))

/-- R40: the die of a Rolben port: 0 north, 1 south, 2 east, 3 west. -/
def dieOfPort (port : Nat) : Nat := port / 4
/-- R40: the die of a tier port. -/
def dieOfTier (port : Nat) : Nat := port / 2

end Sys2Proof.Machine
end

