-- ==== Sys2Proof/Machine/Clock.lean ====
section
/-! DEFINITION. The counters of 19_physical.md and one tick of them. -/

namespace Sys2Proof.Machine

/-- R925: housekeeping ticks in a microsecond (425 MHz). -/
def ticksPerUs : Nat := 425
/-- R925. -/
def ticksPerMs : Nat := 425000
/-- R925. -/
def ticksPerS : Nat := 425000000

/-- R925, R523: a 64-bit counter. -/
def wrap64 (n : Nat) : Nat := n % 2 ^ 64

/-- How far a clock of num / den times 425 MHz advances in tick t. -/
def advance (num den t : Nat) : Nat := (t + 1) * num / den - t * num / den

/-- R718: the window [since, since + len) has ended. -/
def windowOver (now since len : Nat) : Bool := decide (since + len ≤ now)

/-- R924, R792: compute cycles a region's cores take in one housekeeping tick. -/
def computeRate : Shed → Nat
  | .lit => 4
  | .throttled => 2
  | _ => 0

/-- R924, R925: one housekeeping tick of every counter that runs. Log entry 2. -/
def tick (s : State) : State :=
  let c := s.clocks
  let t := c.sup
  { s with clocks :=
    { sup     := if s.power.standby && s.sup.alive then wrap64 (c.sup + 1) else c.sup
      region  := c.region.map (fun e => (e.1, wrap64 (e.2 + 1)))
      die     := c.die.map (fun e => (e.1, wrap64 (e.2 + 1)))
      port    := c.port.map (fun e => (e.1, wrap64 (e.2 + advance 50 17 t)))
      input   := c.input + advance 1 425 t
      compute := c.compute.map (fun e => (e.1, wrap64 (e.2 + computeRate (look s.caps.shed e.1 .lit))))
      mesh    := wrap64 (c.mesh + advance 16 3 t) } }

end Sys2Proof.Machine
end

