-- ==== Sys2Proof/Machine/Counters.lean ====
section
/-! DEFINITION. The counters of the counter tables, numbered under R675, and their widths. -/

namespace Sys2Proof.Machine

/-- R675: a counter: its unit class of R676 and its number in the unit. -/
structure Ctr where
  cls : Nat
  num : Nat
  deriving DecidableEq, Repr

/-- A counter of a family stated by cause, code or kind. -/
def Ctr.plus (c : Ctr) (k : Nat) : Ctr := { c with num := c.num + k }

/-- The key of a unit's counter in State.counts. -/
def ctrKey (c : Ctr) (unit : Nat) : Nat := c.cls * 2 ^ 64 + unit * 2 ^ 10 + c.num

/-- R122. -/
def ctrEngReplays : Ctr := ⟨1, 0⟩
/-- R122. -/
def ctrEngArith : Ctr := ⟨1, 1⟩
/-- R122. -/
def ctrEngNonfinite : Ctr := ⟨1, 7⟩
/-- R122. -/
def ctrCoreReductionReplays : Ctr := ⟨2, 0⟩
/-- R177. -/
def ctrEngKSteps : Ctr := ⟨1, 8⟩
/-- R177. -/
def ctrEngOperandStall : Ctr := ⟨1, 9⟩
/-- R177. -/
def ctrEngAccStall : Ctr := ⟨1, 10⟩
/-- R177. -/
def ctrEngSaturated : Ctr := ⟨1, 11⟩
/-- R177. -/
def ctrEngNaN : Ctr := ⟨1, 12⟩
/-- R177. -/
def ctrEngReject : Ctr := ⟨1, 13⟩
/-- R229. -/
def ctrEngSlotsFar : Ctr := ⟨1, 23⟩
/-- R229. -/
def ctrEngSlotsTwice : Ctr := ⟨1, 24⟩
/-- R229. -/
def ctrEngDenseSub : Ctr := ⟨1, 25⟩
/-- R229. -/
def ctrEngSkip : Ctr := ⟨1, 26⟩
/-- R229. -/
def ctrEngCompute : Ctr := ⟨1, 27⟩
/-- R229. -/
def ctrEngDoubt : Ctr := ⟨1, 28⟩
/-- R229. -/
def ctrEngDead : Ctr := ⟨1, 29⟩
/-- R229. -/
def ctrEngLost : Ctr := ⟨1, 30⟩
/-- R229. -/
def ctrEngAudited : Ctr := ⟨1, 31⟩
/-- R229. -/
def ctrEngMisses : Ctr := ⟨1, 32⟩
/-- R229. -/
def ctrHubMerges : Ctr := ⟨5, 0⟩
/-- R229. -/
def ctrHubMergeIn : Ctr := ⟨5, 1⟩
/-- R229. -/
def ctrHubMergeOut : Ctr := ⟨5, 2⟩
/-- R229. -/
def ctrHubMergeStop : Ctr := ⟨5, 3⟩
/-- R229. -/
def ctrCopyOffered : Ctr := ⟨6, 0⟩
/-- R229. -/
def ctrCopyGc : Ctr := ⟨6, 1⟩
/-- R229. -/
def ctrCopyDenseWidth : Ctr := ⟨6, 2⟩
/-- R229. -/
def ctrCopyDenseFull : Ctr := ⟨6, 3⟩
/-- R291. -/
def ctrCoreSwitches : Ctr := ⟨2, 1⟩
/-- R291. -/
def ctrSlotRunning : Ctr := ⟨3, 0⟩
/-- R291. -/
def ctrSlotReady : Ctr := ⟨3, 1⟩
/-- R291. -/
def ctrSlotBlocked : Ctr := ⟨3, 2⟩
/-- R291. -/
def ctrSlotSent : Ctr := ⟨3, 3⟩
/-- R291. -/
def ctrSlotReceived : Ctr := ⟨3, 4⟩
/-- R291. -/
def ctrSlotDropped : Ctr := ⟨3, 5⟩
/-- R291. -/
def ctrSlotDiscarded : Ctr := ⟨3, 6⟩
/-- R291. -/
def ctrSlotOrphanHandles : Ctr := ⟨3, 7⟩
/-- R291. -/
def ctrSlotReject : Ctr := ⟨3, 8⟩
/-- R291. -/
def ctrSlotExtArmed : Ctr := ⟨3, 12⟩
/-- R291. -/
def ctrSlotSpilled : Ctr := ⟨3, 13⟩
/-- R291. -/
def ctrAnchorWindows : Ctr := ⟨13, 0⟩
/-- R291. -/
def ctrAnchorSignatures : Ctr := ⟨13, 1⟩
/-- R291. -/
def ctrAnchorExhausted : Ctr := ⟨13, 2⟩
/-- R337. -/
def ctrCoreMsgSent : Ctr := ⟨2, 2⟩
/-- R337. -/
def ctrCoreMsgWritten : Ctr := ⟨2, 3⟩
/-- R337. -/
def ctrCorePads : Ctr := ⟨2, 4⟩
/-- R337. -/
def ctrEndDropped : Ctr := ⟨4, 0⟩
/-- R337. -/
def ctrCoreOrphanSent : Ctr := ⟨2, 5⟩
/-- R337. -/
def ctrCoreOrphanWritten : Ctr := ⟨2, 6⟩
/-- R337. -/
def ctrCoreOrphanDiscarded : Ctr := ⟨2, 7⟩
/-- R337. -/
def ctrSlotErrDropped : Ctr := ⟨3, 14⟩
/-- R337. -/
def ctrRegionOps : Ctr := ⟨9, 0⟩
/-- R337. -/
def ctrRegionParked : Ctr := ⟨9, 1⟩
/-- R337. -/
def ctrRegionRetries : Ctr := ⟨9, 2⟩
/-- R337. -/
def ctrRegionRemoteTimeouts : Ctr := ⟨9, 3⟩
/-- R337. -/
def ctrRegionLate : Ctr := ⟨9, 4⟩
/-- R409. -/
def ctrCopySteps : Ctr := ⟨6, 4⟩
/-- R409. -/
def ctrCopyRecords : Ctr := ⟨6, 5⟩
/-- R409. -/
def ctrCopyBytes : Ctr := ⟨6, 6⟩
/-- R409. -/
def ctrCopyRewritten : Ctr := ⟨6, 7⟩
/-- R409. -/
def ctrCopyMcopyMoved : Ctr := ⟨6, 8⟩
/-- R409. -/
def ctrCopyIndexDrops : Ctr := ⟨6, 9⟩
/-- R409. -/
def ctrCopyVerified : Ctr := ⟨6, 10⟩
/-- R409. -/
def ctrCopyMismatch : Ctr := ⟨6, 11⟩
/-- R409. -/
def ctrCopyExtra : Ctr := ⟨6, 12⟩
/-- R409. -/
def ctrStreamDelivered : Ctr := ⟨7, 0⟩
/-- R409. -/
def ctrStreamRewinds : Ctr := ⟨7, 1⟩
/-- R409. -/
def ctrStreamRefetched : Ctr := ⟨7, 2⟩
/-- R409. -/
def ctrStreamPartial : Ctr := ⟨7, 3⟩
/-- R409. -/
def ctrCacheHits : Ctr := ⟨8, 0⟩
/-- R409. -/
def ctrCacheMisses : Ctr := ⟨8, 1⟩
/-- R409. -/
def ctrCacheMerged : Ctr := ⟨8, 2⟩
/-- R409. -/
def ctrCacheInvalidated : Ctr := ⟨8, 3⟩
/-- R467. -/
def ctrLinkPackets : Ctr := ⟨10, 0⟩
/-- R467. -/
def ctrLinkRetries : Ctr := ⟨10, 1⟩
/-- R467. -/
def ctrLinkFenced : Ctr := ⟨10, 2⟩
/-- R467. -/
def ctrRouterCombined : Ctr := ⟨11, 0⟩
/-- R467. -/
def ctrRouterMismatch : Ctr := ⟨11, 1⟩
/-- R467. -/
def ctrRouterDiscarded : Ctr := ⟨11, 2⟩
/-- R467. -/
def ctrEpHeld : Ctr := ⟨12, 0⟩
/-- R467. -/
def ctrEpConverted : Ctr := ⟨12, 1⟩
/-- R467. -/
def ctrEpReordered : Ctr := ⟨12, 2⟩
/-- R467. -/
def ctrHubLanded : Ctr := ⟨5, 7⟩
/-- R467. -/
def ctrHubTiles : Ctr := ⟨5, 8⟩
/-- R467. -/
def ctrHubReplays : Ctr := ⟨5, 9⟩
/-- R467. -/
def ctrHubDropped : Ctr := ⟨5, 10⟩
/-- R467. -/
def ctrModRebuilds : Ctr := ⟨20, 0⟩
/-- R467. -/
def ctrModSwaps : Ctr := ⟨20, 1⟩
/-- R467. -/
def ctrModRetirements : Ctr := ⟨20, 2⟩
/-- R467. -/
def ctrModOverrideHigh : Ctr := ⟨20, 3⟩
/-- R519. -/
def ctrCopyLookups : Ctr := ⟨6, 13⟩
/-- R519. -/
def ctrCopyTlbMisses : Ctr := ⟨6, 14⟩
/-- R519. -/
def ctrCopyTlbDiscarded : Ctr := ⟨6, 15⟩
/-- R519. -/
def ctrHubLookups : Ctr := ⟨5, 11⟩
/-- R519. -/
def ctrHubTlbMisses : Ctr := ⟨5, 12⟩
/-- R519. -/
def ctrHubTlbDiscarded : Ctr := ⟨5, 13⟩
/-- R519. -/
def ctrFabLookups : Ctr := ⟨15, 0⟩
/-- R519. -/
def ctrFabTlbMisses : Ctr := ⟨15, 1⟩
/-- R519. -/
def ctrFabTlbDiscarded : Ctr := ⟨15, 2⟩
/-- R519. -/
def ctrHostLookups : Ctr := ⟨16, 0⟩
/-- R519. -/
def ctrHostTlbMisses : Ctr := ⟨16, 1⟩
/-- R519. -/
def ctrHostTlbDiscarded : Ctr := ⟨16, 2⟩
/-- R519. -/
def ctrRegionWalks : Ctr := ⟨9, 5⟩
/-- R519. -/
def ctrRegionSwaps : Ctr := ⟨9, 6⟩
/-- R519. -/
def ctrRegionRetirements : Ctr := ⟨9, 7⟩
/-- R519. -/
def ctrRegionOverrideHigh : Ctr := ⟨9, 8⟩
/-- R519. -/
def ctrRegionFaults : Ctr := ⟨9, 9⟩
/-- R519. -/
def ctrRegionMigrations : Ctr := ⟨9, 15⟩
/-- R519. -/
def ctrRegionMigrated : Ctr := ⟨9, 16⟩
/-- R519. -/
def ctrSliceSaves : Ctr := ⟨19, 0⟩
/-- R519. -/
def ctrSliceRestores : Ctr := ⟨19, 1⟩
/-- R519. -/
def ctrSliceImagesFailed : Ctr := ⟨19, 2⟩
/-- R519. -/
def ctrSliceSwitches : Ctr := ⟨19, 3⟩
/-- R519. -/
def ctrRegionMsgParked : Ctr := ⟨9, 17⟩
/-- R519. -/
def ctrRegionMsgDropped : Ctr := ⟨9, 18⟩
/-- R519. -/
def ctrRegionPoisoned : Ctr := ⟨9, 19⟩
/-- R519. -/
def ctrRegionConsumed : Ctr := ⟨9, 20⟩
/-- R519. -/
def ctrModEscalations : Ctr := ⟨20, 4⟩
/-- R584. -/
def ctrPortCodewords : Ctr := ⟨14, 0⟩
/-- R584. -/
def ctrPortCorrected : Ctr := ⟨14, 1⟩
/-- R584. -/
def ctrPortUncorrectable : Ctr := ⟨14, 2⟩
/-- R584. -/
def ctrPortHdrFail : Ctr := ⟨14, 3⟩
/-- R584. -/
def ctrPortTrlFail : Ctr := ⟨14, 4⟩
/-- R584. -/
def ctrPortCrcFail : Ctr := ⟨14, 5⟩
/-- R584. -/
def ctrPortClean : Ctr := ⟨14, 6⟩
/-- R584. -/
def ctrPortEmpty : Ctr := ⟨14, 7⟩
/-- R584. -/
def ctrPortCollision : Ctr := ⟨14, 8⟩
/-- R584. -/
def ctrPortOwnCollided : Ctr := ⟨14, 9⟩
/-- R584. -/
def ctrPortSkipped : Ctr := ⟨14, 10⟩
/-- R584. -/
def ctrPortLongestRun : Ctr := ⟨14, 11⟩
/-- R584. -/
def ctrPortTrainCollisions : Ctr := ⟨14, 12⟩
/-- R584. -/
def ctrPortSilent : Ctr := ⟨14, 13⟩
/-- R584. -/
def ctrPortBreaks : Ctr := ⟨14, 14⟩
/-- R584. -/
def ctrPortSent : Ctr := ⟨14, 15⟩
/-- R584. -/
def ctrPortNulls : Ctr := ⟨14, 16⟩
/-- R584. -/
def ctrPortReceived : Ctr := ⟨14, 17⟩
/-- R584. -/
def ctrPortOverruns : Ctr := ⟨14, 18⟩
/-- R584. -/
def ctrPortReqSent : Ctr := ⟨14, 19⟩
/-- R584. -/
def ctrPortReqReceived : Ctr := ⟨14, 20⟩
/-- R584. -/
def ctrPortRetransmitted : Ctr := ⟨14, 21⟩
/-- R584. -/
def ctrPortAppliedPoisoned : Ctr := ⟨14, 22⟩
/-- R584. -/
def ctrPortLost : Ctr := ⟨14, 23⟩
/-- R584. -/
def ctrPortStrangers : Ctr := ⟨14, 24⟩
/-- R584. -/
def ctrFabMerged : Ctr := ⟨15, 3⟩
/-- R584. -/
def ctrFabRelayed : Ctr := ⟨15, 4⟩
/-- R584. -/
def ctrFabDropped : Ctr := ⟨15, 5⟩
/-- R584. -/
def ctrFabStatus : Ctr := ⟨15, 6⟩
/-- R584. -/
def ctrFabAdded : Ctr := ⟨15, 15⟩
/-- R584. -/
def ctrFabCompleted : Ctr := ⟨15, 16⟩
/-- R584. -/
def ctrFabEnded : Ctr := ⟨15, 17⟩
/-- R584. -/
def ctrFabPostsRefused : Ctr := ⟨15, 18⟩
/-- R623. -/
def ctrHostReplays : Ctr := ⟨16, 3⟩
/-- R623. -/
def ctrHostRetrains : Ctr := ⟨16, 4⟩
/-- R623. -/
def ctrHostRate : Ctr := ⟨16, 5⟩
/-- R623. -/
def ctrHostReads : Ctr := ⟨16, 6⟩
/-- R623. -/
def ctrHostWrites : Ctr := ⟨16, 7⟩
/-- R623. -/
def ctrHostRefused : Ctr := ⟨16, 8⟩
/-- R623. -/
def ctrHostBisnpInv : Ctr := ⟨16, 15⟩
/-- R623. -/
def ctrHostBisnpData : Ctr := ⟨16, 16⟩
/-- R623. -/
def ctrHostBiTimeouts : Ctr := ⟨16, 17⟩
/-- R623. -/
def ctrHostEvictions : Ctr := ⟨16, 18⟩
/-- R623. -/
def ctrHostFilterHigh : Ctr := ⟨16, 19⟩
/-- R623. -/
def ctrHostRecDiscarded : Ctr := ⟨16, 20⟩
/-- R623. -/
def ctrHostMsixDiscarded : Ctr := ⟨16, 21⟩
/-- R623. -/
def ctrHostBar2Discarded : Ctr := ⟨16, 22⟩
/-- R623. -/
def ctrTierReads : Ctr := ⟨17, 0⟩
/-- R623. -/
def ctrTierWrites : Ctr := ⟨17, 1⟩
/-- R623. -/
def ctrTierBytesIn : Ctr := ⟨17, 2⟩
/-- R623. -/
def ctrTierBytesOut : Ctr := ⟨17, 3⟩
/-- R623. -/
def ctrTierReplays : Ctr := ⟨17, 4⟩
/-- R623. -/
def ctrTierRetrains : Ctr := ⟨17, 5⟩
/-- R623. -/
def ctrTierTimeouts : Ctr := ⟨17, 6⟩
/-- R623. -/
def ctrTierPoisoned : Ctr := ⟨17, 7⟩
/-- R623. -/
def ctrTierAdds : Ctr := ⟨17, 8⟩
/-- R623. -/
def ctrTierRemovals : Ctr := ⟨17, 9⟩
/-- R623. -/
def ctrTierFences : Ctr := ⟨17, 10⟩
/-- R662. -/
def ctrFrameAccepted : Ctr := ⟨18, 0⟩
/-- R662. -/
def ctrFrameCode : Ctr := ⟨18, 1⟩
/-- R662. -/
def ctrFrameDiscarded : Ctr := ⟨18, 14⟩
/-- R662. -/
def ctrFramePartial : Ctr := ⟨18, 15⟩
/-- R662. -/
def ctrFrameRecords : Ctr := ⟨18, 16⟩
/-- R662. -/
def ctrFrameOmitted : Ctr := ⟨18, 17⟩
/-- R662. -/
def ctrFrameMsix : Ctr := ⟨18, 18⟩
/-- R662. -/
def ctrFrameCreated : Ctr := ⟨18, 19⟩
/-- R662. -/
def ctrFrameDestroyed : Ctr := ⟨18, 20⟩
/-- R662. -/
def ctrFrameScrubbed : Ctr := ⟨18, 21⟩
/-- R763. -/
def ctrModDetected : Ctr := ⟨20, 9⟩
/-- R763. -/
def ctrModMasked : Ctr := ⟨20, 34⟩
/-- R763. -/
def ctrModLapses : Ctr := ⟨20, 38⟩
/-- R763. -/
def ctrModAnise : Ctr := ⟨20, 44⟩
/-- R763. -/
def ctrModAniseDeferred : Ctr := ⟨20, 45⟩
/-- R763. -/
def ctrModAniseFailed : Ctr := ⟨20, 46⟩
/-- R763. -/
def ctrModDrains : Ctr := ⟨20, 47⟩
/-- R763. -/
def ctrEngChecksum : Ctr := ⟨1, 33⟩
/-- R763. -/
def ctrEngCheckReplays : Ctr := ⟨1, 34⟩
/-- R763. -/
def ctrEngSumacBounds : Ctr := ⟨1, 35⟩
/-- R763. -/
def ctrCoreEpiMismatch : Ctr := ⟨2, 8⟩
/-- R763. -/
def ctrCoreVecMismatch : Ctr := ⟨2, 9⟩
/-- R763. -/
def ctrCoreStepMismatch : Ctr := ⟨2, 10⟩
/-- R763. -/
def ctrCopyAddrMismatch : Ctr := ⟨6, 16⟩
/-- R763. -/
def ctrRegionPatrol : Ctr := ⟨9, 21⟩
/-- R763. -/
def ctrRegionCorrected : Ctr := ⟨9, 22⟩
/-- R763. -/
def ctrRegionPoisonedCw : Ctr := ⟨9, 23⟩
/-- R763. -/
def ctrSlotTwinMismatch : Ctr := ⟨3, 15⟩
/-- R763. -/
def ctrSlotTwinTimeout : Ctr := ⟨3, 16⟩
/-- R808. -/
def ctrModFences : Ctr := ⟨20, 48⟩
/-- R808. -/
def ctrModHeld : Ctr := ⟨20, 55⟩
/-- R808. -/
def ctrModUpdates : Ctr := ⟨20, 56⟩
/-- R808. -/
def ctrModUpdatesRefused : Ctr := ⟨20, 57⟩
/-- R808. -/
def ctrSliceReplaced : Ctr := ⟨19, 4⟩
/-- R808. -/
def ctrSliceSubstituted : Ctr := ⟨19, 5⟩
/-- R808. -/
def ctrSliceRelocations : Ctr := ⟨19, 6⟩
/-- R808. -/
def ctrSliceNotReplaced : Ctr := ⟨19, 7⟩
/-- R808. -/
def ctrRegionRetired : Ctr := ⟨9, 24⟩
/-- R808. -/
def ctrRegionMoved : Ctr := ⟨9, 25⟩
/-- R808. -/
def ctrRegionThrottled : Ctr := ⟨9, 26⟩
/-- R808. -/
def ctrRegionParks : Ctr := ⟨9, 27⟩
/-- R808. -/
def ctrRegionDark : Ctr := ⟨9, 28⟩
/-- R808. -/
def ctrRegionRelights : Ctr := ⟨9, 29⟩
/-- R808. -/
def ctrRegionMsThrottled : Ctr := ⟨9, 30⟩
/-- R808. -/
def ctrRegionMsParked : Ctr := ⟨9, 31⟩
/-- R808. -/
def ctrRegionMsDark : Ctr := ⟨9, 32⟩
/-- R808. -/
def ctrModInjections : Ctr := ⟨20, 58⟩
/-- R808. -/
def ctrModInjectSkipped : Ctr := ⟨20, 69⟩
/-- R836. -/
def ctrRegionWatchdog : Ctr := ⟨9, 33⟩
/-- R836. -/
def ctrRegionReports : Ctr := ⟨9, 34⟩
/-- R836. -/
def ctrRegionCtxResets : Ctr := ⟨9, 35⟩
/-- R836. -/
def ctrRegionCtxStuck : Ctr := ⟨9, 36⟩
/-- R836. -/
def ctrRegionEngResets : Ctr := ⟨9, 37⟩
/-- R836. -/
def ctrRegionEngStuck : Ctr := ⟨9, 38⟩
/-- R836. -/
def ctrSliceResets : Ctr := ⟨19, 11⟩
/-- R836. -/
def ctrSliceResetStuck : Ctr := ⟨19, 12⟩
/-- R836. -/
def ctrModResets : Ctr := ⟨20, 70⟩
/-- R836. -/
def ctrModResetStuck : Ctr := ⟨20, 76⟩
/-- R836. -/
def ctrModCycles : Ctr := ⟨20, 77⟩
/-- R836. -/
def ctrRegionCloves : Ctr := ⟨9, 39⟩
/-- R836. -/
def ctrRegionClovesBad : Ctr := ⟨9, 40⟩
/-- R873. -/
def ctrModVerified : Ctr := ⟨20, 78⟩
/-- R873. -/
def ctrModRejected : Ctr := ⟨20, 79⟩
/-- R873. -/
def ctrModTransitions : Ctr := ⟨20, 81⟩
/-- R873. -/
def ctrModWipes : Ctr := ⟨20, 82⟩
/-- R873. -/
def ctrModWipesResumed : Ctr := ⟨20, 83⟩
/-- R873. -/
def ctrModChallenges : Ctr := ⟨20, 84⟩
/-- R873. -/
def ctrModLimited : Ctr := ⟨20, 85⟩
/-- R873. -/
def ctrModFull : Ctr := ⟨20, 86⟩
/-- R873. -/
def ctrModExpired : Ctr := ⟨20, 87⟩
/-- R873. -/
def ctrModPower : Ctr := ⟨20, 88⟩
/-- R907. -/
def ctrModCold : Ctr := ⟨20, 93⟩
/-- R907. -/
def ctrModWarm : Ctr := ⟨20, 98⟩
/-- R907. -/
def ctrModFallback : Ctr := ⟨20, 99⟩
/-- R907. -/
def ctrModFailed : Ctr := ⟨20, 100⟩
/-- R907. -/
def ctrModBistPass : Ctr := ⟨20, 106⟩
/-- R907. -/
def ctrModBistFail : Ctr := ⟨20, 107⟩
/-- R907. -/
def ctrModBistAbort : Ctr := ⟨20, 108⟩
/-- R907. -/
def ctrModStart14 : Ctr := ⟨20, 112⟩
/-- R907. -/
def ctrModStart17 : Ctr := ⟨20, 113⟩
/-- R907. -/
def ctrTierLinesPoisoned : Ctr := ⟨17, 11⟩
/-- R907. -/
def ctrTierUnmapped : Ctr := ⟨17, 12⟩
/-- R907. -/
def ctrStackRetired : Ctr := ⟨21, 0⟩
/-- R907. -/
def ctrStackCorrected : Ctr := ⟨21, 1⟩
/-- R943. -/
def ctrModBands : Ctr := ⟨20, 114⟩
/-- R943. -/
def ctrModSupplyLosses : Ctr := ⟨20, 117⟩
/-- R943. -/
def ctrModRefLosses : Ctr := ⟨20, 118⟩
/-- R943. -/
def ctrModRefParked : Ctr := ⟨20, 119⟩
/-- R943. -/
def ctrModPowerSteps : Ctr := ⟨20, 120⟩
/-- R943. -/
def ctrModOvercurrent : Ctr := ⟨20, 121⟩
/-- R943. -/
def ctrModThermalSteps : Ctr := ⟨20, 122⟩
/-- R943. -/
def ctrModTrips : Ctr := ⟨20, 125⟩
/-- R943. -/
def ctrModPerstIgnored : Ctr := ⟨20, 126⟩
/-- R943. -/
def ctrModTrayIgnored : Ctr := ⟨20, 127⟩
/-- R943. -/
def ctrModTrayRefused : Ctr := ⟨20, 128⟩
/-- R943. -/
def ctrModTrayMissed : Ctr := ⟨20, 129⟩

/-- R675: the counters of a unit of a class, in number order: true for a 64-bit counter. Runs of equal width. -/
def ctrRuns : Nat → List (Bool × Nat)
  | 1 => [(false, 8), (true, 3), (false, 14), (true, 7), (false, 4)]
  | 2 => [(false, 1), (true, 4), (false, 6)]
  | 3 => [(true, 5), (false, 8), (true, 1), (false, 3)]
  | 4 => [(false, 4)]
  | 5 => [(false, 1), (true, 2), (false, 4), (true, 2), (false, 2), (true, 2), (false, 1)]
  | 6 => [(true, 7), (false, 3), (true, 1), (false, 1), (true, 3), (false, 2)]
  | 7 => [(true, 1), (false, 1), (true, 1), (false, 1)]
  | 8 => [(true, 4)]
  | 9 => [(true, 2), (false, 3), (true, 1), (false, 10), (true, 2), (false, 4), (true, 1), (false, 7), (true, 3), (false, 1), (true, 1), (false, 6)]
  | 10 => [(true, 1), (false, 2)]
  | 11 => [(true, 1), (false, 2)]
  | 12 => [(true, 3)]
  | 13 => [(false, 3)]
  | 14 => [(true, 3), (false, 3), (true, 3), (false, 6), (true, 1), (false, 1), (true, 1), (false, 7)]
  | 15 => [(true, 2), (false, 1), (true, 2), (false, 10), (true, 1), (false, 3)]
  | 16 => [(true, 2), (false, 4), (true, 2), (false, 7), (true, 2), (false, 1), (true, 1), (false, 4)]
  | 17 => [(true, 4), (false, 9)]
  | 18 => [(true, 1), (false, 15), (true, 1), (false, 1), (true, 1), (false, 3)]
  | 19 => [(false, 13)]
  | 20 => [(false, 130)]
  | 21 => [(false, 2)]
  | _ => []

/-- R675: the widths of a class, one per counter. -/
def ctrWide (cls : Nat) : List Bool := ((ctrRuns cls).map (fun r => List.replicate r.2 r.1)).flatten

/-- R675: a 64-bit counter wraps, a 32-bit one saturates. -/
def ctrAdd (c : Ctr) (v n : Nat) : Nat :=
  if (ctrWide c.cls).getD c.num false then (v + n) % 2 ^ 64 else min (v + n) (2 ^ 32 - 1)

end Sys2Proof.Machine
end

