-- ==== Sys2Proof/Machine/Digest.lean ====
section
/-! DEFINITION. Check values: CRC-32C (R352), CRC-32 (R546) and SHA-384 (FIPS 180-4, R692, R844). -/

namespace Sys2Proof.Machine

/-- One bit of a reflected 32-bit CRC. -/
def crcBit (poly c : Nat) : Nat := if c % 2 = 1 then Nat.xor (c / 2) poly else c / 2

/-- One byte of a reflected 32-bit CRC. -/
def crcByte (poly c b : Nat) : Nat :=
  let x := Nat.xor c b
  crcBit poly (crcBit poly (crcBit poly (crcBit poly (crcBit poly (crcBit poly (crcBit poly (crcBit poly x)))))))

/-- A reflected CRC with initial value and final XOR all ones. -/
def crcOf (poly : Nat) (l : List Byte) : Nat :=
  Nat.xor (l.foldl (fun c b => crcByte poly c b.toNat) 0xFFFFFFFF) 0xFFFFFFFF

/-- R352: CRC-32C; 0x82F63B78 is the reflection of 0x1EDC6F41. -/
def crc32c (l : List Byte) : Nat := crcOf 0x82F63B78 l

/-- R546: CRC-32 of IEEE 802.3; 0xEDB88320 is the reflection of 0x04C11DB7. -/
def crc32 (l : List Byte) : Nat := crcOf 0xEDB88320 l

/-- One step of a CRC-32C signature over more bytes, R735. -/
def crcMore (sig : Nat) (l : List Byte) : Nat :=
  Nat.xor (l.foldl (fun c b => crcByte 0x82F63B78 c b.toNat) (Nat.xor sig 0xFFFFFFFF)) 0xFFFFFFFF

/-! ## SHA-384 -/

/-- The greatest r below 2^n with r^k at most v, found bit by bit. -/
def rootBelow (k v : Nat) : Nat → Nat → Nat
  | 0, r => r
  | n + 1, r => rootBelow k v n (if (r + 2 ^ n) ^ k ≤ v then r + 2 ^ n else r)

/-- FIPS 180-4: the first 64 bits of the fraction of the k-th root of p. Every prime used has roots below 2^6. -/
def rootFraction (k p : Nat) : Nat := rootBelow k (p * 2 ^ (64 * k)) 70 0 % 2 ^ 64

/-- The primes below n, rising. -/
def primesBelow (n : Nat) : List Nat :=
  (List.range n).filter (fun p => 2 ≤ p && (List.range p).all (fun d => d < 2 || p % d ≠ 0))

/-- FIPS 180-4: the round constants, from the cube roots of the first 80 primes. -/
def shaRounds : List Nat := ((primesBelow 410).take 80).map (rootFraction 3)

/-- Rotate a 64-bit word right. -/
def ror64 (x n : Nat) : Nat := Nat.lor (x / 2 ^ n) (x * 2 ^ (64 - n) % 2 ^ 64)

/-- The message schedule: w holds the last 16 words, newest first; every word is emitted oldest first. -/
def shaSchedule : Nat → List Nat → List Nat
  | 0, w => w.reverse
  | n + 1, w =>
    let w2 := w.getD 1 0
    let w15 := w.getD 14 0
    let s0 := Nat.xor (Nat.xor (ror64 w15 1) (ror64 w15 8)) (w15 / 2 ^ 7)
    let s1 := Nat.xor (Nat.xor (ror64 w2 19) (ror64 w2 61)) (w2 / 2 ^ 6)
    shaSchedule n ((w.getD 15 0 + s0 + w.getD 6 0 + s1) % 2 ^ 64 :: w)

/-- The eight working words. -/
structure Sha where
  (a b c d e f g h : Nat)
  deriving DecidableEq, Repr

/-- One round. -/
def shaRound (v : Sha) (kw : Nat × Nat) : Sha :=
  let s1 := Nat.xor (Nat.xor (ror64 v.e 14) (ror64 v.e 18)) (ror64 v.e 41)
  let ch := Nat.xor (Nat.land v.e v.f) (Nat.land (2 ^ 64 - 1 - v.e) v.g)
  let t1 := v.h + s1 + ch + kw.1 + kw.2
  let s0 := Nat.xor (Nat.xor (ror64 v.a 28) (ror64 v.a 34)) (ror64 v.a 39)
  let mj := Nat.xor (Nat.xor (Nat.land v.a v.b) (Nat.land v.a v.c)) (Nat.land v.b v.c)
  { a := (t1 + s0 + mj) % 2 ^ 64, b := v.a, c := v.b, d := v.c, e := (v.d + t1) % 2 ^ 64, f := v.e, g := v.f,
    h := v.g }

/-- Big-endian number of a byte string. -/
def natBig (l : List Byte) : Nat := l.foldl (fun a b => a * 256 + b.toNat) 0

/-- One block of 128 bytes. -/
def shaBlock (v : Sha) (block : List Byte) : Sha :=
  let w := shaSchedule 64 ((pieces 8 block).map natBig).reverse
  let r := (shaRounds.zip w).foldl shaRound v
  { a := (v.a + r.a) % 2 ^ 64, b := (v.b + r.b) % 2 ^ 64, c := (v.c + r.c) % 2 ^ 64, d := (v.d + r.d) % 2 ^ 64,
    e := (v.e + r.e) % 2 ^ 64, f := (v.f + r.f) % 2 ^ 64, g := (v.g + r.g) % 2 ^ 64, h := (v.h + r.h) % 2 ^ 64 }

/-- The padding of a message of n bytes. -/
def shaPad (n : Nat) : List Byte :=
  0x80#8 :: (List.replicate ((239 - n % 128) % 128) 0#8 ++ (bytesOf 16 (n * 8)).reverse)

/-- FIPS 180-4: SHA-384 begins with the square roots of the 9th to the 16th prime. -/
def shaStart : Sha :=
  let r := fun p => rootFraction 2 p
  { a := r 23, b := r 29, c := r 31, d := r 37, e := r 41, f := r 43, g := r 47, h := r 53 }

/-- The 48-byte SHA-384 digest. -/
def sha384 (l : List Byte) : List Byte :=
  let v := (pieces 128 (l ++ shaPad l.length)).foldl shaBlock shaStart
  (([v.a, v.b, v.c, v.d, v.e, v.f] : List Nat).map (fun x => (bytesOf 8 x).reverse)).flatten

end Sys2Proof.Machine
end

