-- ==== Sys2Proof/Machine/Ops.lean ====
section
/-! DEFINITION. The named operations over memory, counters, the units of the state and what leaves the module. -/

namespace Sys2Proof.Machine

/-! ## The physical numbering of memory, log entry 11 -/

/-- R342: core memory. -/
def corePhys (core off : Nat) : Nat := core * 2 ^ 23 + off
/-- R342: region memory. -/
def regionPhys (region off : Nat) : Nat := 2 ^ 36 + region * 2 ^ 29 + off
/-- HBM3E of a stack. -/
def hbmPhys (stack off : Nat) : Nat := 2 ^ 40 + stack * 2 ^ 37 + off
/-- The attached range of a tier port. -/
def tierPhys (port off : Nat) : Nat := 2 ^ 48 + port * 2 ^ 42 + off
/-- R123: an operand-buffer byte. -/
def bufPhys (engine off : Nat) : Nat := 2 ^ 52 + engine * 2 ^ 18 + off

/-- R338: bytes of a core memory. -/
def coreBytes : Nat := 6 * 2 ^ 20
/-- R338: bytes of a region memory. -/
def regionBytes : Nat := 384 * 2 ^ 20

/-- Which memory a physical address lies in. -/
inductive Place where
  | core (core off : Nat)
  | region (region off : Nat)
  | hbm (stack off : Nat)
  | tier (port off : Nat)
  | buffer (engine off : Nat)
  deriving DecidableEq, Repr

/-- The memory of a physical address. -/
def placeOf (a : Nat) : Place :=
  if a < 2 ^ 36 then .core (a / 2 ^ 23) (a % 2 ^ 23)
  else if a < 2 ^ 40 then .region ((a - 2 ^ 36) / 2 ^ 29) (a % 2 ^ 29)
  else if a < 2 ^ 48 then .hbm ((a - 2 ^ 40) / 2 ^ 37) ((a - 2 ^ 40) % 2 ^ 37)
  else if a < 2 ^ 52 then .tier ((a - 2 ^ 48) / 2 ^ 42) ((a - 2 ^ 48) % 2 ^ 42)
  else .buffer ((a - 2 ^ 52) / 2 ^ 18) (a % 2 ^ 18)

/-- The region whose dies hold a physical address, for on-wafer and HBM memory. -/
def placeRegion : Place → Option Nat
  | .core c _ => some (regionOf c)
  | .region r _ => some r
  | .hbm st _ => some (regionOfStack st)
  | .tier _ _ => none
  | .buffer e _ => some (regionOf (coreOfEngine e))

/-! ## Bytes -/

/-- A byte; an address not listed reads 0 (log entry 12). -/
def readByte (cells : List Host.Cell) (a : Nat) : Byte := look cells a 0

/-- Write a byte, keeping the list canonical: a zero is not listed. -/
def writeByte (cells : List Host.Cell) (a : Nat) (b : Byte) : List Host.Cell :=
  if b = 0 then cut cells a else put cells a b

/-- n bytes from an address. -/
def readCells (cells : List Host.Cell) (a : Nat) : Nat → List Byte
  | 0 => []
  | n + 1 => readByte cells a :: readCells cells (a + 1) n

/-- Bytes written from an address up. -/
def writeCells (cells : List Host.Cell) (a : Nat) : List Byte → List Host.Cell
  | [] => cells
  | b :: t => writeCells (writeByte cells a b) (a + 1) t

/-- The canonical form: addresses strictly rising, no zero listed, and the poisoned words strictly rising. -/
def Memory.wf (m : Memory) : Bool := rising (keys m.cells) && m.cells.all (fun c => c.2 ≠ 0) && rising m.poison

/-- n bytes of memory. -/
def readMem (m : Memory) (a n : Nat) : List Byte := readCells m.cells a n

/-- R23: an n-byte little-endian number. -/
def readNat (m : Memory) (a n : Nat) : Nat := natOf (readMem m a n)

/-- R509: the size of a poison mark: 64 bytes in tier-2, 8 elsewhere. -/
def markSize (a : Nat) : Nat := if 2 ^ 48 ≤ a && a < 2 ^ 52 then 64 else 8

/-- The marks a byte range touches, by number of their first 8-byte word. -/
def marksOf (a n : Nat) : List Nat :=
  let z := markSize a
  if n = 0 then [] else (List.range ((a + n - 1) / z - a / z + 1)).map (fun i => (a / z + i) * (z / 8))

/-- Log entry 21: data bytes of an HBM codeword. -/
def codewordBytes : Nat := 32

/-- Two byte ranges have a byte in common. -/
def overlaps (a n b m : Nat) : Bool := decide (a < b + m) && decide (b < a + n)

/-- R509: any poisoned word in a byte range. -/
def poisoned (m : Memory) (a n : Nat) : Bool := (marksOf a n).any (fun k => m.poison.contains k)

/-- The poison of each 8-byte word of a payload read from a range. -/
def poisonMask (m : Memory) (a n : Nat) : List Bool :=
  (List.range (ceilDiv n 8)).map (fun w => poisoned m (a + 8 * w) (min 8 (n - 8 * w)))

/-- Mark every word of a range poisoned. -/
def poisonRange (m : Memory) (a n : Nat) : Memory :=
  { m with poison := (marksOf a n).foldl addTo m.poison }

/-- R512, R371: the poison after a write of n bytes at a whose payload words carry the mask: a mark any poisoned byte
touches is set, a mark wholly covered is cleared, another is kept. -/
def poisonAfter (p : List Nat) (a n : Nat) (mask : List Bool) : List Nat :=
  let z := markSize a
  (marksOf a n).foldl (fun p k =>
    let lo := 8 * k
    let hit := mask.zipIdx.any (fun e => e.1 && decide (a + 8 * e.2 < lo + z) && decide (lo < min (a + 8 * e.2 + 8) (a + n)))
    if hit then addTo p k else if a ≤ lo && lo + z ≤ a + n then dropFrom p k else p) p

/-- Write bytes that carry poison by 8-byte payload word. -/
def writePoison (m : Memory) (a : Nat) (data : List Byte) (mask : List Bool) : Memory :=
  { cells := writeCells m.cells a data, poison := poisonAfter m.poison a data.length mask }

/-- R512: the words that `mem.fill` or `mem.scrub` writes in part are clean too; a tier-2 line written in part keeps its mark. -/
def clearWords (m : Memory) (a n : Nat) : Memory :=
  if markSize a = 8 then { m with poison := m.poison.filter (fun k => !((marksOf a n).contains k)) } else m

/-- Write clean bytes. -/
def writeMem (m : Memory) (a : Nat) (data : List Byte) : Memory := writePoison m a data []

/-- Write an n-byte number. -/
def writeNat (m : Memory) (a n v : Nat) : Memory := writeMem m a (bytesOf n v)

/-- R842: zero every byte and clear the poison of [lo, hi). -/
def zeroRange (m : Memory) (lo hi : Nat) : Memory :=
  { cells := keep m.cells (fun a => a < lo || hi ≤ a), poison := m.poison.filter (fun k => 8 * k < lo || hi ≤ 8 * k) }

/-- R371: copy n bytes from a to b with their poison. -/
def copyRange (m : Memory) (a b n : Nat) : Memory :=
  let z := zeroRange m b (b + n)
  { cells := (m.cells.filter (fun c => a ≤ c.1 && c.1 < a + n)).foldl (fun l c => writeByte l (b + (c.1 - a)) c.2) z.cells
    poison := (m.poison.filter (fun k => a ≤ 8 * k && 8 * k < a + n)).foldl (fun p k =>
      (marksOf (b + (8 * k - a)) (markSize a)).foldl addTo p) z.poison }

/-! ## Counters, free values, what leaves -/

/-- Add n to a counter of a unit. -/
def bump (s : State) (c : Ctr) (unit n : Nat) : State :=
  { s with counts := put s.counts (ctrKey c unit) (ctrAdd c (look s.counts (ctrKey c unit) 0) n) }

/-- Raise a counter to a high-water mark. -/
def bumpMax (s : State) (c : Ctr) (unit n : Nat) : State :=
  { s with counts := put s.counts (ctrKey c unit) (max n (look s.counts (ctrKey c unit) 0)) }

/-- The next free value, and the state that has used it. -/
def freeNext (s : State) : BitVec 64 × State := (Config.freeWord s.free, { s with free := s.free + 1 })

/-- Something leaves the module. -/
def emit (s : State) (o : Out) : State := { s with outbox := o :: s.outbox }

/-- R595, R590: raise an MSI-X vector: masked it pends, and with the link down it is discarded and counted. -/
def raiseMsix (s : State) (v : Nat) : State :=
  if s.hp.msixOn then
    match look? s.hp.msix v with
    | some e =>
      if e.masked then { s with hp := { s.hp with msixPend := addTo s.hp.msixPend v } }
      else if s.hp.linkUp then emit s (.msix v e.addr.toNat e.data.toNat)
      else bump s ctrHostMsixDiscarded 0 1
    | none => { s with hp := { s.hp with msixPend := addTo s.hp.msixPend v } }
  else s

/-- R596: an event sets its bit of `HP_EVENT`; with its enable set, vector 0 is raised. -/
def hostEvent (s : State) (bit : Nat) : State :=
  let was := s.hp.event.getLsbD bit
  let t := { s with hp := { s.hp with event := s.hp.event ||| BitVec.ofNat 6 (2 ^ bit) } }
  if !was && s.hp.eventEn.getLsbD bit then raiseMsix t 0 else t

/-- R596 bits of `HP_EVENT`. -/
def evLink : Nat := 0
/-- R596. -/
def evRefused : Nat := 1
/-- R596. -/
def evBiTimeout : Nat := 2
/-- R596. -/
def evTier : Nat := 3
/-- R596. -/
def evCaps : Nat := 4
/-- R596. -/
def evBar2 : Nat := 5

/-- R596: record a refusal in `HP_ERR_INFO` and `HP_ERR_ADDR`. -/
def hostRefusal (s : State) (cause addr : Nat) (write : Bool) : State :=
  let i := s.hp.errInfo.toNat
  if bitAt i 0 then
    { s with hp := { s.hp with errInfo := BitVec.ofNat 64 (setBits i 16 16 (min (bitsOf i 16 16 + 1) 65535)) } }
  else
    { s with hp := { s.hp with errInfo := BitVec.ofNat 64 (1 + 2 * bn write + cause * 256),
                               errAddr := BitVec.ofNat 64 addr } }

/-- R940, R939: a message to the tray controller. -/
def mctp (s : State) (code : Nat) (payload : List Byte) : State :=
  let t := emit s (.mctp code s.sup.mctpSeq payload)
  { t with sup := { t.sup with mctpSeq := (t.sup.mctpSeq + 1) % 65536 } }

/-- R941: an event message with its 12 detail bytes. -/
def trayEvent (s : State) (event : Nat) (detail : List Byte) : State :=
  mctp s 3 (bytesOf 8 s.clocks.sup ++ bytesOf 1 event ++ bytesOf 3 0 ++ fit detail 12)

/-! ## Fresh units -/

/-- R126: an empty half. -/
def Half.fresh : Half :=
  { aDone := false, bDone := false, gc := false, poison := false, held := false, spare := [] }

/-- R139: a drained tile. -/
def TileBuf.fresh : TileBuf := { words := [], done := none }

/-- R819: a cleared engine, its next load in half 0. -/
def Engine.fresh : Engine :=
  { nextHalf := 0, half0 := .fresh, half1 := .fresh, waiting := none, queue := [], acc := none, ended := false, curTile := 0,
    tile0 := .fresh, tile1 := .fresh, sent := [], replays := [], kept := none, defect := 0 }

/-- An empty lane of a generation. -/
def Lane.fresh (gen : Nat) : Lane :=
  { gen := gen, tokens := [], spilled := [], hand := 0, due := 0, start := 0, taken := 0, armed := false }

/-- A port without credit. -/
def Port.fresh : Port := { gen := 0, credits := 0, seq := 0 }

/-- An unbound stream. -/
def Stream.fresh : Stream :=
  { bound := false, desc := 0, dAddr := 0, done := 0, since := 0, fetched := 0, marks := [], resume := none, handles := [], engine := none,
    staged := [], halt := none, checks := [], drawn := [], row := none,
    rowPoison := false, written := [], retried := false }

/-- R241: an EMPTY slot. -/
def Slot.fresh : Slot :=
  { state := .empty, stopping := false, image := 0, g1 := false, ringOn := false, ringTab := 0, landOn := false, landTab := 0, ip := 0,
    loops := [], since := 0, gen := 0, lanes := [], ports := [], hqs := [], reserve := none, strms := [],
    issued := [], moving := none, fwd := [], areas := [], syncs := [], beacon := false, told := [], waits := false, progAt := none, monIp := 0,
    monLoops := [], sigSeq := 0, sigMon := 0, errLost := false, lastErr := 0, faultAddr := 0, faultUnit := 0,
    faultCause := 0, twin := none, primary := none, twinWait := [], reloc := [], injected := false }

/-- R308: a closed endpoint. -/
def Endpoint.fresh : Endpoint := { slot := 0, epoch := 0, isOpen := false, prev := none, parked := false }

/-- A core with nothing loaded. -/
def Core.fresh : Core :=
  { slots := [], ends := [], copies := [], nextTag := 0, last := 0, vecQ := [], parts := [], owed := [], formed := [], vecRetry := false }
/-- An idle hub. -/
def Hub.fresh : Hub := { merges := [], copies := [], nextTag := 0, dir := [], posts := [] }

/-- A region as it is first powered. -/
def Region.fresh : Region :=
  { sync := [], waits := [], fills := [], parked := [], cloves := [], cloveSeq := 0, patrolAt := 0,
    patrolOk := [], pageErrs := [], dblErrs := [], memLost := false, retained := false, untested := false,
    unwiped := false }

/-- R922: no demand. -/
def Demands.fresh : Demands :=
  { thermal := 0, power := 0, mask := false, reference := false, excursion := false, held := false }

/-- R531, R554: a port that has not joined. -/
def RolPort.fresh : RolPort :=
  { joined := false, member := 0, table := [], nextTable := none, strangers := [], loopback := 0, joinAt := 0,
    edgeSeen := false, roster := false, pending := 0, named := none, await := none, sending := none, resend := [], cwAt := 0, cwAll := 0, cwBad := 0, collisions := 0, skip := 0,
    idleEdge := 0, queue := [], queueAt := 0, ready := [], retained := [], expect := [], sendSeq := [], owed := [],
    failed := [], lost := [], leaving := false, quiet := false, wantNull := false }

/-- R615: a tier port with no link. -/
def TierPort.fresh : TierPort :=
  { linkUp := false, fenced := false, unsupported := false, width := 0, rate := 0, devices := [], reqs := [],
    nextReq := 0 }

/-! ## Units of the state -/

/-- A core. -/
def coreOf (s : State) (c : Nat) : Core := look s.cores c .fresh
/-- A core replaced. -/
def setCore (s : State) (c : Nat) (v : Core) : State := { s with cores := put s.cores c v }
/-- A slot. -/
def slotOf (s : State) (c k : Nat) : Slot := look (coreOf s c).slots k .fresh
/-- A slot replaced. -/
def setSlot (s : State) (c k : Nat) (v : Slot) : State :=
  setCore s c { coreOf s c with slots := put (coreOf s c).slots k v }
/-- An engine. -/
def engOf (s : State) (e : Nat) : Engine := look s.engines e .fresh
/-- An engine replaced. -/
def setEng (s : State) (e : Nat) (v : Engine) : State := { s with engines := put s.engines e v }
/-- A hub. -/
def hubOf (s : State) (h : Nat) : Hub := look s.hubs h .fresh
/-- A hub replaced. -/
def setHub (s : State) (h : Nat) (v : Hub) : State := { s with hubs := put s.hubs h v }
/-- A region. -/
def regOf (s : State) (r : Nat) : Region := look s.regions r .fresh
/-- A region replaced. -/
def setReg (s : State) (r : Nat) (v : Region) : State := { s with regions := put s.regions r v }
/-- A slice replaced. -/
def setSlice (s : State) (h : Nat) (v : Slice) : State := { s with slices := put s.slices h v }
/-- A Rolben port. -/
def portOf (s : State) (p : Nat) : RolPort := look s.fabric.ports p .fresh
/-- A Rolben port replaced. -/
def setPort (s : State) (p : Nat) (v : RolPort) : State :=
  { s with fabric := { s.fabric with ports := put s.fabric.ports p v } }
/-- The joined Rolben ports. -/
def joinedPorts (s : State) : List Nat := (List.range 16).filter (fun p => (portOf s p).joined)
/-- R46, R533: the module leaves its domain with its last port. -/
def leaveDomain (s : State) : State :=
  if (joinedPorts s).isEmpty then { s with fabric := { s.fabric with moduleId := 0, key := [], domain := 0 } } else s
/-- A tier port. -/
def tierOf (s : State) (p : Nat) : TierPort := look s.tiers p .fresh
/-- A tier port replaced. -/
def setTier (s : State) (p : Nat) (v : TierPort) : State := { s with tiers := put s.tiers p v }
/-- A region's housekeeping counter. -/
def regionNow (s : State) (r : Nat) : Nat := look s.clocks.region r 0
/-- The compute count of a core's region. -/
def computeNow (s : State) (c : Nat) : Nat := look s.clocks.compute (regionOf c) 0

/-- The slice that holds a region. -/
def sliceOfRegion (s : State) (r : Nat) : Option Nat :=
  (s.slices.find? (fun e => e.2.regions.contains r)).map (·.1)
/-- The slice that holds a core. -/
def sliceOfCore (s : State) (c : Nat) : Option Nat := sliceOfRegion s (regionOf c)

/-- R708: the checking mode in force for a core. -/
def modeOfCore (s : State) (c : Nat) : Nat :=
  match sliceOfCore s c with
  | some h => (look? s.slices h).elim 0 (·.mode)
  | none => s.sup.checkDefault

/-- R708: standard or full. -/
def checked (s : State) (c : Nat) : Bool := modeOfCore s c ≠ 0

/-- The bytes of a core's memory. -/
def coreRead (s : State) (c off n : Nat) : List Byte := readMem s.mem (corePhys c off) n
/-- A number in a core's memory. -/
def coreNat (s : State) (c off n : Nat) : Nat := readNat s.mem (corePhys c off) n
/-- Bytes written to a core's memory. -/
def coreWrite (s : State) (c off : Nat) (l : List Byte) : State := { s with mem := writeMem s.mem (corePhys c off) l }
/-- Poison in a range of a core's memory. -/
def corePoison (s : State) (c off n : Nat) : Bool := poisoned s.mem (corePhys c off) n

/-! ## Pairs of endpoints, R432, R433, R435 -/

/-- R432: the key of a (source, destination) pair. -/
def pairKey (src dst : Nat) : Nat := src * 2 ^ 14 + dst

/-- A pair's source side as it starts. -/
def PairSrc.fresh : PairSrc :=
  { sent := 0, epoch := false, unanswered := false, pseq := 0, vc5Out := 0, swap := 0 }
/-- A pair's destination side as it starts. -/
def PairDst.fresh : PairDst := { got0 := 0, got1 := 0, pseq := 0 }

/-- The source side of a pair. -/
def pairSrc (s : State) (src dst : Nat) : PairSrc := look s.mesh.pairSrc (pairKey src dst) .fresh

/-- R421: the requests that R430 and R431 order. -/
def ordered (kind : Nat) : Bool := kind = 0 || kind = 1 || kind = 5

/-- R432, R459: a packet of a pair must be flagged: it is asked for, the source has switched tables since, or the count is
full. -/
def mustFlag (s : State) (src dst : Nat) (flagged : Bool) : Bool :=
  flagged || decide ((pairSrc s src dst).swap < look s.mesh.swaps src 0) || decide (4095 ≤ (pairSrc s src dst).sent)

/-- R433, R435: the limits of a pair hold back a request: 16 on VC5 unanswered, or a flagged packet unanswered. -/
def injectHeld (s : State) (src dst kind : Nat) (flagged g1 : Bool) : Bool :=
  ordered kind && (if g1 then decide (16 ≤ (pairSrc s src dst).vc5Out)
    else mustFlag s src dst flagged && (pairSrc s src dst).unanswered)

/-! ## Detections, R712, R714 -/

/-- R806: the code recorded, injected or not. -/
def clsCode (cls : Nat) (injected : Bool) : Nat := if injected then cls + 0x80 else cls

/-- R763: the index of a class code's counter. -/
def detectIndex (code : Nat) : Nat :=
  if code = 0xFF then 24 else (if 0x80 ≤ code then code - 0x80 else code) - 1

/-- R712: Furelo records a detected fault of an element. -/
def detect (s : State) (el : Element) (code : Nat) (hard : Bool) (place : Nat) : State :=
  let t := bump s (ctrModDetected.plus (detectIndex code)) 0 1
  { t with sup := { t.sup with detections :=
      { element := el, cls := code, at_ := s.clocks.sup, hard := hard, place := place } :: t.sup.detections } }

/-- R804, R805: a planned injection of a class has been made at a unit and awaits its detection. -/
def plantedAt (s : State) (cls unit id : Nat) : Bool :=
  s.sup.injections.any (fun j => j.live && j.cls = cls && j.unit = unit && j.id = id)

/-- R805: the injection at a unit has been detected. -/
def injectionSeen (s : State) (unit id : Nat) : State :=
  { s with sup := { s.sup with injections := s.sup.injections.map (fun j =>
      if j.live && j.unit = unit && j.id = id then { j with live := false } else j) } }

/-- R806: a detection of a class at a unit of R676: an injected one carries the class plus 0x80. -/
def detectAt (s : State) (el : Element) (cls unit id : Nat) (hard : Bool) : State :=
  injectionSeen (detect s el (clsCode cls (plantedAt s cls unit id)) hard 0) unit id

/-- R763: faults masked: 0 check replay, 1 epilogue rerun, 2 row re-execution, 3 twin rerun. -/
def masked (s : State) (how : Nat) : State := bump s (ctrModMasked.plus how) 0 1

/-- R671: the element of a core. -/
def elCore (c : Nat) : Element := { kind := 1, id := c }
/-- R671: the element of a hub. -/
def elHub (h : Nat) : Element := { kind := 2, id := h }
/-- R671: the element of a region controller. -/
def elCtrl (r : Nat) : Element := { kind := 8, id := r }
/-- R671: an HBM page. -/
def elPage (stack page : Nat) : Element := { kind := 7, id := stack + page * 128 }

/-! ## Sync objects, R324 to R328 -/

/-- R324 type. -/
def swType (w : Reg) : Nat := bitsOf w.toNat 62 2
/-- R324: a state word an object may hold: reserved bits zero, a type that exists, a barrier short of its target. -/
def swValid (w : Reg) : Bool :=
  match swType w with
  | 0 => bitsOf w.toNat 48 14 = 0
  | 1 => bitsOf w.toNat 32 30 = 0
  | 2 => bitsOf w.toNat 48 14 = 0 && decide (bitsOf w.toNat 0 16 < bitsOf w.toNat 16 16)
  | _ => false

/-- R324: a barrier word. -/
def barrierWord (arrived target phase : Nat) : Reg :=
  BitVec.ofNat 64 (arrived + target * 2 ^ 16 + phase * 2 ^ 32 + 2 * 2 ^ 62)

/-- The word of a barrier after one arrival. -/
def arriveWord (w : Reg) : Reg :=
  let a := bitsOf w.toNat 0 16
  let t := bitsOf w.toNat 16 16
  let p := bitsOf w.toNat 32 16
  if a + 1 = t then barrierWord 0 t ((p + 1) % 65536) else barrierWord (a + 1) t p

/-- R328: the type an operation needs; none for any. -/
def opType (op : Nat) : Option Nat :=
  if op = 2 || op = 3 || op = 7 then some 0
  else if op = 4 || op = 5 || op = 0xA then some 1
  else if op = 6 || op = 8 || op = 9 then some 2
  else none

/-- R328: what an operation that does not wait does: the new word and the status. -/
def syncApply (op : Nat) (w a b : Reg) : Reg × Nat :=
  let v := w.toNat % 2 ^ 48
  let cnt := w.toNat % 2 ^ 32
  if (opType op).any (· ≠ swType w) then (w, 2)
  else match op with
    | 0 => (w, 0)
    | 1 => if swValid a then (a, 0) else (w, 2)
    | 2 => (BitVec.ofNat 64 ((v + a.toNat % 2 ^ 48) % 2 ^ 48), 0)
    | 3 => (if v = a.toNat % 2 ^ 48 then BitVec.ofNat 64 (b.toNat % 2 ^ 48) else w, 0)
    | 4 => if cnt + a.toNat % 2 ^ 32 < 2 ^ 32 then (BitVec.ofNat 64 (cnt + a.toNat % 2 ^ 32 + 2 ^ 62), 0) else (w, 3)
    | 5 => if a.toNat % 2 ^ 32 ≤ cnt then (BitVec.ofNat 64 (cnt - a.toNat % 2 ^ 32 + 2 ^ 62), 0) else (w, 1)
    | 6 => (arriveWord w, 0)
    | _ => (w, 0)

/-- R328, R331: whether a waiting operation is satisfied by a word; `before` is the word its arrival found. -/
def waitMet (op : Nat) (w a before : Reg) : Bool :=
  match op with
  | 7 => decide (a.toNat % 2 ^ 48 ≤ w.toNat % 2 ^ 48)
  | 8 => decide (bitsOf w.toNat 32 16 ≠ a.toNat % 2 ^ 16)
  | 9 => decide (bitsOf w.toNat 32 16 ≠ bitsOf before.toNat 32 16)
  | _ => decide (a.toNat % 2 ^ 32 ≤ w.toNat % 2 ^ 32)

/-- R326: the state word of an object. -/
def syncWord (s : State) (r i : Nat) : Reg := look (regOf s r).sync i 0

/-- R335: an object that answers: its region exists and is not dark. -/
def regionServes (s : State) (r : Nat) : Bool := regionExists s r && shedOf s r ≠ .dark

/-- R328 post of one unit by hardware; the word when it changes, and the status. -/
def postOne (s : State) (r i : Nat) : Reg × Nat :=
  if regionServes s r then syncApply 4 (syncWord s r i) 1 0 else (syncWord s r i, 4)

end Sys2Proof.Machine
end

