-- ==== Sys2Proof/Machine/Records.lean ====
section
/-! DEFINITION. More record fields: the context image, ring and landing tables, and the steps of the sequencer, the copy
engine, the vector unit and the hubs. -/

namespace Sys2Proof.Machine

/-- R25: every bit of a record lies in one of the listed fields (low bit, width), or is zero. -/
def onlyFields (v : Nat) (fields : List (Nat × Nat)) : Bool :=
  (fields.map (fun f => bitsOf v f.1 f.2 * 2 ^ f.1)).sum = v

/-! ## The context image, R236 to R239 -/

/-- R236. -/
def imConfig (d : BitVec 1536) : Nat := fld d 0 32
/-- R236. -/
def imX0 (d : BitVec 1536) : Nat := fld d 32 7
/-- R236. -/
def imY0 (d : BitVec 1536) : Nat := fld d 39 6
/-- R236. -/
def imWidth (d : BitVec 1536) : Nat := fld d 45 7
/-- R236. -/
def imHeight (d : BitVec 1536) : Nat := fld d 52 6
/-- R236. -/
def imAnchor (d : BitVec 1536) : Nat := fld d 64 12
/-- R236. -/
def imStepBase (d : BitVec 1536) : Nat := fld d 80 23
/-- R236. -/
def imStepCount (d : BitVec 1536) : Nat := fld d 104 16
/-- R236. -/
def imEntry (d : BitVec 1536) : Nat := fld d 120 16
/-- R236. -/
def imQuantum (d : BitVec 1536) : Nat := fld d 136 16
/-- R236. -/
def imExtBase (d : BitVec 1536) : Nat := fld d 152 23
/-- R236. -/
def imExtTokens (d : BitVec 1536) : Nat := fld d 175 12
/-- R236 engine_out_hq. -/
def imEngineHq (d : BitVec 1536) (e : Nat) : Nat := fld d (192 + 2 * e) 2
/-- R237: an input-lane entry. -/
def imLane (d : BitVec 1536) (n : Nat) : Nat := fld d (256 + 32 * n) 32
/-- R238: an output-port entry. -/
def imPort (d : BitVec 1536) (n : Nat) : Nat := fld d (768 + 32 * n) 32
/-- R239: a handle-queue entry. -/
def imHq (d : BitVec 1536) (h : Nat) : Nat := fld d (1280 + 64 * h) 64

/-- R237. -/
def laneDepth (l : Nat) : Nat := bitsOf l 0 7
/-- R237. -/
def laneCore (l : Nat) : Nat := bitsOf l 7 12
/-- R237. -/
def laneSlot (l : Nat) : Nat := bitsOf l 19 2
/-- R237. -/
def lanePort (l : Nat) : Nat := bitsOf l 21 4
/-- R238. -/
def portCore (p : Nat) : Nat := bitsOf p 0 12
/-- R238. -/
def portSlot (p : Nat) : Nat := bitsOf p 12 2
/-- R238. -/
def portLane (p : Nat) : Nat := bitsOf p 14 4
/-- R238. -/
def portOn (p : Nat) : Bool := bitAt p 18
/-- R239. -/
def hqBase (q : Nat) : Nat := bitsOf q 0 23
/-- R239: the size of a buffer. -/
def hqBytes (q : Nat) : Nat := (bitsOf q 23 12 + 1) * 256
/-- R239. -/
def hqBufs (q : Nat) : Nat := bitsOf q 35 7
/-- R239. -/
def hqOn (q : Nat) : Bool := bitAt q 42
/-- R271: the handle of buffer i of handle queue h of a slot. -/
def hqHandle (slot h gen i : Nat) : Nat := i + h * 2 ^ 6 + slot * 2 ^ 8 + gen * 2 ^ 10
/-- R271: the buffer a handle names. -/
def hdIndex (x : Nat) : Nat := bitsOf x 0 6
/-- R271: its handle queue. -/
def hdQueue (x : Nat) : Nat := bitsOf x 6 2
/-- R271: its generation. -/
def hdGen (x : Nat) : Nat := bitsOf x 10 4
/-- R272: the free FIFO of handle queue h of a slot after a load or a reset. -/
def hqFresh (slot h gen q : Nat) : List Nat := if hqOn q then (List.range (hqBufs q)).map (hqHandle slot h gen) else []
/-- R271: the address of the buffer that a handle names. -/
def hqAddr (q x : Nat) : Nat := hqBase q + hdIndex x * hqBytes q

/-- R230: a core of the rectangle. -/
def inRect (d : BitVec 1536) (core : Nat) : Bool :=
  decide (imX0 d ≤ coreX core) && decide (coreX core < imX0 d + imWidth d) &&
  decide (imY0 d ≤ coreY core) && decide (coreY core < imY0 d + imHeight d)

/-- R230: the cores of the rectangle. -/
def rectCores (d : BitVec 1536) : List Nat :=
  ((List.range (imHeight d)).map (fun j => (List.range (imWidth d)).map (fun i => coreAt (imX0 d + i) (imY0 d + j)))).flatten

/-- R236: reserved bits of an image. -/
def imReserved (d : BitVec 1536) : Bool :=
  fld d 58 6 ≠ 0 || fld d 76 4 ≠ 0 || fld d 103 1 ≠ 0 || fld d 187 5 ≠ 0 || fld d 200 56 ≠ 0 ||
  (List.range 16).any (fun n => bitsOf (imLane d n) 25 7 ≠ 0 || bitsOf (imPort d n) 19 13 ≠ 0) ||
  (List.range 4).any (fun h => bitsOf (imHq d h) 43 21 ≠ 0)

/-! ## Queue and control steps, R249 -/

/-- R249 sel. -/
def qSel (d : BitVec 512) : Nat := fld d 8 4
/-- R249 use_hq. -/
def qUseHq (d : BitVec 512) : Bool := fld d 12 1 = 1
/-- R249 hq. -/
def qHq (d : BitVec 512) : Nat := fld d 13 2
/-- R249 flagged. -/
def qFlagged (d : BitVec 512) : Bool := fld d 15 1 = 1
/-- R249 addr. -/
def qAddr (d : BitVec 512) : Nat := fld d 16 23
/-- R249 target. -/
def qTarget (d : BitVec 512) : Nat := fld d 39 16
/-- R249 count. -/
def qCount (d : BitVec 512) : Nat := fld d 64 32

/-- R249: fields a step does not use are zero. -/
def qReserved (d : BitVec 512) : Bool :=
  let v := d.toNat
  let hq := qUseHq d
  !(match fld d 0 8 with
    | 0x40 => onlyFields v ([(0, 8), (8, 4), (12, 1), (15, 1)] ++ if hq then [(13, 2)] else [(16, 23)])
    | 0x41 => onlyFields v ([(0, 8), (8, 4), (12, 1)] ++ if hq then [(13, 2)] else [(16, 23), (64, 32)])
    | 0x44 => onlyFields v [(0, 8), (8, 2), (39, 16), (64, 32)]
    | 0x45 => onlyFields v [(0, 8), (39, 16)]
    | _ => onlyFields v [(0, 8)])

/-! ## Message and synchronisation steps, R299, R316, R327 -/

/-- R299 n_words. -/
def msWords (d : BitVec 512) : Nat := fld d 8 3
/-- R299 inline. -/
def msInline (d : BitVec 512) : Bool := fld d 11 1 = 1
/-- R299 dest_core. -/
def msDest (d : BitVec 512) : Nat := fld d 16 12
/-- R299 tag. -/
def msTag (d : BitVec 512) : Nat := fld d 28 16
/-- R299 epoch. -/
def msEpoch (d : BitVec 512) : Nat := fld d 44 8
/-- R299 addr. -/
def msAddr (d : BitVec 512) : Nat := fld d 64 23
/-- R299: reserved bits. -/
def msReserved (d : BitVec 512) : Bool :=
  !(onlyFields d.toNat ([(0, 8), (8, 3), (11, 1), (16, 12), (28, 16), (44, 8), (64, 23)] ++ [(256, 256)]))

/-- R316 class. -/
def mrClass (d : BitVec 512) : Nat := fld d 8 4
/-- R316 nowait. -/
def mrNowait (d : BitVec 512) : Bool := fld d 12 1 = 1
/-- R316 addr. -/
def mrAddr (d : BitVec 512) : Nat := fld d 16 23
/-- R316: reserved bits. -/
def mrReserved (d : BitVec 512) : Bool := !(onlyFields d.toNat [(0, 8), (8, 4), (12, 1), (16, 23)])

/-- R327 op. -/
def syOp (d : BitVec 512) : Nat := fld d 8 4
/-- R327 remote. -/
def syRemote (d : BitVec 512) : Bool := fld d 30 1 = 1
/-- R327 module_id. -/
def syModule (d : BitVec 512) : Nat := fld d 31 14
/-- R327 region. -/
def syRegion (d : BitVec 512) : Nat := fld d 45 6
/-- R327 index. -/
def syIndex (d : BitVec 512) : Nat := fld d 51 16
/-- R327 result_addr. -/
def syResult (d : BitVec 512) : Nat := fld d 87 23
/-- R327 operand_a. -/
def syA (d : BitVec 512) : Reg := BitVec.ofNat 64 (fld d 128 64)
/-- R327 operand_b. -/
def syB (d : BitVec 512) : Reg := BitVec.ofNat 64 (fld d 192 64)
/-- R327: reserved bits. -/
def syReserved (d : BitVec 512) : Bool :=
  !(onlyFields d.toNat [(0, 8), (8, 4), (30, 1), (31, 14), (45, 6), (51, 16), (87, 23), (128, 64), (192, 64)])

/-! ## Copy and stream steps, R357, R358, R373 -/

/-- R357 stream. -/
def csStream (d : BitVec 512) : Nat := fld d 8 4
/-- R357 desc_addr. -/
def csDesc (d : BitVec 512) : Nat := fld d 16 23
/-- R357: reserved bits. -/
def csReserved (d : BitVec 512) : Bool := !(onlyFields d.toNat [(0, 8), (8, 4), (16, 23)])

/-- R358 form. -/
def cdForm (d : BitVec 1024) : Nat := fld d 0 4
/-- R358 gc_offer. -/
def cdGc (d : BitVec 1024) : Bool := fld d 4 1 = 1
/-- R358 src_sel, src_nb, dst_sel, dst_nb, idx_sel, idx_nb. -/
def cdSrcSel (d : BitVec 1024) : Nat := fld d 5 2
/-- R358. -/
def cdSrcNb (d : BitVec 1024) : Nat := fld d 7 2
/-- R358. -/
def cdDstSel (d : BitVec 1024) : Nat := fld d 9 2
/-- R358. -/
def cdDstNb (d : BitVec 1024) : Nat := fld d 11 2
/-- R358. -/
def cdIdxSel (d : BitVec 1024) : Nat := fld d 13 2
/-- R358. -/
def cdIdxNb (d : BitVec 1024) : Nat := fld d 15 2
/-- R358. -/
def cdSrc (d : BitVec 1024) : Nat := fld d 64 64
/-- R358. -/
def cdDst (d : BitVec 1024) : Nat := fld d 128 64
/-- R358. -/
def cdRec (d : BitVec 1024) : Nat := fld d 192 32
/-- R358: a count. -/
def cdCount (d : BitVec 1024) (i : Nat) : Nat := fld d (224 + 32 * i) 32
/-- R358: a source stride. -/
def cdSrcStride (d : BitVec 1024) (i : Nat) : Int := signed (fld d (352 + 48 * i) 48) 48
/-- R358: a destination stride. -/
def cdDstStride (d : BitVec 1024) (i : Nat) : Int := signed (fld d (544 + 48 * i) 48) 48
/-- R358. -/
def cdIdx (d : BitVec 1024) : Nat := fld d 736 64
/-- R358. -/
def cdLimit (d : BitVec 1024) : Nat := fld d 800 32
/-- R358. -/
def cdDone (d : BitVec 1024) : Nat := fld d 832 64
/-- R359: the number of records. -/
def cdRecords (d : BitVec 1024) : Nat := cdCount d 0 * cdCount d 1 * cdCount d 2 * cdCount d 3

/-- R373. -/
def stForm (d : BitVec 1024) : Nat := fld d 0 2
/-- R373. -/
def stIndexed (d : BitVec 1024) : Bool := fld d 2 1 = 1
/-- R373. -/
def stSel (d : BitVec 1024) : Nat := fld d 3 3
/-- R373. -/
def stNb (d : BitVec 1024) : Nat := fld d 6 2
/-- R373: prefetch depth − 1. -/
def stDepth (d : BitVec 1024) : Nat := fld d 8 2
/-- R373. -/
def stPort (d : BitVec 1024) : Nat := fld d 10 4
/-- R373: the handle queue of sel 4. -/
def stHq (d : BitVec 1024) : Nat := fld d 10 2
/-- R373. -/
def stFmt (d : BitVec 1024) : Nat := fld d 14 4
/-- R373. -/
def stBlocks (d : BitVec 1024) : Nat := fld d 18 6
/-- R373. -/
def stCol0 (d : BitVec 1024) : Nat := fld d 24 5
/-- R373. -/
def stBase (d : BitVec 1024) : Nat := fld d 64 64
/-- R373. -/
def stStage (d : BitVec 1024) : Nat := fld d 128 23
/-- R373. -/
def stRows (d : BitVec 1024) : Nat := fld d 160 11
/-- R373. -/
def stCols (d : BitVec 1024) : Nat := fld d 171 11
/-- R373. -/
def stCount (d : BitVec 1024) (i : Nat) : Nat := fld d (192 + 32 * i) 32
/-- R373. -/
def stStride (d : BitVec 1024) (i : Nat) : Int := signed (fld d (320 + 48 * i) 48) 48
/-- R373. -/
def stIdx (d : BitVec 1024) : Nat := fld d 512 64
/-- R373. -/
def stLimit (d : BitVec 1024) : Nat := fld d 576 32
/-- R373. -/
def stDone (d : BitVec 1024) : Nat := fld d 640 64
/-- R374: positions of an operand stream. -/
def stLoads (d : BitVec 1024) : Nat := stCount d 0 * stCount d 1 * stCount d 2 * stCount d 3
/-- R391: elements of a row. -/
def stRowLen (d : BitVec 1024) : Nat := stCount d 0 * stCount d 1
/-- R391: rows of a vector stream. -/
def stRowCount (d : BitVec 1024) : Nat := stCount d 2 * stCount d 3

/-! ## Vector steps, R169 -/

/-- R169 kernel. -/
def vkKernel (d : BitVec 512) : Nat := fld d 8 8
/-- R169: the stream slot of an input. -/
def vkIn (d : BitVec 512) (i : Nat) : Nat := fld d (16 + 4 * i) 4
/-- R169: the stream slot of an output. -/
def vkOut (d : BitVec 512) (i : Nat) : Nat := fld d (32 + 4 * i) 4
/-- R169. -/
def vkRowLen (d : BitVec 512) : Nat := fld d 64 32
/-- R169. -/
def vkRows (d : BitVec 512) : Nat := fld d 96 32
/-- R169. -/
def vkParam0 (d : BitVec 512) : BitVec 32 := BitVec.ofNat 32 (fld d 128 32)
/-- R169. -/
def vkParam1 (d : BitVec 512) : BitVec 32 := BitVec.ofNat 32 (fld d 160 32)
/-- R169. -/
def vkProg (d : BitVec 512) : Nat := fld d 192 23
/-- R169. -/
def vkProgLen (d : BitVec 512) : Nat := fld d 215 5 + 1
/-- R169. -/
def vkPartners (d : BitVec 512) : List Nat := (List.range (fld d 304 3)).map (fun i => fld d (256 + 12 * i) 12)
/-- R169: reserved bits. -/
def vkReserved (d : BitVec 512) : Bool := fld d 40 24 ≠ 0 || fld d 220 36 ≠ 0 || fld d 307 205 ≠ 0

/-! ## Ring tables, R305 -/

/-- R305. -/
def reBase (e : Nat) : Nat := bitsOf e 0 23
/-- R305. -/
def reOn (e : Nat) : Bool := bitAt e 23
/-- R305. -/
def reSize (e : Nat) : Nat := bitsOf e 24 18
/-- R305. -/
def reEpoch (e : Nat) : Nat := bitsOf e 42 8
/-- R305. -/
def reWr (e : Nat) : Nat := bitsOf e 64 18
/-- R305. -/
def reWrPhase (e : Nat) : Bool := bitAt e 82
/-- R305. -/
def reRd (e : Nat) : Nat := bitsOf e 96 18
/-- R305. -/
def reRdPhase (e : Nat) : Bool := bitAt e 114

/-- R313: units in use. -/
def ringUsed (e : Nat) : Nat := if reWrPhase e = reRdPhase e then reWr e - reRd e else reSize e - reRd e + reWr e

/-- R313: where `need` units go: `none` when dropped; otherwise whether a pad marker is written, the unit of the
header, its phase, and the new wr and wr_phase. -/
def ringFit (e need : Nat) : Option (Bool × Nat × Bool × Nat × Bool) :=
  let room := reSize e - reWr e
  let free := reSize e - ringUsed e
  if need ≤ room then
    (if free < need then none
     else if reWr e + need = reSize e then some (false, reWr e, reWrPhase e, 0, !reWrPhase e)
     else some (false, reWr e, reWrPhase e, reWr e + need, reWrPhase e))
  else if free < room + need then none
  else some (true, 0, !reWrPhase e, need, !reWrPhase e)

end Sys2Proof.Machine
end

