-- ==== Sys2Proof/Machine/Sequencer.lean ====
section
/-! DEFINITION. What every step of a context shares: which slot runs, fetching and issuing a step, blocking and
switching, rejections and error records, beacons and progress reports (05_spatial.md, 06_messages.md). -/

namespace Sys2Proof.Machine

/-! ## Groups and cores that may run -/

/-- R495: the resident group of a core. -/
def groupOf (s : State) (c : Nat) : Option Group :=
  match sliceOfCore s c with
  | none => none
  | some h => ((look? s.slices h).map (·.groups)).bind (fun gs => gs.find? (fun g => g.resident && g.cores.contains c))

/-- R815: a region whose slice waits for a region controller to restart, or which waits for its own. -/
def ctrlHeld (s : State) (r : Nat) : Bool :=
  s.sup.ctrlHalted.any (fun t => t = r || ((sliceOfRegion s r).isSome && sliceOfRegion s t = sliceOfRegion s r))

/-- R501, R777, R795, R815: the group of a core has been told to stop issuing, or has a core in a parked or halted
region. -/
def coreHeld (s : State) (c : Nat) : Bool :=
  (groupOf s c).any (fun g => g.halted || g.image = .saving || g.image = .restoring ||
    g.cores.any (fun d => shedOf s (regionOf d) = .parked || ctrlHeld s (regionOf d)))

/-- R752: the core's region is under an anise pass. -/
def underPass (s : State) (c : Nat) : Bool := s.sup.aniseRun = some (regionOf c)

/-- R792, R864: the core's compute clock runs. -/
def coreClocked (s : State) (c : Nat) : Bool :=
  coreUsable s c && (shedOf s (regionOf c) = .lit || shedOf s (regionOf c) = .throttled) &&
  (s.power.state = .m0 || s.power.state = .m1) && !underPass s c

/-- R792, R864: the core's compute clock runs and nothing holds its group. -/
def coreRuns (s : State) (c : Nat) : Bool := coreClocked s c && !coreHeld s c

/-- R501 step 2: the group of a core is being saved and the copying into its images has not begun. -/
def savesBegun (s : State) (c : Nat) : Bool := (groupOf s c).any (fun g => !g.halted && g.image = .saving && g.prog.isEmpty)

/-- R501 step 2: a core whose engines bring to an end what has entered its first K-step: it runs, or its group is being
saved. -/
def engineRuns (s : State) (c : Nat) : Bool := coreRuns s c || (coreClocked s c && savesBegun s c)

/-- R781: a core ID as the slot's relocation table maps it. -/
def relocated (v : Slot) (c : Nat) : Nat := ((v.reloc.find? (·.1 = c)).map (·.2)).getD c

/-- The slots of a core in a state. -/
def slotsIn (s : State) (c : Nat) (st : SlotState) : List Nat :=
  (List.range 4).filter (fun k => decide ((slotOf s c k).state = st))

/-- R242: the RUNNING slot. -/
def runningSlot (s : State) (c : Nat) : Option Nat := (slotsIn s c .running).head?

/-- Replace a slot by a function of it. -/
def onSlot (s : State) (c k : Nat) (f : Slot → Slot) : State := setSlot s c k (f (slotOf s c k))

/-- The unit number of a slot's counters. -/
def slotUnit (c k : Nat) : Nat := c * 4 + k

/-! ## Rings -/

/-- Where a ring's entry lies in a slot's ring table. -/
def ringEntryAt (v : Slot) (i : Nat) : Nat := v.ringTab + 16 * i

/-- R304: a ring-table entry as memory holds it. -/
def ringEntry (s : State) (c : Nat) (v : Slot) (i : Nat) : Nat := coreNat s c (ringEntryAt v i) 16

/-- Set wr and wr_phase of an entry. -/
def setRingWr (s : State) (c : Nat) (v : Slot) (i wr : Nat) (ph : Bool) : State :=
  let a := ringEntryAt v i + 8
  coreWrite s c a (bytesOf 4 (setBits (coreNat s c a 4) 0 19 (wr + bn ph * 2 ^ 18)))

/-- Set rd and rd_phase of an entry. -/
def setRingRd (s : State) (c : Nat) (v : Slot) (i rd : Nat) (ph : Bool) : State :=
  let a := ringEntryAt v i + 12
  coreWrite s c a (bytesOf 4 (setBits (coreNat s c a 4) 0 19 (rd + bn ph * 2 ^ 18)))

/-! ## Error records, R319 to R323 -/

/-- R319: an error record; `lost` says that the one before it was dropped (R323). The e_t field has 10 bits, signed: an
effective E_t of 512 to 535 is recorded modulo 1024 (DESIGN CHOICE, log entry 112). -/
def errorRecord (s : State) (lost : Bool) (c k kind cause unit step row col : Nat) (et : Int) (detail : Nat) : Nat :=
  kind + cause * 2 ^ 8 + bn lost * 2 ^ 16 + k * 2 ^ 17 + unit * 2 ^ 20 + step * 2 ^ 34 +
  row * 2 ^ 64 + col * 2 ^ 88 + (et + 1024).toNat % 1024 * 2 ^ 108 + regionOf c * 2 ^ 118 +
  regionNow s (regionOf c) * 2 ^ 128 + detail * 2 ^ 192

/-- R323: the place of the next record in a slot's error ring; none when it must be dropped. -/
def recordFit (s : State) (c k : Nat) : Option (Bool × Nat × Bool × Nat × Bool) :=
  let e := ringEntry s c (slotOf s c k) 0
  if reOn e && !(corePoison s c (slotOf s c k).ringTab 16) then ringFit e 4 else none

/-- R323: write a record into the slot's error ring, or drop it. -/
def writeRecord (s : State) (c k r : Nat) : State :=
  let v := slotOf s c k
  let e := ringEntry s c v 0
  match recordFit s c k with
  | none => onSlot (bump s ctrSlotErrDropped (slotUnit c k) 1) c k
      (fun v => { v with errLost := true, lastErr := BitVec.ofNat 256 r })
  | some f =>
    let t := coreWrite s c (reBase e + 8 * f.2.1) (bytesOf 32 r)
    onSlot (setRingWr t c v 0 f.2.2.2.1 f.2.2.2.2) c k
      (fun v => { v with errLost := false, lastErr := BitVec.ofNat 256 r })

/-- R319, R323. -/
def reportError (s : State) (c k kind cause unit step row col : Nat) (et : Int) (detail : Nat) : State :=
  writeRecord s c k (errorRecord s (slotOf s c k).errLost c k kind cause unit step row col et detail)

/-! ## Narrow-network messages -/

/-- Send a message on the narrow network: it waits at its source until it enters the router there (R292). -/
def post (s : State) (m : Msg) : State :=
  { s with narrow := s.narrow ++ [{ m with gen := (slotOf s m.src m.srcSlot).gen, place := none }] }

/-- R308: the endpoints of a core closed: what stays is the epoch of each one's last binding. -/
def closedEnds (co : Core) : Tab Endpoint :=
  co.ends.map (fun e => if e.2.isOpen then (e.1, { e.2 with isOpen := false, prev := some e.2.epoch }) else e)

/-- The handle of the slice that holds a core; 0 for none. -/
def handleOf (s : State) (c : Nat) : Nat := (sliceOfCore s c).getD 0

/-- A beacon or report of a slot to its anchor or its region controller. -/
def anchorOf (v : Slot) : Nat := relocated v (imAnchor v.image)

/-! ## Faulting a slot -/

/-- R308: close a slot's endpoints. -/
def closeEnds (s : State) (c k : Nat) : State :=
  let co := coreOf s c
  setCore s c { co with ends := co.ends.map (fun e =>
    if e.2.slot = k && e.2.isOpen then (e.1, { e.2 with isOpen := false, prev := some e.2.epoch }) else e) }

/-- What the anchor keeps of a configured region, when it has heard nothing. -/
def Conf.fresh : Conf :=
  { members := [], stalled := [], full := [], beaconAt := 0, window := none, signature := [], exhausted := false, counted := 0 }

/-- R281, R813. -/
def confOf (s : State) (h config : Nat) : Conf := ((look? s.slices h).map (fun v => look v.confs config .fresh)).getD .fresh

/-- Replace it. -/
def setConf (s : State) (h config : Nat) (v : Conf) : State :=
  match look? s.slices h with
  | none => s
  | some l => setSlice s h { l with confs := put l.confs config v }

/-- R282: the anchor abandons the window open for a slot's configured region. -/
def dropWindow (s : State) (c k : Nat) : State :=
  let v := slotOf s c k
  let w := confOf s (handleOf s c) (imConfig v.image)
  if v.state ≠ .empty && w.window.isSome then setConf s (handleOf s c) (imConfig v.image) { w with window := none } else s

/-- R245: a slot enters FAULTED. A handle that its queue step holds stays with it until it is reset or loaded (R277). -/
def faultSlot (s : State) (c k : Nat) : State :=
  onSlot (closeEnds (dropWindow s c k) c k) c k (fun v => { v with state := .faulted, stopping := false, twinWait := [] })

/-- R688: what `ctx.status` tells of a slot's fault: its cause, the unit as a class of R676, and an address. -/
def noteFault (s : State) (c k cause unit addr : Nat) : State :=
  onSlot s c k (fun v => { v with faultCause := cause, faultUnit := unit, faultAddr := addr })

/-- R132: a step is rejected or otherwise stopped: FAULTED, with a record of kind 0x02. -/
def rejectStep (s : State) (c k step cause unit row col : Nat) : State :=
  reportError (faultSlot (noteFault s c k cause 2 0) c k) c k 2 cause unit step row col 0 0

/-- R514: the slot stops on poison. -/
def poisonStop (s : State) (c k step unit : Nat) : State :=
  rejectStep (bump s ctrRegionConsumed (regionOf c) 1) c k step 0x8F unit 0 0

/-- R514, R714: the slot consumes poison, a fault of class 0x02 (on-chip memory) or 0x04 (HBM). -/
def consumePoison (s : State) (c k step cls : Nat) : State := poisonStop (detectAt s (elCore c) cls 2 c false) c k step c

/-- R714: the class of poison that a stream reads. -/
def streamClass (d : BitVec 1024) : Nat := if stSel d = 0 && bitsOf (stBase d) 48 1 = 0 then 4 else 2

/-- R252: a queue or control step rejected, counted by cause. -/
def rejectQueue (s : State) (c k step cause : Nat) : State :=
  rejectStep (bump s (ctrSlotReject.plus (cause - 0x41)) (slotUnit c k) 1) c k step cause c 0 0

/-! ## Progress, R809 to R811, and progress beacons, R280 -/

/-- R811: BLOCKED in a declared wait. -/
def declaredWait (s : State) (c : Nat) (v : Slot) : Bool :=
  let d := recordOf 512 (coreRead s c (imStepBase v.image + 64 * v.ip) 64)
  let unitHalt := v.strms.any (fun e => match e.2.halt with
    | some (.migrating _) => true
    | some (.dark _) => true
    | _ => false)
  let copyHalt := (coreOf s c).copies.any (fun j => match j.halt with
    | some (.migrating _) => true
    | some (.dark _) => true
    | _ => false)
  let mergeHalt := (hubOf s (clusterOf c)).merges.any (fun j => j.core = c && (match j.halt with
    | some (.migrating _) => true
    | some (.dark _) => true
    | _ => false))
  unitHalt || copyHalt || mergeHalt ||
  (v.state = .blocked && (fld d 0 8 = 0x52 || (fld d 0 8 = 0x51 && !mrNowait d)))

/-- R810: report progress to the region controller of the anchor, once a window of 1 ms, and entry to or exit from a
declared wait at once. -/
def reportProgress (s : State) (c k : Nat) (moved : Bool) : State :=
  let v := slotOf s c k
  let now := regionNow s (regionOf c)
  let w := declaredWait s c v
  let due := moved && v.progAt.all (fun p => windowOver now p ticksPerMs)
  if v.primary.isSome || v.state = .empty then s
  else if due || w ≠ v.waits then
    post (onSlot s c k (fun v => { v with waits := w, progAt := if due then some now else v.progAt }))
      { src := c, srcSlot := k, dst := regionOf (anchorOf v), dstSlot := 0,
        body := .watchdog (handleOf s c) (imConfig v.image) moved w }
  else s

/-- R280: the first issue, dequeue or credit after a stall beacon sends a progress beacon. -/
def liftBeacon (s : State) (c k : Nat) : State :=
  let v := slotOf s c k
  if v.beacon then
    post (onSlot s c k (fun v => { v with beacon := false, told := [] }))
      { src := c, srcSlot := k, dst := anchorOf v, dstSlot := 0, body := .progress (handleOf s c) (imConfig v.image) }
  else s

/-- R809: progress of a slot; `flows` when it issued, dequeued or received a credit. -/
def progress (s : State) (c k : Nat) (flows : Bool) : State :=
  reportProgress (if flows then liftBeacon s c k else s) c k true

/-! ## Fetching and issuing -/

/-- R246: the step a slot issues next. -/
def nextStep (s : State) (c : Nat) (v : Slot) : BitVec 512 :=
  recordOf 512 (coreRead s c (imStepBase v.image + 64 * v.ip) 64)

/-- R248, R134, R356: the opcodes that are not reserved. -/
def opcodeKnown (op : Nat) : Bool :=
  [1, 2, 3, 4, 0x10, 0x11, 0x20, 0x30, 0x31, 0x34, 0x35, 0x40, 0x41, 0x44, 0x45, 0x46, 0x47, 0x48, 0x50, 0x51,
   0x52].contains op

/-- R734: the step pointers differ, or an injected divergence stands. -/
def diverged (s : State) (c : Nat) (v : Slot) : Bool := checked s c && (v.monIp ≠ v.ip || v.monLoops ≠ v.loops)

/-- R734, R735: a control fault stops the slot. -/
def controlFault (s : State) (c k : Nat) : State :=
  let v := slotOf s c k
  let code := clsCode 0x0A v.injected
  let s := bump (injectionSeen (detect s (elCore c) code false 0) 3 (slotUnit c k)) ctrCoreStepMismatch c 1
  rejectStep (onSlot s c k (fun v => { v with injected := false })) c k v.ip code c 0 0

/-- What the sequencer of a core finds when it looks at the step of its RUNNING slot. -/
inductive Fetched where
  /-- nothing to do for this command -/
  | idle
  /-- the slot issues past its list -/
  | past (k : Nat)
  /-- the fetch itself stops the slot -/
  | stops (s : State)
  | step (k : Nat) (d : BitVec 512)

/-- R246, R251, R513, R734: fetch for a row whose opcode is `op`. -/
def fetchStep (s : State) (c op : Nat) : Fetched :=
  if !coreRuns s c then .idle
  else match runningSlot s c with
    | none => .idle
    | some k =>
      let v := slotOf s c k
      if imStepCount v.image ≤ v.ip then .past k
      else if diverged s c v then .stops (controlFault s c k)
      else if corePoison s c (imStepBase v.image + 64 * v.ip) 64 then .stops (consumePoison s c k v.ip 2)
      else
        let d := nextStep s c v
        if !opcodeKnown (fld d 0 8) then .stops (rejectStep s c k v.ip 0x21 c 0 0)
        else if fld d 0 8 = op then .step k d else .idle

/-- R735: both signatures fold an issued descriptor. -/
def foldStep (v : Slot) (d : BitVec 512) : Slot :=
  let l := bytesOf 64 d.toNat
  { v with sigSeq := BitVec.ofNat 32 (crcMore v.sigSeq.toNat l), sigMon := BitVec.ofNat 32 (crcMore v.sigMon.toNat l) }

/-- The slot goes on to step `nxt`. -/
def goTo (v : Slot) (nxt : Nat) : Slot := { v with ip := nxt, monIp := nxt, moving := none }

/-- R247: a step issued to a unit: it is incomplete, and the sequencer moves on. -/
def issueTo (s : State) (c k : Nat) (d : BitVec 512) : State :=
  progress (onSlot s c k (fun v => goTo (foldStep { v with
    issued := v.issued ++ [{ step := v.ip, op := fld d 0 8, done := 0 }] } d) (v.ip + 1))) c k true

/-- A step the sequencer itself has completed: it moves on to `nxt`. -/
def passStep (s : State) (c k : Nat) (d : BitVec 512) (nxt : Nat) : State :=
  progress (onSlot s c k (fun v => goTo (foldStep v d) nxt)) c k true

/-! ## Queues of a slot -/

/-- An input lane. -/
def laneOf (v : Slot) (n : Nat) : Lane := look v.lanes n (.fresh 0)
/-- An output port. -/
def outOf (v : Slot) (n : Nat) : Port := look v.ports n .fresh
/-- A handle queue. -/
def hqOf (v : Slot) (h : Nat) : HandleQ := look v.hqs h { gen := 0, free := [], ready := [] }
/-- A stream slot. -/
def strmOf (v : Slot) (n : Nat) : Stream := look v.strms n .fresh

/-- R261: a lane has the token with the next sequence number. -/
def laneReady (v : Slot) (n : Nat) : Bool := decide ((laneOf v n).hand < (laneOf v n).due)

/-- The entries of the lane store that a lane occupies. -/
def laneHeld (v : Slot) (n : Nat) : Nat := (laneOf v n).tokens.length

/-- R280: the lanes whose own part is full. -/
def fullLanes (v : Slot) : List Nat :=
  (List.range 16).filter (fun n => laneDepth (imLane v.image n) ≠ 0 && decide (laneDepth (imLane v.image n) ≤ laneHeld v n))

/-! ## Blocking and switching, R241 to R257 -/

/-- R267 third point and R247: no step other than the one at ip is incomplete. -/
def allDone (v : Slot) : Bool := v.issued.isEmpty

/-- A ring has an entry to read. -/
def ringHas (e : Nat) : Bool := ringUsed e ≠ 0

/-- R372: a stream slot that may be bound again or unbound: no mark, no handle, and no chunk on its way into the vector
unit or, of a vector out-stream, to memory. A share enters an operand-buffer half within one command. -/
def streamFree (s : State) (c k n : Nat) : Bool :=
  let t := strmOf (slotOf s c k) n
  t.marks.isEmpty && t.handles.isEmpty && t.row.isNone && (stForm t.desc ≠ 2 || t.staged.isEmpty)

/-- R742: a step that acts outside the configured region or waits on what does. -/
def outsideStep (v : Slot) (d : BitVec 512) : Bool :=
  match fld d 0 8 with
  | 0x40 => !(inRect v.image (portCore (imPort v.image (qSel d))))
  | 0x41 => !(inRect v.image (laneCore (imLane v.image (qSel d))))
  | op => op = 0x50 || op = 0x52

/-- R743: the step at ip waits for its twin's value. -/
def twinLags (v : Slot) : Bool := v.twinWait.any (fun w => w.step = v.ip && !w.agreed)

/-- R743: the value of the step at ip has been agreed. -/
def twinAgrees (v : Slot) : Bool := v.twinWait.any (fun w => w.step = v.ip && w.agreed)

/-- R260: tokens of a tile with its header. -/
def tokensOf (bytes : Nat) : Nat := ceilDiv bytes 256

/-- R432: the next token of the tile under way must wait for an answer to the pair's flagged packet, or to its packets on
VC5. -/
def tokenHeld (s : State) (c : Nat) (v : Slot) (d : BitVec 512) : Bool :=
  v.moving.any (fun m => injectHeld s c (relocated v (portCore (imPort v.image (qSel d)))) 5
    (qFlagged d && m.tokens + 1 = tokensOf m.bytes) v.g1)

/-- The blocking condition of a BLOCKED slot has cleared. A waiting `sync.op` that has been issued is left to its
response. -/
def unblocked (s : State) (c k : Nat) : Bool :=
  let v := slotOf s c k
  let d := nextStep s c v
  let fresh := v.moving.isNone
  if v.primary.isSome && outsideStep v d then decide (0 < look v.fwd v.ip 0)
  else if twinLags v then false
  else match fld d 0 8 with
  | 0x40 => decide ((outOf v (qSel d)).credits ≠ 0) && !(tokenHeld s c v d) && !(fresh && qUseHq d && (hqOf v (qHq d)).ready.isEmpty)
  | 0x41 => laneReady v (qSel d) && !(fresh && qUseHq d && (hqOf v (qHq d)).free.isEmpty)
  | 0x46 => allDone v
  | 0x51 => ringHas (ringEntry s c v (mrClass d + 1))
  | 0x34 => streamFree s c k (csStream d)
  | 0x35 => streamFree s c k (csStream d)
  | 0x52 => twinAgrees v
  | _ => false

/-- R253: the order in which the other slots are considered, the last one at the end. -/
def switchOrderOf (last : Nat) : List Nat := [(last + 1) % 4, (last + 2) % 4, (last + 3) % 4, last % 4]

/-- R253: when no slot is RUNNING, the next READY slot that is not stopping is selected. -/
def selectSlot (s : State) (c : Nat) : State :=
  if (runningSlot s c).isSome || !coreRuns s c then s
  else match (switchOrderOf (coreOf s c).last).find? (fun k =>
      decide ((slotOf s c k).state = .ready) && !(slotOf s c k).stopping) with
    | none => s
    | some k =>
      let t := if k = (coreOf s c).last then s else bump s ctrCoreSwitches c 1
      let t := setCore t c { coreOf t c with last := k }
      onSlot t c k (fun v => { v with state := .running, since := computeNow s c })

/-- R243: a stopping slot whose issued steps have completed enters STOPPED. -/
def settleStop (s : State) (c k : Nat) : State :=
  let v := slotOf s c k
  if v.stopping && v.issued.isEmpty && v.syncs.all (fun y => y.retry) then
    onSlot (dropWindow s c k) c k (fun v => { v with state := .stopped, stopping := false, syncs := [] })
  else s

/-- R257 steps 4 and 5: a BLOCKED slot whose condition has cleared is READY. -/
def settleBlock (s : State) (c k : Nat) : State :=
  if (slotOf s c k).state = .blocked && unblocked s c k then onSlot s c k (fun v => { v with state := .ready }) else s

/-! ## What a vector step reads and writes, R173 to R176 -/

/-- The inputs a kernel reads. -/
def kernelIns (kernel : Nat) : List Nat :=
  match kernel with
  | 3 => [0, 1, 2]
  | 4 => [0, 1]
  | 5 => [0, 1, 2]
  | 8 => [0, 1]
  | 0xC => [0, 1, 2, 3]
  | _ => [0]

/-- The outputs a kernel writes. The selected values or weights of 0x06 and 0x07 and the sum of 0x0A go to output 0, their
indices and the mean to output 1 (R173 says so of 0x06; DESIGN CHOICE for 0x07 and 0x0A, log entry 105). -/
def kernelOuts (kernel : Nat) : List Nat :=
  match kernel with
  | 6 => [0, 1]
  | 7 => [0, 1]
  | 0xA => [0, 1]
  | 0xC => [0, 1]
  | _ => [0]

/-- R174: the operations of a program. -/
def progOps (s : State) (c : Nat) (d : BitVec 512) : List Nat :=
  (List.range (vkProgLen d)).map (fun i => coreNat s c (vkProg d + 32 + 4 * i) 4)

/-- R176: how many sources an operation has; none for a reserved one. -/
def opArity (op : Nat) : Option Nat :=
  if [1, 2, 3, 5, 6, 7, 0x11, 0x12].contains op then some 2
  else if op = 4 || op = 0x13 then some 3
  else if [8, 9, 0xA, 0xB, 0xC, 0xD, 0xE, 0xF, 0x10, 0x14].contains op then some 1
  else none

/-- R174: the three source fields of an operation. -/
def opFields (o : Nat) : List Nat := [bitsOf o 12 5, bitsOf o 17 5, bitsOf o 22 5]

/-- The sources an operation uses. -/
def opSources (o : Nat) : List Nat := (opFields o).take ((opArity (bitsOf o 0 8)).getD 0)

/-- R175: the inputs a program reads: those that some operation has as a source, also one that an earlier operation has
written. The spec gives a program no count of its streams (DESIGN CHOICE, log entry 112). -/
def progIns (ops : List Nat) : List Nat := (List.range 4).filter (fun j => ops.any (fun o => (opSources o).contains j))

/-- R175: the outputs a program writes: those that some operation has as its destination (DESIGN CHOICE, log entry 112). -/
def progOuts (ops : List Nat) : List Nat := (List.range 2).filter (fun j => ops.any (fun o => bitsOf o 8 4 = 14 + j))

/-- The inputs of a step. -/
def vecIns (s : State) (c : Nat) (d : BitVec 512) : List Nat :=
  if fld d 0 8 = 0x11 then progIns (progOps s c d) else kernelIns (vkKernel d)

/-- The outputs of a step. -/
def vecOuts (s : State) (c : Nat) (d : BitVec 512) : List Nat :=
  if fld d 0 8 = 0x11 then progOuts (progOps s c d) else kernelOuts (vkKernel d)

/-! ## Stall beacons, R279, R280 -/

/-- R279: a stream waits for an empty lane or an empty ready FIFO. -/
def strmDry (v : Slot) (n : Nat) : Bool :=
  let t := strmOf v n
  t.bound && ((stSel t.desc = 3 && !laneReady v (stPort t.desc)) || (stSel t.desc = 4 && (hqOf v (stHq t.desc)).ready.isEmpty))

/-- R279: the share of a load that a stream is to supply waits on a queue alone: none of it is read or under way. -/
def shareDry (v : Slot) (n : Nat) : Bool := strmDry v n && (strmOf v n).staged.all (fun ch => !ch.full && ch.segs.isEmpty)

/-- R279: an accepted descriptor waits for its load on queues alone: of its two shares one at least is dry, and the other is
dry, staged or delivered. -/
def loadDry (s : State) (w : Accepted) : Bool :=
  let v := slotOf s w.core w.slot
  let e := engOf s (engineOf w.core (sdEngine w.desc))
  let h := if e.nextHalf = 0 then e.half0 else e.half1
  let dry (done : Bool) (n : Nat) : Bool := !done && shareDry v n
  let here (done : Bool) (n : Nat) : Bool := done || dry done n || (((strmOf v n).staged.head?).any (·.full))
  (dry h.aDone (sdAStream w.desc) || dry h.bDone (sdBStream w.desc)) &&
  here h.aDone (sdAStream w.desc) && here h.bDone (sdBStream w.desc)

/-- R274, R279: a finished tile waits for a handle of an empty free FIFO. -/
def tileDry (s : State) (t : TileBuf) : Bool :=
  t.done.any (fun a =>
    let v := slotOf s a.first.core a.first.slot
    sdOutMode a.first.desc = 3 && (hqOf v (imEngineHq v.image (sdEngine a.first.desc))).free.isEmpty)

/-- R279: an engine has nothing to do but wait on queues: its load's stream is dry, or it is idle behind a tile that waits
for a handle. -/
def engineDry (s : State) (e : Engine) : Bool :=
  e.waiting.any (loadDry s) || (e.waiting.isNone && e.acc.isNone && (tileDry s e.tile0 || tileDry s e.tile1))

/-- R279: an issued step waits only on a queue, or behind a step of its unit that does. -/
def stepStalls (s : State) (c k : Nat) (i : Issued) : Bool :=
  let v := slotOf s c k
  let mine (w : Accepted) : Bool := w.core = c && w.slot = k && w.step = i.step
  let d := recordOf 512 (coreRead s c (imStepBase v.image + 64 * i.step) 64)
  if 1 ≤ i.op && i.op ≤ 4 then
    let e := engOf s (engineOf c (sdEngine d))
    let done (t : TileBuf) : Bool := t.done.any (fun a => a.first.core = c && a.first.slot = k && a.finish = i.step)
    e.waiting.any (fun w => mine w && loadDry s w) || (e.queue.any mine && engineDry s e) ||
    ((done e.tile0 || done e.tile1) && (tileDry s e.tile0 || tileDry s e.tile1))
  else if i.op = 0x10 || i.op = 0x11 then
    match (coreOf s c).vecQ with
    | [] => false
    | j :: _ =>
      let w := slotOf s c j
      (w.issued.find? (fun x => x.op = 0x10 || x.op = 0x11)).any (fun x =>
        let d := recordOf 512 (coreRead s c (imStepBase w.image + 64 * x.step) 64)
        (vecIns s c d).any (fun q => strmDry w (vkIn d q)))
  else false

/-- R279: queue-stalled: BLOCKED on a queue and not on its twin or on an answer of the mesh, every issued step with it. -/
def queueStalled (s : State) (c k : Nat) : Bool :=
  let v := slotOf s c k
  match v.state with
  | .halted => true
  | .blocked =>
    let d := nextStep s c v
    let fresh := v.moving.isNone
    (match fld d 0 8 with
     | 0x40 => (outOf v (qSel d)).credits = 0 || (fresh && qUseHq d && (hqOf v (qHq d)).ready.isEmpty)
     | 0x41 => !(laneReady v (qSel d)) || (fresh && qUseHq d && (hqOf v (qHq d)).free.isEmpty)
     | 0x46 => true
     | _ => false) && !(twinLags v) && v.issued.all (stepStalls s c k)
  | _ => false

/-- R280: a slot that becomes queue-stalled sends its anchor a stall beacon with its full lanes. One whose lane fills
afterwards sends another (DEDUCED from the example under R290, log entry 107). -/
def settleBeacon (s : State) (c k : Nat) : State :=
  let v := slotOf s c k
  if v.primary.isSome || !queueStalled s c k || (v.beacon && (fullLanes v).all (fun n => v.told.contains n)) then s
  else post (onSlot s c k (fun v => { v with beacon := true, told := fullLanes v }))
    { src := c, srcSlot := k, dst := anchorOf v, dstSlot := 0,
      body := .stall (handleOf s c) (imConfig v.image) (fullLanes v) }

/-- What follows an event at a core: blocked slots wake, stopping slots stop, a slot is selected, and beacons and
declared waits are reported. -/
def settleCore (s : State) (c : Nat) : State :=
  let ks := ((coreOf s c).slots).map (·.1)
  let s := each ks s (fun k s => settleStop (settleBlock s c k) c k)
  let s := selectSlot s c
  each ks s (fun k s => reportProgress (settleBeacon s c k) c k false)

/-- R735: the signatures are compared. -/
def signaturesDiffer (s : State) (c : Nat) (v : Slot) : Bool := checked s c && v.sigSeq ≠ v.sigMon

/-- R253, R735: the RUNNING slot gives up the core as `st`; a signature that differs stops it instead. -/
def giveUp (s : State) (c k : Nat) (st : SlotState) : State :=
  if signaturesDiffer s c (slotOf s c k) then controlFault s c k
  else onSlot s c k (fun v => { v with state := st })

/-- R137: an issued step has completed. -/
def completeStep (s : State) (c k step : Nat) : State :=
  progress (onSlot s c k (fun v => { v with issued := v.issued.eraseP (fun i => i.step = step) })) c k false

/-- A step of a slot's units has got further. -/
def stepDone (s : State) (c k step n : Nat) : State :=
  progress (onSlot s c k (fun v => { v with issued := onFirst (fun i => decide (i.step = step)) (fun i => { i with done := n }) v.issued })) c k false

/-! ## Orphan notices, R322 -/

/-- An orphan notice back to the producer of a message or token. -/
def orphanTo (s : State) (fromCore core slot gen step kind detail : Nat) : State :=
  post (bump s ctrCoreOrphanSent fromCore 1)
    { src := fromCore, srcSlot := 0, dst := core, dstSlot := slot
      step := step
      body := .orphan gen kind (BitVec.ofNat 64 detail) }

/-! ## Handle queues, R271 to R277 -/

/-- R277: an orphan handle of a slot's queue. -/
def orphanHandle (v : Slot) (x : Nat) : Bool :=
  let q := hqOf v (hdQueue x)
  hdGen x ≠ q.gen || decide (hqBufs (imHq v.image (hdQueue x)) ≤ hdIndex x) || (q.free ++ q.ready).any (fun y => hdIndex y = hdIndex x)

/-- R276, R277: put a handle on the ready FIFO of its queue, or discard an orphan. -/
def putReady (s : State) (c k x : Nat) : State :=
  if orphanHandle (slotOf s c k) x then bump s ctrSlotOrphanHandles (slotUnit c k) 1
  else onSlot s c k (fun v =>
    let q := hqOf v (hdQueue x)
    { v with hqs := put v.hqs (hdQueue x) { q with ready := q.ready ++ [x] } })

/-- R273: return a handle to the free FIFO of its queue, or discard an orphan. -/
def putFree (s : State) (c k x : Nat) : State :=
  if orphanHandle (slotOf s c k) x then bump s ctrSlotOrphanHandles (slotUnit c k) 1
  else onSlot s c k (fun v =>
    let q := hqOf v (hdQueue x)
    { v with hqs := put v.hqs (hdQueue x) { q with free := q.free ++ [x] } })

/-- R277: the handles that a slot's units hold: its queue step's and its streams'. -/
def heldHandles (v : Slot) : List Nat := (v.moving.bind (·.handle)).toList ++ v.strms.flatMap (fun t => t.2.handles.map (·.1))

/-- Take the head of the free FIFO. -/
def takeFree (s : State) (c k h : Nat) : Option (Nat × State) :=
  let q := hqOf (slotOf s c k) h
  match q.free with
  | [] => none
  | i :: t => some (i, onSlot s c k (fun v => { v with hqs := put v.hqs h { q with free := t } }))

/-- Take the head of the ready FIFO. -/
def takeReady (s : State) (c k h : Nat) : Option (Nat × State) :=
  let q := hqOf (slotOf s c k) h
  match q.ready with
  | [] => none
  | i :: t => some (i, onSlot s c k (fun v => { v with hqs := put v.hqs h { q with ready := t } }))

/-! ## Twins, R739 to R745 -/

/-- R741: bytes written to a primary core's memory are written to its twin's as well. -/
def twinCore (s : State) (c : Nat) : Option Nat :=
  ((coreOf s c).slots.filterMap (fun e => e.2.twin.map (·.1))).head?

/-- Write a core's memory from outside its own steps, with its poison, and its twin's. -/
def outsideWrite (s : State) (c off : Nat) (l : List Byte) (mask : List Bool) : State :=
  let m := writePoison s.mem (corePhys c off) l mask
  match twinCore s c with
  | none => { s with mem := m }
  | some t => { s with mem := writePoison m (corePhys t off) l mask }

/-- What a twin check lets a step do. -/
inductive Gate where
  /-- the effect is made -/
  | open_ (s : State)
  /-- a twin: its value is sent and its effect is not made -/
  | twin (s : State)
  /-- the primary waits for its twin -/
  | shut (s : State)

/-- R743: a tile or outside effect of a slot: a slot without a twin goes on; a twin sends its value; a primary waits
for an equal value. -/
def gate (s : State) (c k step crc : Nat) : Gate :=
  let v := slotOf s c k
  match v.primary, v.twin with
  | some (pc, pk), _ =>
    .twin (post s { src := c, srcSlot := k, dst := pc, dstSlot := pk, body := .twin step (BitVec.ofNat 32 crc) })
  | none, none => .open_ s
  | none, some _ =>
    match v.twinWait.find? (·.step = step) with
    | some w =>
      if w.agreed then .open_ (onSlot s c k (fun v => { v with twinWait := v.twinWait.filter (·.step ≠ step) }))
      else .shut s
    | none => .shut (onSlot s c k (fun v => { v with twinWait := v.twinWait ++
        [{ step := step, crc := BitVec.ofNat 32 crc, since := regionNow s (regionOf c), agreed := false, rerun := false }] }))

/-- R742: an outside step of a primary has completed: its twin's step completes with it, or will when it issues. -/
def forwardStep (s : State) (c k step : Nat) : State :=
  match (slotOf s c k).twin with
  | none => s
  | some (tc, tk) =>
    if (slotOf s tc tk).issued.any (·.step = step) then completeStep s tc tk step
    else settleCore (onSlot s tc tk (fun v => { v with fwd := put v.fwd step (look v.fwd step 0 + 1) })) tc

/-- R742: an outside step of a twin issues: it completes when its primary's has. -/
def issueTwin (s : State) (c k : Nat) (d : BitVec 512) : State :=
  let v := slotOf s c k
  if 0 < look v.fwd v.ip 0 then
    passStep (onSlot s c k (fun v => { v with fwd := put v.fwd v.ip (look v.fwd v.ip 0 - 1) })) c k d (v.ip + 1)
  else issueTo s c k d

end Sys2Proof.Machine
end

