-- ==== Sys2Proof/Machine/Mesh.lean ====
section
/-! DEFINITION. The wafer mesh: endpoints, routes, injection and forwarding of packets, and in-flight reduction
(08_mesh.md). -/

namespace Sys2Proof.Machine

/-! ## Endpoints, R419 -/

/-- R419. -/
def epCore (c : Nat) : Nat := c
/-- R419. -/
def epHub (h : Nat) : Nat := 2 ^ 12 + h
/-- R419: an attachment point of a memory-side die. -/
def epMem (r point : Nat) : Nat := 2 * 2 ^ 12 + r * 32 + point
/-- R419: an attachment of an edge I/O die. -/
def epEdge (die idx : Nat) : Nat := 3 * 2 ^ 12 + die * 2 ^ 10 + idx

/-- R419: the kind of an endpoint: 0 core, 1 hub, 2 memory side, 3 edge. -/
def epKind (e : Nat) : Nat := e / 2 ^ 12
/-- The region of a memory-side endpoint. -/
def epRegion (e : Nat) : Nat := e % 2 ^ 11 / 32
/-- The die of an edge endpoint. -/
def epDie (e : Nat) : Nat := e % 2 ^ 12 / 2 ^ 10

/-- R38, R339: the router beside an endpoint; a hub's is the one at position 4 of its row (log entry 13). -/
def routerOf (e : Nat) : Nat :=
  match epKind e with
  | 0 => e
  | 1 => coreInCluster (e % 2 ^ 12) 4
  | 2 =>
    let point := e % 32
    coreInCluster (epRegion e * 8 + point / 3) (if point % 3 = 0 then 1 else if point % 3 = 1 then 5 else 8)
  | _ =>
    let p := e % 32 / 2
    let k := e % 2
    match epDie e with
    | 0 => coreAt (p * 10 + (if k = 0 then 2 else 7)) 0
    | 1 => coreAt (p * 10 + (if k = 0 then 2 else 7)) 47
    | 2 => coreAt 79 (p * 8 + (if k = 0 then 2 else 5))
    | _ => coreAt 0 (p * 8 + (if k = 0 then 2 else 5))

/-- R455: the local code of an endpoint at its router. -/
def localCode (e : Nat) : Nat := 4 + epKind e

/-- The endpoint of a hub or memory-side die serves while its region is powered. -/
def epServes (s : State) (e : Nat) : Bool :=
  match epKind e with
  | 0 => coreUsable s e && shedOf s (regionOf e) ≠ .dark
  | 1 => clusterExists s (e % 2 ^ 12) && !(s.caps.hubsOut.contains (e % 2 ^ 12)) &&
         shedOf s (regionOfCluster (e % 2 ^ 12)) ≠ .dark
  | 2 => regionExists s (epRegion e) && shedOf s (epRegion e) ≠ .dark
  | _ => true

/-! ## Links and routers -/

/-- R669: the position of the link from a router in a direction of R455. -/
def linkOf (router dir : Nat) : Nat :=
  match dir with
  | 0 => (router - 80) + 4096
  | 1 => router
  | 2 => router + 4096
  | _ => router - 1

/-- The neighbouring router in a direction, on the wafer. -/
def neighbour (router dir : Nat) : Option Nat :=
  match dir with
  | 0 => if 80 ≤ router then some (router - 80) else none
  | 1 => if router % 80 < 79 then some (router + 1) else none
  | 2 => if router + 80 < 3840 then some (router + 80) else none
  | 3 => if 0 < router % 80 then some (router - 1) else none
  | _ => none

/-- The input port at the neighbour on which a packet sent in a direction arrives. -/
def portFacing (dir : Nat) : Nat := (dir + 2) % 4

/-- R51: a link that crosses a seam. -/
def isSeam (a b : Nat) : Bool := regionOf a ≠ regionOf b

/-- R38, R51, R669: the position of the edge I/O link beside a router. The east and south dies lie beyond a router's east and
south link; R669 has no position for the others, whose west or north end is no core (DESIGN CHOICE, log entry 109). -/
def edgeLink (router : Nat) : Nat :=
  if coreX router = 79 then router else if coreY router = 47 then router + 4096
  else if coreX router = 0 then router + 8192 else router + 12288

/-- R38: a router has an edge I/O link. -/
def edgeRouter (router : Nat) : Bool :=
  ((coreX router = 79 || coreX router = 0) && (coreY router % 8 = 2 || coreY router % 8 = 5)) ||
  ((coreY router = 47 || coreY router = 0) && (coreX router % 10 = 2 || coreX router % 10 = 7))

/-- R669: a link that has a position in the capability table. -/
def linkListed (id : Nat) : Bool := decide (id < 8192)

/-- R417: a link out of service. -/
def linkOut (s : State) (id : Nat) : Bool := s.caps.linksOut.contains id || s.caps.seamsOut.contains id

/-- R792: a router runs while its region exists and is not dark. -/
def routerUp (s : State) (router : Nat) : Bool := coreExists s router && shedOf s (regionOf router) ≠ .dark

/-- R428: the route without any table: west, north, east, then south; log entry 14. -/
def defaultRoute (router dest : Nat) : Nat :=
  let t := routerOf dest
  if router = t then localCode dest
  else if coreX t < coreX router then 3
  else if coreY t < coreY router then 0
  else if coreX router < coreX t then 1
  else 2

/-- R456: a destination hits an override entry. -/
def overrideHits (o : Override) (dest : Nat) : Bool := o.valid && Nat.land dest o.mask.toNat = Nat.land o.mtch.toNat o.mask.toNat

/-- R456: the lowest override entry that a destination hits in a table: that of a router of the wafer mesh, or, at 2^14 and
above, of a router of the narrow network. -/
def overrideHit (s : State) (table dest : Nat) : Option Nat :=
  ((look s.mesh.detour table []).find? (fun o => overrideHits o dest)).map (·.code)

/-- R455, R457: the route that a copy of the tables holds. -/
def tableRoute (s : State) (tbl : Bool) (router dest : Nat) : Nat :=
  match look? (if tbl then s.mesh.copy1 else s.mesh.copy0) (router * 2 ^ 14 + dest) with
  | some c => c
  | none => if epServes s dest then defaultRoute router dest else 15

/-- R455, R456, R458: the route of a packet stamped `tbl`. -/
def routeOf (s : State) (router dest : Nat) (tbl : Bool) : Nat := (overrideHit s router dest).getD (tableRoute s tbl router dest)

/-- R458, R459: the copy an endpoint stamps. -/
def stampOf (s : State) (ep : Nat) : Bool := if s.mesh.switched.contains ep then !s.mesh.active else s.mesh.active

/-! ## Injection -/

/-- The destination side of a pair. -/
def pairDst (s : State) (src dst : Nat) : PairDst := look s.mesh.pairDst (pairKey src dst) .fresh
/-- Replace the source side. -/
def setPairSrc (s : State) (src dst : Nat) (v : PairSrc) : State :=
  { s with mesh := { s.mesh with pairSrc := put s.mesh.pairSrc (pairKey src dst) v } }
/-- Replace the destination side. -/
def setPairDst (s : State) (src dst : Nat) (v : PairDst) : State :=
  { s with mesh := { s.mesh with pairDst := put s.mesh.pairDst (pairKey src dst) v } }

/-- The packets in a router's input port. -/
def wire (s : State) (router port : Nat) : List Packet := look s.mesh.wires (router * 8 + port) []
/-- Replace them. -/
def setWire (s : State) (router port : Nat) (l : List Packet) : State :=
  { s with mesh := { s.mesh with wires := put s.mesh.wires (router * 8 + port) l } }
/-- Packets handed to an endpoint. -/
def arrivals (s : State) (ep : Nat) : List Packet := look s.mesh.arrived ep []
/-- Replace them. -/
def setArrivals (s : State) (ep : Nat) (l : List Packet) : State :=
  { s with mesh := { s.mesh with arrived := put s.mesh.arrived ep l } }

/-- R420: the header of a packet. -/
def headerWord (p : Packet) : Nat :=
  p.dest + p.src * 2 ^ 14 + p.vc * 2 ^ 28 + bn p.flagged * 2 ^ 31 + p.kind % 16 * 2 ^ 32 +
  ceilDiv p.payload.length 8 * 2 ^ 36 + bn p.tbl * 2 ^ 42 +
  (if p.kind = 2 then p.rtag * 2 ^ 44
   else if p.vc = 5 then p.pseq * 2 ^ 44
   else (if ordered p.kind then bn p.fepoch * 2 ^ 44 else 0) + (if p.flagged then p.fwait * 2 ^ 52 else 0))

/-- R412: the poison mask of a packet. -/
def maskWord (p : Packet) : Nat := ((p.poison.take 32).zipIdx.map (fun e => bn e.1 * 2 ^ e.2)).sum

/-- R412: the check word of a packet: its poison mask, and the CRC-32C over header, extension word, mask and payload. -/
def checkWord (p : Packet) : Reg :=
  let crc := crc32c (bytesOf 8 (headerWord p) ++ bytesOf 8 p.ext.toNat ++ bytesOf 4 (maskWord p) ++ p.payload)
  BitVec.ofNat 64 (maskWord p + crc * 2 ^ 32)

/-- R412: a packet with its check word. -/
def sealed (p : Packet) : Packet := { p with check := checkWord p }

/-- R424: whole packets of a channel an input buffer holds. -/
def vcRoom (s : State) (fromRouter router port vc : Nat) : Bool :=
  let cap := if isSeam fromRouter router then 4 else 2
  decide (((wire s router port).filter (·.vc = vc)).length < cap)

/-- R427: a packet takes its place in an input port's buffer. -/
def arriveAt (s : State) (router port : Nat) (p : Packet) : State :=
  let t := setWire s router port (wire s router port ++ [{ p with seen := s.mesh.nextSeen, noted := false }])
  { t with mesh := { t.mesh with nextSeen := s.mesh.nextSeen + 1 } }

/-- R424: the packets of a list that find room in a local input port, in order within each channel; `full` are the channels
without room. The rest stay. -/
def admitEach (router port : Nat) : List Nat → List Packet → State → State × List Packet
  | _, [], s => (s, [])
  | full, p :: rest, s =>
    if full.contains p.vc || !vcRoom s router router port p.vc then
      let r := admitEach router port (p.vc :: full) rest s
      (r.1, p :: r.2)
    else admitEach router port full rest (arriveAt s router port p)

/-- R424: packets that wait at a local input port enter it as it has room; those of an edge I/O die stay there while their link
is fenced (R416). -/
def enterPort (s : State) (router port : Nat) : State :=
  match if port = 7 && linkOut s (edgeLink router) then [] else look s.mesh.entering (router * 8 + port) [] with
  | [] => s
  | l =>
    let r := admitEach router port [] l s
    { r.1 with mesh := { r.1.mesh with entering := put r.1.mesh.entering (router * 8 + port) r.2 } }

/-- A packet waits at a local input port and enters it when it has room. -/
def waitAtPort (s : State) (router port : Nat) (p : Packet) : State :=
  let l := look s.mesh.entering (router * 8 + port) []
  enterPort { s with mesh := { s.mesh with entering := put s.mesh.entering (router * 8 + port) (l ++ [p]) } } router port

/-- R458: a packet is stamped and goes into the router beside its source. -/
def launch (s : State) (p : Packet) : State :=
  waitAtPort s (routerOf p.src) (localCode p.src) (sealed { p with tbl := stampOf s p.src })

/-- R423, R432, R433, R435, R459: send a packet; `flagged` asks for a flagged one, `g1` for VC5. None while the
source's limits hold it back. -/
def inject (s : State) (p : Packet) (flagged g1 : Bool) : Option State :=
  let q := pairSrc s p.src p.dest
  let swaps := look s.mesh.swaps p.src 0
  if injectHeld s p.src p.dest p.kind flagged g1 then none
  else if !ordered p.kind then some (launch s p)
  else if g1 then
    some (launch (setPairSrc s p.src p.dest { q with pseq := (q.pseq + 1) % 256, vc5Out := q.vc5Out + 1 })
      { p with vc := 5, pseq := q.pseq, flagged := false })
  else if mustFlag s p.src p.dest flagged then
    let t := if flagged || q.sent < 4095 then s else bump s ctrEpConverted p.src 1
    some (launch (setPairSrc t p.src p.dest
      { q with sent := 0, epoch := !q.epoch, unanswered := true, swap := swaps })
      { p with vc := 4, flagged := true, fepoch := q.epoch, fwait := q.sent })
  else some (launch (setPairSrc s p.src p.dest { q with sent := q.sent + 1 }) { p with fepoch := q.epoch })

/-- A packet with every field its kind does not use at zero. -/
def mkPacket (src dest vc kind : Nat) (unit : Unit) : Packet :=
  { dest := dest, src := src, vc := vc, flagged := false, kind := kind, tbl := false, pseq := 0, fepoch := false,
    fwait := 0, rtag := 0, count := 0, phys := 0, ext := 0, payload := [], poison := [],
    unit := unit, cached := false, answers := 0, check := 0, seen := 0, noted := false }

/-- The channel an answer to a packet frees: 4 for flagged, 5 for VC5. -/
def answerOf (p : Packet) : Nat := if p.vc = 5 then 5 else if p.flagged then 4 else 0

/-- R432, R433, R435: an answer has reached the source of the packet it answers. -/
def freeAnswered (s : State) (src dst answers : Nat) : State :=
  let q := pairSrc s src dst
  let freed (q : PairSrc) : State :=
    let s := setPairSrc s src dst q
    if epKind src = 0 then settleCore s src else s
  if answers = 4 then freed { q with unanswered := false }
  else if answers = 5 then freed { q with vc5Out := q.vc5Out - 1 }
  else s

/-! ## Forwarding, R413 to R464 -/

/-! ### Reduction payloads, R437 to R443 -/

/-- R439 fields of a reduction payload. -/
def rpRow (p : Nat) : Nat := bitsOf p 0 24
/-- R439. -/
def rpCol (p : Nat) : Nat := bitsOf p 24 20
/-- R439. -/
def rpEt (p : Nat) : Int := signed (bitsOf p 44 10) 10
/-- R439. -/
def rpReplay (p : Nat) : Nat := bitsOf p 54 2
/-- R439: contributions, at least 1. -/
def rpN (p : Nat) : Nat := bitsOf p 56 6 + 1
/-- R439. -/
def rpPreload (p : Nat) : Nat := bitsOf p 62 7
/-- R439. -/
def rpOvf (p : Nat) : Bool := bitAt p 69
/-- R439. -/
def rpMismatch (p : Nat) : Bool := bitAt p 70
/-- R439. -/
def rpK (p : Nat) : Nat := bitsOf p 72 23
/-- R439: the words with their tags. -/
def rpWords (p : Nat) : List AccWord :=
  (List.range 23).map (fun i =>
    { ext := BitVec.ofNat 80 (bitsOf p (208 + 80 * i) 80), tag := codeTag (bitsOf p (96 + 2 * i) 2), ovf := false })
/-- R439. -/
def rpCheck (p : Nat) : Nat := bitsOf p 144 32

/-- R440. -/
def sumCheck (ws : List AccWord) : Nat :=
  (((ws.zipIdx.map (fun e => ((e.2 : Int) + 1) * e.1.ext.toInt)).sum) % 4294967291).toNat

/-- R439: a payload. -/
def rpMake (row col : Nat) (et : Int) (replay n preload : Nat) (ovf mismatch : Bool) (k : Nat) (ws : List AccWord) : Nat :=
  row + col * 2 ^ 24 + (et + 1024).toNat % 1024 * 2 ^ 44 + replay * 2 ^ 54 + (n - 1) % 64 * 2 ^ 56 + preload % 128 * 2 ^ 62 +
  bn ovf * 2 ^ 69 + bn mismatch * 2 ^ 70 + min k (2 ^ 23 - 1) * 2 ^ 72 +
  (ws.zipIdx.map (fun e => tagCode e.1.tag * 2 ^ (96 + 2 * e.2) + e.1.ext.toNat * 2 ^ (208 + 80 * e.2))).sum +
  sumCheck ws * 2 ^ 144

/-- R441: two payloads added. -/
def rpAdd (a b : Nat) : Nat :=
  if rpEt a ≠ rpEt b || rpMismatch a || rpMismatch b then
    rpMake (rpRow a) (rpCol a) (rpEt a) (rpReplay a) (rpN a + rpN b) (rpPreload a + rpPreload b) (rpOvf a || rpOvf b)
      true (rpK a + rpK b) []
  else
    rpMake (rpRow a) (rpCol a) (rpEt a) (rpReplay a) (rpN a + rpN b) (rpPreload a + rpPreload b) (rpOvf a || rpOvf b)
      false (rpK a + rpK b) (((rpWords a).zip (rpWords b)).map (fun e => addWords e.1 e.2))

/-- A packet's payload as a number. -/
def payloadNat (p : Packet) : Nat := natOf p.payload

/-- R443: the sum_check of a reduction packet agrees with its words. -/
def sumOk (p : Packet) : Bool := sumCheck (rpWords (payloadNat p)) = rpCheck (payloadNat p)

/-- R441, R442: two packets that a router may combine. -/
def mayCombine (a b : Packet) : Bool :=
  a.kind = 4 && b.kind = 4 && a.dest = b.dest && a.ext = b.ext && rpRow (payloadNat a) = rpRow (payloadNat b) &&
  rpCol (payloadNat a) = rpCol (payloadNat b) && rpReplay (payloadNat a) = rpReplay (payloadNat b) &&
  decide (rpN (payloadNat a) + rpN (payloadNat b) ≤ 64)

/-- R441: poison masks ORed. -/
def orMask (a b : List Bool) : List Bool :=
  (List.range (max a.length b.length)).map (fun i => a.getD i false || b.getD i false)

/-- R441: the combined packet in the place of the earlier. -/
def combined (a b : Packet) : Packet := sealed
  { a with payload := bytesOf 256 (rpAdd (payloadNat a) (payloadNat b)), poison := orMask a.poison b.poison }

/-- R443: a packet whose sum_check fails is forwarded with every poison bit set. -/
def poisonAll (p : Packet) : Packet := sealed { p with poison := List.replicate 32 true, noted := true }

/-- R421, R458: the code a router finds for a packet: a reserved kind goes nowhere. -/
def codeOf (s : State) (router : Nat) (p : Packet) : Nat := if 8 ≤ p.kind then 15 else routeOf s router p.dest p.tbl

/-- R413: the router that holds a packet has verified it. -/
def verified (s : State) (p : Packet) : Bool := s.mesh.passed.contains p.seen

/-- R441: a packet in a router that waits for the same output port as `p`, combines with it, and has not been found bad
here: its input port and itself. -/
def partnerOf (s : State) (router : Nat) (p : Packet) : Option (Nat × Packet) :=
  ((List.range 8).filterMap (fun port =>
    ((wire s router port).find? (fun q =>
      q.seen ≠ p.seen && mayCombine p q && !q.noted && verified s q && codeOf s router q = codeOf s router p)).map
      (fun q => (port, q)))).head?

/-- R421, R464: the drop response to a packet that met code 15: its payload is the packet's header and extension word. -/
def dropResponse (p : Packet) : Packet :=
  { mkPacket p.dest p.src 1 6 p.unit with
    rtag := p.rtag, answers := answerOf p, count := 16, payload := bytesOf 8 (headerWord p) ++ bytesOf 8 p.ext.toNat }

/-- R464: a packet is discarded at a router: a request is answered, a token or reduction packet is reported to Furelo. -/
def discardPacket (s : State) (router : Nat) (p : Packet) : State :=
  let t := bump s ctrRouterDiscarded router 1
  if p.kind = 0 || p.kind = 1 then
    waitAtPort t router (localCode p.dest) (sealed { dropResponse p with tbl := p.tbl })
  else if p.kind = 4 || p.kind = 5 then
    { t with mesh := { t.mesh with dropped := (router, p.kind, p.dest) :: t.mesh.dropped } }
  else t

/-- R432: what a flagged packet waits for has arrived. -/
def flaggedMet (s : State) (p : Packet) : Bool :=
  let d := pairDst s p.src p.dest
  decide (p.fwait ≤ if p.fepoch then d.got1 else d.got0)

/-- Packets an endpoint holds under R432. -/
def heldAt (s : State) (ep : Nat) : List Packet := look s.mesh.held ep []

/-- R434: a flagged packet that must wait finds its endpoint's hold buffer full. -/
def stallsAt (s : State) (p : Packet) : Bool :=
  p.flagged && !(flaggedMet s p) &&
  decide (4 ≤ (heldAt s p.dest).length + ((arrivals s p.dest).filter (fun q => q.flagged && !(flaggedMet s q))).length)

/-- Hand a packet to its endpoint. -/
def handOver (s : State) (p : Packet) : State := setArrivals s p.dest (arrivals s p.dest ++ [p])

/-- Furelo decides a reset; its own row begins it. -/
def decideReset (s : State) (domain target trigger cls config : Nat) (holding : List Element)
    (repair : Option (Nat × Nat)) : State :=
  { s with sup := { s.sup with
      resets := s.sup.resets ++ [{ id := s.sup.nextReset, domain := domain, target := target, trigger := trigger,
                                   since := s.clocks.sup, holding := holding, begun := false, cls := cls,
                                   config := config, repair := repair }]
      nextReset := s.sup.nextReset + 1 } }

/-- R516, R715: an uncorrectable error in a structure, numbered in R516's order, is recorded with class 0x15 and decides a
module compute reset. -/
def escalate (s : State) (structure_ place : Nat) : State :=
  decideReset (bump (detect s { kind := 0, id := structure_ } 0x15 false place) (ctrModEscalations.plus structure_) 0 1)
    3 0 4 0x15 0 [] (some (structure_, place))

end Sys2Proof.Machine
end

