-- ==== Sys2Proof/Machine/Access.lean ====
section
/-! DEFINITION. Reaching memory: global addresses, cached translations and walks, and the requests a unit sends
(07_memories.md, 09_translation.md). -/

namespace Sys2Proof.Machine

/-! ## Global addresses, R468 -/

/-- R468. -/
def gaOff (a : Nat) : Nat := bitsOf a 0 48
/-- R468. -/
def gaSpace (a : Nat) : Nat := bitsOf a 48 2
/-- R468. -/
def gaModule (a : Nat) : Nat := bitsOf a 50 14
/-- R468: the window of a slice offset. -/
def gaWindow (a : Nat) : Nat := bitsOf a 40 8

/-- R46: the module is a member of a Rolben domain. -/
def inDomain (s : State) : Bool := s.fabric.ports.any (fun p => p.2.joined)

/-- R469, R470: 0 local, 1 remote, 2 out of range. -/
def gaWhere (s : State) (a : Nat) : Nat :=
  if !inDomain s then (if gaModule a = 0 then 0 else 2)
  else if gaModule a = s.fabric.moduleId then 0 else 1

/-- R326: the state words, in the numbering of this model (log entry 11). -/
def syncPhys (region off : Nat) : Nat := 2 ^ 53 + region * 2 ^ 19 + off

/-- Bytes at a physical address, the state words included. -/
def readPhys (s : State) (a n : Nat) : List Byte :=
  if 2 ^ 53 ≤ a then
    let r := (a - 2 ^ 53) / 2 ^ 19
    let o := (a - 2 ^ 53) % 2 ^ 19
    sub (((List.range (n / 8 + 2)).map (fun i => bytesOf 8 (syncWord s r (o / 8 + i)).toNat)).flatten) (o % 8) n
  else readMem s.mem a n

/-! ## Page-table entries, R478 -/

/-- R478. -/
def ptValid (e : Nat) : Bool := bitAt e 0
/-- R478. -/
def ptLeaf (e : Nat) : Bool := bitAt e 1
/-- R478. -/
def ptWrite (e : Nat) : Bool := bitAt e 2
/-- R478. -/
def ptShared (e : Nat) : Bool := bitAt e 3
/-- R478. -/
def ptTier (e : Nat) : Bool := bitAt e 4
/-- R478. -/
def ptMigrate (e : Nat) : Bool := bitAt e 5
/-- R478. -/
def ptLoc (e : Nat) : Nat := bitsOf e 8 7
/-- R478: the byte address a frame field names. -/
def ptFrame (e : Nat) : Nat := bitsOf e 16 36 * 2 ^ 16
/-- R478: the address of the table a pointer names. -/
def ptNext (e : Nat) : Nat := hbmPhys (ptLoc e) (ptFrame e + bitsOf e 52 8 * 256)

/-- R477, R497, R9: what Furelo reserves in a stack is the last 4 GiB of its usable capacity (log entry 16). -/
def reservedBase (s : State) : Nat := stackPages s.fuses.ordering * 2 ^ 16 - 2 ^ 32

/-- R476: the bytes a leaf of a page-size code maps. -/
def pageBytes (size : Nat) : Nat :=
  match size with
  | 0 => 2 ^ 16
  | 1 => 2 ^ 21
  | _ => 2 ^ 30

/-- R478: a leaf entry. -/
def mkLeaf (write shared tier migrate : Bool) (loc frame : Nat) : Reg :=
  BitVec.ofNat 64 (3 + 4 * bn write + 8 * bn shared + 16 * bn tier + 32 * bn migrate + loc * 2 ^ 8 + frame / 2 ^ 16 * 2 ^ 16)

/-- R478: a pointer entry to a table in a stack. -/
def mkPointer (stack addr : Nat) : Reg :=
  BitVec.ofNat 64 (1 + stack * 2 ^ 8 + addr / 2 ^ 16 * 2 ^ 16 + bitsOf addr 8 8 * 2 ^ 52)

/-- R479: a malformed entry at a level. -/
def ptMalformed (s : State) (level e : Nat) : Bool :=
  let leaf := ptLeaf e
  let size := 3 - level
  let stackBad := !(stackExists s (ptLoc e))
  bitsOf e 6 2 ≠ 0 || bitAt e 15 || bitsOf e 60 4 ≠ 0 ||
  (level = 3 && !leaf) ||
  (if leaf then
    bitsOf e 52 8 ≠ 0 || (ptMigrate e && !ptTier e) || ptFrame e % pageBytes size ≠ 0 ||
    (if ptTier e then bitsOf e 11 4 ≠ 0 else stackBad || decide (80 * 2 ^ 30 < ptFrame e + pageBytes size))
   else
    bitsOf e 2 4 ≠ 0 || stackBad || decide (80 * 2 ^ 30 ≤ ptFrame e + bitsOf e 52 8 * 256))

/-- What a walk finds. -/
inductive Found where
  | leaf (l : Leaf)
  /-- R488 cause 0x81 -/
  | none_
  /-- R479, R516 -/
  | broken
  /-- R798: a table lies in a dark region -/
  | dark (region : Nat)
  deriving DecidableEq, Repr

/-- R476: one level of a walk; fuel counts the levels left. -/
def walkLevel (s : State) (space off : Nat) : Nat → Nat → Found
  | 0, _ => .broken
  | n + 1, table =>
    let level := 3 - n
    let idx := match level with
      | 1 => bitsOf off 30 10
      | 2 => bitsOf off 21 9
      | _ => bitsOf off 16 5
    let at_ := table + 8 * idx
    let region := (placeRegion (placeOf at_)).getD 0
    if shedOf s region = .dark then .dark region
    else if poisoned s.mem at_ 8 then .broken
    else
      let e := readNat s.mem at_ 8
      if !ptValid e then .none_
      else if ptMalformed s level e then .broken
      else if ptLeaf e then
        .leaf { space := space, off := off / pageBytes n * pageBytes n, size := n, entry := BitVec.ofNat 64 e }
      else walkLevel s space off n (ptNext e)

/-- R474: the window table entry of an address. -/
def windowOf (s : State) (space off : Nat) : Option Window := look? s.xlat.windows (space / 2 * 256 + bitsOf off 40 8)

/-- R474: the root a window's active bit selects. -/
def activeRoot (w : Window) : Nat := if w.second then w.root1 else w.root0

/-- R476: a walk from a root. -/
def walkFrom (s : State) (root space off : Nat) : Found :=
  if root = 0 then .none_ else walkLevel s space off 3 root

/-- A leaf covers an offset of a space. -/
def leafCovers (l : Leaf) (space off : Nat) : Bool :=
  l.space = space && l.off / pageBytes l.size = off / pageBytes l.size

/-! ## Uncorrectable words, R510, R516, R518 -/

/-- R477: the page table in use that has a byte in a physical range. -/
def tableIn (s : State) (a n : Nat) : Option Nat := (s.xlat.tables.find? (fun t => overlaps t.1 t.2.1 a n)).map (·.1)

/-- R510: n bytes at a physical address read back uncorrectable: their words are poisoned, and counted. R516, R518: a page table
is no data: the error escalates, and its mark only says that the word cannot be read. -/
def wordsLost (s : State) (a n : Nat) : State :=
  let t := { s with mem := poisonRange s.mem a n }
  match tableIn s a n with
  | some p => escalate t 0 p
  | none => bump t ctrRegionPoisoned ((placeRegion (placeOf a)).getD 0) (ceilDiv n 8)

/-- R518: n bytes at a physical address hold a word of a page table that cannot be read. -/
def tableBroken (s : State) (a n : Nat) : Bool :=
  s.xlat.tables.any (fun t => overlaps t.1 t.2.1 a n && poisoned s.mem (max a t.1) (min (a + n) (t.1 + t.2.1) - max a t.1))

/-! ## Using a translation -/

/-- R488: the accesses that fault on a leaf marked for migration. -/
def unitSlice (s : State) : Unit → Option Nat
  | .coreCopy c => sliceOfCore s c
  | .hubCopy h => sliceOfRegion s (regionOfCluster h)
  | .stream c _ _ => sliceOfCore s c
  | .merge h => sliceOfRegion s (regionOfCluster h)
  | _ => none

/-- Where an access may go. -/
inductive Reach where
  | ok (phys : Nat) (shared : Bool)
  /-- no cached translation: a walk is needed -/
  | walk
  /-- a translation fault of R488 -/
  | fault (cause : Nat)
  /-- a rejection of R408 -/
  | reject (cause : Nat)
  /-- another module's address -/
  | remote
  /-- R798 -/
  | dark (region : Nat)
  deriving DecidableEq, Repr

/-- R617: the device of a tier port that holds a byte address of its range. -/
def tierHolds (s : State) (port addr : Nat) : Bool :=
  let p := tierOf s port
  tierEnabled s.fuses.ordering port && p.linkUp && !p.fenced && !(s.caps.tiersOut.contains port) &&
  p.devices.any (fun d => decide (d.1 * 2 ^ 30 ≤ addr) && decide (addr < (d.1 + d.2) * 2 ^ 30))

/-- R617: the end of a tier port's attached range. -/
def tierEnd (s : State) (port : Nat) : Nat := (tierOf s port).devices.foldl (fun a d => max a (d.1 + d.2)) 0

/-- The physical address of an offset under a leaf. -/
def leafPhys (l : Leaf) (off : Nat) : Nat :=
  let a := ptFrame l.entry.toNat + off % pageBytes l.size
  if ptTier l.entry.toNat then tierPhys (ptLoc l.entry.toNat % 8) a else hbmPhys (ptLoc l.entry.toNat) a

/-- R480, R488: an access through a leaf. -/
def throughLeaf (s : State) (unit : Unit) (write : Bool) (l : Leaf) (off : Nat) : Reach :=
  let e := l.entry.toNat
  let a := ptFrame e + off % pageBytes l.size
  if !ptValid e then .fault 0x81
  else if write && ptShared e then .reject 0x65
  else if write && !ptWrite e then .fault 0x82
  else if ptTier e then
    (if !tierHolds s (ptLoc e % 8) a then .fault 0x84
     else if ptMigrate e && (unitSlice s unit).isSome &&
         (windowOf s l.space off).map (·.owner) = unitSlice s unit then .fault 0x83
     else .ok (tierPhys (ptLoc e % 8) a) false)
  else if s.caps.pagesOut.contains (ptLoc e * 2 ^ 21 + a / 2 ^ 16) then .fault 0x85
  else if shedOf s (regionOfStack (ptLoc e)) = .dark then .dark (regionOfStack (ptLoc e))
  else .ok (hbmPhys (ptLoc e) a) (ptShared e)

/-- R342, R343: n bytes at an offset of space 0b01. -/
def onChip (s : State) (off n : Nat) : Reach :=
  if off < 2 ^ 36 then
    let c := off / 2 ^ 23
    if coreUsable s c && decide (off % 2 ^ 23 + n ≤ coreBytes) && shedOf s (regionOf c) ≠ .dark then
      .ok (corePhys c (off % 2 ^ 23)) false
    else .reject 0x62
  else
    let r := (off - 2 ^ 36) / 2 ^ 29
    let o := (off - 2 ^ 36) % 2 ^ 29
    if regionExists s r && decide (o + n ≤ regionBytes) && shedOf s r ≠ .dark then .ok (regionPhys r o) false
    else .reject 0x62

/-- R326, R471: an offset of space 0b11; it may only be read. -/
def inControl (s : State) (off : Nat) (write : Bool) : Reach :=
  let o := off - 2 ^ 40
  if off < 2 ^ 40 || 48 * 2 ^ 19 ≤ o then .reject 0x62
  else if write then .reject 0x64
  else if regionServes s (o / 2 ^ 19) then .ok (syncPhys (o / 2 ^ 19) (o % 2 ^ 19)) false
  else .reject 0x62

/-- R481, R365: the engine whose translation cache a unit uses: a core's streams that of its copy engine, a cluster's merges that
of its hub's. -/
def cacheOf : Unit → Unit
  | .stream c _ _ => .coreCopy c
  | .merge h => .hubCopy h
  | u => u

/-- R457: the override entry, or else the unit's cached translation, of an offset. -/
def lookupLeaf (s : State) (unit : Unit) (space off : Nat) : Option Leaf :=
  match s.xlat.overrides.find? (fun l => leafCovers l space off) with
  | some l => some l
  | none => (s.xlat.cache.find? (fun e => e.unit = cacheOf unit && leafCovers e.leaf space off)).map (·.leaf)

/-- R469 to R472, R408: where an access of n bytes by global address goes, with what the unit has cached. -/
def reach (s : State) (unit : Unit) (a n : Nat) (write : Bool) : Reach :=
  match gaWhere s a with
  | 2 => .reject 0x62
  | 1 => .remote
  | _ =>
    match gaSpace a with
    | 1 => onChip s (gaOff a) n
    | 3 => inControl s (gaOff a) write
    | sp =>
      match lookupLeaf s unit sp (gaOff a) with
      | some l => throughLeaf s unit write l (gaOff a)
      | none => .walk

/-- The same with the walk made at once, for the masters whose accesses this model makes in one step (log entry 15). -/
def reachNow (s : State) (unit : Unit) (a n : Nat) (write : Bool) : Reach × Bool :=
  match reach s unit a n write with
  | .walk =>
    match windowOf s (gaSpace a) (gaOff a) with
    | none => (.fault 0x81, false)
    | some w =>
      match walkFrom s (activeRoot w) (gaSpace a) (gaOff a) with
      | .leaf l => (throughLeaf s unit write l (gaOff a), false)
      | .none_ => (.fault 0x81, false)
      | .broken => (.fault 0x81, true)
      | .dark r => (.dark r, false)
  | r => (r, false)

/-- R483: begin a walk, bound to the active copy; one per unit and 64 KiB page. -/
def startWalk (s : State) (unit : Unit) (a : Nat) (write : Bool) : State :=
  let root := (windowOf s (gaSpace a) (gaOff a)).elim 0 activeRoot
  if s.xlat.walks.any (fun w => w.unit = unit && w.addr / 2 ^ 16 = a / 2 ^ 16 && w.write = write) then s
  else { s with xlat := { s.xlat with walks := s.xlat.walks ++ [{ unit := unit, addr := a, write := write, root := root, retried := false }] } }

/-- R519: the lookup counter of a unit, whose misses and discards follow it, and its number. -/
def xlatCounter : Unit → Ctr × Nat
  | .coreCopy c => (ctrCopyLookups, c)
  | .stream c _ _ => (ctrCopyLookups, c)
  | .hubCopy h => (ctrHubLookups, h)
  | .merge h => (ctrHubLookups, h)
  | .hostPort => (ctrHostLookups, 0)
  | _ => (ctrFabLookups, 0)

/-- R481: the translations an engine's cache holds; Furelo has none. -/
def cacheSize : Unit → Nat
  | .coreCopy _ => 64
  | .stream _ _ _ => 64
  | .hubCopy _ => 256
  | .merge _ => 256
  | .furelo => 0
  | _ => 1024

/-- R519: a lookup by a unit, and whether it missed. -/
def lookedUp (s : State) (unit : Unit) (missed : Bool) : State :=
  if cacheSize unit = 0 then s else
  let c := xlatCounter unit
  let t := bump s c.1 c.2 1
  if missed then bump t (c.1.plus 1) c.2 1 else t

/-- Discard the cached translations that satisfy p, R484, R485, R517. -/
def discardCached (s : State) (p : Leaf → Bool) : State :=
  let gone := s.xlat.cache.filter (fun e => p e.leaf)
  let t := { s with xlat := { s.xlat with cache := s.xlat.cache.filter (fun e => !(p e.leaf)) } }
  each gone t (fun e s => bump s ((xlatCounter e.unit).1.plus 2) (xlatCounter e.unit).2 1)

/-- R517: an uncorrectable error in the cached translation of an address: the entry is discarded, and the table is consulted
again. -/
def dropCovering (s : State) (unit : Unit) (a : Nat) : State :=
  match s.xlat.cache.find? (fun e => e.unit = cacheOf unit && leafCovers e.leaf (gaSpace a) (gaOff a)) with
  | none => s
  | some e => bump { s with xlat := { s.xlat with cache := s.xlat.cache.erase e } } ((xlatCounter unit).1.plus 2) (xlatCounter unit).2 1

/-- R601, R603: the device physical address of a byte of a translated space. -/
def dpaOf (space off : Nat) : Nat := off + (if space = 2 then 2 ^ 48 else 0)

/-- R601: where a decoder's range begins in the device's addresses. -/
def decoderBase (s : State) (second : Bool) : Nat :=
  let p := s.hp
  if second then (if p.decoder0.committed then p.decoder0.skip + p.decoder0.size else 0) + p.decoder1.skip else p.decoder0.skip

/-- R605: a committed decoder covers a part of the 1 TiB window of a device address: the window is host-coherent. -/
def hostCoherent (s : State) (dpa : Nat) : Bool :=
  let w := dpa / 2 ^ 40 * 2 ^ 40
  let covers (d : HdmDecoder) (second : Bool) : Bool :=
    d.committed && decide (decoderBase s second < w + 2 ^ 40) && decide (w < decoderBase s second + d.size)
  covers s.hp.decoder0 false || covers s.hp.decoder1 true

/-- R605: the lines of an access that the host holds so that it must wait: any for a write, exclusive ones for a read. -/
def linesHeld (s : State) (a n : Nat) (write : Bool) : List Nat :=
  if gaWhere s a = 0 && gaSpace a % 2 = 0 && hostCoherent s (dpaOf (gaSpace a) (gaOff a)) then
    let d := dpaOf (gaSpace a) (gaOff a)
    (s.hp.filter.filter (fun e => decide (d / 64 ≤ e.line) && decide (e.line ≤ (d + n - 1) / 64) && (write || e.exclusive))).map (·.line)
  else []

/-- R604, R605: a back-invalidation of a line; a unit that waits for it is noted. One that is pending serves, but a BISnpInv is
still wanted after a BISnpData. -/
def snoopLine (s : State) (line : Nat) (data : Bool) (why : Nat) (unit : Option Unit) : State :=
  let join (b : BackInval) : BackInval := { b with
    units := b.units ++ unit.toList.filter (fun u => !(b.units.contains u)), again := b.again || (b.data && !data) }
  if s.hp.backInv.any (fun b => b.line = line) then
    { s with hp := { s.hp with backInv := onFirst (fun b => decide (b.line = line)) join s.hp.backInv } }
  else
    let b : BackInval := { line := line, data := data, since := look s.clocks.die 0 0, why := why, units := unit.toList }
    let t := bump (emit s (.bisnp line data)) (if data then ctrHostBisnpData else ctrHostBisnpInv) 0 1
    { t with hp := { t.hp with backInv := t.hp.backInv ++ [b] } }

/-- Back-invalidations of several lines. -/
def snoopAll (s : State) (lines : List Nat) (data : Bool) (why : Nat) (unit : Option Unit) : State :=
  each lines s (fun l s => snoopLine s l data why unit)

/-- R481: the newest translation of a cache, the oldest beyond its room dropped. -/
def cacheLeaf (s : State) (unit : Unit) (l : Leaf) : State :=
  if cacheSize unit = 0 then s
  else
    let u := cacheOf unit
    let mine := (s.xlat.cache.filter (fun e => e.unit = u)).take (cacheSize u - 1)
    let others := s.xlat.cache.filter (fun e => e.unit ≠ u)
    { s with xlat := { s.xlat with cache := { unit := u, leaf := l } :: (mine ++ others) } }

/-! ## Requests over the mesh -/

/-- The core whose copy engine serves a unit, for tags and counters. -/
def unitEp : Unit → Nat
  | .coreCopy c => epCore c
  | .stream c _ _ => epCore c
  | .hubCopy h => epHub h
  | .merge h => epHub h
  | _ => epEdge 0 0

/-- The region of a unit. -/
def unitRegion : Unit → Nat
  | .coreCopy c => regionOf c
  | .stream c _ _ => regionOf c
  | .hubCopy h => regionOfCluster h
  | .merge h => regionOfCluster h
  | _ => 0

/-- R339, R419: the attachment point of a region an address uses: 512-byte lines in turn (log entry 13). -/
def memPoint (a : Nat) : Nat := a / 512 % 24

/-- The endpoint that holds a physical address; a read of a shared page by a unit of a region goes to that region's
stack cache (R399). -/
def epOfPhys (a : Nat) (cachedIn : Option Nat) : Nat :=
  match cachedIn with
  | some r => epMem r (memPoint a)
  | none =>
    if 2 ^ 53 ≤ a then epMem ((a - 2 ^ 53) / 2 ^ 19) (memPoint a)
    else match placeOf a with
      | .core c _ => epCore c
      | .region r _ => epMem r (memPoint a)
      | .hbm st _ => epMem (regionOfStack st) (memPoint a)
      | .tier p _ =>
        let n := if dieOfTier p < 2 then 16 else 12
        epEdge (dieOfTier p) (a / 512 % n)
      | .buffer e _ => epCore (coreOfEngine e)

/-- R423: the G1-order attribute of the slot behind a unit. -/
def g1Of (s : State) (c k : Nat) : Bool := (slotOf s c k).g1

/-- R422: the access word of n bytes at a global address. -/
def accessWord (ga n : Nat) : Reg := BitVec.ofNat 64 (ga % 2 ^ 50 + n * 2 ^ 50)

/-- R342, R343: the global address of a byte of on-chip memory. -/
def gaOfPhys (phys : Nat) : Nat := 2 ^ 48 + phys

/-- R421, R422: a read request of a unit, for a global address that lies at a physical one. -/
def readPacket (unit : Unit) (tag ga phys n : Nat) (shared : Bool) : Packet :=
  { mkPacket (unitEp unit) (epOfPhys phys (if shared then some (unitRegion unit) else none)) 0 0 unit with
    rtag := tag, count := n, phys := phys, cached := shared, ext := accessWord ga n, payload := bytesOf 8 tag }

/-- R421, R422: a write of a unit. -/
def writePkt (unit : Unit) (tag ga phys : Nat) (data : List Byte) (poison : List Bool) : Packet :=
  { mkPacket (unitEp unit) (epOfPhys phys none) 3 1 unit with
    rtag := tag, count := data.length, phys := phys, ext := accessWord ga data.length, payload := data, poison := poison }

/-- A memory a unit reaches without the mesh: its own core's. -/
def ownMemory (unit : Unit) (phys : Nat) : Bool :=
  match unit, placeOf phys with
  | .coreCopy c, .core d _ => c = d && phys < 2 ^ 53
  | .stream c _ _, .core d _ => c = d && phys < 2 ^ 53
  | _, _ => false

/-- Write at a physical address, a core's twin included. -/
def physWrite (s : State) (a : Nat) (data : List Byte) (mask : List Bool) : State :=
  match placeOf a with
  | .core c off => outsideWrite s c off data mask
  | _ => { s with mem := writePoison s.mem a data mask }

/-! ## Rows to other modules, R534 to R538 -/

/-- R534 fields of a fabric route entry. -/
def frPort (e : Nat) : Nat := bitsOf e 0 4
/-- R534. -/
def frNext (e : Nat) : Nat := bitsOf e 4 5
/-- R534. -/
def frHops (e : Nat) : Nat := bitsOf e 9 2
/-- R534. -/
def frValid (e : Nat) : Bool := bitAt e 11

/-- R457, R535: the entry a route table gives for a module. -/
def routeEntry (t : RouteTab) (module : Nat) : Nat :=
  match look? t.detour module with
  | some e => e.toNat
  | none => (look t.active module 0).toNat

/-- R536: the origin route table of a slice. -/
def originTab (s : State) (handle : Nat) : RouteTab := (look? s.slices handle).elim .empty (·.origin)

/-- R537: a slice has a route to a module. -/
def routed (s : State) (handle module : Nat) : Bool := frValid (routeEntry (originTab s handle) module)

/-- A row with every field at zero. -/
def mkRow (s : State) (kind final addr : Nat) (payload : List Byte) (poison : List Bool) (unit : Unit) (tag : Nat) : Row :=
  { kind := kind, hops := 0, origin := s.fabric.moduleId, final := final, mask := 0, addr := addr, e2e := 0, aux := 0,
    payload := payload, poison := poison, flagged := kind = 1 || kind = 3, strict := false, owners := [(unit, tag, 0)],
    source := none }

/-- Queue a row at a port. -/
def queueRow (s : State) (port : Nat) (r : Row) : State :=
  let p := portOf s port
  setPort s port { p with
    queue := p.queue ++ [{ r with queuedAt := look s.clocks.port port 0 }]
    queueAt := if p.queue.isEmpty then look s.clocks.port port 0 else p.queueAt }

/-- R573: a row of more than one hop takes the next e2e_seq and waits for its end-to-end acknowledgement. -/
def queueTo (s : State) (port member hops : Nat) (r : Row) : State :=
  let r := { r with mask := BitVec.ofNat 32 (2 ^ member), owners := r.owners.map (fun o => (o.1, o.2.1, member)) }
  if hops ≤ 1 then queueRow s port r
  else
    let n := look s.fabric.e2eNext r.final 1
    let r := { r with e2e := n }
    let t := queueRow s port r
    { t with fabric := { t.fabric with e2eNext := put t.fabric.e2eNext r.final ((n + 1) % 2 ^ 32),
                                       e2eOut := t.fabric.e2eOut ++ [r] } }

/-- R538: a row of one hop that a slice sent carries something for a module at a port. -/
def goesTo (p : RolPort) (handle module : Nat) (r : Row) (member : Nat → Bool) : Bool :=
  r.handles.contains handle && r.e2e = 0 && p.table.any (fun e => e.2 = module && r.mask.getLsbD e.1 && member e.1)

/-- R538: rows that a slice sent to a module are not acknowledged yet: by their train, or, relayed, end to end. -/
def rowsOut (s : State) (handle module : Nat) : Bool :=
  s.fabric.e2eOut.any (fun r => r.final = module && r.handles.contains handle) ||
  s.fabric.ports.any (fun e =>
    let p := e.2
    p.queue.any (fun r => goesTo p handle module r (fun _ => true)) ||
    p.ready.any (fun t => t.rows.any (fun r => goesTo p handle module r (fun _ => true))) ||
    p.retained.any (fun t => t.rows.any (fun r => goesTo p handle module r t.waiting.contains)))

/-- R536, R538, R549: send a row of a slice by a route entry. When the slice's route to its destination has changed, it is held
while rows sent by the old one are unacknowledged, and the first row by the new one is flagged. -/
def sendBy (s : State) (handle e : Nat) (r : Row) : State :=
  let r := { r with handles := [handle] }
  let key := handle * 2 ^ 14 + r.final
  let changed := (look? s.fabric.lastVia key).any (· ≠ e)
  if s.fabric.heldRows.any (fun h => h.2.final = r.final && h.2.handles = [handle]) || (changed && rowsOut s handle r.final) then
    { s with fabric := { s.fabric with heldRows := s.fabric.heldRows ++ [(e, r)] } }
  else
    queueTo { s with fabric := { s.fabric with lastVia := put s.fabric.lastVia key e } } (frPort e) (frNext e) (frHops e)
      { r with flagged := r.flagged || changed }

/-- R536: send a row that originates in a slice. -/
def sendRow (s : State) (handle : Nat) (r : Row) : State := sendBy s handle (routeEntry (originTab s handle) r.final) r

/-- The request ID of a number: 28 bits, so that a sync request can carry it, and never 0. -/
def requestId (n : Nat) : Nat := n % (2 ^ 28 - 1) + 1

/-- Note a request that waits for a response row, and its request ID. -/
def addRequest (s : State) (kind : Nat) (unit : Unit) (tag slot step : Nat) : Nat × State :=
  let id := requestId s.fabric.nextReq
  (id, { s with fabric := { s.fabric with
    nextReq := s.fabric.nextReq + 1
    requests := s.fabric.requests ++ [{ id := id, kind := kind, unit := unit, tag := tag, slot := slot, step := step }] } })

end Sys2Proof.Machine
end

