-- ==== Sys2Proof/Machine/Lanes.lean ====
section
/-! DEFINITION. Input lanes, output ports, and the messages of the narrow network as they arrive (05_spatial.md,
06_messages.md). -/

namespace Sys2Proof.Machine

/-! ## The order of narrow-network messages, R294, R297, R302 -/

/-- R294: the channel of a message. -/
def channelOf : Body → Nat
  | .syncResp _ _ _ => 1
  | .orphan _ _ _ => 2
  | _ => 0

/-- R302: the tag that orders user messages. -/
def tagOfBody : Body → Option Nat
  | .user t _ _ _ => some t
  | _ => none

/-- The synchronisation object that a request or a cancel goes to. -/
def objectOfBody : Body → Option (Nat × Nat)
  | .syncReq r i _ _ _ _ _ => some (r, i)
  | .cancel r i _ => some (r, i)
  | _ => none

/-- R297, R302, R330: messages whose order is kept: of one unit to one, of one tag between two cores, or of one core to one
object. -/
def sameFlow (a b : Msg) : Bool :=
  a.src = b.src && a.dst = b.dst && channelOf a.body = channelOf b.body && tagOfBody a.body = tagOfBody b.body &&
  objectOfBody a.body = objectOfBody b.body &&
  ((tagOfBody a.body).isSome || (objectOfBody a.body).isSome || (a.srcSlot = b.srcSlot && a.dstSlot = b.dstSlot))

/-- The memory-side attachment point of a region that serves an object (log entry 40). -/
def objectPoint (index : Nat) : Nat := index % 24

/-- R292: the endpoint a message goes to; a region controller's is the first of its region's attachment points (log entry
40). -/
def msgTo (m : Msg) : Nat :=
  match m.body with
  | .watchdog _ _ _ _ => epMem m.dst 0
  | .syncReq r i _ _ _ _ _ => epMem r (objectPoint i)
  | .cancel r i _ => epMem r (objectPoint i)
  | _ => m.dst

/-- The endpoint a message comes from. -/
def msgFrom (m : Msg) : Nat :=
  match m.body with
  | .syncResp _ _ _ => epMem m.src m.srcSlot
  | _ => m.src

/-- R292: the router that holds a message, by its endpoint: a core's, a cluster hub's or a memory-side attachment point's. -/
def msgAt (m : Msg) : Option Nat := m.place.map (· / 8)

/-- R295: a message has reached the router of its destination. -/
def msgHere (m : Msg) : Bool := msgAt m = some (msgTo m)

/-- The input port of its own router that an endpoint sends into. -/
def entryPlace (ep : Nat) : Nat := ep * 8 + localCode ep

/-- R300: a message is still in the router of its sender. -/
def atSource (m : Msg) : Bool := m.place = some (entryPlace (msgFrom m))

/-- The network without its i-th message. -/
def withoutMsg (s : State) (i : Nat) : State := { s with narrow := s.narrow.eraseIdx i }

/-- The i-th message in flight, when it has reached its destination and no earlier one must arrive first, and the network
without it. -/
def takeMsg (s : State) (i : Nat) : Option (Msg × State) :=
  match s.narrow[i]? with
  | none => none
  | some m => if !(msgHere m) || (s.narrow.take i).any (fun a => sameFlow a m) then none else some (m, withoutMsg s i)

/-! ### Hops, R292 to R295, R310, R455, R461 -/

/-- R292, R428: the route without any table. From the router of a hub or of an attachment point, code 4 leads to the core's
router beside it. -/
def narrowDefault (router to_ : Nat) : Nat :=
  if epKind router = 0 then defaultRoute router to_ else if router = to_ then localCode to_ else 4

/-- R455: the route that a copy of the narrow network's tables holds. -/
def narrowTable (s : State) (tbl : Bool) (router to_ : Nat) : Nat :=
  (look? (if tbl then s.mesh.narrow1 else s.mesh.narrow0) (router * 2 ^ 14 + to_)).getD (narrowDefault router to_)

/-- R455, R456: the route of a message stamped `tbl` at a narrow-network router; 15 once its destination is unusable or dark
(R310). -/
def narrowRoute (s : State) (router to_ : Nat) (tbl : Bool) : Nat :=
  if !(epServes s to_) then 15
  else (overrideHit s (2 ^ 14 + router) to_).getD (narrowTable s tbl router to_)

/-- R292: the router and its input port that a route code leads to; the links sit where those of the wafer mesh do. -/
def narrowNext (router code to_ : Nat) : Option (Nat × Nat) :=
  if epKind router = 0 then
    if code < 4 then (neighbour router code).map (fun n => (n, portFacing code))
    else if routerOf to_ = router && code = localCode to_ then some (to_, 4) else none
  else if code = 4 then some (routerOf router, localCode router) else none

/-- R792: a narrow-network router runs. -/
def narrowUp (s : State) (router : Nat) : Bool := routerUp s (routerOf router)

/-- R294: a router's input port has a credit for a channel. The spec gives no number: as many as on the wafer mesh (DESIGN
CHOICE, log entry 40). -/
def narrowRoom (s : State) (place channel : Nat) (seam : Bool) : Bool :=
  decide ((s.narrow.filter (fun m => m.place = some place && channelOf m.body = channel)).length < (if seam then 4 else 2))

/-- R461: an endpoint that has taken the switch order holds its new messages while a router of its region holds one stamped
with the old copy. -/
def narrowPaused (s : State) (ep : Nat) : Bool :=
  s.mesh.switched.contains ep && s.narrow.any (fun m =>
    m.tbl = s.mesh.active && (msgAt m).any (fun r => regionOf (routerOf r) = regionOf (routerOf ep)))

/-- R295: an earlier message of the same buffer and channel goes first. -/
def narrowBehind (s : State) (i : Nat) (m : Msg) : Bool :=
  (s.narrow.take i).any (fun a => a.place = m.place && channelOf a.body = channelOf m.body && (m.place.isSome || sameFlow a m))

/-- Message i moves to a place. -/
def moveMsg (s : State) (i place : Nat) (tbl : Bool) (m : Msg) : State :=
  { s with narrow := s.narrow.set i { m with place := some place, tbl := tbl } }

/-- R294: the response of a die to the core that asked. -/
def answerSync (s : State) (r index c k tag status : Nat) (word : Reg) : State :=
  post s { src := r, srcSlot := objectPoint index, dst := c, dstSlot := k, body := .syncResp tag status word }

/-- R309: the number of an endpoint's counters. -/
def endUnit (c cls : Nat) : Nat := c * 16 + cls

/-- R319, R321: the detail of a message orphan notice. -/
def orphanDetail (dest tag epoch endEpoch reason : Nat) : Nat :=
  dest + tag * 2 ^ 12 + epoch * 2 ^ 28 + endEpoch * 2 ^ 36 + reason * 2 ^ 44

/-- R309, R310, R315: a user message is dropped: the drop is counted and its sender gets an orphan notice. -/
def dropMessage (s : State) (router : Nat) (m : Msg) (tag epoch endEpoch reason : Nat) : State :=
  orphanTo (bump s (ctrEndDropped.plus reason) (endUnit m.dst (tag / 2 ^ 12)) 1) router m.src m.srcSlot m.gen m.step 4
    (orphanDetail m.dst tag epoch endEpoch reason)

/-- R300: a user message has left its sender's router: its `msg.send` is complete. -/
def sendDone (s : State) (m : Msg) : State :=
  let v := slotOf s m.src m.srcSlot
  if (tagOfBody m.body).isSome && v.gen = m.gen && v.issued.any (fun i => i.step = m.step && i.op = 0x50) then
    settleCore (forwardStep (completeStep s m.src m.srcSlot m.step) m.src m.srcSlot m.step) m.src
  else s

/-- R300: what a message's leaving the router it is in means for the step that sent it. -/
def departs (s : State) (m : Msg) : State := if atSource m then sendDone s m else s

/-- R310, R335: message i finds its destination unreachable at a router: a user message is dropped with reason 2, an
operation completes with status 4, and any other message is lost. -/
def unreachableMsg (s : State) (i router : Nat) (m : Msg) : State :=
  let t := departs (withoutMsg s i) m
  match m.body with
  | .user tag epoch _ _ => dropMessage t (routerOf router) m tag epoch 0 2
  | .syncReq _ _ _ _ _ _ tag => answerSync t (regionOf (routerOf router)) 0 m.src m.srcSlot tag 4 0
  | _ => t

/-- R292, R293, R461: message i enters the network, or moves one hop, as far as a credit allows. -/
def hopMsg (s : State) (i : Nat) (m : Msg) : State :=
  if narrowBehind s i m then s
  else match msgAt m with
    | none =>
      let ep := msgFrom m
      let at_ := entryPlace ep
      if !(narrowUp s ep) || narrowPaused s ep || !(narrowRoom s at_ (channelOf m.body) false) then s
      else moveMsg s i at_ (stampOf s ep) m
    | some r =>
      let code := narrowRoute s r (msgTo m) m.tbl
      if !(narrowUp s r) then s
      else match narrowNext r code (msgTo m) with
        | none => unreachableMsg s i r m
        | some n =>
          let at_ := n.1 * 8 + n.2
          if !(narrowUp s n.1) || !(narrowRoom s at_ (channelOf m.body) (isSeam (routerOf r) (routerOf n.1))) then s
          else departs (moveMsg s i at_ m.tbl m) m

/-- Act on message i at its destination; f answers none for a message it is not meant for. One that is still under way
enters the network or moves one hop (DESIGN CHOICE, log entry 40: the table of commands has no row for a hop). -/
def onMsg (s : State) (i : Nat) (f : Msg → State → Option State) : State :=
  match takeMsg s i, s.narrow[i]? with
  | some (m, t), _ => ((f m t).map (fun u => departs u m)).getD s
  | none, some m => if (f m s).isSome && !(msgHere m) then hopMsg s i m else s
  | none, none => s

/-! ## Lanes -/

/-- Replace a lane. -/
def setLane (s : State) (c k n : Nat) (l : Lane) : State := onSlot s c k (fun v => { v with lanes := put v.lanes n l })
/-- Replace a port. -/
def setOut (s : State) (c k n : Nat) (p : Port) : State := onSlot s c k (fun v => { v with ports := put v.ports n p })

/-- R262, R263: a credit return from a lane to its producer. -/
def returnCredits (s : State) (c k n : Nat) : State :=
  let v := slotOf s c k
  let l := laneOf v n
  let e := imLane v.image n
  if l.taken = 0 then s
  else post (setLane s c k n { l with taken := 0 })
    { src := c, srcSlot := k, dst := relocated v (laneCore e), dstSlot := laneSlot e,
      body := .credit (lanePort e) l.gen l.taken }

/-- R286: the address of an entry of the reserve. -/
def reserveAt (v : Slot) (place : Nat) : Nat := imExtBase v.image + 264 * place

/-- R286: a token read back from an entry of the reserve. -/
def reserveToken (s : State) (c : Nat) (v : Slot) (place : Nat) : Token :=
  let a := reserveAt v place
  let h := coreNat s c a 8
  let len := 8 * bitsOf h 0 6
  { header := BitVec.ofNat 64 h, data := coreRead s c (a + 8) len, poison := poisonMask s.mem (corePhys c (a + 8)) len }

/-- R261: the token that a lane hands over next, in the lane store or the reserve. -/
def laneHead (s : State) (c k n : Nat) : Option Token :=
  let v := slotOf s c k
  let l := laneOf v n
  if l.due ≤ l.hand then none
  else ((l.tokens.find? (fun e => e.1 = l.hand)).map (·.2)).orElse (fun _ =>
    (l.spilled.find? (fun e => e.1 = l.hand)).map (fun e => reserveToken s c v e.2))

/-- R285: while an entry of the lane store is free, the head of the reserve moves into it. -/
def refill (s : State) (c : Nat) (v : Slot) (n : Nat) (l : Lane) : Lane :=
  match l.spilled with
  | e :: rest =>
    if l.tokens.length < laneDepth (imLane v.image n) then
      { l with tokens := l.tokens ++ [(e.1, reserveToken s c v e.2)], spilled := rest }
    else l
  | [] => l

/-- R261, R262, R285: dequeue the next token of a lane. -/
def dequeue (s : State) (c k n : Nat) : Option (Token × State) :=
  let v := slotOf s c k
  let l := laneOf v n
  (laneHead s c k n).map (fun t =>
    let l := refill s c v n { l with
      tokens := l.tokens.filter (fun e => e.1 ≠ l.hand), spilled := l.spilled.filter (fun e => e.1 ≠ l.hand)
      hand := l.hand + 1, taken := l.taken + 1 }
    let s := bump (setLane s c k n l) ctrSlotReceived (slotUnit c k) 1
    let s := if l.taken = 8 || (l.tokens.isEmpty && l.spilled.isEmpty) then returnCredits s c k n else s
    (t, progress s c k true))

/-- R263: the credits an open grant of a lane carries. -/
def grantCredits (v : Slot) (n : Nat) : Nat :=
  let l := laneOf v n
  laneDepth (imLane v.image n) - laneHeld v n + (if l.armed then imExtTokens v.image - l.spilled.length else 0)

/-- R263: a lane sends its producer an open grant. -/
def openLane (s : State) (c k n : Nat) : State :=
  let v := slotOf s c k
  let e := imLane v.image n
  post s { src := c, srcSlot := k, dst := relocated v (laneCore e), dstSlot := laneSlot e,
           body := .openGrant (lanePort e) (laneOf v n).gen (grantCredits v n) }

/-- R263: a port sends its lane an open request. -/
def requestOpen (s : State) (c k n : Nat) : State :=
  let v := slotOf s c k
  let e := imPort v.image n
  post (setOut s c k n { outOf v n with credits := 0 })
    { src := c, srcSlot := k, dst := relocated v (portCore e), dstSlot := portSlot e, body := .openRequest (portLane e) n }

/-- R259 seq of a token header. -/
def tkSeq (h : Reg) : Nat := bitsOf h.toNat 20 8

/-- R261: the turn of a token by its seq: the first one not below the lane's due turn. -/
def turnOf (l : Lane) (t : Token) : Nat := l.due + (tkSeq t.header + 256 - (l.due - l.start) % 256) % 256

/-- R261: the first turn from `due` on that no token of a list has. Fuel is their number. -/
def dueAfter (turns : List Nat) : Nat → Nat → Nat
  | 0, due => due
  | f + 1, due => if turns.contains due then dueAfter turns f (due + 1) else due

/-- R286: the lowest free entry of the reserve. -/
def reservePlace (l : Lane) : Nat := ((List.range (l.spilled.length + 1)).find? (fun p => l.spilled.all (fun e => e.2 ≠ p))).getD 0

/-- R285: an arriving token goes to the reserve of an armed lane while that holds tokens, or the lane store part is full. -/
def spills (v : Slot) (n : Nat) : Bool :=
  let l := laneOf v n
  l.armed && (decide (laneDepth (imLane v.image n) ≤ l.tokens.length) || !l.spilled.isEmpty)

/-- R261, R285, R286: a token that belongs to the lane arrives: it takes its entry of the lane store, early or not, or one of
the reserve, where the core copy engine writes it. -/
def arriveToken (s : State) (c k n : Nat) (t : Token) : State :=
  let v := slotOf s c k
  let l := laneOf v n
  let turn := turnOf l t
  let turns := turn :: (l.tokens.map (·.1) ++ l.spilled.map (·.1))
  let l' := { l with due := dueAfter turns turns.length l.due }
  if spills v n then
    let place := reservePlace l
    let m := writePoison s.mem (corePhys c (reserveAt v place)) (fit (bytesOf 8 t.header.toNat ++ t.data) 264) (false :: t.poison)
    bump (setLane { s with mem := m } c k n { l' with spilled := l.spilled ++ [(turn, place)] }) ctrSlotSpilled (slotUnit c k) 1
  else setLane s c k n { l' with tokens := l.tokens ++ [(turn, t)] }

/-- R263: an open request of its producer begins a new binding of a lane. Tokens of the old one that wait for an earlier
token are let go (log entry 107). -/
def rebindLane (l : Lane) : Lane :=
  { l with
    gen := (l.gen + 1) % 16, taken := 0, start := l.due
    tokens := l.tokens.filter (fun e => decide (e.1 < l.due)), spilled := l.spilled.filter (fun e => decide (e.1 < l.due)) }

/-- R259: a token header. -/
def tokenHeader (len8 : Nat) (first last poison : Bool) (lane slot gen seq core srcSlot port : Nat) : Reg :=
  BitVec.ofNat 64 (len8 + bn first * 2 ^ 6 + bn last * 2 ^ 7 + bn poison * 2 ^ 8 + lane * 2 ^ 10 + slot * 2 ^ 14 +
    gen * 2 ^ 16 + seq * 2 ^ 20 + core * 2 ^ 28 + srcSlot * 2 ^ 40 + port * 2 ^ 42)

end Sys2Proof.Machine
end

