-- ==== Sys2Proof/Machine/Moves.lean ====
section
/-! DEFINITION. Transfers: the segments of records and chunks, copy jobs and their records, and the fetching of streams
(07_memories.md). -/

namespace Sys2Proof.Machine

/-! ## Cutting and addressing -/

/-- Pieces of at most 256 bytes that cross no 256-byte line of source or destination. Fuel bounds the pieces. -/
def cutRange : Nat → Nat → Nat → Nat → Nat → List (Nat × Nat)
  | 0, _, _, _, _ => []
  | f + 1, off, sa, da, n =>
    if n = 0 then []
    else
      let l := min n (min (256 - (sa + off) % 256) (256 - (da + off) % 256))
      (off, l) :: cutRange f (off + l) sa da (n - l)

/-- The pieces of n bytes. -/
def cutBytes (sa da n : Nat) : List (Nat × Nat) := cutRange n 0 sa da n

/-- R573: a location in another module. -/
def remoteLoc (s : State) : Loc → Bool
  | .glob a => gaWhere s a = 1
  | _ => false

/-- R573: a record with a side in another module is one row; one of more bytes than a row of R542 carries, with its poison
bitmap, is cut into several (DESIGN CHOICE, log entry 113). -/
def rowMost : Nat := 1032192

/-- Pieces of n bytes at a location: lines, or the rows of another module's. -/
def sideCuts (s : State) (l : Loc) (low n : Nat) : List (Nat × Nat) :=
  if remoteLoc s l then (List.range (ceilDiv n rowMost)).map (fun i => (i * rowMost, min rowMost (n - i * rowMost)))
  else cutBytes low low n

/-- R359: an address from a base and strides, modulo 2^64. -/
def strided (base : Nat) (offs : List Int) : Nat := (((base : Int) + offs.sum) % 2 ^ 64).toNat

/-- R359: the four indices of record n. -/
def recIndex (c0 c1 c2 n : Nat) : Nat × Nat × Nat × Nat :=
  (n % c0, n / c0 % c1, n / (c0 * c1) % c2, n / (c0 * c1 * c2))

/-- R782: the core whose neighbours a core's selectors name. -/
def selfCore (v : Slot) (c : Nat) : Nat := ((v.reloc.find? (·.2 = c)).map (·.1)).getD c

/-- R345, R346, R782: the core a neighbour selector names, when it may be reached. -/
def neighbourCore (s : State) (v : Slot) (c sel : Nat) : Option Nat :=
  match neighbour (selfCore v c) sel with
  | none => none
  | some n =>
    let n := relocated v n
    if coreUsable s n && shedOf s (regionOf n) ≠ .dark then some n else none

/-- R781: a global address of space 0b01 names the core its relocation gives. -/
def relocGlobal (s : State) (v : Slot) (a : Nat) : Nat :=
  if gaSpace a = 1 && gaWhere s a = 0 && gaOff a < 2 ^ 36 then
    a - gaOff a + (relocated v (gaOff a / 2 ^ 23) * 2 ^ 23 + gaOff a % 2 ^ 23)
  else a

/-- R344, R345, R358: where n bytes at a selected address lie, or the cause of its rejection. -/
def selLoc (s : State) (c : Nat) (v : Slot) (sel nb a n : Nat) : Loc ⊕ Nat :=
  match sel with
  | 1 => if a + n ≤ coreBytes then .inl (.phys (corePhys c a)) else .inr 0x62
  | 2 =>
    match neighbourCore s v c nb with
    | none => .inr 0x63
    | some d => if a + n ≤ coreBytes then .inl (.phys (corePhys d a)) else .inr 0x62
  | _ => .inl (.glob (relocGlobal s v a))

/-- A location moved on by n bytes. -/
def Loc.plus (l : Loc) (n : Nat) : Loc :=
  match l with
  | .phys a => .phys (a + n)
  | .glob a => .glob (a + n)
  | .here g a sh => .here (g + n) (a + n) sh
  | .host a => .host (a + n)
  | .nowhere => .nowhere

/-- The low bits of a location, for cutting. -/
def Loc.low : Loc → Nat
  | .phys a => a
  | .glob a => a
  | .here _ a _ => a
  | .host a => a
  | .nowhere => 0

/-! ## Segments -/

/-- Why a transfer stops. -/
inductive Stop where
  | halt (h : Halt)
  | reject (cause : Nat)
  /-- R361: a poisoned index -/
  | poison
  deriving DecidableEq, Repr

/-- The issuer behind a unit's transfer. -/
structure Issuer where
  unit : Unit
  core : Nat
  slot : Nat
  step : Nat

/-- A segment as made. -/
def mkSeg (rec_ kind off : Nat) (src dst : Loc) (len : Nat) : Seg :=
  { recNo := rec_, kind := kind, off := off, src := src, dst := dst, len := len, stage := 0, tag := 0, data := [],
    poison := [] }

/-- A segment whose bytes are known. -/
def outSeg (rec_ off : Nat) (dst : Loc) (data : List Byte) (poison : List Bool) : Seg :=
  { mkSeg rec_ 4 off .nowhere dst data.length with stage := 2, data := data, poison := poison }

/-- R421: a fresh request tag of a unit's engine, 20 bits. -/
def freshTag (s : State) (unit : Unit) : Nat × State :=
  match unit with
  | .coreCopy c => ((coreOf s c).nextTag, setCore s c { coreOf s c with nextTag := ((coreOf s c).nextTag + 1) % 2 ^ 20 })
  | .stream c _ _ => ((coreOf s c).nextTag, setCore s c { coreOf s c with nextTag := ((coreOf s c).nextTag + 1) % 2 ^ 20 })
  | .hubCopy h => ((hubOf s h).nextTag, setHub s h { hubOf s h with nextTag := ((hubOf s h).nextTag + 1) % 2 ^ 20 })
  | .merge h => ((hubOf s h).nextTag, setHub s h { hubOf s h with nextTag := ((hubOf s h).nextTag + 1) % 2 ^ 20 })
  | _ => (s.mesh.nextTag, { s with mesh := { s.mesh with nextTag := (s.mesh.nextTag + 1) % 2 ^ 20 } })

/-- R488, R491: the stop of a translation fault: one that Furelo resolves halts the unit until the page has moved. -/
def faultStop (cause a : Nat) : Stop := if cause = 0x83 then .halt (.migrating a) else .halt (.fault cause a)

/-- R573: a read of another module. -/
def remoteRead (s : State) (i : Issuer) (g : Seg) (a : Nat) : State × Seg × Option Stop :=
  if !routed s (handleOf s i.core) (gaModule a) then (s, g, some (.reject 0x62))
  else
    let t := freshTag s i.unit
    let q := addRequest t.2 1 i.unit t.1 i.slot i.step
    let row := { mkRow q.2 1 (gaModule a) a (bytesOf 8 g.len) [] i.unit t.1 with
      aux := BitVec.ofNat 32 q.1, strict := g1Of s i.core i.slot }
    (sendRow q.2 (handleOf s i.core) row, { g with stage := 1, tag := t.1 }, none)

/-- R548: the global address that a segment's bytes were read from. -/
def sourceOfSeg (s : State) (g : Seg) : Option Nat :=
  match g.src with
  | .phys p => some (gaOfPhys p + (if inDomain s then s.fabric.moduleId * 2 ^ 50 else 0))
  | .here ga _ _ => some ga
  | .glob a => some a
  | _ => none

/-- R573, R578: a write, or a reduce row, to another module. -/
def remoteWrite (s : State) (i : Issuer) (g : Seg) (a : Nat) : State × Seg × Option Stop :=
  if !routed s (handleOf s i.core) (gaModule a) then (s, g, some (.reject 0x62))
  else
    let t := freshTag s i.unit
    let row := { mkRow t.2 (if g.kind = 7 then 5 else 0) (gaModule a) a g.data g.poison i.unit t.1 with
      strict := g1Of s i.core i.slot, source := if g.kind = 7 then none else sourceOfSeg s g }
    (sendRow t.2 (handleOf s i.core) row, { g with stage := 3, tag := t.1 }, none)

/-- Read a segment whose source is known. -/
def readAt (s : State) (i : Issuer) (g : Seg) (ga a : Nat) (shared : Bool) : State × Seg × Option Stop :=
  if ownMemory i.unit a then
    (s, { g with stage := 2, data := readPhys s a g.len, poison := poisonMask s.mem a g.len }, none)
  else
    let t := freshTag s i.unit
    match inject t.2 (readPacket i.unit t.1 ga a g.len shared) false (g1Of s i.core i.slot) with
    | none => (s, g, none)
    | some u => (u, { g with stage := 1, tag := t.1 }, none)

/-- Write a segment whose destination is known. -/
def writeAt (s : State) (i : Issuer) (g : Seg) (ga a : Nat) : State × Seg × Option Stop :=
  if ownMemory i.unit a then (physWrite s a g.data g.poison, { g with stage := 4 }, none)
  else
    let t := freshTag s i.unit
    match inject t.2 (writePkt i.unit t.1 ga a g.data g.poison) false (g1Of s i.core i.slot) with
    | none => (s, g, none)
    | some u => (u, { g with stage := 3, tag := t.1 }, none)

/-- Advance the read side of a segment. -/
def segRead (s : State) (i : Issuer) (g : Seg) : State × Seg × Option Stop :=
  match g.src with
  | .nowhere => (s, { g with stage := 2, data := List.replicate g.len 0, poison := [] }, none)
  | .host _ => (s, g, none)
  | .phys a => readAt s i g (gaOfPhys a) a false
  | .here ga a sh => readAt s i g ga a sh
  | .glob a =>
    match reach s i.unit a g.len false with
    | .ok p sh =>
      let held := linesHeld s a g.len false
      if held.isEmpty then
        let r := readAt (lookedUp s i.unit false) i { g with src := .here a p sh } a p sh
        if r.2.1.stage = 0 then (r.1, g, r.2.2) else r
      else (snoopAll s held true 0 (some i.unit), g, none)
    | .walk => (startWalk (lookedUp s i.unit true) i.unit a false, g, none)
    | .fault c => (s, g, some (faultStop c a))
    | .reject c => (s, g, some (.reject c))
    | .remote => remoteRead s i g a
    | .dark r => (s, g, some (.halt (.dark r)))

/-- Advance the write side of a segment. -/
def segWrite (s : State) (i : Issuer) (g : Seg) : State × Seg × Option Stop :=
  match g.dst with
  | .nowhere => (s, { g with stage := 4 }, none)
  | .host _ => (s, g, none)
  | .phys a => writeAt s i g (gaOfPhys a) a
  | .here ga a _ => writeAt s i g ga a
  | .glob a =>
    match reach s i.unit a g.len true with
    | .ok p _ =>
      let held := linesHeld s a g.len true
      if held.isEmpty then writeAt (lookedUp s i.unit false) i g a p else (snoopAll s held false 1 (some i.unit), g, none)
    | .walk => (startWalk (lookedUp s i.unit true) i.unit a true, g, none)
    | .fault c => (s, g, some (faultStop c a))
    | .reject c => (s, g, some (.reject c))
    | .remote => remoteWrite s i g a
    | .dark r => (s, g, some (.halt (.dark r)))

/-- Advance a segment as far as it goes without waiting. -/
def segStep (s : State) (i : Issuer) (g : Seg) : State × Seg × Option Stop :=
  match if g.kind = 6 then 4 else g.stage with
  | 0 =>
    let r := segRead s i g
    if r.2.2.isNone && r.2.1.stage = 2 then segWrite r.1 i r.2.1 else r
  | 2 => segWrite s i g
  | _ => (s, g, none)

/-- Advance the segments in order up to the first that stops. -/
def segsStep (s : State) (i : Issuer) : List Seg → State × List Seg × Option Stop
  | [] => (s, [], none)
  | g :: rest =>
    let r := segStep s i g
    match r.2.2 with
    | some x => (r.1, r.2.1 :: rest, some x)
    | none =>
      let q := segsStep r.1 i rest
      (q.1, r.2.1 :: q.2.1, q.2.2)

/-- The segments of a record. -/
def segsOf (l : List Seg) (n : Nat) : List Seg := l.filter (·.recNo = n)

/-- A measure of how far segments have got, to see whether anything moved. -/
def segsMark (l : List Seg) : Nat := (l.map (fun g => g.stage + 6 * g.kind + 1)).sum

/-- Bytes of a record's segments of a kind, in order. -/
def gathered (l : List Seg) (kind : Nat) : List Byte :=
  ((l.filter (·.kind = kind)).map (·.data)).flatten

/-- The poison of the same bytes, byte by byte. -/
def gatheredPoison (l : List Seg) (kind : Nat) : List Bool :=
  ((l.filter (·.kind = kind)).map (fun g => (List.range g.len).map (fun b =>
    g.poison.getD (b / 8) false))).flatten

/-- Poison by 8-byte word from poison by byte. -/
def wordMask (l : List Bool) : List Bool := (pieces 8 l).map (fun w => w.any id)

/-! ## Tile headers -/

/-- R25: a header with a non-zero reserved bit. The reserved bits of the plan word that a word tile's header carries are not
among them (DESIGN CHOICE, log entry 112). -/
def thReserved (h : Nat) : Bool := bitAt h 11 || bitsOf h 34 30 ≠ 0 || bitsOf h 172 20 ≠ 0

/-- R351, R193: a header a stream, a copy or a queue step may use. -/
def thUsable (h : Nat) : Bool := !thReserved h && thValid h && !(thGc h && thGcDense h)

/-- R354: the check value of a payload disagrees with its header. -/
def checkBad (header payload : List Byte) : Bool := thCheck (natOf header) ≠ crc32c payload

/-- A header with its poison bit set. -/
def headPoisoned (h : List Byte) : List Byte := bytesOf 32 (setBits (natOf h) 8 1 1)

/-! ## Copies, R358 to R371 -/

/-- The slot that issued a job, its relocations applied. -/
def jobSlot (s : State) (j : CopyJob) : Slot := slotOf s j.core j.slot

/-- R359: source and destination of record n. -/
def copyAddrs (d : BitVec 1024) (n : Nat) : Nat × Nat :=
  let i := recIndex (cdCount d 0) (cdCount d 1) (cdCount d 2) n
  let at_ (f : Nat → Int) : List Int := [i.1 * f 0, i.2.1 * f 1, i.2.2.1 * f 2, i.2.2.2 * f 3]
  (strided (cdSrc d) (at_ (cdSrcStride d)), strided (cdDst d) (at_ (cdDstStride d)))

/-- Segments that move n bytes between two places. With a side in another module the bytes are read whole first, so that they
travel as one row (R573). -/
def moveSegs (s : State) (rec_ : Nat) (src dst : Loc) (n : Nat) : List Seg :=
  if remoteLoc s src || remoteLoc s dst then
    (sideCuts s src src.low n).map (fun p => mkSeg rec_ 8 p.1 (src.plus p.1) .nowhere p.2)
  else (cutBytes src.low dst.low n).map (fun p => mkSeg rec_ 0 p.1 (src.plus p.1) (dst.plus p.1) p.2)

/-- Segments that write bytes read from `src` at a place. -/
def writeSegs (s : State) (rec_ : Nat) (src dst : Loc) (data : List Byte) (poison : List Bool) : List Seg :=
  (sideCuts s dst dst.low data.length).map (fun p =>
    { outSeg rec_ p.1 (dst.plus p.1) (sub data p.1 p.2)
        (wordMask ((List.range p.2).map (fun b => poison.getD (p.1 + b) false))) with src := src.plus p.1 })

/-- R360: a fill's bytes. -/
def fillBytes (pattern n : Nat) : List Byte := ((List.replicate (n / 8) (bytesOf 8 pattern))).flatten

/-- The first segments of record n. -/
def makeRecord (s : State) (j : CopyJob) (n : Nat) : List Seg ⊕ Nat :=
  let d := j.desc
  let v := jobSlot s j
  let a := copyAddrs d n
  match cdForm d with
  | 1 =>
    match selLoc s j.core v (cdSrcSel d) (cdSrcNb d) a.1 32 with
    | .inr c => .inr c
    | .inl src => .inl [mkSeg n 1 0 src .nowhere 32]
  | 4 =>
    match selLoc s j.core v (cdDstSel d) (cdDstNb d) a.2 (cdRec d) with
    | .inr c => .inr c
    | .inl dst => .inl (writeSegs s n .nowhere dst (fillBytes (cdSrc d) (cdRec d)) [])
  | 2 =>
    match selLoc s j.core v (cdIdxSel d) (cdIdxNb d) (cdIdx d + 4 * n) 4 with
    | .inr c => .inr c
    | .inl src => .inl [mkSeg n 3 0 src .nowhere 4]
  | 3 =>
    match selLoc s j.core v (cdIdxSel d) (cdIdxNb d) (cdIdx d + 4 * n) 4 with
    | .inr c => .inr c
    | .inl src => .inl [mkSeg n 3 0 src .nowhere 4]
  | _ =>
    match selLoc s j.core v (cdSrcSel d) (cdSrcNb d) a.1 (cdRec d),
          selLoc s j.core v (cdDstSel d) (cdDstNb d) a.2 (cdRec d) with
    | .inl src, .inl dst => .inl (if cdForm d = 5 && !(remoteLoc s src || remoteLoc s dst) then
          (moveSegs s n src dst (cdRec d)).map (fun g => { g with kind := 6 })
        else moveSegs s n src dst (cdRec d))
    | .inr c, _ => .inr c
    | _, .inr c => .inr c

/-- R368: records in flight beyond elems_done; a scatter's records go one by one (R362). -/
def copyWindow (d : BitVec 1024) : Nat := if cdForm d = 3 then 1 else 16

/-- R408: a record is rejected, or meets a poisoned index: it and those after it are let go, and the copy stops when the
records before it have been written. -/
def endAt (j : CopyJob) (n : Nat) (cause : Option Nat) : CopyJob :=
  if j.ending.any (fun e => decide (e.1 ≤ n)) then j
  else { j with
    made := n, segs := j.segs.filter (fun g => decide (g.recNo < n)), checks := j.checks.filter (fun m => decide (m < n))
    ending := some (n, cause) }

/-- A stop at a record of a job: a halt stops the job at once. -/
def stopAt (j : CopyJob) (n : Nat) (x : Stop) : CopyJob × Option Stop :=
  match x with
  | .halt h => (j, some (.halt h))
  | .reject cause => (endAt j n (some cause), none)
  | .poison => (endAt j n none, none)

/-- The stop that a job has come to: the records before its end are written. -/
def endReached (j : CopyJob) : Option Stop :=
  match j.ending with
  | some (n, cause) => if n ≤ j.done then some (cause.elim .poison .reject) else none
  | none => none

/-- Make the segments of the next record. A record whose reduce row is on its way already is not made again (R369). -/
def makeNext (s : State) (j : CopyJob) : CopyJob :=
  if j.ending.isNone && decide (j.made < cdRecords j.desc) && decide (j.made < j.done + copyWindow j.desc) then
    if j.segs.any (fun g => g.recNo = j.made && g.kind = 7) then { j with made := j.made + 1 }
    else match makeRecord s j j.made with
      | .inl l => { j with made := j.made + 1, segs := j.segs ++ l }
      | .inr c => endAt j j.made (some c)
  else j

/-- Make records up to the window. Fuel is its size. -/
def makeAll (s : State) : Nat → CopyJob → CopyJob
  | 0, j => j
  | f + 1, j =>
    let r := makeNext s j
    if r.made = j.made then r else makeAll s f r

/-! ### What a record counts when it has been written -/

/-- The counter of a note: 0 an index drop (R361), 1 to 3 a tile offered and stored group-coded, dense by width or dense by a
full group (R229), 4 an mcopy record moved as a record copy (R364). -/
def noteCtr : Nat → Option Ctr
  | 0 => some ctrCopyIndexDrops
  | 1 => some ctrCopyGc
  | 2 => some ctrCopyDenseWidth
  | 3 => some ctrCopyDenseFull
  | 4 => some ctrCopyMcopyMoved
  | _ => none

/-- Note something of a record. -/
def note (j : CopyJob) (n what : Nat) : CopyJob := if j.notes.contains (n, what) then j else { j with notes := j.notes ++ [(n, what)] }

/-- R355: the check of a record's tile has been made, and whether it failed: a record that is redone is not checked again. -/
def verifiedNote (j : CopyJob) (n : Nat) : Option Bool :=
  if j.notes.contains (n, 8) then some false else if j.notes.contains (n, 9) then some true else none

/-- R190 to R192: the tile a copy writes: header, payload, and the note of the counter of R229 that applies. An offered tile
that cannot have the layout at all (rows no multiple of 32, or FP32) is stored dense and counted as dense because of width:
the spec names no counter for it (DESIGN CHOICE, log entry 112). -/
def storeForm (d : BitVec 1024) (head payload : List Byte) : List Byte × List Byte × Option Nat :=
  let h := natOf head
  if cdGc d && thKind h = 1 && !thGc h then
    let fmt := thFmt h
    let plain (what : Nat) : List Byte × List Byte × Option Nat :=
      (bytesOf 32 (setBits (setBits h 9 2 2) 192 32 (crc32c payload)), payload, some what)
    if gcPayload fmt (thRows h) (thCols h) = none then plain 2
    else
      match gcForm fmt (thRows h) (thCols h) payload with
      | none => plain 3
      | some g =>
        if g.length < payload.length then
          (bytesOf 32 (setBits (setBits (setBits h 9 2 1) 192 32 (crc32c g)) 224 32 g.length), g, some 1)
        else plain 2
  else (head, payload, none)

/-- R360, R363, R355, R510: the writes of a tile that has been read, and its note; `bad` when its check failed, which poisons
every word of it. -/
def tileWrites (s : State) (j : CopyJob) (n : Nat) (bad : Bool) : (List Seg × Option Nat) ⊕ Nat :=
  let l := segsOf j.segs n
  let payload := gathered l 2
  let f := storeForm j.desc (gathered l 1) payload
  let head := if bad then headPoisoned f.1 else f.1
  let changed := f.2.2.isSome && f.2.1 ≠ payload
  let pois := gatheredPoison l 1 ++
    (if bad || (changed && (gatheredPoison l 2).any id) then List.replicate f.2.1.length true else gatheredPoison l 2)
  match selLoc s j.core (jobSlot s j) (cdDstSel j.desc) (cdDstNb j.desc) (copyAddrs j.desc n).2 (32 + f.2.1.length) with
  | .inr c => .inr c
  | .inl dst => .inl (writeSegs s n .nowhere dst (head ++ f.2.1) pois, f.2.2)

/-- R578: a kind 0x2 tile with reduce set, bound for another module, travels as one reduce row. -/
def tileReduces (s : State) (j : CopyJob) (n : Nat) : Bool :=
  let h := natOf (gathered (segsOf j.segs n) 1)
  let a := (copyAddrs j.desc n).2
  cdDstSel j.desc = 0 && gaWhere s a = 1 && thKind h = 2 && planReduce (thPlan h)

/-- R578, R355: the reduce row of a tile that has been read, still to be sent; `bad` when its check failed. -/
def reduceSegs (j : CopyJob) (n : Nat) (bad : Bool) : List Seg :=
  let l := segsOf j.segs n
  let payload := gathered l 2
  let head := if bad then headPoisoned (gathered l 1) else gathered l 1
  let pois := gatheredPoison l 1 ++ (if bad then List.replicate payload.length true else gatheredPoison l 2)
  [{ outSeg n 0 (.glob (copyAddrs j.desc n).2) (head ++ payload) (wordMask pois) with kind := 7 }]

/-- Replace the segments of a record. -/
def withSegs (j : CopyJob) (n : Nat) (l : List Seg) : CopyJob :=
  { j with segs := j.segs.filter (·.recNo ≠ n) ++ l }

/-- The record's tile has been read and its check is passed, failed or not made: its writes follow. -/
def tileOut (s : State) (j : CopyJob) (n : Nat) (bad : Bool) : CopyJob :=
  let j := { j with checks := j.checks.filter (· ≠ n) }
  if tileReduces s j n then withSegs j n (reduceSegs j n bad)
  else
    match tileWrites s j n bad with
    | .inr c => endAt j n (some c)
    | .inl (l, what) => what.elim (withSegs j n l) (note (withSegs j n l) n)

/-- R193, R351: why a tile that a copy has read the header of is rejected, when it is. -/
def tileCause (h : Nat) : Option Nat := if thGc h && thGcDense h then some 0x27 else if thUsable h then none else some 0x66

/-- R360, R361: the segments of a gather or scatter record whose index has been read. -/
def indexedSegs (s : State) (j : CopyJob) (n idx : Nat) : List Seg ⊕ Nat :=
  let d := j.desc
  let v := jobSlot s j
  let a := copyAddrs d n
  let from_ (x : Nat) : Loc ⊕ Nat := selLoc s j.core v (cdSrcSel d) (cdSrcNb d) x (cdRec d)
  let to_ (x : Nat) : Loc ⊕ Nat := selLoc s j.core v (cdDstSel d) (cdDstNb d) x (cdRec d)
  let move (x y : Loc ⊕ Nat) : List Seg ⊕ Nat := match x, y with
    | .inl src, .inl dst => .inl (moveSegs s n src dst (cdRec d))
    | .inr c, _ => .inr c
    | _, .inr c => .inr c
  if decide (cdLimit d ≤ idx) then
    if cdForm d = 2 then move (.inl .nowhere) (to_ a.2)
    else .inl [{ mkSeg n 4 0 .nowhere .nowhere 0 with stage := 4 }]
  else if cdForm d = 2 then move (from_ (strided (cdSrc d) [idx * cdSrcStride d 0])) (to_ a.2)
  else move (from_ a.1) (to_ (strided (cdDst d) [idx * cdDstStride d 0]))

/-- R573: a record with a side in another module has been read whole: its writes follow. An mcopy's is moved as a record copy
(R364). -/
def wholeOut (s : State) (j : CopyJob) (n : Nat) : CopyJob :=
  let d := j.desc
  let l := segsOf j.segs n
  let to_ := if cdForm d = 3 then strided (cdDst d) [natOf (gathered l 9) * cdDstStride d 0] else (copyAddrs d n).2
  match selLoc s j.core (jobSlot s j) (cdDstSel d) (cdDstNb d) to_ (cdRec d) with
  | .inr c => endAt j n (some c)
  | .inl dst =>
    let src := ((l.find? (·.kind = 8)).map (·.src)).getD .nowhere
    let j := withSegs j n (writeSegs s n src dst (gathered l 8) (gatheredPoison l 8))
    if cdForm d = 5 then note j n 4 else j

/-- A record whose control segments have been read goes on: a header to its payload, a payload to its writes, an index
to its bytes. -/
def expand (s : State) (j : CopyJob) (n : Nat) : CopyJob :=
  let l := segsOf j.segs n
  let ready (kind : Nat) : Bool := l.any (·.kind = kind) && l.all (fun g => g.kind ≠ kind || g.stage = 4)
  let d := j.desc
  if ready 3 then
    if l.any (fun g => g.kind = 3 && g.poison.any id) then endAt j n none
    else
      let idx := natOf (gathered l 3)
      match indexedSegs s j n idx with
      | .inr c => endAt j n (some c)
      | .inl m =>
        let m := if m.any (·.kind = 8) then m ++ (l.filter (·.kind = 3)).map (fun g => { g with kind := 9 }) else m
        if cdLimit d ≤ idx then note (withSegs j n m) n 0 else withSegs j n m
  else if ready 8 then wholeOut s j n
  else if ready 1 && !(l.any (·.kind = 2)) then
    let h := natOf (gathered l 1)
    match tileCause h with
    | some c => endAt j n (some c)
    | none =>
      match selLoc s j.core (jobSlot s j) (cdSrcSel d) (cdSrcNb d) (copyAddrs d n).1 (32 + thBytes h) with
      | .inr c => endAt j n (some c)
      | .inl src =>
        let src := src.plus 32
        { j with segs := j.segs ++ (sideCuts s src src.low (thBytes h)).map (fun p =>
          mkSeg n 2 p.1 (src.plus p.1) .nowhere p.2) }
  else if ready 2 then
    if checked s j.core then
      match verifiedNote j n with
      | some bad => tileOut s j n bad
      | none => if j.checks.contains n then j else { j with checks := j.checks ++ [n] }
    else tileOut s j n false
  else j

/-- Expand every record in flight. -/
def expandAll (s : State) (l : List Nat) (j : CopyJob) : CopyJob :=
  each l j (fun n j => if n < j.made then expand s j n else j)

/-- R364: an mcopy whose bytes lie in one memory, and a fill, are done there. -/
def sameMemory (a b : Nat) : Bool :=
  match placeOf a, placeOf b with
  | .core x _, .core y _ => x = y
  | .region x _, .region y _ => x = y
  | .hbm x _, .hbm y _ => x = y
  | .tier x _, .tier y _ => x = y
  | _, _ => false

/-- R364: where one side of a segment lies: not known yet, at a physical address, or beyond this module. A translation that
is not at hand is walked for, and lines that the host holds are called back. -/
def findSide (s : State) (i : Issuer) (l : Loc) (n : Nat) (write : Bool) : State × Option (Option Nat) × Option Stop :=
  match l with
  | .phys a => (s, some (some a), none)
  | .here _ a _ => (s, some (some a), none)
  | .glob a =>
    match reach s i.unit a n write with
    | .ok p _ =>
      let held := linesHeld s a n write
      if !write && tableBroken s p n then (escalate s 0 p, none, none)
      else if held.isEmpty then (s, some (some p), none) else (snoopAll s held (!write) (bn write) (some i.unit), none, none)
    | .walk => (startWalk (lookedUp s i.unit true) i.unit a write, none, none)
    | .fault c => (s, none, some (faultStop c a))
    | .reject c => (s, none, some (.reject c))
    | .remote => (s, some none, none)
    | .dark r => (s, none, some (.halt (.dark r)))
  | _ => (s, some none, none)

/-- R364: both sides of the segments of an mcopy record, in their order; none while one is not known. -/
def findSides (s : State) (i : Issuer) : List Seg → State × Option (List (Option Nat × Option Nat)) × Option Stop
  | [] => (s, some [], none)
  | g :: rest =>
    let a := findSide s i g.src g.len false
    let b := if a.2.2.isSome then (a.1, none, a.2.2) else findSide a.1 i g.dst g.len true
    if b.2.2.isSome then (b.1, none, b.2.2)
    else
      let q := findSides b.1 i rest
      (q.1, match a.2.1, b.2.1, q.2.1 with
        | some x, some y, some l => some ((x, y) :: l)
        | _, _, _ => none, q.2.2)

/-- R364: the two sides of every segment lie in one memory. -/
def oneMemory : List (Option Nat × Option Nat) → Bool
  | [] => true
  | (some a, some b) :: rest =>
    sameMemory a b && rest.all (fun e => e.1.any (sameMemory a) && e.2.any (sameMemory a))
  | _ => false

/-- R364: a record of an mcopy: done at its memory, or, with its ends in different memories, to be moved as a record copy. -/
def mcopyRecord (s : State) (i : Issuer) (j : CopyJob) (n : Nat) : State × CopyJob × Option Stop :=
  let l := segsOf j.segs n
  if !(l.any (·.kind = 6)) then (s, j, none)
  else
    let f := findSides s i l
    match f.2.1, f.2.2 with
    | _, some x => (f.1, j, some x)
    | none, none => (f.1, j, none)
    | some sides, none =>
      if oneMemory sides then
        let t := each (l.zip sides) f.1 (fun e s => match e.2 with
          | (some a, some b) => physWrite s b (readPhys s a e.1.len) (poisonMask s.mem a e.1.len)
          | _ => s)
        (t, withSegs j n (l.map (fun g => { g with kind := 0, stage := 4 })), none)
      else (f.1, note (withSegs j n (l.map (fun g => { g with kind := 0 }))) n 4, none)

/-- R364: the segments of a fill that lie in a memory of this module are written there. -/
def fillSegs (s : State) (i : Issuer) : List Seg → State × List Seg × Option (Nat × Stop)
  | [] => (s, [], none)
  | g :: rest =>
    if g.stage ≠ 2 then
      let q := fillSegs s i rest
      (q.1, g :: q.2.1, q.2.2)
    else
      let f := findSide s i g.dst g.len true
      match f.2.2 with
      | some x => (f.1, g :: rest, some (g.recNo, x))
      | none =>
        let r := match f.2.1 with
          | some (some b) => (physWrite f.1 b g.data [], { g with stage := 4 })
          | _ => (f.1, g)
        let q := fillSegs r.1 i rest
        (q.1, r.2 :: q.2.1, q.2.2)

/-- R364: what a fill or an mcopy does at its memory. -/
def localSegs (s : State) (i : Issuer) (j : CopyJob) : State × CopyJob × Option Stop :=
  if cdForm j.desc = 5 then
    each ((List.range (j.made - j.done)).map (· + j.done)) (s, j, none) (fun n p =>
      if p.2.2.isSome || p.2.1.made ≤ n then p
      else
        let r := mcopyRecord p.1 i p.2.1 n
        match r.2.2 with
        | some x =>
          let z := stopAt r.2.1 n x
          (r.1, z.1, z.2)
        | none => r)
  else if cdForm j.desc = 4 then
    let r := fillSegs s i j.segs
    let j := { j with segs := r.2.1 }
    match r.2.2 with
    | some (n, x) =>
      let z := stopAt j n x
      (r.1, z.1, z.2)
    | none => (r.1, j, none)
  else (s, j, none)

/-- Advance the segments of a job in order. At one that is rejected, those of the records before it go on. -/
def copySegs (s : State) (i : Issuer) : List Seg → State × List Seg × Option (Nat × Stop)
  | [] => (s, [], none)
  | g :: rest =>
    let r := segStep s i g
    match r.2.2 with
    | some (.halt h) => (r.1, r.2.1 :: rest, some (g.recNo, .halt h))
    | some x =>
      let q := copySegs r.1 i rest
      (q.1, r.2.1 :: q.2.1, match q.2.2 with
        | some (m, y) => some (if m < g.recNo || (match y with | .halt _ => true | _ => false) then (m, y) else (g.recNo, x))
        | none => some (g.recNo, x))
    | none =>
      let q := copySegs r.1 i rest
      (q.1, r.2.1 :: q.2.1, q.2.2)

/-- R368: a record that is completely written. -/
def recordWritten (j : CopyJob) (n : Nat) : Bool :=
  (segsOf j.segs n).all (fun g => g.stage = 4 && (g.kind = 0 || g.kind = 4 || g.kind = 7))

/-- R368: the completed prefix. Fuel is the records in flight. -/
def prefixDone (j : CopyJob) : Nat → Nat → Nat
  | 0, n => n
  | f + 1, n => if n < j.made && recordWritten j n then prefixDone j f (n + 1) else n

/-- R368, R369: elems_done in the descriptor. -/
def writeDone (s : State) (j : CopyJob) : State := coreWrite s j.core (j.dAddr + 104) (bytesOf 8 j.done)

/-- R409: the bytes that the records of a job before one wrote. -/
def bytesMoved (j : CopyJob) (n : Nat) : Nat :=
  ((j.segs.filter (fun g => decide (g.recNo < n) && g.dst ≠ .nowhere)).map (·.len)).sum

/-- R368, R409: elems_done advances over the records that are written, and they count. -/
def retire (s : State) (j : CopyJob) : State × CopyJob :=
  let n := prefixDone j (copyWindow j.desc) j.done
  if n = j.done then (s, j)
  else
    let j' := { j with
      done := n, segs := j.segs.filter (fun g => decide (n ≤ g.recNo)), notes := j.notes.filter (fun e => decide (n ≤ e.1))
      retried := false }
    let s := bump (bump s ctrCopyRecords j.core (n - j.done)) ctrCopyBytes j.core (bytesMoved j n)
    let s := each (j.notes.filter (fun e => decide (e.1 < n))) s (fun e s =>
      let s := if 1 ≤ e.2 && e.2 ≤ 3 then bump s ctrCopyOffered j.core 1 else s
      (noteCtr e.2).elim s (fun c => bump s c j.core 1))
    (progress (writeDone s j') j.core j.slot false, j')

/-- R369: a copy that was halted takes up its records again from elems_done; those in flight that had been written in part
or in whole are rewritten. A reduce row that has been sent is not sent again, but one that was turned back (R567) is. -/
def restartJob (s : State) (j : CopyJob) : State × CopyJob :=
  let sent (n : Nat) : Bool := (segsOf j.segs n).any (·.kind = 7)
  let redone := ((List.range (j.made - j.done)).map (· + j.done)).filter (fun n =>
    !(sent n) && (segsOf j.segs n).any (fun g => g.dst ≠ .nowhere && decide (3 ≤ g.stage)))
  (bump s ctrCopyRewritten j.core redone.length, { j with
    made := j.done, segs := j.segs.filter (·.kind = 7), checks := [], ending := none
    notes := j.notes.filter (fun e => decide (8 ≤ e.2)) })

/-- One pass over a job. -/
def copyPass (s : State) (i : Issuer) (j : CopyJob) : State × CopyJob × Option Stop :=
  let j := makeAll s (copyWindow j.desc) j
  let b := localSegs s i j
  if b.2.2.isSome then b
  else
    let g := copySegs b.1 i b.2.1.segs
    let z := match g.2.2 with
      | some (n, x) => stopAt { b.2.1 with segs := g.2.1 } n x
      | none => ({ b.2.1 with segs := g.2.1 }, none)
    if z.2.isSome then (g.1, z.1, z.2)
    else
      let r := retire g.1 (expandAll g.1 ((List.range (z.1.made - z.1.done)).map (· + z.1.done)) z.1)
      (r.1, r.2, endReached r.2)

/-- R369: run a job until it waits, stops or completes. Fuel bounds the passes. -/
def copyRun (i : Issuer) : Nat → State → CopyJob → State × CopyJob × Option Stop
  | 0, s, j => (s, j, none)
  | f + 1, s, j =>
    let r := copyPass s i j
    if r.2.2.isSome || cdRecords j.desc ≤ r.2.1.done ||
       (r.2.1.done = j.done && r.2.1.made = j.made && r.2.1.ending = j.ending && segsMark r.2.1.segs = segsMark j.segs) then r
    else copyRun i f r.1 r.2.1

/-- The jobs of a unit. -/
def jobsOf (s : State) (unit : Unit) : List CopyJob :=
  match unit with
  | .coreCopy c => (coreOf s c).copies
  | .hubCopy h => (hubOf s h).copies
  | _ => []

/-- Replace them. -/
def setJobs (s : State) (unit : Unit) (l : List CopyJob) : State :=
  match unit with
  | .coreCopy c => setCore s c { coreOf s c with copies := l }
  | .hubCopy h => setHub s h { hubOf s h with copies := l }
  | _ => s

/-- The same job. -/
def sameJob (a b : CopyJob) : Bool := a.core = b.core && a.slot = b.slot && a.step = b.step

/-- The HBM frames in use in a stack: what leaves, override entries and migrations name, as (address, bytes). -/
def framesUsed (s : State) (stack : Nat) : List (Nat × Nat) :=
  ((s.xlat.leaves ++ s.xlat.overrides ++ s.xlat.migrating.map (·.target)).filter (fun l =>
    !(ptTier l.entry.toNat) && ptLoc l.entry.toNat = stack)).map (fun l => (ptFrame l.entry.toNat, pageBytes l.size)) ++
  (s.caps.pagesOut.filter (fun p => p / 2 ^ 21 = stack)).map (fun p => (p % 2 ^ 21 * 2 ^ 16, 2 ^ 16))

/-- R491: the lowest free frame of a size in a stack. -/
def frameIn (s : State) (stack size : Nat) : Option Nat :=
  let n := pageBytes size
  let used := framesUsed s stack
  let top := reservedBase s
  (0 :: used.map (fun u => roundUp (u.1 + u.2) n)).foldl (fun best a =>
    if a + n ≤ top && !(used.any (fun u => overlaps a n u.1 u.2)) && best.all (fun b => decide (a < b)) then some a else best) none

/-- R491 step 1: an HBM page of a leaf's size in a slice's stacks. -/
def freeFrame (s : State) (h size : Nat) : Option (Nat × Nat) :=
  let stacks_ := ((look? s.slices h).elim [] (·.regions)).flatMap regionStacks
  (stacks_.filterMap (fun k =>
    if s.caps.stacksOut.contains k || shedOf s (regionOfStack k) = .dark then none
    else (frameIn s k size).map (fun a => (k, a)))).head?

/-- R488, R491: a fault of cause 0x83 joins or begins its page's migration; with no page free it is cause 0x86. -/
def resolveStop (s : State) (unit : Unit) (x : Stop) : State × Stop :=
  match x with
  | .halt (.migrating a) =>
    match lookupLeaf s unit (gaSpace a) (gaOff a) with
    | none => (s, x)
    | some l =>
      let t := bump s (ctrRegionFaults.plus 2) (unitRegion unit) 1
      if t.xlat.migrating.any (fun m => m.leaf = l) then
        let join (m : Migration) : Migration := { m with waiting := if m.waiting.contains unit then m.waiting else m.waiting ++ [unit] }
        ({ t with xlat := { t.xlat with migrating := onFirst (fun m => decide (m.leaf = l)) join t.xlat.migrating } }, x)
      else
        let h := (windowOf s l.space l.off).elim 0 (·.owner)
        match freeFrame s h l.size with
        | none => (s, .halt (.fault 0x86 a))
        | some (k, frame) =>
          let e := l.entry.toNat
          let target := { l with entry := mkLeaf (ptWrite e) (ptShared e) false false k frame }
          let m : Migration := { leaf := l, target := target, waiting := [unit], owner := h }
          ({ t with xlat := { t.xlat with migrating := t.xlat.migrating ++ [m] } }, x)
  | _ => (s, x)

/-- R688, R676: the class of a unit as `ctx.status` names it. -/
def unitClass : Unit → Nat
  | .stream _ _ _ => 7
  | .merge _ => 5
  | .hubCopy _ => 5
  | _ => 6

/-- R490, R492: the fault of a halted unit is not resolved: its slot is FAULTED, and `ctx.status` tells of it. The unit
is a class of R676. -/
def unitFault (s : State) (c k step cause addr cls : Nat) : State :=
  let s := bump s (ctrRegionFaults.plus (cause - 0x81)) (regionOf c) 1
  settleCore (noteFault (rejectStep s c k step cause c 0 0) c k cause cls addr) c

/-- What a stopped job does to its slot. -/
def stopCopy (s : State) (unit : Unit) (j : CopyJob) (x : Stop) : State :=
  let z := resolveStop s unit x
  let s := z.1
  let x := z.2
  let keep_ (h : Halt) : State := setJobs s unit (onFirst (fun k => sameJob k j) (fun _ => { j with halt := some h }) (jobsOf s unit))
  let drop_ : State := setJobs s unit ((jobsOf s unit).eraseP (fun k => sameJob k j))
  match x with
  | .halt (.fault cause a) => unitFault (keep_ (.fault cause a)) j.core j.slot j.step cause a (unitClass unit)
  | .halt h => reportProgress (keep_ h) j.core j.slot false
  | .reject cause =>
    settleCore (noteFault (rejectStep drop_ j.core j.slot j.step cause j.core 0 0) j.core j.slot cause (unitClass unit) 0) j.core
  | .poison =>
    let s := consumePoison drop_ j.core j.slot j.step (if gaSpace (cdIdx j.desc) % 2 = 0 && cdIdxSel j.desc = 0 then 4 else 2)
    settleCore (noteFault s j.core j.slot 0x8F (unitClass unit) 0) j.core

/-- R742: a copy within the core's own memory, which a twin makes itself. -/
def copyInside (d : BitVec 1024) : Bool := cdDstSel d = 1 && (cdSrcSel d = 1 || cdForm d = 4)

/-- R367: a finished job completes its step. -/
def finishCopy (s : State) (unit : Unit) (j : CopyJob) : State :=
  let t := setJobs s unit ((jobsOf s unit).eraseP (fun k => sameJob k j))
  let t := bump t ctrCopySteps j.core 1
  let t := completeStep t j.core j.slot j.step
  let t := if copyInside j.desc then t else forwardStep t j.core j.slot j.step
  settleCore t j.core

/-- A unit may go on: its core or its hub's region runs and the group is not held. -/
def jobRuns (s : State) (j : CopyJob) : Bool := j.halt.isNone && coreRuns s j.core

/-- Run one job of a unit. -/
def pumpJob (s : State) (unit : Unit) (j : CopyJob) : State :=
  if !jobRuns s j then s
  else
    let i : Issuer := { unit := unit, core := j.core, slot := j.slot, step := j.step }
    let r := copyRun i (cdRecords j.desc * 4 + 64) s j
    let t := setJobs r.1 unit (onFirst (fun k => sameJob k j) (fun _ => r.2.1) (jobsOf r.1 unit))
    match r.2.2 with
    | some x => stopCopy t unit r.2.1 x
    | none => if cdRecords j.desc ≤ r.2.1.done then finishCopy t unit r.2.1 else t

/-- R736: standard or full, for the slice that a unit serves. -/
def unitChecked (s : State) (unit : Unit) : Bool :=
  match unit with
  | .fabric => s.sup.checkDefault ≠ 0
  | .hostPort => s.sup.checkDefault ≠ 0
  | .furelo => s.sup.checkDefault ≠ 0
  | _ => (sliceOfRegion s (unitRegion unit)).elim (s.sup.checkDefault ≠ 0) (fun h => (look? s.slices h).any (fun l => l.mode ≠ 0))

/-- R736, R714: the two address generators of a unit have differed: a detection of class 0x0A at the unit. -/
def addressFault (s : State) (unit : Unit) (hard : Bool) : State :=
  match unit with
  | .coreCopy c => detectAt s (elCore c) 0xA 6 c hard
  | .stream c _ _ => detectAt s (elCore c) 0xA 6 c hard
  | .hubCopy h => detectAt s (elHub h) 0xA 5 h hard
  | .merge h => detectAt s (elHub h) 0xA 5 h hard
  | _ => detectAt s (elCtrl (unitRegion unit)) 0xA 9 (unitRegion unit) hard

/-- R736: the two address generators of a copy engine differ before an access of the first job that it would run: the fault
is recorded, the record is not written, and the next pass tries it once more; a second difference is hard. -/
def copyUpset (s : State) (unit : Unit) : Option State :=
  ((jobsOf s unit).find? (fun j => jobRuns s j && checked s j.core)).map (fun j =>
    let s := bump (addressFault s unit j.retried) ctrCopyAddrMismatch j.core 1
    let j' := if j.retried then { j with halt := some .fence } else { j with retried := true }
    setJobs s unit (onFirst (sameJob j) (fun _ => j') (jobsOf s unit)))

/-- R517: an uncorrectable error in a cached translation of a unit: the entry is discarded, and the table is consulted again. -/
def dropCached (s : State) (unit : Unit) (i : Nat) : State :=
  match (s.xlat.cache.filter (fun e => e.unit = cacheOf unit))[i]? with
  | none => s
  | some e =>
    bump { s with xlat := { s.xlat with cache := s.xlat.cache.erase e } } ((xlatCounter unit).1.plus 2) (xlatCounter unit).2 1

/-- R736, R517: a unit goes on after what it met before an access. `halt` is what an address mismatch does to it; none when
it has nothing to halt, or is not checked. -/
def onUpset (s : State) (unit : Unit) (u : Upset) (halt : State → Option State) (go : State → State) : State :=
  match u with
  | .none => go s
  | .address => (halt s).getD (go s)
  | .cached i => go (dropCached s unit i)

/-- R369: the jobs of a copy engine that satisfy p take up their records again from elems_done. -/
def restartJobs (s : State) (unit : Unit) (p : CopyJob → Bool) : State :=
  each ((jobsOf s unit).filter p) s (fun j s =>
    let r := restartJob s j
    setJobs r.1 unit (onFirst (sameJob j) (fun _ => r.2) (jobsOf r.1 unit)))

/-- Run every job of a copy engine, in the order they arrived. -/
def pumpCopies (s : State) (unit : Unit) : State := each (jobsOf s unit) s (fun j s =>
  match (jobsOf s unit).find? (sameJob j) with
  | some k => pumpJob s unit k
  | none => s)

end Sys2Proof.Machine
end

