-- ==== Sys2Proof/Machine/Streams.lean ====
section
/-! DEFINITION. Streams: what they fetch, the shares of loads they write into operand buffers, the rows they exchange
with the vector unit, marks, rewinds and handles (07_memories.md). -/

namespace Sys2Proof.Machine

/-- The unit number of a stream's counters. -/
def strmUnit (c k n : Nat) : Nat := (c * 4 + k) * 16 + n

/-- Replace a stream. -/
def setStrm (s : State) (c k n : Nat) (t : Stream) : State := onSlot s c k (fun v => { v with strms := put v.strms n t })

/-! ## Shares of a load, R374, R375, R380 -/

/-- Bytes with their poison. -/
abbrev Tainted := List (Byte × Bool)

/-- n bytes from an offset within a field of `len` bytes at `base`, padded beyond it. -/
def span (g : Nat → Byte × Bool) (base len off n : Nat) (pad : Byte) : Tainted :=
  (List.range n).map (fun i => if off + i < len then g (base + off + i) else (pad, false))

/-- n equal clean bytes. -/
def fillTainted (n : Nat) (b : Byte) : Tainted := List.replicate n (b, false)

/-- R348, R349: bytes of a row field, and of the scale bytes of a band. -/
def rowBytes (fmt cols : Nat) : Nat := cols * fmtBits fmt / 8
/-- R349. -/
def scaleBytes (fmt cols : Nat) : Nat := if fmtScaled fmt then roundUp cols 8 else 0

/-- R348, R349: where row r of a dense payload begins. -/
def rowAt (fmt cols r : Nat) : Nat :=
  if fmtScaled fmt then r / 32 * (scaleBytes fmt cols + 32 * rowBytes fmt cols) + scaleBytes fmt cols + r % 32 * rowBytes fmt cols
  else r * rowBytes fmt cols

/-- R374, R375: the elements and the scales of a dense load: `blocks` × 32 rows from row r0, 64 columns from 64 × col0. -/
def denseShare (g : Nat → Byte × Bool) (fmt rows cols blocks r0 col0 : Nat) : Tainted × Tainted :=
  let w := fmtBits fmt
  (((List.range (32 * blocks)).map (fun i =>
      if r0 + i < rows then span g (rowAt fmt cols (r0 + i)) (rowBytes fmt cols) (8 * w * col0) (8 * w) 0
      else fillTainted (8 * w) 0)).flatten,
   if fmtScaled fmt then ((List.range blocks).map (fun b =>
      if r0 + 32 * b < rows then
        span g ((r0 + 32 * b) / 32 * (scaleBytes fmt cols + 32 * rowBytes fmt cols)) cols (64 * col0) 64 0x7F
      else fillTainted 64 0x7F)).flatten
   else [])

/-- R189: bytes of one 32-row block of a group-coded payload, and where its group begins. -/
def gcBlock (fmt cols : Nat) : Nat :=
  (if fmtScaled fmt then cols else 0) + 2 * (ceilDiv cols 2 + 4 * cols + fmtBits fmt * cols)
/-- R189. -/
def gcGroupAt (fmt cols i : Nat) : Nat :=
  i / 2 * gcBlock fmt cols + (if fmtScaled fmt then cols else 0) + i % 2 * (ceilDiv cols 2 + 4 * cols + fmtBits fmt * cols)

/-- R184, R374, R375: the slot values, position words, counts and scales of a group-coded load. -/
def gcShare (g : Nat → Byte × Bool) (fmt rows cols blocks r0 col0 : Nat) : Tainted × Tainted × Tainted × Tainted :=
  let w := fmtBits fmt
  let cb := ceilDiv cols 2
  let groups := (List.range (2 * blocks)).map (fun i => (r0 / 16 + i, decide (r0 + 16 * i < rows)))
  ((groups.map (fun p =>
      if p.2 then span g (gcGroupAt fmt cols p.1 + cb + 4 * cols) (w * cols) (64 * w * col0) (64 * w) 0
      else fillTainted (64 * w) 0)).flatten,
   (groups.map (fun p =>
      if p.2 then span g (gcGroupAt fmt cols p.1 + cb) (4 * cols) (256 * col0) 256 0 else fillTainted 256 0)).flatten,
   (groups.map (fun p =>
      if p.2 then span g (gcGroupAt fmt cols p.1) cb (32 * col0) 32 0 else fillTainted 32 0)).flatten,
   if fmtScaled fmt then ((List.range blocks).map (fun b =>
      if r0 + 32 * b < rows then span g ((r0 + 32 * b) / 32 * gcBlock fmt cols) cols (64 * col0) 64 0x7F
      else fillTainted 64 0x7F)).flatten
   else [])

/-- R374: the payload bytes that hold a load's rows: first byte and number. -/
def loadRange (h blocks r0 : Nat) : Nat × Nat :=
  let fmt := thFmt h
  let hi := min (thRows h) (r0 + 32 * blocks)
  if hi ≤ r0 then (0, 0)
  else if thGc h then (r0 / 32 * gcBlock fmt (thCols h), (ceilDiv hi 32 - r0 / 32) * gcBlock fmt (thCols h))
  else if fmtScaled fmt then
    let band := scaleBytes fmt (thCols h) + 32 * rowBytes fmt (thCols h)
    (r0 / 32 * band, (ceilDiv hi 32 - r0 / 32) * band)
  else (r0 * rowBytes fmt (thCols h), (hi - r0) * rowBytes fmt (thCols h))

/-- R354: the payload bytes of a tile that the rows of its walk from r0 on do not need. -/
def extraBytes (h blocks r0 col0 : Nat) : Nat :=
  let rows := min (thRows h) (r0 + 32 * blocks) - r0
  let cols := min (thCols h) (64 * col0 + 64) - 64 * col0
  let w := fmtBits (thFmt h)
  let used := if thGc h then ceilDiv rows 32 * ((if fmtScaled (thFmt h) then cols else 0) + 2 * (ceilDiv cols 2 + (4 + w) * cols))
    else rows * cols * w / 8 + (if fmtScaled (thFmt h) then ceilDiv rows 32 * cols else 0)
  thBytes h - used

/-- R125, R184: the parts of a load that a stream supplies, in order: elements and scales, or for a group-coded tile slot
values, position words, counts and scales. -/
def loadParts (g : Nat → Byte × Bool) (h blocks r0 col0 : Nat) : List Tainted :=
  if thGc h then
    let p := gcShare g (thFmt h) (thRows h) (thCols h) blocks r0 col0
    [p.1, p.2.1, p.2.2.1, p.2.2.2]
  else
    let p := denseShare g (thFmt h) (thRows h) (thCols h) blocks r0 col0
    [p.1, p.2]

/-- The bytes of those parts. -/
def partSizes (fmt blocks : Nat) (gc : Bool) : List Nat :=
  let w := fmtBits fmt
  let k := 32 * blocks
  let scales := if fmtScaled fmt then 64 * blocks else 0
  if gc then [4 * w * k, 16 * k, 2 * k, scales] else [8 * w * k, scales]

/-- A list cut into parts of given lengths. -/
def splitBy {α : Type} : List Nat → List α → List (List α)
  | [], _ => []
  | n :: ns, l => l.take n :: splitBy ns (l.drop n)

/-- R125, R184, R377: where the parts of a load lie in a half, for the plan's formats and the coding of the B operand. -/
def partOffsets (fa fb blocks role : Nat) (gc : Bool) : List Nat :=
  let k := 32 * blocks
  let b := 8 * fmtBits fa * k
  let body := if gc then (4 * fmtBits fb + 18) * k else 8 * fmtBits fb * k
  let scalesA := if fmtScaled fa then 64 * blocks else 0
  if role = 0 then [0, b + body]
  else if gc then [b, b + 4 * fmtBits fb * k, b + (4 * fmtBits fb + 16) * k, b + body + scalesA]
  else [b, b + body + scalesA]

/-! ## Engines' halves -/

/-- A half of an engine. -/
def halfOf (e : Engine) (i : Nat) : Half := if i = 0 then e.half0 else e.half1
/-- Replace it. -/
def setHalf (e : Engine) (i : Nat) (h : Half) : Engine := if i = 0 then { e with half0 := h } else { e with half1 := h }
/-- R126: a load begun in the engine's next half ends unused: the half is empty, and the next load takes the other one. -/
def endLoad (e : Engine) : Engine :=
  let h := halfOf e e.nextHalf
  if (h.aDone || h.bDone) && !h.held then { setHalf e e.nextHalf .fresh with nextHalf := 1 - e.nextHalf } else e

/-- The tile of an engine. -/
def tileOf (e : Engine) (i : Nat) : TileBuf := if i = 0 then e.tile0 else e.tile1
/-- Replace it. -/
def setTile (e : Engine) (i : Nat) (t : TileBuf) : Engine := if i = 0 then { e with tile0 := t } else { e with tile1 := t }
/-- R123: bytes of a half. -/
def halfBytes : Nat := 98304
/-- R188: bytes of the largest load: 1,440 K-steps of a 4-bit group-coded one, beyond a half (log entry 104). -/
def gcLoadMost : Nat := 100800

/-- The load an engine takes next: a rewound one, or the waiting descriptor's. -/
def wantedLoad (e : Engine) : Option (Used × Accepted) :=
  match e.acc with
  | none => none
  | some a =>
    if a.pending ≠ 0 then (a.used[a.used.length - a.pending]?).map (fun u => (u, a.first))
    else e.waiting.bind (fun w =>
      if e.ended || sdOpcode w.desc = 4 then none
      else some ({ op := sdOpcode w.desc, a := sdAStream w.desc, b := sdBStream w.desc, k := sdKBlocks w.desc }, w))

/-- Whether the load an engine takes next has a B operand that may be group-coded: `mma.gc`, or a pass with gc_b. -/
def wantsGc (u : Used) (w : Accepted) : Bool := u.op = 2 || (u.op = 3 && suGc (sdEpi w.desc))

/-- R125, R184: write a part of a load into half i of an engine, with its words' poison (R509, R511); what lies beyond the half
goes beside it. -/
def writeShare (s : State) (id i off : Nat) (l : Tainted) : State :=
  let e := engOf s id
  let h := halfOf e i
  let inside := l.take (halfBytes - off)
  let beyond := (l.drop (halfBytes - off)).zipIdx
  setEng { s with mem := writePoison s.mem (bufPhys id (i * halfBytes + off)) (inside.map (·.1)) (wordMask (inside.map (·.2))) } id
    (setHalf e i { h with spare := beyond.foldl (fun t b => put t (off - halfBytes + b.2) b.1.1) h.spare })

/-! ## Positions, R373, R374, R391, R395 -/

/-- R359, R374: the address of the tile header of load n, and its first row. -/
def loadAddr (d : BitVec 1024) (n : Nat) : Nat × Nat :=
  let i := recIndex (stCount d 0) (stCount d 1) (stCount d 2) n
  (strided (stBase d) [i.2.1 * stStride d 1, i.2.2.1 * stStride d 2, i.2.2.2 * stStride d 3], i.1 * 32 * stBlocks d)

/-- Bytes of a vector stream's element. -/
def elemBytes (d : BitVec 1024) : Nat := fmtBits (stFmt d) / 8
/-- R395: elements that a staging slot of 4,096 bytes holds. -/
def slotElems (d : BitVec 1024) : Nat := 4096 / max 1 (elemBytes d)
/-- R395: the slots of a row. -/
def rowSlots (d : BitVec 1024) : Nat := max 1 (ceilDiv (stRowLen d) (slotElems d))
/-- R373: positions of a stream: loads, or slots of rows. -/
def strmLength (d : BitVec 1024) : Nat := if stForm d = 0 then stLoads d else stRowCount d * rowSlots d
/-- The row of a slot. -/
def slotRow (d : BitVec 1024) (pos : Nat) : Nat := pos / rowSlots d
/-- R391: i2 of a slot's row. -/
def rowI2 (d : BitVec 1024) (pos : Nat) : Nat := slotRow d pos % stCount d 2
/-- R391: i3 of a slot's row. -/
def rowI3 (d : BitVec 1024) (pos : Nat) : Nat := slotRow d pos / stCount d 2
/-- The first element of a slot in its row. -/
def slotFrom (d : BitVec 1024) (pos : Nat) : Nat := pos % rowSlots d * slotElems d
/-- The end of a slot's elements in its row. -/
def slotTo (d : BitVec 1024) (pos : Nat) : Nat := min (stRowLen d) (slotFrom d pos + slotElems d)
/-- The segments of the row that a slot touches. -/
def slotSegs (d : BitVec 1024) (pos : Nat) : List Nat :=
  let lo := slotFrom d pos / stCount d 0
  (List.range ((slotTo d pos - 1) / stCount d 0 - lo + 1)).map (· + lo)
/-- The elements of segment j in a slot: the first one's number in the segment, and how many. -/
def slotPart (d : BitVec 1024) (pos j : Nat) : Nat × Nat :=
  let lo := max (slotFrom d pos) (j * stCount d 0)
  (lo - j * stCount d 0, min (slotTo d pos) ((j + 1) * stCount d 0) - lo)
/-- R396: the elements completed when the positions before this one are. -/
def strmElems (d : BitVec 1024) (pos : Nat) : Nat :=
  if stForm d = 0 then pos * (64 * 32 * stBlocks d) else slotRow d pos * stRowLen d + slotFrom d pos
/-- R396: the position that a number of elements completed stands for. -/
def elemsPos (d : BitVec 1024) (n : Nat) : Nat :=
  if stForm d = 0 then n / (64 * 32 * max 1 (stBlocks d))
  else n / max 1 (stRowLen d) * rowSlots d + n % max 1 (stRowLen d) / slotElems d

/-- R391, R392: the header address of segment j of a vector row with outer coordinate i3 (or its index). -/
def segAddr (d : BitVec 1024) (j i3 : Nat) : Nat := strided (stBase d) [j * stStride d 1, i3 * stStride d 3]
/-- R391: the payload offset of element e of row coordinate i2. -/
def elemOff (d : BitVec 1024) (i2 e : Nat) : Int := i2 * stStride d 2 + e * stStride d 0

/-! ## Staging, R380, R381, R395 -/

/-- R380, R381, R395: a stream stages but with sel 1 or 4. -/
def stages (d : BitVec 1024) : Bool := stSel d = 0 || stSel d = 2 || stSel d = 3
/-- R380, R395: bytes of a staging slot. -/
def stageSlot (d : BitVec 1024) : Nat :=
  if stForm d = 0 then 32 * stBlocks d * (8 * fmtBits (stFmt d) + 2 * bn (fmtScaled (stFmt d))) else 4096
/-- The staging slot of a position: the slots in turn (DESIGN CHOICE, log entry 106). -/
def stageAt (d : BitVec 1024) (pos : Nat) : Nat := stStage d + pos % (stDepth d + 1) * stageSlot d
/-- The bytes of a chunk that its staging slot holds. -/
def stageRoom (d : BitVec 1024) : Nat := if stages d then stageSlot d else 0

/-- A chunk's bytes are at hand: they go into its staging slot, as far as that holds them. -/
def stageChunk (s : State) (c : Nat) (d : BitVec 1024) (ch : Chunk) (head data : Tainted) : State × Chunk :=
  let l := data.take (stageRoom d)
  let s := if l.isEmpty then s else
    { s with mem := writePoison s.mem (corePhys c (stageAt d ch.pos)) (l.map (·.1)) (wordMask (l.map (·.2))) }
  (s, { ch with head := head, rest := data.drop (stageRoom d), full := true, segs := ch.segs.filter (·.kind = 3) })

/-- The first n bytes of a chunk that has been staged. -/
def chunkData (s : State) (c : Nat) (d : BitVec 1024) (ch : Chunk) (n : Nat) : Tainted :=
  let a := corePhys c (stageAt d ch.pos)
  ((List.range (min n (stageRoom d))).map (fun i => (readByte s.mem.cells (a + i), poisoned s.mem (a + i) 1)) ++ ch.rest).take n

/-! ## What a chunk reads -/

/-- A chunk as begun. -/
def mkChunk (pos : Nat) (segs : List Seg) : Chunk :=
  { pos := pos, head := [], bad := none, segs := segs, full := false, rest := [], headed := false, closing := false }

/-- A chunk that cannot be delivered. -/
def Chunk.fail (ch : Chunk) (cause : Nat) : Chunk := { ch with bad := some cause, full := true }

/-- R382: a stream whose tiles are drawn from a lane or a handle queue. -/
def draws (d : BitVec 1024) : Bool := stSel d = 3 || stSel d = 4

/-- A new chunk and its first segments. -/
def beginChunk (s : State) (c : Nat) (v : Slot) (t : Stream) (pos : Nat) : Chunk :=
  let d := t.desc
  let read (x : Loc ⊕ Nat) (kind n : Nat) : Chunk := match x with
    | .inr cause => (mkChunk pos []).fail cause
    | .inl l => mkChunk pos [mkSeg 0 kind 0 l .nowhere n]
  if stForm d ≠ 0 && stIndexed d then read (selLoc s c v 0 0 (stIdx d + 4 * rowI3 d pos) 4) 3 4
  else if stForm d = 0 && !(draws d) then read (selLoc s c v (stSel d) (stNb d) (loadAddr d pos).1 32) 1 32
  else mkChunk pos []

/-- The read segments of a range at a selected address. -/
def readSegs (s : State) (c : Nat) (v : Slot) (d : BitVec 1024) (rec_ kind off a n : Nat) : List Seg ⊕ Nat :=
  match selLoc s c v (stSel d) (stNb d) a n with
  | .inr x => .inr x
  | .inl l => .inl ((sideCuts s l l.low n).map (fun p => mkSeg rec_ kind (off + p.1) (l.plus p.1) .nowhere p.2))

/-- Join the segments of several parts. -/
def joinSegs : List (List Seg ⊕ Nat) → List Seg ⊕ Nat
  | [] => .inl []
  | .inr x :: _ => .inr x
  | .inl l :: rest =>
    match joinSegs rest with
    | .inr x => .inr x
    | .inl r => .inl (l ++ r)

/-- R193, R351, R379, R381: why a stream cannot use a tile with this header, when it cannot. -/
def headCause (d : BitVec 1024) (h : Nat) : Option Nat :=
  if thGc h && thGcDense h then some 0x27
  else if !(thUsable h) || thKind h ≠ 1 || thFmt h ≠ stFmt d || (stForm d ≠ 0 && thGc h) ||
    (stForm d = 0 && stSel d = 3 && (decide (64 < thCols h) || stCol0 d ≠ 0)) then some 0x66
  else none

/-- R391: the reads of a slot's elements of segment j. -/
def rowSegs (s : State) (c : Nat) (v : Slot) (d : BitVec 1024) (pos j i3 payload : Nat) : List Seg ⊕ Nat :=
  let ew := elemBytes d
  let p := slotPart d pos j
  let i2 := rowI2 d pos
  let inside (e : Nat) : Bool := decide (0 ≤ elemOff d i2 e) && decide (elemOff d i2 e + ew ≤ payload)
  let off (e : Nat) : Nat := (j * stCount d 0 + e - slotFrom d pos) * ew
  if !(inside p.1 && inside (p.1 + p.2 - 1)) then .inr 0x66
  else
    let a (e : Nat) : Nat := ((segAddr d j i3 + 32 : Int) + elemOff d i2 e).toNat
    if stStride d 0 = ew then readSegs s c v d j 2 (off p.1) (a p.1) (p.2 * ew)
    else joinSegs ((List.range p.2).map (fun e => readSegs s c v d j 2 (off (p.1 + e)) (a (p.1 + e)) ew))

/-- The header of tile j of a chunk. -/
def chunkHead (ch : Chunk) (j : Nat) : Nat := natOf (gathered (ch.segs.filter (·.recNo = j)) 1)

/-- R392: the index a chunk has read. -/
def chunkIdx (ch : Chunk) : Nat := natOf (gathered ch.segs 3)

/-- R392: the outer coordinate of a vector chunk. -/
def chunkI3 (d : BitVec 1024) (ch : Chunk) : Nat := if stIndexed d then chunkIdx ch else rowI3 d ch.pos

/-- R392: a row that is dropped. -/
def chunkDropped (d : BitVec 1024) (ch : Chunk) : Bool := stForm d ≠ 0 && stIndexed d && decide (stLimit d ≤ chunkIdx ch)

/-- R361: the index that a chunk has read is poisoned. -/
def indexPoison (ch : Chunk) : Bool := ch.segs.any (fun g => g.kind = 3 && g.poison.any id)

/-- R354: a chunk is the first of the walk to read a part of tile j, whose check is then verified. -/
def verifies (t : Stream) (pos j : Nat) : Bool :=
  let d := t.desc
  if stForm d = 0 then pos % stCount d 0 = 0 || pos = t.since
  else ((slotPart d pos j).1 = 0 || pos = t.since) && (rowI2 d pos = 0 || slotRow d pos = slotRow d t.since)

/-- R354: the bytes of a vector in-stream's tiles that its walk reads, from a row's i2 on. -/
def walkBytes (d : BitVec 1024) (i2 : Nat) : Nat :=
  ((List.range (stCount d 2 - i2)).flatMap (fun r => (List.range (stCount d 0)).map (fun e =>
    elemOff d (i2 + r) e))).eraseDups.length * elemBytes d

/-- A chunk whose last segments have been read goes on to its next ones. -/
def growRead (s : State) (c : Nat) (v : Slot) (t : Stream) (ch : Chunk) : Chunk :=
  let d := t.desc
  let add (x : List Seg ⊕ Nat) (last : Bool) : Chunk := match x with
    | .inr cause => ch.fail cause
    | .inl l => { ch with segs := ch.segs ++ l, headed := last }
  let whole (j a h : Nat) : List Seg ⊕ Nat :=
    if checked s c && verifies t ch.pos j then readSegs s c v d j 5 0 (a + 32) (thBytes h) else .inl []
  if ch.full || ch.headed || !(ch.segs.all (·.stage = 4)) then ch
  else if indexPoison ch then ch.fail 0x8F
  else if draws d || chunkDropped d ch then { ch with headed := true }
  else if stForm d = 0 then
    let h := chunkHead ch 0
    match headCause d h with
    | some x => ch.fail x
    | none =>
      let a := loadAddr d ch.pos
      let r := loadRange h (stBlocks d) a.2
      add (joinSegs [readSegs s c v d 0 2 r.1 (a.1 + 32 + r.1) r.2, whole 0 a.1 h]) true
  else if !(ch.segs.any (·.kind = 1)) then
    add (joinSegs ((slotSegs d ch.pos).map (fun j => readSegs s c v d j 1 (32 * j) (segAddr d j (chunkI3 d ch)) 32))) false
  else
    match (slotSegs d ch.pos).findSome? (fun j => headCause d (chunkHead ch j)) with
    | some x => ch.fail x
    | none =>
      add (joinSegs ((slotSegs d ch.pos).map (fun j =>
        joinSegs [rowSegs s c v d ch.pos j (chunkI3 d ch) (thBytes (chunkHead ch j)),
          whole j (segAddr d j (chunkI3 d ch)) (chunkHead ch j)]))) true

/-- Bytes of a record's segments of a kind with their poison. -/
def gatheredTaint (l : List Seg) (kind : Nat) : Tainted := (gathered l kind).zip (gatheredPoison l kind)

/-- R354: the tiles whose checks a chunk that has been read adds, with the bytes read for the check alone. -/
def chunkChecks (t : Stream) (ch : Chunk) : List (Bool × Nat) :=
  let d := t.desc
  (ch.segs.filter (fun g => g.kind = 1 && ch.segs.any (fun x => x.kind = 5 && x.recNo = g.recNo))).map (fun g =>
    let h := natOf g.data
    (checkBad g.data (gathered (ch.segs.filter (·.recNo = g.recNo)) 5),
     if stForm d = 0 then extraBytes h (stBlocks d * (stCount d 0 - ch.pos % stCount d 0)) (loadAddr d ch.pos).2 (stCol0 d)
     else thBytes h - walkBytes d (rowI2 d ch.pos)))

/-- The header and the bytes of a chunk whose segments have been read. Poison in a vector row's header taints the row. -/
def chunkRead (d : BitVec 1024) (ch : Chunk) : Tainted × Tainted :=
  let head := gatheredTaint ch.segs 1
  let body := ch.segs.filter (·.kind = 2)
  if chunkDropped d ch then ([], fillTainted ((slotTo d ch.pos - slotFrom d ch.pos) * elemBytes d) 0)
  else if stForm d = 0 then
    let h := natOf (head.map (·.1))
    let lo := (body.head?.map (·.off)).getD 0
    let bytes := gathered body 2
    let pois := gatheredPoison body 2
    (head, (loadParts (fun o => (bytes.getD (o - lo) 0, pois.getD (o - lo) false)) h (stBlocks d) (loadAddr d ch.pos).2 (stCol0 d)).flatten)
  else
    let bad := head.any (·.2) || (ch.segs.filter (·.kind = 1)).any (fun g => thPoison (natOf g.data))
    ([], (gatheredTaint body 2).map (fun b => (b.1, b.2 || bad)))

/-! ## Drawing tiles from a lane or from handles' buffers, R381, R382 -/

/-- The number a drawn tile's first 32 bytes spell. -/
def drawnHead (x : Tainted) : Nat := natOf ((x.take 32).map (·.1))

/-- A whole tile has been drawn. -/
def drawnWhole (x : Tainted) : Bool := decide (32 ≤ x.length) && decide (32 + thBytes (drawnHead x) ≤ x.length)

/-- R374, R391: the tiles that a group of positions draws: one for the loads of a tile, or one for each segment of the rows
that share i3. -/
def groupTiles (d : BitVec 1024) : Nat := if stForm d = 0 then 1 else stCount d 1
/-- R381, R382: the positions of such a group. -/
def groupSize (d : BitVec 1024) : Nat :=
  if stForm d ≠ 0 then stCount d 2 * rowSlots d else if stSel d = 3 then stCount d 0 else 1
/-- The first position of a group. -/
def groupFirst (d : BitVec 1024) (pos : Nat) : Nat := pos / groupSize d * groupSize d
/-- A group's last position. -/
def groupEnds (d : BitVec 1024) (pos : Nat) : Bool := (pos + 1) % groupSize d = 0

/-- R381: bytes of drawn tile j that a position needs, the whole tile for its group's last. -/
def drawnNeeds (d : BitVec 1024) (pos j h : Nat) : Nat :=
  if groupEnds d pos then 32 + thBytes h
  else if stForm d = 0 then
    let r := loadRange h (stBlocks d) (loadAddr d pos).2
    32 + r.1 + r.2
  else
    let p := slotPart d pos j
    if p.2 = 0 then 0
    else 32 + (max (elemOff d (rowI2 d pos) p.1) (elemOff d (rowI2 d pos) (p.1 + p.2 - 1)) + elemBytes d).toNat

/-- R351, R381, R391: why a tile that has been drawn cannot serve a position, when it cannot: its header, a payload larger
than its buffer, or an element outside its payload. -/
def drawnBad (v : Slot) (d : BitVec 1024) (pos : Nat) (drawn : List Tainted) : Option Nat :=
  drawn.zipIdx.findSome? (fun e =>
    let h := drawnHead e.1
    if e.1.length < 32 then none
    else if (headCause d h).isSome then headCause d h
    else if stSel d = 4 && decide (hqBytes (imHq v.image (stHq d)) < 32 + thBytes h) then some 0x66
    else if stForm d ≠ 0 && 0 < (slotPart d pos e.2).2 &&
      (decide (32 + thBytes h < drawnNeeds d pos e.2 h) || decide (elemOff d (rowI2 d pos) (slotPart d pos e.2).1 < 0) ||
       decide (elemOff d (rowI2 d pos) ((slotPart d pos e.2).1 + (slotPart d pos e.2).2 - 1) < 0)) then some 0x66
    else none)

/-- What a position needs has been drawn. -/
def drawnEnough (d : BitVec 1024) (pos : Nat) (drawn : List Tainted) : Bool :=
  (List.range (groupTiles d)).all (fun j => match drawn[j]? with
    | none => stForm d ≠ 0 && !(groupEnds d pos) && (slotPart d pos j).2 = 0
    | some x => decide (32 ≤ x.length) && decide (drawnNeeds d pos j (drawnHead x) ≤ x.length))

/-- Poison by byte from poison by 8-byte word. -/
def byteMask (n : Nat) (mask : List Bool) : List Bool := (List.range n).map (fun b => mask.getD (b / 8) false)

/-- More bytes join the tile being drawn, or begin the next one. -/
def joinDrawn (l : List Tainted) (more : Tainted) : List Tainted :=
  match l.reverse with
  | x :: rest => if drawnWhole x then l ++ [more] else ((x ++ more) :: rest).reverse
  | [] => [more]

/-- R354: a drawn tile is checked when it has become whole. -/
def drawnCheck (s : State) (c : Nat) (was now : List Tainted) : List Bool :=
  let done (l : List Tainted) : Nat := (l.filter drawnWhole).length
  if checked s c && decide (done was < done now) then
    match now.getLast? with
    | some x =>
      let l := x.map (·.1)
      [checkBad (l.take 32) (sub l 32 (thBytes (drawnHead x)))]
    | none => []
  else []

/-- Bytes drawn by a stream. -/
def addDrawn (s : State) (c k n : Nat) (more : Tainted) : State :=
  let t := strmOf (slotOf s c k) n
  let now := joinDrawn t.drawn more
  setStrm s c k n { t with drawn := now, checks := t.checks ++ drawnCheck s c t.drawn now }

/-- R381: dequeue tokens until a position has what it needs. Fuel is the tokens at hand. -/
def drawTokens (c k n pos : Nat) : Nat → State → State
  | 0, s => s
  | f + 1, s =>
    let v := slotOf s c k
    let t := strmOf v n
    if (drawnBad v t.desc pos t.drawn).isSome || drawnEnough t.desc pos t.drawn then s
    else
      match dequeue s c k (stPort t.desc) with
      | none => s
      | some (tok, s') => drawTokens c k n pos f (addDrawn s' c k n (tok.data.zip (byteMask tok.data.length tok.poison)))

/-- R382: the tile in the buffer of a handle. -/
def drawBuffer (s : State) (c k n i : Nat) : State :=
  let q := imHq (slotOf s c k).image (stHq (strmOf (slotOf s c k) n).desc)
  let a := hqAddr q i
  let len := min (hqBytes q) (32 + thBytes (natOf (coreRead s c a 32)))
  addDrawn s c k n ((coreRead s c a len).zip (byteMask len (poisonMask s.mem (corePhys c a) len)))

/-- R382: the buffers of the handles that a position's group holds, or of the next ones. Fuel is the tiles of a group. -/
def drawHandles (c k n pos : Nat) : Nat → State → State
  | 0, s => s
  | f + 1, s =>
    let v := slotOf s c k
    let t := strmOf v n
    let p0 := groupFirst t.desc pos
    if (drawnBad v t.desc pos t.drawn).isSome || drawnEnough t.desc pos t.drawn then s
    else
      match (t.handles.filter (·.2 = p0))[t.drawn.length]? with
      | some e => drawHandles c k n pos f (drawBuffer s c k n e.1)
      | none =>
        match takeReady s c k (stHq t.desc) with
        | none => s
        | some (i, s') =>
          let t := strmOf (slotOf s' c k) n
          drawHandles c k n pos f (drawBuffer (setStrm s' c k n { t with handles := t.handles ++ [(i, p0)] }) c k n i)

/-- Draw what a position needs. -/
def drawFor (s : State) (c k n pos : Nat) : State :=
  let v := slotOf s c k
  let t := strmOf v n
  if stSel t.desc = 3 then drawTokens c k n pos ((laneOf v (stPort t.desc)).tokens.length +
    (laneOf v (stPort t.desc)).spilled.length) s
  else drawHandles c k n pos (groupTiles t.desc) s

/-- The header and the bytes of a chunk from the tiles drawn: with sel 3 the bands that hold a load's rows, as received
(R381). -/
def drawnChunk (d : BitVec 1024) (ch : Chunk) (drawn : List Tainted) : Tainted × Tainted :=
  let tile (j : Nat) : Tainted := drawn.getD j []
  if stForm d = 0 then
    let x := tile 0
    let r := loadRange (drawnHead x) (stBlocks d) (loadAddr d ch.pos).2
    if stSel d = 3 then (x.take 32, (x.drop (32 + r.1)).take r.2)
    else ((x.take 32), (loadParts (fun o => x.getD (32 + o) (0, false)) (drawnHead x) (stBlocks d) (loadAddr d ch.pos).2 (stCol0 d)).flatten)
  else if chunkDropped d ch then chunkRead d ch
  else ([], (slotSegs d ch.pos).flatMap (fun j =>
    let x := tile j
    let bad := (x.take 32).any (·.2) || thPoison (drawnHead x)
    let p := slotPart d ch.pos j
    (List.range p.2).flatMap (fun e => (List.range (elemBytes d)).map (fun b =>
      let y := x.getD (32 + (elemOff d (rowI2 d ch.pos) (p.1 + e)).toNat + b) (0, false)
      (y.1, y.2 || bad)))))

/-- R354: the bytes of the tiles drawn for a group that its walk did not need. -/
def drawnExtra (d : BitVec 1024) (pos : Nat) (drawn : List Tainted) : Nat :=
  (drawn.map (fun x =>
    let h := drawnHead x
    if stForm d = 0 then extraBytes h (stBlocks d * groupSize d) (loadAddr d (groupFirst d pos)).2 (stCol0 d)
    else thBytes h - walkBytes d 0)).sum

/-! ## Prefetch, R383, R395 -/

/-- The engine's halves that still hold this stream's shares. -/
def unreleased (s : State) (c : Nat) (t : Stream) : Nat :=
  match t.engine with
  | none => 0
  | some (e, role) =>
    let h := engOf s (engineOf c e)
    let has (x : Half) : Nat := bn (if role = 0 then x.aDone else x.bDone)
    has h.half0 + has h.half1

/-- R383, R395: how many chunks a stream may hold begun and not delivered: with sel 0, 2 and 3 those of its depth that no
half holds, and otherwise one while it is wanted. -/
def strmWindow (s : State) (c : Nat) (t : Stream) (wanted : Bool) : Nat :=
  if stages t.desc then stDepth t.desc + 1 - unreleased s c t else bn wanted

/-- Begin chunks up to a number. Fuel is that number. -/
def beginChunks (s : State) (c : Nat) (v : Slot) (w : Nat) : Nat → Stream → Stream
  | 0, t => t
  | f + 1, t =>
    let pos := t.done + t.staged.length
    if w ≤ t.staged.length || strmLength t.desc ≤ pos then t
    else beginChunks s c v w f { t with staged := t.staged ++ [beginChunk s c v t pos] }

/-- Advance the chunks of an in-stream in order. A chunk whose read is rejected says so when it is due (R408). -/
def stepChunks (s : State) (i : Issuer) (v : Slot) (t : Stream) : List Chunk → State × List Chunk × Option Stop
  | [] => (s, [], none)
  | ch :: rest =>
    let r := if ch.full then (s, ch.segs, none) else segsStep s i ch.segs
    let go (ch' : Chunk) : State × List Chunk × Option Stop :=
      let q := stepChunks r.1 i v t rest
      (q.1, ch' :: q.2.1, q.2.2)
    match r.2.2 with
    | some (.reject x) => go ({ ch with segs := r.2.1 }.fail x)
    | some x => (r.1, { ch with segs := r.2.1 } :: rest, some x)
    | none => go (growRead r.1 i.core v t { ch with segs := r.2.1 })

/-- A measure of chunks, to see whether anything moved. -/
def chunksMark (l : List Chunk) : Nat := (l.map (fun ch => segsMark ch.segs + bn ch.full + bn ch.headed)).sum

/-- Run an in-stream's chunks until they wait. Fuel bounds the passes. -/
def runChunks (i : Issuer) (v : Slot) (t : Stream) : Nat → State → List Chunk → State × List Chunk × Option Stop
  | 0, s, l => (s, l, none)
  | f + 1, s, l =>
    let r := stepChunks s i v t l
    if r.2.2.isSome || chunksMark r.2.1 = chunksMark l then r else runChunks i v t f r.1 r.2.1

/-- The issuer behind a stream. -/
def strmIssuer (s : State) (c k n : Nat) : Issuer :=
  { unit := .stream c k n, core := c, slot := k, step := (slotOf s c k).ip }

/-- R396: write elems_done into the descriptor. -/
def writeElems (s : State) (c k n : Nat) : State :=
  let t := strmOf (slotOf s c k) n
  coreWrite s c (t.dAddr + 80) (bytesOf 8 (strmElems t.desc t.done))

/-- What a stream's stop does; a halt writes elems_done (R396). -/
def stopStream (s : State) (c k n : Nat) (x : Stop) : State :=
  let z := resolveStop s (.stream c k n) x
  let s := z.1
  let halted (h : Halt) : State := writeElems (setStrm s c k n { strmOf (slotOf s c k) n with halt := some h }) c k n
  match z.2 with
  | .halt (.fault cause a) => unitFault (halted (.fault cause a)) c k (slotOf s c k).ip cause a 7
  | .halt h => reportProgress (halted h) c k false
  | .reject cause => settleCore (rejectStep s c k (slotOf s c k).ip cause c 0 0) c
  | .poison => settleCore (consumePoison s c k (slotOf s c k).ip 2) c

/-- A stream may go on. -/
def strmRuns (s : State) (c k n : Nat) : Bool :=
  let t := strmOf (slotOf s c k) n
  t.bound && t.halt.isNone && coreRuns s c && (stForm t.desc = 0 || (slotOf s c k).state ≠ .faulted) &&
  (slotOf s c k).state ≠ .empty

/-- A chunk at hand replaces the one of its position. -/
def setChunk (s : State) (c k n : Nat) (ch : Chunk) : State :=
  let t := strmOf (slotOf s c k) n
  setStrm s c k n { t with staged := t.staged.map (fun x => if x.pos = ch.pos then ch else x) }

/-- The chunks that have been read, or whose tiles have been drawn, are staged, in order. Fuel is their number. -/
def settleChunks (c k n : Nat) : Nat → State → State
  | 0, s => s
  | f + 1, s =>
    let v := slotOf s c k
    let t := strmOf v n
    let d := t.desc
    match t.staged.find? (fun ch => !ch.full) with
    | none => s
    | some ch =>
      if !(ch.headed && ch.segs.all (·.stage = 4)) then s
      else if draws d then
        let s := drawFor s c k n ch.pos
        let t := strmOf (slotOf s c k) n
        match drawnBad (slotOf s c k) d ch.pos t.drawn with
        | some x => settleChunks c k n f (setChunk s c k n (ch.fail x))
        | none =>
          if drawnEnough d ch.pos t.drawn then
            let b := drawnChunk d ch t.drawn
            let r := stageChunk s c d ch b.1 b.2
            let u := setChunk r.1 c k n r.2
            let t := strmOf (slotOf u c k) n
            settleChunks c k n f (if groupEnds d ch.pos then
              bump (setStrm u c k n { t with drawn := [] }) ctrCopyExtra c (if checked s c then drawnExtra d ch.pos t.drawn else 0)
            else u)
          else s
      else
        let b := chunkRead d ch
        let checks := chunkChecks t ch
        let r := stageChunk s c d ch b.1 b.2
        let u := setChunk r.1 c k n r.2
        let t := strmOf (slotOf u c k) n
        let u := setStrm u c k n { t with checks := t.checks ++ checks.map (·.1) }
        settleChunks c k n f (bump u ctrCopyExtra c ((checks.map (·.2)).sum))

/-- Fetch for a stream of up to `w` chunks; R409: one begun again after a rewind counts. -/
def fetchStream (s : State) (c k n w : Nat) : State :=
  let v := slotOf s c k
  let old := strmOf v n
  let t := beginChunks s c v w w old
  let again := (t.staged.drop old.staged.length).filter (fun ch => decide (ch.pos < old.fetched))
  let s := bump s ctrStreamRefetched (strmUnit c k n) again.length
  let r := runChunks (strmIssuer s c k n) v t (t.staged.length * 2 ^ 16 + 8) s t.staged
  let u := settleChunks c k n t.staged.length (setStrm r.1 c k n { strmOf (slotOf r.1 c k) n with
    staged := r.2.1, fetched := max old.fetched (t.done + t.staged.length) })
  match r.2.2 with
  | some x => stopStream u c k n x
  | none => u

/-- R383: prefetch of a bound in-stream, but while it is rewound (R386). -/
def prefetch (s : State) (c k n : Nat) : State :=
  let t := strmOf (slotOf s c k) n
  if strmRuns s c k n && t.resume.isNone && stForm t.desc ≠ 2 then fetchStream s c k n (strmWindow s c t false) else s

/-! ## Delivering a load -/

/-- R385: the mark a load must be able to set: the first load of a fresh accumulation, when the tile's mark is free. -/
def markBlocked (e : Engine) (t : Stream) : Bool :=
  match e.acc with
  | none => false
  | some a => a.pending = 0 && a.used.isEmpty && (look? t.marks a.tile).isSome

/-- R194, R408: why a chunk's tile cannot serve a role of an engine, when it cannot. -/
def sourceBad (ch : Chunk) (gcAllowed : Bool) (role : Nat) : Option Nat :=
  if ch.bad.isSome then ch.bad
  else if thGc (natOf (ch.head.map (·.1))) && (role = 0 || !gcAllowed) then some 0x66
  else none

/-- R388: return the handles of loads that no mark covers. -/
def returnHandles (s : State) (c k n : Nat) : State :=
  let t := strmOf (slotOf s c k) n
  let low := t.marks.foldl (fun a m => min a m.2) t.done
  let over_ (e : Nat × Nat) : Bool := decide (e.2 + groupSize t.desc ≤ low)
  let s := setStrm s c k n { t with handles := t.handles.filter (fun e => !(over_ e)) }
  each (t.handles.filter over_) s (fun e s => putFree s c k e.1)

/-- R386 step 5: a rewound stream that has delivered its loads goes back to its resume point. -/
def resumeStream (t : Stream) : Stream :=
  match t.resume with
  | some p => { t with done := p, since := p, resume := none, staged := [], drawn := [] }
  | none => t

/-- R386, R396: an operand stream rewinds to its mark for a tile. -/
def rewindStream (s : State) (c k n tile : Nat) : State :=
  let t := strmOf (slotOf s c k) n
  let mark := look t.marks tile t.done
  writeElems (bump (setStrm s c k n { t with
    resume := some (t.resume.getD t.done), staged := [], drawn := [], done := mark, since := mark })
    ctrStreamRewinds (strmUnit c k n) 1) c k n

/-! ## Ending an accumulation without a result -/

/-- R132: an engine step is rejected, and counted by cause; R252, R291: causes 0x41 to 0x44, of a handle queue, count at
the slot. The accumulation that a rejected later descriptor would have continued stays open on the engine until its
context is reset (DESIGN CHOICE, log entry 105: the spec says only that no part of the step executes). -/
def engReject (s : State) (c k step cause id : Nat) (d : BitVec 512) : State :=
  let s := if 0x21 ≤ cause && cause ≤ 0x2A then bump s (ctrEngReject.plus (cause - 0x21)) id 1
    else if 0x41 ≤ cause && cause ≤ 0x44 then bump s (ctrSlotReject.plus (cause - 0x41)) (slotUnit c k) 1 else s
  settleCore (noteFault (rejectStep s c k step cause id (sdRow d) (sdCol d)) c k cause 1 0) c

/-- R384, R386: the streams of an accumulation. -/
def accStreams (a : OpenAcc) : List Nat := ((a.used.map (fun u => [u.a, u.b])).flatten).eraseDups

/-- R384: an accumulation is accepted or dropped: its marks are released, on every stream of its slot that is attached to its
engine. -/
def releaseMarks (s : State) (a : OpenAcc) : State :=
  let c := a.first.core
  let k := a.first.slot
  let mine (n : Nat) : Bool := (strmOf (slotOf s c k) n).engine.any (fun e => e.1 = sdEngine a.first.desc)
  each ((keys (slotOf s c k).strms).filter mine) s (fun n s =>
    let t := strmOf (slotOf s c k) n
    returnHandles (setStrm s c k n { t with marks := cut t.marks a.tile }) c k n)

/-- R127: the halves an accumulation held are free. -/
def freeHeld (e : Engine) : Engine :=
  { e with half0 := if e.half0.held && e.kept.all (·.1 ≠ 0) then .fresh else e.half0
           half1 := if e.half1.held && e.kept.all (·.1 ≠ 1) then .fresh else e.half1 }

/-- R217: the kept half is released. -/
def dropKept (e : Engine) : Engine := freeHeld { e with kept := none }

/-- R98, R386, R387: the oldest replay asked of an idle engine begins, once the tile it accumulates in is drained (R140). -/
def takeReplay (s : State) (id : Nat) : State :=
  let e := engOf s id
  match e.acc, e.waiting, e.replays with
  | none, none, key :: rest =>
    match e.sent.find? (fun a => sdRow a.first.desc * 2 ^ 20 + sdCol a.first.desc = key % 2 ^ 44) with
    | none => setEng s id { e with replays := rest }
    | some a =>
      if (tileOf e a.tile).done.isSome then s
      else
      let s := setEng s id (setTile { e with
        replays := rest, sent := e.sent.filter (fun b => b ≠ a), ended := false
        acc := some { a with replay := key / 2 ^ 44, pending := a.used.length, loads := 0, kBlocks := 0, bounds := [], sums := none } }
        a.tile .fresh)
      each (accStreams a) s (fun n s => rewindStream s a.first.core a.first.slot n a.tile)
  | _, _, _ => s

/-- An engine whose open accumulation ends without a result: its tile, its waiting descriptor, a half that it held (R127)
and a load begun for it are gone. -/
def closeAcc (e : Engine) (a : OpenAcc) : Engine :=
  freeHeld (endLoad (setTile { e with acc := none, ended := false, waiting := none } a.tile .fresh))

/-- An accumulation ends without a result. -/
def discardAcc (s : State) (id : Nat) (a : OpenAcc) : State :=
  takeReplay (releaseMarks (setEng s id (closeAcc (engOf s id) a)) a) id

/-- R125, R377: the share of a load enters its half of an engine, part by part. -/
def fillHalf (s : State) (id role : Nat) (plan : Nat) (d : BitVec 1024) (gc : Bool) (data : Tainted) : State :=
  let e := engOf s id
  let i := e.nextHalf
  let laid := gc || (role = 0 && (halfOf e i).gc)
  let offs := partOffsets (planFmtA plan) (planFmtB plan) (stBlocks d) role laid
  each (offs.zip (splitBy (partSizes (stFmt d) (stBlocks d) gc) data)) s (fun p s => writeShare s id i p.1 p.2)

/-- R377, R380, R385, R194: a stream's engine can take this stream's share of its next load now: the half is free, the share is
not in it yet, its mark can be set, and an A share waits for the B share that gives a group-coded load its layout. -/
def shareDue (s : State) (c k n : Nat) : Option (Used × Accepted) :=
  let t := strmOf (slotOf s c k) n
  match t.engine with
  | none => none
  | some (en, role) =>
    let e := engOf s (engineOf c en)
    let half := halfOf e e.nextHalf
    (wantedLoad e).filter (fun p =>
      p.2.core = c && p.2.slot = k && (if role = 0 then p.1.a = n && !half.aDone else p.1.b = n && !half.bDone) && !half.held &&
      !(markBlocked e t) && !(role = 0 && wantsGc p.1 p.2 && !half.bDone))

/-- R381: the share of a load from its staged chunk: with sel 3 the bands as received, otherwise the share itself. -/
def loadData (s : State) (c : Nat) (d : BitVec 1024) (ch : Chunk) (h : Nat) : Tainted :=
  if stSel d = 3 then
    let r := loadRange h (stBlocks d) (loadAddr d ch.pos).2
    let raw := chunkData s c d ch r.2
    (loadParts (fun o => raw.getD (o - r.1) (0, false)) h (stBlocks d) (loadAddr d ch.pos).2 (stCol0 d)).flatten
  else chunkData s c d ch ((partSizes (stFmt d) (stBlocks d) (thGc h)).sum)

/-- R132, R408: an engine rejects the descriptor whose tile cannot serve it: an accumulation of which no load has been taken, or
that is being replayed, ends with it. -/
def rejectLoad (s : State) (id : Nat) (w : Accepted) (x : Nat) : State :=
  let e := engOf s id
  let t := match e.acc.filter (fun a => a.used.isEmpty || a.pending ≠ 0) with
    | some a => discardAcc s id a
    | none => setEng s id (endLoad { e with waiting := none })
  engReject t w.core w.slot w.step x id w.desc

/-- R376 to R378, R384, R396: deliver the next load of an operand stream into the half its engine fills, when the
engine wants it. The Bool is false when there is nothing to deliver now. -/
def deliverLoad (s : State) (c k n : Nat) : State × Bool :=
  let t := strmOf (slotOf s c k) n
  match t.engine, t.staged with
  | some (en, role), ch :: rest =>
    let id := engineOf c en
    match shareDue s c k n with
    | none => (s, false)
    | some (u, w) =>
      let gcMode := wantsGc u w
      if !ch.full then (s, false)
      else
        match sourceBad ch gcMode role with
        | some x => (rejectLoad s id w x, true)
        | none =>
          let h := natOf (ch.head.map (·.1))
          let data := loadData s c t.desc ch h
          let pois := thPoison h || ch.head.any (·.2) || data.any (·.2)
          let s := fillHalf s id role (sdPlan w.desc) t.desc (thGc h) data
          let e := engOf s id
          let half := halfOf e e.nextHalf
          let half' := if role = 0 then { half with aDone := true, poison := half.poison || pois }
            else { half with bDone := true, gc := thGc h, poison := half.poison || pois }
          let fresh := (e.acc.map (fun a => a.pending = 0 && a.used.isEmpty)).getD false
          let tile := (e.acc.map (·.tile)).getD 0
          let t' := { t with
            done := t.done + 1, marks := if fresh then put t.marks tile t.done else t.marks, staged := rest, retried := false }
          let s := setStrm (setEng s id (setHalf e e.nextHalf half')) c k n t'
          let s := bump s ctrStreamDelivered (strmUnit c k n) 1
          (progress (returnHandles (writeElems s c k n) c k n) c k false, true)
  | _, _ => (s, false)

/-- Fetch what the next load needs, and deliver it. -/
def pumpOperand (s : State) (c k n : Nat) : State × Bool :=
  if !(strmRuns s c k n) then (s, false)
  else
    let s := fetchStream s c k n (strmWindow s c (strmOf (slotOf s c k) n) (shareDue s c k n).isSome)
    if strmRuns s c k n then deliverLoad s c k n else (s, true)

/-! ## Vector rows read, R391 to R396 -/

/-- R393: an in-stream's element in FP32. -/
def inElem (fmt bits : Nat) : BitVec 32 := BitVec.ofNat 32 (if fmt = 0xC then bits else enc32 (decodeElem fmt bits))

/-- The vector unit has a whole row of the stream. -/
def rowWhole (t : Stream) : Bool := t.row.any (fun r => decide (stRowLen t.desc ≤ r.length))

/-- The vector step that a stream serves: the first one issued that names it as an input or an output, with rows to do. -/
def vectorUser (s : State) (c k n : Nat) : Option (Nat × BitVec 512) :=
  let v := slotOf s c k
  let desc (i : Issued) : BitVec 512 := recordOf 512 (coreRead s c (imStepBase v.image + 64 * i.step) 64)
  ((v.issued.filter (fun i => (i.op = 0x10 || i.op = 0x11) && decide (i.done < vkRows (desc i)))).map (fun i =>
    (i.step, desc i))).find? (fun p =>
      (vecIns s c p.2).any (fun j => vkIn p.2 j = n) || (vecOuts s c p.2).any (fun q => vkOut p.2 q = n))

/-- R391 to R396: deliver the next slot of a row to the vector unit, when it wants it. A stream that has no further row is
exhausted (R408). -/
def deliverRow (s : State) (c k n : Nat) : State × Bool :=
  let t := strmOf (slotOf s c k) n
  match vectorUser s c k n with
  | none => (s, false)
  | some (step, _) =>
    if rowWhole t then (s, false)
    else
      match t.staged with
      | [] => if strmLength t.desc ≤ t.done then (settleCore (rejectStep s c k step 0x66 c 0 0) c, true) else (s, false)
      | ch :: rest =>
        if !ch.full then (s, false)
        else
          match ch.bad with
          | some 0x8F => (settleCore (consumePoison s c k step (streamClass t.desc)) c, true)
          | some x => (settleCore (rejectStep s c k step x c 0 0) c, true)
          | none =>
            let data := chunkData s c t.desc ch ((slotTo t.desc ch.pos - slotFrom t.desc ch.pos) * elemBytes t.desc)
            let vals := (pieces (elemBytes t.desc) (data.map (·.1))).map (fun b => inElem (stFmt t.desc) (natOf b))
            let t' := { t with
              row := some (t.row.getD [] ++ vals), rowPoison := t.rowPoison || data.any (·.2), done := t.done + 1
              staged := rest, retried := false }
            let s := setStrm s c k n t'
            let s := if chunkDropped t.desc ch && slotFrom t.desc ch.pos = 0 then bump s ctrCopyIndexDrops c 1 else s
            let s := bump s ctrStreamDelivered (strmUnit c k n) vals.length
            (returnHandles (writeElems s c k n) c k n, true)

/-- Fetch and deliver for a vector in-stream. -/
def pumpIn (s : State) (c k n : Nat) : State × Bool :=
  let t := strmOf (slotOf s c k) n
  if !(strmRuns s c k n) then (s, false)
  else
    let s := fetchStream s c k n (strmWindow s c t ((vectorUser s c k n).isSome && !(rowWhole t)))
    if strmRuns s c k n then deliverRow s c k n else (s, true)

/-! ## Vector rows written, R391 to R395 -/

/-- R393: a value in an out-stream's format. -/
def outElem (fmt : Nat) (x : BitVec 32) : List Byte :=
  match fmtOf fmt with
  | some f => bytesOf (fmtBits fmt / 8) (convert f .nearest false (dec32 x.toNat)).1
  | none => []

/-- R394: the payload size of the tiles an out-stream writes. -/
def outPayload (d : BitVec 1024) : Nat := (densePayload (stFmt d) (stRows d) (stCols d)).getD 0

/-- R394: the header of a tile that an out-stream writes. -/
def outHeader (d : BitVec 1024) (poison : Bool) (payload : List Byte) : List Byte :=
  mkHeader 1 (stFmt d) poison false false (stRows d) (stCols d) 0 0 0 (crc32c payload) (outPayload d)

/-- The number of an out-stream's tile: segment j of outer coordinate i3. -/
def tileKey (i3 j : Nat) : Nat := i3 * 2 ^ 32 + j
/-- The key of a payload byte of a tile in `written`. -/
def writtenKey (tile off : Nat) : Nat := tile * 2 ^ 32 + off

/-- R394: payload bytes of a tile that have been written, with zeros for the others. -/
def tileImage (t : Stream) (tile : Nat) : List Byte :=
  (List.range (outPayload t.desc)).map (fun o => look t.written (writtenKey tile o) 0)

/-- R394: every payload byte of a tile has been written. -/
def tileWhole (t : Stream) (tile : Nat) : Bool :=
  (List.range (outPayload t.desc)).all (fun o => (look? t.written (writtenKey tile o)).isSome)

/-- The tiles of which some payload byte has been written. -/
def tilesBegun (t : Stream) : List Nat := ((keys t.written).map (· / 2 ^ 32)).eraseDups

/-- The pieces of a slot that lie together in a tile: segment, payload offset, and the bytes with their poison. -/
def slotPuts (d : BitVec 1024) (pos : Nat) (data : Tainted) : List (Nat × Int × Tainted) :=
  let ew := elemBytes d
  (slotSegs d pos).flatMap (fun j =>
    let p := slotPart d pos j
    let at_ (e : Nat) : Nat := (j * stCount d 0 + p.1 + e - slotFrom d pos) * ew
    if stStride d 0 = ew then [(j, elemOff d (rowI2 d pos) p.1, (data.drop (at_ 0)).take (p.2 * ew))]
    else (List.range p.2).map (fun e => (j, elemOff d (rowI2 d pos) (p.1 + e), (data.drop (at_ e)).take ew)))

/-- The write segments of a range at a selected address. -/
def outSegs (s : State) (c : Nat) (v : Slot) (d : BitVec 1024) (rec_ kind a : Nat) (data : Tainted) : List Seg ⊕ Nat :=
  match selLoc s c v (stSel d) (stNb d) a data.length with
  | .inr x => .inr x
  | .inl l => .inl ((sideCuts s l l.low data.length).map (fun p =>
      let part := (data.drop p.1).take p.2
      { outSeg rec_ p.1 (l.plus p.1) (part.map (·.1)) (wordMask (part.map (·.2))) with kind := kind }))

/-- The writes of a slot of an out-stream, or the cause of its rejection. -/
def slotWrites (s : State) (c : Nat) (v : Slot) (d : BitVec 1024) (ch : Chunk) (data : Tainted) : List Seg ⊕ Nat :=
  joinSegs ((slotPuts d ch.pos data).map (fun (p : Nat × Int × Tainted) =>
    if decide (0 ≤ p.2.1) && decide (p.2.1 + p.2.2.length ≤ outPayload d) then
      outSegs s c v d p.1 2 (segAddr d p.1 (chunkI3 d ch) + 32 + Int.toNat p.2.1) p.2.2
    else .inr 0x66))

/-- Note the bytes of a slot as written. -/
def noteWritten (t : Stream) (i3 : Nat) (puts : List (Nat × Int × Tainted)) : Stream :=
  each puts t (fun p t => each p.2.2.zipIdx t (fun b t =>
    { t with written := put t.written (writtenKey (tileKey i3 p.1) (p.2.1.toNat + b.2)) b.1.1 }))

/-- The headers of tiles of an out-stream, and the stream without the bytes they cover. -/
def headerWrites (s : State) (c : Nat) (v : Slot) (t : Stream) (tiles : List Nat) (poison : Bool) : Stream × (List Seg ⊕ Nat) :=
  ({ t with written := keep t.written (fun a => !(tiles.contains (a / 2 ^ 32))) },
   joinSegs (tiles.map (fun x => outSegs s c v t.desc (x % 2 ^ 32) 1 (segAddr t.desc (x % 2 ^ 32) (x / 2 ^ 32))
     ((outHeader t.desc poison (tileImage t x)).map (fun b => (b, false))))))

/-- R394, R395: the slots of the row that the vector unit has handed over begin, as far as the window allows. Fuel is the
window. -/
def beginOut (c k n : Nat) : Nat → State → State
  | 0, s => s
  | f + 1, s =>
    let v := slotOf s c k
    let t := strmOf v n
    let d := t.desc
    match t.row with
    | none => s
    | some row =>
      let pos := t.done + t.staged.length
      if strmWindow s c t true ≤ t.staged.length || t.staged.any (·.closing) then s
      else
        let vals := (row.drop (slotFrom d pos)).take (slotTo d pos - slotFrom d pos)
        let data : Tainted := (vals.flatMap (outElem (stFmt d))).map (fun b => (b, t.rowPoison))
        let r := stageChunk s c d (beginChunk s c v t pos) [] data
        let ch := if r.2.bad.isSome then r.2 else { r.2 with full := false }
        let t := strmOf (slotOf r.1 c k) n
        beginOut c k n f (setStrm r.1 c k n { t with
          staged := t.staged ++ [ch]
          row := if (pos + 1) % rowSlots d = 0 then none else t.row })

/-- One pass of an out-stream's chunk: its index, its slot, then, for the oldest, the headers it completes. -/
def growOut (s : State) (c k n : Nat) (oldest : Bool) (ch : Chunk) : Stream × Chunk × Option Stop :=
  let v := slotOf s c k
  let t := strmOf v n
  let d := t.desc
  let data := chunkData s c d ch ((slotTo d ch.pos - slotFrom d ch.pos) * elemBytes d)
  if ch.bad.isSome then (t, ch, ch.bad.map .reject)
  else if ch.full || !(ch.segs.all (·.stage = 4)) then (t, ch, none)
  else if ch.headed then (t, { ch with full := true }, none)
  else if indexPoison ch then (t, ch, some .poison)
  else if chunkDropped d ch then (t, { ch with full := true }, none)
  else if !(ch.segs.any (·.kind = 2)) then
    match slotWrites s c v d ch data with
    | .inr x => (t, ch, some (.reject x))
    | .inl l => (t, { ch with segs := ch.segs ++ l }, none)
  else if oldest then
    let t := noteWritten t (chunkI3 d ch) (slotPuts d ch.pos data)
    let p := headerWrites s c v t ((slotSegs d ch.pos).map (tileKey (chunkI3 d ch)) |>.filter (tileWhole t)) false
    match p.2 with
    | .inr x => (p.1, ch, some (.reject x))
    | .inl l => (p.1, { ch with segs := ch.segs ++ l, headed := true }, none)
  else (t, ch, none)

/-- One pass over the chunks of an out-stream, oldest first. -/
def stepOut (c k n : Nat) : List Chunk → Bool → State → State × Option Stop
  | [], _, s => (s, none)
  | ch :: rest, oldest, s =>
    let r := segsStep s (strmIssuer s c k n) ch.segs
    let s := setChunk r.1 c k n { ch with segs := r.2.1 }
    match r.2.2 with
    | some x => (s, some x)
    | none =>
      let g := growOut s c k n oldest { ch with segs := r.2.1 }
      let u := setChunk (setStrm s c k n g.1) c k n g.2.1
      if g.2.2.isSome then (u, g.2.2) else stepOut c k n rest false u

/-- R396: the oldest chunks of an out-stream that have been written are done. Fuel is their number. -/
def retireOut (c k n : Nat) : Nat → State → State
  | 0, s => s
  | f + 1, s =>
    let t := strmOf (slotOf s c k) n
    match t.staged with
    | ch :: rest =>
      if !ch.full then s
      else if ch.closing then retireOut c k n f (setStrm s c k n { t with staged := rest })
      else
        let d := t.desc
        let s := setStrm s c k n { t with staged := rest, done := t.done + 1, retried := false }
        let s := if chunkDropped d ch && slotFrom d ch.pos = 0 then bump s ctrCopyIndexDrops c 1 else s
        let s := bump s ctrStreamDelivered (strmUnit c k n) (slotTo d ch.pos - slotFrom d ch.pos)
        retireOut c k n f (progress (writeElems s c k n) c k false)
    | [] => s

/-- Run an out-stream until it waits. Fuel bounds the passes. -/
def runOut (c k n : Nat) : Nat → State → State × Option Stop
  | 0, s => (s, none)
  | f + 1, s =>
    let s := beginOut c k n (stDepth (strmOf (slotOf s c k) n).desc + 1) s
    let t := strmOf (slotOf s c k) n
    let r := stepOut c k n t.staged true s
    let now := (strmOf (slotOf r.1 c k) n).staged
    if r.2.isSome then r
    else if chunksMark now = chunksMark t.staged then (r.1, none)
    else runOut c k n f (retireOut c k n now.length r.1)

/-- R391 to R396: take a row from the vector unit and write it. -/
def pumpOut (s : State) (c k n : Nat) : State × Bool :=
  let t := strmOf (slotOf s c k) n
  if !(strmRuns s c k n) || (t.staged.isEmpty && t.row.isNone) then (s, false)
  else
    let r := runOut c k n (2 ^ 16) s
    match r.2 with
    | some x => (stopStream r.1 c k n x, true)
    | none => (r.1, true)

/-! ## A stream goes on -/

/-- R736: the two address generators of a stream differ at its next chunk: the fault is recorded, the chunk is not made, and
the stream tries it once more; a second difference is hard, and the stream stays halted. -/
def strmUpset (s : State) (c k n : Nat) : Option State :=
  if checked s c && strmRuns s c k n then
    let t := strmOf (slotOf s c k) n
    let s := bump (addressFault s (.stream c k n) t.retried) ctrCopyAddrMismatch c 1
    some (writeElems (setStrm s c k n (if t.retried then { t with halt := some .fence } else { t with retried := true })) c k n)
  else none

/-- A stream goes as far as it can: the Bool says that it delivered or was stopped. -/
def pumpStream (s : State) (c k n : Nat) : State × Bool :=
  match stForm (strmOf (slotOf s c k) n).desc with
  | 0 => pumpOperand s c k n
  | 1 => pumpIn s c k n
  | _ => pumpOut s c k n

/-! ## Binding, R372, R373 -/

/-- R408 0x61: a stream descriptor that cannot be bound. -/
def stBad (d : BitVec 1024) : Bool :=
  let ew : Int := elemBytes d
  let vec := stForm d ≠ 0
  fld d 29 35 ≠ 0 || fld d 151 9 ≠ 0 || fld d 182 10 ≠ 0 || fld d 608 32 ≠ 0 || fld d 704 320 ≠ 0 ||
  stForm d = 3 || 4 < stSel d || (List.range 4).any (fun i => stCount d i = 0) || stStage d % 256 ≠ 0 ||
  (stForm d = 2 && (stSel d = 3 || stSel d = 4)) || (!vec && stIndexed d) ||
  (!vec && (!(fmtOperand (stFmt d)) || stBlocks d = 0 || 45 < stBlocks d || stStride d 0 ≠ 0)) ||
  (vec && (!([6, 7, 8, 9, 0xC].contains (stFmt d)) || (List.range 4).any (fun i => stStride d i % ew ≠ 0))) ||
  (stages d && decide (coreBytes < stStage d + (stDepth d + 1) * stageSlot d))

/-- R372: a stream bound under a descriptor. -/
def boundStream (d : BitVec 1024) (dAddr : Nat) : Stream :=
  { Stream.fresh with
    bound := true, desc := d, dAddr := dAddr, done := elemsPos d (stDone d), since := elemsPos d (stDone d)
    fetched := elemsPos d (stDone d) }

/-- R394: a vector out-stream about to be unbound writes headers with poison for the tiles left partly written. -/
def closeTiles (s : State) (c k n : Nat) : State :=
  let v := slotOf s c k
  let t := strmOf v n
  if !t.bound || stForm t.desc ≠ 2 || t.written.isEmpty || !t.staged.isEmpty || t.row.isSome then s
  else
    let tiles := tilesBegun t
    let p := headerWrites s c v t tiles true
    let s := bump s ctrStreamPartial (strmUnit c k n) tiles.length
    match p.2 with
    | .inr _ => setStrm s c k n p.1
    | .inl l => (pumpOut (setStrm s c k n { p.1 with
        staged := [{ mkChunk t.done l with headed := true, closing := true }] }) c k n).1

/-- R394: the payload bytes of a slot in flight whose writes have gone out: where each lies in its tile. -/
def flightPuts (s : State) (c k n : Nat) (ch : Chunk) : List (Nat × Int × Tainted) :=
  let v := slotOf s c k
  let d := (strmOf v n).desc
  let data := chunkData s c d ch ((slotTo d ch.pos - slotFrom d ch.pos) * elemBytes d)
  let cuts := (slotPuts d ch.pos data).flatMap (fun p =>
    match outSegs s c v d p.1 2 (segAddr d p.1 (chunkI3 d ch) + 32 + Int.toNat p.2.1) p.2.2 with
    | .inl l => l.map (fun g => (p.1, p.2.1 + (g.off : Int), (p.2.2.drop g.off).take g.len))
    | .inr _ => [])
  if ch.headed then [] else
    ((cuts.zip (ch.segs.filter (·.kind = 2))).filter (fun e => decide (3 ≤ e.2.stage))).map (·.1)

/-- R394: a header is written at once, whatever walk or row that takes. -/
def placeHeader (s : State) (c k n : Nat) (g : Seg) : State :=
  match g.dst with
  | .phys a => physWrite s a g.data []
  | .glob a =>
    let held := linesHeld s a g.len true
    match reachNow s (.stream c k n) a g.len true with
    | (.ok p _, _) => physWrite (snoopAll s held false 1 none) p g.data []
    | (.remote, _) => (remoteWrite s (strmIssuer s c k n) g a).1
    | _ => s
  | _ => s

/-- R394: the same made at once, for a stream that a reset unbinds: the tiles of which a byte has been written, a slot in flight
among them, are closed one by one, and the headers that were due already are written. -/
def leavePartial (s : State) (c k n : Nat) : State :=
  let t := strmOf (slotOf s c k) n
  if !t.bound || stForm t.desc ≠ 2 then s
  else
    let due := t.staged.flatMap (fun ch => ch.segs.filter (fun g => g.kind = 1 && g.stage = 2))
    let t := each t.staged t (fun ch t => noteWritten t (chunkI3 t.desc ch) (flightPuts s c k n ch))
    let tiles := tilesBegun t
    let s := bump (each due s (fun g s => placeHeader s c k n g)) ctrStreamPartial (strmUnit c k n) (tiles.filter (fun x => !(tileWhole t x))).length
    each tiles s (fun x s =>
      match (headerWrites s c (slotOf s c k) t [x] (!(tileWhole t x))).2 with
      | .inr _ => s
      | .inl l => each l s (fun g s => placeHeader s c k n g))

end Sys2Proof.Machine
end

