-- ==== Sys2Proof/Machine/Engines.lean ====
section
/-! DEFINITION. What an engine does: accepting a step, its loads, the finalisation check and replays, the sumac pass and
class maps, the epilogue and partials (02_arithmetic.md, 03_engines.md, 04_sparsity.md). -/

namespace Sys2Proof.Machine

/-! ## Stops -/

/-- R120: an arithmetic fault. -/
def engArith (s : State) (c k step cause id row col : Nat) (et : Int) : State :=
  let s := noteFault (bump s (ctrEngArith.plus (cause - 1)) id 1) c k cause 1 0
  settleCore (reportError (faultSlot s c k) c k 1 cause id step row col et 0) c

/-! ## Tiles in core memory -/

/-- The header of a tile in core memory. -/
def tileHead (s : State) (c a : Nat) : Nat := natOf (coreRead s c a 32)
/-- Its payload. -/
def tilePayload (s : State) (c a : Nat) : List Byte := coreRead s c (a + 32) (thBytes (tileHead s c a))
/-- A header of a use: its kind, formats, rows and columns. -/
def headIs (h kind : Nat) (fmts : List Nat) (rows cols : Nat) : Bool :=
  thUsable h && !thGc h && thKind h = kind && fmts.contains (thFmt h) && thRows h = rows && thCols h = cols
/-- R138: a tile that carries poison. -/
def tilePoison (s : State) (c a : Nat) : Bool :=
  thPoison (tileHead s c a) || corePoison s c a (32 + thBytes (tileHead s c a))
/-- The element values of a tile, row by row. -/
def tileVals (s : State) (c a : Nat) : List (List Val) :=
  let h := tileHead s c a
  (pieces (rowBytes (thFmt h) (thCols h)) (tilePayload s c a)).map (fun r =>
    (unpackBits (fmtBits (thFmt h)) (thCols h) r).map (decodeElem (thFmt h)))

/-- R149, R150: the shape of a scale tile. -/
def scaleCols (mode : Nat) : Nat := if mode = 1 then 2 else 64

/-- R150: whether the scale and bias tiles of a control word have their shapes. -/
def scaleTileOk (s : State) (c : Nat) (d : BitVec 512) : Bool :=
  epScale (sdEpi d) = 0 || headIs (tileHead s c (sdScale d)) 1 [0xC] 1 (scaleCols (epScale (sdEpi d)))
/-- R150. -/
def biasTileOk (s : State) (c : Nat) (d : BitVec 512) : Bool :=
  epBias (sdEpi d) = 0 || headIs (tileHead s c (sdBias d)) 1 [0xC, 8, 9] 1 64
/-- R143: the preload tile. The plan word of a word tile is not judged by R94 (DESIGN CHOICE, log entry 112). -/
def preloadTileOk (s : State) (c : Nat) (d : BitVec 512) : Bool :=
  match sdPreload d with
  | 0 => true
  | 1 => headIs (tileHead s c (sdIn d)) 1 [0xC, 8, 9] 1 64
  | 2 => headIs (tileHead s c (sdIn d)) 1 [0xC, 8, 9] 64 64
  | _ => headIs (tileHead s c (sdIn d)) 2 [0] 64 64
/-- R156: the activation table. Another tile at table_addr is rejected with cause 0x27, like the tiles that R132 names
(DESIGN CHOICE, log entry 105). -/
def tableTileOk (s : State) (c : Nat) (d : BitVec 512) : Bool :=
  epAct (sdEpi d) ≠ 5 || headIs (tileHead s c (epTable (sdEpi d))) 1 [0xC] 1 256

/-- R143: bytes of the preload tile with its header. -/
def preloadBytes (s : State) (c : Nat) (d : BitVec 512) : Nat :=
  if sdPreload d = 0 then 0 else if sdPreload d = 3 then 33824 else 32 + thBytes (tileHead s c (sdIn d))

/-- R348 to R350: payload bytes of the tile an epilogue writes. -/
def outBytes (d : BitVec 512) : Nat := (densePayload (epFmt (sdEpi d)) 64 64).getD 0

/-! ## Class maps, R203 to R211 -/

/-- R206: an armed accumulation. -/
def sdArmed (d : BitVec 512) : Bool :=
  (sdOpcode d = 1 || sdOpcode d = 2) && sdStart d && sdPreload d = 0 && sdIn d ≠ 0

/-- R204: the header of the class map a descriptor names. -/
def mapHead (s : State) (c : Nat) (d : BitVec 512) : Nat := natOf (coreRead s c (sdIn d) 32)
/-- R203: its class array. -/
def mapClasses (s : State) (c : Nat) (d : BitVec 512) : List Nat := unpackBits 2 4096 (coreRead s c (sdIn d + 32) 1024)

/-- R207: a class map that does not serve the descriptor. -/
def mapDiffers (m : Nat) (d : BitVec 512) : Bool :=
  let ro (p : Nat) : Nat := setBits p 45 3 0
  bitsOf m 3 5 ≠ 0 || bitsOf m 32 32 ≠ 0 || bitsOf m 172 20 ≠ 0 || bitsOf m 250 6 ≠ 0 ||
  ro (bitsOf m 64 64) ≠ ro (sdPlan d) || bitsOf m 128 24 ≠ sdRow d || bitsOf m 152 20 ≠ sdCol d ||
  bitsOf m 8 2 ≠ epScale (sdEpi d) || bitsOf m 10 2 ≠ epBias (sdEpi d) || bitsOf m 12 4 ≠ epAct (sdEpi d) ||
  bitAt m 2 ≠ (sdOpcode d = 2) || !(sdOutMode d = 0 || sdOutMode d = 3)

/-- The classes of column j. -/
def columnOf (cs : List Nat) (j : Nat) : List Nat := (List.range 64).map (fun i => cs.getD (i * 64 + j) 0)

/-- R208 without audits: the columns live by their classes. -/
def liveByClass (mode : Nat) (cs : List Nat) : List Nat :=
  (List.range 64).filter (fun j => (columnOf cs j).any (fun x => if mode = 1 then x % 2 = 1 else x ≠ 0))

/-- R211: the dead columns selected for audit. -/
def auditedOf (m : Nat) (d : BitVec 512) (live : List Nat) : List Nat :=
  if bitsOf m 0 2 = 2 then
    (List.range 64).filter (fun j => !(live.contains j) &&
      decide (hash24 (sdSeed d) (sdRow d) (sdCol d) (4096 + j) < bitsOf m 16 16 * 256))
  else []

/-- R229: the counts of an armed tile. -/
def countArmed (s : State) (id m : Nat) (cs live audited : List Nat) : State :=
  let n (p : Nat → Bool) : Nat := (cs.filter p).length
  let dead := (List.range 64).filter (fun j => !(live.contains j) && !(audited.contains j))
  let lost := if bitsOf m 0 2 = 1 then (dead.map (fun j => ((columnOf cs j).filter (· = 2)).length)).sum else 0
  let s := bump (bump (bump s ctrEngSkip id (n (· = 0))) ctrEngCompute id (n (fun x => x % 2 = 1))) ctrEngDoubt id (n (· = 2))
  bump (bump (bump s ctrEngDead id dead.length) ctrEngLost id lost) ctrEngAudited id (64 * audited.length)

/-! ## Validating a step, R132 -/

/-- R130, R135, R200: a reserved value, cause 0x21. A reserved value within an epi that out_mode 1 or 2 does not use is
left to cause 0x26, which any non-zero epi meets there (DESIGN CHOICE, log entry 23). -/
def sdBad (d : BitVec 512) : Bool :=
  let op := sdOpcode d
  sdReserved d || 3 < sdOutMode d ||
  (op = 4 && (!(sdStart d) || !(sdFinish d) || sdKBlocks d ≠ 1 || sdPreload d ≠ 0 || !(sdOutMode d = 0 || sdOutMode d = 3))) ||
  (op = 3 && (sdPreload d ≠ 0 || sdIn d ≠ 0 || sdOutMode d ≠ 0 || sdDest d ≠ 0 || sdTag d ≠ 0 || sdSeed d ≠ 0 ||
    epBias (sdEpi d) = 3)) ||
  (op ≠ 3 && (sdOutMode d = 0 || sdOutMode d = 3) && epReserved (sdEpi d))

/-- R124, R186: cause 0x22. -/
def sdTooBig (d : BitVec 512) : Bool :=
  sdOpcode d ≠ 4 && (sdKBlocks d = 0 || 45 < sdKBlocks d ||
    decide (halfBytes < 32 * sdKBlocks d * kStepBytes (planFmtA (sdPlan d)) (planFmtB (sdPlan d))))

/-- Cause 0x23: an address with its tile beyond core memory. in_addr and out_addr are tested even where the descriptor
names no tile by them, with a length of 0; the scale, bias and table addresses only where they are used (DESIGN CHOICE,
log entry 105). A later descriptor of an accumulation reads nothing at in_addr (R142). -/
def sdBeyond (s : State) (c : Nat) (d : BitVec 512) : Bool :=
  let op := sdOpcode d
  let past (a n : Nat) : Bool := decide (coreBytes < a + n)
  past (sdIn d) (if op = 4 then 33824 else if sdArmed d then 1056 else if sdStart d then preloadBytes s c d else 0) ||
  past (sdOut d) (if op = 3 then 1056 else if sdOutMode d = 0 then 32 + outBytes d else if sdOutMode d = 1 then 33824 else 0) ||
  ((sdOutMode d = 0 || sdOutMode d = 3) &&
    ((epScale (sdEpi d) ≠ 0 && past (sdScale d) (32 + 4 * scaleCols (epScale (sdEpi d)))) ||
     (epBias (sdEpi d) ≠ 0 && past (sdBias d) (32 + thBytes (tileHead s c (sdBias d)))) ||
     (op ≠ 3 && epAct (sdEpi d) = 5 && past (epTable (sdEpi d)) 1056)))

/-- Cause 0x24: the reduction destination. -/
def sdBadDest (s : State) (c k : Nat) (d : BitVec 512) : Bool :=
  sdOutMode d = 2 && (!(coreExists s (sdDest d)) || !(inRect (slotOf s c k).image (sdDest d)))

/-- Cause 0x26. -/
def sdDisagrees (d : BitVec 512) : Bool :=
  planPreload (sdPlan d) ≠ (sdPreload d ≠ 0) || planReduce (sdPlan d) ≠ (sdOutMode d = 2) ||
  ((sdOutMode d = 1 || sdOutMode d = 2) && sdEpi d ≠ 0)

/-- R408, R389: why a stream cannot serve a descriptor's role, when it cannot. -/
def streamCause (s : State) (c k : Nat) (d : BitVec 512) (n role : Nat) : Option Nat :=
  let t := strmOf (slotOf s c k) n
  if !t.bound || stForm t.desc ≠ 0 || t.engine.any (fun e => e ≠ (sdEngine d, role)) ||
     strmLength t.desc ≤ t.done || stBlocks t.desc ≠ sdKBlocks d then some 0x66
  else if stSel t.desc = 3 && !(sdStart d && sdFinish d && !(planReduce (sdPlan d))) then some 0x67
  else none

/-- R217: the armed descriptor runs from the half that the pass before it used. -/
def fromKept (e : Engine) (c k : Nat) (d : BitVec 512) : Bool :=
  sdArmed d && sdFinish d && e.kept.any (fun p =>
    p.2.first.core = c && p.2.first.slot = k && sdAStream p.2.first.desc = sdAStream d &&
    sdBStream p.2.first.desc = sdBStream d && sdKBlocks p.2.first.desc = sdKBlocks d)

/-- R252 0x44, 0x41: the handle queue of out_mode 3. -/
def engineHqCause (s : State) (c k : Nat) (d : BitVec 512) : Option Nat :=
  let q := imHq (slotOf s c k).image (imEngineHq (slotOf s c k).image (sdEngine d))
  if sdOutMode d ≠ 3 then none
  else if !(hqOn q) then some 0x41
  else if hqBytes q < 32 + outBytes d then some 0x44 else none

/-- The first of the conditions that holds. -/
def firstCause : List (Bool × Nat) → Option Nat
  | [] => none
  | (b, x) :: t => if b then some x else firstCause t

/-- R132, R202, R207, R408: the cause for which an engine rejects a descriptor; arithmetic cause 0x6 is apart. -/
def engCause (s : State) (c k : Nat) (d : BitVec 512) : Option Nat :=
  let e := engOf s (engineOf c (sdEngine d))
  let op := sdOpcode d
  let own := firstCause
    [(op = 3 && (suRejected (sdEpi d) || !(planPlanned (sdPlan d)) || planReduce (sdPlan d) || planPreload (sdPlan d)), 0x29),
     (sdBad d, 0x21), (sdTooBig d, 0x22), (sdBeyond s c d, 0x23), (sdBadDest s c k d, 0x24),
     (sdStart d = e.acc.isSome || (!(sdStart d) && e.acc.any (fun a => sdShared a.first.desc ≠ sdShared d)), 0x25),
     (sdDisagrees d, 0x26),
     ((sdStart d && op ≠ 4 && !(preloadTileOk s c d)) || (op = 4 && !(headIs (tileHead s c (sdIn d)) 2 [0] 64 64)) ||
      ((sdOutMode d = 0 || sdOutMode d = 3) && (!(scaleTileOk s c d) || !(biasTileOk s c d) || (op ≠ 3 && !(tableTileOk s c d)))), 0x27),
     (sdArmed d && mapDiffers (mapHead s c d) d, 0x2A)]
  match own, engineHqCause s c k d with
  | some x, _ => some x
  | none, some x => some x
  | none, none =>
    if op = 4 || fromKept e c k d then none
    else match streamCause s c k d (sdAStream d) 0, streamCause s c k d (sdBStream d) 1 with
      | some x, _ => some x
      | none, some x => some x
      | none, none => if sdAStream d = sdBStream d then some 0x66 else none

/-- R90, R94, R135: arithmetic cause 0x6. -/
def planFault (d : BitVec 512) : Bool :=
  planRejected (sdPlan d) ||
  (!(planPlanned (sdPlan d)) && (!(sdStart d && sdFinish d) || planReduce (sdPlan d)))

/-- R91: the effective E_t of a descriptor's plan, which R120 records when it is rejected. -/
def sdEt (d : BitVec 512) : Int := effectiveEt (planEt (sdPlan d)) (planReplay (sdPlan d))

/-- R136, R137, R140, R387: the engine cannot take the descriptor yet. -/
def engBusy (e : Engine) (c k : Nat) (d : BitVec 512) : Bool :=
  e.waiting.isSome ||
  (match e.acc with
   | some a => a.first.core ≠ c || a.first.slot ≠ k || e.ended || a.pending ≠ 0
   | none => sdStart d && (!e.replays.isEmpty || (tileOf e (1 - e.curTile)).done.isSome))

/-! ## Accumulations -/

/-- An accumulation as its first descriptor begins it. -/
def newAcc (w : Accepted) (tile : Nat) : OpenAcc :=
  { first := w, et := planEt (sdPlan w.desc), replay := 0, kBlocks := 0, loads := 0, tile := tile, armed := false,
    live := [], audited := [], mode := 0, checked := false, bounds := [], sums := none, pending := 0, more := true, used := [], again := false,
    finish := w.step }

/-- The effective E_t of an accumulation's attempt, R91. -/
def accEt (a : OpenAcc) : Int := effectiveEt a.et a.replay

/-- R138: an engine without the open accumulation and the finished tiles of a context. What other contexts have on it
stays (R137). -/
def dropTiles (e : Engine) (mine : OpenAcc → Bool) : Engine :=
  let clean (t : TileBuf) : TileBuf := if t.done.any mine then .fresh else t
  let e1 := { e with tile0 := clean e.tile0, tile1 := clean e.tile1 }
  (e.acc.filter mine).elim e1 (closeAcc e1)

/-- R138: the engine consumes poison, of a class of R714 or, for 0, recorded already: it discards the open tile and the
tiles of the same context that wait, and takes a replay that waited behind them (R106). -/
def engPoison (s : State) (id : Nat) (w : Accepted) (cls : Nat) : State :=
  let e := engOf s id
  let mine (a : OpenAcc) : Bool := a.first.core = w.core && a.first.slot = w.slot
  let gone := (e.acc.toList ++ e.tile0.done.toList ++ e.tile1.done.toList).filter mine
  let s := each gone (setEng s id (dropTiles e mine)) (fun a s => releaseMarks s a)
  let s := if cls = 0 then s else detectAt s (elCore w.core) cls 2 w.core false
  settleCore (noteFault (poisonStop (takeReplay s id) w.core w.slot w.step id) w.core w.slot 0x8F 1 0) w.core

/-- R217: the halves ready for the descriptor, and the kept half released when it is not used. -/
def keptFor (e : Engine) (c k : Nat) (d : BitVec 512) : Engine :=
  match e.kept with
  | none => e
  | some (h, _) =>
    if fromKept e c k d then setHalf { e with kept := none, nextHalf := h } h { halfOf e h with held := false }
    else if sdStart d then dropKept e else e

/-- R376: a stream is attached by the first descriptor that uses it. -/
def attach (s : State) (c k n engine role : Nat) : State :=
  setStrm s c k n { strmOf (slotOf s c k) n with engine := some (engine, role) }

/-- R143: the preload values of an accumulation, word by word. A word tile whose own effective E_s lies outside -512 to 511 is
converted without a fault: R92's cause 0x5 is the accumulation's own (DESIGN CHOICE, log entry 112). -/
def preloadVals (s : State) (c : Nat) (d : BitVec 512) : List Val :=
  match sdPreload d with
  | 1 => (List.range 64).flatMap (fun _ => ((tileVals s c (sdIn d)).headD []))
  | 2 => (columns 64 (tileVals s c (sdIn d))).flatten
  | _ =>
    let h := tileHead s c (sdIn d)
    let es := effectiveEt (planEt (thPlan h)) (planReplay (thPlan h))
    (bytesWords 8 4096 (tilePayload s c (sdIn d))).map (wordVal es)

/-- R85, R142: the words an attempt begins with. -/
def beginWords (s : State) (a : OpenAcc) : List AccWord :=
  if sdPreload a.first.desc = 0 then clearTile
  else (preloadVals s a.first.core a.first.desc).map (addProduct (accEt a) AccWord.zero)

/-- R125, R184: the operands of the load in a half. -/
def loadOf (s : State) (id half : Nat) (gc : Bool) (plan k : Nat) : Load :=
  let spare := (halfOf (engOf s id) half).spare
  let bytes := readMem s.mem (bufPhys id (half * halfBytes)) halfBytes ++
    (List.range (gcLoadMost - halfBytes)).map (fun i => look spare i 0)
  if gc then gcLoad (planFmtA plan) (planFmtB plan) (32 * k) bytes
  else denseLoad (planFmtA plan) (planFmtB plan) (32 * k) bytes

/-- R197: bounds before the first K-step. -/
def freshBounds : List Bounds := List.replicate 4096 { lo := 0, hi := 0, forced := false }

/-- R87: an accumulation in derive mode takes its E_t from its one load. -/
def withEt (a : OpenAcc) (ld : Load) : OpenAcc :=
  let p := sdPlan a.first.desc
  if planPlanned p then a else { a with et := deriveEt (planFmtA p) (planFmtB p) (planHeadroom p) ld }

/-- R209: an armed accumulation without a live column, which executes no K-step. -/
def skipsAll (a : OpenAcc) : Bool := a.armed && a.live.isEmpty && a.audited.isEmpty

/-- The K-steps of one load: the accumulation and its tile's words after it. In standard and full the checksum unit forms
its sums beside the array, from the operands and the preload (R725). -/
def runSteps (s : State) (a : OpenAcc) (ld : Load) (words : List AccWord) : OpenAcc × List AccWord :=
  if sdOpcode a.first.desc = 3 then
    ({ a with bounds := boundLoad (if a.bounds.isEmpty then freshBounds else a.bounds) ld }, words)
  else if skipsAll a then (a, clearTile)
  else
    let before := if words.isEmpty then beginWords s a else words
    let sums := if words.isEmpty then (if checked s a.first.core then some (wordSums before) else none) else a.sums
    ({ a with sums := sums.map (fun t => sumLoad (accEt a) t ld) }, accumulate (accEt a) before ld)

/-- R127: whether the half of a one-load accumulation is held until its finalisation check. One without a live column
releases it as the load completes (R209). -/
def holdsHalf (s : State) (a : OpenAcc) : Bool :=
  let d := a.first.desc
  sdStart d && sdFinish d && !(skipsAll a) && (!(planReduce (sdPlan d)) || checked s a.first.core)

/-- R386 step 5, R396: the rewound loads have all been delivered. -/
def endRewind (s : State) (a : OpenAcc) : State :=
  each (accStreams a) s (fun n s =>
    let c := a.first.core
    writeElems (setStrm s c a.first.slot n (resumeStream (strmOf (slotOf s c a.first.slot) n))) c a.first.slot n)

/-- R378, R127: the engine takes the complete load of its next half, runs its K-steps and releases the half. -/
def runLoad (s : State) (id : Nat) : State :=
  let e := engOf s id
  let h := halfOf e e.nextHalf
  match wantedLoad e, e.acc with
  | some (u, w), some a0 =>
    if !(h.aDone && h.bDone) || h.held then s
    else if h.poison || (tileOf e a0.tile).words.isEmpty && sdPreload a0.first.desc ≠ 0 && tilePoison s a0.first.core (sdIn a0.first.desc)
    then engPoison s id w
      (if h.poison && [u.a, u.b].any (fun n => streamClass (strmOf (slotOf s w.core w.slot) n).desc = 4) then 4 else 2)
    else
      let plan := sdPlan a0.first.desc
      let ld := loadOf s id e.nextHalf h.gc plan u.k
      let a := withEt a0 ld
      if etOutside (accEt a) then
        engArith (discardAcc s id a) w.core w.slot w.step 5 id (sdRow w.desc) (sdCol w.desc) (accEt a)
      else
        let r := runSteps s a ld (tileOf e a.tile).words
        let replayed := a.pending ≠ 0
        let last := if replayed then a.pending = 1 && !a.more else sdFinish w.desc
        let a' := { r.1 with
          kBlocks := a.kBlocks + u.k, loads := a.loads + 1, pending := a.pending - 1
          used := if replayed then a.used else a.used ++ [u]
          finish := if replayed then a.finish else w.step, more := if replayed then a.more else !(sdFinish w.desc) }
        let e' := setTile { e with
          nextHalf := 1 - e.nextHalf, acc := some a', ended := last
          waiting := if replayed then e.waiting else none } a.tile { words := r.2, done := none }
        let e' := setHalf e' e.nextHalf (if holdsHalf s a then { h with held := true } else .fresh)
        let s := setEng s id e'
        let s := bump s ctrEngKSteps id (if skipsAll a then 0 else 32 * u.k)
        let s := bump (bump s ctrEngSlotsFar id ld.far) ctrEngSlotsTwice id ld.twice
        let s := if wantsGc u w && !h.gc && sdOpcode w.desc = 2 then bump s ctrEngDenseSub id 1 else s
        let s := if replayed && a.pending = 1 then endRewind s a else s
        let s := prefetch (prefetch s w.core w.slot u.a) w.core w.slot u.b
        if replayed || last then s else settleCore (completeStep s w.core w.slot w.step) w.core
  | _, _ => s

/-! ## Accepting a step -/

/-- R206 to R211: a start that is armed reads its class map. -/
def armAcc (s : State) (id : Nat) (a : OpenAcc) : State × OpenAcc :=
  let d := a.first.desc
  if sdArmed d then
    let m := mapHead s a.first.core d
    let cs := mapClasses s a.first.core d
    let live := liveByClass (bitsOf m 0 2) cs
    let audited := auditedOf m d live
    (countArmed s id m cs live audited, { a with armed := true, live := live, audited := audited, mode := bitsOf m 0 2 })
  else (s, a)

/-- R721: in standard and full the class map's check is verified. -/
def mapCheckBad (s : State) (c : Nat) (d : BitVec 512) : Bool :=
  checked s c && bitsOf (mapHead s c d) 192 32 ≠ crc32c (coreRead s c (sdIn d + 32) 1024)

/-- R135: an `epi` step takes its word tile; R92: the effective E_t that its header gives must be one. The spec does not say
whether the rest of the header's plan word (bits 63:48, a headroom of 63, a k_count of 0) is judged by R25 and R94 as a
descriptor's is: it is taken as it stands (DESIGN CHOICE, log entry 112). -/
def takeWords (s : State) (id : Nat) (a : OpenAcc) : State :=
  let c := a.first.core
  let d := a.first.desc
  let h := tileHead s c (sdIn d)
  let a := { a with et := planEt (thPlan h), replay := planReplay (thPlan h) }
  if tilePoison s c (sdIn d) then engPoison s id a.first 2
  else if etOutside (accEt a) then
    engArith (discardAcc s id a) c a.first.slot a.first.step 5 id (sdRow d) (sdCol d) (accEt a)
  else
    setEng s id (setTile (engOf s id) a.tile { words := bytesWords 8 4096 (tilePayload s c (sdIn d)), done := some a })

/-- R132 to R137: the engine takes an issued descriptor that passed its checks. -/
def engTake (s : State) (w : Accepted) : State :=
  let c := w.core
  let k := w.slot
  let d := w.desc
  let id := engineOf c (sdEngine d)
  let e0 := engOf s id
  let kept := fromKept e0 c k d
  let e := keptFor e0 c k d
  if sdArmed d && (corePoison s c (sdIn d) 1056 || mapCheckBad s c d) then
    let t := if mapCheckBad s c d then detectAt s (elCore c) 5 6 c false else s
    let s' := setEng t id e
    engPoison s' id w (if corePoison s c (sdIn d) 1056 then 2 else 0)
  else
    let r := if sdStart d then (fun (p : State × OpenAcc) => (p.1, some p.2)) (armAcc s id (newAcc w (1 - e.curTile)))
      else (s, e.acc)
    let s := r.1
    let e := if sdStart d then setTile { e with curTile := 1 - e.curTile } (1 - e.curTile) .fresh else e
    if sdOpcode d = 4 then
      match r.2 with
      | some a => takeWords (setEng s id e) id a
      | none => s
    else
      let s := setEng s id { e with acc := r.2, waiting := some w, ended := false }
      if kept then s
      else attach (attach s c k (sdAStream d) (sdEngine d) 0) c k (sdBStream d) (sdEngine d) 1

/-- R132, R137: the engine checks a descriptor and takes it. -/
def engAccept (s : State) (w : Accepted) : State :=
  let id := engineOf w.core (sdEngine w.desc)
  match engCause s w.core w.slot w.desc with
  | some x => engReject s w.core w.slot w.step x id w.desc
  | none =>
    if planFault w.desc then
      engArith s w.core w.slot w.step 6 id (sdRow w.desc) (sdCol w.desc) (sdEt w.desc)
    else settleCore (engTake s w) w.core

/-- R136, R137: the descriptor of a queue that an engine takes next: the oldest it can take, in each slot's order. -/
def nextWaiting (e : Engine) : Option Accepted :=
  (e.queue.zipIdx.find? (fun p =>
    (e.queue.take p.2).all (fun w => w.slot ≠ p.1.slot) && !(engBusy e p.1.core p.1.slot p.1.desc))).map (·.1)

/-- R137: an engine of a core takes a descriptor that waits in the sequencer; those of a FAULTED slot are dropped. -/
def serveWaiting (s : State) (c op : Nat) : Option State :=
  (List.range 4).findSome? (fun g =>
    let id := engineOf c g
    let e := engOf s id
    let e := { e with queue := e.queue.filter (fun w => (slotOf s w.core w.slot).state ≠ .faulted) }
    (nextWaiting e).bind (fun w =>
      if sdOpcode w.desc = op then some (engAccept (setEng s id { e with queue := e.queue.erase w }) w) else none))

/-- The row of an engine step: an engine takes a descriptor that waits for it, or the sequencer issues the step; with
the engine busy it waits in the sequencer, and the slot goes on (R247, R256). -/
def engStep (s : State) (c op : Nat) : State :=
  match (if coreRuns s c then serveWaiting s c op else none) with
  | some t => t
  | none =>
    match fetchStep s c op with
    | .idle => s
    | .past _ => s
    | .stops t => settleCore t c
    | .step k d =>
      let id := engineOf c (sdEngine d)
      let e := engOf s id
      let w : Accepted := { core := c, slot := k, step := (slotOf s c k).ip, desc := d }
      if engBusy e c k d || e.queue.any (fun x => x.slot = k) || (e.acc.isNone && !e.queue.isEmpty) then
        settleCore (setEng (issueTo s c k d) id { e with queue := e.queue ++ [w] }) c
      else
        match engCause s c k d with
        | some x => engReject s c k w.step x id d
        | none =>
          if planFault d then engArith s c k w.step 6 id (sdRow d) (sdCol d) (sdEt d)
          else settleCore (engTake (issueTo s c k d) w) c

/-! ## Finalisation, R84, R95 to R101, R727, R728 -/

/-- R722: a check of an operand tile is still pending. -/
def checksPending (s : State) (a : OpenAcc) : Bool :=
  (accStreams a).any (fun n => !(strmOf (slotOf s a.first.core a.first.slot) n).checks.isEmpty)

/-- R133 0x28: k_count disagrees at finish. The first descriptor's opcode decides; that the descriptors of one accumulation
share an opcode is nowhere required (R131; DESIGN CHOICE, log entry 112). -/
def kCountWrong (a : OpenAcc) : Bool :=
  (sdOpcode a.first.desc = 1 || sdOpcode a.first.desc = 3) && planK (sdPlan a.first.desc) ≠ 32 * (a.used.map (·.k)).sum

/-- R208, R210: the words that count: those of the columns live by their classes or selected for audit. -/
def liveWords (a : OpenAcc) (ws : List AccWord) : List AccWord :=
  if a.armed then (ws.zipIdx.filter (fun p => a.live.contains (p.2 % 64) || a.audited.contains (p.2 % 64))).map (·.1) else ws

/-- R96, R728: the attempt begins again with a replay count: from the held half, or by rewinding its streams. While the
group is being saved the tile is discarded and the replay deferred (R501 step 2). -/
def restart (s : State) (id : Nat) (a : OpenAcc) : State :=
  let e := engOf s id
  let half := 1 - e.nextHalf
  let h := halfOf e half
  if h.held && !savesBegun s a.first.core then
    let ld := loadOf s id half h.gc (sdPlan a.first.desc) ((a.used.map (·.k)).sum)
    let r := runSteps s { a with bounds := [], sums := none } ld []
    let s := bump s ctrEngKSteps id (32 * (a.used.map (·.k)).sum)
    setEng s id (setTile { e with acc := some r.1, ended := true } a.tile { words := r.2, done := none })
  else
    let s := setEng s id (setTile { e with
      acc := some { a with pending := a.used.length, kBlocks := 0, loads := 0, bounds := [], sums := none }, ended := false } a.tile .fresh)
    let s := if h.held then setEng s id (setHalf (engOf s id) half .fresh) else s
    each (accStreams a) s (fun n s => rewindStream s a.first.core a.first.slot n a.tile)

/-- R138: the preload, which a replay reads again, carries poison. -/
def preloadPoison (s : State) (a : OpenAcc) : Bool :=
  sdPreload a.first.desc ≠ 0 && tilePoison s a.first.core (sdIn a.first.desc)

/-- R728, R732: a checksum mismatch. -/
def checkMismatch (s : State) (id : Nat) (a : OpenAcc) : State :=
  let e := engOf s id
  let code := if e.defect = 1 then 0x86 else if e.defect = 2 then 0x98 else if sdOpcode a.first.desc = 3 then 9 else 6
  let s := detect s (elCore a.first.core) code a.checked 0
  let s := bump s (if sdOpcode a.first.desc = 3 then ctrEngSumacBounds else ctrEngChecksum) id 1
  let s := if e.defect = 1 then injectionSeen (setEng s id { engOf s id with defect := 0 }) 1 id else s
  if a.checked then
    -- hard: the tile is withheld
    setEng s id { engOf s id with acc := some { a with again := true } }
  else if preloadPoison s a then engPoison s id a.first 2
  else restart (bump s ctrEngCheckReplays id 1) id { a with checked := true }

/-- The factors of a control word: FP32 values and how words select them. -/
def factorOf (s : State) (c : Nat) (d : BitVec 512) (i j : Nat) : Val :=
  let els := (tileVals s c (sdScale d)).headD []
  match epScale (sdEpi d) with
  | 1 => els.getD 0 .nan
  | 2 => els.getD j .nan
  | _ => els.getD i .nan

/-- The bias of a word. -/
def biasOf (s : State) (c : Nat) (d : BitVec 512) (i j : Nat) : Val :=
  let els := (tileVals s c (sdBias d)).headD []
  if epBias (sdEpi d) = 1 then els.getD j .nan else els.getD i .nan

/-- The exponent of a finite value. -/
def expOf : Val → Int
  | .fin _ _ e => e
  | _ => 0

/-- R197: the class of word (i, j) of a pass. -/
def passClass (s : State) (a : OpenAcc) (i j : Nat) (b : Bounds) : Nat :=
  let c := a.first.core
  let d := a.first.desc
  let et := planEt (sdPlan d)
  let b := widen b (.fin false (planK (sdPlan d)) (et + 23))
  let f := factorOf s c d i j
  let b := if epScale (sdEpi d) = 0 then b else scaleBounds b f
  let b := if epBias (sdEpi d) = 0 then b
    else biasBounds b (biasOf s c d i j) et (if epScale (sdEpi d) = 0 then 0 else expOf f)
  classOf b

/-- R203, R204: the class map of a pass. -/
def classMap (d : BitVec 512) (cs : List Nat) : List Byte :=
  let e := sdEpi d
  let arr := packBits 2 cs
  bytesOf 32 (suMode e + bn (suGc e) * 4 + epScale e * 2 ^ 8 + epBias e * 2 ^ 10 + epAct e * 2 ^ 12 + suRate e * 2 ^ 16 +
    sdPlan d * 2 ^ 64 + sdRow d * 2 ^ 128 + sdCol d * 2 ^ 152 + crc32c arr * 2 ^ 192 +
    (cs.filter (· = 0)).length * 2 ^ 224 + (cs.filter (· = 2)).length * 2 ^ 237) ++ arr

/-- R138, R150: a scale, bias or table tile that an epilogue or pass reads carries poison. -/
def sidePoison (s : State) (c : Nat) (d : BitVec 512) : Bool :=
  (epScale (sdEpi d) ≠ 0 && tilePoison s c (sdScale d)) || (epBias (sdEpi d) ≠ 0 && tilePoison s c (sdBias d)) ||
  (sdOpcode d ≠ 3 && epAct (sdEpi d) = 5 && tilePoison s c (epTable (sdEpi d)))

/-- R203, R217: the pass writes its class map and is over. -/
def finishPass (s : State) (id : Nat) (a : OpenAcc) : State :=
  let c := a.first.core
  let d := a.first.desc
  if sidePoison s c d then engPoison s id a.first 2
  else
    let cs := a.bounds.zipIdx.map (fun p => passClass s a (p.2 / 64) (p.2 % 64) p.1)
    let e := engOf s id
    let half := 1 - e.nextHalf
    let keep_ := (halfOf e half).held
    let s := coreWrite s c (sdOut d) (classMap d cs)
    let e := setTile { e with acc := none, ended := false } a.tile .fresh
    let s := releaseMarks (setEng s id (if keep_ then { e with kept := some (half, a) } else freeHeld e)) a
    let s := if a.checked then masked s 0 else s
    takeReplay (completeStep s c a.first.slot a.finish) id

/-- R437 to R440, R166: the 179 reduction packets of a partial. -/
def partialPackets (a : OpenAcc) (ws : List AccWord) : List Packet :=
  let d := a.first.desc
  let c := a.first.core
  let ovf := ws.any wordOvf
  (List.range 179).map (fun n =>
    let chunk := (ws.drop (23 * n)).take 23
    let p := rpMake (sdRow d) (sdCol d) (accEt a) a.replay 1 (bn (planPreload (sdPlan d))) ovf false (planK (sdPlan d))
      (chunk ++ List.replicate (23 - chunk.length) AccWord.zero)
    { mkPacket (epCore c) (epCore (sdDest d)) 2 4 (.coreCopy c) with
      ext := BitVec.ofNat 64 (sdTag d + n * 2 ^ 16), payload := bytesOf 256 p, poison := [] })

/-- R100, R166: the partial leaves for its destination; a twin only tells its primary. -/
def sendPartial (s : State) (id : Nat) (a : OpenAcc) : State :=
  let e := engOf s id
  let ws := (tileOf e a.tile).words
  let sent (s : State) : State :=
    let e := engOf s id
    let s := setEng s id (freeHeld (setTile { e with acc := none, ended := false, sent := e.sent ++ [a] } a.tile .fresh))
    let s := if ws.any (fun w => w.tag ≠ .finite) then bump s ctrEngNonfinite id 1 else s
    let s := if a.checked then masked s 0 else s
    takeReplay (completeStep s a.first.core a.first.slot a.finish) id
  match gate s a.first.core a.first.slot a.finish (crc32c (wordBytes 10 ws)) with
  | .shut t => t
  | .twin t => sent t
  | .open_ t => sent (each (partialPackets a ws) t (fun p s =>
      launch s { p with dest := epCore (relocated (slotOf s a.first.core a.first.slot) (sdDest a.first.desc)) }))

/-- R84, R95 to R97: the check of an accumulation with reduce = 0. -/
def finishTile (s : State) (id : Nat) (a : OpenAcc) : State :=
  let e := engOf s id
  let ws := (tileOf e a.tile).words
  let d := a.first.desc
  let arith (cause : Nat) (et : Int) : State :=
    engArith (discardAcc s id a) a.first.core a.first.slot a.finish cause id (sdRow d) (sdCol d) et
  if (liveWords a ws).any wordOver then
    if a.replay = 3 then arith 1 (accEt a)
    else if etOutside (effectiveEt a.et (a.replay + 1)) then arith 5 (effectiveEt a.et (a.replay + 1))
    else if preloadPoison s a then engPoison s id a.first 2
    else restart (bump s ctrEngReplays id 1) id { a with replay := a.replay + 1 }
  else
    let s := if (liveWords a ws).any (fun w => w.tag ≠ .finite) then bump s ctrEngNonfinite id 1 else s
    let s := if a.checked then masked s 0 else s
    takeReplay (releaseMarks (setEng s id (freeHeld (setTile { e with acc := none, ended := false } a.tile
      { words := ws, done := some a }))) a) id

/-- R727: the checksum unit's sums, where it kept them, are those of the tile's words. -/
def sumsHold (a : OpenAcc) (ws : List AccWord) : Bool := a.sums.all (fun t => sumsAgree t ws)

/-- The finalisation check of an engine. `mismatch` is an upset of the array, which the sums of R725 then show. -/
def finalise (s : State) (id : Nat) (mismatch : Bool) : State :=
  let e := engOf s id
  match e.acc with
  | none => s
  | some a =>
    let c := a.first.core
    if !e.ended || a.again || checksPending s a then s
    else if kCountWrong a then
      engReject (discardAcc s id a) c a.first.slot a.finish 0x28 id a.first.desc
    else if checked s c && (mismatch || e.defect ≠ 0 || !(sumsHold a (tileOf e a.tile).words)) then
      settleCore (checkMismatch s id a) c
    else if sdOpcode a.first.desc = 3 then settleCore (finishPass s id a) c
    else if planReduce (sdPlan a.first.desc) then settleCore (sendPartial s id a) c
    else settleCore (finishTile s id a) c

/-! ## The epilogue, R148 to R166 -/

/-- R150 to R153: V′ of word (i, j), before the activation. -/
def preAct (s : State) (a : OpenAcc) (i j : Nat) (w : AccWord) : Val :=
  let c := a.first.core
  let d := a.first.desc
  let f := factorOf s c d i j
  let v := wordVal (accEt a) w
  let v1 := if epScale (sdEpi d) = 0 then v else scaleStage v f
  if epBias (sdEpi d) = 0 then v1
  else biasStage v1 (biasOf s c d i j) (accEt a + (if epScale (sdEpi d) = 0 then 0 else expOf f))

/-- R153: the epilogue's value of a word. -/
def epiVal (s : State) (a : OpenAcc) (i j : Nat) (w : AccWord) : Val :=
  let d := a.first.desc
  if a.armed && !(a.live.contains j) && !(a.audited.contains j) then .fin false 0 0
  else
    let user (n : Nat) : Nat := natOf (coreRead s a.first.core (epTable (sdEpi d) + 32 + 4 * n) 4)
    activate (epAct (sdEpi d)) (epTs (sdEpi d)) user (preAct s a i j w)

/-- R159, R160: how word n is rounded. -/
def roundingOf (d : BitVec 512) (n : Nat) : Rounding :=
  if epStochastic (sdEpi d) then .stochastic (hash24 (sdSeed d) (sdRow d) (sdCol d) n) else .nearest

/-- What an epilogue makes: payload, values saturated, values written as NaN. -/
structure EpiOut where
  payload   : List Byte
  saturated : Nat
  nan       : Nat

/-- R158 to R165, R350: the payload of an output tile, from the values row by row. -/
def epiPayload (d : BitVec 512) (vals : List (List Val)) : EpiOut :=
  let fmt := epFmt (sdEpi d)
  let w := fmtBits fmt
  if fmtScaled fmt then
    let blocks := vals.zipIdx.map (fun r => (List.range 2).map (fun b =>
      convertBlock fmt ((List.range 32).map (fun t => roundingOf d (r.2 * 64 + 32 * b + t))) ((r.1.drop (32 * b)).take 32)))
    let band (b : Nat) : List Byte :=
      let mine := blocks.map (fun r => r.getD b (0, [], 0))
      mine.map (fun x => BitVec.ofNat 8 x.1) ++ ((columns 32 (mine.map (·.2.1))).map (packBits w)).flatten
    { payload := band 0 ++ band 1
      saturated := (blocks.map (fun r => (r.map (·.2.2)).sum)).sum
      nan := 32 * (blocks.map (fun r => (r.filter (·.1 = 255)).length)).sum }
  else
    match fmtOf fmt with
    | none => { payload := [], saturated := 0, nan := 0 }
    | some f =>
      let codes := vals.zipIdx.map (fun r => r.1.zipIdx.map (fun x =>
        convert f (roundingOf d (r.2 * 64 + x.2)) (epSat (sdEpi d)) x.1))
      { payload := ((columns 64 (codes.map (fun r => r.map (·.1)))).map (packBits w)).flatten
        saturated := (codes.map (fun r => (r.filter (·.2.1)).length)).sum
        nan := (codes.map (fun r => (r.filter (·.2.2)).length)).sum }

/-- R198, R211: words whose V′ is not below 0 in the columns selected for audit, where every word is classed skip. -/
def missesOf (s : State) (a : OpenAcc) (ws : List AccWord) : Nat :=
  if a.audited.isEmpty then 0
  else (ws.zipIdx.filter (fun p => a.audited.contains (p.2 % 64) &&
    (match preAct s a (p.2 / 64) (p.2 % 64) p.1 with
     | .fin n m _ => !n || m = 0
     | .inf n => !n
     | .nan => true))).length

/-- The rows of 64 values of a tile's words. -/
def wordRows {α : Type} (f : Nat → Nat → AccWord → α) (ws : List AccWord) : List (List α) :=
  (pieces 64 ws).zipIdx.map (fun r => r.1.zipIdx.map (fun x => f r.2 x.2 x.1))

/-- The tile that waits longest for the epilogue: the older of the two. -/
def doneTile (e : Engine) : Option (Nat × OpenAcc) :=
  match (tileOf e (1 - e.curTile)).done, (tileOf e e.curTile).done with
  | some a, _ => some (1 - e.curTile, a)
  | none, some a => some (e.curTile, a)
  | none, none => none

/-- R730: a mismatch of the epilogue: the tile is run once more, then withheld. -/
def epiMismatch (s : State) (id tile : Nat) (a : OpenAcc) : State :=
  let c := a.first.core
  let s := bump (detectAt s (elCore c) 7 2 c a.again) ctrCoreEpiMismatch c 1
  takeReplay (setEng s id (setTile (engOf s id) tile
    { tileOf (engOf s id) tile with done := if a.again then none else some { a with again := true } })) id

/-- The tile has been written: it is drained and its step is complete; a replay that waited for it begins (R387). -/
def drainTile (s : State) (id tile : Nat) (a : OpenAcc) : State :=
  let s := setEng s id (setTile (engOf s id) tile .fresh)
  let s := if a.again then masked s 1 else s
  takeReplay (completeStep s a.first.core a.first.slot a.finish) id

/-- R148, R166: the epilogue writes the oldest finished tile of an engine and reports completion. -/
def epilogueOut (s : State) (id : Nat) (mismatch : Bool) : State :=
  let e := engOf s id
  match doneTile e with
  | none => s
  | some (tile, a) =>
    let c := a.first.core
    let k := a.first.slot
    let d := a.first.desc
    let ws := (tileOf e tile).words
    if checked s c && (mismatch || plantedAt s 7 2 c) then epiMismatch s id tile a
    else if sdOutMode d = 1 then
      let p := sdPlan d
      let ro := planResult p a.et a.replay false false (ws.any (fun w => w.tag ≠ .finite))
      let body := wordBytes 8 ws
      let out (s : State) : State := settleCore (drainTile (coreWrite s c (sdOut d)
        (mkHeader 2 0 false false false 64 64 ro (sdRow d) (sdCol d) (crc32c body) body.length ++ body)) id tile a) c
      match gate s c k a.finish (crc32c body) with
      | .shut t => t
      | .twin t => out t
      | .open_ t => out t
    else if sidePoison s c d then engPoison s id a.first 2
    else
      let o := epiPayload d (wordRows (epiVal s a) ws)
      let misses := missesOf s a ws
      let bytes := mkHeader 1 (epFmt (sdEpi d)) false false false 64 64 0 (sdRow d) (sdCol d) (crc32c o.payload) o.payload.length ++ o.payload
      let count (s : State) : State :=
        let s := bump (bump (bump s ctrEngSaturated id o.saturated) ctrEngNaN id o.nan) ctrEngMisses id misses
        each (List.range misses) s (fun _ s => detectAt s (elCore c) 9 1 id true)
      let write (s : State) : State :=
        if sdOutMode d = 3 then
          let h := imEngineHq (slotOf s c k).image (id % 4)
          match takeFree s c k h with
          | none => s
          | some (i, t) =>
            let t := coreWrite t c (hqAddr (imHq (slotOf t c k).image h) i) bytes
            settleCore (drainTile (count (putReady t c k i)) id tile a) c
        else settleCore (drainTile (count (coreWrite s c (sdOut d) bytes)) id tile a) c
      if sdOutMode d = 3 && (hqOf (slotOf s c k) (imEngineHq (slotOf s c k).image (id % 4))).free.isEmpty then settleCore s c
      else
        match gate s c k a.finish (crc32c o.payload) with
        | .shut t => t
        | .twin t => write t
        | .open_ t => write t

/-! ## Tile checks, R354, R355 -/

/-- The descriptor of a context that an engine works on: the one whose load it waits for, the open accumulation's, a
finished tile's, or else the step at hand. -/
def consumerOf (e : Engine) (c k ip : Nat) : Accepted :=
  let mine (w : Accepted) : Bool := w.core = c && w.slot = k
  (((e.waiting.toList ++ (e.acc.toList ++ e.tile0.done.toList ++ e.tile1.done.toList).map (·.first)).filter mine).head?).getD
    { core := c, slot := k, step := ip, desc := 0 }

/-- R355, R138: the first pending check of a stream is made: a mismatch is poison for its consuming context. -/
def verifyStream (s : State) (c k n : Nat) : State :=
  let t := strmOf (slotOf s c k) n
  match t.checks with
  | [] => s
  | x :: rest =>
    let s := bump (setStrm s c k n { t with checks := rest }) ctrCopyVerified c 1
    let bad := x || plantedAt s 5 6 c
    if !bad then s
    else
      let s := bump (detectAt s (elCore c) 5 6 c false) ctrCopyMismatch c 1
      match t.engine with
      | some (en, _) => engPoison s (engineOf c en) (consumerOf (engOf s (engineOf c en)) c k (slotOf s c k).ip) 0
      | none =>
        settleCore (poisonStop s c k (((vectorUser s c k n).map (·.1)).getD (slotOf s c k).ip) c) c

/-- R354, R355: the first pending check of a copy engine's tile copies: a mismatch poisons the tile written (R510). -/
def verifyCopy (s : State) (unit : Unit) : State :=
  match (jobsOf s unit).find? (fun j => !j.checks.isEmpty) with
  | none => s
  | some j =>
    let n := j.checks.headD 0
    let l := segsOf j.segs n
    let s := bump s ctrCopyVerified j.core 1
    let bad := checkBad (gathered l 1) (gathered l 2) || plantedAt s 5 6 j.core
    let s := if bad then bump (bump (detectAt s (elCore j.core) 5 6 j.core false) ctrCopyMismatch j.core 1) ctrRegionPoisoned
        (regionOf j.core) (ceilDiv (gathered l 2).length 8) else s
    let r := tileOut s (note j n (8 + bn bad)) n bad
    pumpCopies (setJobs s unit (onFirst (fun x => sameJob x j) (fun _ => r) (jobsOf s unit))) unit

/-! ## The meanings -/

/-- `mma`, R134. -/
def execMma (core : Nat) (s : State) : Host.Outcome State Fault Refusal := .next (engStep s core 1)

/-- `mma.gc`, R183. -/
def execMmaGc (core : Nat) (s : State) : Host.Outcome State Fault Refusal := .next (engStep s core 2)

/-- `sumac`, R197. -/
def execSumac (core : Nat) (s : State) : Host.Outcome State Fault Refusal := .next (engStep s core 3)

/-- `epi`, R135. -/
def execEpi (core : Nat) (s : State) : Host.Outcome State Fault Refusal := .next (engStep s core 4)

/-- R378: the load is complete and the engine begins its K-steps. -/
def execLoadComplete (engine : Nat) (s : State) : Host.Outcome State Fault Refusal :=
  .next (if coreRuns s (coreOfEngine engine) then runLoad s engine else s)

/-- R84. -/
def execAccumulationFinalisation (engine : Nat) (mismatch : Bool) (s : State) : Host.Outcome State Fault Refusal :=
  .next (if engineRuns s (coreOfEngine engine) then finalise s engine mismatch else s)

/-- R148. -/
def execEpilogueOutput (engine : Nat) (mismatch : Bool) (s : State) : Host.Outcome State Fault Refusal :=
  .next (if engineRuns s (coreOfEngine engine) then epilogueOut s engine mismatch else s)

/-- R355; a stream number of 16 stands for the core copy engine, 17 for the cluster's. -/
def execOperandCheckVerify (core slot stream : Nat) (s : State) : Host.Outcome State Fault Refusal :=
  .next (if stream < 16 then verifyStream s core slot stream
    else if stream = 16 then verifyCopy s (.coreCopy core) else verifyCopy s (.hubCopy (clusterOf core)))

end Sys2Proof.Machine
end

