-- ==== Sys2Proof/Machine/Vector.lean ====
section
/-! DEFINITION. The vector unit: catalogue kernels and expression programs, row by row (03_engines.md, R168 to R176). -/

namespace Sys2Proof.Machine

/-! ## Selections and folds -/

/-- R173: the element that a selection takes next: the largest, the lower index on a tie. A comparison with a NaN counts as
not less, so that the lower index is taken (DESIGN CHOICE, log entry 112: the rule is silent on NaN). -/
def bestOf : List (Nat × Nat) → Option (Nat × Nat)
  | [] => none
  | p :: t =>
    match bestOf t with
    | none => some p
    | some q => if fLt? p.1 q.1 = some true then some q else some p

/-- R173: the n largest (value, index) pairs in descending order. -/
def topOf : Nat → List (Nat × Nat) → List (Nat × Nat)
  | 0, _ => []
  | n + 1, l =>
    match bestOf l with
    | none => []
    | some p => p :: topOf n (l.filter (· ≠ p))

/-- Values with their indices. -/
def indexed (l : List Nat) : List (Nat × Nat) := l.zipIdx

/-- A row's maximum. -/
def rowMax : List Nat → Nat
  | [] => 0
  | x :: t => t.foldl fMax x

/-- Pairs as one list. -/
def flatPairs (l : List (Nat × Nat)) : List Nat := l.flatMap (fun p => [p.1, p.2])
/-- The pairs of such a list. -/
def pairsOf (l : List Nat) : List (Nat × Nat) := (pieces 2 l).map (fun p => (p.getD 0 0, p.getD 1 0))

/-- R171: how the parts of a stage fold: sums and maxima left to right, selections merged, the first target value found.
The elements of a row split over partners are numbered part by part in the order of the fold, row_len to a part (DESIGN
CHOICE, log entry 105: no rule gives a split row's index). -/
def foldParts (kind k len : Nat) (parts : List (List Nat)) : List Nat :=
  match kind with
  | 0 => match parts.flatten with
         | [] => []
         | x :: t => [t.foldl fAdd x]
  | 1 => [rowMax parts.flatten]
  | 2 => flatPairs (topOf k ((parts.zipIdx.map (fun p => (pairsOf p.1).map (fun e => (e.1, e.2 + p.2 * len)))).flatten))
  | _ => parts.flatten.take 1

/-- What kind of fold stage i of a kernel has: 0 sum, 1 maximum, 2 selection, 3 target value. -/
def stageKind (kernel i : Nat) : Option Nat :=
  match kernel, i with
  | 1, 0 => some 1
  | 1, 1 => some 0
  | 2, 0 => some 1
  | 2, 1 => some 0
  | 3, 0 => some 0
  | 3, 1 => some 0
  | 4, 0 => some 0
  | 6, 0 => some 2
  | 7, 0 => some 1
  | 7, 1 => some 0
  | 7, 2 => some 2
  | 8, 0 => some 1
  | 8, 1 => some 0
  | 8, 2 => some 3
  | 9, 0 => some 2
  | 0xA, 0 => some 0
  | 0xB, 0 => some 1
  | _, _ => none

/-- The softmax weight of an element. -/
def softW (m sum x : Nat) : Nat := fDiv (fExp (fSub x m)) sum
/-- R173: the log-softmax of an element. -/
def logW (m sum x : Nat) : Nat := fSub (fSub x m) (fLog sum)

/-- The first value of a fold. -/
def one (l : List Nat) : Nat := l.headD 0

/-- R173: the index that a target value spells, an FP32 number without a fraction (DESIGN CHOICE, log entry 105). -/
def targetIndex (y : Nat) : Option Nat :=
  match dec32 y with
  | .fin false m e =>
    if 0 ≤ e then some (m * 2 ^ e.toNat) else if m % 2 ^ (-e).toNat = 0 then some (m / 2 ^ (-e).toNat) else none
  | _ => none

/-- R173: the own part of stage i: `r` are the folds before it, `x` the row, `y` input 1. -/
def stagePart (kernel i k len : Nat) (r : List (List Nat)) (x y : List Nat) : List Nat :=
  let r0 := one (r.getD 0 [])
  let r1 := one (r.getD 1 [])
  let expSum := [laneSum (x.map (fun v => fExp (fSub v r0)))]
  match kernel, i with
  | 1, 0 => [rowMax x]
  | 1, _ => expSum
  | 2, 0 => [rowMax x]
  | 2, _ => expSum
  | 3, 0 => [laneSum x]
  | 3, _ =>
    let mu := fDiv r0 (fOfNat len)
    [laneSum (x.map (fun v => fMul (fSub v mu) (fSub v mu)))]
  | 4, _ => [laneSum (x.map (fun v => fMul v v))]
  | 6, _ => flatPairs (topOf k (indexed x))
  | 7, 0 => [rowMax x]
  | 7, 1 => expSum
  | 7, _ => flatPairs (topOf k (indexed (x.map (softW r0 r1))))
  | 8, 0 => [rowMax x]
  | 8, 1 => expSum
  | 8, _ => ((targetIndex (y.headD 0)).bind (fun t => x[t]?)).elim [] (fun v => [logW r0 r1 v])
  | 9, _ => flatPairs (topOf 1 (indexed x))
  | 0xA, _ => [laneSum x]
  | _, _ => [rowMax (x.map fAbs)]

/-- R173: the outputs of a kernel from its folds and inputs. An index is written as an FP32 number, weights and sums go to
output 0 and indices and the mean to output 1, and a cross-entropy target that names no element of the row gives a free
value (DESIGN CHOICE, log entry 105). -/
def kernelOut (kernel len p0 p1 : Nat) (r : List (List Nat)) (ins : List (List Nat)) : List Nat × List Nat :=
  let x := ins.getD 0 []
  let y := ins.getD 1 []
  let z := ins.getD 2 []
  let r0 := one (r.getD 0 [])
  let r1 := one (r.getD 1 [])
  match kernel with
  | 1 => (x.map (softW r0 r1), [])
  | 2 => (x.map (logW r0 r1), [])
  | 3 =>
    let mu := fDiv r0 (fOfNat len)
    let q := fRsqrt (fAdd (fDiv r1 (fOfNat len)) p0)
    ((x.zip (y.zip z)).map (fun e => fAdd (fMul (fMul (fSub e.1 mu) q) e.2.1) e.2.2), [])
  | 4 =>
    let q := fRsqrt (fAdd (fDiv r0 (fOfNat len)) p0)
    ((x.zip y).map (fun e => fMul (fMul e.1 q) e.2), [])
  | 5 =>
    (((pieces 2 x).filter (·.length = 2)).zip (y.zip z) |>.flatMap (fun e =>
      let a := e.1.getD 0 0
      let b := e.1.getD 1 0
      let c := e.2.1
      let s := e.2.2
      [fSub (fMul a c) (fMul b s), fAdd (fMul a s) (fMul b c)]), [])
  | 6 => ((pairsOf (r.getD 0 [])).map (·.1), (pairsOf (r.getD 0 [])).map (fun p => fOfNat p.2))
  | 7 =>
    let best := pairsOf (r.getD 2 [])
    let sum := match best.map (·.1) with
      | [] => 0
      | w :: t => t.foldl fAdd w
    (best.map (fun p => fDiv p.1 sum), best.map (fun p => fOfNat p.2))
  | 8 =>
    match r.getD 2 [] with
    | v :: _ => ([fNeg v], [])
    | [] => ([(Config.fp32Open 0x108 (y.headD 0) len 0).toNat], [])
  | 9 => ([fOfNat (((pairsOf (r.getD 0 [])).headD (0, 0)).2)], [])
  | 0xA => ([r0], [fDiv r0 (fOfNat len)])
  | 0xB => ([r0], [])
  | _ =>
    let w := (ins.getD 3 []).take 4
    let f (out : Nat) : List Nat := (List.range len).map (fun j =>
      (Config.adamW out (BitVec.ofNat 32 p0) (BitVec.ofNat 32 p1)
        [BitVec.ofNat 32 (x.getD j 0), BitVec.ofNat 32 (y.getD j 0), BitVec.ofNat 32 (z.getD j 0)] (w.map (BitVec.ofNat 32))).toNat)
    (f 0, f 1)

/-- R391: a row of an output has row_len elements; those that a kernel does not state are free values (DESIGN CHOICE, log
entry 105). -/
def padRow (s : State) (len : Nat) (l : List Nat) : State × List Nat :=
  let n := len - l.length
  ({ s with free := s.free + n }, l.take len ++ (List.range n).map (fun i => (Config.freeWord (s.free + i)).toNat % 2 ^ 32))

/-! ## Expression programs, R174 to R176 -/

/-- R174: its constants. -/
def progConsts (s : State) (c : Nat) (d : BitVec 512) : List Nat :=
  (List.range 8).map (fun i => coreNat s c (vkProg d + 32 + 4 * vkProgLen d + 4 * i) 4)

/-- R176: an operation that is rejected: a reserved op, or a reserved source in any of its three fields. -/
def opBad (o : Nat) : Bool := (opArity (bitsOf o 0 8)).isNone || bitsOf o 27 5 ≠ 0 || (opFields o).any (fun x => decide (24 ≤ x))

/-- R176: one operation. -/
def opResult (op a b c : Nat) : Nat :=
  match op with
  | 1 => fAdd a b
  | 2 => fSub a b
  | 3 => fMul a b
  | 4 => fFma a b c
  | 5 => fDiv a b
  | 6 => fMax a b
  | 7 => fMin a b
  | 8 => fAbs a
  | 9 => fNeg a
  | 0xA => fFloor a
  | 0xB => fExp a
  | 0xC => fLog a
  | 0xD => fSqrt a
  | 0xE => fRsqrt a
  | 0xF => fTanh a
  | 0x10 => fSigmoid a
  | 0x11 => fLess a b
  | 0x12 => fEqual a b
  | 0x13 => fSelect a b c
  | _ => a

/-- A source: a temporary (one never written is open), or a constant. -/
def sourceOf (temps : Tab Nat) (consts : List Nat) (x : Nat) : Nat :=
  if x < 16 then look temps x (Config.fp32Open 0x100 x 0 0).toNat else consts.getD (x - 16) 0

/-- R175: the program on one element. -/
def runProg (ops consts : List Nat) (temps : Tab Nat) : Tab Nat :=
  ops.foldl (fun t o =>
    let src (lo : Nat) : Nat := sourceOf t consts (bitsOf o lo 5)
    put t (bitsOf o 8 4) (opResult (bitsOf o 0 8) (src 12) (src 17) (src 22))) temps

/-- R175: the program on every element of a row. -/
def progRow (ops consts : List Nat) (len : Nat) (ins : List (Nat × List Nat)) : List Nat × List Nat :=
  let per := (List.range len).map (fun e =>
    runProg ops consts (ins.foldl (fun t p => put t p.1 (p.2.getD e 0)) []))
  (per.map (fun t => sourceOf t [] 14), per.map (fun t => sourceOf t [] 15))

/-! ## Vector steps -/

/-- R169, R176: a step with a reserved value. -/
def vecBad (s : State) (c : Nat) (d : BitVec 512) : Bool :=
  let expr := fld d 0 8 = 0x11
  let k := vkKernel d
  vkReserved d || (expr && k ≠ 0) || (!expr && (k = 0 || 0xC < k)) || vkRowLen d = 0 || decide (2 ^ 20 < vkRowLen d) ||
  4 < fld d 304 3 || ((k = 6 || k = 7) && ((vkParam0 d).toNat = 0 || 64 < (vkParam0 d).toNat)) ||
  (expr && (progOps s c d).any opBad) || (vkPartners d).any (fun p => !(coreExists s p))

/-- R408 0x66: a stream that cannot serve; one whose rows are not of row_len elements (R391) is rejected with the same
cause (DESIGN CHOICE, log entry 105). -/
def vecStreamBad (s : State) (c k : Nat) (d : BitVec 512) : Bool :=
  let v := slotOf s c k
  (vecIns s c d).any (fun j =>
    let t := strmOf v (vkIn d j)
    !t.bound || stForm t.desc ≠ 1 || (t.row.isNone && decide (strmLength t.desc ≤ t.done)) || stRowLen t.desc ≠ vkRowLen d) ||
  (vecOuts s c d).any (fun q =>
    let t := strmOf v (vkOut d q)
    !t.bound || stForm t.desc ≠ 2 || strmLength t.desc ≤ t.done || stRowLen t.desc ≠ vkRowLen d)

/-- R132: why a vector step is rejected, when it is. -/
def vecCause (s : State) (c k : Nat) (d : BitVec 512) : Option Nat :=
  let prog := fld d 0 8 = 0x11
  let h := natOf (coreRead s c (vkProg d) 32)
  let n := 4 * vkProgLen d + 32
  if prog && decide (coreBytes < vkProg d + 32 + n) then some 0x23
  else if prog && (thKind h ≠ 1 || !(thUsable h) || decide (thBytes h < n)) then some 0x27
  else if vecBad s c d then some 0x21
  else if vecStreamBad s c k d then some 0x66
  else none

/-- R137, R256: the vector step a core's unit works on: the first issued, but for those of a FAULTED slot. -/
def vectorStep (s : State) (c : Nat) : Option (Nat × Issued × BitVec 512) :=
  (((coreOf s c).vecQ ++ List.range 4).filter (fun k => (slotOf s c k).state ≠ .faulted)).findSome? (fun k =>
    let v := slotOf s c k
    (v.issued.find? (fun i => i.op = 0x10 || i.op = 0x11)).map (fun i =>
      (k, i, recordOf 512 (coreRead s c (imStepBase v.image + 64 * i.step) 64))))

/-- R171: a core's partial of a row and stage is formed for its partners, unless one of them has still to fold the
partial that an earlier step formed there. -/
def formPart (s : State) (c key : Nat) (partners : List Nat) (own : List Nat) : Option State :=
  let co := coreOf s c
  if partners.isEmpty || co.formed.contains key then some s
  else if (look? co.owed key).isSome then none
  else some (setCore s c { co with
    parts := put co.parts key (own.map (BitVec.ofNat 32)), owed := put co.owed key partners, formed := key :: co.formed })

/-- R171: core c has folded the partial of core p. -/
def foldedPart (s : State) (c p key : Nat) : State :=
  let co := coreOf s p
  let left := (look co.owed key []).filter (· ≠ c)
  setCore s p (if left.isEmpty then { co with parts := cut co.parts key, owed := cut co.owed key }
    else { co with owed := put co.owed key left })

/-- R171: the folds of a row, as far as the partners have formed their parts; the own parts are noted. Fuel counts
the stages. -/
def vecFolds (c : Nat) (v : Slot) (d : BitVec 512) (row : Nat) (x y : List Nat) :
    Nat → Nat → State → List (List Nat) → State × Option (List (List Nat))
  | 0, _, s, r => (s, some r)
  | f + 1, i, s, r =>
    let kernel := vkKernel d
    match stageKind kernel i with
    | none => (s, some r)
    | some kind =>
      let k := if kernel = 9 then 1 else (vkParam0 d).toNat
      let key := row * 8 + i
      let own := stagePart kernel i k (vkRowLen d) r x y
      let partners := (vkPartners d).map (relocated v)
      match formPart s c key partners own with
      | none => (s, none)
      | some s =>
        let others := partners.map (fun p =>
          if (look (coreOf s p).owed key []).contains c then look? (coreOf s p).parts key else none)
        if others.all (·.isSome) then
          let parts := own :: others.map (fun o => (o.getD []).map (·.toNat))
          vecFolds c v d row x y f (i + 1) s (r ++ [foldParts kind k (vkRowLen d) parts])
        else (s, none)

/-- The values of an input's row at hand. -/
def inRow (v : Slot) (d : BitVec 512) (j : Nat) : List Nat := ((strmOf v (vkIn d j)).row.getD []).map (·.toNat)

/-- R173, R175: the outputs of a row, when the partners' parts are there. -/
def vecResult (s : State) (c k : Nat) (d : BitVec 512) (row : Nat) : State × Option (List Nat × List Nat) :=
  let v := slotOf s c k
  let ins := vecIns s c d
  if fld d 0 8 = 0x11 then
    (s, some (progRow (progOps s c d) (progConsts s c d) (vkRowLen d) (ins.map (fun j => (j, inRow v d j)))))
  else
    let r := vecFolds c v d row (inRow v d 0) (inRow v d 1) 4 0 s []
    (r.1, r.2.map (fun folds => kernelOut (vkKernel d) (vkRowLen d) (vkParam0 d).toNat
      (vkParam1 d).toNat folds ((List.range 4).map (fun j => if ins.contains j then inRow v d j else []))))

/-- R137: a vector step whose rows have all been written is complete. -/
def settleVector (s : State) (c : Nat) : State :=
  match vectorStep s c with
  | none => s
  | some (k, i, d) =>
    let v := slotOf s c k
    if vkRows d ≤ i.done && (vecOuts s c d).all (fun q =>
        let t := strmOf v (vkOut d q)
        t.row.isNone && t.staged.isEmpty) then
      let co := coreOf s c
      settleCore (completeStep (setCore s c { co with vecQ := co.vecQ.erase k, formed := [] }) c k i.step) c
    else s

/-- R731: a mismatch of the two issues of a row. -/
def vecMismatch (s : State) (c : Nat) : State :=
  let hard := (coreOf s c).vecRetry
  let s := bump (detectAt s (elCore c) 8 2 c hard) ctrCoreVecMismatch c 1
  setCore s c { coreOf s c with vecRetry := true }

/-- R408: an out-stream has no row left. -/
def outExhausted (t : Stream) : Bool := t.row.isNone && decide (strmLength t.desc ≤ t.done + t.staged.length)

/-- The unit executes the next row when its inputs are there and its outputs are free. -/
def runRow (s : State) (c : Nat) (mismatch : Bool) : State :=
  match vectorStep s c with
  | none => s
  | some (k, i, d) =>
    let v := slotOf s c k
    let ins := (vecIns s c d).map (vkIn d)
    let outs := (vecOuts s c d).map (fun q => (q, vkOut d q))
    if i.done < vkRows d && outs.any (fun o => outExhausted (strmOf v o.2)) then
      settleCore (rejectStep s c k i.step 0x66 c 0 0) c
    else if vkRows d ≤ i.done || !(ins.all (fun n => rowWhole (strmOf v n))) ||
       !(outs.all (fun o => (strmOf v o.2).row.isNone)) then settleVector s c
    else if ins.any (fun n => (strmOf v n).rowPoison) then settleCore (consumePoison s c k i.step
      (if ins.any (fun n => (strmOf v n).rowPoison && streamClass (strmOf v n).desc = 4) then 4 else 2)) c
    else if checked s c && (mismatch || plantedAt s 8 2 c) then vecMismatch s c
    else
      let r := vecResult s c k d i.done
      match r.2 with
      | none => r.1
      | some o =>
        let keys_ := ((List.range 4).filter (fun j => (stageKind (vkKernel d) j).isSome)).map (i.done * 8 + ·)
        let read := if fld d 0 8 = 0x11 then r.1 else
          each ((vkPartners d).map (relocated v)) r.1 (fun p s => each keys_ s (fun key s => foldedPart s c p key))
        let s := each ins read (fun n s => setStrm s c k n { strmOf (slotOf s c k) n with row := none, rowPoison := false })
        let s := each outs s (fun p s =>
          let r := padRow s (vkRowLen d) (if p.1 = 0 then o.1 else o.2)
          setStrm r.1 c k p.2 { strmOf (slotOf r.1 c k) p.2 with row := some (r.2.map (BitVec.ofNat 32)), rowPoison := false })
        let s := if (coreOf s c).vecRetry then masked (setCore s c { coreOf s c with vecRetry := false }) 2 else s
        let s := stepDone s c k i.step (i.done + 1)
        each ins s (fun n s => prefetch s c k n)

/-- The row of a vector step: the sequencer issues it to the unit, where it waits its turn (R256), and the unit executes
a row. -/
def vectorRow (s : State) (c op : Nat) (mismatch : Bool) : State :=
  let mine (s : State) : Bool := (vectorStep s c).any (fun p => p.2.1.op = op)
  match fetchStep s c op with
  | .stops t => settleCore t c
  | .step k d =>
      if fld d 0 8 = 0x11 && corePoison s c (vkProg d) (64 + 4 * vkProgLen d) then
        settleCore (consumePoison s c k (slotOf s c k).ip 2) c
      else
      match vecCause s c k d with
      | some x => settleCore (rejectStep s c k (slotOf s c k).ip x c 0 0) c
      | none =>
        let co := coreOf s c
        let s := setCore s c (if (vectorStep s c).isNone then { co with vecQ := [k], formed := [] }
          else { co with vecQ := co.vecQ ++ [k] })
        let s := settleCore (issueTo s c k d) c
        if mine s then runRow s c mismatch else s
  | _ => if coreRuns s c && mine s then runRow s c mismatch else s

/-- R173: a catalogue kernel. -/
def execVectorKernel (core : Nat) (mismatch : Bool) (s : State) : Host.Outcome State Fault Refusal :=
  .next (vectorRow s core 0x10 mismatch)

/-- R174: an expression program. -/
def execExpressionProgram (core : Nat) (mismatch : Bool) (s : State) : Host.Outcome State Fault Refusal :=
  .next (vectorRow s core 0x11 mismatch)

end Sys2Proof.Machine
end

