-- ==== Sys2Proof/Machine/Copies.lean ====
section
/-! DEFINITION. The merge tree of the cluster hubs (04_sparsity.md), and the copy and stream steps (07_memories.md). -/

namespace Sys2Proof.Machine

/-! ## The merge step, R222, R223 -/

/-- R222 n_inputs. -/
def mgInputs (d : BitVec 512) : Nat := fld d 8 4 + 1
/-- R222 in_fmt: 1 is FP32. -/
def mgFp32 (d : BitVec 512) : Bool := fld d 12 1 = 1
/-- R222 width. -/
def mgWidth (d : BitVec 512) : Nat := fld d 13 7
/-- R222 e_m. -/
def mgExp (d : BitVec 512) : Int := signed (fld d 20 10) 10
/-- R222 out_addr. -/
def mgOut (d : BitVec 512) : Nat := fld d 64 64
/-- R222 out_cap. -/
def mgCap (d : BitVec 512) : Nat := fld d 128 32
/-- R222 out_done. -/
def mgDone (d : BitVec 512) : Nat := fld d 160 32
/-- R222 in_table. -/
def mgTable (d : BitVec 512) : Nat := fld d 192 23
/-- R222: reserved bits. -/
def mgReserved (d : BitVec 512) : Bool := fld d 30 34 ≠ 0 || fld d 215 297 ≠ 0

/-- R219, R220: bytes of a record of extended words. -/
def mgOutBytes (d : BitVec 512) : Nat := 8 + roundUp (10 * mgWidth d + ceilDiv (mgWidth d) 4) 8
/-- R219, R220: bytes of an input record. -/
def mgInBytes (d : BitVec 512) : Nat := if mgFp32 d then 8 + roundUp (4 * mgWidth d) 8 else mgOutBytes d

/-- R223: an entry of the input table. -/
def mgEntry (s : State) (c : Nat) (d : BitVec 512) (j : Nat) : Nat := coreNat s c (mgTable d + 16 * j) 16
/-- R223: the first record's address. -/
def mgBase (e : Nat) : Nat := bitsOf e 0 64
/-- R223: the record count. -/
def mgCount (e : Nat) : Nat := bitsOf e 64 32
/-- R223: records consumed. -/
def mgRecDone (e : Nat) : Nat := bitsOf e 96 32

/-- R226 0x34: a merge that cannot begin. -/
def mgBad (s : State) (c : Nat) (d : BitVec 512) : Bool :=
  mgReserved d || mgWidth d = 0 || 64 < mgWidth d || decide (coreBytes < mgTable d + 16 * mgInputs d) ||
  (List.range (mgInputs d)).any (fun j => mgCount (mgEntry s c d j) = 0)

/-- The same merge. -/
def sameMerge (a b : MergeJob) : Bool := a.core = b.core && a.slot = b.slot && a.step = b.step

/-- Replace a merge of a hub. -/
def setMerge (s : State) (h : Nat) (j : MergeJob) : State :=
  setHub s h { hubOf s h with merges := onFirst (sameMerge j) (fun _ => j) (hubOf s h).merges }

/-- A merge leaves its hub. -/
def dropMerge (s : State) (h : Nat) (j : MergeJob) : State :=
  setHub s h { hubOf s h with merges := (hubOf s h).merges.eraseP (sameMerge j) }

/-- R222: the merge that a hub runs: the oldest, but for one that an unresolved fault has halted with its slot (DEDUCED,
log entry 107). -/
def mergeAt (s : State) (h : Nat) : Option MergeJob :=
  (hubOf s h).merges.find? (fun j => match j.halt with
    | some (.fault _ _) => false
    | _ => true)

/-- R226, R229: a merge stops, and a stop of the causes of R226 counts. R480: cause 0x65 is a write to a shared page. -/
def stopMerge (s : State) (h : Nat) (j : MergeJob) (cause : Nat) : State :=
  let s := dropMerge s h j
  let s := if 0x31 ≤ cause && cause ≤ 0x34 then bump s (ctrHubMergeStop.plus (cause - 0x31)) h 1 else s
  let s := noteFault s j.core j.slot cause 5 0
  settleCore (reportError (faultSlot s j.core j.slot) j.core j.slot 3 cause j.core j.step 0 0 0 h) j.core

/-! ## Records -/

/-- R219: the index of a record. -/
def mrIndex (l : List Byte) : Nat := natAt l 0 4
/-- R219: its contributions. -/
def mrCount (l : List Byte) : Nat := natAt l 4 2

/-- R220, R221: the words of an input record at e_m. An FP32 value whose word exceeds the 64 or 80 bits is kept modulo 2^80 and
does not stop the merge: R221 checks the range for in_fmt 0 alone (DESIGN CHOICE, log entry 112). -/
def mrWords (d : BitVec 512) (l : List Byte) : List AccWord :=
  let n := mgWidth d
  if mgFp32 d then
    (List.range n).map (fun i => addProduct (mgExp d) .zero (dec32 (natAt l (8 + 4 * i) 4)))
  else bytesWords 10 n (l.drop 8)

/-- R221: a word of an input record outside 64 bits. A word with a tag other than finite is never outside: its integer has no
value (DESIGN CHOICE, log entry 112). -/
def mrOutside (w : AccWord) : Bool := w.tag = .finite && (decide (w.ext.toInt < -2 ^ 63) || decide (maxWord < w.ext.toInt))

/-- R224: an input record joins the sum of its index. -/
def mrJoin (d : BitVec 512) (sum : Option MergeRec) (l : List Byte) (pois : Bool) : MergeRec :=
  let ws := mrWords d l
  let p := bitAt (natAt l 0 8) 48 || pois
  match sum with
  | none => { index := mrIndex l, count := mrCount l, poison := p, words := ws }
  | some m => { m with count := m.count + mrCount l, poison := m.poison || p,
                       words := (m.words.zip ws).map (fun e => addWords e.1 e.2) }

/-- R219, R220: the bytes of an output record. -/
def mrBytes (d : BitVec 512) (m : MergeRec) : List Byte :=
  fit (bytesOf 8 (m.index + m.count * 2 ^ 32 + bn m.poison * 2 ^ 48) ++ wordBytes 10 m.words) (mgOutBytes d)

/-! ## Running a merge -/

/-- The inputs with no record at hand and one still to read. -/
def mgWants (s : State) (j : MergeJob) (i : Nat) : Bool :=
  (look? j.next i).isNone && decide (j.taken.getD i 0 < mgCount (mgEntry s j.core j.desc i)) &&
  !(j.segs.any (·.recNo = i))

/-- Read segments of the inputs that want a record. -/
def mgReads (s : State) (j : MergeJob) : List Seg :=
  ((List.range (mgInputs j.desc)).filter (mgWants s j)).flatMap (fun i =>
    let a := mgBase (mgEntry s j.core j.desc i) + j.taken.getD i 0 * mgInBytes j.desc
    (sideCuts s (.glob a) a (mgInBytes j.desc)).map (fun p => mkSeg i 2 p.1 (.glob (a + p.1)) .nowhere p.2))

/-- Take the records whose segments have been read; the cause of a stop when one cannot be used. -/
def mgGather (j : MergeJob) (i : Nat) : MergeJob × Option Nat :=
  let l := j.segs.filter (·.recNo = i)
  if l.isEmpty || !(l.all (fun g => g.kind = 2 && g.stage = 4)) then (j, none)
  else
    let bytes := gathered l 2
    let h := natAt bytes 0 8
    let j' := { j with
      segs := j.segs.filter (·.recNo ≠ i), next := put j.next i (bytes, gatheredPoison l 2)
      prev := put j.prev i (mrIndex bytes) }
    if bitsOf h 49 15 ≠ 0 || mrCount bytes = 0 || (mgFp32 j.desc && mrCount bytes ≠ 1) then (j, some 0x34)
    else if (look? j.prev i).any (fun p => decide (mrIndex bytes < p)) then (j, some 0x31)
    else if !(mgFp32 j.desc) && (mrWords j.desc bytes).any mrOutside then (j, some 0x33)
    else (j', none)

/-- Gather from every input. -/
def mgGatherAll : List Nat → MergeJob → MergeJob × Option Nat
  | [], j => (j, none)
  | i :: rest, j =>
    let r := mgGather j i
    if r.2.isSome then r else mgGatherAll rest r.1

/-- R224: every input has a record at hand or is exhausted. -/
def mgReady (s : State) (j : MergeJob) : Bool :=
  (List.range (mgInputs j.desc)).all (fun i =>
    (look? j.next i).isSome || decide (mgCount (mgEntry s j.core j.desc i) ≤ j.taken.getD i 0))

/-- The lowest index at hand. -/
def mgLowest (j : MergeJob) : Option Nat :=
  j.next.foldl (fun a e => some (match a with
    | none => mrIndex e.2.1
    | some m => min m (mrIndex e.2.1))) none

/-- Consume the record at hand of an input into the sum. -/
def mgConsume (j : MergeJob) (i : Nat) : MergeJob :=
  match look? j.next i with
  | none => j
  | some (bytes, pois) =>
    { j with sum := some (mrJoin j.desc j.sum bytes (pois.any id)), next := cut j.next i, used := put j.used i (mrIndex bytes)
             taken := j.taken.set i (j.taken.getD i 0 + 1) }

/-- R227: an output record has been written: out_done and every rec_done are written together. -/
def mgCommit (s : State) (h : Nat) (j : MergeJob) : State × MergeJob :=
  let inputs := (List.range (mgInputs j.desc)).filter (fun i => j.taken.getD i 0 ≠ j.recs.getD i 0)
  let n := ((List.range (mgInputs j.desc)).map (fun i => j.taken.getD i 0 - j.recs.getD i 0)).sum
  let j' := { j with
    out := j.out + 1, recs := j.taken, last := j.used, sum := none, emitting := false, segs := [], retried := false }
  let v := slotOf s j.core j.slot
  let s := outsideWrite s j.core (imStepBase v.image + 64 * j.step + 20) (bytesOf 4 j'.out) []
  let s := each inputs s (fun i s => outsideWrite s j.core (mgTable j.desc + 16 * i + 12) (bytesOf 4 (j.taken.getD i 0)) [])
  (progress (bump (bump s ctrHubMergeIn h n) ctrHubMergeOut h 1) j.core j.slot false, j')

/-- What one pass of a merge leads to. -/
inductive MergeEnd where
  | going
  | stop (cause : Nat)
  | halt (x : Stop)
  | done

/-- One pass: read, gather, consume or emit. -/
def mergePass (s : State) (h : Nat) (j : MergeJob) : State × MergeJob × MergeEnd :=
  let i : Issuer := { unit := .merge h, core := j.core, slot := j.slot, step := j.step }
  let j := if j.emitting then j else { j with segs := j.segs ++ mgReads s j }
  let r := segsStep s i j.segs
  let s := r.1
  let j := { j with segs := r.2.1 }
  match r.2.2 with
  | some x => (s, j, .halt x)
  | none =>
    if j.emitting then
      if j.segs.all (·.stage = 4) then
        let c := mgCommit s h j
        (c.1, c.2, .going)
      else (s, j, .going)
    else
      let g := mgGatherAll (List.range (mgInputs j.desc)) j
      match g.2 with
      | some x => (s, g.1, .stop x)
      | none =>
        let j := g.1
        if !(mgReady s j) then (s, j, .going)
        else
          match mgLowest j, j.sum with
          | none, none => (s, j, .done)
          | some m, none =>
            (s, each ((keys j.next).filter (fun i => (look? j.next i).any (fun e => mrIndex e.1 = m))) j (fun i j => mgConsume j i), .going)
          | low, some sum =>
            if low = some sum.index then
              (s, each ((keys j.next).filter (fun i => (look? j.next i).any (fun e => mrIndex e.1 = sum.index))) j
                (fun i j => mgConsume j i), .going)
            else if 65535 < sum.count then (s, j, .stop 0x33)
            else if j.out = mgCap j.desc then (s, j, .stop 0x32)
            else
              let a := mgOut j.desc + j.out * mgOutBytes j.desc
              let b := mrBytes j.desc sum
              (s, { j with emitting := true, segs := (sideCuts s (.glob a) a b.length).map (fun p =>
                outSeg 16 p.1 (.glob (a + p.1)) (sub b p.1 p.2) []) }, .going)

/-- R227: a merge that was halted takes up its work again from out_done and every rec_done. -/
def restartMerge (j : MergeJob) : MergeJob :=
  { j with taken := j.recs, used := j.last, prev := j.last, next := [], sum := none, emitting := false, segs := [] }

/-- R222, R224: run the merges of a hub, one at a time, until they wait. Fuel bounds the passes. -/
def runMerge (h : Nat) : Nat → State → State
  | 0, s => s
  | f + 1, s =>
    match mergeAt s h with
    | none => s
    | some j =>
      if j.halt.isSome || !(coreRuns s j.core) then s
      else
        let r := mergePass s h j
        let z := match r.2.2 with
          | .halt x =>
            let z := resolveStop r.1 (.merge h) x
            (z.1, MergeEnd.halt z.2)
          | e => (r.1, e)
        let t := setMerge z.1 h r.2.1
        match z.2 with
        | .stop cause => runMerge h f (stopMerge t h j cause)
        | .done => runMerge h f (settleCore (forwardStep (completeStep (bump (dropMerge t h j) ctrHubMerges h 1)
            j.core j.slot j.step) j.core j.slot j.step) j.core)
        | .halt (.halt (.fault cause a)) =>
          runMerge h f (unitFault (setMerge t h { r.2.1 with halt := some (.fault cause a) }) j.core j.slot j.step cause a 5)
        | .halt (.halt x) => reportProgress (setMerge t h { r.2.1 with halt := some x }) j.core j.slot false
        | .halt (.reject cause) => runMerge h f (stopMerge t h j (if cause = 0x65 then cause else 0x34))
        | .halt .poison => t
        | .going => if r.2.1 = j then t else runMerge h f t

/-- Run a hub's merges as far as they go. -/
def pumpMerge (s : State) (h : Nat) : State := runMerge h (2 ^ 20) s

/-- R736: the two address generators of a merge tree differ before an access of the merge it runs: the fault is recorded,
and the merge goes on from its record with the next row; a second difference is hard. -/
def mergeUpset (s : State) (h : Nat) : Option State :=
  ((mergeAt s h).filter (fun j => j.halt.isNone && coreRuns s j.core && checked s j.core)).map (fun j =>
    setMerge (addressFault s (.merge h) j.retried) h
      (if j.retried then { j with halt := some .fence } else { j with retried := true }))

/-! ## Every unit that waits for memory -/

/-- A unit whose wait may be over goes on. -/
def pumpUnit (s : State) (unit : Unit) : State :=
  match unit with
  | .coreCopy c => pumpCopies s (.coreCopy c)
  | .hubCopy h => pumpCopies s (.hubCopy h)
  | .stream c k n =>
    let r := prefetch s c k n
    if stForm (strmOf (slotOf r c k) n).desc = 2 then (pumpOut r c k n).1 else r
  | .merge h => pumpMerge s h
  | _ => s

/-! ## Twins of outside steps, R742, R743 -/

/-- A slot is a twin. -/
def isTwin (s : State) (c k : Nat) : Bool := (slotOf s c k).primary.isSome

/-! ## The steps -/

/-- R222: the row of a merge step; with no such step to issue, the hub goes on. -/
def mergeRow (s : State) (c : Nat) (upset : Upset) : State :=
  let h := clusterOf c
  let goOn (s : State) : State := onUpset s (.merge h) upset (fun s => mergeUpset s h) (fun s => pumpMerge s h)
  match fetchStep s c 0x20 with
  | .stops t => settleCore t c
  | .step k d =>
    let v := slotOf s c k
    if mgBad s c d then
      let s := bump s (ctrHubMergeStop.plus 3) h 1
      settleCore (reportError (faultSlot (noteFault s c k 0x34 5 0) c k) c k 3 0x34 c v.ip 0 0 0 h) c
    else
      match gate s c k v.ip (crc32c (bytesOf 64 d.toNat)) with
      | .shut t => t
      | .twin t => settleCore (issueTwin t c k d) c
      | .open_ t =>
        let recs := (List.range (mgInputs d)).map (fun i => mgRecDone (mgEntry s c d i))
        let j : MergeJob := { core := c, slot := k, step := v.ip, desc := d, out := mgDone d, recs := recs, halt := none,
                              taken := recs, prev := [], used := [], next := [], last := [], sum := none, emitting := false, segs := []
                              retried := false }
        let t := issueTo t c k d
        goOn (settleCore (setHub t h { hubOf t h with merges := (hubOf t h).merges ++ [j] }) c)
  | _ => goOn s

/-- R408: why a copy descriptor is rejected, when it is. -/
def copyCause (d : BitVec 1024) : Option Nat :=
  let form := cdForm d
  let idx := form = 2 || form = 3
  let n := cdRec d
  let wide (sel a : Nat) : Bool := sel ≠ 0 && decide (2 ^ 23 ≤ a)
  if fld d 17 47 ≠ 0 || fld d 896 128 ≠ 0 || 5 < form || (cdGc d && form ≠ 1) ||
     cdSrcSel d = 3 || cdDstSel d = 3 || cdIdxSel d = 3 ||
     (List.range 4).any (fun i => cdCount d i = 0) ||
     (if form = 1 then n ≠ 0 else n = 0 || decide (2 ^ 20 < n)) || (form = 4 && n % 8 ≠ 0) ||
     (form = 2 && [1, 2, 3].any (fun i => cdSrcStride d i ≠ 0)) || (form = 3 && [1, 2, 3].any (fun i => cdDstStride d i ≠ 0)) ||
     (form ≠ 4 && wide (cdSrcSel d) (cdSrc d)) || wide (cdDstSel d) (cdDst d) || (idx && wide (cdIdxSel d) (cdIdx d))
  then some 0x61
  else if idx && cdIdxSel d ≠ 0 && decide (coreBytes < cdIdx d + 4 * cdRecords d) then some 0x61
  else if cdDstSel d = 0 && gaSpace (cdDst d) = 3 then some 0x64
  else none

/-- R366: a copy engine takes a step. -/
def takeCopy (s : State) (c k : Nat) (unit : Unit) (d : BitVec 512) (cd : BitVec 1024) : State :=
  let v := slotOf s c k
  let j : CopyJob := { core := c, slot := k, step := v.ip, desc := cd, dAddr := csDesc d, done := 0, made := 0, segs := [],
                       halt := none, checks := [], ending := none, notes := [], retried := false }
  let s := writeDone (issueTo s c k d) j
  settleCore (setJobs s unit (jobsOf s unit ++ [j])) c

/-- A copy engine goes on. -/
def goCopies (s : State) (unit : Unit) (upset : Upset) : State :=
  onUpset s unit upset (fun s => copyUpset s unit) (fun s => pumpCopies s unit)

/-- R356, R357: the row of a copy step, and the unit that runs it; with no such step to issue, the unit goes on. -/
def copyRow (s : State) (c op : Nat) (unit : Unit) (upset : Upset) : State :=
  match fetchStep s c op with
  | .stops t => settleCore t c
  | .step k d =>
    let v := slotOf s c k
    if csReserved d || csStream d ≠ 0 || csDesc d % 128 ≠ 0 then settleCore (rejectStep s c k v.ip 0x61 c 0 0) c
    else if decide (coreBytes < csDesc d + 128) then settleCore (rejectStep s c k v.ip 0x62 c 0 0) c
    else if corePoison s c (csDesc d) 128 then settleCore (consumePoison s c k v.ip 2) c
    else if 8 ≤ (jobsOf s unit).length then goCopies s unit upset
    else
      let cd := recordOf 1024 (coreRead s c (csDesc d) 128)
      match copyCause cd with
      | some x => settleCore (rejectStep s c k v.ip x c 0 0) c
      | none =>
        if copyInside cd then goCopies (takeCopy s c k unit d cd) unit upset
        else if cdDstSel cd = 1 then
          (if isTwin s c k then settleCore (issueTwin s c k d) c else goCopies (takeCopy s c k unit d cd) unit upset)
        else
          match gate s c k v.ip (crc32c (bytesOf 128 cd.toNat)) with
          | .shut t => t
          | .twin t => settleCore (issueTwin t c k d) c
          | .open_ t => goCopies (takeCopy t c k unit d cd) unit upset
  | _ => goCopies s unit upset

/-- A stream slot has been bound or unbound: a descriptor that waits at an engine for a load of that slot is judged again,
with the stream that it would now be served from (DEDUCED, log entry 107). -/
def recheckStream (s : State) (c k n : Nat) : State :=
  each ((List.range 4).map (engineOf c)) s (fun id s =>
    let e := engOf s id
    match e.waiting with
    | none => s
    | some w =>
      let d := w.desc
      let half := halfOf e e.nextHalf
      let fresh := e.acc.all (fun a => a.pending = 0)
      let roles := [(sdAStream d, 0, fresh && half.aDone), (sdBStream d, 1, fresh && half.bDone)].filter (fun r => r.1 = n && !r.2.2)
      if w.core ≠ c || w.slot ≠ k || sdOpcode d = 4 then s
      else match roles.findSome? (fun r => streamCause s c k d n r.2.1) with
        | some x =>
          let e := { e with waiting := none }
          engReject (setEng s id (if fresh then endLoad e else e)) c k w.step x id d
        | none => each roles s (fun r s => attach s c k n (sdEngine d) r.2.1))

/-- R372, R394: before a stream slot is bound again or unbound, a vector out-stream writes the headers of the tiles it
leaves partly written. The state after it and whether the slot may change now; none when those writes have stopped the
slot. -/
def strmRelease (s : State) (c k n : Nat) : State × Option Bool :=
  let t := closeTiles s c k n
  (t, if (slotOf t c k).state = .running then some (streamFree t c k n) else none)

/-- R372: the row of `strm.bind`. -/
def bindRow (s : State) (c : Nat) : State :=
  match fetchStep s c 0x34 with
  | .stops t => settleCore t c
  | .step k d =>
    let v := slotOf s c k
    let n := csStream d
    if csReserved d || csDesc d % 128 ≠ 0 then settleCore (rejectStep s c k v.ip 0x61 c 0 0) c
    else if decide (coreBytes < csDesc d + 128) then settleCore (rejectStep s c k v.ip 0x62 c 0 0) c
    else if corePoison s c (csDesc d) 128 then settleCore (consumePoison s c k v.ip 2) c
    else
      let sd := recordOf 1024 (coreRead s c (csDesc d) 128)
      if stBad sd then settleCore (rejectStep s c k v.ip 0x61 c 0 0) c
      else match strmRelease s c k n with
        | (t, none) => settleCore t c
        | (t, some false) => settleCore (giveUp t c k .blocked) c
        | (t, some true) =>
          let t := settleCore (passStep (setStrm t c k n (boundStream sd (csDesc d))) c k d (v.ip + 1)) c
          prefetch (recheckStream t c k n) c k n
  | _ => s

/-- R372: the row of `strm.unbind`. -/
def unbindRow (s : State) (c : Nat) : State :=
  match fetchStep s c 0x35 with
  | .stops t => settleCore t c
  | .step k d =>
    let v := slotOf s c k
    let n := csStream d
    if csReserved d || csDesc d ≠ 0 then settleCore (rejectStep s c k v.ip 0x61 c 0 0) c
    else match strmRelease s c k n with
      | (t, none) => settleCore t c
      | (t, some false) => settleCore (giveUp t c k .blocked) c
      | (t, some true) => recheckStream (settleCore (passStep (setStrm t c k n .fresh) c k d (v.ip + 1)) c) c k n
  | _ => s

/-- `merge`, R222. -/
def execMerge (turn : Turn) (s : State) : Host.Outcome State Fault Refusal := .next (mergeRow s turn.place turn.upset)

/-- `copy`, R360. -/
def execCopy (turn : Turn) (s : State) : Host.Outcome State Fault Refusal :=
  .next (copyRow s turn.place 0x30 (.coreCopy turn.place) turn.upset)

/-- `copy.hub`, R365. -/
def execCopyHub (turn : Turn) (s : State) : Host.Outcome State Fault Refusal :=
  .next (copyRow s turn.place 0x31 (.hubCopy (clusterOf turn.place)) turn.upset)

/-- `strm.bind`, R372. -/
def execStrmBind (core : Nat) (s : State) : Host.Outcome State Fault Refusal := .next (bindRow s core)

/-- `strm.unbind`, R372. -/
def execStrmUnbind (core : Nat) (s : State) : Host.Outcome State Fault Refusal := .next (unbindRow s core)

/-- R396: a stream delivers what it can: an engine load, a row read or a row written. -/
def execStreamChunkDeliver (core slot : Nat) (turn : Turn) (s : State) : Host.Outcome State Fault Refusal :=
  let n := turn.place
  .next (settleVector (settleCore (onUpset s (.stream core slot n) turn.upset (fun s => strmUpset s core slot n)
    (fun s => (pumpStream s core slot n).1)) core) core)

end Sys2Proof.Machine
end

