-- ==== Sys2Proof/Machine/Flags.lean ====
section
/-! DEFINITION. The status registers of the host port, `ALERT_N` and the conditions of `HP_ASSURE`, computed from the
state that gives them. -/

namespace Sys2Proof.Machine

/-- R596, R891: ready. -/
def readyNow (s : State) : Bool := s.boot.phase = 6

/-- R837: the code of a life-cycle state. -/
def lifeCode : LifeCycle → Nat
  | .blank => 0
  | .factory => 1
  | .deployed => 2
  | .returned => 3
  | .scrapped => 4

/-- R864: the code of a power state. -/
def powerCode : PowerState → Nat
  | .m0 => 0
  | .m1 => 1
  | .m2 => 2
  | .m3 => 3
  | .m4 => 4

/-- R596 `HP_ID`. -/
def hpId (s : State) : Nat := Config.vendorId.toNat + 0x0A02 * 2 ^ 16 + orderingCode s.fuses.ordering * 2 ^ 32

/-- R596 `HP_STATUS`. -/
def hpStatus (s : State) : Nat :=
  bn (readyNow s) + lifeCode s.fuses.life * 2 + powerCode s.power.state * 2 ^ 4 + bn s.sup.resetting * 2 ^ 7 +
  s.hp.width * 2 ^ 8 + s.hp.rate * 2 ^ 12 + bn s.hp.biOn * 2 ^ 15 + bn s.hp.decoder0.committed * 2 ^ 16 +
  bn s.hp.decoder1.committed * 2 ^ 17 + s.caps.gen * 2 ^ 32

/-- R837, R716: FACTORY or DEPLOYED. -/
def lifeHolds (s : State) : Bool := s.fuses.life = .factory || s.fuses.life = .deployed

/-- R716 bits [4:0] all 1 and bit [5] 0. -/
def assureHolds (s : State) : Bool :=
  s.sup.envelope && s.sup.scrub && s.sup.selftest && lifeHolds s && s.sup.firmware && !s.nv.drained

/-- R716 `HP_ASSURE`. -/
def hpAssure (s : State) : Nat :=
  bn s.sup.envelope + bn s.sup.scrub * 2 + bn s.sup.selftest * 4 + bn (lifeHolds s) * 8 + bn s.sup.firmware * 16 +
  bn s.nv.drained * 32 + bn s.sup.holds * 64 + s.sup.lapse * 2 ^ 8 + (if s.nv.drained then s.nv.suspect else 0) * 2 ^ 16 +
  s.sup.lapses * 2 ^ 32

/-- R717: a condition has lapsed: `lapse` names it and its counter advances. -/
def lapsed (s : State) (code : Nat) : State :=
  let t := bump s (ctrModLapses.plus (code - 1)) 0 1
  { t with sup := { t.sup with lapse := code } }

/-- R717: holds follows the conditions; each clearing is counted. -/
def settleHolds (s : State) : State :=
  let h := assureHolds s
  { s with sup := { s.sup with
      holds := h
      lapses := if s.sup.holds && !h then min (s.sup.lapses + 1) (2 ^ 32 - 1) else s.sup.lapses } }

/-- A condition went from `was` to `is`: a fall is a lapse. -/
def conditionFell (s : State) (was now : Bool) (code : Nat) : State := if was && !now then lapsed s code else s

/-- R716 bit [0]. -/
def setEnvelope (s : State) (b : Bool) : State :=
  settleHolds (conditionFell { s with sup := { s.sup with envelope := b } } s.sup.envelope b 1)
/-- R716 bit [1]. -/
def setScrub (s : State) (b : Bool) : State :=
  settleHolds (conditionFell { s with sup := { s.sup with scrub := b } } s.sup.scrub b 2)
/-- R716 bit [2]. -/
def setSelfTest (s : State) (b : Bool) : State :=
  settleHolds (conditionFell { s with sup := { s.sup with selftest := b } } s.sup.selftest b 3)
/-- R716 bit [4]. -/
def setFirmware (s : State) (b : Bool) : State :=
  settleHolds (conditionFell { s with sup := { s.sup with firmware := b } } s.sup.firmware b 5)

/-- R938: the causes of `ALERT_N`, in its order. -/
def alertCauses (s : State) : Nat :=
  bn s.nv.drained + 2 * bn s.sup.resetting + 4 * bn (s.boot.phase = 7) + 8 * bn s.sup.cycleAsked + 16 * bn s.power.tripped

/-- R938: `ALERT_N` follows its causes, and a change sends an event carrying them. -/
def settleAlert (s : State) : State :=
  let a := decide (alertCauses s ≠ 0)
  if a = s.pins.alert then s
  else trayEvent { s with pins := { s.pins with alert := a } } 0x0A (bytesOf 12 (alertCauses s))

/-- R837: the debug view of a state without a session: 0 closed, 2 full. -/
def viewDefault (s : State) : Nat :=
  match s.fuses.life with
  | .blank => 2
  | .factory => 0
  | .deployed => 0
  | .returned => if s.nv.wipePending then 0 else 2
  | .scrapped => 2

/-- R857: the debug view in force: an open session opens the limited (1) or full view. -/
def debugView (s : State) : Nat :=
  match s.sup.session with
  | some (full, _, _) => if full then 2 else 1
  | none => viewDefault s

/-- R870: whole minutes left in the session. -/
def sessionLeft (s : State) : Nat :=
  match s.sup.session with
  | some (_, minutes, since) => (minutes * 60 * ticksPerS - (s.clocks.sup - since)) / (60 * ticksPerS)
  | none => 0

/-- R870 `HP_SECURITY`. -/
def hpSecurity (s : State) : Nat :=
  debugView s + bn s.nv.wipePending * 4 + bn s.sup.session.isSome * 8 + s.fuses.lcCount * 2 ^ 8 +
  s.fuses.minSvn * 2 ^ 16 + s.fuses.revoked.toNat * 2 ^ 24 + sessionLeft s * 2 ^ 32

/-- R876: whole seconds since the start began, frozen when it ended. -/
def bootElapsed (s : State) : Nat :=
  min (if s.boot.running then (s.clocks.sup - s.boot.began) / ticksPerS else s.boot.elapsed) 65535

/-- R876 `HP_BOOT`. -/
def hpBoot (s : State) : Nat :=
  bn s.boot.warm + s.boot.phase * 2 ^ 4 + s.boot.fail * 2 ^ 8 + bn s.boot.fallback * 2 ^ 16 +
  s.boot.coldReason * 2 ^ 20 + bootElapsed s * 2 ^ 32

/-- R60: an entry of the capability table changed. -/
def capsChanged (s : State) : State :=
  hostEvent { s with caps := { s.caps with gen := (s.caps.gen + 1) % 2 ^ 32 } } evCaps

end Sys2Proof.Machine
end

