-- ==== Sys2Proof/Machine/Sync.lean ====
section
/-! DEFINITION. Synchronisation objects and the `sync.op` step (06_messages.md, R324 to R336). -/

namespace Sys2Proof.Machine

/-! ## At the memory-side die -/

/-- R331, R328: parked waits of object i re-examined against its word in the order they parked. Answers the waits that
complete, each with its status and returned word, the waits that stay, and the word left; `stuck` is set by the first
take that cannot be granted. -/
def wakeList (i : Nat) : List Parked → Bool → Reg → List (Parked × Nat × Reg) × List Parked × Reg
  | [], _, w => ([], [], w)
  | p :: rest, stuck, w =>
    let leave (stuck : Bool) :=
      let r := wakeList i rest stuck w
      (r.1, p :: r.2.1, r.2.2)
    if p.index ≠ i then leave stuck
    else if (opType p.op).any (· ≠ swType w) then
      let r := wakeList i rest stuck w
      ((p, 2, w) :: r.1, r.2)
    else if p.op = 0xA then
      (if !stuck && waitMet p.op w p.operand p.before then
        let r := wakeList i rest stuck (syncApply 5 w p.operand 0).1
        ((p, 0, w) :: r.1, r.2)
       else leave true)
    else if waitMet p.op w p.operand p.before then
      let r := wakeList i rest stuck w
      ((p, 0, if p.op = 9 then p.before else w) :: r.1, r.2)
    else leave stuck

/-- R331: an object's word has changed to w; the waits it satisfies complete. -/
def setWord (s : State) (r i : Nat) (w : Reg) : State :=
  let g := regOf s r
  let q := wakeList i g.waits false w
  let s := setReg s r { g with sync := put g.sync i q.2.2, waits := q.2.1 }
  each q.1 s (fun e s => answerSync s r i e.1.core e.1.slot e.1.tag e.2.1 e.2.2)

/-- R328: an operation that does not wait, applied at a die: the returned word, the status, and the state after. -/
def applyAt (s : State) (r i op : Nat) (a b : Reg) : Reg × Nat × State :=
  if !regionServes s r then (0, 4, s)
  else
    let w := syncWord s r i
    let q := syncApply op w a b
    let s := bump s ctrRegionOps r 1
    (w, q.2, if q.2 = 0 && op ≠ 0 then setWord s r i q.1 else s)

/-- R328: hardware posts one unit to a semaphore; its status. -/
def postUnit (s : State) (r i : Nat) : Nat × State :=
  let q := applyAt s r i 4 1 0
  (q.2.1, q.2.2)

/-- R331: room in a region's wait table. -/
def waitRoom (s : State) (r : Nat) : Bool := decide ((regOf s r).waits.length < 4096)

/-- R331: park a wait. -/
def park (s : State) (r : Nat) (p : Parked) : State :=
  setReg (bump s ctrRegionParked r 1) r { regOf s r with waits := (regOf s r).waits ++ [p] }

/-- R328, R332: a waiting operation reaches its die: none when the wait table is full and it must park. -/
def waitAt (s : State) (r : Nat) (p : Parked) : Option State :=
  let w := syncWord s r p.index
  let answer (s : State) (status : Nat) (word : Reg) : Option State :=
    some (answerSync s r p.index p.core p.slot p.tag status word)
  let counted := bump s ctrRegionOps r 1
  if !regionServes s r then answer s 4 0
  else if (opType p.op).any (· ≠ swType w) then answer counted 2 w
  else if p.op = 9 then
    let n := arriveWord w
    if waitMet 9 n 0 w then answer (setWord counted r p.index n) 0 w
    else if waitRoom s r then some (park (setWord counted r p.index n) r { p with before := w })
    else none
  else if waitMet p.op w p.operand w then
    answer (if p.op = 0xA then setWord counted r p.index (syncApply 5 w p.operand 0).1 else counted) 0 w
  else if waitRoom s r then some (park counted r { p with before := w })
  else none

/-! ## At the core -/

/-- R326: the state word of an object of another module, as a global address. -/
def remoteWord (module region index : Nat) : Nat :=
  index * 8 + region * 2 ^ 19 + 2 ^ 40 + 3 * 2 ^ 48 + module * 2 ^ 50

/-- R329: the 16 bytes of a result record. -/
def resultRecord (status : Nat) (word : Reg) : List Byte := bytesOf 8 status ++ bytesOf 8 word.toNat

/-- The operation that a slot's step has outstanding: its request's tag, and when it was issued. -/
def newSync (s : State) (c : Nat) (v : Slot) (d : BitVec 512) (tag : Nat) : SyncOut :=
  { step := v.ip, tag := tag, op := syOp d, remote := syRemote d, result := syResult d, since := regionNow s (regionOf c), retry := false }

/-- Note an outstanding operation, in place of a refused one of its step (R332). -/
def addSync (s : State) (c k : Nat) (y : SyncOut) : State :=
  onSlot s c k (fun v => { v with syncs := v.syncs.filter (fun z => !(z.retry && z.step = y.step)) ++ [y] })

/-- R294, R327: the request of an operation leaves for the die of its object. -/
def sendSync (s : State) (c k tag : Nat) (d : BitVec 512) : State :=
  post s { src := c, srcSlot := k, dst := syRegion d, dstSlot := 0
           body := .syncReq (syRegion d) (syIndex d) (syOp d) (syA d) (syB d) (slotOf s c k).ip tag }

/-- R328: issue an operation that does not wait. -/
def issueSync (s : State) (c k : Nat) (d : BitVec 512) : State :=
  let v := slotOf s c k
  let tag := freshTag s (.coreCopy c)
  let t := addSync tag.2 c k (newSync s c v d tag.1)
  if !(syRemote d) then issueTo (sendSync t c k tag.1 d) c k d
  else
    let t := issueTo t c k d
    (if !routed t (handleOf s c) (syModule d) then answerSync t (regionOf c) 0 c k tag.1 5 0
     else
       let q := addRequest t 3 (.coreCopy c) tag.1 k v.ip
       let row := { mkRow q.2 3 (syModule d) (remoteWord (syModule d) (syRegion d) (syIndex d))
                      (bytesOf 8 (syA d).toNat ++ bytesOf 8 (syB d).toNat) [] (.coreCopy c) 0 with
                      aux := BitVec.ofNat 32 (syOp d + q.1 * 16), strict := g1Of s c k, owners := [] }
       sendRow q.2 (handleOf s c) row)

/-- R328, R332: issue a waiting operation: the slot blocks until its response. -/
def issueWait (s : State) (c k : Nat) (d : BitVec 512) : State :=
  let tag := freshTag s (.coreCopy c)
  let t := addSync tag.2 c k (newSync s c (slotOf s c k) d tag.1)
  giveUp (progress (sendSync t c k tag.1 d) c k true) c k .blocked

/-- R332, R333: the operation of a request found the wait table full: its sequencer is to issue it again; a slot that is
stopping can now stop. -/
def refuseWait (s : State) (c k tag : Nat) : State :=
  settleCore (onSlot s c k (fun v => { v with syncs := v.syncs.map (fun y =>
    if y.tag = tag then { y with retry := true, since := computeNow s c } else y) })) c

/-- R328, R330, R737: the die applies an operation that has reached it. `mismatch` is a difference of its two update
paths, an uncorrectable error in the word (R325). -/
def applySync (s : State) (m : Msg) (r i op : Nat) (a b : Reg) (step tag : Nat) (mismatch : Bool) : State :=
  if op < 7 then
    if mismatch && regionServes s r then escalate s 3 (r * 65536 + i)
    else
      let q := applyAt s r i op a b
      answerSync q.2.2 r i m.src m.srcSlot tag q.2.1 q.1
  else
    let p : Parked := { index := i, op := op, operand := a, before := 0, core := m.src, slot := m.srcSlot, step := step, tag := tag }
    (waitAt s r p).getD (refuseWait s m.src m.srcSlot tag)

/-- The operation of kind `op` that a core has sent and that has not been applied: its place in the network. -/
def syncSent (s : State) (c op : Nat) : Option Nat :=
  s.narrow.findIdx? (fun m => m.src = c && (match m.body with
    | .syncReq _ _ o _ _ _ _ => o = op
    | _ => false))

/-- R294, R330: an operation on its way to its object is applied there, or moves one hop. -/
def syncArrives (s : State) (i : Nat) (mismatch : Bool) : State :=
  onMsg s i (fun m t => match m.body with
    | .syncReq r j op a b step tag => some (applySync t m r j op a b step tag mismatch)
    | _ => none)

/-- R742: a twin's step that its sequencer executes waits for its primary's: it sends its value once, then blocks. -/
def twinWaits (s : State) (c k : Nat) (d : BitVec 512) (crc : Nat) : State :=
  let v := slotOf s c k
  if 0 < look v.fwd v.ip 0 then
    passStep (onSlot s c k (fun v => { v with fwd := put v.fwd v.ip (look v.fwd v.ip 0 - 1) })) c k d (v.ip + 1)
  else if v.moving.isSome then giveUp s c k .blocked
  else
    match gate s c k v.ip crc with
    | .twin t =>
      let m : Moving := { tokens := 0, addr := 0, bytes := 0, handle := none, poison := false }
      giveUp (onSlot t c k (fun v => { v with moving := some m })) c k .blocked
    | _ => s

/-- R327: the next step of a core issues a `sync.op` with operation `op`. -/
def syncIssue (s : State) (c op : Nat) : State :=
  match fetchStep s c 0x52 with
  | .stops t => settleCore t c
  | .step k d =>
    let v := slotOf s c k
    let stop (cause : Nat) : State := settleCore (rejectStep s c k v.ip cause c 0 0) c
    if syReserved d || syResult d % 8 ≠ 0 then stop 0x21
    else if 0xB ≤ syOp d || (syRemote d && 7 ≤ syOp d) then stop 0x53
    else if decide (coreBytes < syResult d + 16) then stop 0x23
    else if syOp d ≠ op then s
    else if v.syncs.any (fun y => y.step = v.ip && 7 ≤ y.op && !y.retry) then s
    else
      let crc := crc32c (bytesOf 64 d.toNat)
      if v.primary.isSome && 7 ≤ op then settleCore (twinWaits s c k d crc) c
      else match gate s c k v.ip crc with
        | .shut t => settleCore (if 7 ≤ op then giveUp t c k .blocked else t) c
        | .twin t => settleCore (issueTwin t c k d) c
        | .open_ t => settleCore (if 7 ≤ op then issueWait t c k d else issueSync t c k d) c
  | _ => s

/-- R327, R328: the row of `sync.op` with operation `op`: one that the core has sent goes on to its die, which applies it;
otherwise the core issues one (DESIGN CHOICE, log entry 40). -/
def syncRow (s : State) (c op : Nat) (mismatch : Bool) : State :=
  match syncSent s c op with
  | none => syncIssue s c op
  | some i =>
    let t := syncArrives s i mismatch
    if t.narrow = s.narrow then syncIssue s c op else t

/-- R303, R245, R321: an operation that completed with status 2 to 5 stops its slot, with a record of kind 0x06. -/
def syncError (s : State) (c k : Nat) (y : SyncOut) (d : BitVec 512) (status : Nat) : State :=
  reportError (faultSlot (noteFault s c k 0x54 2 0) c k) c k 6 0x54 c y.step 0 0 0
    (status + bn y.remote * 2 ^ 8 + syModule d * 2 ^ 9 + syRegion d * 2 ^ 23 + syIndex d * 2 ^ 29)

/-- R329: an operation completes with a status and a word: its record is written and its step completes. -/
def finishSync (s : State) (c k : Nat) (y : SyncOut) (status : Nat) (word : Reg) : State :=
  let d := recordOf 512 (coreRead s c (imStepBase (slotOf s c k).image + 64 * y.step) 64)
  let s := outsideWrite s c y.result (resultRecord status word) []
  let s := onSlot s c k (fun v => { v with syncs := v.syncs.eraseP (· = y) })
  let s :=
    if 2 ≤ status then syncError s c k y d status
    else if 7 ≤ y.op then
      progress (onSlot s c k (fun v =>
        let st := if v.state = .blocked then .ready else v.state
        { goTo (foldStep v d) (y.step + 1) with state := st })) c k true
    else completeStep s c k y.step
  settleCore (forwardStep s c k y.step) c

/-- The outstanding operation of a slot whose request carried a tag. -/
def syncOf (s : State) (c k tag : Nat) : Option SyncOut := (slotOf s c k).syncs.find? (fun y => y.tag = tag && !y.retry)

/-- R449 step 3: the answer to a post that a hub has sent: a post that changed nothing is recorded for the destination slot,
while that holds what it held. -/
def postAnswered (s : State) (hub tag status : Nat) : State :=
  match (hubOf s hub).posts.find? (fun p => p.tag = tag) with
  | none => s
  | some p =>
    let s := setHub s hub { hubOf s hub with posts := (hubOf s hub).posts.filter (fun q => q.tag ≠ tag) }
    let v := slotOf s p.core p.slot
    if status = 0 || v.state = .empty || v.gen ≠ p.gen then s
    else reportError s p.core p.slot 6 0x54 p.core 0 0 0 0 (status + p.region * 2 ^ 23 + p.index * 2 ^ 29)

/-- R329: a response reaches the core or hub; one that no operation waits for is discarded. -/
def responseArrives (s : State) (m : Msg) : State :=
  match m.body with
  | .syncResp tag status word =>
    if epKind m.dst = 1 then postAnswered s (m.dst % 2 ^ 12) tag status
    else match syncOf s m.dst m.dstSlot tag with
    | some y => finishSync s m.dst m.dstSlot y status word
    | none => s
  | _ => s

/-- R333: a cancel reaches the die behind its operation: a wait still parked is removed, and its step, where its slot still
holds it, issues again. -/
def cancelArrives (s : State) (m : Msg) : State :=
  match m.body with
  | .cancel r _ tag =>
    let mine (p : Parked) : Bool := p.core = m.src && p.slot = m.srcSlot && p.tag = tag
    let parked := (regOf s r).waits.any mine
    let s := if parked then setReg s r { regOf s r with waits := (regOf s r).waits.filter (fun p => !(mine p)) } else s
    let held := (slotOf s m.src m.srcSlot).syncs.any (fun y => y.tag = tag)
    settleCore (if parked && held then onSlot s m.src m.srcSlot (fun v => { v with
        syncs := v.syncs.filter (fun y => y.tag ≠ tag)
        state := if v.state = .blocked then .ready else v.state })
      else s) m.src
  | _ => s

/-- R449 step 3, R294: a hub sends a post of one unit to the semaphore of a completed tile. -/
def hubPost (s : State) (c k r i : Nat) : State :=
  let h := clusterOf c
  let t := freshTag s (.hubCopy h)
  let v := slotOf t.2 c k
  post (setHub t.2 h { hubOf t.2 h with
      posts := (hubOf t.2 h).posts ++ [{ tag := t.1, core := c, slot := k, gen := v.gen, region := r, index := i }] })
    { src := epHub h, srcSlot := k, dst := r, dstSlot := 0, body := .syncReq r i 4 1 0 0 t.1 }

/-- R332, R719: 1 µs of a core's compute clock, which a throttled region halves. -/
def computeUs (s : State) (c : Nat) : Nat := if shedOf s (regionOf c) = .throttled then 850 else 1700

/-- R332: a wait that found the table full issues again 1 µs later. -/
def retryWait (s : State) (c k : Nat) : State :=
  let v := slotOf s c k
  match v.syncs.find? (fun y => y.retry && windowOver (computeNow s c) y.since (computeUs s c)) with
  | none => s
  | some y =>
    if v.state ≠ .blocked || v.stopping || !(coreRuns s c) then s
    else
      let d := nextStep s c v
      let s := onSlot (bump s ctrRegionRetries (syRegion d) 1) c k (fun v => { v with syncs := v.syncs.eraseP (· = y) })
      settleCore (issueWait s c k d) c

/-- R334: the remote operations of a slot whose tag satisfies p are given up; a late response finds none of them. -/
def forgetSyncs (s : State) (c k : Nat) (p : Nat → Bool) : State :=
  { s with fabric := { s.fabric with requests := s.fabric.requests.map (fun q =>
      if q.kind = 3 && q.unit = .coreCopy c && q.slot = k && p q.tag then { q with slot := 4 } else q) } }

/-- R334: the response to a remote operation comes too late. -/
def syncLate (s : State) (c : Nat) (y : SyncOut) : Bool := windowOver (regionNow s (regionOf c)) y.since (10 * ticksPerMs)

/-- R334: a remote operation without a response within 10 ms completes with status 5. -/
def remoteTimeout (s : State) (c k step : Nat) : State :=
  match (slotOf s c k).syncs.find? (fun y => y.remote && y.step = step && syncLate s c y) with
  | none => s
  | some y =>
    let s := bump s ctrRegionRemoteTimeouts (regionOf c) 1
    finishSync (forgetSyncs s c k (fun n => n = y.tag)) c k y 5 0

/-! ## The meanings -/

/-- `sync.op` read, R328. -/
def execSyncOpRead (core : Nat) (s : State) : Host.Outcome State Fault Refusal := .next (syncRow s core 0 false)
/-- `sync.op` init, R328. -/
def execSyncOpInit (core : Nat) (s : State) : Host.Outcome State Fault Refusal := .next (syncRow s core 1 false)
/-- `sync.op` add, R328; `mismatch` is the two update paths of R737 disagreeing. -/
def execSyncOpAdd (core : Nat) (mismatch : Bool) (s : State) : Host.Outcome State Fault Refusal :=
  .next (syncRow s core 2 mismatch)
/-- `sync.op` cas, R328. -/
def execSyncOpCas (core : Nat) (s : State) : Host.Outcome State Fault Refusal := .next (syncRow s core 3 false)
/-- `sync.op` post, R328, R737. -/
def execSyncOpPost (core : Nat) (mismatch : Bool) (s : State) : Host.Outcome State Fault Refusal :=
  .next (syncRow s core 4 mismatch)
/-- `sync.op` take, R328. -/
def execSyncOpTake (core : Nat) (s : State) : Host.Outcome State Fault Refusal := .next (syncRow s core 5 false)
/-- `sync.op` arrive, R328, R737. -/
def execSyncOpArrive (core : Nat) (mismatch : Bool) (s : State) : Host.Outcome State Fault Refusal :=
  .next (syncRow s core 6 mismatch)
/-- `sync.op` wait_ge, R328. -/
def execSyncOpWaitGe (core : Nat) (s : State) : Host.Outcome State Fault Refusal := .next (syncRow s core 7 false)
/-- `sync.op` wait_phase, R328. -/
def execSyncOpWaitPhase (core : Nat) (s : State) : Host.Outcome State Fault Refusal := .next (syncRow s core 8 false)
/-- `sync.op` arrive_wait, R328. -/
def execSyncOpArriveWait (core : Nat) (s : State) : Host.Outcome State Fault Refusal := .next (syncRow s core 9 false)
/-- `sync.op` take_wait, R328. -/
def execSyncOpTakeWait (core : Nat) (s : State) : Host.Outcome State Fault Refusal := .next (syncRow s core 0xA false)

/-- R329: message i is a synchronisation response. -/
def execSyncResponse (i : Nat) (s : State) : Host.Outcome State Fault Refusal :=
  .next (onMsg s i (fun m t => match m.body with
    | .syncResp _ _ _ => some (responseArrives t m)
    | _ => none))

/-- R333: message i is a cancel. -/
def execSyncCancel (i : Nat) (s : State) : Host.Outcome State Fault Refusal :=
  .next (onMsg s i (fun m t => match m.body with
    | .cancel _ _ _ => some (cancelArrives t m)
    | _ => none))

/-- R332. -/
def execSyncWaitRetry (core slot : Nat) (s : State) : Host.Outcome State Fault Refusal := .next (retryWait s core slot)

/-- R334. -/
def execSyncRemoteTimeout (core slot step : Nat) (s : State) : Host.Outcome State Fault Refusal :=
  .next (remoteTimeout s core slot step)

end Sys2Proof.Machine
end

