-- ==== Sys2Proof/Machine/Steps.lean ====
section
/-! DEFINITION. The queue, control and message steps of the sequencer (05_spatial.md R246 to R275, 06_messages.md R299
to R317). -/

namespace Sys2Proof.Machine

/-- What a row of the sequencer does with the step it fetched for opcode `op`. -/
def seqRow (s : State) (c op : Nat) (f : Nat → BitVec 512 → State) : State :=
  match fetchStep s c op with
  | .stops t => settleCore t c
  | .step k d => settleCore (f k d) c
  | _ => s

/-- R742: an outside queue step of a primary has completed. -/
def forwardOut (s : State) (c k : Nat) (d : BitVec 512) (step : Nat) : State :=
  if outsideStep (slotOf s c k) d then forwardStep s c k step else s

/-! ## `q.send` -/

/-- R252, R25: a tile header a queue step may move: no reserved field set, and a kind and format that are not reserved. -/
def queueHeader (h : Nat) : Bool :=
  !thReserved h && ((thKind h = 1 && fmtBits (thFmt h) ≠ 0) || thKind h = 2 || thKind h = 3)

/-- R260, R262: send tokens of the tile under way while the port holds credit. Fuel is their number. -/
def sendTokens (c k : Nat) (d : BitVec 512) : Nat → State → State
  | 0, s => s
  | f + 1, s =>
    let v := slotOf s c k
    match v.moving with
    | none => s
    | some m =>
      let p := outOf v (qSel d)
      let e := imPort v.image (qSel d)
      if tokensOf m.bytes ≤ m.tokens || p.credits = 0 then s
      else
        let a := m.addr + 256 * m.tokens
        let len := min 256 (m.bytes - 256 * m.tokens)
        let bad := corePoison s c a len
        let lastOne := decide (m.tokens + 1 = tokensOf m.bytes)
        let dest := relocated v (portCore e)
        let head := tokenHeader (ceilDiv len 8) (m.tokens = 0) lastOne bad (portLane e) (portSlot e) p.gen p.seq c k (qSel d)
        let pkt := { mkPacket (epCore c) (epCore dest) 3 5 (.coreCopy c) with
          rtag := v.gen, ext := head, payload := coreRead s c a (8 * ceilDiv len 8), count := 8 * ceilDiv len 8,
          poison := poisonMask s.mem (corePhys c a) len }
        match inject s pkt (qFlagged d && lastOne) v.g1 with
        | none => s
        | some t =>
          let t := bump (setOut t c k (qSel d) { p with credits := p.credits - 1, seq := (p.seq + 1) % 256 })
            ctrSlotSent (slotUnit c k) 1
          sendTokens c k d f (onSlot t c k (fun v => { v with moving := some { m with tokens := m.tokens + 1 } }))

/-- R273: the handle of a queue step, when it holds one, goes back to its free FIFO. -/
def freeHandle (s : State) (c k : Nat) (x : Option Nat) : State := x.elim s (putFree s c k)

/-- Go on with the tile under way: it completes, waits for credit, or stays. -/
def goOnSending (s : State) (c k : Nat) (d : BitVec 512) : State :=
  match (slotOf s c k).moving with
  | none => s
  | some m =>
    let t := sendTokens c k d (tokensOf m.bytes - m.tokens) s
    let w := slotOf t c k
    if w.moving.all (fun n => decide (tokensOf n.bytes ≤ n.tokens)) then
      forwardOut (passStep (freeHandle t c k m.handle) c k d (w.ip + 1)) c k d w.ip
    else giveUp t c k .blocked

/-- The twin of a slot that sends outside: it waits for its primary, and its buffer is free afterwards. -/
def twinSends (s : State) (c k : Nat) (d : BitVec 512) (crc : Nat) : State :=
  let v := slotOf s c k
  if qUseHq d && 0 < look v.fwd v.ip 0 then
    match takeReady s c k (qHq d) with
    | some (i, t) => twinWaits (putFree t c k i) c k d crc
    | none => s
  else twinWaits s c k d crc

/-- R252: a queue step is rejected with a cause, a queue's own or a field's. -/
def rejectFor (s : State) (c k cause : Nat) : State :=
  if 0x41 ≤ cause then rejectQueue s c k (slotOf s c k).ip cause else rejectStep s c k (slotOf s c k).ip cause c 0 0

/-- R273: the handle whose buffer a `q.send` is to send, and where the tile lies. -/
def sendFrom (v : Slot) (d : BitVec 512) : Option Nat × Nat :=
  let head? := if qUseHq d then (hqOf v (qHq d)).ready.head? else none
  (head?, if qUseHq d then hqAddr (imHq v.image (qHq d)) (head?.getD 0) else qAddr d)

/-- R252: the cause for which a `q.send` of a slot is rejected; a tile under way has been judged, and one whose handle is still
to come is judged with it. -/
def sendCause (s : State) (c k : Nat) (d : BitVec 512) : Option Nat :=
  let v := slotOf s c k
  let q := imHq v.image (qHq d)
  let a := (sendFrom v d).2
  let h := coreNat s c a 32
  if qReserved d then some 0x21
  else if !portOn (imPort v.image (qSel d)) || (qUseHq d && !hqOn q) then some 0x41
  else if (v.moving.isSome && !(v.primary.isSome && outsideStep v d)) || (qUseHq d && (sendFrom v d).1.isNone) then none
  else if decide (coreBytes < a + 32) then some 0x23
  else if !queueHeader h || (qUseHq d && decide (hqBytes q < 32 + thBytes h)) then some 0x42
  else if decide (coreBytes < a + 32 + thBytes h) then some 0x23
  else none

/-- R249, R260: `q.send` of a fetched step. -/
def sendStep (s : State) (c k : Nat) (d : BitVec 512) : State :=
  let v := slotOf s c k
  match sendCause s c k d with
  | some x => rejectFor s c k x
  | none =>
    if v.moving.isSome && !(v.primary.isSome && outsideStep v d) then goOnSending s c k d
    else
      let from_ := sendFrom v d
      let a := from_.2
      if qUseHq d && from_.1.isNone then giveUp s c k .blocked
      else
        let n := 32 + thBytes (coreNat s c a 32)
        let crc := crc32c (coreRead s c a n)
        let m : Moving := { tokens := 0, addr := a, bytes := n, handle := from_.1, poison := false }
        let begin_ (s : State) : State :=
          let t := if qUseHq d then ((takeReady s c k (qHq d)).map (·.2)).getD s else s
          goOnSending (onSlot t c k (fun v => { v with moving := some m })) c k d
        if !outsideStep v d then begin_ s
        else if v.primary.isSome then twinSends s c k d crc
        else match gate s c k v.ip crc with
          | .open_ t => begin_ t
          | .shut t => giveUp t c k .blocked
          | .twin t => t

/-! ## `q.recv` -/

/-- Write received bytes; those from outside the configured region reach the twin's memory as well (R742). -/
def recvWrite (s : State) (c a : Nat) (l : List Byte) (mask : List Bool) (outside : Bool) : State :=
  if outside then outsideWrite s c a l mask else { s with mem := writePoison s.mem (corePhys c a) l mask }

/-- R260, R265: take the tile's tokens from the lane while it has them. Fuel is their number. -/
def recvTokens (c k : Nat) (d : BitVec 512) : Nat → State → State
  | 0, s => s
  | f + 1, s =>
    let v := slotOf s c k
    match v.moving with
    | none => s
    | some m =>
      if tokensOf m.bytes ≤ m.tokens then s
      else match dequeue s c k (qSel d) with
        | none => s
        | some (t, u) =>
          let len := min 256 (m.bytes - 256 * m.tokens)
          let bad := bitAt t.header.toNat 8 || t.poison.any id
          let u := recvWrite u c (m.addr + 256 * m.tokens) (fit t.data len) t.poison (outsideStep v d)
          let n : Moving := { m with tokens := m.tokens + 1, poison := m.poison || bad }
          recvTokens c k d f (onSlot u c k (fun v => { v with moving := some n }))

/-- Go on with the tile under way: it completes, or waits for a token. -/
def goOnReceiving (s : State) (c k : Nat) (d : BitVec 512) : State :=
  match (slotOf s c k).moving with
  | none => s
  | some m =>
    let t := recvTokens c k d (tokensOf m.bytes - m.tokens) s
    let w := slotOf t c k
    match w.moving with
    | none => t
    | some n =>
      if tokensOf n.bytes ≤ n.tokens then
        let u := if n.poison then
            recvWrite t c n.addr (headPoisoned (coreRead t c n.addr 32)) (poisonMask t.mem (corePhys c n.addr) 32) (outsideStep w d)
          else t
        let u := n.handle.elim u (putReady u c k)
        forwardOut (passStep u c k d (w.ip + 1)) c k d w.ip
      else giveUp t c k .blocked

/-- The twin of a slot that receives from outside: it waits for its primary, then takes the same buffer. -/
def twinReceives (s : State) (c k : Nat) (d : BitVec 512) : State :=
  let v := slotOf s c k
  if look v.fwd v.ip 0 = 0 then giveUp s c k .blocked
  else
    let t := if qUseHq d then
        match takeFree s c k (qHq d) with
        | some (i, t) => putReady t c k i
        | none => s
      else s
    twinWaits t c k d 0

/-- R252: the cause for which a `q.recv` of a slot is rejected; a tile under way has been judged, and one whose first token is
still to come is judged with it. -/
def recvCause (s : State) (c k : Nat) (d : BitVec 512) : Option Nat :=
  let v := slotOf s c k
  let q := imHq v.image (qHq d)
  if qReserved d then some 0x21
  else if laneDepth (imLane v.image (qSel d)) = 0 || (qUseHq d && !hqOn q) then some 0x41
  else if (v.primary.isSome && outsideStep v d) || v.moving.isSome then none
  else (laneHead s c k (qSel d)).bind (fun t =>
    let h := natOf (fit t.data 32)
    if !queueHeader h || decide ((if qUseHq d then hqBytes q else qCount d) < 32 + thBytes h) then some 0x42
    else if !qUseHq d && decide (coreBytes < qAddr d + 32 + thBytes h) then some 0x23
    else none)

/-- R249, R260: `q.recv` of a fetched step. -/
def recvStep (s : State) (c k : Nat) (d : BitVec 512) : State :=
  let v := slotOf s c k
  let q := imHq v.image (qHq d)
  match recvCause s c k d with
  | some x => rejectFor s c k x
  | none =>
    if v.primary.isSome && outsideStep v d then twinReceives s c k d
    else if v.moving.isSome then goOnReceiving s c k d
    else match laneHead s c k (qSel d) with
    | none => giveUp s c k .blocked
    | some t =>
      let h := natOf (fit t.data 32)
      if qUseHq d then
        match takeFree s c k (qHq d) with
        | none => giveUp s c k .blocked
        | some (i, u) =>
          let m : Moving := { tokens := 0, addr := hqAddr q i, bytes := 32 + thBytes h, handle := some i, poison := false }
          goOnReceiving (onSlot u c k (fun v => { v with moving := some m })) c k d
      else
        let m : Moving := { tokens := 0, addr := qAddr d, bytes := 32 + thBytes h, handle := none, poison := false }
        goOnReceiving (onSlot s c k (fun v => { v with moving := some m })) c k d

/-! ## Control steps -/

/-- R250: `ctl.loop`: the counter after it and the step that follows. -/
def loopNext (v : Slot) (d : BitVec 512) : Nat × Nat :=
  let n := look v.loops (qSel d) 0
  if n + 1 < qCount d then (n + 1, qTarget d) else (0, v.ip + 1)

/-- R250. -/
def loopStep (s : State) (c k : Nat) (d : BitVec 512) : State :=
  let v := slotOf s c k
  if qReserved d then rejectStep s c k v.ip 0x21 c 0 0
  else if imStepCount v.image ≤ qTarget d || qCount d = 0 then rejectQueue s c k v.ip 0x43
  else
    let n := loopNext v d
    passStep (onSlot s c k (fun v => { v with
      loops := put v.loops (qSel d) n.1, monLoops := put v.monLoops (qSel d) n.1 })) c k d n.2

/-- R249: `ctl.jump`. -/
def jumpStep (s : State) (c k : Nat) (d : BitVec 512) : State :=
  let v := slotOf s c k
  if qReserved d then rejectStep s c k v.ip 0x21 c 0 0
  else if imStepCount v.image ≤ qTarget d then rejectQueue s c k v.ip 0x43
  else passStep s c k d (qTarget d)

/-- R247, R735: `ctl.wait`: the signatures are compared, and the slot waits until every earlier step has completed. -/
def waitStep (s : State) (c k : Nat) (d : BitVec 512) : State :=
  let v := slotOf s c k
  if qReserved d then rejectStep s c k v.ip 0x21 c 0 0
  else if signaturesDiffer s c v then controlFault s c k
  else if allDone v then passStep s c k d (v.ip + 1)
  else giveUp s c k .blocked

/-- R253: `ctl.yield`. -/
def yieldStep (s : State) (c k : Nat) (d : BitVec 512) : State :=
  let v := slotOf s c k
  if qReserved d then rejectStep s c k v.ip 0x21 c 0 0
  else giveUp (passStep s c k d (v.ip + 1)) c k .ready

/-- R248: `ctl.halt`. -/
def haltStep (s : State) (c k : Nat) (d : BitVec 512) : State :=
  let v := slotOf s c k
  if qReserved d then rejectStep s c k v.ip 0x21 c 0 0
  else giveUp (passStep s c k d (v.ip + 1)) c k .halted

/-- R248, R251: the row of `ctl.halt`; issuing past the last step has the same effect. -/
def haltRow (s : State) (c : Nat) : State :=
  match fetchStep s c 0x48 with
  | .stops t => settleCore t c
  | .past k => settleCore (giveUp s c k .halted) c
  | .step k d => settleCore (haltStep s c k d) c
  | .idle => s

/-- R252, R303, R372: the step that the slot issues next would not be rejected or stopped. -/
def stepStands (s : State) (c k : Nat) : Bool :=
  let v := slotOf s c k
  let d := nextStep s c v
  !(diverged s c v) && !(corePoison s c (imStepBase v.image + 64 * v.ip) 64) &&
  match fld d 0 8 with
  | 0x40 => (sendCause s c k d).isNone
  | 0x41 => (recvCause s c k d).isNone
  | 0x46 => !(qReserved d) && !(signaturesDiffer s c v)
  | 0x51 => !(mrReserved d) && mrAddr d % 8 = 0 && !(corePoison s c (ringEntryAt v (mrClass d + 1)) 16) &&
      reOn (ringEntry s c v (mrClass d + 1)) && decide (mrAddr d + 40 ≤ coreBytes)
  | 0x34 => !(csReserved d) && csDesc d % 128 = 0 && decide (csDesc d + 128 ≤ coreBytes) && !(corePoison s c (csDesc d) 128) &&
      !(stBad (recordOf 1024 (coreRead s c (csDesc d) 128))) && (strmRelease s c k (csStream d)).2 = some false
  | 0x35 => !(csReserved d) && csDesc d = 0 && (strmRelease s c k (csStream d)).2 = some false
  | _ => true

/-- R247, R255: the step that the slot issues next would block it, and would not be rejected. -/
def wouldBlock (s : State) (c k : Nat) : Bool :=
  let v := slotOf s c k
  let d := nextStep s c v
  let op := fld d 0 8
  decide (v.ip < imStepCount v.image) && !(unblocked s c k) && stepStands s c k &&
  ([0x40, 0x41, 0x46, 0x34, 0x35].contains op || (op = 0x51 && !(mrNowait d)))

/-- R254, R255: the quantum of the RUNNING slot has ended. -/
def quantumOver (s : State) (c : Nat) : State :=
  match runningSlot s c with
  | none => s
  | some k =>
    let v := slotOf s c k
    let q := imQuantum v.image
    if q = 0 || !windowOver (computeNow s c) v.since q || !coreRuns s c then s
    else if computeNow s c = v.since + q && wouldBlock s c k then settleCore (giveUp s c k .blocked) c
    else if (slotsIn s c .ready).any (fun j => !(slotOf s c j).stopping) then settleCore (giveUp s c k .ready) c
    else onSlot s c k (fun v => { v with since := v.since + q })

/-! ## Messages -/

/-- R299: the words of a message. -/
def messageWords (s : State) (c : Nat) (d : BitVec 512) : List Reg :=
  (List.range (msWords d)).map (fun w => BitVec.ofNat 64
    (if msInline d then fld d (256 + 64 * w) 64 else coreNat s c (msAddr d + 8 * w) 8))

/-- R301: the words were poisoned when read. -/
def messagePoison (s : State) (c : Nat) (d : BitVec 512) : Bool := !msInline d && corePoison s c (msAddr d) (8 * msWords d)

/-- R33, R310: the destination of a message can be reached. -/
def coreReachable (s : State) (c : Nat) : Bool := coreUsable s c && shedOf s (regionOf c) ≠ .dark

/-- R299, R300, R310: the message is on its way out of the sender's router, or is dropped there, which completes the step. -/
def sendMessage (s : State) (c k : Nat) (d : BitVec 512) : State :=
  let v := slotOf s c k
  let m : Msg := { src := c, srcSlot := k, dst := relocated v (msDest d), dstSlot := 0, gen := v.gen, step := v.ip,
                   body := .user (msTag d) (msEpoch d) (messageWords s c d) (messagePoison s c d) }
  let t := bump (issueTo s c k d) ctrCoreMsgSent c 1
  if coreReachable t m.dst then post t m else sendDone (dropMessage t c m (msTag d) (msEpoch d) 0 2) m

/-- R299, R303: `msg.send` of a fetched step. -/
def msgSendStep (s : State) (c k : Nat) (d : BitVec 512) : State :=
  let v := slotOf s c k
  if msReserved d || (!msInline d && msAddr d % 8 ≠ 0) then rejectStep s c k v.ip 0x21 c 0 0
  else if !coreExists s (msDest d) || msWords d = 0 || 4 < msWords d then rejectStep s c k v.ip 0x51 c 0 0
  else if !msInline d && decide (coreBytes < msAddr d + 8 * msWords d) then rejectStep s c k v.ip 0x23 c 0 0
  else
    match gate s c k v.ip (crc32c (bytesOf 64 d.toNat)) with
    | .shut t => t
    | .twin t => issueTwin t c k d
    | .open_ t => sendMessage t c k d

/-- R317: the ring past a pad marker, if one stands at rd: the entry, and whether it was skipped. -/
def pastPad (s : State) (c : Nat) (v : Slot) (i : Nat) : Nat × State :=
  let e := ringEntry s c v i
  if ringHas e && bitAt (coreNat s c (reBase e + 8 * reRd e) 8) 3 then
    let t := setRingRd s c v i 0 (!reRdPhase e)
    (ringEntry t c v i, t)
  else (e, s)

/-- R317: `msg.recv` of a fetched step. -/
def msgRecvStep (s : State) (c k : Nat) (d : BitVec 512) : State :=
  let v := slotOf s c k
  let i := mrClass d + 1
  if mrReserved d || mrAddr d % 8 ≠ 0 then rejectStep s c k v.ip 0x21 c 0 0
  else if corePoison s c (ringEntryAt v i) 16 then consumePoison s c k v.ip 2
  else if !reOn (ringEntry s c v i) then rejectStep s c k v.ip 0x52 c 0 0
  else if decide (coreBytes < mrAddr d + 40) then rejectStep s c k v.ip 0x23 c 0 0
  else
    let r := pastPad s c v i
    let e := r.1
    if !ringHas e then
      (if mrNowait d then passStep (coreWrite r.2 c (mrAddr d) (bytesOf 8 0)) c k d (v.ip + 1)
       else giveUp r.2 c k .blocked)
    else
      let a := reBase e + 8 * reRd e
      let n := bitsOf (coreNat r.2 c a 8) 0 3
      if bitAt (coreNat r.2 c a 8) 4 || corePoison r.2 c a (8 + 8 * n) then consumePoison r.2 c k v.ip 2
      else
        let t := coreWrite r.2 c (mrAddr d) (coreRead r.2 c a (8 + 8 * n))
        let whole := decide (reRd e + 1 + n = reSize e)
        passStep (setRingRd t c v i (if whole then 0 else reRd e + 1 + n) (reRdPhase e != whole)) c k d (v.ip + 1)

/-! ## The meanings -/

/-- `q.send`, R249. -/
def execQSend (core : Nat) (s : State) : Host.Outcome State Fault Refusal := .next (seqRow s core 0x40 (sendStep s core))
/-- `q.recv`, R249. -/
def execQRecv (core : Nat) (s : State) : Host.Outcome State Fault Refusal := .next (seqRow s core 0x41 (recvStep s core))
/-- `ctl.loop`, R250. -/
def execCtlLoop (core : Nat) (s : State) : Host.Outcome State Fault Refusal := .next (seqRow s core 0x44 (loopStep s core))
/-- `ctl.jump`, R249. -/
def execCtlJump (core : Nat) (s : State) : Host.Outcome State Fault Refusal := .next (seqRow s core 0x45 (jumpStep s core))
/-- `ctl.wait`, R247. -/
def execCtlWait (core : Nat) (s : State) : Host.Outcome State Fault Refusal := .next (seqRow s core 0x46 (waitStep s core))
/-- `ctl.yield`, R253. -/
def execCtlYield (core : Nat) (s : State) : Host.Outcome State Fault Refusal := .next (seqRow s core 0x47 (yieldStep s core))
/-- `ctl.halt`, R248. -/
def execCtlHalt (core : Nat) (s : State) : Host.Outcome State Fault Refusal := .next (haltRow s core)
/-- R254: a quantum ends. -/
def execQuantumEnd (core : Nat) (s : State) : Host.Outcome State Fault Refusal := .next (quantumOver s core)
/-- `msg.send`, R299. -/
def execMsgSend (core : Nat) (s : State) : Host.Outcome State Fault Refusal := .next (seqRow s core 0x50 (msgSendStep s core))
/-- `msg.recv`, R316. -/
def execMsgRecv (core : Nat) (s : State) : Host.Outcome State Fault Refusal := .next (seqRow s core 0x51 (msgRecvStep s core))

end Sys2Proof.Machine
end

