-- ==== Sys2Proof/Machine/Contexts.lean ====
section
/-! DEFINITION. What Furelo and the region controllers do to contexts as a whole: the slots of a configured region,
stopping them, save images and their addresses, and draining the module (05_spatial.md, 09_translation.md,
14_integrity.md). -/

namespace Sys2Proof.Machine

/-! ## Slots of a slice and of a configured region -/

/-- The loaded slots of the cores listed that satisfy p, as (core, slot); twins are left out. -/
def slotsWhere (s : State) (cores : List Nat) (p : Slot → Bool) : List (Nat × Nat) :=
  (cores.map (fun c => ((coreOf s c).slots.filter (fun e => e.2.state ≠ .empty && e.2.primary.isNone && p e.2)).map
    (fun e => (c, e.1)))).flatten

/-- The cores of a slice that hold anything. -/
def sliceCores (s : State) (h : Nat) : List Nat := (keys s.cores).filter (fun c => sliceOfCore s c = some h)

/-- R230: the slots of a configured region of a slice on its cores. -/
def confSlots (s : State) (h config : Nat) : List (Nat × Nat) :=
  slotsWhere s (sliceCores s h) (fun v => decide (imConfig v.image = config))

/-- The region whose controller watches a configured region: its anchor's. -/
def confRegion (s : State) (h config : Nat) : Option Nat :=
  ((confSlots s h config).head?).map (fun e => regionOf (anchorOf (slotOf s e.1 e.2)))

/-- R812: READY, RUNNING or BLOCKED. -/
def activeState (st : SlotState) : Bool := st = .ready || st = .running || st = .blocked

/-! ## Stopping, R243 -/

/-- R333: ask the die to cancel the waits of a slot. -/
def cancelWaits (s : State) (c k : Nat) : State :=
  each ((slotOf s c k).syncs.filter (fun y => decide (7 ≤ y.op) && !y.retry)) s (fun y s =>
    let d := recordOf 512 (coreRead s c (imStepBase (slotOf s c k).image + 64 * y.step) 64)
    post s { src := c, srcSlot := k, dst := syRegion d, dstSlot := 0, body := .cancel (syRegion d) (syIndex d) y.tag })

/-- R243: `ctx.stop` reaches a slot. -/
def stopSlot (s : State) (c k : Nat) : State :=
  let v := slotOf s c k
  if !activeState v.state || v.stopping then s
  else
    let t := onSlot s c k (fun v => { v with stopping := true, state := if v.state = .running then .ready else v.state })
    settleCore (cancelWaits t c k) c

/-- Stop several slots. -/
def stopAll (s : State) (l : List (Nat × Nat)) : State := each l s (fun e s => stopSlot s e.1 e.2)

/-! ## Draining, R759, R760 -/

/-- R760: the module is drained for a suspect of a fault class. -/
def drain (s : State) (cls : Nat) : State :=
  let t := stopAll s (slotsWhere s ((keys s.slices).map (sliceCores s)).flatten (fun _ => true))
  if t.nv.drained then t
  else
    let t := bump t ctrModDrains 0 1
    settleAlert (settleHolds (lapsed { t with nv := { t.nv with drained := true, suspect := cls } } 6))

/-! ## Save images, R498, R687 -/

/-- R496, R497, R796: the physical address of a byte of the save image of a group's core. Log entry 16 places the slice's
own pool: in the first stack of the core's region, or, while that is dark, in the second stack of the one that took it. -/
def imageAt (s : State) (g : Group) (core off : Nat) : Option Nat :=
  match g.pool with
  | none =>
    let r := regionOf core
    let home := ((g.dark.find? (·.1 = r)).map (·.2)).getD r
    some (hbmPhys (2 * home + bn (home ≠ r)) (reservedBase s + 2 ^ 26 + (look g.places core 0 * 80 + (regionCores r).idxOf core) * 2 ^ 23 + off))
  | some pool =>
    match (reachNow s .furelo (pool + g.cores.idxOf core * 2 ^ 23 + off) 1 true).1 with
    | .ok a _ => some a
    | _ => none

/-- Replace the groups of a slice by a function of each. -/
def onGroups (s : State) (h : Nat) (f : Group → Group) : State :=
  match look? s.slices h with
  | none => s
  | some l => setSlice s h { l with groups := l.groups.map f }

/-- The groups of a slice. -/
def groupsOf (s : State) (h : Nat) : List Group := ((look? s.slices h).map (·.groups)).getD []

/-- The group of a slice that a configured region belongs to, with its place. -/
def groupHolding (s : State) (h config : Nat) : Option (Nat × Group) :=
  ((groupsOf s h).zipIdx.find? (fun e => e.1.configs.contains config)).map (fun e => (e.2, e.1))

/-- Replace a group by its place. -/
def setGroup (s : State) (h i : Nat) (g : Group) : State :=
  match look? s.slices h with
  | none => s
  | some l => setSlice s h { l with groups := l.groups.set i g }

/-- The saved-out groups of a core whose image holds a slot that satisfies p: the group's place and the slot. -/
def savedSlot (s : State) (c : Nat) (p : Core → Nat → Slot → Bool) : Option (Nat × Group × Nat) :=
  ((sliceOfCore s c).map (fun h =>
    ((groupsOf s h).zipIdx.filter (fun e => !e.1.resident && (e.1.image = .saved || e.1.image = .restoring))).filterMap (fun e =>
      match look? e.1.saved c with
      | none => none
      | some co => (co.slots.find? (fun v => p co v.1 v.2)).map (fun v => (e.2, e.1, v.1))))).bind (·.head?)

/-! ## Writing rings, R313, R502 -/

/-- R313: the writes, by core-memory offset, that place an entry in the ring whose table entry e lies at `tab`: `head`
of the phase, then the words. `wr` is the word of the table entry that holds wr. None when it is dropped; the Bool says
that a pad marker is among them. -/
def entryWrites (e tab wrWord : Nat) (head : Bool → Nat) (words : List Nat) : Option (List (Nat × List Byte) × Bool) :=
  match ringFit e (1 + words.length) with
  | none => none
  | some (pad, u, ph, wr, wph) =>
    let marker := if pad then [(reBase e + 8 * reWr e, bytesOf 8 (8 + bn (reWrPhase e) * 32))] else []
    let body := words.zipIdx.map (fun w => (reBase e + 8 * (u + 1 + w.2), bytesOf 8 w.1))
    some (marker ++ body ++ [(reBase e + 8 * u, bytesOf 8 (head ph)),
      (tab + 8, bytesOf 4 (setBits wrWord 0 19 (wr + bn wph * 2 ^ 18)))], pad)

/-- The entry of a live slot's ring. -/
def liveWrites (s : State) (c : Nat) (v : Slot) (i : Nat) (head : Bool → Nat) (words : List Nat) :
    Option (List (Nat × List Byte) × Bool) :=
  let a := ringEntryAt v i
  entryWrites (ringEntry s c v i) a (coreNat s c (a + 8) 4) head words

/-- The offset of core memory in a save image, R498. -/
def imageCore : Nat := 0x200000

/-- The entry of a saved slot's ring, in its image. -/
def imageWrites (s : State) (g : Group) (c : Nat) (v : Slot) (i : Nat) (head : Bool → Nat) (words : List Nat) :
    Option (List (Nat × List Byte) × Bool) :=
  let a := ringEntryAt v i
  let at_ (off n : Nat) : Nat := ((imageAt s g c (imageCore + off)).map (fun p => readNat s.mem p n)).getD 0
  entryWrites (at_ a 8 + at_ (a + 8) 8 * 2 ^ 64) a (at_ (a + 8) 4) head words

/-- Make writes in the core memory of a save image. -/
def intoImage (s : State) (g : Group) (c : Nat) (l : List (Nat × List Byte)) : State :=
  each l s (fun w s => match imageAt s g c (imageCore + w.1) with
    | some p => { s with mem := writeMem s.mem p w.2 }
    | none => s)

/-- Make writes in a live core's memory, and its twin's. -/
def intoCore (s : State) (c : Nat) (l : List (Nat × List Byte)) : State :=
  each l s (fun w s => outsideWrite s c w.1 w.2 [])

end Sys2Proof.Machine
end

