-- ==== Sys2Proof/Machine/Messages.lean ====
section
/-! DEFINITION. The narrow network's events: messages, lane control, stall windows, twins and the context watchdog
(05_spatial.md R263 to R289, 06_messages.md R309 to R323, 14_integrity.md R735 to R745, 16_recovery.md R809 to R814). -/

namespace Sys2Proof.Machine

/-! ## User messages -/

/-- R312: the header of a ring entry, by phase. -/
def entryHead (n tag epoch src srcSlot : Nat) (poison ph : Bool) : Nat :=
  n + bn poison * 16 + bn ph * 32 + epoch * 2 ^ 8 + tag * 2 ^ 16 + src * 2 ^ 32 + srcSlot * 2 ^ 44

/-- What follows a write into a core's rings. -/
def ringWritten (s : State) (c : Nat) : State :=
  let s := settleCore s c
  match twinCore s c with
  | none => s
  | some t => settleCore s t

/-- R313 to R315: the hub places an accepted message in the ring of its class, or drops it with reason 3. -/
def placeMessage (s : State) (m : Msg) (v : Slot) (tag epoch : Nat) (words : List Reg) (poison : Bool) (endEpoch : Nat) : State :=
  match liveWrites s m.dst v (tag / 2 ^ 12 + 1) (entryHead words.length tag epoch m.src m.srcSlot poison) (words.map (·.toNat)) with
  | none => dropMessage s m.dst m tag epoch endEpoch 3
  | some (l, pad) =>
    let t := bump (bump (intoCore s m.dst l) ctrCoreMsgWritten m.dst 1) ctrCorePads m.dst (bn pad)
    ringWritten t m.dst

/-- R502: a message for a slot that is saved out goes into the ring within its image. -/
def placeInImage (s : State) (m : Msg) (g : Group) (v : Slot) (tag epoch : Nat) (words : List Reg) (poison : Bool) : State :=
  match imageWrites s g m.dst v (tag / 2 ^ 12 + 1)
      (entryHead words.length tag epoch m.src m.srcSlot poison) (words.map (·.toNat)) with
  | none => dropMessage s m.dst m tag epoch epoch 3
  | some (l, pad) =>
    bump (bump (intoImage s g m.dst l) ctrCoreMsgWritten m.dst 1) ctrCorePads m.dst (bn pad)

/-- R502: what finds its endpoint parked waits in the region controller's queue; none when that is full. -/
def parkAny (s : State) (m : Msg) : Option State :=
  let r := regionOf m.dst
  if (regOf s r).parked.length < 1024 then
    some (bump (setReg s r { regOf s r with parked := (regOf s r).parked ++ [m] }) ctrRegionMsgParked r 1)
  else none

/-- R502: a message waits in the region controller's queue, or is dropped when that is full. -/
def parkMessage (s : State) (m : Msg) (tag epoch : Nat) : State :=
  (parkAny s m).getD (dropMessage (bump s ctrRegionMsgDropped (regionOf m.dst) 1) m.dst m tag epoch epoch 3)

/-- R502, R503: where what arrives for a core of a group goes while its endpoints are parked: 0 the queue, 1 the image, 2 the
core's memory. -/
def parkedPlace (g : Group) (c : Nat) : Nat :=
  match g.image with
  | .saving => if (look g.prog c (0, 0)).1 = 5 then 1 else 0
  | .restoring => if !g.prog.isEmpty && decide ((look g.prog c (5, 0)).1 ≤ 4) then 2 else 0
  | _ => 1

/-- An endpoint of a core. -/
def endOf (s : State) (c cls : Nat) : Endpoint := look (coreOf s c).ends cls .fresh

/-- R309, R310, R502: where a user message goes. -/
def deliverUser (s : State) (m : Msg) (tag epoch : Nat) (words : List Reg) (poison : Bool) : State :=
  let cls := tag / 2 ^ 12
  let e := endOf s m.dst cls
  if !coreReachable s m.dst then dropMessage s m.src m tag epoch 0 2
  else if e.isOpen && e.epoch = epoch then
    (match if e.parked then groupOf s m.dst else none with
     | some g =>
       if parkedPlace g m.dst = 1 then placeInImage s m g (slotOf s m.dst e.slot) tag epoch words poison
       else parkMessage s m tag epoch
     | none => placeMessage s m (slotOf s m.dst e.slot) tag epoch words poison e.epoch)
  else
    match savedSlot s m.dst (fun co k _ =>
        let e := look co.ends cls .fresh
        e.isOpen && e.epoch = epoch && e.slot = k) with
    | some (_, g, k) =>
      let v := look (look g.saved m.dst .fresh).slots k .fresh
      match parkedPlace g m.dst with
      | 0 => parkMessage s m tag epoch
      | 1 => placeInImage s m g v tag epoch words poison
      | _ => placeMessage s m v tag epoch words poison epoch
    | none =>
      if e.isOpen then dropMessage s m.dst m tag epoch e.epoch 0 else dropMessage s m.dst m tag epoch 0 1

/-- R309, R313, R721: a user message reaches its destination router; R516, R517: a router on its way may find an error in
its route table, or in a route that it had cached from there. -/
def messageDeliver (s : State) (i : Nat) (crcOk : Bool) (lookup : Lookup) : State :=
  if lookup = .tableError && (s.narrow[i]?).isSome then escalate s 1 (((s.narrow[i]?).bind msgAt).getD 0)
  else onMsg s i (fun m t => match m.body with
    | .user tag epoch words poison =>
      if crcOk then some (deliverUser t m tag epoch words poison)
      else some (deliverUser (detect t (elCore m.dst) 5 false 0) m tag epoch words true)
    | _ => none)

/-! ## Orphan notices, R322 -/

/-- R502, R323: an error record for a slot of a saved-out group, made with its lost mark, goes into its image or is dropped;
the Bool says that it was written. -/
def recordInImage (s : State) (h i : Nat) (g : Group) (c k : Nat) (record : Bool → Nat) : State × Bool :=
  match look? g.saved c with
  | none => (s, false)
  | some co =>
    let v := look co.slots k .fresh
    let r := record v.errLost
    let keep_ (s : State) (lost : Bool) : State := setGroup s h i { g with
      saved := put g.saved c { co with slots := put co.slots k { v with errLost := lost, lastErr := BitVec.ofNat 256 r } } }
    match imageWrites s g c v 0 (fun _ => bitsOf r 0 64) [bitsOf r 64 64, bitsOf r 128 64, bitsOf r 192 64] with
    | none => (keep_ (bump s ctrSlotErrDropped (slotUnit c k) 1) true, false)
    | some (l, _) => (keep_ (intoImage s g c l) false, true)

/-- R502: a notice for a slot whose endpoints are parked waits with the messages, or is discarded when the queue is full. -/
def parkNotice (s : State) (m : Msg) : State :=
  (parkAny s m).getD (bump (bump s ctrRegionMsgDropped (regionOf m.dst) 1) ctrCoreOrphanDiscarded m.dst 1)

/-- R322, R502: where a notice goes: it is written when the slot's load generation still matches, and counts when the ring had
room. -/
def deliverNotice (s : State) (m : Msg) (gen kind : Nat) (detail : Reg) : State :=
  let c := m.dst
  let k := m.dstSlot
  let v := slotOf s c k
  let record (lost : Bool) : Nat := errorRecord s lost c k kind 0 c m.step 0 0 0 detail.toNat
  if v.state ≠ .empty && v.gen = gen then
    (match (groupOf s c).filter (fun g => g.image = .saving && !g.prog.isEmpty) with
     | none => writeRecord (bump s ctrCoreOrphanWritten c (bn (recordFit s c k).isSome)) c k (record v.errLost)
     | some g =>
       if parkedPlace g c = 0 then parkNotice s m
       else match imageWrites s g c v 0 (fun _ => bitsOf (record v.errLost) 0 64)
           ((List.range 3).map (fun i => bitsOf (record v.errLost) (64 * (i + 1)) 64)) with
         | none => onSlot (bump s ctrSlotErrDropped (slotUnit c k) 1) c k (fun v => { v with errLost := true, lastErr := BitVec.ofNat 256 (record v.errLost) })
         | some (l, _) => onSlot (bump (intoImage s g c l) ctrCoreOrphanWritten c 1) c k (fun w =>
             { w with errLost := false, lastErr := BitVec.ofNat 256 (record v.errLost) }))
  else match savedSlot s c (fun _ j w => j = k && w.state ≠ .empty && w.gen = gen) with
    | some (i, g, _) =>
      if parkedPlace g c = 0 then parkNotice s m
      else if parkedPlace g c = 2 then
        let w := look (look g.saved c .fresh).slots k .fresh
        match liveWrites s c w 0 (fun _ => bitsOf (record w.errLost) 0 64)
            ((List.range 3).map (fun i => bitsOf (record w.errLost) (64 * (i + 1)) 64)) with
        | none => bump s ctrSlotErrDropped (slotUnit c k) 1
        | some (l, _) => bump (intoCore s c l) ctrCoreOrphanWritten c 1
      else
        let r := recordInImage s (handleOf s c) i g c k record
        if r.2 then bump r.1 ctrCoreOrphanWritten c 1 else r.1
    | none => bump s ctrCoreOrphanDiscarded c 1

/-- R322: a notice reaches its slot. -/
def orphanNotice (s : State) (i : Nat) : State :=
  onMsg s i (fun m t => match m.body with
    | .orphan gen kind detail => some (deliverNotice t m gen kind detail)
    | _ => none)

/-! ## Lane control, R263, R264 -/

/-- R264, R321: a token or open request that is not its lane's producer's, or of another gen. -/
def orphanLane (s : State) (c k n core slot gen port sentGen : Nat) (request : Bool) : State :=
  orphanTo (bump s ctrSlotDropped (slotUnit c k) 1) c core slot gen 0 5
    (c + n * 2 ^ 12 + k * 2 ^ 16 + sentGen * 2 ^ 18 + (laneOf (slotOf s c k) n).gen * 2 ^ 22 + port * 2 ^ 26 + bn request * 2 ^ 30)

/-- R258: a (core, slot, port) is the producer of a lane. -/
def isProducer (v : Slot) (n core slot port : Nat) : Bool :=
  let e := imLane v.image n
  v.state ≠ .empty && laneDepth e ≠ 0 && relocated v (laneCore e) = core && laneSlot e = slot && lanePort e = port

/-- R263: a port takes an open grant; under another gen it numbers its tokens from 0 (DESIGN CHOICE, log entry 107). -/
def openGrant (s : State) (i : Nat) : State :=
  onMsg s i (fun m t => match m.body with
    | .openGrant port gen credits =>
      let p := outOf (slotOf t m.dst m.dstSlot) port
      let t := setOut t m.dst m.dstSlot port { gen := gen, credits := credits, seq := if gen = p.gen then p.seq else 0 }
      some (settleCore (if credits = 0 then t else progress t m.dst m.dstSlot true) m.dst)
    | _ => none)

/-- R263: a lane takes an open request: its gen advances, tokens of the old binding still early are let go, and it
grants. -/
def openRequest (s : State) (i : Nat) : State :=
  onMsg s i (fun m t => match m.body with
    | .openRequest n port =>
      let v := slotOf t m.dst m.dstSlot
      if isProducer v n m.src m.srcSlot port then
        some (openLane (setLane t m.dst m.dstSlot n (rebindLane (laneOf v n))) m.dst m.dstSlot n)
      else some (orphanLane t m.dst m.dstSlot n m.src m.srcSlot m.gen port 0 true)
    | _ => none)

/-- R263: a port takes a credit return. -/
def creditReturn (s : State) (i : Nat) : State :=
  onMsg s i (fun m t => match m.body with
    | .credit port gen n =>
      let p := outOf (slotOf t m.dst m.dstSlot) port
      if p.gen = gen then
        some (settleCore (progress (setOut t m.dst m.dstSlot port { p with credits := p.credits + n }) m.dst m.dstSlot true) m.dst)
      else some t
    | _ => none)

/-! ## Stall windows, R281 to R289 -/

/-- R281: the producer port of a lane has no credit. -/
def laneStarved (s : State) (c k n : Nat) : Bool :=
  let v := slotOf s c k
  let e := imLane v.image n
  (outOf (slotOf s (relocated v (laneCore e)) (laneSlot e)) (lanePort e)).credits = 0

/-- R282: a slot of the configured region that keeps a window from standing: a loaded one in such a state, or one that has
been emptied. -/
def windowBarred (s : State) (h config : Nat) : Bool :=
  let state (e : Nat × Nat) : SlotState := (slotOf s e.1 e.2).state
  (confSlots s h config).any (fun e => state e = .loaded || state e = .stopped || state e = .faulted) ||
  (confOf s h config).members.any (fun u => coreUsable s (u / 4) && state (u / 4, u % 4) = .empty)

/-- R283: the full lanes of a configured region's slots whose producer port has no credit, as slot and lane. -/
def starvedLanes (s : State) (h config : Nat) : List (Nat × Nat) :=
  (confSlots s h config).flatMap (fun e =>
    ((fullLanes (slotOf s e.1 e.2)).filter (laneStarved s e.1 e.2)).map (fun n => (slotUnit e.1 e.2, n)))

/-- R281, R282, R288: the anchor opens a window once every slot has stalled and a full lane's producer lacks credit; it counts
from the arrival of the last stall beacon, also where a slot's state barred it until later. -/
def watchStall (s : State) (h config : Nat) : State :=
  let l := confSlots s h config
  let v := confOf s h config
  let all_ := !l.isEmpty && l.all (fun e => v.stalled.contains (slotUnit e.1 e.2))
  let starved := v.full.any (fun f => laneStarved s (f.1 / 4) (f.1 % 4) f.2)
  if v.window.isNone && !v.exhausted && all_ && starved && !windowBarred s h config then
    let a := ((l.head?).map (fun e => anchorOf (slotOf s e.1 e.2))).getD 0
    setConf (bump s ctrAnchorWindows a 1) h config { v with window := some v.beaconAt }
  else s

/-- R281: a stall beacon reaches the anchor. -/
def stallBeacon (s : State) (i : Nat) : State :=
  onMsg s i (fun m t => match m.body with
    | .stall h config full =>
      let v := confOf t h config
      let u := slotUnit m.src m.srcSlot
      some (watchStall (setConf t h config { v with
        stalled := addTo v.stalled u, full := v.full.filter (·.1 ≠ u) ++ full.map (fun n => (u, n))
        beaconAt := t.clocks.mesh }) h config)
    | _ => none)

/-- R281: a progress beacon reaches the anchor; within the window it closes it. -/
def progressBeacon (s : State) (i : Nat) : State :=
  onMsg s i (fun m t => match m.body with
    | .progress h config =>
      let v := confOf t h config
      let u := slotUnit m.src m.srcSlot
      let over_ := v.window.any (fun t0 => windowOver t.clocks.mesh t0 65536)
      some (setConf t h config { v with
        stalled := dropFrom v.stalled u, full := v.full.filter (·.1 ≠ u), window := if over_ then v.window else none })
    | _ => none)

/-- R284: a slot's reserve may still be armed. -/
def mayArm (v : Slot) : Bool := imExtTokens v.image ≠ 0 && v.reserve.isNone

/-- R283, R288, R289: a window ends unclosed: the signature is recorded and extend commands go out, or the extension is
exhausted. -/
def stallWindowEnd (s : State) (h config : Nat) : State :=
  let l := confSlots s h config
  let v := confOf s h config
  match v.window with
  | none => s
  | some t0 =>
    if windowBarred s h config || l.isEmpty then setConf s h config { v with window := none }
    else if !windowOver s.clocks.mesh t0 65536 then s
    else
      let a := ((l.head?).map (fun e => anchorOf (slotOf s e.1 e.2))).getD 0
      let s := bump s ctrAnchorSignatures a 1
      let lanes := starvedLanes s h config
      let v := { v with window := none, signature := lanes }
      if lanes.any (fun f => mayArm (slotOf s (f.1 / 4) (f.1 % 4))) then
        each lanes (setConf s h config v) (fun f s =>
          post s { src := a, srcSlot := 0, dst := f.1 / 4, dstSlot := f.1 % 4, body := .extend f.2 })
      else bump (setConf s h config { v with exhausted := true }) ctrAnchorExhausted a 1

/-- R284: an extend command reaches a core. -/
def extendCommand (s : State) (i : Nat) : State :=
  onMsg s i (fun m t => match m.body with
    | .extend n =>
      let v := slotOf t m.dst m.dstSlot
      if v.state ≠ .empty && mayArm v then
        let t := onSlot t m.dst m.dstSlot (fun v => { v with reserve := some n })
        let t := setLane t m.dst m.dstSlot n { laneOf v n with armed := true }
        some (openLane (bump t ctrSlotExtArmed (slotUnit m.dst m.dstSlot) 1) m.dst m.dstSlot n)
      else some t
    | _ => none)

/-! ## Twins, R743 to R745 -/

/-- Replace a slot's wait for a twin value. -/
def setTwinWait (s : State) (c k step : Nat) (f : TwinWait → TwinWait) : State :=
  onSlot s c k (fun v => { v with twinWait := onFirst (fun w => decide (w.step = step)) f v.twinWait })

/-- R743, R744: a twin's value reaches its primary once the primary's own is ready: equal, the step goes on; otherwise
the fault is recorded and both are to run the step again. -/
def twinValue (s : State) (i : Nat) : State :=
  onMsg s i (fun m t => match m.body with
    | .twin step crc =>
      match (slotOf t m.dst m.dstSlot).twinWait.find? (fun w => w.step = step && !w.agreed && !w.rerun) with
      | none => some s
      | some w =>
        if w.crc = crc then some (settleCore (setTwinWait t m.dst m.dstSlot step (fun w => { w with agreed := true })) m.dst)
        else
          let t := bump (detect t (elCore m.dst) 0xC false 0) ctrSlotTwinMismatch (slotUnit m.dst m.dstSlot) 1
          some (setTwinWait t m.dst m.dstSlot step (fun w => { w with rerun := true }))
    | _ => none)

/-- R744, R745: a value is missing after 100 µs, or disagreed, and the step has been run again by both: they agree now,
or the known-answer tests decide. -/
def twinRerun (s : State) (c k : Nat) (again primaryFails twinFails : Bool) : State :=
  let v := slotOf s c k
  match v.twinWait.find? (fun w => !w.agreed &&
      (w.rerun || windowOver (regionNow s (regionOf c)) w.since (100 * ticksPerUs))) with
  | none => s
  | some w =>
    let s := if w.rerun then s
      else bump (detect s (elCore c) 0xC false 0) ctrSlotTwinTimeout (slotUnit c k) 1
    if !again then settleCore (masked (setTwinWait s c k w.step (fun w => { w with agreed := true })) 3) c
    else
      let s := setTwinWait s c k w.step (fun w => { w with rerun := true })
      let s := if primaryFails then detect s (elCore c) 0x14 true 0 else s
      let s := if twinFails then detect s (elCore ((v.twin.map (·.1)).getD c)) 0x14 true 0 else s
      if primaryFails || twinFails then s else drain s 0xC

/-! ## Signatures and the watchdog -/

/-- R735: the signatures of a slot are compared. -/
def signatureCheck (s : State) (c k : Nat) (differs : Bool) : State :=
  let v := slotOf s c k
  if checked s c && activeState v.state && (differs || signaturesDiffer s c v) then settleCore (controlFault s c k) c else s

/-- R812: the watchdog of a configured region counts now. -/
def watchCounts (s : State) (h config : Nat) : Bool :=
  let l := (confSlots s h config).filter (fun e => activeState (slotOf s e.1 e.2).state)
  !l.isEmpty && l.all (fun e => coreRuns s e.1) &&
  (l.any (fun e => !queueStalled s e.1 e.2 && !declaredWait s e.1 (slotOf s e.1 e.2)) ||
   l.all (fun e => queueStalled s e.1 e.2))

/-- R813: one tick of counted time of every configured region. -/
def watchTick (s : State) : State :=
  { s with slices := s.slices.map (fun e =>
      (e.1, { e.2 with confs := e.2.confs.map (fun f =>
        (f.1, if watchCounts s e.1 f.1 then { f.2 with counted := f.2.counted + 1 } else f.2)) })) }

/-- R813: the counted time at which the watchdog expires. -/
def watchLimit : Nat := 8 * ticksPerMs

/-- R810, R813: a progress report reaches the region controller. -/
def watchReport (s : State) (i : Nat) : State :=
  onMsg s i (fun m t => match m.body with
    | .watchdog h config moved _ =>
      let t := bump t ctrRegionReports m.dst 1
      let v := confOf t h config
      some (if moved && v.counted < watchLimit then setConf t h config { v with counted := 0 } else t)
    | _ => none)

/-- R832: the target of a reset of every slot of a configured region. -/
def confTarget (h : Nat) : Nat := h * 2 ^ 32 + (2 ^ 32 - 1)

/-- R814: the watchdog expires. -/
def watchExpiry (s : State) (h config : Nat) : State :=
  let v := confOf s h config
  if v.counted < watchLimit then s
  else
    let l := confSlots s h config
    let a := ((l.head?).map (fun e => anchorOf (slotOf s e.1 e.2))).getD 0
    let s := bump (detect (setConf s h config { v with counted := 0 }) (elCore a) 0xB false 0) ctrRegionWatchdog (regionOf a) 1
    let s := each (l.filter (fun e => activeState (slotOf s e.1 e.2).state)) s (fun e s =>
      settleCore (rejectStep s e.1 e.2 (slotOf s e.1 e.2).ip 0xB1 e.1 0 0) e.1)
    decideReset s 0 (confTarget h) 1 0xB config [] none

/-! ## The meanings -/

/-- R309, R313. -/
def execMessageDeliver (i : Nat) (passage : Passage) (s : State) : Host.Outcome State Fault Refusal :=
  .next (messageDeliver s i passage.crcOk passage.lookup)
/-- R322. -/
def execOrphanNotice (i : Nat) (s : State) : Host.Outcome State Fault Refusal := .next (orphanNotice s i)
/-- R263. -/
def execOpenGrant (i : Nat) (s : State) : Host.Outcome State Fault Refusal := .next (openGrant s i)
/-- R263, R264. -/
def execOpenRequest (i : Nat) (s : State) : Host.Outcome State Fault Refusal := .next (openRequest s i)
/-- R263. -/
def execCreditReturn (i : Nat) (s : State) : Host.Outcome State Fault Refusal := .next (creditReturn s i)
/-- R281. -/
def execStallBeacon (i : Nat) (s : State) : Host.Outcome State Fault Refusal := .next (stallBeacon s i)
/-- R281. -/
def execProgressBeacon (i : Nat) (s : State) : Host.Outcome State Fault Refusal := .next (progressBeacon s i)
/-- R283. -/
def execStallWindowEnd (handle config : Nat) (s : State) : Host.Outcome State Fault Refusal :=
  .next (stallWindowEnd s handle config)
/-- R284. -/
def execExtendCommand (i : Nat) (s : State) : Host.Outcome State Fault Refusal := .next (extendCommand s i)
/-- R743. -/
def execTwinCheckValue (i : Nat) (s : State) : Host.Outcome State Fault Refusal := .next (twinValue s i)
/-- R744, R745. -/
def execTwinTimeout (core slot : Nat) (again primaryFails twinFails : Bool) (s : State) : Host.Outcome State Fault Refusal :=
  .next (twinRerun s core slot again primaryFails twinFails)
/-- R810. -/
def execWatchdogProgressReport (i : Nat) (s : State) : Host.Outcome State Fault Refusal := .next (watchReport s i)
/-- R814. -/
def execWatchdogExpiry (handle config : Nat) (s : State) : Host.Outcome State Fault Refusal :=
  .next (watchExpiry s handle config)
/-- R735. -/
def execSignatureCheck (core slot : Nat) (differs : Bool) (s : State) : Host.Outcome State Fault Refusal :=
  .next (signatureCheck s core slot differs)

end Sys2Proof.Machine
end

