-- ==== Sys2Proof/Machine/Landing.lean ====
section
/-! DEFINITION. Reductions at their destination and back at their contributors (08_mesh.md R444 to R453, 02_arithmetic.md
R104 to R107, 07_memories.md R384 to R387). -/

namespace Sys2Proof.Machine

/-! ## Landing tables, R445 -/

/-- R445: entry i of a slot's landing table. -/
def landEntry (s : State) (c : Nat) (v : Slot) (i : Nat) : Nat := coreNat s c (v.landTab + 32 * i) 32
/-- R445. -/
def leTag (e : Nat) : Nat := bitsOf e 0 16
/-- R445. -/
def leOn (e : Nat) : Bool := bitAt e 16
/-- R445: contributors. -/
def leCount (e : Nat) : Nat := bitsOf e 17 6 + 1
/-- R445. -/
def leAcc (e : Nat) : Nat := bitsOf e 32 23
/-- R445. -/
def leOut (e : Nat) : Nat := bitsOf e 64 23
/-- R445. -/
def leContrib (e : Nat) : Nat := bitsOf e 96 23
/-- R445. -/
def leSemRegion (e : Nat) : Nat := bitsOf e 128 6
/-- R445. -/
def leSemIndex (e : Nat) : Nat := bitsOf e 134 16
/-- R446: reserved fields of an entry. -/
def leReserved (e : Nat) : Bool := bitsOf e 23 9 ≠ 0 || bitsOf e 55 9 ≠ 0 || bitsOf e 87 9 ≠ 0 || bitsOf e 119 9 ≠ 0 || bitsOf e 150 42 ≠ 0

/-- R445: the listed contributors, engine IDs. -/
def leEngines (s : State) (c e : Nat) : List Nat := (List.range (leCount e)).map (fun j => coreNat s c (leContrib e + 2 * j) 2)

/-- R447: where a chunk of an area lies. -/
def chunkAt (e a ch : Nat) : Nat := leAcc e + a * 45824 + 256 * ch

/-- A free area. -/
def Area.fresh : Area := { bound := false, row := 0, col := 0, replay := 0, chunks := [], retried := false }

/-- Area a of entry i. -/
def areaOf (v : Slot) (i a : Nat) : Area := look v.areas (2 * i + a) .fresh
/-- Replace it. -/
def setArea (s : State) (c k i a : Nat) (r : Area) : State := onSlot s c k (fun v => { v with areas := put v.areas (2 * i + a) r })

/-- The slot and entry of a core that serve a reduction tag. -/
def landingOf (s : State) (c tag : Nat) : Option (Nat × Nat) :=
  (((coreOf s c).slots.filter (fun e => e.2.state ≠ .empty && e.2.landOn && e.2.primary.isNone)).map (fun e =>
    ((List.range 8).filter (fun i => leOn (landEntry s c e.2 i) && leTag (landEntry s c e.2 i) = tag)).map
      (fun i => (e.1, i)))).flatten.head?

/-! ## A tile completes, R449 to R452 -/

/-- R453: the destination slot stops with cause 0x71. -/
def landFault (s : State) (c k row col : Nat) : State :=
  settleCore (noteFault (rejectStep s c k 0 0x71 c row col) c k 0x71 5 0) c

/-- Tell every contributor of an entry. -/
def tellContributors (s : State) (c k e : Nat) (body : Nat → Body) : State :=
  each ((leEngines s c e).map (fun g => engineOf (relocated (slotOf s c k) (coreOfEngine g)) (g % 4))) s (fun g s =>
    post s { src := c, srcSlot := k, dst := coreOfEngine g, dstSlot := 0, body := body g })

/-- R452: an arithmetic fault at the destination. -/
def landArith (s : State) (c k i a cause : Nat) (et : Int) : State :=
  let v := slotOf s c k
  let r := areaOf v i a
  let t := tellContributors (setArea s c k i a .fresh) c k (landEntry s c v i) (fun g => .abort g r.row r.col)
  settleCore (reportError (faultSlot (noteFault t c k cause 5 0) c k) c k 1 cause c 0 r.row r.col et 0) c

/-- R451: the area starts again at the next replay. -/
def landReplay (s : State) (c k i a : Nat) : State :=
  let v := slotOf s c k
  let r := areaOf v i a
  let t := setArea s c k i a { r with replay := r.replay + 1, chunks := [] }
  let t := bump (bump t ctrCoreReductionReplays c 1) ctrHubReplays (clusterOf c) 1
  tellContributors t c k (landEntry s c v i) (fun g => .replayRequest g r.row r.col (r.replay + 1))

/-- R449 step 1, R582: the plan word of a reduced tile, with nonfinite of R93 and R102. fmt_a, fmt_b and headroom, which
neither rule lists, are 0 (DESIGN CHOICE, log entry 105). -/
def landPlan (et : Int) (replay : Nat) (preload : Bool) (k : Nat) (ws : List AccWord) : Nat :=
  (et - 8 * replay + 1024).toNat % 1024 + 2 ^ 16 + replay * 2 ^ 17 + 2 ^ 19 + bn preload * 2 ^ 20 + k % 2 ^ 16 * 2 ^ 29 +
  bn (ws.any (fun w => w.tag ≠ .finite)) * 2 ^ 47

/-- R449, R294: the tile is written, its area freed, a post to its semaphore sent and its contributors told. -/
def landAccept (s : State) (c k i a : Nat) (et : Int) (replay kSum : Nat) (preload poison : Bool) (ws : List AccWord) : State :=
  let v := slotOf s c k
  let e := landEntry s c v i
  let r := areaOf v i a
  let payload := wordBytes 8 ws
  let head := mkHeader 2 0 poison false false 64 64 (landPlan et replay preload kSum ws) r.row r.col (crc32c payload) payload.length
  let s := setArea (outsideWrite s c (leOut e + a * 33824) (head ++ payload) []) c k i a .fresh
  let s := hubPost s c k (leSemRegion e) (leSemIndex e)
  let done := v.landTab + 32 * i + 24
  let s := outsideWrite s c done (bytesOf 8 (coreNat s c done 8 + 1)) []
  settleCore (tellContributors (bump s ctrHubTiles (clusterOf c) 1) c k e (fun g => .accept g r.row r.col)) c

/-- R104 to R106, R449: every chunk of an area has its contributions. The record of cause 0x2 carries the effective E_t of
chunk 0's earlier packet, and an area that is both poisoned and overflowed is judged for the overflow first: R117 and R721
poison it, R449 and R451 replay it, and no rule orders the two (DESIGN CHOICES, log entry 112). -/
def landComplete (s : State) (c k i a : Nat) : State :=
  let v := slotOf s c k
  let e := landEntry s c v i
  let r := areaOf v i a
  let ps := (List.range 179).map (fun ch => coreNat s c (chunkAt e a ch) 256)
  let p0 := ps.headD 0
  let et := rpEt p0
  let ws := ((ps.map rpWords).flatten).take 4096
  let bad := ps.any (fun p => sumCheck (rpWords p) ≠ rpCheck p)
  let s := if bad then bump (detect s (elHub (clusterOf c)) 0xE false 0) ctrRegionPoisoned (regionOf c)
      (32 * ps.countP (fun p => sumCheck (rpWords p) ≠ rpCheck p)) else s
  if ps.any (fun p => rpK p ≠ rpK p0) then landFault s c k r.row r.col
  else if ps.any rpMismatch then landArith s c k i a 2 et
  else if 65535 < rpK p0 then landArith s c k i a 3 et
  else if ps.any (fun p => decide (1 < rpPreload p)) then landArith s c k i a 4 et
  else if ps.any rpOvf || ws.any wordOver then
    (if r.replay = 3 then landArith s c k i a 1 et else landReplay s c k i a)
  else
    let poison := bad || corePoison s c (chunkAt e a 0) 45824
    landAccept s c k i a et r.replay (rpK p0) (ps.any (fun p => rpPreload p ≠ 0)) poison ws

/-! ## A packet lands, R448 -/

/-- R444, R443: two payloads of which one disagrees with its sum_check: nothing is combined, but the contributions are
counted, so that the tile completes, poisoned (DEDUCED, log entry 108). -/
def rpKeep (a b : Nat) : Nat :=
  rpMake (rpRow a) (rpCol a) (rpEt a) (rpReplay a) (rpN a + rpN b) (rpPreload a + rpPreload b) (rpOvf a || rpOvf b)
    (rpMismatch a || rpMismatch b) (rpK a + rpK b) (rpWords a)

/-- The payload that a chunk of an area holds after a packet, and its poison; none of it is the sum of words that a failed
sum_check covers. -/
def landChunk (s : State) (c : Nat) (p : Packet) (present : Bool) (at_ : Nat) : Nat × List Bool :=
  let a := coreNat s c at_ 256
  let b := payloadNat p
  if !present then (b, p.poison)
  else if !(sumOk p) || sumCheck (rpWords a) ≠ rpCheck a then (rpKeep a b, List.replicate 32 true)
  else (rpAdd a b, orMask (poisonMask s.mem (corePhys c at_) 256) p.poison)

/-- R448: add a packet into area a. -/
def landInto (s : State) (c k i a : Nat) (p : Packet) (ch : Nat) : State :=
  let v := slotOf s c k
  let e := landEntry s c v i
  let r := areaOf v i a
  let q := payloadNat p
  let present := r.chunks.contains ch
  let at_ := chunkAt e a ch
  let have_ := if present then rpN (coreNat s c at_ 256) else 0
  if rpReplay q < r.replay then bump s ctrHubDropped (clusterOf c) 1
  else if leCount e < have_ + rpN q then landFault s c k (rpRow q) (rpCol q)
  else
    let x := landChunk s c p present at_
    let s := if present && sumCheck (rpWords (coreNat s c at_ 256)) ≠ rpCheck (coreNat s c at_ 256) then
      bump (detect s (elHub (clusterOf c)) 0xE false 0) ctrRegionPoisoned (regionOf c) 32 else s
    let s := bump (outsideWrite s c at_ (bytesOf 256 x.1) x.2) ctrHubLanded (clusterOf c) 1
    let s := setArea s c k i a { r with chunks := addTo r.chunks ch, retried := false }
    let full := (areaOf (slotOf s c k) i a).chunks.length = 179 &&
      (List.range 179).all (fun n => rpN (coreNat s c (chunkAt e a n) 256) = leCount e)
    if full then landComplete s c k i a else s

/-- R448: the area of entry i that takes a payload: the one bound to its tile, or a free one. -/
def landArea (v : Slot) (i q : Nat) : Option Nat :=
  let mine (a : Nat) : Bool := (areaOf v i a).bound && (areaOf v i a).row = rpRow q && (areaOf v i a).col = rpCol q
  match [0, 1].find? mine with
  | some a => some a
  | none => [0, 1].find? (fun a => !(areaOf v i a).bound)

/-- R513, R514: the entry of a landing table that a packet names, or its list of contributors, is poisoned. -/
def landPoisoned (s : State) (c k i : Nat) : Bool :=
  let v := slotOf s c k
  corePoison s c (v.landTab + 32 * i) 32 || corePoison s c (leContrib (landEntry s c v i)) (2 * leCount (landEntry s c v i))

/-- R444, R448, R453: the hub lands a reduction packet at its core. A landing table that is poisoned is consumed: the packet is
dropped and the slot stops (R514). -/
def landPacket (s : State) (c : Nat) (p : Packet) : State :=
  let q := payloadNat p
  let key := p.ext.toNat
  let ch := bitsOf key 16 8
  match landingOf s c (bitsOf key 0 16) with
  | none => bump s ctrHubDropped (clusterOf c) 1
  | some (k, i) =>
    if landPoisoned s c k i then
      settleCore (noteFault (consumePoison (bump s ctrHubDropped (clusterOf c) 1) c k (slotOf s c k).ip 2) c k 0x8F 5 0) c
    else
    let s1 := if sumOk p then s
      else bump (detect s (elHub (clusterOf c)) 0xE false 0) ctrRegionPoisoned (regionOf c) 32
    let p1 := if sumOk p then p else poisonAll p
    match if 178 < ch then none else landArea (slotOf s c k) i q with
    | none => landFault s1 c k (rpRow q) (rpCol q)
    | some a =>
      let r := areaOf (slotOf s c k) i a
      let s2 := if r.bound then s1
        else setArea s1 c k i a { r with bound := true, row := rpRow q, col := rpCol q, replay := rpReplay q, chunks := [] }
      landInto s2 c k i a p1 ch

/-- R736: the two address generators of the landing area that a packet would take differ: the fault is recorded, nothing
is written, and the packet lands with the next row; a second difference is hard. None where no area would take it, or
below standard. -/
def landUpset (s : State) (c : Nat) (p : Packet) : Option State :=
  if !(checked s c) then none
  else (landingOf s c (bitsOf p.ext.toNat 0 16)).bind (fun e =>
    (landArea (slotOf s c e.1) e.2 (payloadNat p)).map (fun a =>
      let r := areaOf (slotOf s c e.1) e.2 a
      setArea (detectAt s (elHub (clusterOf c)) 0xA 5 (clusterOf c) r.retried) c e.1 e.2 a { r with retried := true }))

/-! ## At a contributor, R384, R387, R452 -/

/-- The engine named and its twin's. -/
def engineTwins (s : State) (g : Nat) : List Nat :=
  g :: ((twinCore s (coreOfEngine g)).map (fun t => engineOf t (g % 4))).toList

/-- The partial of a tile that an engine has sent and that is not accepted yet. -/
def sentIn (e : Engine) (row col : Nat) : Option OpenAcc :=
  e.sent.find? (fun a => sdRow a.first.desc = row && sdCol a.first.desc = col)

/-- A partial leaves those that its engine has sent, with any replay asked of it. -/
def withoutSent (e : Engine) (a : OpenAcc) (row col : Nat) : Engine :=
  { e with sent := e.sent.eraseP (· = a), replays := e.replays.filter (fun k => k % 2 ^ 44 ≠ row * 2 ^ 20 + col) }

/-- An engine with a replay asked of it. -/
def withReplay (e : Engine) (row col replay : Nat) : Engine :=
  { e with replays := e.replays ++ [replay * 2 ^ 44 + row * 2 ^ 20 + col] }

/-- The saved-out group whose image holds the partial that engine g has sent, as slice, place and group (DEDUCED, log entry
108: R107 retains a contributor's operands until acceptance, also while it is saved out). -/
def savedSent (s : State) (g row col : Nat) : Option (Nat × Nat × Group) :=
  (sliceOfCore s (coreOfEngine g)).bind (fun h =>
    ((groupsOf s h).zipIdx.find? (fun e => !e.1.resident && (sentIn (look e.1.engs g .fresh) row col).isSome)).map (fun e => (h, e.2, e.1)))

/-- Marks of an accumulation released in a slot. -/
def unmarked (v : Slot) (a : OpenAcc) : Slot :=
  { v with strms := (accStreams a).foldl (fun t n =>
      let m := look t n .fresh
      put t n { m with marks := cut m.marks a.tile }) v.strms }

/-- R384, R452: the marks of a sent partial are released. -/
def releaseSent (s : State) (g row col : Nat) : State :=
  match sentIn (engOf s g) row col with
  | some a => settleCore (releaseMarks (setEng s g (withoutSent (engOf s g) a row col)) a) a.first.core
  | none => match savedSent s g row col with
    | none => s
    | some (h, i, group) =>
      let e := look group.engs g .fresh
      match sentIn e row col with
      | none => s
      | some a => setGroup s h i { group with
          engs := put group.engs g (withoutSent e a row col)
          saved := group.saved.map (fun c => (c.1, if c.1 = a.first.core then
            { c.2 with slots := c.2.slots.map (fun v => (v.1, if v.1 = a.first.slot then unmarked v.2 a else v.2)) } else c.2)) }

/-- R387: a request for a replay is noted, and taken at once by an idle engine. -/
def noteReplay (s : State) (g row col replay : Nat) : State :=
  if (sentIn (engOf s g) row col).isSome then takeReplay (setEng s g (withReplay (engOf s g) row col replay)) g
  else match savedSent s g row col with
    | none => s
    | some (h, i, group) =>
      setGroup s h i { group with engs := put group.engs g (withReplay (look group.engs g .fresh) row col replay) }

/-! ## The meanings -/

/-- R384: a reduction accept. -/
def execReductionAccept (i : Nat) (s : State) : Host.Outcome State Fault Refusal :=
  .next (onMsg s i (fun m t => match m.body with
    | .accept g row col => some (each (engineTwins t g) t (fun g t => releaseSent t g row col))
    | _ => none))

/-- R387: a reduction replay request. -/
def execReductionReplayRequest (i : Nat) (s : State) : Host.Outcome State Fault Refusal :=
  .next (onMsg s i (fun m t => match m.body with
    | .replayRequest g row col n => some (each (engineTwins t g) t (fun g t => noteReplay t g row col n))
    | _ => none))

/-- R452: a reduction abort. -/
def execReductionAbort (i : Nat) (s : State) : Host.Outcome State Fault Refusal :=
  .next (onMsg s i (fun m t => match m.body with
    | .abort g row col => some (each (engineTwins t g) t (fun g t => releaseSent t g row col))
    | _ => none))

/-- R448: the oldest reduction packet at a core's router lands. -/
def execReductionPacketLand (turn : Turn) (s : State) : Host.Outcome State Fault Refusal :=
  let ep := turn.place
  .next (match (arrivals s ep).find? (fun p => decide (p.kind = 4)) with
    | none => s
    | some p => match if turn.upset ≠ .none then landUpset s ep p else none with
      | some t => t
      | none => landPacket (setArrivals s ep ((arrivals s ep).eraseP (fun p => decide (p.kind = 4)))) ep p)

end Sys2Proof.Machine
end

