-- ==== Sys2Proof/Machine/Endpoints.lean ====
section
/-! DEFINITION. Packets: routers and links, what each endpoint does with what reaches it, the stack caches, and the
rebuild of route tables (08_mesh.md, 07_memories.md R399 to R403). -/

namespace Sys2Proof.Machine

/-! ## Answers -/

/-- R421: a read response. -/
def respondRead (s : State) (p : Packet) (data : List Byte) (mask : List Bool) : State :=
  launch s { mkPacket p.dest p.src 1 2 p.unit with
    rtag := p.rtag, payload := data, poison := mask, count := data.length, answers := answerOf p }

/-- R421: a write ack. -/
def respondWrite (s : State) (p : Packet) : State :=
  launch s { mkPacket p.dest p.src 1 3 p.unit with
    rtag := p.rtag, answers := answerOf p, count := 8, payload := bytesOf 8 p.ext.toNat }

/-- R421: an order ack. -/
def respondOrder (s : State) (p : Packet) : State :=
  if answerOf p = 0 then s else launch s { mkPacket p.dest p.src 1 7 p.unit with answers := answerOf p }

/-- R421, R518: a read is answered with what it finds. A word of a page table that cannot be read answers no one: the module
compute reset that it leads to ends the request (R516). -/
def answerRead (p : Packet) (s : State) : State :=
  if tableBroken s p.phys p.count then escalate s 0 p.phys
  else respondRead s p (readPhys s p.phys p.count) (poisonMask s.mem p.phys p.count)

/-! ## The stack cache, R399 to R403 -/

/-- R338: 64 MiB of 512-byte lines in 16 ways: the set of a line. -/
def cacheSet (line : Nat) : Nat := line % 8192

/-- R400: install a line; the lowest-numbered of a full set makes room (log entry 17). -/
def installLine (lines : List Nat) (line : Nat) : List Nat :=
  let mine := lines.filter (fun l => cacheSet l = cacheSet line)
  let lines := if 16 ≤ mine.length && !(lines.contains line) then dropFrom lines (mine.headD 0) else lines
  addTo lines line

/-- The enabled regions. -/
def regionList (s : State) : List Nat := List.range (regionCount s.fuses.ordering)

/-- R401: the hub of a region whose share of the directory holds a line's set. -/
def homeHub (r line : Nat) : Nat := r * 8 + cacheSet line % 8

/-- R401: the stack cache of a region holds a line. -/
def cacheHolds (s : State) (r line : Nat) : Bool := (hubOf s (homeHub r line)).dir.contains line

/-- R400: the line enters the directory of a region's stack cache. -/
def cacheInstall (s : State) (r line : Nat) : State :=
  let b := hubOf s (homeHub r line)
  setHub s (homeHub r line) { b with dir := installLine b.dir line }

/-- R409: the lines of a region's stack cache that satisfy p are invalidated, and counted. -/
def dropLines (s : State) (r : Nat) (p : Nat → Bool) : State :=
  each (List.range 8) s (fun k s =>
    let b := hubOf s (r * 8 + k)
    let n := b.dir.countP p
    if n = 0 then s else bump (setHub s (r * 8 + k) { b with dir := b.dir.filter (fun l => !(p l)) }) ctrCacheInvalidated r n)

/-- R399, R400: a physical line lies in a page that a leaf maps as shared. -/
def lineIn (l : Leaf) (line : Nat) : Bool :=
  ptShared l.entry.toNat && !(ptTier l.entry.toNat) &&
  decide (leafPhys l 0 ≤ line * 512) && decide (line * 512 < leafPhys l 0 + pageBytes l.size)

/-- R400: a stack-cache line that some shared leaf maps. -/
def lineShared (s : State) (line : Nat) : Bool := (s.xlat.leaves ++ s.xlat.overrides).any (fun l => lineIn l line)

/-- R405: no stack cache of the module keeps a line of the pages that some leaves mapped as shared. -/
def dropPages (s : State) (gone : List Leaf) : State :=
  if gone.any (fun l => ptShared l.entry.toNat) then
    each (regionList s) s (fun r s => dropLines s r (fun n => gone.any (fun l => lineIn l n)))
  else s

/-- R405: a fill of a line of such pages is under way. -/
def fillsIn (s : State) (gone : List Leaf) : Bool :=
  s.regions.any (fun e => e.2.fills.any (fun f => gone.any (fun l => lineIn l f.line)))

/-- R402: a read through the stack cache of a region: a hit is answered, a miss joins or begins a fill. -/
def cacheRead (s : State) (r : Nat) (p : Packet) : State :=
  let g := regOf s r
  let line := p.phys / 512
  if cacheHolds s r line then
    answerRead p (bump s ctrCacheHits r 1)
  else if g.fills.any (fun f => f.line = line) then
    let fills := onFirst (fun f => decide (f.line = line)) (fun f => { f with waiting := f.waiting ++ [p] }) g.fills
    setReg (bump s ctrCacheMerged r 1) r { g with fills := fills }
  else setReg (bump s ctrCacheMisses r 1) r { g with fills := g.fills ++ [{ line := line, waiting := [p] }] }

/-- R400, R402, R403, R510: a fill returns; the misses it serves are answered. It is installed unless it is uncorrectable or
its page is no longer marked shared. -/
def fillReturns (s : State) (r line : Nat) (bad : Bool) : State :=
  let g := regOf s r
  match g.fills.find? (fun f => f.line = line) with
  | none => s
  | some f =>
    let s := if bad then wordsLost s (line * 512) 512 else s
    let s := setReg s r { regOf s r with fills := g.fills.eraseP (fun f => f.line = line) }
    let s := if bad || !(lineShared s line) then s else cacheInstall s r line
    each f.waiting s answerRead

/-! ## Effects at an endpoint, R430 -/

/-- R430, R621: a request to a tier port's devices takes effect, and waits for its device; one that the port cannot take halts
its unit (R620). -/
def toTier (s : State) (port : Nat) (p : Packet) : State :=
  if !tierHolds s port (p.phys % 2 ^ 42) then launch s (dropResponse p)
  else
    let t := tierOf s port
    let now := look s.clocks.die (dieOfTier port) 0
    let s := if p.kind = 1 then { s with mem := writePoison s.mem p.phys p.payload p.poison } else s
    emit (setTier s port { t with
      nextReq := t.nextReq + 1
      reqs := t.reqs ++ [{ id := t.nextReq, since := now, again := false, packet := p
                           data := if p.kind = 1 then [] else readPhys s p.phys p.count
                           poison := if p.kind = 1 then [] else poisonMask s.mem p.phys p.count }] }) (.tierReq port t.nextReq)

/-- R421: a read takes effect. -/
def applyRead (s : State) (p : Packet) : State :=
  match epKind p.dest, placeOf p.phys with
  | 3, .tier port _ => toTier s port p
  | _, _ =>
    if p.cached then cacheRead s (epRegion p.dest) p else answerRead p s

/-- R421: a write takes effect. -/
def applyWrite (s : State) (p : Packet) : State :=
  match epKind p.dest, placeOf p.phys with
  | 3, .tier port _ => toTier s port p
  | _, _ => respondWrite (physWrite s p.phys p.payload p.poison) p

/-- R259 fields of a token header. -/
def tkLane (h : Reg) : Nat := bitsOf h.toNat 10 4
/-- R259. -/
def tkSlot (h : Reg) : Nat := bitsOf h.toNat 14 2
/-- R259. -/
def tkGen (h : Reg) : Nat := bitsOf h.toNat 16 4
/-- R259. -/
def tkSrcCore (h : Reg) : Nat := bitsOf h.toNat 28 12
/-- R259. -/
def tkSrcSlot (h : Reg) : Nat := bitsOf h.toNat 40 2
/-- R259. -/
def tkSrcPort (h : Reg) : Nat := bitsOf h.toNat 42 4

/-- R261, R264: a token takes effect: its place in its lane, or its drop. -/
def applyToken (s : State) (p : Packet) : State :=
  let c := p.dest
  let h := p.ext
  let k := tkSlot h
  let n := tkLane h
  let v := slotOf s c k
  let s :=
    if isProducer v n (tkSrcCore h) (tkSrcSlot h) (tkSrcPort h) && (laneOf v n).gen = tkGen h then
      settleCore (arriveToken s c k n { header := h, data := p.payload, poison := p.poison }) c
    else orphanLane s c k n (tkSrcCore h) (tkSrcSlot h) p.rtag (tkSrcPort h) (tkGen h) false
  respondOrder s p

/-- R430: the effect of a request at its destination. -/
def applyPacket (s : State) (p : Packet) : State :=
  match p.kind with
  | 0 => applyRead s p
  | 1 => applyWrite s p
  | 5 => applyToken s p
  | _ => s

/-- Take the first packet at an endpoint that satisfies p. -/
def takeArrived (s : State) (ep : Nat) (p : Packet → Bool) : Option (Packet × State) :=
  match (arrivals s ep).find? p with
  | none => none
  | some q => some (q, setArrivals s ep ((arrivals s ep).eraseP p))

/-- R432: a packet that flagged ones wait for has arrived. -/
def countArrival (s : State) (p : Packet) : State :=
  let d := pairDst s p.src p.dest
  setPairDst s p.src p.dest (if p.fepoch then { d with got1 := d.got1 + 1 } else { d with got0 := d.got0 + 1 })

/-- A request on VC0 or VC3 takes effect. -/
def plainArrival (s : State) (ep kind : Nat) : State :=
  match takeArrived s ep (fun p => p.kind = kind && !p.flagged && p.vc ≠ 5) with
  | none => s
  | some (p, t) => countArrival (applyPacket t p) p

/-- R510: the read request that takes effect next finds words of its memory uncorrectable: a word of an on-chip memory, or a
codeword of HBM. A line of a stack cache and a tier-2 line have rows of their own. -/
def meetErrors (s : State) (ep : Nat) (bad : List Nat) : State :=
  match (arrivals s ep).find? (fun p => p.kind = 0 && !p.flagged && p.vc ≠ 5) with
  | none => s
  | some p =>
    if p.cached || 2 ^ 53 ≤ p.phys then s
    else each (bad.filter (fun o => decide (o < p.count))) s (fun o s =>
      let a := p.phys + o
      match placeOf a with
      | .tier _ _ => s
      | .hbm _ _ => wordsLost s (a / codewordBytes * codewordBytes) codewordBytes
      | _ => wordsLost s (a / 8 * 8) 8)

/-- R432: a flagged packet takes effect, and its count starts again. -/
def applyFlagged (s : State) (p : Packet) : State :=
  let d := pairDst s p.src p.dest
  applyPacket (setPairDst s p.src p.dest (if p.fepoch then { d with got1 := 0 } else { d with got0 := 0 })) p

/-- Replace them. -/
def setHeld (s : State) (ep : Nat) (l : List Packet) : State := { s with mesh := { s.mesh with held := put s.mesh.held ep l } }

/-- R432, R434: a flagged packet reaches its destination. -/
def flaggedArrival (s : State) (ep : Nat) : State :=
  match takeArrived s ep (fun p => p.flagged) with
  | none => s
  | some (p, t) =>
    if flaggedMet t p then applyFlagged t p
    else if (heldAt t ep).length < 4 then bump (setHeld t ep (heldAt t ep ++ [p])) ctrEpHeld ep 1
    else s

/-- R432: a held packet whose count is met takes effect. -/
def flaggedRelease (s : State) (ep : Nat) : State :=
  match (heldAt s ep).find? (flaggedMet s) with
  | none => s
  | some p => applyFlagged (setHeld s ep ((heldAt s ep).erase p)) p

/-- Packets an endpoint holds under R435. -/
def reorderAt (s : State) (ep : Nat) : List Packet := look s.mesh.reorder ep []
/-- Replace them. -/
def setReorder (s : State) (ep : Nat) (l : List Packet) : State :=
  { s with mesh := { s.mesh with reorder := put s.mesh.reorder ep l } }

/-- R435: a VC5 packet in order takes effect, and those that waited for it. Fuel is the reorder buffer. -/
def applyVc5 : Nat → State → Packet → State
  | 0, s, p =>
    let d := pairDst s p.src p.dest
    applyPacket (setPairDst s p.src p.dest { d with pseq := (d.pseq + 1) % 256 }) p
  | f + 1, s, p =>
    let d := pairDst s p.src p.dest
    let t := applyPacket (setPairDst s p.src p.dest { d with pseq := (d.pseq + 1) % 256 }) p
    match (reorderAt t p.dest).find? (fun q => q.src = p.src && q.pseq = (d.pseq + 1) % 256) with
    | none => t
    | some q => applyVc5 f (setReorder t p.dest ((reorderAt t p.dest).erase q)) q

/-- R435: a VC5 packet reaches its destination. -/
def vc5Arrival (s : State) (ep : Nat) : State :=
  match takeArrived s ep (fun p => p.vc = 5) with
  | none => s
  | some (p, t) =>
    if p.pseq = (pairDst t p.src p.dest).pseq then applyVc5 16 t p
    else if (reorderAt t ep).length < 16 then bump (setReorder t ep (reorderAt t ep ++ [p])) ctrEpReordered ep 1
    else s

/-! ## Answers at their source -/

/-- Change the segments of a unit. -/
def onSegs (s : State) (unit : Unit) (f : Seg → Seg) : State :=
  match unit with
  | .coreCopy _ => setJobs s unit ((jobsOf s unit).map (fun j => { j with segs := j.segs.map f }))
  | .hubCopy _ => setJobs s unit ((jobsOf s unit).map (fun j => { j with segs := j.segs.map f }))
  | .stream c k n =>
    let t := strmOf (slotOf s c k) n
    setStrm s c k n { t with staged := t.staged.map (fun ch => { ch with segs := ch.segs.map f }) }
  | .merge h =>
    setHub s h { hubOf s h with merges := (hubOf s h).merges.map (fun j => { j with segs := j.segs.map f }) }
  | _ => s

/-- A read has come back: its segment holds the bytes. -/
def readBack (tag : Nat) (data : List Byte) (mask : List Bool) (g : Seg) : Seg :=
  if g.stage = 1 && g.tag = tag then { g with stage := 2, data := data, poison := mask } else g

/-- A write has been acknowledged. -/
def writeBack (tag : Nat) (g : Seg) : Seg := if g.stage = 3 && g.tag = tag then { g with stage := 4 } else g

/-- A request has been turned away: its segment is as before it, and its address is translated again. -/
def turnBack (tag : Nat) (g : Seg) : Seg :=
  if g.tag = tag && g.stage = 1 then
    { g with stage := 0, src := match g.src with
      | .here a _ _ => .glob a
      | l => l }
  else if g.tag = tag && g.stage = 3 then { g with stage := 2 } else g

/-- A segment waits for an answer with this tag. -/
def waitsFor (tag : Nat) (g : Seg) : Bool := g.tag = tag && (g.stage = 1 || g.stage = 3)

/-- R464, R620: the unit whose request was turned away halts at that record; a stream writes elems_done (R396). -/
def haltUnit (s : State) (unit : Unit) (tag : Nat) (h : Halt) : State :=
  match unit with
  | .coreCopy _ => setJobs s unit ((jobsOf s unit).map (fun j =>
      if j.segs.any (waitsFor tag) then { j with halt := some h, segs := j.segs.map (turnBack tag) } else j))
  | .hubCopy _ => setJobs s unit ((jobsOf s unit).map (fun j =>
      if j.segs.any (waitsFor tag) then { j with halt := some h, segs := j.segs.map (turnBack tag) } else j))
  | .stream c k n =>
    let t := strmOf (slotOf s c k) n
    if t.staged.any (fun ch => ch.segs.any (waitsFor tag)) then
      writeElems (setStrm s c k n { t with
        halt := some h, staged := t.staged.map (fun ch => { ch with segs := ch.segs.map (turnBack tag) }) }) c k n
    else s
  | .merge b =>
    setHub s b { hubOf s b with merges := (hubOf s b).merges.map (fun j =>
      if j.segs.any (waitsFor tag) then { j with halt := some h, segs := j.segs.map (turnBack tag) } else j) }
  | _ => s

/-- R421: a read response reaches the unit that asked. -/
def readArrives (s : State) (ep : Nat) : State :=
  match takeArrived s ep (fun p => p.kind = 2) with
  | none => s
  | some (p, t) =>
    pumpUnit (onSegs (freeAnswered t ep p.src p.answers) p.unit (readBack p.rtag p.payload p.poison)) p.unit

/-- R429: a write ack reaches the unit that wrote. -/
def ackArrives (s : State) (ep : Nat) : State :=
  match takeArrived s ep (fun p => p.kind = 3) with
  | none => s
  | some (p, t) => pumpUnit (onSegs (freeAnswered t ep p.src p.answers) p.unit (writeBack p.rtag)) p.unit

/-- R464: a drop response reaches its source. -/
def dropArrives (s : State) (ep : Nat) : State :=
  match takeArrived s ep (fun p => p.kind = 6) with
  | none => s
  | some (p, t) => haltUnit (freeAnswered t ep p.src p.answers) p.unit p.rtag .fence

/-- R421: an order ack reaches its source. -/
def orderArrives (s : State) (ep : Nat) : State :=
  match takeArrived s ep (fun p => p.kind = 7) with
  | none => s
  | some (p, t) => freeAnswered t ep p.src p.answers

/-! ## Links, R413 to R417 -/

/-- A link without retries. -/
def LinkState.fresh : LinkState := { since := 0, retries := 0, planted := 0 }
/-- A link's retries. -/
def linkState (s : State) (id : Nat) : LinkState := look s.mesh.links id .fresh
/-- Replace them. -/
def setLink (s : State) (id : Nat) (v : LinkState) : State := { s with mesh := { s.mesh with links := put s.mesh.links id v } }

/-- R669, R671: a link as an element: full 3, seam 4. -/
def elLink (a b id : Nat) : Element := { kind := if isSeam a b then 4 else 3, id := id }

/-- R415: a packet of link `id` has failed its CRC for the `tries`-th time: a retry, and a fence after 8 attempts or 256
retries in 500 µs. -/
def linkRetry (s : State) (a b id tries : Nat) : State :=
  let l := linkState s id
  let now := regionNow s (regionOf (id % 4096))
  let fresh := l.retries = 0 || windowOver now l.since (500 * ticksPerUs)
  let n := if fresh then 1 else l.retries + 1
  let l := { since := if fresh then now else l.since, retries := n, planted := l.planted - 1 }
  let s := bump (setLink s id l) ctrLinkRetries id 1
  let s := if 8 ≤ tries || 256 ≤ n then bump (detectAt s (elLink a b id) 0xD 0xA id true) ctrLinkFenced id 1
    else if fresh then detectAt s (elLink a b id) 0xD 0xA id false
    else s
  if l.planted = 0 then injectionSeen s 0xA id else s

/-- R413: the failed attempts of the packet that an input port receives. -/
def setTries (s : State) (router port n : Nat) : State :=
  { s with mesh := { s.mesh with tries := put s.mesh.tries (router * 8 + port) n } }

/-- R413, R415: the link by which a packet reaches an input port, and the local port of the router, or of the edge I/O die, that
sends it again. A port of the core, of a hub or of a memory-side die has none (R51). -/
def inLink (router port : Nat) : Option (Nat × Nat × Nat) :=
  if port < 4 then (neighbour router port).map (fun m => (linkOf router port, m, 4))
  else if port = 7 then some (edgeLink router, router, 7) else none

/-- R413, R416: a packet of an input port fails its CRC there and is sent again; after the last attempt, or once its link is to be
fenced, it stays with the router or die that sent it. A port without a link has nothing to fence (log entry 109). -/
def packetRetry (s : State) (router port : Nat) (p : Packet) : State :=
  let n := look s.mesh.tries (router * 8 + port) 0 + 1
  let s := setTries s router port (if 8 ≤ n then 0 else n)
  match inLink router port with
  | some (id, m, back) =>
    let t := linkRetry s router m id n
    if 8 ≤ n || 256 ≤ (linkState t id).retries || linkOut t id then
      let l := look t.mesh.entering (m * 8 + back) []
      let t := setTries (setWire t router port ((wire t router port).filter (fun q => q.seen ≠ p.seen))) router port 0
      enterPort { t with mesh := { t.mesh with entering := put t.mesh.entering (m * 8 + back) (p :: l) } } m back
    else t
  | none => s

/-! ## Forwarding -/

/-- The first packet of each channel in a buffer, oldest first. -/
def channelHeads : List Nat → List Packet → List Packet
  | _, [] => []
  | seen, p :: rest => if seen.contains p.vc then channelHeads seen rest else p :: channelHeads (p.vc :: seen) rest

/-- R425, R434: a packet may be sent now, as far as its output port and what lies beyond it go. -/
def maySend (s : State) (router code : Nat) (p : Packet) : Bool :=
  if code < 4 then
    match neighbour router code with
    | none => true
    | some n => !(linkOut s (linkOf router code)) && (!(routerUp s n) || vcRoom s router n (portFacing code) p.vc)
  else !(code = 7 && linkOut s (edgeLink router)) && !(code < 8 && stallsAt s p)

/-- R427: how far a channel stands behind the one that an output port sent last. -/
def vcTurn (s : State) (router code vc : Nat) : Nat := (vc + 5 - look s.mesh.turn (router * 8 + code) 5) % 6

/-- R427: a packet is the one its output port sends next: the first to arrive of its channel, and its channel's turn among
those that can send. -/
def itsTurn (s : State) (router code : Nat) (p : Packet) : Bool :=
  let rivals := ((List.range 8).flatMap (fun port => channelHeads [] (wire s router port))).filter (fun q =>
    verified s q && codeOf s router q = code)
  let first (q : Packet) : Bool := rivals.all (fun o => o.vc ≠ q.vc || decide (q.seen ≤ o.seen))
  maySend s router code p && first p &&
  rivals.all (fun q => !(maySend s router code q && first q) || decide (vcTurn s router code p.vc ≤ vcTurn s router code q.vc))

/-- Change the packets of an input port. -/
def onWire (s : State) (router port : Nat) (f : List Packet → List Packet) : State :=
  setWire s router port (f (wire s router port))

/-- R443, R510: a router has found a packet whose sum_check disagrees with its words. -/
def noteMismatch (s : State) (router : Nat) : State := 
  bump (bump (detect s (elCore router) 0xE false 0) ctrRouterMismatch router 1) ctrRegionPoisoned (regionOf router) 32

/-- Every copy of packet p in an input port gives way to q. -/
def replaceIn (s : State) (router port : Nat) (p q : Packet) : State :=
  onWire s router port (fun l => l.map (fun x => if x.seen = p.seen then q else x))

/-- R443: a reduction packet found bad is marked and reported. -/
def markBad (s : State) (router port : Nat) (p : Packet) : State := replaceIn (noteMismatch s router) router port p (poisonAll p)

/-- A packet leaves an input port; one that waits at a local port may take its place. -/
def takeOff (s : State) (router port : Nat) (p : Packet) : State :=
  let t := onWire s router port (fun l => l.filter (fun q => q.seen ≠ p.seen))
  enterPort { t with mesh := { t.mesh with passed := t.mesh.passed.filter (· ≠ p.seen) } } router port

/-- R441 to R443: a reduction packet with a partner beside it: both are checked, those that fail are marked, and two good ones
become one in the place of the earlier. None without a partner. -/
def combineOnce (s : State) (router port : Nat) (p : Packet) : Option (State × Nat × Packet) :=
  (if p.kind = 4 && !p.noted then partnerOf s router p else none).map (fun b =>
    let s := if sumOk b.2 then s else markBad s router b.1 b.2
    if !sumOk p then (markBad s router port p, port, poisonAll p)
    else if !sumOk b.2 then (s, port, p)
    else
      let s := bump s ctrRouterCombined router 1
      if b.2.seen < p.seen then (replaceIn (takeOff s router port p) router b.1 b.2 (combined b.2 p), b.1, combined b.2 p)
      else (replaceIn (takeOff s router b.1 b.2) router port p (combined p b.2), port, combined p b.2))

/-- R441: a reduction packet combines with every partner present, one after the other. Fuel is the most that one can take. -/
def combineAll (router : Nat) : Nat → State → Nat → Packet → State × Nat × Packet
  | 0, s, port, p => (s, port, p)
  | n + 1, s, port, p => match combineOnce s router port p with
    | none => (s, port, p)
    | some r => combineAll router n r.1 r.2.1 r.2.2

/-- Where a packet goes from a router: it moves on, is handed over or discarded. One that must wait combines with those that wait
beside it (R441); none when nothing changes. -/
def movePacket (s : State) (router port : Nat) (p : Packet) : Option State :=
  let code := codeOf s router p
  if 8 ≤ code then some (discardPacket (takeOff s router port p) router p)
  else if stallsAt s p && 4 ≤ code && !p.noted then
    -- R434: the stall is counted once
    some (replaceIn { s with mesh := { s.mesh with stalls := put s.mesh.stalls p.dest (look s.mesh.stalls p.dest 0 + 1) } } router port
      p { p with noted := true })
  else if !(itsTurn s router code p) then (combineOnce s router port p).map (fun _ => (combineAll router 64 s port p).1)
  else
    let r := combineAll router 64 s port p
    let t := takeOff r.1 router r.2.1 r.2.2
    let t := { t with mesh := { t.mesh with turn := put t.mesh.turn (router * 8 + code) p.vc } }
    if 4 ≤ code then some (handOver t r.2.2)
    else match neighbour router code with
      | none => some (discardPacket t router r.2.2)
      | some n =>
        if !routerUp s n then some (discardPacket t router r.2.2)
        else some (bump (arriveAt t n (portFacing code) r.2.2) ctrLinkPackets (linkOf router code) 1)

/-- Move the first of the packets that can move. -/
def moveFirst (s : State) (router port : Nat) : List Packet → State
  | [] => s
  | p :: rest => match movePacket s router port p with
    | some t => t
    | none => moveFirst s router port rest

/-- R412, R413: a packet of an input port has come through unaltered: it has been verified here before, or there was no error on
its way, none planted on its link (R804), and its check word agrees with its contents. -/
def arrivedWhole (s : State) (router port : Nat) (crcOk : Bool) (p : Packet) : Bool :=
  verified s p || (crcOk && (inLink router port).all (fun l => (linkState s l.1).planted = 0) && p.check = checkWord p)

/-- R425: a router sends what it has verified of an input port, as far as it can. -/
def forwardPort (s : State) (router port : Nat) : State :=
  moveFirst s router port ((channelHeads [] (wire s router port)).filter (verified s))

/-- R413, R425, R516, R517: a router looks at one of its input ports: it verifies the packet that it has not verified yet, the
first of them, and forwards. After an error in a cached route the table, which the model holds, is consulted. -/
def routerStep (s : State) (router port : Nat) (crcOk : Bool) (lookup : Lookup) : State :=
  match if routerUp s router then wire s router port else [] with
  | [] => s
  | l =>
    if lookup = .tableError then escalate s 1 router
    else match l.find? (fun p => !(verified s p)) with
      | none => forwardPort s router port
      | some p =>
        if arrivedWhole s router port crcOk p then
          let t := setTries s router port 0
          forwardPort { t with mesh := { t.mesh with passed := p.seen :: t.mesh.passed } } router port
        else packetRetry s router port p

/-! ## Route tables, R455 to R464 -/

/-- R459: every endpoint that sends packets. -/
def injectors (s : State) : List Nat :=
  ((List.range 3840).map epCore ++ (List.range 384).map epHub ++
   ((List.range 48).map (fun r => (List.range 24).map (epMem r))).flatten ++
   ((List.range 4).map (fun d => (List.range (if d < 2 then 16 else 12)).map (epEdge d))).flatten).filter (epServes s)

/-- R428: a hop to a router of lower rank: east or south (log entry 14). -/
def hopFalls (code : Nat) : Bool := code = 1 || code = 2
/-- R428: a hop to a router of higher rank: north or west. -/
def hopRises (code : Nat) : Bool := code = 0 || code = 3

/-- R428: by the routes `hop` to a destination, a packet does not rise from a router after it has fallen to it. -/
def neverRises (hop : Nat → Nat) (router : Nat) : Bool :=
  (!(hopRises (hop router)) ||
    [0, 3].all (fun d => match neighbour router d with
      | some m => !(hopFalls (hop m) && neighbour m (hop m) = some router)
      | none => true)) &&
  (!(hopFalls (hop router)) || match neighbour router (hop router) with
    | some n => !(hopRises (hop n))
    | none => true)

/-- R417, R669: the hops over a link, by its position: both ways between two routers, or from one to an edge I/O die. -/
def hopsOver (l : Nat) : List (Nat × Nat) :=
  let r := l % 4096
  match if linkListed l then neighbour r (1 + l / 4096) else none with
  | some n => [(r, 1 + l / 4096), (n, portFacing (1 + l / 4096))]
  | none => [(r, 7)]

/-- R768, R792: the hops that no rebuilt route takes: over a link out of service, or into a dark region. -/
def closedHops (s : State) : List (Nat × Nat) :=
  (s.caps.linksOut ++ s.caps.seamsOut).flatMap hopsOver ++
  (((keys s.caps.shed).filter (fun r => shedOf s r = .dark)).flatMap regionCores).flatMap (fun c =>
    (List.range 4).flatMap (fun d => ((neighbour c d).toList.filter (routerUp s)).map (fun n => (n, portFacing d))))

/-- R428: the routes of a copy of both networks' tables obey the up/down rule where they differ from the default ones. -/
def obeysRule (s : State) (tbl : Bool) : Bool :=
  (if tbl then s.mesh.copy1 else s.mesh.copy0).all (fun e => neverRises (fun r => tableRoute s tbl r (e.1 % 2 ^ 14)) (e.1 / 2 ^ 14)) &&
  (if tbl then s.mesh.narrow1 else s.mesh.narrow0).all (fun e =>
    epKind (e.1 / 2 ^ 14) ≠ 0 || neverRises (fun r => narrowTable s tbl r (e.1 % 2 ^ 14)) (e.1 / 2 ^ 14))

/-- R428, R768: the routes of the shadow copies obey the up/down rule, and none takes a closed hop. -/
def shadowGood (s : State) : Bool :=
  let tbl := !s.mesh.active
  obeysRule s tbl &&
  (closedHops s).all (fun h => (injectors s).all (fun d => tableRoute s tbl h.1 d ≠ h.2 && narrowTable s tbl h.1 d ≠ h.2))

/-- R768, R886: the entries of the copy in force that take a closed hop read 15, in both networks. -/
def closeRoutes (s : State) : State :=
  let m := s.mesh
  let tbl := m.active
  let shut (route : Nat → Nat → Nat) (t : Tab Nat) : Tab Nat :=
    each (closedHops s) t (fun h t => each ((injectors s).filter (fun d => route h.1 d = h.2)) t (fun d t => put t (h.1 * 2 ^ 14 + d) 15))
  { s with mesh :=
    if tbl then { m with copy1 := shut (tableRoute s tbl) m.copy1, narrow1 := shut (narrowTable s tbl) m.narrow1 }
    else { m with copy0 := shut (tableRoute s tbl) m.copy0, narrow0 := shut (narrowTable s tbl) m.narrow0 } }

/-- R455: an entry code a table may hold. -/
def routeCode (code : Nat) : Bool := code < 8 || code = 15

/-- Write entries of the shadow copies of the wafer mesh and of the narrow network. -/
def writeShadow (s : State) (writes narrow : List (Nat × Nat × Nat)) : State :=
  let add (l : List (Nat × Nat × Nat)) (t : Tab Nat) : Tab Nat :=
    l.foldl (fun t w => if routeCode w.2.2 then put t (w.1 * 2 ^ 14 + w.2.1) w.2.2 else t) t
  let m := s.mesh
  { s with mesh := if m.active then { m with copy0 := add writes m.copy0, narrow0 := add narrow m.narrow0 }
                   else { m with copy1 := add writes m.copy1, narrow1 := add narrow m.narrow1 } }

/-- R886, R428: the route tables of a start are built: the entries of the copy in force that differ from the default ones, where
they obey the up/down rule. -/
def buildRoutes (s : State) (writes narrow : List (Nat × Nat × Nat)) : State :=
  let t := writeShadow { s with mesh := { s.mesh with active := !s.mesh.active } } writes narrow
  let t := { t with mesh := { t.mesh with active := s.mesh.active } }
  if obeysRule t t.mesh.active then t else s

/-- Empty shadow copies. -/
def clearShadow (s : State) : State :=
  let m := s.mesh
  { s with mesh := if m.active then { m with copy0 := [], narrow0 := [] } else { m with copy1 := [], narrow1 := [] } }

/-- R459: an endpoint takes the switch order. -/
def takeSwitch (s : State) (ep : Nat) : State :=
  if s.mesh.rebuild ≠ 2 || s.mesh.switched.contains ep || !(epServes s ep) then s
  else
    let m := { s.mesh with
      switched := addTo s.mesh.switched ep
      swaps := put s.mesh.swaps ep (look s.mesh.swaps ep 0 + 1) }
    { s with mesh := m }

/-- R460, R293: no packet and no narrow-network message in a router is stamped with a copy. -/
def copyGone (s : State) (tbl : Bool) : Bool :=
  (s.mesh.wires ++ s.mesh.entering).all (fun w => w.2.all (fun p => p.tbl ≠ tbl)) && s.narrow.all (fun m => m.place.isNone || m.tbl ≠ tbl)

/-- R460: every endpoint that sends packets now has acknowledged the switch order. -/
def allSwitched (s : State) : Bool := (injectors s).all (fun e => s.mesh.switched.contains e)

/-- R462: the override entries that stay once the new copy is in force: those of fences decided since the switch order. -/
def sinceSwitch (s : State) : Tab (List Override) :=
  (s.mesh.detour.map (fun (e : Nat × List Override) => (e.1, e.2.take (e.2.length - look s.mesh.covered e.1 0)))).filter
    (fun e => !e.2.isEmpty)

/-- R457, R462: the old copy retires, and the overrides that the new one covers are cleared. -/
def retireNow (s : State) : State :=
  bump { s with mesh := { s.mesh with
    active := !s.mesh.active, switched := [], rebuild := 0, detour := sinceSwitch s, covered := [] } } ctrModRetirements 0 1

/-- R460: the old copy retires once every endpoint has switched and no packet is stamped with it. -/
def retireRoutes (s : State) : State :=
  if s.mesh.rebuild ≠ 2 || !allSwitched s || !copyGone s s.mesh.active then s else retireNow s

/-! ## The meanings -/

/-- R413, R464. -/
def execRouterPacketReceive (router port : Nat) (crcOk : Bool) (lookup : Lookup) (s : State) : Host.Outcome State Fault Refusal :=
  .next (routerStep s router port crcOk lookup)
/-- R421. -/
def execReadRequest (turn : Reading) (s : State) : Host.Outcome State Fault Refusal :=
  .next (plainArrival (meetErrors s turn.ep turn.bad) turn.ep 0)
/-- R421. -/
def execWritePacket (ep : Nat) (s : State) : Host.Outcome State Fault Refusal := .next (plainArrival s ep 1)
/-- R421. -/
def execReadResponse (ep : Nat) (s : State) : Host.Outcome State Fault Refusal := .next (readArrives s ep)
/-- R429. -/
def execWriteAck (ep : Nat) (s : State) : Host.Outcome State Fault Refusal := .next (ackArrives s ep)
/-- R464. -/
def execDropResponse (ep : Nat) (s : State) : Host.Outcome State Fault Refusal := .next (dropArrives s ep)
/-- R421, R432. -/
def execOrderAck (ep : Nat) (s : State) : Host.Outcome State Fault Refusal := .next (orderArrives s ep)
/-- R261. -/
def execTokenArrive (ep : Nat) (s : State) : Host.Outcome State Fault Refusal := .next (plainArrival s ep 5)
/-- R432. -/
def execFlaggedPacket (ep : Nat) (s : State) : Host.Outcome State Fault Refusal := .next (flaggedArrival s ep)
/-- R432. -/
def execFlaggedPacketRelease (ep : Nat) (s : State) : Host.Outcome State Fault Refusal := .next (flaggedRelease s ep)
/-- R435. -/
def execVc5Packet (ep : Nat) (s : State) : Host.Outcome State Fault Refusal := .next (vc5Arrival s ep)
/-- R402. -/
def execStackCacheFill (region line : Nat) (uncorrectable : Bool) (s : State) : Host.Outcome State Fault Refusal :=
  .next (fillReturns s region line uncorrectable)
/-- R459. -/
def execSwitchOrder (ep : Nat) (s : State) : Host.Outcome State Fault Refusal := .next (takeSwitch s ep)

end Sys2Proof.Machine
end

