-- ==== Sys2Proof/Machine/Translate.lean ====
section
/-! DEFINITION. Page tables and their rebuilds, translation walks and migrations (09_translation.md R474 to R494). -/

namespace Sys2Proof.Machine

/-! ## Resuming a halted unit -/

/-- Change the halts of a unit's work. -/
def onHalts (s : State) (unit : Unit) (f : Halt → Option Halt) : State :=
  match unit with
  | .coreCopy c => setCore s c { coreOf s c with copies := (coreOf s c).copies.map (fun j => { j with halt := j.halt.bind f }) }
  | .hubCopy h => setHub s h { hubOf s h with copies := (hubOf s h).copies.map (fun j => { j with halt := j.halt.bind f }) }
  | .stream c k n => setStrm s c k n { strmOf (slotOf s c k) n with halt := (strmOf (slotOf s c k) n).halt.bind f }
  | .merge h => setHub s h { hubOf s h with merges := (hubOf s h).merges.map (fun j => { j with halt := j.halt.bind f }) }
  | _ => s

/-- Every unit of a core and of its hub that has work. -/
def unitsOfCore (s : State) (c : Nat) : List Unit :=
  [.coreCopy c, .hubCopy (clusterOf c), .merge (clusterOf c)] ++
  ((coreOf s c).slots.map (fun v => v.2.strms.map (fun t => Unit.stream c v.1 t.1))).flatten

/-- R369, R227: the steps of a unit that satisfy p take up their work again from their descriptors. -/
def restartUnit (s : State) (unit : Unit) (p : Option Halt → Bool) : State :=
  match unit with
  | .merge h => setHub s h { hubOf s h with merges := (hubOf s h).merges.map (fun j => if p j.halt then restartMerge j else j) }
  | _ => restartJobs s unit (fun j => p j.halt)

/-- Clear the halts of a unit that satisfy p, and let it go on. -/
def resumeUnit (s : State) (unit : Unit) (p : Halt → Bool) : State :=
  pumpUnit (onHalts (restartUnit s unit (fun h => h.any p)) unit (fun h => if p h then none else some h)) unit

/-- R491: halted for a migration. -/
def isMigrating : Halt → Bool
  | .migrating _ => true
  | _ => false

/-- R491, R369: halted for a migration or by a fence, and going on when what halted it has been dealt with. -/
def isPaused : Halt → Bool
  | .migrating _ => true
  | .fence => true
  | _ => false

/-- R369: the units that a fence halted go on once routes have changed. -/
def resumeFenced (s : State) : State :=
  let fenced (h : Halt) : Bool := h = .fence
  let t := each (keys s.cores) s (fun c s => each (unitsOfCore s c) s (fun u s => resumeUnit s u fenced))
  each (keys t.hubs) t (fun h s => resumeUnit (resumeUnit s (.hubCopy h) fenced) (.merge h) fenced)

/-- R460: the routes in force have changed. -/
def execRouteRetire (s : State) : Host.Outcome State Fault Refusal :=
  .next (if (retireRoutes s).mesh.rebuild = s.mesh.rebuild then retireRoutes s else resumeFenced (retireRoutes s))

/-! ## Page tables, R476, R477, R482 -/

/-- R476: bytes of a table of a level. -/
def tableBytes (level : Nat) : Nat :=
  match level with
  | 1 => 8192
  | 2 => 4096
  | _ => 256

/-- R476: the index of an offset at a level. -/
def tableIndex (level off : Nat) : Nat :=
  match level with
  | 1 => bitsOf off 30 10
  | 2 => bitsOf off 21 9
  | _ => bitsOf off 16 5

/-- Bytes of a region's page-table area, log entry 16. -/
def tableArea : Nat := 2 ^ 26

/-- The page-table area of a region. -/
def tableBase (s : State) (region : Nat) : Nat := hbmPhys (2 * region) (reservedBase s)

/-- R477: a place for a table of a level in a region's area. -/
def tablePlace (s : State) (region level : Nat) : Option Nat :=
  let n := tableBytes level
  let b := tableBase s region
  let used := s.xlat.tables.filter (fun t => decide (b ≤ t.1) && decide (t.1 < b + tableArea))
  (b :: used.map (fun t => roundUp (t.1 + t.2.1) n)).foldl (fun best a =>
    if a + n ≤ b + tableArea && !(used.any (fun t => overlaps a n t.1 t.2.1)) && best.all (fun x => decide (a < x)) then some a
    else best) none

/-- A new table of a level for a window, a copy of the table at `src` or empty. -/
def newTable (s : State) (h key level src : Nat) : Option (Nat × State) :=
  let regions := (look? s.slices h).elim [] (·.regions)
  ((regions.filterMap (fun r => tablePlace s r level)).head?).map (fun a =>
    let n := tableBytes level
    let m := if src = 0 then zeroRange s.mem a (a + n) else copyRange s.mem src a n
    (a, { s with mem := m, xlat := { s.xlat with tables := put s.xlat.tables a (n, key) } }))

/-- R482: write an entry of a page-size code below a table, copying the tables of `old` that change. Fuel counts the
levels left. -/
def setEntry (h key : Nat) (old : List Nat) (off size : Nat) (entry : Reg) : Nat → Nat → State → Option (Nat × State)
  | 0, _, _ => none
  | n + 1, table, s =>
    let level := 3 - n
    match (if table ≠ 0 && !(old.contains table) then some (table, s) else newTable s h key level table) with
    | none => none
    | some (t, s) =>
      let a := t + 8 * tableIndex level off
      if n = size then some (t, { s with mem := writeNat s.mem a 8 entry.toNat })
      else
        let e := readNat s.mem a 8
        let child := if ptValid e && !ptLeaf e then ptNext e else 0
        match setEntry h key old off size entry n child s with
        | none => none
        | some (c, s) =>
          match placeOf c with
          | .hbm k o => some (t, { s with mem := writeNat s.mem a 8 (mkPointer k o).toNat })
          | _ => none

/-- Write several entries below a root. -/
def setEntries (h key : Nat) (old : List Nat) : List (Nat × Nat × Reg) → Nat → State → Option (Nat × State)
  | [], root, s => some (root, s)
  | (off, size, e) :: rest, root, s =>
    match setEntry h key old off size e 3 root s with
    | none => none
    | some (r, s) => setEntries h key old rest r s

/-- R474: the entry of a window, or a fresh one for its new owner. -/
def windowEntry (s : State) (h key : Nat) : Window :=
  look s.xlat.windows key { owner := h, root0 := 0, root1 := 0, second := false, folded := [] }

/-- R457: the window's last swap has retired. -/
def retired (s : State) (key : Nat) : Bool :=
  match look? s.xlat.windows key with
  | none => true
  | some w => (if w.second then w.root0 else w.root1) = 0

/-- The window key of a leaf. -/
def keyOf (space off : Nat) : Nat := space / 2 * 256 + bitsOf off 40 8

/-- The window keys of a range of a space. -/
def rangeKeys (space off span : Nat) : List Nat :=
  if span = 0 then [] else
    (List.range ((off + span - 1) / 2 ^ 40 - off / 2 ^ 40 + 1)).map (fun i => keyOf space (off + i * 2 ^ 40))

/-- The tables that a table of a level reaches, itself among them. Fuel counts the levels left. -/
def tablesUnder (s : State) : Nat → Nat → List Nat
  | 0, _ => []
  | n + 1, table =>
    let words := ((s.mem.cells.filter (fun c => decide (table ≤ c.1) && decide (c.1 < table + tableBytes (3 - n)))).map (fun c => c.1 / 8)).eraseDups
    table :: (words.map (fun w =>
      let e := readNat s.mem (8 * w) 8
      if ptValid e && !ptLeaf e then tablesUnder s n (ptNext e) else [])).flatten

/-- The tables that a root reaches. -/
def tablesFrom (s : State) (root : Nat) : List Nat := if root = 0 then [] else tablesUnder s 3 root

/-- R482, R484, R457: rebuild a window with changes, folding in its override entries, and swap it. A table in which Furelo meets
an uncorrectable word is not built upon: the error escalates (R516, R518). -/
def rebuildWindow (s : State) (h key : Nat) (changes : List (Nat × Nat × Reg)) : Option State :=
  let w := windowEntry s h key
  match (tablesFrom s (activeRoot w)).find? (fun a => (look? s.xlat.tables a).any (fun t => poisoned s.mem a t.1)) with
  | some a => some (escalate s 0 a)
  | none =>
  let folds := s.xlat.overrides.filter (fun l => keyOf l.space l.off = key)
  match setEntries h key (keys s.xlat.tables) (folds.map (fun l => (l.off, l.size, l.entry)) ++ changes) (activeRoot w) s with
  | none => none
  | some (root, t) =>
    let w' := if w.second then { w with root0 := root, second := false, folded := folds.map (·.off) }
      else { w with root1 := root, second := true, folded := folds.map (·.off) }
    let t := { t with xlat := { t.xlat with windows := put t.xlat.windows key w' } }
    let t := each (List.range (regionCount s.fuses.ordering)) t (fun r s => bump s ctrRegionSwaps r 1)
    some (discardCached t (fun l => keyOf l.space l.off = key))

/-- R457, R484: a window whose old copy no walk uses retires: the override entries folded in are cleared, the tables that
neither the active copy nor a walk reaches are freed, and with no leaf left it has no owner. -/
def retireWindow (s : State) (key : Nat) : State :=
  match look? s.xlat.windows key with
  | none => s
  | some w =>
    let old := if w.second then w.root0 else w.root1
    if s.xlat.walks.any (fun x => x.root = old && keyOf (gaSpace x.addr) (gaOff x.addr) = key) then s
    else
      let w' := if w.second then { w with root0 := 0, folded := [] } else { w with root1 := 0, folded := [] }
      let mine := s.xlat.leaves.filter (fun l => keyOf l.space l.off = key)
      let walked := (s.xlat.walks.filter (fun x => keyOf (gaSpace x.addr) (gaOff x.addr) = key)).map (·.root)
      let live := ((if mine.isEmpty then walked else activeRoot w :: walked).map (tablesFrom s)).flatten
      let x := s.xlat
      let t := { s with xlat := { x with
        windows := if mine.isEmpty then cut x.windows key else put x.windows key w'
        overrides := x.overrides.filter (fun l => !(keyOf l.space l.off = key && w.folded.contains l.off))
        tables := x.tables.filter (fun t => t.2.2 ≠ key || live.contains t.1) } }
      each (List.range (regionCount s.fuses.ordering)) t (fun r s => bump s ctrRegionRetirements r 1)

/-- Retire what can be retired. -/
def retireWindows (s : State) : State :=
  each ((keys s.xlat.windows).filter (fun k => !(retired s k))) s (fun k s => retireWindow s k)

/-! ## Walks, R476 to R493 -/

/-- Let a unit use a translation once. -/
def useOnce (s : State) (unit : Unit) (l : Leaf) : State :=
  let u := cacheOf unit
  let t := pumpUnit { s with xlat := { s.xlat with cache := { unit := u, leaf := l } :: s.xlat.cache } } unit
  { t with xlat := { t.xlat with cache := t.xlat.cache.eraseP (fun e => e.unit = u && e.leaf = l) } }

/-- R476, R479, R483, R516: walk i ends: with a leaf, which its unit caches while the copy is still active; with no
translation; or with an error that escalates. R736: in standard and full, a walker whose two address generators differ
records the fault and tries the walk again with the next row; a second difference is hard. -/
def endWalk (s : State) (i : Nat) (uncorrectable upset : Bool) : State :=
  match s.xlat.walks[i]? with
  | none => s
  | some w =>
    if upset && unitChecked s w.unit then
      let s := addressFault s w.unit w.retried
      { s with xlat := { s.xlat with walks := s.xlat.walks.set i { w with retried := true } } }
    else
    let sp := gaSpace w.addr
    let off := gaOff w.addr
    let die := (placeRegion (placeOf w.root)).getD 0
    let t := { s with xlat := { s.xlat with walks := s.xlat.walks.eraseIdx i } }
    let t := if w.root = 0 then t else bump t ctrRegionWalks die 1
    let none_ : Leaf := { space := sp, off := off / 2 ^ 16 * 2 ^ 16, size := 0, entry := 0 }
    retireWindows (if uncorrectable && w.root ≠ 0 then escalate t 0 w.addr
    else match walkFrom t w.root sp off with
      | .broken => escalate t 0 w.addr
      | .none_ => useOnce t w.unit none_
      | .dark r => useOnce t w.unit { none_ with entry := mkLeaf true false false false (2 * r) 0 }
      | .leaf l =>
        if (windowOf t sp off).any (fun x => activeRoot x = w.root) then pumpUnit (cacheLeaf t w.unit l) w.unit
        else useOnce t w.unit l)

/-! ## Accesses made at once, log entry 15 -/

/-- R481, R489: an access of at most one page by a master whose accesses are made in one step, walking where it must. -/
def touch (s : State) (unit : Unit) (a n : Nat) (write : Bool) : State × Reach :=
  match reach s unit a n write with
  | .ok p sh =>
    let t := if gaSpace a % 2 = 0 then lookedUp s unit false else s
    if tableBroken t p n then (escalate t 0 p, .fault 0x81) else (t, .ok p sh)
  | .walk =>
    let s := lookedUp s unit true
    match windowOf s (gaSpace a) (gaOff a) with
    | none => (s, .fault 0x81)
    | some w =>
      let s := if activeRoot w = 0 then s else bump s ctrRegionWalks ((placeRegion (placeOf (activeRoot w))).getD 0) 1
      match walkFrom s (activeRoot w) (gaSpace a) (gaOff a) with
      | .leaf l =>
        let t := cacheLeaf s unit l
        match throughLeaf t unit write l (gaOff a) with
        | .ok p sh => if tableBroken t p n then (escalate t 0 p, .fault 0x81) else (t, .ok p sh)
        | r => (t, r)
      | .none_ => (s, .fault 0x81)
      | .broken => (escalate s 0 a, .fault 0x81)
      | .dark r => (s, .dark r)
  | r => (if gaSpace a % 2 = 0 && gaWhere s a = 0 then lookedUp s unit false else s, r)

/-- n bytes from a, cut at 64 KiB pages. Fuel is the number of pages. -/
def pagesOf : Nat → Nat → Nat → List (Nat × Nat)
  | 0, _, _ => []
  | f + 1, a, n =>
    if n = 0 then [] else
      let l := min n (2 ^ 16 - a % 2 ^ 16)
      (a, l) :: pagesOf f (a + l) (n - l)

/-- n bytes from a, by pages. -/
def pageCuts (a n : Nat) : List (Nat × Nat) := pagesOf (n / 2 ^ 16 + 2) a n

/-- The physical pieces of a range, or why it cannot be reached. -/
def touchAll (unit : Unit) (write : Bool) : List (Nat × Nat) → State → State × (List (Nat × Nat) ⊕ Reach)
  | [], s => (s, .inl [])
  | (a, n) :: rest, s =>
    let r := touch s unit a n write
    match r.2 with
    | .ok p _ =>
      let q := touchAll unit write rest r.1
      (q.1, match q.2 with
        | .inl l => .inl ((p, n) :: l)
        | .inr x => .inr x)
    | x => (r.1, .inr x)

/-- The bytes of physical pieces, and their poison by byte. -/
def readPieces (s : State) (l : List (Nat × Nat)) : List Byte × List Bool :=
  ((l.map (fun p => readPhys s p.1 p.2)).flatten,
   (l.map (fun p => (List.range p.2).map (fun i => poisoned s.mem (p.1 + i) 1))).flatten)

/-- Write bytes, with their poison by byte, over physical pieces. -/
def writePieces : List (Nat × Nat) → List Byte → List Bool → State → State
  | [], _, _, s => s
  | (p, n) :: rest, data, pois, s =>
    writePieces rest (data.drop n) (pois.drop n) (physWrite s p (data.take n) (wordMask (pois.take n)))

/-- Poison by byte from poison by 8-byte word. -/
def spreadMask (mask : List Bool) (n : Nat) : List Bool := (List.range n).map (fun i => mask.getD (i / 8) false)

/-! ## Migration, R491 -/

/-- R485: the override entries' high-water mark, on every die. -/
def markOverrides (s : State) : State :=
  each (List.range (regionCount s.fuses.ordering)) s (fun r s => bumpMax s ctrRegionOverrideHigh r s.xlat.overrides.length)

/-- R457: with every override entry in use, the oldest's window is rebuilt. -/
def foldOldest (s : State) : State :=
  match s.xlat.overrides with
  | [] => s
  | l :: _ =>
    let key := keyOf l.space l.off
    if retired s key then
      match rebuildWindow s (windowEntry s 0 key).owner key [] with
      | some t => retireWindows t
      | none => s
    else retireWindows s

/-- R485, R491 steps 2 to 4: the page has moved: it is mapped by an override entry and its units go on. -/
def movePage (s : State) (m : Migration) : State :=
  let src := leafPhys m.leaf 0
  let dst := leafPhys m.target 0
  let n := pageBytes m.leaf.size
  let stack := ptLoc m.target.entry.toNat
  let t := { s with
    mem := copyRange s.mem src dst n
    xlat := { s.xlat with
      overrides := s.xlat.overrides ++ [m.target]
      leaves := s.xlat.leaves.map (fun l => if l = m.leaf then m.target else l) } }
  let t := markOverrides (discardCached t (fun l => l.space = m.leaf.space && overlaps l.off (pageBytes l.size) m.leaf.off n))
  bump (bump t ctrRegionMigrations (regionOfStack stack) 1) ctrRegionMigrated (regionOfStack stack) n

/-- R491: a migration ends; one whose leaf is no longer mapped, or whose tier-2 page cannot be read, moves nothing. -/
def endMigration (s : State) (i : Nat) : State :=
  match s.xlat.migrating[i]? with
  | none => s
  | some m =>
    let e := m.leaf.entry.toNat
    let t := if 64 ≤ s.xlat.overrides.length then foldOldest s else s
    if 64 ≤ t.xlat.overrides.length then t
    else
      let t := { t with xlat := { t.xlat with migrating := t.xlat.migrating.eraseIdx i } }
      let t := if t.xlat.leaves.contains m.leaf && tierHolds t (ptLoc e % 8) (ptFrame e) then movePage t m else t
      each m.waiting t (fun u s => resumeUnit s u isMigrating)

/-- A walk completes, R476. -/
def execTranslationWalk (i : Nat) (check : WalkCheck) (s : State) : Host.Outcome State Fault Refusal :=
  .next (endWalk s i (check = .uncorrectable) (check = .address))

/-- A migration completes, R491. -/
def execMigrationComplete (i : Nat) (s : State) : Host.Outcome State Fault Refusal := .next (endMigration s i)

end Sys2Proof.Machine
end

