-- ==== Sys2Proof/Machine/TimeSlice.lean ====
section
/-! DEFINITION. Time-slicing: saving a group into its images and restoring it (09_translation.md R495 to R508). -/

namespace Sys2Proof.Machine

/-- R497: the lowest of the four save images of a core that no group of a list uses; 4 when each is taken. -/
def freePlace (l : List Group) (c : Nat) : Nat :=
  let used := (l.filter (fun g => g.cores.contains c)).map (fun g => look g.places c 0)
  ((List.range 4).find? (fun i => !(used.contains i))).getD 4

/-- R497: the save images of a group on its cores, beside other groups: those it has, and a free one on each further core. -/
def placesOn (others : List Group) (have_ : Tab Nat) (cores : List Nat) : Tab Nat :=
  cores.foldl (fun t c => put t c ((look? have_ c).getD (freePlace others c))) []

/-! ## Images, R498, R500 -/

/-- R496, R500: the version this model's images carry (log entry 16). -/
def imageVersion : Nat := 1

/-- Copy n bytes of an image to a physical address. -/
def fromImage (s : State) (g : Group) (c a off n : Nat) : State :=
  each (List.range (ceilDiv n 65536)) s (fun i s => match imageAt s g c (off + i * 65536) with
    | some p => { s with mem := copyRange s.mem p (a + i * 65536) (min 65536 (n - i * 65536)) }
    | none => s)

/-- Bytes of an image. -/
def imageRead (s : State) (g : Group) (c off n : Nat) : List Byte :=
  ((List.range (n / 65536 + 2)).map (fun i =>
    let lo := if i = 0 then off else (off / 65536 + i) * 65536
    let hi := min (off + n) ((off / 65536 + i + 1) * 65536)
    if hi ≤ lo then [] else match imageAt s g c lo with
      | some p => readMem s.mem p (hi - lo)
      | none => List.replicate (hi - lo) 0)).flatten

/-- Write bytes into an image. -/
def imagePut (s : State) (g : Group) (c off : Nat) (l : List Byte) : State :=
  each ((pieces 65536 l).zipIdx) s (fun e s => match imageAt s g c (off + e.2 * 65536) with
    | some p => { s with mem := writeMem s.mem p e.1 }
    | none => s)

/-- Any poisoned word in a range. -/
def anyPoison (m : Memory) (a n : Nat) : Bool := m.poison.any (fun k => decide (a ≤ 8 * k) && decide (8 * k < a + n))

/-! ### The header, R500 -/

/-- R500: how often the image of a group's core has been saved since its slice was created. -/
def imageSaves (s : State) (g : Group) (c : Nat) : Nat :=
  look (((look? s.slices (handleOf s c)).map (·.saves)).getD []) (c * 4 + look g.places c 0) 0

/-- R500: one more save of it. -/
def countSave (s : State) (g : Group) (c : Nat) : State :=
  match look? s.slices (handleOf s c) with
  | none => s
  | some l => setSlice s (handleOf s c) { l with saves := put l.saves (c * 4 + look g.places c 0) (imageSaves s g c + 1) }

/-- R500: an image's header. -/
def imageHeader (s : State) (state c saves check : Nat) (poison : Bool) : List Byte :=
  bytesOf 32 (state + bn poison * 8 + c * 2 ^ 4 + regionOf c * 2 ^ 16 + imageVersion * 2 ^ 32 +
    regionNow s (regionOf c) * 2 ^ 64 + saves % 2 ^ 32 * 2 ^ 192 + check * 2 ^ 224)

/-- R500: the header in memory. -/
def headOf (s : State) (g : Group) (c : Nat) : Nat := natOf (imageRead s g c 0 32)

/-- Write a header. -/
def putHead (s : State) (g : Group) (c h : Nat) : State := imagePut s g c 0 (bytesOf 32 h)

/-- R500, R501, R503: the header names the section that comes next and the bytes of it that are copied. -/
def headAt (s : State) (g : Group) (c n done : Nat) : State :=
  putHead s g c (setBits (setBits (headOf s g c) 24 3 n) 128 64 done)

/-- R500: the header takes another state, with a new stamp. -/
def headState (s : State) (g : Group) (c st n : Nat) : State :=
  putHead s g c ([(0, 3, st), (4, 12, c), (16, 6, regionOf c), (24, 3, n), (32, 16, imageVersion), (64, 64, regionNow s (regionOf c)),
    (128, 64, 0)].foldl (fun h f => setBits h f.1 f.2.1 f.2.2) (headOf s g c))

/-- R500 check: CRC-32C over sections 0 and 1 without the header. -/
def imageCheck (s : State) (g : Group) (c : Nat) : Nat :=
  crc32c (imageRead s g c 4096 16384 ++ imageRead s g c 0x10000 73728)

/-- Every byte of a core's image can be reached. -/
def imageReachable (s : State) (g : Group) (c : Nat) : Bool := (List.range 128).all (fun i => (imageAt s g c (i * 65536)).isSome)

/-! ### The sections, R498 -/

/-- R498: where a section begins. -/
def sectionOff (n : Nat) : Nat :=
  match n with
  | 0 => 0
  | 1 => 0x10000
  | 2 => 0x30000
  | 3 => 0x80000
  | _ => imageCore

/-- R498: how long it is. -/
def sectionSize (n : Nat) : Nat :=
  match n with
  | 0 => 20480
  | 1 => 73728
  | 2 => 67584
  | 3 => 2 ^ 20
  | _ => coreBytes

/-- R498 section 1: a tile's guard bits and tags. -/
def tileGuard (t : TileBuf) : List Byte :=
  fit ((t.words.map (fun w => bytesOf 2 (w.ext.toNat / 2 ^ 64))).flatten) 8192 ++
  fit (packBits 2 (t.words.map (fun w => tagCode w.tag))) 1024

/-- R139: a tile's low words. -/
def tileLow (t : TileBuf) : List Byte := fit ((t.words.map (fun w => bytesOf 8 w.ext.toNat)).flatten) 32768

/-- R498: the tile that an image holds: `t` says whether it held words, and which of them a product had overflowed. -/
def tileBack (s : State) (g : Group) (c e half : Nat) (t : TileBuf) : TileBuf :=
  let at_ := 0x10000 + e * 18432 + half * 9216
  let low := pieces 8 (imageRead s g c (0x80000 + e * 2 ^ 18 + 0x30000 + half * 32768) 32768)
  let guard := (pieces 2 (imageRead s g c at_ 8192)).zip (unpackBits 2 4096 (imageRead s g c (at_ + 8192) 1024))
  { t with words := ((t.words.zip low).zip guard).map (fun w =>
      { ext := BitVec.ofNat 80 (natOf w.1.2 + natOf w.2.1 * 2 ^ 64), tag := codeTag w.2.2, ovf := w.1.1.ovf }) }

/-- R498 section 2: the tokens of a core's lane store in the order of their entries, with the number of each. -/
def storeEntries (co : Core) : List (Nat × Nat × Token) :=
  (List.range 4).flatMap (fun k =>
    let v := look co.slots k .fresh
    let first (n : Nat) : Nat := ((List.range n).map (fun m => laneDepth (imLane v.image m))).sum
    (List.range 16).flatMap (fun n => ((laneOf v n).tokens.zipIdx).map (fun t => (64 * k + first n + t.2, t.1.1, t.1.2))))

/-- R498 section 2: one entry of the lane store, with its poison by word. -/
def entryBytes (t : Token) : List Byte × List Bool :=
  (bytesOf 8 t.header.toNat ++ fit t.data 256, false :: (List.range 32).map (fun w => t.poison.getD w false))

/-- R498 section 2: the lane store. -/
def laneStore (co : Core) : List Byte × List Bool :=
  let l := storeEntries co
  let all_ := (List.range 256).map (fun i => match l.find? (fun e => e.1 = i) with
    | some e => entryBytes e.2.2
    | none => (List.replicate 264 0, List.replicate 33 false))
  ((all_.map (·.1)).flatten, (all_.map (·.2)).flatten)

/-- R498: the token of an entry of the lane store, from an image. -/
def tokenBack (s : State) (g : Group) (c i : Nat) : Token :=
  let a := 0x30000 + 264 * i
  let h := natOf (imageRead s g c a 8)
  let n := bitsOf h 0 6
  { header := BitVec.ofNat 64 h, data := imageRead s g c (a + 8) (8 * n)
    poison := (List.range n).map (fun w => (imageAt s g c (a + 8 + 8 * w)).any (fun p => poisoned s.mem p 8)) }

/-- R503: a core with the tokens that an image of its lane store holds. -/
def lanesBack (s : State) (g : Group) (c : Nat) (co : Core) : Core :=
  { co with slots := co.slots.map (fun v =>
      let first (n : Nat) : Nat := 64 * v.1 + ((List.range n).map (fun m => laneDepth (imLane v.2.image m))).sum
      (v.1, { v.2 with lanes := v.2.lanes.map (fun l =>
        (l.1, { l.2 with tokens := l.2.tokens.zipIdx.map (fun t => (t.1.1, tokenBack s g c (first l.1 + t.2))) })) })) }

/-- R499: the state of a core's slots. Its layout belongs to the version of the image and no rule gives it: the bytes of a save
are free values (log entry 16). -/
def stateBytes (free : Nat) : List Byte := (List.range 16384).map (Config.stateByte free)

/-- R501 step 8: one piece of at most 64 KiB of a section goes into an image; none when its page cannot be reached. -/
def putPiece (s : State) (g : Group) (c n free i : Nat) : Option State :=
  (imageAt s g c (sectionOff n + i * 65536)).map (fun p =>
    let len := min 65536 (sectionSize n - i * 65536)
    let put_ (l : List Byte) (mask : List Bool) : State :=
      { s with mem := writePoison s.mem p ((l.drop (i * 65536)).take len) (mask.drop (i * 8192)) }
    match n with
    | 0 => { s with mem := writeMem s.mem (p + 4096) (stateBytes free) }
    | 1 => put_ ((List.range 4).flatMap (fun j =>
        tileGuard (engOf s (engineOf c j)).tile0 ++ tileGuard (engOf s (engineOf c j)).tile1)) []
    | 2 => put_ (laneStore (coreOf s c)).1 (laneStore (coreOf s c)).2
    | 3 =>
      let e := engineOf c (i / 4)
      if i % 4 = 3 then { s with mem := writeMem s.mem p (tileLow (engOf s e).tile0 ++ tileLow (engOf s e).tile1) }
      else { s with mem := copyRange s.mem (bufPhys e (i % 4 * 65536)) p len }
    | _ => { s with mem := copyRange s.mem (corePhys c (i * 65536)) p len })

/-- R501 step 8: pieces of a section go into an image in order; the first whose page cannot be reached, when there is one. -/
def putPieces (g : Group) (c n free : Nat) : List Nat → State → State × Option Nat
  | [], s => (s, none)
  | i :: rest, s => match putPiece s g c n free i with
    | some t => putPieces g c n free rest t
    | none => (s, some i)

/-- R503 step 2: one piece of a section comes back from an image; that of sections 0 to 2 is taken with the last of them. -/
def takePiece (s : State) (g : Group) (c n i : Nat) : Option State :=
  (imageAt s g c (sectionOff n + i * 65536)).map (fun p =>
    let len := min 65536 (sectionSize n - i * 65536)
    match n with
    | 0 => s
    | 1 => s
    | 2 => s
    | 3 => if i % 4 = 3 then s else { s with mem := copyRange s.mem p (bufPhys (engineOf c (i / 4)) (i % 4 * 65536)) len }
    | _ => { s with mem := copyRange s.mem p (corePhys c (i * 65536)) len })

/-- R503 step 2: pieces of a section come back in order; the first whose page cannot be reached, when there is one. -/
def takePieces (g : Group) (c n : Nat) : List Nat → State → State × Option Nat
  | [], s => (s, none)
  | i :: rest, s => match takePiece s g c n i with
    | some t => takePieces g c n rest t
    | none => (s, some i)

/-- The pieces of a section from a byte of it on. -/
def piecesFrom (n done : Nat) : List Nat := (List.range (ceilDiv (sectionSize n) 65536)).filter (fun i => decide (done ≤ i * 65536))

/-- R500: a poisoned word of a core is saved. -/
def savesPoison (s : State) (c : Nat) : Bool :=
  anyPoison s.mem (corePhys c 0) coreBytes || (List.range 4).any (fun i => anyPoison s.mem (bufPhys (engineOf c i) 0) (2 ^ 18)) ||
  (laneStore (coreOf s c)).2.any id

/-- R496: everything that a core holds goes into its image at once, and the image is in state 2. -/
def saveWhole (s : State) (g : Group) (c : Nat) : State :=
  let t := each (List.range 5) { s with free := s.free + 1 } (fun n t => (putPieces g c n s.free (piecesFrom n 0) t).1)
  imagePut t g c 0 (imageHeader t 2 c (imageSaves t g c) (imageCheck t g c) (savesPoison t c))

/-! ## Saving, R501 -/

/-- R496: a group in whose images some slot would run. -/
def groupReady (g : Group) : Bool := g.saved.any (fun c => c.2.slots.any (fun v => activeState v.2.state && v.2.primary.isNone))

/-- Two groups share a core. -/
def shareCore (a b : Group) : Bool := a.cores.any (fun c => b.cores.contains c)

/-- R495: a group another one waits for, and whose period is over. -/
def sliceDue (s : State) (l : Slice) (g : Group) : Bool :=
  g.resident && !g.halted && (g.image = .empty || g.image = .saved) && windowOver s.clocks.sup g.began (l.periodMs * ticksPerMs) &&
  l.groups.any (fun o => !o.resident && !o.byHost && o.image = .saved && groupReady o && shareCore o g)

/-- R501 steps 1 to 4: the slots of the cores listed stop issuing, their streams write elems_done (R396), and their parked waits
are cancelled. -/
def quietCores (s : State) (cores : List Nat) : State :=
  each cores s (fun c s => each (keys (coreOf s c).slots) s (fun k s =>
    let s := if (slotOf s c k).state = .running then onSlot s c k (fun v => { v with state := .ready }) else s
    let s := each ((slotOf s c k).strms.filter (fun t => t.2.bound)) s (fun t s => writeElems s c k t.1)
    cancelWaits s c k))

/-- R501 steps 1 to 4: the save of a group begins. -/
def beginSave (s : State) (h i : Nat) (pool : Option Nat) (byHost : Bool) : State :=
  match (groupsOf s h)[i]? with
  | none => s
  | some g =>
    let s := setGroup s h i { g with image := .saving, pool := pool, byHost := byHost, prog := [] }
    quietCores s g.cores

/-- A transfer in flight. -/
def segBusy (g : Seg) : Bool := g.stage = 1 || g.stage = 3

/-- R501 steps 3 to 5: a core still waits for acks, responses or synchronisation operations. -/
def coreBusy (s : State) (c : Nat) : Bool :=
  (coreOf s c).copies.any (fun j => j.segs.any segBusy) ||
  (hubOf s (clusterOf c)).copies.any (fun j => j.core = c && j.segs.any segBusy) ||
  (hubOf s (clusterOf c)).merges.any (fun j => j.core = c && j.segs.any segBusy) ||
  (List.range 4).any (fun i => (engOf s (engineOf c i)).ended && (engOf s (engineOf c i)).acc.all (fun a => !a.again)) ||
  (coreOf s c).slots.any (fun v => v.2.syncs.any (fun y => !y.retry) || v.2.issued.any (fun i => i.op = 0x50) ||
    v.2.strms.any (fun t => t.2.staged.any (fun ch => ch.segs.any segBusy)))

/-- R501 step 6: a token or reduction packet is under way within a group. -/
def packetsWithin (s : State) (g : Group) : Bool :=
  let within (p : Packet) : Bool := (p.kind = 4 || p.kind = 5) && g.cores.contains p.src &&
    (g.cores.contains p.dest || g.cores.any (fun c => epHub (clusterOf c) = p.dest))
  (s.mesh.wires ++ s.mesh.entering).any (fun e => e.2.any within) || s.mesh.arrived.any (fun e => e.2.any within) ||
  s.mesh.held.any (fun e => e.2.any within) || s.mesh.reorder.any (fun e => e.2.any within)

/-- A group that may come back onto its cores now. -/
def mayReturn (s : State) (h : Nat) (g : Group) : Bool :=
  !g.resident && !g.byHost && !g.halted && g.dark.isEmpty && g.image = .saved && groupReady g && !(g.cores.any (underPass s)) &&
  !((groupsOf s h).any (fun o => (o.resident || o.image = .restoring) && shareCore o g))

/-- R495: the groups after place i come back in turn where their cores are free. -/
def startRestores (s : State) (h i : Nat) : State :=
  let n := (groupsOf s h).length
  each ((List.range n).map (fun j => (i + 1 + j) % n)) s (fun j s =>
    match (groupsOf s h)[j]? with
    | none => s
    | some g => if mayReturn s h g then setGroup s h j { g with image := .restoring, prog := [] } else s)

/-- The steps of a group's cores in their hubs. -/
def groupJobs (s : State) (g : Group) : Tab Hub :=
  (g.cores.map clusterOf).foldl (fun t h => put t h { Hub.fresh with
    merges := (hubOf s h).merges.filter (fun j => g.cores.contains j.core)
    copies := (hubOf s h).copies.filter (fun j => g.cores.contains j.core) }) []

/-- R501 step 10: release the cores of a group. -/
def releaseCores (s : State) (g : Group) : State :=
  let s := each g.cores s (fun c s =>
    let s := setCore s c { Core.fresh with nextTag := (coreOf s c).nextTag, ends := closedEnds (coreOf s c) }
    each (List.range 4) s (fun i s => setEng s (engineOf c i) .fresh))
  each (g.cores.map clusterOf) s (fun h s => setHub s h { hubOf s h with
    merges := (hubOf s h).merges.filter (fun j => !(g.cores.contains j.core))
    copies := (hubOf s h).copies.filter (fun j => !(g.cores.contains j.core)) })

/-- R505: the images of a group whose cores are listed go to state 5, and are counted. -/
def failImages (s : State) (h : Nat) (g : Group) (cores : List Nat) : State :=
  bump (each cores s (fun c s => headState s g c 5 (bitsOf (headOf s g c) 24 3))) ctrSliceImagesFailed h cores.length

/-- R502: the endpoints of a group's cores are parked, or no longer. -/
def parkEnds (s : State) (g : Group) (on : Bool) : State :=
  each g.cores s (fun c s => setCore s c { coreOf s c with ends := (coreOf s c).ends.map (fun e => (e.1, { e.2 with parked := on && e.2.isOpen })) })

/-- R502: what was parked for the cores of a group finds its place. -/
def unpark (s : State) (cores : List Nat) : State :=
  each ((cores.map regionOf).eraseDups) s (fun r s =>
    let mine := (regOf s r).parked.filter (fun m => cores.contains m.dst)
    let s := setReg s r { regOf s r with parked := (regOf s r).parked.filter (fun m => !(cores.contains m.dst)) }
    each mine s (fun m s => match m.body with
      | .user tag epoch words poison => deliverUser s m tag epoch words poison
      | .orphan gen kind detail => deliverNotice s m gen kind detail
      | _ => s))

/-- R282: the stall windows of a group's configured regions are abandoned. -/
def dropWindows (s : State) (h : Nat) (g : Group) : State :=
  each g.configs s (fun k s => setConf s h k { confOf s h k with window := none })

/-- R501: a slot of a group whose images are written is STOPPED; it was in state `st`. -/
def stoppedSlot (v : Slot) : Slot := if activeState v.state then { v with state := .stopped, stopping := false } else v

/-- R501 steps 7 and 8 begin: the group is quiet; its endpoints are parked, its slots STOPPED, and its images in state 1. -/
def beginImages (s : State) (h i : Nat) (g : Group) : State :=
  let s := setGroup (dropWindows s h g) h i { g with
    saved := g.cores.foldl (fun t c => put t c (coreOf s c)) []
    prog := g.cores.foldl (fun t c => put t c (0, 0)) [] }
  let s := each g.cores (parkEnds s g true) (fun c s =>
    setCore s c { coreOf s c with slots := (coreOf s c).slots.map (fun v => (v.1, stoppedSlot v.2)) })
  each g.cores s (fun c s => imagePut s g c 0 (imageHeader s 1 c (imageSaves s g c) 0 false))

/-- R505: a save that cannot write an image: the image goes to state 5, and the group stays STOPPED on its cores. -/
def failSave (s : State) (h i : Nat) (g : Group) : State :=
  let bad := g.cores.filter (fun c => (look g.prog c (0, 0)).1 = 6)
  let s := failImages s h g (if g.prog.isEmpty then g.cores else bad)
  let s := each g.cores (dropWindows s h g) (fun c s =>
    setCore s c { coreOf s c with slots := (coreOf s c).slots.map (fun v => (v.1, stoppedSlot v.2)) })
  unpark (setGroup (parkEnds s g false) h i { g with image := .failed, prog := [], saved := [] }) g.cores

/-- R491, R505: an access to an image that halts now may go on later: its page is under migration. -/
def imageWaits (s : State) (g : Group) (c off : Nat) : Bool :=
  g.pool.any (fun pool => (reachNow s .furelo (pool + g.cores.idxOf c * 2 ^ 23 + off) 1 true).1 = .fault 0x83)

/-- Where the copying of a core stands. -/
def setProg (s : State) (h i c : Nat) (at_ : Nat × Nat) : State :=
  match (groupsOf s h)[i]? with
  | none => s
  | some g => setGroup s h i { g with prog := put g.prog c at_ }

/-- R501 step 8, R502, R505: the next section of a core goes into its image, as far as its pages can be reached. -/
def saveSection (s : State) (h i c : Nat) : State :=
  match (groupsOf s h)[i]? with
  | none => s
  | some g =>
    let at_ := look g.prog c (5, 0)
    if 5 ≤ at_.1 then s
    else
      let r := putPieces g c at_.1 s.free (piecesFrom at_.1 at_.2) { s with free := s.free + 1 }
      match r.2 with
      | none =>
        let t := setProg (headAt r.1 g c (at_.1 + 1) 0) h i c (at_.1 + 1, 0)
        if at_.1 = 4 then unpark t [c] else t
      | some p =>
        let t := headAt r.1 g c at_.1 (p * 65536)
        setProg t h i c (if imageWaits t g c (sectionOff at_.1 + p * 65536) then (at_.1, p * 65536) else (6, 0))

/-- R501 steps 9 and 10: the images are in state 2 and the cores released. -/
def endImages (s : State) (h i : Nat) (g : Group) : State :=
  let s := each g.cores s (fun c s =>
    let s := countSave s g c
    imagePut s g c 0 (imageHeader s 2 c (imageSaves s g c) (imageCheck s g c) (savesPoison s c)))
  let was (c k : Nat) (v : Slot) : Slot :=
    if v.state = .stopped then { v with state := (look (look g.saved c .fresh).slots k v).state } else v
  let body (c : Nat) : Core := { coreOf s c with
    slots := (coreOf s c).slots.map (fun v => (v.1, was c v.1 v.2))
    ends := (coreOf s c).ends.map (fun e => (e.1, { e.2 with parked := false })) }
  let g' := { g with
    image := .saved, resident := false, prog := []
    saved := g.cores.foldl (fun t c => put t c (body c)) []
    engs := (g.cores.flatMap (fun c => (List.range 4).map (engineOf c))).foldl (fun t e => put t e (engOf s e)) []
    jobs := groupJobs s g }
  let s := unpark (bump (releaseCores (setGroup s h i g') g) ctrSliceSaves h 1) g.cores
  if g.byHost then startRestores s h i else startRestores (bump s ctrSliceSwitches h 1) h i

/-- R501 steps 6 to 10: once the group is quiet, each row of a save's completion takes it one point of R504 further: its images
are begun, then written section by section, then complete (DESIGN CHOICE, log entry 44: the table of commands has one row). -/
def endSave (s : State) (h i : Nat) : State :=
  match (groupsOf s h)[i]? with
  | none => s
  | some g =>
    if g.image ≠ .saving then s
    else if g.prog.isEmpty then
      (if g.cores.any (coreBusy s) || packetsWithin s g then s
       else if g.cores.all (fun c => (imageAt s g c 0).isSome) then beginImages s h i g
       else if g.cores.any (fun c => imageWaits s g c 0) then s else failSave s h i g)
    else if g.prog.all (fun e => e.2.1 = 5) then endImages s h i g
    else
      let s := each g.cores s (fun c s => saveSection s h i c)
      match (groupsOf s h)[i]? with
      | some g => if g.prog.any (fun e => e.2.1 = 6) then failSave s h i g else s
      | none => s

/-! ## Restoring, R503 -/

/-- R503 step 1: an image that may be restored. -/
def imageGood (s : State) (g : Group) (c : Nat) : Bool :=
  let hd := natOf (imageRead s g c 0 32)
  imageReachable s g c && onlyFields hd [(0, 22), (24, 3), (32, 16), (64, 192)] && bitsOf hd 0 3 = 2 && bitsOf hd 4 12 = c && coreUsable s c && bitsOf hd 224 32 = imageCheck s g c

/-- R397: a stream that comes back fetches again what it had staged, and starts from there (R354). What a lane has supplied
and what the vector unit has handed over stay (log entry 106). -/
def refetched (t : Stream) : Stream :=
  if stForm t.desc = 2 || stSel t.desc = 3 then t else { t with
    staged := [], drawn := [], since := t.done, fetched := if t.resume.isSome then t.fetched else t.done }

/-- R503 steps 2 and 5: a core comes back, its memory and operand buffers first; `stopped` after `ctx.restore`. -/
def restoreCore (s : State) (g : Group) (stopped : Bool) (c : Nat) : State :=
  let s := each (List.range 4) s (fun j s =>
    let e := look g.engs (engineOf c j) .fresh
    setEng s (engineOf c j) { e with tile0 := tileBack s g c j 0 e.tile0, tile1 := tileBack s g c j 1 e.tile1 })
  let co := lanesBack s g c (look g.saved c .fresh)
  let comes (v : Slot) : Slot :=
    let v := { v with strms := v.strms.map (fun t => (t.1, refetched t.2)), syncs := v.syncs.filter (fun y => !y.retry) }
    if activeState v.state then { v with state := if stopped then .stopped else .ready, stopping := false } else v
  setCore s c { co with
    slots := co.slots.map (fun v => (v.1, comes v.2)), nextTag := (coreOf s c).nextTag
    ends := (co.ends.filter (·.2.isOpen)).foldl (fun t e => put t e.1 { e.2 with parked := false }) (coreOf s c).ends }

/-- R503: what halted a step for a time is over. -/
def unpause (h : Option Halt) : Option Halt := h.bind (fun x => if isPaused x then none else some x)

/-- R369, R227, R503: the copies and merges of a core that comes back take up their work again from their descriptors. -/
def wakeJobs (s : State) (c : Nat) : State :=
  let h := clusterOf c
  let mine (j : CopyJob) : Bool := j.core = c
  let wake (l : List CopyJob) : List CopyJob := l.map (fun j => if mine j then { j with halt := unpause j.halt } else j)
  let s := each [Unit.coreCopy c, .hubCopy h] s (fun u s =>
    let s := restartJobs s u mine
    setJobs s u (wake (jobsOf s u)))
  setHub s h { hubOf s h with merges := (hubOf s h).merges.map (fun j =>
    if j.core = c then { restartMerge j with halt := unpause j.halt } else j) }

/-- Let every unit of a core go on. -/
def wakeCore (s : State) (c : Nat) : State :=
  let s := each (List.range 4) (wakeJobs s c) (fun i s => takeReplay s (engineOf c i))
  settleCore (each (unitsOfCore s c) s (fun u s => match u with
    | .stream _ _ _ => resumeUnit s u isPaused
    | _ => pumpUnit s u)) c

/-- R503 step 1, R505: a restore that is refused, or that cannot go on: the headers return to state 2, and the group stays saved
out. What was parked for it goes into its images (R502). -/
def dropRestore (s : State) (h i : Nat) : State :=
  match (groupsOf s h)[i]? with
  | none => s
  | some g =>
    if g.image ≠ .restoring then s
    else
      let s := if g.prog.isEmpty then s else each g.cores s (fun c s => headState s g c 2 0)
      unpark (setGroup s h i { g with image := .saved, prog := [] }) g.cores

/-- R503 step 2 begins: each header is written with state 3. -/
def beginRestore (s : State) (h i : Nat) (g : Group) : State :=
  setGroup (each g.cores s (fun c s => headState s g c 3 4)) h i { g with prog := g.cores.foldl (fun t c => put t c (5, 0)) [] }

/-- R502, R503 step 2, R505: the next section of a core comes out of its image, from the last to the first, as far as its pages
can be reached. -/
def restoreSection (s : State) (h i c : Nat) : State :=
  match (groupsOf s h)[i]? with
  | none => s
  | some g =>
    let at_ := look g.prog c (0, 0)
    if at_.1 = 0 || 6 ≤ at_.1 then s
    else
      let n := at_.1 - 1
      let r := takePieces g c n (piecesFrom n at_.2) s
      match r.2 with
      | none =>
        let t := setProg (headAt r.1 g c (n - 1) 0) h i c (n, 0)
        if n = 4 then unpark t [c] else t
      | some p =>
        let t := headAt r.1 g c n (p * 65536)
        setProg t h i c (if imageWaits t g c (sectionOff n + p * 65536) then (at_.1, p * 65536) else (6, 0))

/-- R503 steps 3 to 5: the headers return to state 2, the endpoints are open and the slots go on. -/
def finishRestore (s : State) (h i : Nat) (g : Group) : State :=
  let s := each g.cores s (fun c s => headState s g c 2 0)
  let s := each g.cores s (fun c s => restoreCore s g g.byHost c)
  let s := each g.jobs s (fun j s => setHub s j.1 { hubOf s j.1 with
    merges := (hubOf s j.1).merges ++ j.2.merges, copies := (hubOf s j.1).copies ++ j.2.copies })
  let s := setGroup s h i { g with
    image := .saved, resident := true, byHost := false, pool := none, began := s.clocks.sup, prog := [], saved := [], engs := [], jobs := [] }
  let s := each g.configs s (fun k s => setConf s h k { confOf s h k with counted := 0 })
  let s := each g.cores (unpark (bump s ctrSliceRestores h 1) g.cores) (fun c s => wakeCore s c)
  each g.configs s (fun k s => watchStall s h k)

/-- R503: each row of a restore's completion takes it one point of R504 further: its images are checked and marked, then read
section by section, then its slots go on (DESIGN CHOICE, log entry 44). -/
def endRestore (s : State) (h i : Nat) : State :=
  match (groupsOf s h)[i]? with
  | none => s
  | some g =>
    if g.image ≠ .restoring then s
    else if g.prog.isEmpty then
      (if g.cores.all (imageGood s g) then beginRestore s h i g else dropRestore s h i)
    else if g.prog.all (fun e => e.2.1 = 0) then finishRestore s h i g
    else
      let s := each g.cores s (fun c s => restoreSection s h i c)
      match (groupsOf s h)[i]? with
      | some g => if g.prog.any (fun e => e.2.1 = 6) then dropRestore s h i else s
      | none => s

/-- R495: the periods of a slice's groups end. -/
def endPeriods (s : State) (h : Nat) : State :=
  match look? s.slices h with
  | none => s
  | some l => each l.groups.zipIdx s (fun e s => if sliceDue s l e.1 then beginSave s h e.2 none false else s)

/-- A time-slice period ends, R495. -/
def execTimeSliceEnd (handle : Nat) (s : State) : Host.Outcome State Fault Refusal := .next (endPeriods s handle)
/-- A save completes, R501. -/
def execSaveComplete (handle group : Nat) (s : State) : Host.Outcome State Fault Refusal := .next (endSave s handle group)
/-- A restore completes, R503. -/
def execRestoreComplete (handle group : Nat) (s : State) : Host.Outcome State Fault Refusal := .next (endRestore s handle group)

end Sys2Proof.Machine
end

