-- ==== Sys2Proof/Machine/Trains.lean ====
section
/-! DEFINITION. Trains and the access schedule of a Rolben port (10_rolben.md R520 to R569). -/

namespace Sys2Proof.Machine

/-! ## Times, R523, R527 -/

/-- Port-counter ticks in a microsecond. -/
def portUs : Nat := 1250
/-- R527: L_max. -/
def lMax : Nat := 1250
/-- R527: a contention or entry window. -/
def windowTicks (entry : Bool) : Nat := if entry then 400 else 3200
/-- R527. -/
def startTolerance : Nat := 313

/-- R524, R526: a port's loopback delay in ticks of its counter, the nanoseconds rounded down (DESIGN CHOICE, log entry 115). -/
def loopTicks (p : RolPort) : Nat := p.loopback * 5 / 4

/-- The port's counter. -/
def portNow (s : State) (port : Nat) : Nat := look s.clocks.port port 0

/-! ## Bytes of rows and trains, R541, R542, R545 -/

/-- R542: bytes of a row's payload in the train. -/
def rowPadded (r : Row) : Nat := roundUp r.payload.length 8
/-- R542: bytes of its poison bitmap. -/
def rowMapBytes (r : Row) : Nat := if r.poison.any id then roundUp (ceilDiv (ceilDiv r.payload.length 8) 8) 8 else 0
/-- R542: bytes of a row. -/
def rowSize (r : Row) : Nat := 32 + rowPadded r + rowMapBytes r

/-- R542: a row's header. -/
def rowHead (r : Row) : Nat :=
  r.kind + bn (r.poison.any id) * 2 ^ 4 + r.hops * 2 ^ 5 + r.origin * 2 ^ 8 + r.final * 2 ^ 24 + r.mask.toNat * 2 ^ 64 +
  r.addr * 2 ^ 96 + r.payload.length * 2 ^ 160 + r.e2e * 2 ^ 192 + r.aux.toNat * 2 ^ 224

/-- R542: the bytes of a row. -/
def putRow (r : Row) : List Byte :=
  let map_ := natOf (packBits 1 ((List.range (ceilDiv r.payload.length 8)).map (fun i => bn (r.poison.getD i false))))
  bytesOf 32 (rowHead r) ++ fit r.payload (rowPadded r) ++ bytesOf (rowMapBytes r) map_

/-- R542, R25: a row header that decodes. -/
def rowHeadOk (h : Nat) : Bool :=
  onlyFields h [(0, 7), (8, 14), (24, 14), (64, 32), (96, 64), (160, 21), (192, 32), (224, 32)] && decide (bitsOf h 160 21 ≤ 1048544)

/-- R542: a row read from its header and what follows it, with its size. -/
def getRow (flagged strict : Bool) (l : List Byte) : Row × Nat :=
  let h := natOf (l.take 32)
  let n := bitsOf h 160 21
  let words := ceilDiv n 8
  let map_ := if bitAt h 4 then roundUp (ceilDiv words 8) 8 else 0
  let bits := natOf (sub l (32 + roundUp n 8) map_)
  ({ kind := bitsOf h 0 4, hops := bitsOf h 5 2, origin := bitsOf h 8 14, final := bitsOf h 24 14,
     mask := BitVec.ofNat 32 (bitsOf h 64 32), addr := bitsOf h 96 64, e2e := bitsOf h 192 32,
     aux := BitVec.ofNat 32 (bitsOf h 224 32), payload := sub l 32 n,
     poison := (List.range words).map (fun i => bitAt bits i), flagged := flagged, strict := strict, owners := [],
     source := none }, 32 + roundUp n 8 + map_)

/-- The rows of a body, each with the place of its payload; none when a row header does not decode. Fuel is n_rows. -/
def getRows (flagged strict : Bool) (l : List Byte) : Nat → Nat → Option (List (Row × Nat))
  | 0, _ => some []
  | n + 1, at_ =>
    let l' := l.drop at_
    if l'.length < 32 || !(rowHeadOk (natOf (l'.take 32))) then none
    else
      let r := getRow flagged strict l'
      if l'.length < r.2 then none
      else (getRows flagged strict l n (at_ + r.2)).map (fun t => (r.1, at_ + 32) :: t)

/-- R528: the domain tag of a membership key. -/
def domainTag (key : List Byte) : BitVec 32 := BitVec.ofNat 32 (natOf ((sha384 key).take 4))

/-- A mask of member indices. -/
def maskOf (l : List Nat) : Nat := (l.eraseDups.map (fun m => 2 ^ m)).sum
/-- The member indices of a mask. -/
def membersOf (m : Nat) : List Nat := (List.range 32).filter (fun i => bitAt m i)

/-- R541: ack_mask and ack_seq: the last pair_seq applied in order of each sender. -/
def ackFields (p : RolPort) : Nat :=
  maskOf (keys p.expect) * 2 ^ 160 + (p.expect.map (fun e => (e.2 + 2 ^ 24 - 1) % 2 ^ 24 * 2 ^ (1024 + 24 * e.1))).sum

/-- R541: a train's header. -/
def trainHead (s : State) (p : RolPort) (seqs : Tab Nat) (again flagged strict : Bool) (body rows : Nat) : List Byte :=
  let v := 1 + p.member * 2 ^ 8 + bn again * 2 ^ 13 + bn flagged * 2 ^ 14 + bn strict * 2 ^ 15 + s.fabric.moduleId * 2 ^ 16 +
    s.fabric.domain.toNat * 2 ^ 32 + maskOf (keys seqs) * 2 ^ 64 + body * 2 ^ 96 + rows * 2 ^ 128 + ackFields p +
    (seqs.map (fun e => e.2 * 2 ^ (256 + 24 * e.1))).sum
  let head := bytesOf 224 v
  head ++ bytesOf 4 (crc32c head) ++ List.replicate 28 0

/-- R545: a train's trailer. -/
def trainTail (head body : List Byte) (next : Option Nat) (more ackReq : Bool) (pending : Nat) : List Byte :=
  let low := bytesOf 8 ((next.getD 0x3F) + bn more * 64 + bn ackReq * 128 + pending * 2 ^ 32)
  let part := low ++ bytesOf 4 (crc32c low)
  part ++ bytesOf 4 (crc32 (head ++ body ++ part)) ++ List.replicate 48 0

/-! ## Assembling, R547 to R549 -/

/-- R548: two write rows that merge. -/
def rowsMerge (a b : Row) : Bool :=
  a.kind = 0 && b.kind = 0 && a.e2e = 0 && b.e2e = 0 && a.source.isSome && a.source = b.source &&
  a.payload.length = b.payload.length && gaSpace a.addr = gaSpace b.addr && gaOff a.addr = gaOff b.addr &&
  a.flagged = b.flagged && a.strict = b.strict && a.hops = b.hops

/-- R548: put a row behind the queued ones, merged where it can be; the Bool says it was. -/
def mergeRow_ : List Row → Row → List Row × Bool
  | [], r => ([r], false)
  | a :: t, r =>
    if rowsMerge a r then ({ a with
      mask := a.mask ||| r.mask, owners := a.owners ++ r.owners, handles := (a.handles ++ r.handles).eraseDups } :: t, true)
    else
      let q := mergeRow_ t r
      (a :: q.1, q.2)

/-- R547: rows taken for one train: at most 1,048,576 bytes and 4,095 rows. -/
def takeRows : Nat → Nat → List Row → List Row × List Row
  | _, _, [] => ([], [])
  | bytes, n, r :: t =>
    if bytes + rowSize r ≤ 1048576 && n < 4095 then
      let q := takeRows (bytes + rowSize r) (n + 1) t
      (r :: q.1, q.2)
    else ([], r :: t)

/-- The tag by which a row of Furelo's own carries its access of R347 (that of a read of `admit.load` is the slice's handle). -/
def farTag (id : Nat) : Nat := 2 ^ 32 + id

/-- R567: a unit whose rows meet a lost pair halts as if by a fence; an access of Furelo's is made again when its command goes on. -/
def haltOwners (s : State) (l : List (Unit × Nat × Nat)) : State := each l s (fun o s =>
  if o.1 = .furelo then
    { s with fabric := { s.fabric with far := s.fabric.far.filter (fun g => farTag g.id ≠ o.2.1 || g.answer.isSome) } }
  else haltUnit s o.1 o.2.1 .fence)

/-- Rows for a lost pair are let go, and their units halt. -/
def dropLost (s : State) (port : Nat) : State :=
  let p := portOf s port
  let lost (m : Nat) : Bool := p.lost.contains m
  let gone := (p.queue.map (fun r => r.owners.filter (fun o => lost o.2.2))).flatten
  let keep_ := (p.queue.map (fun r => { r with
    owners := r.owners.filter (fun o => !(lost o.2.2))
    mask := BitVec.ofNat 32 (maskOf ((membersOf r.mask.toNat).filter (fun m => !(lost m)))) })).filter (fun r => r.mask ≠ 0)
  haltOwners (setPort s port { p with queue := keep_ }) gone

/-- R547, R549: the rows that may join the train of the first one: those queued in its 2 µs and, so that nothing is passed, up to
one of the other strictness (DESIGN CHOICE, log entry 115). -/
def trainRows (l : List Row) : List Row :=
  match l with
  | [] => []
  | first :: _ => l.takeWhile (fun r => r.strict = first.strict && decide (r.queuedAt < first.queuedAt + 2 * portUs))

/-- R548: rows with those that merge put together, and how often. -/
def mergeRows (l : List Row) : List Row × Nat :=
  l.foldl (fun a r => (mergeRow_ a.1 r).1 |> fun l => (l, a.2 + bn (mergeRow_ a.1 r).2)) ([], 0)

/-- R547: a train is assembled from the queued rows once its window has closed or the body is full. -/
def assemble (s : State) (port : Nat) : State :=
  let s := dropLost s port
  let p := portOf s port
  match p.queue with
  | [] => s
  | first :: _ =>
    let mine := trainRows p.queue
    let merged := mergeRows mine
    let q := takeRows 0 0 merged.1
    if !p.joined || (q.2.isEmpty && !(windowOver (portNow s port) first.queuedAt (2 * portUs))) then s
    else
      let members := membersOf ((q.1.map (·.mask.toNat)).foldl Nat.lor 0)
      let seqs := members.map (fun m => (m, look p.sendSeq m 0))
      let t : Train := { seqs := seqs, rows := q.1, flagged := q.1.any (·.flagged), strict := first.strict, first := 0,
                         last := [], tries := [], waiting := members }
      let left := q.2 ++ p.queue.drop mine.length
      let p := { p with
        queue := left, queueAt := (left.head?).elim p.queueAt (·.queuedAt), ready := p.ready ++ [t]
        sendSeq := members.foldl (fun u m => put u m ((look u m 0 + 1) % 2 ^ 24)) p.sendSeq }
      bump (setPort s port p) ctrFabMerged (dieOfPort port) merged.2

/-! ## Speaking, R554 to R560 -/

/-- R564: a train that may go out now, or a retransmission. -/
def hasTrain (p : RolPort) : Bool := !p.resend.isEmpty || (!p.ready.isEmpty && decide (p.retained.length < 16))

/-- R559: the member wants to send. -/
def wantTrain (p : RolPort) : Bool := hasTrain p || p.wantNull

/-- R554: the lowest member after `own`, cyclically and ending at itself, of a mask. -/
def nextAfter (own mask : Nat) : Option Nat := ((List.range 32).map (fun i => (own + 1 + i) % 32)).find? (fun m => bitAt mask m)

/-- The members that have not acknowledged a train of a port. -/
def unackedBy (p : RolPort) : List Nat := ((p.retained.map (·.waiting)).flatten).eraseDups

/-- R545, R554, R560, R540: send a train at a value of the port's counter: `p` already holds what follows from sending it. Trains
that wait for one of the 16 places are further trains. -/
def speak (s : State) (port at_ : Nat) (p : RolPort) (seqs : Tab Nat) (again flagged strict : Bool) (rows : List Row) : State :=
  let more := !p.resend.isEmpty || !p.ready.isEmpty
  let ackReq := decide (16 ≤ p.retained.length) || (!more && !p.retained.isEmpty)
  let pend := maskOf ((membersOf p.pending.toNat).filter (· ≠ p.member) ++ (if more then [p.member] else []) ++
    (if ackReq then unackedBy p else []))
  let body := (rows.map putRow).flatten
  let head := trainHead s p seqs again flagged strict body.length rows.length
  let tail := trainTail head body (nextAfter p.member pend) more ackReq pend
  emit (setPort s port { p with wantNull := false, owed := [], sentOwed := p.owed, sentNull := p.wantNull })
    (.train port at_ (head ++ body ++ tail))

/-- R565, R567: a retransmission that is still wanted: after 8 attempts the pair is lost, and there is no ninth. -/
def stillWanted (p : RolPort) (x : Nat × Nat) : Bool :=
  p.retained.any (fun t => t.waiting.contains x.1 && look? t.seqs x.1 = some x.2 && decide (look t.tries x.1 0 < 8))

/-- R559, R564, R565, R569: the port sends a retransmission, its next train, or a null train; only null trains through a
module compute reset. -/
def transmit (s : State) (port at_ : Nat) : State :=
  let p := portOf s port
  let p := { p with resend := p.resend.filter (stillWanted p) }
  let now := portNow s port
  if s.sup.resetting then speak (bump s ctrPortNulls port 1) port at_ { p with sending := some none } [] false false false []
  else match p.resend with
  | (m, seq) :: rest =>
    let p := { p with resend := rest, sending := some none }
    let mine (t : Train) : Bool := t.waiting.contains m && look? t.seqs m = some seq
    (match p.retained.find? mine with
    | none => setPort s port p
    | some t =>
      let t' := { t with last := put t.last m now, tries := put t.tries m (look t.tries m 0 + 1) }
      let p := { p with retained := onFirst mine (fun _ => t') p.retained }
      speak (bump s ctrPortRetransmitted port 1) port at_ p [(m, seq)] true t.flagged t.strict
        (t.rows.filter (fun r => bitAt r.mask.toNat m)))
  | [] =>
    match p.ready with
    | t :: rest =>
      if p.retained.length < 16 then
        let t' := { t with first := now, last := t.waiting.map (fun m => (m, now)), tries := t.waiting.map (fun m => (m, 1)) }
        speak (bump s ctrPortSent port 1) port at_ { p with ready := rest, retained := p.retained ++ [t'], sending := some (some t.seqs) }
          t.seqs false t.flagged t.strict t.rows
      else speak (bump s ctrPortNulls port 1) port at_ { p with sending := some none } [] false false false []
    | [] => speak (bump s ctrPortNulls port 1) port at_ { p with sending := some none } [] false false false []

/-! ## Windows, R551 to R558 -/

/-- R547, R565: the body bytes of the train a port would send next. -/
def nextBody (p : RolPort) : Nat :=
  match p.resend with
  | (m, seq) :: _ =>
    (((p.retained.find? (fun t => t.waiting.contains m && look? t.seqs m = some seq)).elim [] (·.rows)).filter
      (fun r => bitAt r.mask.toNat m)).map rowSize |>.sum
  | [] => if p.retained.length < 16 then ((p.ready.head?).elim [] (·.rows)).map rowSize |>.sum else 0

/-- R550: a reservation burst. -/
def burstRecord (s : State) (p : RolPort) (now : Nat) : List Byte :=
  let l := bytesOf 60 (0xA5 + p.member * 2 ^ 8 + s.fabric.moduleId * 2 ^ 16 + s.fabric.domain.toNat * 2 ^ 32 +
    nextBody p * 2 ^ 64 + now % 2 ^ 32 * 2 ^ 96)
  l ++ bytesOf 4 (crc32c l)

/-- R551: what a slot shows: empty, a collision, or a clean burst and its sender. -/
inductive SlotClass where
  | empty
  | collision
  | clean (member : Nat)
  deriving DecidableEq, Repr

/-- R550: a burst's record passes its check. -/
def burstOk (b : Nat) : Bool :=
  bitsOf b 0 8 = 0xA5 && bitsOf b 13 3 = 0 && bitsOf b 30 2 = 0 && bitsOf b 85 11 = 0 && bitsOf b 128 352 = 0 &&
  bitsOf b 480 32 = crc32c (bytesOf 60 (b % 2 ^ 480))

/-- R531: a transmission of a domain tag, member and module is a stranger's. -/
def stranger (s : State) (p : RolPort) (tag member module : Nat) : Bool :=
  tag ≠ s.fabric.domain.toNat || look? p.table member ≠ some module

/-- R531: record a stranger. -/
def noteStranger (p : RolPort) (now tag member module : Nat) : RolPort :=
  let same (x : Stranger) : Bool := x.module = module && x.tag.toNat = tag && x.member = member
  let fresh : Stranger := { module := module, tag := BitVec.ofNat 32 tag, member := member, count := 1, seen := now }
  if p.strangers.any same then
    { p with strangers := onFirst same (fun x => { x with count := min (x.count + 1) (2 ^ 32 - 1), seen := now }) p.strangers }
  else if p.strangers.length < 16 then { p with strangers := p.strangers ++ [fresh] }
  else
    let oldest := p.strangers.foldl (fun a x => min a x.seen) now
    { p with strangers := onFirst (fun x => decide (x.seen = oldest)) (fun _ => fresh) p.strangers }

/-- R551: the burst of a slot, given as the 512 bits that each lane on which light was seen showed: at least 5 copies pass their
check, and all that pass are identical. -/
def slotBurst (lanes : List Nat) : Option Nat :=
  let good := lanes.filter burstOk
  good.head?.filter (fun b => decide (5 ≤ good.length) && good.all (· = b))

/-- R531: a burst is a stranger's. -/
def strangeBurst (s : State) (p : RolPort) (b : Nat) : Bool := stranger s p (bitsOf b 32 32) (bitsOf b 8 5) (bitsOf b 16 14)

/-- R551: the class of a slot; a stranger's burst leaves it empty. -/
def slotClass (s : State) (p : RolPort) (lanes : List Nat) : SlotClass :=
  if lanes.isEmpty then .empty
  else match slotBurst lanes with
    | none => .collision
    | some b => if strangeBurst s p b then .empty else .clean (bitsOf b 8 5)

/-- Note the strangers among the bursts of a window. -/
def windowStrangers (s : State) (port : Nat) (slots : List (List Nat)) : State :=
  each (slots.filterMap slotBurst) s (fun b s =>
    let p := portOf s port
    if strangeBurst s p b then
      bump (setPort s port (noteStranger p (portNow s port) (bitsOf b 32 32) (bitsOf b 8 5) (bitsOf b 16 14)))
        ctrPortStrangers port 1
    else s)

/-- R558: a collision of the port's own burst or header: it draws a backoff. -/
def backoff (s : State) (port rand : Nat) : State :=
  let p := portOf s port
  let c := p.collisions + 1
  bumpMax (setPort s port { p with collisions := c, skip := rand % 2 ^ min c 10 }) ctrPortLongestRun port c

/-- R558: what a window does to the port's own burst, when it sent one, or to its backoff. -/
def ownBurst (s : State) (port : Nat) (mine : Option SlotClass) (rand : Nat) : State :=
  let p := portOf s port
  match mine with
  | some (.clean _) => setPort s port { p with collisions := 0 }
  | some _ => backoff (bump s ctrPortOwnCollided port 1) port rand
  | none => if p.skip = 0 then s else bump (setPort s port { p with skip := p.skip - 1 }) ctrPortSkipped port 1

/-- The classes of a window's slots, counted. -/
def countSlots (s : State) (port : Nat) (cls : List SlotClass) : State :=
  each cls s (fun c s => bump s (match c with
    | .empty => ctrPortEmpty
    | .collision => ctrPortCollision
    | .clean _ => ctrPortClean) port 1)

/-- The senders of the clean slots, in slot order. -/
def cleanSenders (cls : List SlotClass) : List Nat := cls.filterMap (fun c => match c with
  | .clean m => some m
  | _ => none)

/-- A port that takes part in access. -/
def portLive (p : RolPort) : Bool := p.joined && p.edgeSeen && !p.quiet

/-- The part both windows share: the classes seen, and the state after strangers, counts and backoff. The port's own burst left L
before the others observe its slot (R526), and it carries that time (R550). -/
def windowSeen (s : State) (port n : Nat) (slots : List (List Nat)) (mine rand : Nat) : List SlotClass × State :=
  let p := portOf s port
  let cls := ((List.range n).map (fun k => slotClass s p (slots.getD k [])))
  let sends := wantTrain p && p.skip = 0 && !p.leaving && !(p.roster && bitAt p.pending.toNat p.member)
  let k := mine % n
  let at_ := p.idleEdge + lMax + 100 * k - loopTicks p
  let s := if sends then emit s (.burst port k at_ (burstRecord s p at_)) else s
  let s := countSlots (windowStrangers s port (slots.take n)) port cls
  (cls, ownBurst s port (if sends then some (cls.getD k .empty) else none) rand)

/-- R552: a contention window ends. -/
def contentionEnd (s : State) (port : Nat) (slots : List (List Nat)) (mine rand : Nat) : State :=
  let p := portOf s port
  let start := p.idleEdge + lMax + windowTicks false
  if !portLive p || p.roster || p.await.isSome || portNow s port < start then s
  else
    let w := windowSeen s port 32 slots mine rand
    let p := portOf w.2 port
    match cleanSenders w.1 with
    | [] => setPort w.2 port { p with idleEdge := p.idleEdge + windowTicks false }
    | speaker :: rest =>
      let p := { p with named := some speaker, await := some (speaker, start),
                        pending := BitVec.ofNat 32 (maskOf (rest.filter (· ≠ speaker))) }
      let t := setPort w.2 port p
      if speaker = p.member then transmit t port (start - loopTicks p) else t

/-- R553: an entry window ends. -/
def entryEnd (s : State) (port : Nat) (slots : List (List Nat)) (mine rand : Nat) : State :=
  let p := portOf s port
  let start := p.idleEdge + lMax + windowTicks true
  match p.named with
  | none => s
  | some speaker =>
    if !portLive p || !p.roster || p.await.isSome || portNow s port < start then s
    else
      let w := windowSeen s port 4 slots mine rand
      let p := portOf w.2 port
      let p := { p with await := some (speaker, start),
                        pending := p.pending ||| BitVec.ofNat 32 (maskOf (cleanSenders w.1)) }
      let t := setPort w.2 port p
      if speaker = p.member then transmit t port (start - loopTicks p) else t

/-- R556: the segment falls back to contention; the next window's origin follows edge e. -/
def fallBack (p : RolPort) (e : Nat) : RolPort :=
  { p with roster := false, named := none, await := none, pending := 0, idleEdge := e, sending := none }

/-- R556: no preamble in the start tolerance. -/
def startSilent (s : State) (port : Nat) : State :=
  let p := portOf s port
  match p.await with
  | none => s
  | some (_, start) =>
    if portNow s port < start + startTolerance then s
    else
      let t := bump (bump s ctrPortSilent port 1) ctrPortBreaks port (bn p.roster)
      setPort t port (fallBack p (start + startTolerance - lMax))

/-- R557, R559: a train sent for the first time that collided has not been sent, and what any train that collided acknowledged is
owed still. -/
def takeBack (p : RolPort) : RolPort :=
  let p : RolPort := { p with owed := p.sentOwed ++ p.owed.filter (fun o => (look? p.sentOwed o.1).isNone), wantNull := p.wantNull || p.sentNull }
  match p.sending with
  | some (some seqs) =>
    match p.retained.find? (fun t => t.seqs = seqs) with
    | some t => { p with retained := p.retained.eraseP (fun t => t.seqs = seqs), ready := t :: p.ready }
    | none => p
  | _ => p

/-- R525, R530: an idle edge: a change of membership takes effect. -/
def atIdleEdge (p : RolPort) (now : Nat) : RolPort :=
  let table := p.nextTable.getD p.table
  { p with
    table := table, nextTable := none, idleEdge := now, edgeSeen := true
    lost := if p.nextTable.isSome then p.lost.filter (fun m => look? table m = look? p.table m) else p.lost }

/-- R556 to R558: a train header failed its check; `own` when the port was speaking. A null train that a newly joined
port sent is tried again after 0 to 100 µs (R532). -/
def trainCollides (s : State) (port : Nat) (own : Bool) (rand : Nat) : State :=
  let p := portOf s port
  let now := portNow s port
  if !p.joined then s
  else
    let t := bump (bump s ctrPortTrainCollisions port 1) ctrPortHdrFail port 1
    let mine := own && p.sending.isSome
    if mine && !p.edgeSeen then
      setPort t port { fallBack (takeBack p) now with joinAt := now + rand % (100 * portUs + 1) - 100 * portUs }
    else
      let t := setPort t port (atIdleEdge (fallBack (if mine then takeBack p else p) now) now)
      if mine then backoff t port rand else t

/-- R532: a newly joined port that heard nothing for 100 µs sends a null train. -/
def joinSilence (s : State) (port : Nat) : State :=
  let p := portOf s port
  if p.joined && !p.edgeSeen && p.sending.isNone && windowOver (portNow s port) p.joinAt (100 * portUs) then
    speak (bump s ctrPortNulls port 1) port (portNow s port) { p with sending := some none } [] false false false []
  else s

/-- R559: trains of a sender applied and unacknowledged for 250 µs make the port reserve. -/
def ackHold (s : State) (port : Nat) : State :=
  let p := portOf s port
  if p.owed.any (fun o => windowOver (portNow s port) o.2 (250 * portUs)) then setPort s port { p with wantNull := true } else s

/-- R565: trains of a member unacknowledged for 500 µs are to be sent again. -/
def resendLate (s : State) (port member : Nat) : State :=
  let p := portOf s port
  let late := p.retained.filterMap (fun t =>
    if t.waiting.contains member && windowOver (portNow s port) (look t.last member 0) (500 * portUs) then
      (look? t.seqs member).map (fun q => (member, q)) else none)
  setPort s port { p with resend := p.resend ++ late.filter (fun x => !(p.resend.contains x)) }

/-- R524: the loopback delay, in ns. -/
def measure (s : State) (port delay : Nat) : State :=
  let p := portOf s port
  if p.joined then setPort s port { p with loopback := delay } else s

/-- R554, R556: the members of a segment whose acknowledgement of a train is missing give up on it. -/
def dropWaiting (member : Nat) (l : List Train) : List Train :=
  (l.map (fun t => { t with waiting := t.waiting.filter (· ≠ member) })).filter (fun t => !t.waiting.isEmpty)

/-- R567: the pair is lost: 8 attempts of a train have failed, or it is 4 ms old. -/
def losePair (s : State) (port member : Nat) : State :=
  let p := portOf s port
  let now := portNow s port
  let over_ (t : Train) : Bool := t.waiting.contains member &&
    ((decide (8 ≤ look t.tries member 0) && windowOver now (look t.last member 0) (500 * portUs)) ||
      windowOver now t.first (4000 * portUs))
  if !(p.retained.any over_) then s
  else
    let gone := ((p.retained.filter (fun t => t.waiting.contains member)).map (fun t =>
      (t.rows.map (fun r => r.owners.filter (fun o => o.2.2 = member))).flatten)).flatten
    let p := { p with lost := addTo p.lost member, retained := dropWaiting member p.retained,
                      resend := p.resend.filter (fun x => x.1 ≠ member) }
    haltOwners (detect (bump (setPort s port p) ctrPortLost port 1) { kind := 5, id := port } 0x0F false 0) gone

/-! ## The meanings -/

/-- R552. -/
def execContentionWindowEnd (port : Nat) (slots : List (List Nat)) (mine rand : Nat) (s : State) :
    Host.Outcome State Fault Refusal := .next (contentionEnd s port slots mine rand)
/-- R553. -/
def execEntryWindowEnd (port : Nat) (slots : List (List Nat)) (mine rand : Nat) (s : State) :
    Host.Outcome State Fault Refusal := .next (entryEnd s port slots mine rand)
/-- R556. -/
def execStartToleranceExpire (port : Nat) (s : State) : Host.Outcome State Fault Refusal := .next (startSilent s port)
/-- R556, R557. -/
def execTrainCollision (port : Nat) (own : Bool) (rand : Nat) (s : State) : Host.Outcome State Fault Refusal :=
  .next (trainCollides s port own rand)
/-- R547. -/
def execTrainAssemble (port : Nat) (s : State) : Host.Outcome State Fault Refusal := .next (assemble s port)
/-- R565. -/
def execRetransmitTimeout (port member : Nat) (s : State) : Host.Outcome State Fault Refusal :=
  .next (resendLate s port member)
/-- R567. -/
def execPairLost (port member : Nat) (s : State) : Host.Outcome State Fault Refusal := .next (losePair s port member)
/-- R524. -/
def execLoopbackMeasure (port delay : Nat) (s : State) : Host.Outcome State Fault Refusal := .next (measure s port delay)
/-- R532. -/
def execJoinSilenceExpire (port : Nat) (s : State) : Host.Outcome State Fault Refusal := .next (joinSilence s port)
/-- R559. -/
def execAckHoldExpire (port : Nat) (s : State) : Host.Outcome State Fault Refusal := .next (ackHold s port)

end Sys2Proof.Machine
end

