-- ==== Sys2Proof/Machine/Fabric.lean ====
section
/-! DEFINITION. What arrives over the Rolben fabric: trains, their rows and fabric landing slots (10_rolben.md R539 to
R583). -/

namespace Sys2Proof.Machine

/-! ## Answers to rows -/

/-- R539 to R544: send a row back the way a row came: through the port and member that delivered it. -/
def answerRow (s : State) (port member hops : Nat) (r : Row) : State := queueTo s port member hops r

/-- R579: the counter index of a status code. -/
def statusIndex (code : Nat) : Nat := [0x00, 0x62, 0x65, 0x81, 0x82, 0x84, 0x85, 0x86, 0x90].idxOf code

/-- R575, R576: a status row. -/
def sendStatus (s : State) (port member origin code value : Nat) : State :=
  let row := { mkRow s 6 origin 0 (bytesOf 8 value) [] .fabric 0 with owners := [], aux := BitVec.ofNat 32 code }
  answerRow (bump s (ctrFabStatus.plus (statusIndex code)) (dieOfPort port) 1) port member 1 row

/-- R575: the end-to-end acknowledgement due to an origin. -/
def sendE2e (s : State) (origin : Nat) : State :=
  match look? s.fabric.e2eIn origin with
  | none => s
  | some e =>
    let t := sendStatus s (e.via / 32) (e.via % 32) origin 0 e.applied
    { t with fabric := { t.fabric with e2eIn := put t.fabric.e2eIn origin { e with unacked := 0 } } }

/-- R575: the rows beyond the last in order that follow it without a gap are in order too. Fuel is their number. -/
def inOrder : Nat → E2e → E2e
  | 0, e => e
  | f + 1, e =>
    match look? e.ahead ((e.seen + 1) % 2 ^ 32) with
    | none => e
    | some ok =>
      let n := (e.seen + 1) % 2 ^ 32
      inOrder f { e with seen := n, ahead := cut e.ahead n, applied := if ok then n else e.applied }

/-- R575: a relayed row has been applied, or refused: a refused one is passed over in the order, and never acknowledged. -/
def noteE2e (s : State) (port member : Nat) (r : Row) (ok : Bool) : State :=
  if r.e2e = 0 then s
  else
    let e := look s.fabric.e2eIn r.origin { applied := 0, unacked := 0, since := 0, via := 0 }
    let e := { e with ahead := put e.ahead r.e2e ok, via := port * 32 + member }
    let e := inOrder e.ahead.length e
    let e := if !ok then e else { e with
      unacked := e.unacked + 1
      since := if e.unacked = 0 then portNow s port else e.since, clock := if e.unacked = 0 then port else e.clock }
    let t := { s with fabric := { s.fabric with e2eIn := put s.fabric.e2eIn r.origin e } }
    if 64 ≤ e.unacked then sendE2e t r.origin else t

/-- R576: the code a refused access gets. -/
def refusalOf : Reach → Nat
  | .fault c => c
  | .reject c => if c = 0x65 then 0x65 else 0x62
  | _ => 0x62

/-- R576: a row is refused. -/
def refuseRow (s : State) (port member : Nat) (r : Row) (code value : Nat) : State :=
  let s := if 0x81 ≤ code && code ≤ 0x86 then bump s (ctrRegionFaults.plus (code - 0x81)) 0 1 else s
  sendStatus s port member r.origin code value

/-! ## Fabric landing slots, R580 to R582 -/

/-- R580: bytes of a slot. -/
def slotBytes : Nat := 75872

/-- R580: a slot header's number of contributions expected, received, and its status. -/
def fsExpected (h : Nat) : Nat := bitsOf h 0 16
/-- R580. -/
def fsReceived (h : Nat) : Nat := bitsOf h 16 16
/-- R580. -/
def fsStatus (h : Nat) : Nat := bitsOf h 32 3
/-- R580. -/
def fsArmed (h : Nat) : Bool := bitAt h 35
/-- R580. -/
def fsEt (h : Nat) : Int := signed (bitsOf h 64 10) 10
/-- R580. -/
def fsHi (h : Nat) : Int := signed (bitsOf h 74 10) 10

/-- R25, R580: a slot header without a reserved field or status. -/
def fsClean (h : Nat) : Bool :=
  onlyFields h [(0, 36), (64, 20), (96, 106)] && decide (fsStatus h < 6)

/-- A 10-bit two's complement field. -/
def tenBits (x : Int) : Nat := (x + 1024).toNat % 1024

/-- R581: a contribution enters the header and the sum; `tile` is its tile header. R102, R103: one whose plan carries
mismatch or ovf takes the slot to status 3 or 2 (DEDUCED, log entry 108). -/
def slotAdd (h : Nat) (tile : Nat) (ws : List AccWord) (pois : Bool) (sum : List AccWord) : Nat × List AccWord :=
  let plan := thPlan tile
  let et := effectiveEt (planEt plan) (planReplay plan)
  let row := bitsOf tile 128 24
  let col := bitsOf tile 152 20
  let first := fsReceived h = 0
  let h := if first then
      setBits (setBits (setBits (setBits h 64 10 (tenBits et)) 74 10 (tenBits et)) 128 24 row) 152 20 col
    else if fsHi h < et then setBits h 74 10 (tenBits et) else h
  let status :=
    if fsStatus h ≠ 0 then fsStatus h
    else if !first && (bitsOf h 128 24 ≠ row || bitsOf h 152 20 ≠ col) then 4
    else if (!first && fsEt h ≠ et) || planMismatch plan then 3
    else if planOvf plan then 2 else 0
  let sum := if first then ws else if status = 0 then (sum.zip ws).map (fun e => addWords e.1 e.2) else sum
  let h := setBits h 32 3 status
  let h := setBits h 16 16 (min (fsReceived h + 1) 65535)
  let h := setBits h 96 32 (min (bitsOf h 96 32 + planK plan) (2 ^ 32 - 1))
  let h := setBits h 195 7 (min (bitsOf h 195 7 + bn (planPreload plan)) 127)
  (if pois || thPoison tile then setBits h 194 1 1 else h, sum)

/-- R582 steps 1 and 2: the header of a slot that has all its contributions, and its result tile. -/
def slotResult (h : Nat) (sum : List AccWord) : Nat × Option (List Byte) :=
  let k := bitsOf h 96 32
  let pre := bitsOf h 195 7
  let status := if fsStatus h ≠ 0 then fsStatus h else if 65535 < k || 1 < pre then 4
    else if sum.any wordOver then 2 else 1
  let h' := setBits (setBits h 32 3 status) 35 1 0
  if status = 1 then
    let payload := wordBytes 8 sum
    let head := mkHeader 2 0 (bitAt h 194) false false 64 64 (landPlan (fsEt h) 0 (pre ≠ 0) k sum) (bitsOf h 128 24) (bitsOf h 152 20)
      (crc32c payload) payload.length
    (h', some (head ++ payload))
  else (h', none)

/-- R582, R511: a slot completes: its header, its result tile and its semaphore. The words of a poisoned sum are poisoned in the
result tile. -/
def slotComplete (s : State) (die a h : Nat) (sum : List AccWord) (bad : List Bool)
    (put_ : Nat → List Byte → List Bool → State → State) : State :=
  let r := slotResult h sum
  let s := match r.2 with
    | some tile => put_ (a + 42048) tile (List.replicate 32 false ++ (bad.map (List.replicate 8)).flatten) s
    | none => s
  let s := put_ a (bytesOf 64 r.1) [] s
  let s := bump s ctrFabCompleted die 1
  let s := if fsStatus r.1 = 1 then s else bump s ctrFabEnded die 1
  let p := postUnit s (bitsOf h 172 6) (bitsOf h 178 16)
  if p.1 = 0 then p.2 else bump p.2 ctrFabPostsRefused die 1

/-- R581: a reduce row reaches its landing slot; the Bool says that it was not refused. -/
def reduceArrives (s : State) (port member : Nat) (r : Row) : State × Bool :=
  let die := dieOfPort port
  let q := touchAll .fabric true (pageCuts r.addr slotBytes) s
  let refuse (s : State) (code : Nat) : State × Bool := (refuseRow s port member r code r.e2e, false)
  match q.2 with
  | .inr x => refuse q.1 (refusalOf x)
  | .inl cuts =>
    let s := q.1
    let read := readPieces s cuts
    let whole := read.1
    let h := natOf (whole.take 64)
    let tile := natOf (r.payload.take 32)
    let put_ (a : Nat) (l : List Byte) (pois : List Bool) (s : State) : State :=
      let q := touchAll .fabric true (pageCuts a l.length) s
      match q.2 with
      | .inl cuts => writePieces cuts l pois q.1
      | .inr _ => q.1
    if r.addr % 64 ≠ 0 || thReserved tile || thKind tile ≠ 2 || r.payload.length ≠ 33824 || !(fsClean h) then refuse s 0x90
    else if !(fsArmed h) then
      let done := fsExpected h ≠ 0 && fsExpected h ≤ fsReceived h
      let s := if done && fsStatus h = 1 then put_ r.addr (bytesOf 64 (setBits h 32 3 5)) [] (bump s ctrFabEnded die 1) else s
      refuse s 0x90
    else
      let ws := bytesWords 8 4096 (r.payload.drop 32)
      let bad := (List.range 4096).map (fun i => r.poison.getD (4 + i) false || ((read.2.drop (64 + 10 * i)).take 10).any id)
      let n := slotAdd h tile ws (r.poison.any id || bad.any id) (bytesWords 10 4096 (sub whole 64 41984))
      let s := put_ (r.addr + 64) (wordBytes 10 n.2) (((bad.map (List.replicate 10)).flatten)) s
      let s := if fsStatus n.1 = 0 then bump s ctrFabAdded die 1 else s
      let s := put_ r.addr (bytesOf 64 n.1) [] s
      (if fsReceived n.1 = fsExpected n.1 then slotComplete s die r.addr n.1 n.2 bad put_ else s, true)

/-! ## Rows from a unit of this module that have been answered -/

/-- R347: an access of Furelo's in another module has been answered. -/
def farAnswers (s : State) (tag code : Nat) (data : List Byte) (poison : List Bool) : State :=
  let done (g : Far) : Far := { g with answer := some code, data := data, poison := poison }
  { s with fabric := { s.fabric with far := onFirst (fun g => decide (farTag g.id = tag)) done s.fabric.far } }

/-- R574: the records a row carries have been written. -/
def ownersDone (s : State) (l : List (Unit × Nat × Nat)) : State :=
  each l s (fun o s => if o.1 = .furelo then farAnswers s o.2.1 0 [] [] else pumpUnit (onSegs s o.1 (writeBack o.2.1)) o.1)

/-- The context behind a unit's request of a tag. -/
def issuerOf (s : State) (unit : Unit) (tag : Nat) : Option (Nat × Nat × Nat) :=
  match unit with
  | .stream c k _ => some (c, k, (slotOf s c k).ip)
  | .merge h => ((hubOf s h).merges.find? (fun j => j.segs.any (waitsFor tag))).map (fun j => (j.core, j.slot, j.step))
  | _ => ((jobsOf s unit).find? (fun j => j.segs.any (waitsFor tag))).map (fun j => (j.core, j.slot, j.step))

/-- R576: a step's row was refused: its slot is FAULTED. -/
def refusedStep (s : State) (unit : Unit) (code : Nat) (e : Nat × Nat × Nat) : State :=
  settleCore (noteFault (rejectStep s e.1 e.2.1 e.2.2 code e.1 0 0) e.1 e.2.1 code (unitClass unit) 0) e.1

/-- R576: the receiver refused a unit's row: it halts at that record and its slot is FAULTED. -/
def refusedUnit (s : State) (unit : Unit) (tag code : Nat) : State :=
  if unit = .furelo then farAnswers s tag code [] []
  else match issuerOf s unit tag with
  | none => s
  | some e => refusedStep (haltUnit s unit tag (.fault code 0)) unit code e

/-- R576: the owners of the one-hop writes and reduce rows to a module that their trains have not been acknowledged for, oldest
first. -/
def unackedOwners (s : State) (module : Nat) : List (Unit × Nat × Nat) :=
  (s.fabric.ports.map (fun e =>
    let p := e.2
    (p.retained.map (fun t => (t.rows.map (fun r =>
      if r.e2e = 0 && (r.kind = 0 || r.kind = 5) then
        r.owners.filter (fun o => t.waiting.contains o.2.2 && look? p.table o.2.2 = some module)
      else [])).flatten)).flatten)).flatten

/-- R576, R579: which of this module's rows a refusal concerns: a request, a relayed row, or, with neither number, the oldest
one-hop write to that module that is not acknowledged (log entry 53). -/
def refusedOwner (s : State) (module value : Nat) : Option (Unit × Nat) :=
  if value = 0 then ((unackedOwners s module).head?).map (fun o => (o.1, o.2.1))
  else match s.fabric.requests.find? (fun q => q.id = value && q.kind = 1) with
    | some q => some (q.unit, q.tag)
    | none =>
      match s.fabric.e2eOut.find? (fun r => r.final = module && r.e2e = value) with
      | some r => (r.owners.head?).map (fun o => (o.1, o.2.1))
      | none => none

/-- R538: rows that were held go out, by the route in force, once what went by the old one is acknowledged. -/
def releaseHeld (s : State) : State :=
  let l := s.fabric.heldRows
  each l { s with fabric := { s.fabric with heldRows := [] } } (fun h s =>
    let handle := h.2.handles.headD 0
    let e := routeEntry (originTab s handle) h.2.final
    sendBy s handle (if frValid e then e else h.1) h.2)

/-- R575: an e2e_seq up to another, modulo 2^32. -/
def seqUpTo (n value : Nat) : Bool := decide ((value + 2 ^ 32 - n) % 2 ^ 32 < 2 ^ 31)

/-- R575, R576: a status row. -/
def statusArrives (s : State) (r : Row) : State :=
  let value := natOf (r.payload.take 8)
  let code := r.aux.toNat % 256
  if code = 0 then
    let acked (q : Row) : Bool := q.final = r.origin && seqUpTo q.e2e value
    let done := s.fabric.e2eOut.filter acked
    let s := { s with fabric := { s.fabric with e2eOut := s.fabric.e2eOut.filter (fun q => !(acked q)) } }
    releaseHeld (ownersDone s ((done.map (·.owners)).flatten))
  else
    match refusedOwner s r.origin value with
    | none =>
      if value ≠ 0 then s
      else match look? s.fabric.lastAcked r.origin with
        | some e => refusedStep s e.1 code e.2
        | none => s
    | some (unit, tag) =>
      refusedUnit { s with fabric := { s.fabric with
        requests := s.fabric.requests.filter (fun q => !(q.unit = unit && q.tag = tag && q.kind = 1))
        e2eOut := s.fabric.e2eOut.filter (fun q => !(q.owners.any (fun o => o.1 = unit && o.2.1 = tag))) } } unit tag code

/-! ## Rows, R543, R544 -/

/-- R544: a write row for several members. -/
def isMulti (r : Row) : Bool := r.kind = 0 && decide (1 < (membersOf r.mask.toNat).length)

/-- R544: where a write row writes: one for several members at its space and offset in this module. -/
def writeAddr (s : State) (r : Row) : Nat :=
  if isMulti r then gaOff r.addr + gaSpace r.addr * 2 ^ 48 + (if inDomain s then s.fabric.moduleId * 2 ^ 50 else 0) else r.addr

/-- R544: a write row; the Bool says that it was not refused. -/
def writeArrives (s : State) (port member : Nat) (r : Row) : State × Bool :=
  let a := writeAddr s r
  let q := touchAll .fabric true (pageCuts a r.payload.length) s
  match q.2 with
  | .inr x => (refuseRow q.1 port member r (refusalOf x) r.e2e, false)
  | .inl cuts => (writePieces cuts r.payload (spreadMask r.poison r.payload.length) q.1, true)

/-- R543: a read request row, and its response; the Bool says that it was not refused. -/
def readRow (s : State) (port member : Nat) (r : Row) : State × Bool :=
  let n := bitsOf (natOf (r.payload.take 8)) 0 21
  if n = 0 || 1048544 < n then (refuseRow s port member r 0x62 r.aux.toNat, false)
  else
    let q := touchAll .fabric false (pageCuts r.addr n) s
    match q.2 with
    | .inr x => (refuseRow q.1 port member r (refusalOf x) r.aux.toNat, false)
    | .inl cuts =>
      let d := readPieces q.1 cuts
      let row := { mkRow q.1 2 r.origin r.addr d.1 (wordMask d.2) .fabric 0 with owners := [], aux := r.aux, strict := r.strict }
      (answerRow q.1 port member (r.hops + 1) row, true)

/-- R543: a sync request row, and its response. -/
def syncRowArrives (s : State) (port member : Nat) (r : Row) : State :=
  let o := gaOff r.addr - 2 ^ 40
  let op := bitsOf r.aux.toNat 0 4
  let good := gaSpace r.addr = 3 && decide (2 ^ 40 ≤ gaOff r.addr) && decide (o < 48 * 2 ^ 19) && decide (op < 7)
  let q := if good then
      applyAt s (o / 2 ^ 19) (o % 2 ^ 19 / 8) op (BitVec.ofNat 64 (natAt r.payload 0 8)) (BitVec.ofNat 64 (natAt r.payload 8 8))
    else (0, 4, s)
  let row := { mkRow q.2.2 4 r.origin r.addr (resultRecord q.2.1 q.1) [] .fabric 0 with
    owners := [], aux := BitVec.ofNat 32 (bitsOf r.aux.toNat 4 28) }
  answerRow q.2.2 port member (r.hops + 1) row

/-! ## Reads of `admit.load`, R706 -/

/-- R706: bytes of one read of `admit.load` (log entry 15). -/
def admitChunk : Nat := 65536

/-- R536, R706, R567: how the reads of a load may travel, as port, member and hops: by the route of the slice's origin table, and,
so that they are split, through its joined ports that have the module as a member (DESIGN CHOICE, log entry 115); not by a pair
that is lost. -/
def admitPorts (s : State) (h module : Nat) : List (Nat × Nat × Nat) :=
  let e := routeEntry (originTab s h) module
  let p := portOf s (frPort e)
  let routed := if frValid e && p.joined && !(p.lost.contains (frNext e)) then [(frPort e, frNext e, frHops e)] else []
  let direct := ((look? s.slices h).elim [] (·.ports)).filterMap (fun n =>
    let r := portOf s n
    if r.joined then ((r.table.filter (fun e => e.2 = module && !(r.lost.contains e.1))).head?).map (fun e => (n, e.1, 1)) else none)
  routed ++ direct.filter (fun e => !(routed.any (fun x => x.1 = e.1)))

/-- The load of a slice, when there is one. -/
def admitOf (s : State) (h : Nat) : Option AdmitLoad := s.fabric.admits.find? (fun a => a.handle = h)

/-- Replace it. -/
def setAdmit (s : State) (a : AdmitLoad) : State :=
  { s with fabric := { s.fabric with admits := s.fabric.admits.filter (fun b => b.handle ≠ a.handle) ++ [a] } }

/-- R706: the read of a load that is outstanding can still be answered. -/
def admitWaits (s : State) (a : AdmitLoad) : Bool :=
  match a.out, a.ranges with
  | some (id, _, port), (src, _, _) :: _ =>
    s.fabric.requests.any (fun q => q.id = id) && (admitPorts s a.handle (gaModule src)).any (fun e => e.1 = port)
  | _, _ => false

/-- R706: the next read of a load, by its slice's ports in turn. -/
def admitSend (s : State) (h : Nat) : State :=
  match admitOf s h with
  | none => s
  | some a =>
    match if admitWaits s a then [] else a.ranges with
    | [] => s
    | (src, _, len) :: _ =>
      let ports := admitPorts s h (gaModule src)
      match ports[a.done / admitChunk % ports.length]? with
      | none => setAdmit s { a with out := none }
      | some (p, m, hops) =>
        let n := min admitChunk len
        let q := addRequest s 1 .furelo h 0 0
        let row := { mkRow q.2 1 (gaModule src) src (bytesOf 8 n) [] .furelo h with aux := BitVec.ofNat 32 q.1 }
        queueTo (setAdmit q.2 { a with out := some (q.1, n, p) }) p m hops { row with handles := [h] }

/-- R706: the bytes of a read of a load arrive and are written; what they confirm is kept. -/
def admitArrives (s : State) (q : FabReq) (r : Row) : State :=
  match admitOf s q.tag with
  | none => s
  | some a =>
    match a.out, a.ranges with
    | some (id, n, _), (src, dst, len) :: rest =>
      if id ≠ q.id || r.payload.length < n then s
      else
        let t := touchAll .furelo true (pageCuts dst n) s
        match t.2 with
        | .inr _ => setAdmit t.1 { a with out := none }
        | .inl cuts =>
          let u := writePieces cuts (r.payload.take n) (spreadMask r.poison n) t.1
          admitSend (setAdmit u { a with
            ranges := if len ≤ n then rest else (src + n, dst + n, len - n) :: rest, done := a.done + n, out := none }) q.tag
    | _, _ => s

/-- R574: a read response row reaches the unit that asked. -/
def readBackRow (s : State) (r : Row) : State :=
  match s.fabric.requests.find? (fun q => q.id = r.aux.toNat && q.kind = 1) with
  | none => s
  | some q =>
    let s := { s with fabric := { s.fabric with requests := s.fabric.requests.eraseP (· = q) } }
    if q.unit = .furelo then
      (if 2 ^ 32 ≤ q.tag then farAnswers s q.tag 0 r.payload r.poison else admitArrives s q r)
    else pumpUnit (onSegs s q.unit (readBack q.tag r.payload r.poison)) q.unit

/-- R543, R334: a sync response row completes the remote operation, unless it comes too late. -/
def syncBackRow (s : State) (r : Row) : State :=
  match s.fabric.requests.find? (fun q => q.id = r.aux.toNat && q.kind = 3) with
  | none => s
  | some q =>
    let s := { s with fabric := { s.fabric with requests := s.fabric.requests.eraseP (· = q) } }
    match q.unit with
    | .coreCopy c =>
      (match (slotOf s c q.slot).syncs.find? (fun y => y.remote && y.tag = q.tag && !(syncLate s c y)) with
      | some y => finishSync s c q.slot y (natAt r.payload 0 1) (BitVec.ofNat 64 (natAt r.payload 8 8))
      | none => bump s ctrRegionLate (regionOf c) 1)
    | _ => s

/-- R565: a retransmit request row: every train of the member from there on is to be sent again. -/
def resendRow (s : State) (port member : Nat) (r : Row) : State :=
  let p := portOf s port
  let want := natAt r.payload 0 3
  let l := p.retained.filterMap (fun t =>
    if t.waiting.contains member then
      (look? t.seqs member).bind (fun q => if (q + 2 ^ 24 - want) % 2 ^ 24 < 2 ^ 23 then some (member, q) else none)
    else none)
  bump (setPort s port { p with resend := p.resend ++ l.filter (fun x => !(p.resend.contains x)) }) ctrPortReqReceived port 1

/-- R539: a row for another module is relayed, or dropped. -/
def relayRow (s : State) (port : Nat) (r : Row) : State :=
  let e := routeEntry s.fabric.relay r.final
  if r.kind = 7 || isMulti r || 2 ≤ r.hops || !(frValid e) then bump s ctrFabDropped (dieOfPort port) 1
  else queueRow (bump s ctrFabRelayed (dieOfPort port) 1) (frPort e)
    { r with hops := r.hops + 1, mask := BitVec.ofNat 32 (2 ^ frNext e), owners := [] }

/-- R605: the lines the host holds of what a row accesses here. -/
def rowHeldLines (s : State) (r : Row) : List Nat :=
  match r.kind with
  | 0 => linesHeld s (writeAddr s r) r.payload.length true
  | 1 => linesHeld s r.addr (bitsOf (natOf (r.payload.take 8)) 0 21) false
  | 5 => linesHeld s r.addr slotBytes true
  | 2 =>
    match (s.fabric.requests.find? (fun q => q.id = r.aux.toNat && q.kind = 1 && q.unit = .furelo && q.tag < 2 ^ 32)).bind
      (fun q => admitOf s q.tag) with
    | some a => ((a.ranges.head?).elim [] (fun e => linesHeld s e.2.1 r.payload.length true))
    | none => []
  | _ => []

/-- R543: a row takes effect here; the Bool says that it was not refused. -/
def rowEffect (s : State) (port member : Nat) (r : Row) : State × Bool :=
  match r.kind with
  | 0 => writeArrives s port member r
  | 1 => readRow s port member r
  | 2 => (readBackRow s r, true)
  | 3 => (syncRowArrives s port member r, true)
  | 4 => (syncBackRow s r, true)
  | 5 => reduceArrives s port member r
  | 6 => (statusArrives s r, true)
  | 7 => (resendRow s port member r, true)
  | _ => (bump s ctrFabDropped (dieOfPort port) 1, true)

/-- R539, R543, R605: a row of an applied train: relayed, held behind a back-invalidation, or applied. -/
def applyRow (s : State) (port member seq : Nat) (r : Row) : State :=
  if 8 ≤ r.kind then bump s ctrFabDropped (dieOfPort port) 1
  else if r.final ≠ s.fabric.moduleId && !(isMulti r) then relayRow s port r
  else if !(s.fabric.waitRows.isEmpty) || !(rowHeldLines s r).isEmpty then
    snoopAll { s with fabric := { s.fabric with waitRows := s.fabric.waitRows ++ [(port, member, seq, r)] } }
      (rowHeldLines s r) (r.kind = 1) (if r.kind = 1 then 0 else 1) (some .fabric)
  else
    let q := rowEffect s port member r
    noteE2e q.1 port member r q.2

/-- R605: the rows that waited go on. -/
def releaseRows (s : State) : State :=
  let l := s.fabric.waitRows
  each l { s with fabric := { s.fabric with waitRows := [] } } (fun e s => applyRow s e.1 e.2.1 e.2.2.1 e.2.2.2)

/-! ## Trains, R555, R562 to R567 -/

/-- R559, R564: the acknowledgement a train header carries for this port. -/
def takeAck (s : State) (port from_ : Nat) (head : Nat) : State :=
  let p := portOf s port
  if !(bitAt (bitsOf head 160 32) p.member) then s
  else
    let ack := bitsOf head (1024 + 24 * p.member) 24
    let acked (t : Train) : Bool := t.waiting.contains from_ &&
      (look? t.seqs from_).any (fun q => decide ((ack + 2 ^ 24 - q) % 2 ^ 24 < 2 ^ 23))
    let done := ((p.retained.filter acked).map (fun t =>
      (t.rows.map (fun r => if r.e2e = 0 then r.owners.filter (fun o => o.2.2 = from_) else [])).flatten)).flatten
    let kept := (p.retained.map (fun t => if acked t then { t with waiting := t.waiting.filter (· ≠ from_) } else t)).filter
      (fun t => !t.waiting.isEmpty)
    let last := (done.reverse.filterMap (fun o => (issuerOf s o.1 o.2.1).map (fun e => (o.1, e)))).head?
    let s := match last, look? p.table from_ with
      | some e, some module => { s with fabric := { s.fabric with lastAcked := put s.fabric.lastAcked module e } }
      | _, _ => s
    releaseHeld (ownersDone (setPort s port { p with retained := kept }) done)

/-- R563: ask a sender for the train that is expected of it. -/
def askAgain (s : State) (port from_ : Nat) : State :=
  let p := portOf s port
  match look? p.table from_ with
  | none => s
  | some module =>
    let row := { mkRow s 7 module 0 (bytesOf 8 (look p.expect from_ 0)) [] .fabric 0 with owners := [] }
    queueTo (bump s ctrPortReqSent port 1) port from_ 1 row

/-- R566: the words of a row's payload that failed codewords carried, by the place of the payload in the train. -/
def frameErrors (bad : List Nat) (r : Row) (at_ : Nat) : Row :=
  let words := ceilDiv r.payload.length 8
  { r with poison := (List.range words).map (fun i => r.poison.getD i false || bad.contains ((at_ + 8 * i) / 8)) }

/-- R563: the rows of a train meant for a member take effect in order. -/
def applyRows (s : State) (port from_ own seq : Nat) (rows : List Row) : State :=
  each (rows.filter (fun r => bitAt r.mask.toNat own)) s (fun r s => applyRow s port from_ seq r)

/-- R562: both places of a port's receiver hold trains whose rows have not all been applied. -/
def receiverFull (s : State) (port : Nat) : Bool :=
  decide (2 ≤ (((s.fabric.waitRows.filter (fun e => e.1 = port)).map (fun e => (e.2.1, e.2.2.1))).eraseDups).length)

/-- R563: the expected train of a sender has been applied. -/
def nextExpected (s : State) (port from_ seq : Nat) : State :=
  let p := portOf s port
  setPort s port { p with
    expect := put p.expect from_ ((seq + 1) % 2 ^ 24), failed := cut p.failed from_
    owed := if (look? p.owed from_).isSome then p.owed else put p.owed from_ (portNow s port) }

/-- R545, R563: a train passes its train_crc. -/
def trainCrcOk (head : Nat) (data : List Byte) : Bool :=
  let n := 256 + bitsOf head 96 21 + 12
  natAt data n 4 = crc32 (data.take n)

/-- R563, R566: a train addressed to the port: applied in pair_seq order, or discarded with a retransmit request. -/
def takeTrain (s : State) (port from_ : Nat) (head : Nat) (data : List Byte) (bad : List Nat) : State :=
  let p := portOf s port
  let seq := bitsOf head (256 + 24 * p.member) 24
  let want := look p.expect from_ 0
  let body := bitsOf head 96 21
  let l := sub data 256 body
  let crcOk := trainCrcOk head data
  let rows := getRows (bitAt head 14) (bitAt head 15) l (bitsOf head 128 12) 0
  if seq ≠ want then
    (if (seq + 2 ^ 24 - want) % 2 ^ 24 < 2 ^ 23 then askAgain s port from_
     else setPort s port { p with owed := if (look? p.owed from_).isSome then p.owed else put p.owed from_ (portNow s port) })
  else
    match rows with
    | some rs =>
      if crcOk then nextExpected (applyRows s port from_ p.member seq (rs.map (·.1))) port from_ seq
      else
        let headsOk := rs.all (fun r => (List.range 4).all (fun i => !(bad.contains ((256 + r.2 - 32) / 8 + i))))
        let n := look p.failed from_ 0 + 1
        if 8 ≤ n && headsOk then
          let marked := rs.map (fun r => frameErrors bad r.1 (256 + r.2))
          let words := ((marked.map (fun r => r.poison.countP id)).sum) - ((rs.map (fun r => r.1.poison.countP id)).sum)
          let s := bump (bump s ctrPortAppliedPoisoned port 1) ctrRegionPoisoned (unitRegion .fabric) words
          nextExpected (applyRows s port from_ p.member seq marked) port from_ seq
        else askAgain (setPort s port { portOf s port with failed := put p.failed from_ n }) port from_
    | none =>
      askAgain (setPort s port { portOf s port with failed := put p.failed from_ (look p.failed from_ 0 + 1) }) port from_

/-- R521, R568: the codewords of a train, the symbols that were corrected in them, and those that failed. -/
def countCodewords (s : State) (port : Nat) (data : List Byte) (bad : List Nat) (corrected : Nat) : State :=
  let p := portOf s port
  let all_ := 8 * ceilDiv data.length 5120
  let failed := ((bad.map (fun w => w / 640 * 8 + w % 8)).eraseDups).length
  let p := if windowOver (portNow s port) p.cwAt (100000 * portUs) then { p with cwAt := portNow s port, cwAll := 0, cwBad := 0 } else p
  bump (bump (bump (setPort s port { p with cwAll := p.cwAll + all_, cwBad := p.cwBad + failed }) ctrPortCodewords port all_)
    ctrPortCorrected port corrected) ctrPortUncorrectable port failed

/-- R541, R25: a train header that passes its check; one with a non-zero reserved field, or of another version, does not
(log entry 110). -/
def headDecodes (data : List Byte) (head : Nat) : Bool :=
  bitsOf head 1792 32 = crc32c (data.take 224) && bitsOf head 0 8 = 1 &&
  onlyFields head [(0, 30), (32, 85), (128, 12), (160, 32), (256, 1568)]

/-- R545, R25: a trailer that passes its check, in the same way. -/
def tailDecodes (tail : Nat) : Bool :=
  bitsOf tail 64 32 = crc32c (bytesOf 8 (bitsOf tail 0 64)) && onlyFields tail [(0, 8), (32, 96)] &&
  (decide (bitsOf tail 0 6 < 32) || bitsOf tail 0 6 = 63)

/-- R525, R530, R555: the end of a train: the trailer is adopted or made up for, a change of membership takes effect, and
the next window has its origin. -/
def endOfTrain (s : State) (port from_ : Nat) (tail : Nat) : State :=
  let p := portOf s port
  let ok := tailDecodes tail
  let pend := if ok then bitsOf tail 32 32 else maskOf ((membersOf p.pending.toNat).filter (· ≠ from_))
  let named := if ok then (if bitsOf tail 0 6 < 32 then some (bitsOf tail 0 6) else none) else nextAfter from_ pend
  bump (setPort s port { atIdleEdge p (portNow s port) with
    pending := BitVec.ofNat 32 pend, named := named, roster := named.isSome, await := none, sending := none })
    ctrPortTrlFail port (bn (!ok))

/-- R517: the fabric engine's cached translation for the first row of a train is found uncorrectable. -/
def dropFirst (s : State) (head : Nat) (data : List Byte) : State :=
  match getRows (bitAt head 14) (bitAt head 15) (sub data 256 (bitsOf head 96 21)) (bitsOf head 128 12) 0 with
  | some (r :: _) => dropCovering s .fabric r.1.addr
  | _ => s

/-- R516, R531, R555, R557, R562 to R566, R569: a train ends at a port's receiver. When the port is speaking, a header that fails
its check is its own echo; what it draws then is a free value (log entry 115). -/
def trainArrives (s : State) (port : Nat) (data : List Byte) (bad : List Nat) (corrected : Nat) (lookup : Lookup) : State :=
  let p := portOf s port
  let head := natOf (data.take 256)
  let from_ := bitsOf head 8 5
  if !p.joined || p.quiet then s
  else if lookup = .tableError then escalate s 4 port
  else
    let s := countCodewords s port data bad corrected
    if !(headDecodes data head) then
      let q := freeNext s
      trainCollides q.2 port p.sending.isSome q.1.toNat
    else
      let tail := natOf (sub data (256 + bitsOf head 96 21) 64)
      if stranger s p (bitsOf head 32 32) from_ (bitsOf head 16 14) then
        let p := noteStranger (portOf s port) (portNow s port) (bitsOf head 32 32) from_ (bitsOf head 16 14)
        bump (setPort s port (atIdleEdge (fallBack p (portNow s port)) (portNow s port))) ctrPortStrangers port 1
      else if from_ = p.member then endOfTrain s port from_ tail
      else
        let s := bump (bump (endOfTrain s port from_ tail) ctrPortReceived port 1) ctrPortCrcFail port (bn (!(trainCrcOk head data)))
        let s :=
          if !(bitAt (bitsOf head 64 32) p.member) || s.sup.resetting then s
          else if receiverFull s port then bump s ctrPortOverruns port 1
          else takeTrain (if lookup = .cachedError then dropFirst s head data else s) port from_ head data bad
        takeAck s port from_ head

/-- R575: an end-to-end acknowledgement is due. -/
def e2eDue (s : State) (origin : Nat) : State :=
  match look? s.fabric.e2eIn origin with
  | none => s
  | some e => if e.unacked ≠ 0 && windowOver (portNow s e.clock) e.since (50 * portUs) then sendE2e s origin else s

/-- R563. -/
def execTrainReceive (port : Nat) (data : List Byte) (symbols : Symbols) (lookup : Lookup) (s : State) :
    Host.Outcome State Fault Refusal := .next (trainArrives s port data symbols.badWords symbols.corrected lookup)
/-- R575. -/
def execE2eAckDue (origin : Nat) (s : State) : Host.Outcome State Fault Refusal := .next (e2eDue s origin)

end Sys2Proof.Machine
end

