-- ==== Sys2Proof/Machine/Reports.lean ====
section
/-! DEFINITION. What the module reports of itself: the capability table and the defect map, as bytes (R669 to R671). -/

namespace Sys2Proof.Machine

/-- R669: the link positions of a boundary: east (dir 0) or south (dir 1) of a region. -/
def seamPositions (region dir : Nat) : List Nat :=
  let x := region % 8 * 10
  let y := region / 8 * 8
  if dir = 0 then (List.range 8).map (fun j => coreAt (x + 9) (y + j))
  else (List.range 10).map (fun i => coreAt (x + i) (y + 7) + 4096)

/-- R670: usable seam links of a boundary. -/
def seamCount (s : State) (region dir : Nat) : Nat :=
  let beyond := if dir = 0 then region + 1 else region + 8
  if regionExists s region && regionExists s beyond && (dir = 1 || region % 8 ≠ 7) then
    ((seamPositions region dir).filter (fun l => !(s.caps.seamsOut.contains l))).length
  else 0

/-- The hub of a cluster is usable. -/
def hubUsable (s : State) (cluster : Nat) : Bool := clusterExists s cluster && !(s.caps.hubsOut.contains cluster)

/-- R670 shed codes. -/
def shedCode : Shed → Nat
  | .lit => 0
  | .throttled => 1
  | .parked => 2
  | .dark => 3

/-- R43: the usable cores of a region. -/
def usableIn (s : State) (region : Nat) : Nat := ((regionCores region).filter (coreUsable s)).length

/-- R58: pages of 64 KiB a stack offers. -/
def stackRoom (s : State) (stack : Nat) : Nat :=
  if stackExists s stack && !(s.caps.stacksOut.contains stack) then
    stackPages s.fuses.ordering - (s.caps.pagesOut.filter (fun p => p / 2 ^ 21 = stack)).length
  else 0

/-- R670: the header. -/
def capsHeader (s : State) : List Byte :=
  let o := s.fuses.ordering
  let cores := ((List.range (regionCount o)).map (usableIn s)).sum
  let ports := ((List.range 16).map (fun p => bn (portEnabled o p && !(s.caps.portsOut.contains p)) * 2 ^ p)).sum
  let links := (s.caps.linksOut.filter linkListed).length
  bytesOf 1 (orderingCode o) ++ bytesOf 1 1 ++ bytesOf 1 4 ++ bytesOf 1 64 ++ bytesOf 4 s.caps.gen ++ bytesOf 2 cores ++
  bytesOf 2 1700 ++ bytesOf 2 384 ++ bytesOf 2 64 ++ bytesOf 4 65536 ++ bytesOf 2 ports ++ bytesOf 2 links ++
  bytesOf 8 (bn (960 < links)) ++ bytesOf 6 (2 ^ regionCount o - 1) ++ List.replicate 26 0

/-- R670: a region record. -/
def capsRegion (s : State) (r : Nat) : List Byte :=
  if regionExists s r then
    let hubs := ((List.range 8).map (fun k => bn (hubUsable s (r * 8 + k)) * 2 ^ k)).sum
    bytesOf 8 (shedCode (shedOf s r) + 4 + hubs * 2 ^ 8 + usableIn s r * 2 ^ 16 + seamCount s r 0 * 2 ^ 24 + seamCount s r 1 * 2 ^ 28) ++
    bytesOf 8 ((sliceOfRegion s r).getD 0)
  else List.replicate 16 0

/-- R669: a cluster entry. -/
def capsCluster (s : State) (k : Nat) : List Byte :=
  bytesOf 2 ((List.range 10).map (fun p => bn (coreUsable s (coreInCluster k p)) * 2 ^ p)).sum

/-- R669: a tier port entry. -/
def capsTier (s : State) (p : Nat) : List Byte :=
  let t := tierOf s p
  if tierEnabled s.fuses.ordering p then
    bytesOf 8 (1 + 2 * bn (t.linkUp && !t.fenced && !(s.caps.tiersOut.contains p)) + tierEnd s p * 2 ^ 16)
  else List.replicate 8 0

/-- R669: the capability table. -/
def capsBytes (s : State) : List Byte :=
  capsHeader s ++ ((List.range 48).map (capsRegion s)).flatten ++ ((List.range 384).map (capsCluster s)).flatten ++
  ((List.range 96).map (fun k => bytesOf 4 (stackRoom s k))).flatten ++ ((List.range 8).map (capsTier s)).flatten ++
  fit (((s.caps.linksOut.filter linkListed).take 960).map (fun l => bytesOf 2 l)).flatten 1920

/-- R671: a record of the defect map. -/
def defectBytes (d : DefectRec) : List Byte :=
  bytesOf 1 (d.element + d.origin * 16) ++ bytesOf 1 d.cause ++ bytesOf 6 d.id ++ bytesOf 8 d.stampRegion ++
  bytesOf 8 d.stamp ++ List.replicate 8 0

/-- R770, R771: the records of the map, the stored ones first. -/
def allRecords (s : State) : List DefectRec := s.nv.map ++ s.sup.heldRecs

/-- R671: an element fenced or failed as a record without history. -/
def elementBytes (kind id : Nat) : List Byte := bytesOf 1 kind ++ bytesOf 1 0 ++ bytesOf 6 id ++ List.replicate 24 0

/-- R615 `TP_STATUS`. -/
def tpStatus (s : State) (p : Nat) : Nat :=
  let t := tierOf s p
  if tierEnabled s.fuses.ordering p then
    1 + 2 * bn t.linkUp + 4 * bn t.fenced + 8 * bn t.unsupported + t.width % 16 * 2 ^ 4 + t.rate * 2 ^ 8 +
    (t.devices.filter (fun d => d.2 ≠ 0)).length * 2 ^ 11 + tierEnd s p * 2 ^ 16
  else 0

end Sys2Proof.Machine
end

