-- ==== Sys2Proof/Machine/HostPort.lean ====
section
/-! DEFINITION. The host port: its registers, the host link and its resets, HDM decoders, host memory accesses and
back-invalidation (11_cxl.md R585 to R610). -/

namespace Sys2Proof.Machine

/-! ## Registers, R596, R656 -/

/-- R596: software sets `HP_EVENT_EN`. -/
def writeEventEn (s : State) (v : BitVec 64) : State :=
  let en := v.setWidth 6
  let t := { s with hp := { s.hp with eventEn := en } }
  if s.hp.event &&& en &&& ~~~s.hp.eventEn = 0 then t else raiseMsix t 0

/-- R596: software writes `HP_ERR_INFO`. -/
def writeErrInfo (s : State) (v : BitVec 64) : State :=
  if v.getLsbD 0 then { s with hp := { s.hp with errInfo := 0, errAddr := 0 } } else s

/-- A frame nothing has configured. -/
def Frame.fresh : Frame :=
  { owner := 0, ring := { base := 0, enable := false, logSize := 0, vector := 0, written := 0 }, slots := [] }

/-- A frame. -/
def frameOf (s : State) (f : Nat) : Frame := look s.frames f .fresh

/-- R656 `HP_MB_RING`. -/
def ringWord (r : FrameRing) : Nat := r.base

/-- R656 `HP_MB_RING_CFG`. -/
def ringCfgWord (r : FrameRing) : Nat := bn r.enable + r.logSize * 2 + r.vector * 2 ^ 8

/-- R656, R657: a ring configuration word that carries no reserved value. -/
def ringCfgGood (v : Nat) : Bool := decide (bitsOf v 1 4 < 13) && bitsOf v 5 3 = 0 && bitsOf v 16 48 = 0

/-- R657: software writes `HP_MB_RING_CFG`. -/
def writeRingCfg (s : State) (v : BitVec 64) : State :=
  let f := frameOf s 0
  let r := f.ring
  let n := v.toNat
  if !(ringCfgGood n) then s
  else
    let r' := { r with
      enable := bitAt n 0, logSize := if r.enable then r.logSize else bitsOf n 1 4, vector := bitsOf n 8 8
      written := if !r.enable && bitAt n 0 then 0 else r.written }
    { s with frames := put s.frames 0 { f with ring := r' } }

/-- R657: software writes `HP_MB_RING`. -/
def writeRing (s : State) (v : BitVec 64) : State :=
  let f := frameOf s 0
  if f.ring.enable then s
  else { s with frames := put s.frames 0 { f with ring := { f.ring with base := v.toNat / 64 * 64 } } }

/-- R595: a vector's table entry; nothing written since reset masks it. -/
def msixEntry (s : State) (v : Nat) : MsixEntry := look s.hp.msix v { addr := 0, data := 0, masked := true }

/-- R590: a vector that is unmasked sends its pending message, or discards and counts it. -/
def unmask (s : State) (v : Nat) : State :=
  let e := { msixEntry s v with masked := false }
  let t := { s with hp := { s.hp with msix := put s.hp.msix v e, msixOn := true } }
  if s.hp.msixPend.contains v then
    raiseMsix { t with hp := { t.hp with msixPend := dropFrom t.hp.msixPend v } } v
  else t

/-! ## Configuration space and component registers, R585, R586, R589, R591 to R594, R600 -/

/-- R593: the bytes of a BAR. -/
def barSize (second : Bool) : Nat := if second then 2 ^ 22 else 2 ^ 20

/-- R593: a BAR at the address the host gives it: aligned to its size, 64-bit, not prefetchable. -/
def barPlaced (n : Nat) (second : Bool) : Reg :=
  BitVec.ofNat 64 ((Config.barBase n second).toNat / barSize second * barSize second + 4)

/-- R591, R593: an access through a BAR shows that the host has placed the BARs and set memory space and bus master in the command
register, which no row does (DESIGN CHOICE, log entry 97). -/
def openBars (s : State) : State :=
  let c := s.hp.config
  if !s.hp.linkUp || c.command.getLsbD 1 then s
  else { s with hp := { s.hp with config := { c with
    command := c.command ||| 6, bar0 := barPlaced c.placed false, bar2 := barPlaced c.placed true, placed := c.placed + 1 } } }

/-- R600: the memory ranges that the CXL DVSEC advertises: base and size. -/
def dvsecRanges : List (Nat × Nat) := [(0, 2 ^ 48), (2 ^ 48, 2 ^ 48)]

/-- A 64-bit number's dword n. -/
def dwordOf (v n : Nat) : Nat := v / 2 ^ (32 * n) % 2 ^ 32

/-- R592, R593: the header of the function. -/
def headerDword (s : State) (off : Nat) : Nat :=
  match off with
  | 0x00 => Config.vendorId.toNat + 0x0A02 * 2 ^ 16
  | 0x04 => s.hp.config.command.toNat + 0x10 * 2 ^ 16
  | 0x08 => 0x120000 * 2 ^ 8
  | 0x10 => dwordOf s.hp.config.bar0.toNat 0
  | 0x14 => dwordOf s.hp.config.bar0.toNat 1
  | 0x18 => dwordOf s.hp.config.bar2.toNat 0
  | 0x1C => dwordOf s.hp.config.bar2.toNat 1
  | 0x2C => Config.vendorId.toNat + orderingCode s.fuses.ordering * 2 ^ 16
  | 0x34 => 0x40
  | _ => 0

/-- R585, R586, R589, R595, R600, R611: the capabilities that the function advertises, and no other: PCI Express, MSI-X, AER, the
CXL device DVSEC, the Register Locator DVSEC and DOE. Their places are the model's (PRESUMED, log entry 97). -/
def capabilityDword (s : State) (off : Nat) : Nat :=
  let c := s.hp.config
  let range (k : Nat) : Nat × Nat := dvsecRanges.getD k (0, 0)
  match off with
  | 0x40 => 0x11 + 0x50 * 2 ^ 8 + 255 * 2 ^ 16 + bn s.hp.msixOn * 2 ^ 31
  | 0x44 => 0x10000
  | 0x48 => 0x11000
  | 0x50 => 0x10 + 2 * 2 ^ 16
  | 0x100 => 1 + 2 * 2 ^ 16 + 0x150 * 2 ^ 20
  | 0x104 => c.aerUnc.toNat
  | 0x110 => c.aerCor.toNat
  | 0x150 => 0x23 + 1 * 2 ^ 16 + 0x190 * 2 ^ 20
  | 0x154 => 0x1E98 + 2 * 2 ^ 16 + 0x3C * 2 ^ 20
  | 0x158 => (1 + 2 + 4 + 2 * 2 ^ 4) * 2 ^ 16
  | 0x168 => dwordOf (range 0).2 1
  | 0x16C => dwordOf (range 0).2 0 + 3
  | 0x170 => dwordOf (range 0).1 1
  | 0x174 => dwordOf (range 0).1 0
  | 0x178 => dwordOf (range 1).2 1
  | 0x17C => dwordOf (range 1).2 0 + 3
  | 0x180 => dwordOf (range 1).1 1
  | 0x184 => dwordOf (range 1).1 0
  | 0x190 => 0x23 + 1 * 2 ^ 16 + 0x1B0 * 2 ^ 20
  | 0x194 => 0x1E98 + 0x14 * 2 ^ 20
  | 0x198 => 8
  | 0x19C => 1 * 2 ^ 8
  | 0x1B0 => 0x2E + 2 * 2 ^ 16
  | _ => 0

/-- The dword at a place of the function's configuration space. -/
def configDword (s : State) (off : Nat) : Nat := if off < 0x40 then headerDword s off else capabilityDword s off

/-- R594: the dwords of a decoder: base, size, control and skip; those of one that is not committed as the host wrote them. -/
def decoderDword (d : HdmDecoder) (raw : Nat) (off : Nat) : Nat :=
  if off = 0x10 then raw % 2 ^ 10 + bn d.committed * 2 ^ 10 + bn d.error * 2 ^ 11
  else if !d.committed then raw
  else match off with
    | 0x00 => dwordOf d.base 0
    | 0x04 => dwordOf d.base 1
    | 0x08 => dwordOf d.size 0
    | 0x0C => dwordOf d.size 1
    | 0x14 => dwordOf d.skip 0
    | 0x18 => dwordOf d.skip 1
    | _ => 0

/-- R594: component registers that the host may write: the masks and severities of the RAS capability, the control of the HDM decoder
capability, and the two decoders. -/
def componentRw (off : Nat) : Bool :=
  (0x1104 ≤ off && off < 0x110C) || (0x1110 ≤ off && off < 0x1114) || (0x1304 ≤ off && off < 0x1308) || (0x1310 ≤ off && off < 0x1350)

/-- R594, R589, R601: a dword of the CXL component registers: the capability array, the RAS, link and HDM decoder capabilities. Their
places are the model's (PRESUMED, log entry 97). -/
def componentDword (s : State) (off : Nat) : Nat :=
  let raw := natOf ((List.range 4).map (fun i => look s.hp.component (off + i) 0))
  match off with
  | 0x1000 => 1 + 1 * 2 ^ 16 + 1 * 2 ^ 20 + 3 * 2 ^ 24
  | 0x1004 => 2 + 2 * 2 ^ 16 + 0x100 * 2 ^ 20
  | 0x1008 => 4 + 2 * 2 ^ 16 + 0x200 * 2 ^ 20
  | 0x100C => 5 + 3 * 2 ^ 16 + 0x300 * 2 ^ 20
  | 0x1100 => s.hp.config.rasUnc.toNat
  | 0x110C => s.hp.config.rasCor.toNat
  | 0x1300 => 1
  | _ =>
    if 0x1310 ≤ off && off < 0x1330 then decoderDword s.hp.decoder0 raw (off - 0x1310)
    else if 0x1330 ≤ off && off < 0x1350 then decoderDword s.hp.decoder1 raw (off - 0x1330)
    else if componentRw off then raw else 0

/-- R594: a byte of the component registers is written: the status of RAS is cleared by ones. -/
def writeComponent (s : State) (off : Nat) (b : Byte) : State :=
  let clear (v : BitVec 32) (at_ : Nat) : BitVec 32 := v &&& ~~~(BitVec.ofNat 32 (b.toNat * 2 ^ (8 * (off - at_))))
  let c := s.hp.config
  if 0x1100 ≤ off && off < 0x1104 then { s with hp := { s.hp with config := { c with rasUnc := clear c.rasUnc 0x1100 } } }
  else if 0x110C ≤ off && off < 0x1110 then { s with hp := { s.hp with config := { c with rasCor := clear c.rasCor 0x110C } } }
  else if componentRw off then { s with hp := { s.hp with component := put s.hp.component off b } }
  else s

/-- R589: what the link has met since it was last trained: replays are counted, and errors are reported through AER and RAS. -/
def noteLink (s : State) (t : Trained) : State :=
  let c := s.hp.config
  bump { s with hp := { s.hp with config := { c with
    aerCor := c.aerCor ||| t.aerCor, aerUnc := c.aerUnc ||| t.aerUnc
    rasCor := c.rasCor ||| t.rasCor, rasUnc := c.rasUnc ||| t.rasUnc } } } ctrHostReplays 0 t.replays

/-! ## Host addresses, R600 to R603 -/

/-- R600: the global address of a device physical address. -/
def gaOfDpa (s : State) (dpa : Nat) : Nat :=
  dpa % 2 ^ 48 + (if 2 ^ 48 ≤ dpa then 2 * 2 ^ 48 else 0) + (if inDomain s then s.fabric.moduleId * 2 ^ 50 else 0)

/-- R601: a committed decoder maps a device physical address. -/
def decoded (s : State) (dpa : Nat) : Bool :=
  let hit (d : HdmDecoder) (second : Bool) : Bool :=
    d.committed && decide (decoderBase s second ≤ dpa) && decide (dpa < decoderBase s second + d.size)
  s.hp.linkUp && (hit s.hp.decoder0 false || hit s.hp.decoder1 true)

/-- R602: the cause of a host access that cannot be served. -/
def hostCause : Reach → Nat
  | .fault c => c
  | .reject c => c
  | .dark _ => 0x92
  | _ => 0x81

/-- R675: the causes of R602 in the order of their counters. -/
def hostCauses : List Nat := [0x65, 0x81, 0x82, 0x84, 0x85, 0x91, 0x92]

/-- R596, R602: a refused host access is counted and recorded. -/
def refuseHost (s : State) (cause dpa : Nat) (write : Bool) : State :=
  let t := bump s (ctrHostRefused.plus (hostCauses.idxOf cause)) 0 1
  hostEvent (hostRefusal t cause (gaOfDpa s dpa) write) evRefused

/-! ## The snoop filter, R604 -/

/-- R604: sets of the snoop filter. -/
def filterSets : Nat := 65536

/-- R604: a line's set. -/
def inSet (line : Nat) (e : FilterEntry) : Bool := e.line % filterSets = line % filterSets

/-- R604: the host holds a line in a state, or no longer. -/
def recordLine (s : State) (line : Nat) (hold : Nat) : State :=
  let others := s.hp.filter.filter (fun e => e.line ≠ line)
  if hold = 0 then { s with hp := { s.hp with filter := others } }
  else
    let t := { s with hp := { s.hp with filter := others ++ [{ line := line, exclusive := hold = 2 }] } }
    bumpMax t ctrHostFilterHigh 0 t.hp.filter.length

/-- R602, R603: a host read of a line is served. -/
def serveRead (s : State) (line hold : Nat) : State :=
  let q := touch s .hostPort (gaOfDpa s (line * 64)) 64 false
  match q.2 with
  | .ok p _ =>
    let t := emit (bump q.1 ctrHostReads 0 1) (.hostData (line * 64) (readPhys q.1 p 64) (poisoned q.1.mem p 64))
    recordLine t line hold
  | r => refuseHost (emit q.1 (.hostData (line * 64) (List.replicate 64 0) true)) (hostCause r) (line * 64) false

/-- R604: a read of a line that needs an entry, when its set is full, waits for the oldest entry's back-invalidation. -/
def hostRead (s : State) (line hold : Nat) : State :=
  let mates := s.hp.filter.filter (inSet line)
  match if hold ≠ 0 && !(mates.any (fun e => e.line = line)) && decide (16 ≤ mates.length) then mates.head? else none with
  | none => serveRead s line hold
  | some e =>
    let t := { s with hp := { s.hp with waitReads := s.hp.waitReads ++ [(line, decide (hold = 2))] } }
    if s.hp.backInv.any (fun b => b.line = e.line && (!b.data || b.again)) then t
    else bump (snoopLine t e.line false 2 none) ctrHostEvictions 0 1

/-- R604: the reads that waited go on. -/
def retryReads (s : State) : State :=
  let l := s.hp.waitReads
  each l { s with hp := { s.hp with waitReads := [] } } (fun e s => hostRead s e.1 (if e.2 then 2 else 1))

/-! ## Back-invalidation, R604 to R607 -/

/-- R591: a CXL Reset whose lines have all been invalidated uncommits the decoders. -/
def finishCxlReset (s : State) : State :=
  if s.hp.cxlReset && s.hp.filter.isEmpty && s.hp.backInv.isEmpty then
    { s with hp := { s.hp with cxlReset := false, decoder0 := .off, decoder1 := .off } }
  else s

/-- What waited for a back-invalidation goes on; a line that was to be invalidated too, and is still held, is. -/
def endSnoop (s : State) (b : BackInval) : State :=
  let t := { s with hp := { s.hp with backInv := s.hp.backInv.filter (fun x => x.line ≠ b.line) } }
  let t := if b.again && t.hp.filter.any (fun e => e.line = b.line) then snoopLine t b.line false b.why none else t
  finishCxlReset (retryReads (releaseRows (each b.units t (fun u s => pumpUnit s u))))

/-- R603, R602: host bytes are written at a device physical address. -/
def hostStore (s : State) (dpa : Nat) (data : List Byte) (mask : List Bool) : State :=
  let q := touch s .hostPort (gaOfDpa s dpa) data.length true
  match q.2 with
  | .ok p _ => bump (physWrite q.1 p data mask) ctrHostWrites 0 1
  | r => refuseHost q.1 (hostCause r) dpa true

/-- R605: the host answers a back-invalidation; `writeback` is what it wrote back, or nothing. -/
def birspArrives (s : State) (line : Nat) (writeback : List Byte) : State :=
  match s.hp.backInv.find? (fun b => b.line = line) with
  | none => s
  | some b =>
    let t := if writeback.isEmpty then s else hostStore s (line * 64) (fit writeback 64) []
    let downgrade (e : FilterEntry) : FilterEntry := if e.line = line then { e with exclusive := false } else e
    let keptLines := if b.data then t.hp.filter.map downgrade else t.hp.filter.filter (fun e => e.line ≠ line)
    endSnoop { t with hp := { t.hp with filter := keptLines } } b

/-- R606: poison a whole line of memory. -/
def poisonLine (s : State) (line : Nat) : State :=
  match (reachNow s .hostPort (gaOfDpa s (line * 64)) 64 false).1 with
  | .ok p _ => { s with mem := poisonRange s.mem p 64 }
  | _ => s

/-- R606: a back-invalidation is abandoned. -/
def abandonSnoop (s : State) (b : BackInval) : State :=
  let t := poisonLine { s with hp := { s.hp with filter := s.hp.filter.filter (fun e => e.line ≠ b.line) } } b.line
  let t := bump (bump t ctrHostBiTimeouts 0 1) (ctrHostRefused.plus (hostCauses.idxOf 0x91)) 0 1
  endSnoop (hostEvent (hostRefusal t 0x91 (gaOfDpa s (b.line * 64)) false) evBiTimeout) b

/-- R606: every pending back-invalidation is abandoned. -/
def abandonAll (s : State) : State := each s.hp.backInv s (fun b s => abandonSnoop s b)

/-! ## The host link and the resets of the port, R587 to R591 -/

/-- R590, R606: the link is down: every pending back-invalidation is abandoned, and no read waits for one. -/
def linkDies (s : State) : State := abandonAll { s with hp := { s.hp with linkUp := false, waitReads := [] } }

/-- R587, R588: the link has trained, or cannot. -/
def trainHost (s : State) (width rate : Nat) : State :=
  if (width = 2 || width = 4 || width = 8) && (rate = 3 || rate = 4) && !s.pins.perst then
    let s := if s.hp.width = 0 then s else bump s ctrHostRetrains 0 1
    let t := { s with hp := { s.hp with linkUp := true, width := width, rate := rate } }
    if s.hp.width = width && s.hp.rate = rate then t else hostEvent (bump t ctrHostRate 0 1) evLink
  else if s.pins.perst then s
  else trayEvent (linkDies s) 6 []

/-- R591: the CXL.io state of a reset that clears it. -/
def clearIo (s : State) : State :=
  { s with hp := { s.hp with event := 0, eventEn := 0, errInfo := 0, errAddr := 0, msix := [], msixPend := [],
                             msixOn := false, component := [], doe := .fresh
                             config := { PortConfig.fresh with placed := s.hp.config.placed } } }

/-- R591: a hot reset, or `PERST_N`. -/
def hotResetPort (s : State) : State :=
  let s := linkDies s
  let t := each ((s.hp.filter.filter (·.exclusive)).map (·.line)) s (fun l s => poisonLine s l)
  clearIo { t with hp := { t.hp with filter := [], cxlReset := false, biOn := false, decoder0 := .off, decoder1 := .off } }

/-- R601: commit a decoder. -/
def commitDecoder (s : State) (decoder base size skip ways : Nat) (biOn : Bool) : State :=
  let p := s.hp
  let t := { s with hp := { p with biOn := biOn } }
  let start := if decoder = 0 then skip
    else (if p.decoder0.committed then p.decoder0.skip + p.decoder0.size else 0) + skip
  let unit := 2 ^ 28
  let bad := ways ≠ 1 || !biOn || base % unit ≠ 0 || size % unit ≠ 0 || skip % unit ≠ 0 || size = 0 ||
    decide (start < 2 ^ 48 ∧ 2 ^ 48 < start + size) || decide (2 ^ 49 < start + size)
  let d : HdmDecoder := { base := base, skip := skip, size := size, committed := !bad, error := bad }
  if decoder = 0 then { t with hp := { t.hp with decoder0 := d } }
  else if decoder = 1 then { t with hp := { t.hp with decoder1 := d } }
  else s

/-! ## The commands -/

/-- A write to `HP_EVENT_EN`, R596. -/
def execHpEventEnWrite (v : BitVec 64) (s : State) : Host.Outcome State Fault Refusal := .next (writeEventEn s v)

/-- A write to `HP_ERR_INFO`, R596. -/
def execHpErrInfoClear (v : BitVec 64) (s : State) : Host.Outcome State Fault Refusal := .next (writeErrInfo s v)

/-- A write to `HP_MB_RING_CFG`, R657. -/
def execHpMbRingCfgWrite (v : BitVec 64) (s : State) : Host.Outcome State Fault Refusal := .next (writeRingCfg s v)

/-- A vector is unmasked, R590. -/
def execMsixUnmask (vector : Nat) (s : State) : Host.Outcome State Fault Refusal :=
  .next (if vector < 256 then unmask s vector else s)

/-- The host link trains, R587. -/
def execHostLinkTrain (width : Nat) (rate : Trained) (s : State) : Host.Outcome State Fault Refusal :=
  .next (trainHost (noteLink s rate) width rate.rate)

/-- The host link goes down, R590. -/
def execHostLinkDown (s : State) : Host.Outcome State Fault Refusal :=
  .next (linkDies s)

/-- A function level reset, R591. -/
def execFunctionLevelReset (s : State) : Host.Outcome State Fault Refusal :=
  .next { s with hp := { s.hp with
    msix := [], msixPend := [], msixOn := false, config := { s.hp.config with command := 0, bar0 := 4, bar2 := 4 } } }

/-- A CXL Reset, R591. -/
def execCxlReset (s : State) : Host.Outcome State Fault Refusal :=
  .next (finishCxlReset (snoopAll { s with hp := { s.hp with cxlReset := true } } (s.hp.filter.map (·.line)) false 4 none))

/-- A hot reset, R591. -/
def execHotReset (s : State) : Host.Outcome State Fault Refusal := .next (hotResetPort s)

/-- A decoder commit, R601. -/
def execHdmDecoderCommit (decoder base size skip ways : Nat) (biOn : Bool) (s : State) : Host.Outcome State Fault Refusal :=
  .next (commitDecoder s decoder base size skip ways biOn)

/-- A host read of the line that holds a device physical address, R602 to R604. R516: with an error in the tables the read is
served with what it finds, and the module goes to its reset; the host then holds no line of it. -/
def execHostMemRead (dpa : Nat) (hold : Holding) (s : State) : Host.Outcome State Fault Refusal :=
  .next (if !(decoded s dpa) then s
    else match hold.lookup with
      | .good => hostRead s (dpa / 64) hold.hold
      | .cachedError => hostRead (dropCovering s .hostPort (gaOfDpa s dpa)) (dpa / 64) hold.hold
      | .tableError => hostRead (escalate s 0 dpa) (dpa / 64) 0)

/-- A host write within a line, R602, R603. -/
def execHostMemWrite (dpa : Nat) (data : List Byte) (poisoned : Bool) (s : State) : Host.Outcome State Fault Refusal :=
  .next (if decoded s dpa && decide (dpa % 64 + data.length ≤ 64) && !data.isEmpty then
    hostStore s dpa data (if poisoned then List.replicate 8 true else []) else s)

/-- A BIRsp, R605. -/
def execBirsp (line : Nat) (writeback : List Byte) (s : State) : Host.Outcome State Fault Refusal :=
  .next (birspArrives s line writeback)

/-- A back-invalidation unanswered for 10 ms, R606. -/
def execBiTimeout (line : Nat) (s : State) : Host.Outcome State Fault Refusal :=
  .next (match s.hp.backInv.find? (fun b => b.line = line) with
  | some b => if windowOver (look s.clocks.die 0 0) b.since (10 * ticksPerMs) then abandonSnoop s b else s
  | none => s)

/-- A snoop from the host, R609. -/
def execH2dSnoop (line : Nat) (s : State) : Host.Outcome State Fault Refusal := .next (emit s (.snoopResp line))

end Sys2Proof.Machine
end

