-- ==== Sys2Proof/Machine/Fences.lean ====
section
/-! DEFINITION. Fencing an element: its trigger, its record, what it takes out of service and whom it halts
(15_healing.md R764 to R777). -/

namespace Sys2Proof.Machine

/-! ## The defect map, R770 to R772 -/

/-- The region of an element. -/
def elementRegion (el : Element) : Nat :=
  match el.kind with
  | 1 => regionOf el.id
  | 2 => regionOfCluster el.id
  | 3 => regionOf (el.id % 4096)
  | 4 => regionOf (el.id % 4096)
  | 7 => regionOfStack (el.id % 128)
  | 8 => el.id
  | _ => 0

/-- R770, R851: append a record, signed, or hold it in supervisor memory. -/
def addRecord (s : State) (d : DefectRec) : State :=
  if s.nv.keysHeld && decide (s.nv.map.length < 65536) then
    let sig := fit (Config.identitySign s.nv.keyGen 0 (defectBytes d ++ sha384 (s.nv.map.map defectBytes).flatten)) 384
    { s with nv := { s.nv with map := s.nv.map ++ [{ d with sig := sig }] } }
  else bump { s with sup := { s.sup with heldRecs := s.sup.heldRecs ++ [d] } } ctrModHeld 0 1

/-- R770: append a record of Furelo's own, stamped by the element's region. -/
def appendRecord (s : State) (el : Element) (origin cause : Nat) : State :=
  let r := elementRegion el
  addRecord s { element := el.kind, origin := origin, cause := cause, id := el.id, stampRegion := r, stamp := regionNow s r, sig := [] }

/-- R880: a stack as a whole, as an element: the page field is all ones. -/
def elStack (stack : Nat) : Element := { kind := 7, id := stack + (2 ^ 41 - 1) * 128 }

/-- R880: the element of kind 7 names a whole stack. -/
def wholeStack (id : Nat) : Bool := id / 128 = 2 ^ 41 - 1

/-- R478, R671: an HBM page of an element as the capability state numbers it. -/
def pageOfElement (id : Nat) : Nat := id % 128 * 2 ^ 21 + id / 128

/-- R58: an element out of service, or back in it. -/
def serviceOf (c : Capability) (el : Element) (out : Bool) : Capability :=
  let f (l : List Nat) (k : Nat) : List Nat := if out then addTo l k else dropFrom l k
  match el.kind with
  | 1 => { c with coresOut := f c.coresOut el.id }
  | 2 => { c with hubsOut := f c.hubsOut el.id }
  | 3 => { c with linksOut := f c.linksOut el.id }
  | 4 => { c with seamsOut := f c.seamsOut el.id }
  | 5 => { c with portsOut := f c.portsOut el.id }
  | 6 => { c with tiersOut := f c.tiersOut el.id }
  | 7 =>
    if wholeStack el.id then { c with stacksOut := f c.stacksOut (el.id % 128) }
    else { c with pagesOut := f c.pagesOut (pageOfElement el.id) }
  | 8 => { c with ctrlsOut := f c.ctrlsOut el.id }
  | _ => c

/-- R671: an element that exists on this module. -/
def elementExists (s : State) (el : Element) : Bool :=
  match el.kind with
  | 1 => coreExists s el.id
  | 2 => clusterExists s el.id
  | 3 => coreExists s (el.id % 4096) &&
      ((linkListed el.id && (neighbour (el.id % 4096) (1 + el.id / 4096)).any (fun n => coreExists s n && regionOf n = regionOf (el.id % 4096))) ||
       (edgeRouter (el.id % 4096) && el.id = edgeLink (el.id % 4096)))
  | 4 => decide (el.id < 8192) && coreExists s (el.id % 4096) &&
      (neighbour (el.id % 4096) (1 + el.id / 4096)).any (fun n => coreExists s n && regionOf n ≠ regionOf (el.id % 4096))
  | 5 => portEnabled s.fuses.ordering el.id
  | 6 => tierEnabled s.fuses.ordering el.id
  | 7 => stackExists s (el.id % 128) && (wholeStack el.id || decide (el.id / 128 < stackPages s.fuses.ordering))
  | 8 => regionExists s el.id
  | _ => false

/-- R671: an element that a record can name. -/
def elementNamed (s : State) (el : Element) : Bool := elementExists s el && (el.kind ≠ 3 || linkListed el.id)

/-- R808: the row of an element kind among the fence counters. -/
def fenceIndex (kind : Nat) : Nat :=
  match kind with
  | 1 => 0
  | 2 => 1
  | 3 => 2
  | 4 => 2
  | 5 => 3
  | 6 => 4
  | 7 => 5
  | _ => 6

/-- R772, R60: an element leaves service: its bit, then its record, then the table's generation. A signed update's record
(origin 3) is in the map already (R774). -/
def takeOut (s : State) (el : Element) (origin cause : Nat) : State :=
  let t := { s with nv := { s.nv with fenceBits := s.nv.fenceBits ++ [el] }, caps := serviceOf s.caps el true }
  capsChanged (bump (if origin = 3 then t else appendRecord t el origin cause) (ctrModFences.plus (fenceIndex el.kind)) 0 1)

/-- R804: a core returns to service without the engine defects that a rehearsal planted. -/
def clearDefects (s : State) (c : Nat) : State :=
  each ((List.range 4).map (engineOf c)) s (fun e s =>
    injectionSeen (if (engOf s e).defect = 0 then s else setEng s e { engOf s e with defect := 0 }) 1 e)

/-- R768, R774: an element is back in service. -/
def backInService (s : State) (el : Element) : State :=
  let t := if el.kind = 1 then clearDefects s el.id else s
  let t := if el.kind = 8 then
      { t with power := { t.power with demands := put t.power.demands el.id { look t.power.demands el.id .fresh with held := false } } }
    else t
  capsChanged { t with
    nv := { t.nv with fenceBits := t.nv.fenceBits.filter (· ≠ el), hostFences := t.nv.hostFences.filter (· ≠ el) }
    caps := serviceOf t.caps el false
    sup := { t.sup with detections := t.sup.detections.filter (fun d => d.element ≠ el) } }

/-- R806, R807: a fence that carries a cause of an injection, and that neither a command nor a signed update has made, was made
by an injection. -/
def injectedFence (s : State) (el : Element) (cause : Nat) : Bool :=
  decide (0x80 ≤ cause) && cause ≠ 0xFF && !(s.nv.hostFences.contains el)

/-- R807: Furelo clears a fence itself, by a record of origin 2. -/
def restoreElement (s : State) (el : Element) (cause : Nat) : State := backInService (appendRecord s el 2 cause) el

/-! ## Halting the groups a fence affects, R776, R777 -/

/-- R776: a slot of a group that is not EMPTY lies on a core. -/
def groupUses (s : State) (g : Group) (c : Nat) : Bool :=
  g.cores.contains c &&
  (if g.resident then (coreOf s c).slots.any (fun v => v.2.state ≠ .empty)
   else (look g.saved c .fresh).slots.any (fun v => v.2.state ≠ .empty))

/-- R505: what a save under way leaves on its cores when it ends early: the slots as they were, and open endpoints. -/
def unsave (s : State) (g : Group) : State :=
  let was (c k : Nat) (v : Slot) : Slot :=
    if v.state = .stopped then { v with state := (look (look g.saved c .fresh).slots k v).state } else v
  each g.cores (parkEnds s g false) (fun c s =>
    setCore s c { coreOf s c with slots := (coreOf s c).slots.map (fun v => (v.1, was c v.1 v.2)) })

/-- R776, R789, R505: the groups that use a core are to be re-placed. -/
def affectCores (s : State) (cores : List Nat) : State :=
  each (keys s.slices) s (fun h s =>
    each (List.range (groupsOf s h).length) s (fun i s =>
      match (groupsOf s h)[i]? with
      | none => s
      | some g =>
        let hit := cores.filter (groupUses s g)
        if hit.isEmpty then s
        else
          let s := if g.image = .saving then failImages (if g.prog.isEmpty then s else unsave s g) h g g.cores else dropRestore s h i
          let s := if g.resident && !g.halted then quietCores s g.cores else s
          let saved_ := g.image = .saving || g.image = .restoring
          let s := setGroup s h i { g with
            halted := g.halted || g.resident
            image := if g.image = .saving then .empty else if g.image = .restoring then .saved else g.image
            prog := if saved_ then [] else g.prog
            saved := if g.image = .saving then [] else g.saved
            affected := hit.foldl addTo g.affected }
          if g.image = .saving then unpark s g.cores else s))

/-- R769: retire a page: what a slice maps there moves to a free frame of the same stack, by an override entry, or by a
rebuild while all 64 are in use (R485). -/
def movePages (s : State) (stack page : Nat) : State :=
  let at_ := page * 2 ^ 16
  let hit := s.xlat.leaves.filter (fun l => !(ptTier l.entry.toNat) && ptLoc l.entry.toNat = stack &&
    overlaps (ptFrame l.entry.toNat) (pageBytes l.size) at_ (2 ^ 16))
  each hit s (fun l s =>
    let s := if 64 ≤ s.xlat.overrides.length then foldOldest s else s
    match frameIn s stack l.size with
    | none => s
    | some f =>
      let e := l.entry.toNat
      let target := { l with entry := mkLeaf (ptWrite e) (ptShared e) false false stack f }
      let n := pageBytes l.size
      let s := dropPages s [l]
      let key := keyOf l.space l.off
      let over_ := s.xlat.overrides.filter (fun o => !(o.space = l.space && o.off = l.off))
      let s := { s with
        mem := copyRange s.mem (leafPhys l l.off) (hbmPhys stack f) n
        xlat := { s.xlat with overrides := over_, leaves := s.xlat.leaves.map (fun o => if o = l then target else o) } }
      let s :=
        if over_.length < 64 then { s with xlat := { s.xlat with overrides := over_ ++ [target] } }
        else match rebuildWindow s (windowEntry s 0 key).owner key [(l.off, l.size, target.entry)] with
          | some t => retireWindows t
          | none => s
      bump (discardCached (markOverrides s) (fun o => o.space = l.space && overlaps o.off (pageBytes o.size) l.off n)) ctrRegionMoved
        (regionOfStack stack) 1)

/-- R456: the destinations an override entry hits, by their low n bits. -/
def hitsOf (o : Override) : Nat → List Nat
  | 0 => [0]
  | n + 1 =>
    let l := hitsOf o n
    if !(bitAt o.mask.toNat n) then l ++ l.map (· + 2 ^ n)
    else if bitAt o.mtch.toNat n then l.map (· + 2 ^ n) else l

/-- The route of a destination by an override table and the copies: of the wafer mesh, or, from 2^14 on, of the narrow network. -/
def tableHop (s : State) (table dest : Nat) (tbl : Bool) : Nat :=
  (overrideHit s table dest).getD (if table < 2 ^ 14 then tableRoute s tbl table dest else narrowTable s tbl (table - 2 ^ 14) dest)

/-- R428, R463: an override entry of a router that breaks the up/down rule makes its destinations unreachable instead. -/
def ruleDetour (s : State) (table : Nat) (o : Override) : Override :=
  let base := table / 2 ^ 14 * 2 ^ 14
  let router := table % 2 ^ 14
  if epKind router ≠ 0 || (hitsOf o 14).all (fun d => [false, true].all (fun b => neverRises (fun r => tableHop s (base + r) d b) router))
  then o else { o with code := 15 }

/-- R463: one override entry that hits what two of the same code hit. -/
def widened (a b : Override) : Override :=
  { a with mask := a.mask &&& b.mask &&& ~~~(a.mtch ^^^ b.mtch) }

/-- R463: the first entry of a list that shares its code with a later one is widened to take it in; the later one goes, and its
place is told. -/
def widenFirst : List Override → Nat → Option (List Override × Nat)
  | [], _ => none
  | a :: rest, i =>
    match rest.findIdx? (fun b => b.code = a.code) with
    | some j => (rest[j]?).map (fun b => (widened a b :: rest.eraseIdx j, i + 1 + j))
    | none => (widenFirst rest (i + 1)).map (fun r => (a :: r.1, r.2))

/-- R456, R462, R463: a router's table with a newer entry, which goes first; past 64 entries two are made one (DESIGN CHOICE, log
entry 14). -/
def withDetour (s : State) (table : Nat) (o : Override) : State :=
  let l := o :: look s.mesh.detour table []
  let n := look s.mesh.covered table 0
  let r := if l.length ≤ 64 then (l, n) else match widenFirst l 0 with
    | some (w, j) => (w, if l.length - n ≤ j then n - 1 else n)
    | none => (l.take 64, n - 1)
  { s with mesh := { s.mesh with detour := put s.mesh.detour table r.1, covered := if n = 0 then s.mesh.covered else put s.mesh.covered table r.2 } }

/-- R463: the cores of an endpoint. -/
def coresOfEp (ep : Nat) : List Nat := if epKind ep = 0 then [ep] else if epKind ep = 1 then clusterCores (ep % 2 ^ 12) else []

/-- R463: the cores that the override entries of some tables, and a list of destinations of rebuilt ones, leave unreachable. -/
def cutOff (s : State) (tables : List Nat) (routes : List Nat) : List Nat :=
  let gone (r : Nat) : List Nat := ((look s.mesh.detour r []).filter (fun o => o.valid && o.code = 15)).flatMap (fun o =>
    (hitsOf o 14).filter (fun d => overrideHit s r d = some 15))
  (((tables.flatMap gone ++ routes).filter (epServes s)).flatMap coresOfEp).eraseDups

/-- R463: a core that an override entry leaves unreachable from some router. -/
def coreCut (s : State) (c : Nat) : Bool :=
  s.mesh.detour.any (fun e => [epCore c, epHub (clusterOf c)].any (fun d => overrideHit s e.1 d = some 15))

/-- R466 step 2, R462: the override entries of a fence, and the rebuild it restarts or calls for. -/
def addDetours (s : State) (detours : List (Nat × Nat × Nat × Nat)) : State :=
  let t := each detours s (fun d s =>
    withDetour s d.1 { mtch := BitVec.ofNat 14 d.2.1, mask := BitVec.ofNat 14 d.2.2.1, code := d.2.2.2, valid := true })
  let t := each ((detours.map (·.1)).eraseDups) t (fun r s =>
    { s with mesh := { s.mesh with detour := put s.mesh.detour r ((look s.mesh.detour r []).map (ruleDetour s r)) } })
  let t := bumpMax t ctrModOverrideHigh 0 ((t.mesh.detour.map (fun e => e.2.length)).foldl max 0)
  if t.mesh.rebuild = 1 then { t with mesh := { t.mesh with restart := true } } else t

/-- The cores whose slots a fence of an element displaces, R764. -/
def displaced (el : Element) : List Nat :=
  match el.kind with
  | 1 => [el.id]
  | 2 => clusterCores el.id
  | _ => []

/-- R766: fence an element, with the override entries Furelo writes for it. A fence of an injection that displaces
nothing is cleared at once (R807). -/
def fenceElement (s : State) (el : Element) (origin cause : Nat) (detours : List (Nat × Nat × Nat × Nat)) : State :=
  if s.nv.fenceBits.contains el then s
  else
    let s := takeOut s el origin cause
    let s := if el.kind = 7 && !(wholeStack el.id) then movePages (bump (bump s ctrRegionRetired (elementRegion el) 1) ctrStackRetired (el.id % 128) 1)
        (el.id % 128) (el.id / 128) else s
    let s := if el.kind = 8 then
        { s with power := { s.power with demands := put s.power.demands el.id { look s.power.demands el.id .fresh with held := true } } }
      else s
    let s := addDetours s detours
    let cores := displaced el ++ cutOff s (detours.map (·.1)) []
    let struck := if el.kind = 8 then regionCores el.id else cores
    let used := (keys s.slices).any (fun h => (groupsOf s h).any (fun g => struck.any (groupUses s g)))
    let s := affectCores s cores
    if injectedFence s el cause && !used then restoreElement s el cause else s

/-! ## Triggers, R764 -/

/-- R764: hours as ticks of the supervisor's counter. -/
def ticksPerHour : Nat := 3600 * ticksPerS

/-- R764, R765: the detections of a class that meet an element's trigger. -/
def triggerMet (s : State) (el : Element) (cls : Nat) : Bool :=
  let mine := s.sup.detections.filter (fun d => d.element = el)
  let newest := (mine.head?).any (fun d => d.cls = cls)
  let within (len : Nat) (a b : Detection) : Bool := decide (a.at_ < b.at_ + len)
  match el.kind with
  | 2 => newest && (match mine with
      | a :: b :: _ => within ticksPerHour a b
      | _ => false)
  | 7 =>
    let e := look (regOf s (regionOfStack (el.id % 128))).pageErrs el.id (0, 0)
    (cls = 4 && decide (2 ≤ e.2)) || (cls = 3 && decide (64 ≤ e.1) && decide (e.2 < 2))
  | 8 => newest && (match mine.filter (fun d => d.cls % 128 = 16) with
      | a :: b :: _ => within (24 * ticksPerHour) a b
      | _ => false)
  | _ => mine.any (fun d => d.cls = cls && d.hard)

/-- R466 step 2: Furelo writes the override entries of a link that has been fenced already, by whatever command or event; what
they leave unreachable is re-placed (R463). -/
def detourFence (s : State) (el : Element) (detours : List (Nat × Nat × Nat × Nat)) : State :=
  if (el.kind = 3 || el.kind = 4) && !detours.isEmpty then
    let s := addDetours s detours
    affectCores s (cutOff s (detours.map (·.1)) [])
  else s

/-- A fence, R764; of an element that is fenced, what remains to be done of it (R466). -/
def execFence (kind id cls : Nat) (detours : List (Nat × Nat × Nat × Nat)) (s : State) : Host.Outcome State Fault Refusal :=
  let el : Element := { kind := kind, id := id }
  .next (if s.nv.fenceBits.contains el then detourFence s el detours
    else if elementExists s el && triggerMet s el cls then fenceElement s el 1 cls detours else s)

/-! ## Rebuilding the route tables, R462, R463 -/

/-- R457, R459, R462, R293: Furelo writes the shadow copies, from the start again after a new fence, and sends the switch
order once they obey R428. -/
def rebuildRoutes (s : State) (writes narrow : List (Nat × Nat × Nat)) (done : Bool) : State :=
  if 2 ≤ s.mesh.rebuild then s
  else
    let again := s.mesh.restart || s.mesh.rebuild = 0
    let t := if again then clearShadow s else s
    let t := writeShadow { t with mesh := { t.mesh with rebuild := 1, restart := false } } writes narrow
    if done && shadowGood t then
      let t := bump (bump { t with mesh := { t.mesh with
        rebuild := 2, switched := [], covered := t.mesh.detour.map (fun e => (e.1, e.2.length)) } } ctrModRebuilds 0 1) ctrModSwaps 0 1
      -- R463: what the new routes leave unreachable
      affectCores t (cutOff t [] (((if t.mesh.active then t.mesh.copy0 ++ t.mesh.narrow0 else t.mesh.copy1 ++ t.mesh.narrow1).filter
        (fun e => e.2 = 15)).map (fun e => e.1 % 2 ^ 14)))
    else t

/-- R462. -/
def execRouteRebuild (writes : RouteWrites) (done : Bool) (s : State) : Host.Outcome State Fault Refusal :=
  .next (rebuildRoutes s writes.mesh writes.narrow done)

end Sys2Proof.Machine
end

