-- ==== Sys2Proof/Machine/Cloves.lean ====
section
/-! DEFINITION. Clove records: the state of a region as captured before a reset (16_recovery.md R829 to R833). -/

namespace Sys2Proof.Machine

/-- Bytes placed at an offset of a record, zeros left out. -/
def placed (off : Nat) (l : List Byte) : Tab Byte :=
  (l.zipIdx.filter (fun e => e.1 ≠ 0)).map (fun e => (off + e.2, e.1))

/-- R831 section 6: the state words. -/
def cloveWords (g : Region) : Tab Byte := (g.sync.map (fun e => placed (0x6F1000 + 8 * e.1) (bytesOf 8 e.2.toNat))).flatten

/-- R831 section 7: an entry of the wait table (its layout is this model's, log entry 19). -/
def waitBytes (p : Parked) : List Byte :=
  bytesOf 2 p.index ++ bytesOf 1 p.op ++ bytesOf 1 p.slot ++ bytesOf 2 p.core ++ bytesOf 2 p.step ++ bytesOf 8 p.operand.toNat ++
  bytesOf 8 p.before.toNat ++ bytesOf 4 p.tag ++ bytesOf 4 0

/-- R831 section 7. -/
def cloveWaits (g : Region) : Tab Byte := (g.waits.zipIdx.map (fun e => placed (0x771000 + 32 * e.2) (waitBytes e.1))).flatten

/-- R831 section 3: the lane stores of a region's cores. -/
def cloveLanes (s : State) (r : Nat) : Tab Byte :=
  ((regionCores r).zipIdx.map (fun e =>
    match look? s.cores e.1 with
    | some co => placed (0x169000 + 67584 * e.2) (laneStore co).1
    | none => [])).flatten

/-- R829, R830, R832: write a record of a region; with its compute gone, only what the memory-side die held. -/
def writeClove (s : State) (r domain trigger cls target config : Nat) (computeGone : Bool) : State :=
  let n := s.free
  let s := (freeNext s).2
  let g := regOf s r
  let h := (sliceOfRegion s r).getD 0
  let body := if h = 0 then [] else cloveWords g ++ cloveWaits g ++ (if computeGone then [] else cloveLanes s r)
  let c : Clove :=
    { domain := domain, trigger := trigger, cls := cls, injected := decide (0x80 ≤ cls ∧ cls ≠ 0xFF)
      target := target, handle := h, config := config, stamp := regionNow s r
      sections := if computeGone then 0xC1 else 0xFF, seq := g.cloveSeq + 1, noted := none, free := n, body := body }
  let t := setReg s r { g with cloves := (c :: g.cloves).take (if h = 0 then 1 else 8), cloveSeq := g.cloveSeq + 1 }
  let t := bump t ctrRegionCloves r 1
  if computeGone then bump t ctrRegionClovesBad r 1 else t

/-- R831: a byte of a section captured whose layout the spec leaves to the image version or does not give: 1, 2, 4 and 5. -/
def openSection (c : Clove) (off : Nat) : Bool :=
  [(1, 0x1000, 0x169000), (4, 0x691000, 0x6E1000), (5, 0x6E1000, 0x6F1000)].any (fun e =>
    c.sections.getLsbD e.1 && decide (e.2.1 ≤ off) && decide (off < e.2.2))

/-- R832: a byte of sections 1 to 7. -/
def cloveByte (c : Clove) (off : Nat) : Byte :=
  if c.handle ≠ 0 && openSection c off then Config.cloveByte c.free off
  else ((c.body.find? (fun e => e.1 = off)).map (·.2)).getD 0

/-- R832 check: CRC-32C over sections 1 to 7. -/
def cloveCheck (c : Clove) : Nat := crc32c ((List.range (0x791000 - 0x1000)).map (fun i => cloveByte c (0x1000 + i)))

/-- R832: the header. -/
def cloveHeader (c : Clove) (r : Nat) : List Byte :=
  bytesOf 1 1 ++ bytesOf 1 (c.domain + bn (c.sections = 0xFF) * 8 + bn c.injected * 16) ++ bytesOf 1 c.trigger ++
  bytesOf 1 c.cls ++ bytesOf 4 r ++ bytesOf 4 c.handle ++ bytesOf 4 c.target ++ bytesOf 8 c.stamp ++ bytesOf 8 r ++
  bytesOf 4 c.sections.toNat ++ bytesOf 4 c.seq ++ bytesOf 4 (cloveCheck c) ++
  bytesOf 4 c.config ++ List.replicate 208 0

/-- R833: a page of a record. -/
def clovePage (c : Clove) (r n : Nat) : List Byte :=
  if n = 0 then cloveHeader c r else (List.range 256).map (fun i => cloveByte c (n * 256 + i))

end Sys2Proof.Machine
end

