-- ==== Sys2Proof/Machine/Replace.lean ====
section
/-! DEFINITION. Re-placement: the slots of fenced cores move onto substitutes (15_healing.md R776 to R791). -/

namespace Sys2Proof.Machine

/-! ## Substitutes, R779 -/

/-- Mesh hops between two cores. -/
def hopsBetween (a b : Nat) : Nat :=
  (coreX a - coreX b) + (coreX b - coreX a) + (coreY a - coreY b) + (coreY b - coreY a)

/-- R779, R740, R800, R463: a core that may become a substitute of core a in slice h. A core of a group that is saved out holds no
slot; it serves while one of its save images is free (R497). -/
def maySubstitute (s : State) (h a b : Nat) : Bool :=
  let partners := ((coreOf s a).slots.filterMap (fun v => (v.2.twin.map (·.1)).orElse (fun _ => v.2.primary.map (·.1)))).map clusterOf
  sliceOfCore s b = some h && coreUsable s b && shedOf s (regionOf b) = .lit &&
  (look s.power.demands (regionOf b) .fresh) = .fresh &&
  (coreOf s b).slots.all (fun v => v.2.state = .empty) &&
  (groupsOf s h).all (fun g => !(g.cores.contains b) ||
    (!g.resident && (look g.saved b .fresh).slots.all (fun v => v.2.primary.isNone))) &&
  freePlace (groupsOf s h) b ≠ 4 && !(coreCut s b) &&
  (modeOfCore s a ≠ 2 || !(partners.contains (clusterOf b)))

/-- R779: same region first, then fewest hops, then lowest ID. -/
def substituteRank (a b : Nat) : Nat := bn (regionOf a ≠ regionOf b) * 2 ^ 40 + hopsBetween a b * 2 ^ 16 + b

/-- The substitute of a core among those not taken. -/
def substituteFor (s : State) (h a : Nat) (taken : List Nat) : Option Nat :=
  let regions := ((look? s.slices h).map (·.regions)).getD []
  let all_ := ((regions.map regionCores).flatten).filter (fun b => !(taken.contains b) && maySubstitute s h a b)
  all_.foldl (fun best b => match best with
    | none => some b
    | some x => if substituteRank a b < substituteRank a x then some b else best) none

/-- R779: the substitutes of several cores, or none when there are too few. -/
def substitutes (s : State) (h : Nat) : List Nat → List Nat → Option (List (Nat × Nat))
  | [], _ => some []
  | a :: rest, taken =>
    match substituteFor s h a taken with
    | none => none
    | some b => (substitutes s h rest (b :: taken)).map (fun l => (a, b) :: l)

/-! ## Moving a core, R780 to R785 -/

/-- A core ID as a move maps it. -/
def mapCore (moves : List (Nat × Nat)) (c : Nat) : Nat := ((moves.find? (·.1 = c)).map (·.2)).getD c

/-- A unit as a move maps it. -/
def mapUnit (moves : List (Nat × Nat)) : Unit → Unit
  | .coreCopy c => .coreCopy (mapCore moves c)
  | .stream c k n => .stream (mapCore moves c) k n
  | .hubCopy h => .hubCopy h
  | .merge h => .merge h
  | .fabric => .fabric
  | .hostPort => .hostPort
  | .furelo => .furelo

/-- R781: the relocation entries of a slot after a move: an entry that names a moved substitute follows it. -/
def mapReloc (moves : List (Nat × Nat)) (l : List (Nat × Nat)) : List (Nat × Nat) :=
  let kept := l.map (fun e => (e.1, mapCore moves e.2))
  kept ++ (moves.filter (fun m => !(l.any (fun e => e.2 = m.1))))

/-- A slot of the group after a move. -/
def mapSlot (moves : List (Nat × Nat)) (v : Slot) : Slot :=
  { v with reloc := mapReloc moves v.reloc, twin := v.twin.map (fun p => (mapCore moves p.1, p.2))
           primary := v.primary.map (fun p => (mapCore moves p.1, p.2)) }

/-- An accumulation after a move. -/
def mapAcc (moves : List (Nat × Nat)) (a : OpenAcc) : OpenAcc :=
  { a with first := { a.first with core := mapCore moves a.first.core } }

/-- An engine after a move. -/
def mapEngine (moves : List (Nat × Nat)) (e : Engine) : Engine :=
  { e with
    waiting := e.waiting.map (fun w => { w with core := mapCore moves w.core })
    queue := e.queue.map (fun w => { w with core := mapCore moves w.core })
    acc := e.acc.map (mapAcc moves)
    tile0 := { e.tile0 with done := e.tile0.done.map (mapAcc moves) }
    tile1 := { e.tile1 with done := e.tile1.done.map (mapAcc moves) }
    sent := e.sent.map (mapAcc moves)
    kept := e.kept.map (fun k => (k.1, mapAcc moves k.2)) }

/-- A copy job after a move. -/
def mapJob (moves : List (Nat × Nat)) (j : CopyJob) : CopyJob := { j with core := mapCore moves j.core }

/-- A core's contents after a move. -/
def mapBody (moves : List (Nat × Nat)) (co : Core) : Core :=
  { co with slots := co.slots.map (fun v => (v.1, mapSlot moves v.2)), copies := co.copies.map (mapJob moves) }

/-- A share that an engine has not taken keeps its place: what a lane supplied is not received again (R381). -/
def keepsShare (s : State) (c k n : Nat) : Bool := stSel (strmOf (slotOf s c k) n).desc = 3

/-- R386: a load delivered into the half an engine has not taken goes back to its stream. -/
def stepBack (s : State) (e : Engine) (c k n : Nat) : State :=
  let t := strmOf (slotOf s c k) n
  let t := { t with done := t.done - 1, since := t.done - 1, staged := [], drawn := [] }
  writeElems (match e.acc with
  | some a => setStrm s c k n (if a.used.isEmpty then { t with marks := cut t.marks a.tile } else t)
  | none => setStrm s c k n t) c k n

/-- R785: an accumulation on a substitute starts again from its marks. -/
def rewindEngine (s : State) (id : Nat) : State :=
  let e := engOf s id
  match wantedLoad e, e.acc with
  | w, some a =>
    let h := halfOf e e.nextHalf
    let s := match w with
      | some (u, w) =>
        let keepA := h.aDone && keepsShare s w.core w.slot u.a
        let keepB := h.bDone && keepsShare s w.core w.slot u.b
        let s := if h.aDone && !keepA then stepBack s e w.core w.slot u.a else s
        let s := if h.bDone && !keepB then stepBack s e w.core w.slot u.b else s
        setEng s id (setHalf e e.nextHalf (if keepA || keepB then { h with aDone := keepA, bDone := keepB } else .fresh))
      | none => s
    if a.used.isEmpty then s else restart s id { a with checked := false, again := false }
  | _, none => s

/-- R780: a core's slots, lane store and memory move to its substitute, with its engines' work. -/
def moveCore (s : State) (moves : List (Nat × Nat)) (a b : Nat) : State :=
  let s := { s with mem := copyRange s.mem (corePhys a 0) (corePhys b 0) coreBytes }
  let s := each (List.range 4) s (fun i s =>
    let e := engOf s (engineOf a i)
    let s := { s with mem := copyRange s.mem (bufPhys (engineOf a i) 0) (bufPhys (engineOf b i) 0) (2 ^ 18) }
    setEng (setEng s (engineOf b i) { mapEngine moves e with defect := (engOf s (engineOf b i)).defect }) (engineOf a i)
      { Engine.fresh with defect := e.defect })
  let co := coreOf s a
  let s := setCore s b { mapBody moves co with
    nextTag := (coreOf s b).nextTag, ends := (co.ends.filter (·.2.isOpen)).foldl (fun t e => put t e.1 e.2) (coreOf s b).ends }
  let s := setCore s a { Core.fresh with nextTag := co.nextTag, ends := closedEnds co }
  let from_ := hubOf s (clusterOf a)
  let mine := from_.copies.filter (fun j => j.core = a)
  let merges := from_.merges.filter (fun j => j.core = a)
  let s := setHub s (clusterOf a) { from_ with
    copies := from_.copies.filter (fun j => j.core ≠ a), merges := from_.merges.filter (fun j => j.core ≠ a) }
  let to_ := hubOf s (clusterOf b)
  setHub s (clusterOf b) { to_ with
    copies := to_.copies ++ mine.map (mapJob moves)
    merges := to_.merges ++ merges.map (fun j => { j with core := b }) }

/-- R786: the landing areas of a slot that a contributor on a moved core feeds begin again, at the same replay. -/
def relandSlot (s : State) (moves : List (Nat × Nat)) (c k : Nat) : State :=
  let v := slotOf s c k
  each v.areas s (fun e s =>
    let i := e.1 / 2
    let r := e.2
    let entry := landEntry s c v i
    let hit := (leEngines s c entry).any (fun g =>
      moves.any (fun m => m.2 = relocated (slotOf s c k) (coreOfEngine g)))
    if r.bound && hit then
      tellContributors (setArea s c k i (e.1 % 2) { r with chunks := [] }) c k entry
        (fun g => .replayRequest g r.row r.col r.replay)
    else s)

/-- What the module keeps elsewhere about moved cores, and the messages in flight from the group's own cores `own` (R781);
those of other units keep their destination (R783). What a moved core has yet to send it sends from where it is now. -/
def mapElsewhere (s : State) (moves : List (Nat × Nat)) (own : List Nat) : State :=
  let moved (c : Nat) : Bool := moves.any (fun m => m.1 = c)
  let unitMoved (u : Unit) : Bool := mapUnit moves u ≠ u
  let x := s.xlat
  let slotNo (u : Nat) : Nat := mapCore moves (u / 4) * 4 + u % 4
  let conf (f : Conf) : Conf := { f with members := f.members.map slotNo, stalled := f.stalled.map slotNo, full := f.full.map (fun e => (slotNo e.1, e.2)) }
  { s with
    xlat := { x with
      walks := x.walks.filter (fun w => !(unitMoved w.unit))
      cache := x.cache.filter (fun e => !(unitMoved e.unit))
      migrating := x.migrating.map (fun m => { m with waiting := m.waiting.map (mapUnit moves) }) }
    hp := { s.hp with backInv := s.hp.backInv.map (fun b => { b with units := b.units.map (mapUnit moves) }) }
    narrow := s.narrow.map (fun m =>
      let m := if msgTo m = m.dst && moved m.dst && own.contains m.src then { m with dst := mapCore moves m.dst } else m
      if msgFrom m = m.src && moved m.src && (m.place.isNone || atSource m) then { m with src := mapCore moves m.src, place := none } else m)
    slices := s.slices.map (fun e => (e.1, { e.2 with confs := e.2.confs.map (fun f => (f.1, conf f.2)) })) }

/-! ## The outcome -/

/-- R807, R785: the injected fences whose re-placement has completed are cleared. -/
def clearInjected (s : State) : State :=
  each s.nv.fenceBits s (fun el s =>
    let last := ((allRecords s).filter (fun r => r.element = el.kind && r.id = el.id)).getLast?
    let injected := last.any (fun r => injectedFence s el r.cause && r.origin = 1)
    let waiting := (keys s.slices).any (fun h => (groupsOf s h).any (fun g => (displaced el).any (fun c => g.affected.contains c)))
    if injected && !(displaced el).isEmpty && !waiting then restoreElement s el ((last.map (·.cause)).getD 0) else s)

/-- R776: the last fence record of a core or of its cluster's hub. -/
def lastFence (s : State) (c : Nat) : Option DefectRec :=
  ((allRecords s).filter (fun r => (r.element = 1 && r.id = c) || (r.element = 2 && r.id = clusterOf c))).getLast?

/-- R776: the class of the last fence of a core or of its cluster's hub, or 0. -/
def fenceClass (s : State) (c : Nat) : Nat := ((lastFence s c).map (·.cause)).getD 0

/-- R788: a fence of this group's was caused by a rehearsal. -/
def rehearsed (s : State) (g : Group) : Bool :=
  !g.affected.isEmpty && g.affected.all (fun c => (lastFence s c).any (fun r => injectedFence s ⟨r.element, r.id⟩ r.cause))

/-- R788: why `heal.policy` forbids a re-placement now. -/
def healForbids (s : State) (h : Nat) (g : Group) : Bool :=
  let p := ((look? s.slices h).map (·.heal)).getD .initial
  let recent := (look s.sup.replaced h []).filter (fun t => !windowOver s.clocks.sup t (3600 * ticksPerS))
  !p.auto || (p.limit ≠ 0 && decide (p.limit ≤ recent.length) && !rehearsed s g)

/-- R790: a group that cannot be re-placed. -/
def failReplace (s : State) (h i cause : Nat) (g : Group) : State :=
  let s := bump s (ctrSliceNotReplaced.plus (cause - 0xA1)) h 1
  let s := setGroup s h i { g with halted := false, affected := [] }
  if g.resident then
    each (slotsWhere s g.cores (fun _ => true)) s (fun e s => rejectStep s e.1 e.2 (slotOf s e.1 e.2).ip cause e.1 0 0)
  else
    let s := each g.saved s (fun c s => each c.2.slots s (fun v s =>
      if v.2.state = .empty then s
      else (recordInImage s h i (((groupsOf s h)[i]?).getD g) c.1 v.1
        (fun lost => errorRecord s lost c.1 v.1 2 cause c.1 v.2.ip 0 0 0 0)).1))
    let fault (v : Slot) : Slot :=
      if v.state = .empty then v else { v with state := .faulted, stopping := false, faultCause := cause, faultUnit := 2, faultAddr := 0 }
    let g := ((groupsOf s h)[i]?).getD g
    setGroup s h i { g with
      saved := g.saved.map (fun c => (c.1, { c.2 with ends := closedEnds c.2, slots := c.2.slots.map (fun v => (v.1, fault v.2)) })) }

/-- R785, R788: the slots of a re-placed group go on, or stay STOPPED under hold. -/
def restartGroup (s : State) (h i : Nat) (g : Group) (hold : Bool) : State :=
  let s := each (slotsWhere s g.cores (fun v => activeState v.state)) s (fun e s => onSlot s e.1 e.2 (fun v =>
    { v with state := if hold then .stopped else .ready, stopping := false }))
  let s := each g.cores (setGroup (if hold then dropWindows s h g else s) h i { g with halted := false, affected := [] }) (fun c s => wakeCore s c)
  each g.configs s (fun k s => watchStall s h k)

/-- R780 to R786 for a group on its cores. -/
def moveGroup (s : State) (h i : Nat) (g : Group) (moves : List (Nat × Nat)) (hold : Bool) : State :=
  let s := each moves s (fun m s => moveCore s moves m.1 m.2)
  let cores := g.cores.map (mapCore moves)
  let s := each cores s (fun c s => each (keys (coreOf s c).slots) s (fun k s =>
    if moves.any (fun m => m.2 = c) then s else onSlot s c k (mapSlot moves)))
  let s := mapElsewhere s moves g.cores
  let s := each moves s (fun m s => each (List.range 4) s (fun j s => rewindEngine s (engineOf m.2 j)))
  let s := each cores s (fun c s => each (keys (coreOf s c).slots) s (fun k s => relandSlot s moves c k))
  let others := (groupsOf s h).eraseIdx i
  restartGroup s h i { g with cores := cores, places := placesOn others g.places cores } hold

/-- R777, R780: the same for a group that is saved out: its images are copied for the substitutes. -/
def moveSaved (s : State) (h i : Nat) (g : Group) (moves : List (Nat × Nat)) : State :=
  let cores := g.cores.map (mapCore moves)
  let g' := { g with
    cores := cores, affected := [], halted := false, places := placesOn ((groupsOf s h).eraseIdx i) g.places cores
    saved := (g.saved.map (fun c => (mapCore moves c.1, mapBody moves c.2))).foldl (fun t e => put t e.1 e.2) []
    engs := (g.engs.map (fun e => (engineOf (mapCore moves (coreOfEngine e.1)) (e.1 % 4), mapEngine moves e.2))).foldl
      (fun t e => put t e.1 e.2) []
    jobs := moves.foldl (fun t m =>
      let a := look t (clusterOf m.1) .fresh
      let t := put t (clusterOf m.1) { a with copies := a.copies.filter (·.core ≠ m.1), merges := a.merges.filter (·.core ≠ m.1) }
      let b := look t (clusterOf m.2) .fresh
      put t (clusterOf m.2) { b with
        copies := b.copies ++ (a.copies.filter (·.core = m.1)).map (mapJob moves)
        merges := b.merges ++ (a.merges.filter (·.core = m.1)).map (fun j => { j with core := m.2 }) }) g.jobs }
  let s := each moves s (fun m s =>
    let s := if g.pool.isNone then each (List.range 128) s (fun n s =>
        match imageAt s g m.1 (n * 65536), imageAt s g' m.2 (n * 65536) with
        | some p, some q => { s with mem := copyRange s.mem p q 65536 }
        | _, _ => s) else s
    let head := natOf (imageRead s g' m.2 0 32)
    imagePut s g' m.2 0 (bytesOf 32 (setBits head 4 12 m.2)))
  setGroup (mapElsewhere s moves (g.cores.filter (fun c => !((groupsOf s h).any (fun o => o.resident && o.cores.contains c))))) h i g'

/-- R776 to R791: re-place a group once its units are quiet. -/
def replaceGroup (s : State) (h i : Nat) (unreadable : Bool) : State :=
  match (groupsOf s h)[i]? with
  | none => s
  | some g =>
    if g.affected.isEmpty || (g.resident && (!g.halted || g.cores.any (coreBusy s) || packetsWithin s g)) then s
    else
      let s : State := each (g.affected.map regionOf).eraseDups s (fun r t =>
        let cls := ((((g.affected.filter (fun c => regionOf c = r)).map (fenceClass s)).find? (· ≠ 0)).getD 0)
        writeClove t r 7 5 cls 0 0 false)
      let counts := !(rehearsed s g)
      let policy := ((look? s.slices h).map (·.heal)).getD .initial
      let done := match substitutes s h g.affected [] with
        | none => (if healForbids s h g then failReplace s h i 0xA3 g else failReplace s h i 0xA1 g)
        | some moves =>
          let held := if g.resident then (slotsWhere s g.cores (fun _ => true)).map (fun e => slotOf s e.1 e.2)
            else (g.saved.map (fun c => c.2.slots.map (·.2))).flatten
          let relocs := held.foldl (fun n v => max n (mapReloc moves v.reloc).length) 0
          if healForbids s h g then failReplace s h i 0xA3 g
          else if 80 < relocs then failReplace s h i 0xA4 g
          else if unreadable then failReplace s h i 0xA2 g
          else
            let s := if g.resident then moveGroup s h i g moves policy.hold else moveSaved s h i g moves
            let s := bump (bump s ctrSliceReplaced h 1) ctrSliceSubstituted h moves.length
            if counts then { s with sup := { s.sup with replaced := put s.sup.replaced h (s.clocks.sup :: look s.sup.replaced h []) } }
            else s
      clearInjected done

/-- A re-placement, R776. -/
def execReplacement (handle group : Nat) (unreadable : Bool) (s : State) : Host.Outcome State Fault Refusal :=
  .next (replaceGroup s handle group unreadable)

end Sys2Proof.Machine
end

