-- ==== Sys2Proof/Machine/Tiers.lean ====
section
/-! DEFINITION. The tier ports and their devices, and fencing ports (11_cxl.md R615 to R622, 10_rolben.md R568). -/

namespace Sys2Proof.Machine

/-! ## Requests that a device no longer answers -/

/-- R620, R492: a request of a unit will not complete: the unit halts at that record and its slot is FAULTED. -/
def tierFault (s : State) (p : Packet) : State :=
  let a := p.ext.toNat % 2 ^ 50
  let s := freeAnswered s p.src p.dest (answerOf p)
  match issuerOf s p.unit p.rtag with
  | none => haltUnit s p.unit p.rtag (.fault 0x84 a)
  | some (c, k, step) => unitFault (haltUnit s p.unit p.rtag (.fault 0x84 a)) c k step 0x84 a (unitClass p.unit)

/-- R620: the requests of a port that satisfy p are given up. -/
def dropRequests (s : State) (port : Nat) (gone : TierReq → Bool) : State :=
  let t := tierOf s port
  let l := t.reqs.filter gone
  each l (setTier s port { t with reqs := t.reqs.filter (fun q => !(gone q)) }) (fun q s =>
    tierFault s q.packet)

/-- R596, R60: `TP_STATUS` of a port, and with it the capability table, has changed from what it was in `old`; a fence has
counted the table's change already. -/
def tierChanged (old s : State) (port : Nat) : State :=
  if tpStatus old port = tpStatus s port then s
  else if old.caps.gen = s.caps.gen then capsChanged (hostEvent s evTier)
  else hostEvent s evTier

/-- R620, R60: the links of every tier port go down as their dies lose power. -/
def tiersDown (s : State) : State :=
  each (keys s.tiers) s (fun p s =>
    tierChanged s (setTier s p { tierOf s p with linkUp := false, width := 0, rate := 0, reqs := [] }) p)

/-- R481, R617: translations of frames that a port no longer serves are discarded. -/
def dropTierLeaves (s : State) (port : Nat) : State :=
  discardCached s (fun l => ptTier l.entry.toNat && ptLoc l.entry.toNat % 8 = port)

/-! ## Fencing a tier port, R619, R620 -/

/-- R619, R764: fence a tier port. -/
def fenceTier (s : State) (port origin cause : Nat) : State :=
  let el : Element := { kind := 6, id := port }
  if s.nv.fenceBits.contains el || !(tierEnabled s.fuses.ordering port) then s
  else
    let t := takeOut s el origin cause
    let t := bump (setTier t port { tierOf t port with fenced := true }) ctrTierFences port 1
    tierChanged s (dropTierLeaves (dropRequests t port (fun _ => true)) port) port

/-- R619: a condition that fences a port has been met. -/
def tierFails (s : State) (port : Nat) : State :=
  if !(tierEnabled s.fuses.ordering port) || (tierOf s port).fenced then s
  else fenceTier (detect s { kind := 6, id := port } 0x16 true 0) port 1 0x16

/-- R620: the link of a port goes down and cannot be retrained. -/
def tierLinkDown (s : State) (port : Nat) : State :=
  if !(tierOf s port).linkUp then s
  else
    let t := setTier s port { tierOf s port with linkUp := false }
    if t.caps.tiersOut.contains port then tierChanged s t port else tierFails t port

/-! ## Devices, R617, R618 -/

/-- R617, R616: append a device of a capacity in GiB, at most 8 devices and 4 TiB. -/
def addDevice (t : TierPort) (gib : Nat) : TierPort :=
  let base := t.devices.foldl (fun a d => max a (d.1 + d.2)) 0
  let room := 4096 - base
  if 8 ≤ (t.devices.filter (fun d => d.2 ≠ 0)).length || gib = 0 || room = 0 then { t with unsupported := true }
  else { t with devices := t.devices ++ [(base, min gib room)] }

/-- R618: a device is hot-added to a running port. -/
def hotAdd (s : State) (port gib : Nat) : State :=
  let p := tierOf s port
  if !p.linkUp || p.fenced then s
  else tierChanged s (bump (setTier s port (addDevice p gib)) ctrTierAdds port 1) port

/-- The device of a port that holds a physical address of its range. -/
def deviceHolds (d : Nat × Nat) (phys : Nat) : Bool :=
  decide (d.1 * 2 ^ 30 ≤ phys % 2 ^ 42) && decide (phys % 2 ^ 42 < (d.1 + d.2) * 2 ^ 30)

/-- R620: a device is removed: its place stays, and nothing serves it. -/
def removeDevice (s : State) (port device : Nat) : State :=
  let p := tierOf s port
  match p.devices[device]? with
  | none => s
  | some d =>
    if d.2 = 0 then s
    else
      let t := bump (setTier s port { p with devices := p.devices.set device (d.1, 0) }) ctrTierRemovals port 1
      let t := { t with mem := zeroRange t.mem (tierPhys port (d.1 * 2 ^ 30)) (tierPhys port ((d.1 + d.2) * 2 ^ 30)) }
      tierChanged s (dropTierLeaves (dropRequests t port (fun q => deviceHolds d q.packet.phys)) port) port

/-! ## Requests, R621, R622 -/

/-- R621: a request has not completed within 1 ms. -/
def requestTimeout (s : State) (port request : Nat) : State :=
  let p := tierOf s port
  let now := look s.clocks.die (dieOfTier port) 0
  match p.reqs.find? (fun q => q.id = request) with
  | none => s
  | some q =>
    if !(windowOver now q.since ticksPerMs) then s
    else
      let s := bump s ctrTierTimeouts port 1
      if q.again then tierFails s port
      else
        let s := detect (bump s ctrTierRetrains port 1) { kind := 6, id := port } 0x16 false 0
        emit (setTier s port { p with
          reqs := onFirst (fun q => decide (q.id = request)) (fun q => { q with again := true, since := now }) p.reqs }) (.tierReq port request)

/-- R510, R509: a device has returned poison for an access. -/
def devicePoison (s : State) (port : Nat) (p : Packet) : State :=
  let lines := (p.phys + p.count - 1) / 64 - p.phys / 64 + 1
  let s := bump (bump s ctrTierPoisoned port lines) ctrRegionPoisoned (unitRegion p.unit) (8 * lines)
  { s with mem := poisonRange s.mem p.phys p.count }

/-- R621, R622: a device completes a request; the mesh request it serves is answered. -/
def requestDone (s : State) (port request : Nat) (poison : Bool) : State :=
  let t := tierOf s port
  match t.reqs.find? (fun q => q.id = request) with
  | none => s
  | some q =>
    let p := q.packet
    let s := setTier s port { t with reqs := t.reqs.filter (fun q => q.id ≠ request) }
    let s := if poison then devicePoison s port p else s
    if p.kind = 1 then respondWrite (bump (bump s ctrTierWrites port 1) ctrTierBytesOut port p.count) p
    else respondRead (bump (bump s ctrTierReads port 1) ctrTierBytesIn port p.count) p q.data
      (if poison then List.replicate (ceilDiv p.count 8) true else q.poison)

/-! ## Fencing a Rolben port, R568 -/

/-- R568: the override entries of a fabric route table for the destinations routed through a port: those given, and an
invalid entry for a destination without one. -/
def rerouted (t : RouteTab) (port : Nat) (given : Tab Nat) : RouteTab :=
  let through := (keys t.active).filter (fun m => frValid (routeEntry t m) && frPort (routeEntry t m) = port)
  let more := (keys t.detour).filter (fun m => frValid (routeEntry t m) && frPort (routeEntry t m) = port)
  { t with detour := (through ++ more).eraseDups.foldl (fun d m => put d m (BitVec.ofNat 16 (look given m 0))) t.detour }

/-- R568: fence a Rolben port; `routes` are the entries Furelo writes, by table (0 the relay table, else the handle). -/
def fencePort (s : State) (port origin cause : Nat) (routes : List (Nat × Nat × Nat)) : State :=
  let el : Element := { kind := 5, id := port }
  if s.nv.fenceBits.contains el || !(portEnabled s.fuses.ordering port) then s
  else
    let given (h : Nat) : Tab Nat := (routes.filter (fun e => e.1 = h)).map (·.2)
    let p := portOf s port
    let owners := ((p.queue ++ (p.ready ++ p.retained).flatMap (·.rows)).map (·.owners)).flatten
    let t := takeOut s el origin cause
    let t := { t with
      fabric := { t.fabric with relay := rerouted t.fabric.relay port (given 0) }
      slices := t.slices.map (fun e => (e.1, { e.2 with origin := rerouted e.2.origin port (given e.1) })) }
    leaveDomain (haltOwners (setPort t port { RolPort.fresh with loopback := p.loopback }) owners)

/-- R568: more than one codeword in 10^6 of a window could not be corrected. -/
def portFails (p : RolPort) (now : Nat) : Bool :=
  p.joined && windowOver now p.cwAt (100000 * portUs) && decide (p.cwAll < p.cwBad * 10 ^ 6)

/-- Fence an element of any kind, R764, R766. -/
def fenceAny (s : State) (el : Element) (origin cause : Nat) : State :=
  match el.kind with
  | 5 => fencePort s el.id origin cause []
  | 6 => fenceTier s el.id origin cause
  | _ => fenceElement s el origin cause []

/-! ## The commands -/

/-- A port is fenced, R568. -/
def execPortFence (port : Nat) (routes : List (Nat × Nat × Nat)) (s : State) : Host.Outcome State Fault Refusal :=
  .next (if portFails (portOf s port) (portNow s port) then
    fencePort (detect s { kind := 5, id := port } 0x0F true 0) port 1 0x0F routes else s)

/-- A tier link goes down, R620. -/
def execTierLinkDown (port : Nat) (s : State) : Host.Outcome State Fault Refusal := .next (tierLinkDown s port)

/-- A device is hot-added, R618. -/
def execTierDeviceHotAdd (port gib : Nat) (s : State) : Host.Outcome State Fault Refusal := .next (hotAdd s port gib)

/-- A device is removed, R620. -/
def execTierDeviceRemoval (port device : Nat) (s : State) : Host.Outcome State Fault Refusal := .next (removeDevice s port device)

/-- A device signals a fatal error, R619. -/
def execTierDeviceFatal (port : Nat) (s : State) : Host.Outcome State Fault Refusal :=
  .next (if (tierOf s port).linkUp then tierFails s port else s)

/-- A request times out, R621. -/
def execTierRequestTimeout (port request : Nat) (s : State) : Host.Outcome State Fault Refusal :=
  .next (requestTimeout s port request)

/-- A device completes a request, R621. -/
def execTierRequestCompletion (port request : Nat) (poisoned : Bool) (s : State) : Host.Outcome State Fault Refusal :=
  .next (requestDone s port request poisoned)

end Sys2Proof.Machine
end

