-- ==== Sys2Proof/Machine/Shed.lean ====
section
/-! DEFINITION. Region shedding: what demands a step, parking, planned and unplanned dark, and relighting (15_healing.md
R792 to R800, 14_integrity.md R749, 19_physical.md R918 to R931). -/

namespace Sys2Proof.Machine

/-! ## Demands, R922 -/

/-- The demands on a region. -/
def demandsOf (s : State) (r : Nat) : Demands := look s.power.demands r .fresh

/-- R922: the highest step demanded: 0 lit, 1 throttled, 2 parked, 3 dark. -/
def demandLevel (d : Demands) : Nat :=
  max (max d.thermal d.power) (if d.excursion || d.held then 3 else if d.mask || d.reference then 2 else 0)

/-- Change the demands on a region. -/
def onDemands (s : State) (r : Nat) (f : Demands → Demands) : State :=
  { s with power := { s.power with demands := put s.power.demands r (f (demandsOf s r)) } }

/-- R792, R58, R60: a region is in a step from now on. -/
def setShed (s : State) (r : Nat) (step : Shed) : State :=
  if shedOf s r = step then s
  else
    let t := { s with
      caps := { s.caps with shed := if step = .lit then cut s.caps.shed r else put s.caps.shed r step }
      power := { s.power with waiting := cut s.power.waiting r } }
    let t := match step with
      | .lit => t
      | .throttled => bump t ctrRegionThrottled r 1
      | .parked => bump t ctrRegionParks r 1
      | .dark => bump t ctrRegionDark r 1
    capsChanged t

/-! ## Groups of a region -/

/-- A group has a core in a region. -/
def groupIn (g : Group) (r : Nat) : Bool := g.cores.any (fun c => regionOf c = r)

/-- Every group, as slice and place. -/
def allGroups (s : State) : List (Nat × Nat × Group) :=
  (s.slices.map (fun e => e.2.groups.zipIdx.map (fun g => (e.1, g.2, g.1)))).flatten

/-- R800: a re-placement is in progress. -/
def replacing (s : State) : Bool := (allGroups s).any (fun e => !e.2.2.affected.isEmpty)

/-- The cores whose groups have a core in a region. -/
def coresWith (s : State) (r : Nat) : List Nat :=
  (((allGroups s).filter (fun e => e.2.2.resident && groupIn e.2.2 r)).map (fun e => e.2.2.cores)).flatten

/-! ## Parking, R795 -/

/-- R795: park a region: its groups are halted and its compute clocks gated. -/
def parkRegion (s : State) (r : Nat) : State :=
  let s := each ((allGroups s).filter (fun e => e.2.2.resident && groupIn e.2.2 r)) s (fun e s => quietCores s e.2.2.cores)
  setShed s r .parked

/-- R794, R795: a region that is not dark takes a step below parked; what was halted in place goes on. -/
def unparkRegion (s : State) (r : Nat) (step : Shed) : State :=
  let was := shedOf s r
  let s := setShed s r step
  if was = .parked then each (coresWith s r ++ regionCores r).eraseDups s (fun c s => if (look? s.cores c).isSome then wakeCore s c else s)
  else s

/-- R800: a step to parked or dark waits for a re-placement in progress, for up to 20 ms. -/
def stepWaits (s : State) (r : Nat) : Bool :=
  replacing s && !((look? s.power.waiting r).any (fun t => windowOver s.clocks.sup t (20 * ticksPerMs)))

/-- R800: since when it waits. -/
def noteWait (s : State) (r : Nat) : State :=
  if (look? s.power.waiting r).isSome then s
  else { s with power := { s.power with waiting := put s.power.waiting r s.clocks.sup } }

/-- R800: nothing waits any more. -/
def endWait (s : State) (r : Nat) : State := { s with power := { s.power with waiting := cut s.power.waiting r } }

/-- R793, R800, R922: a region that is not dark follows its demands. -/
def settleShed (s : State) (r : Nat) : State :=
  let cur := shedOf s r
  if cur = .dark then s
  else match demandLevel (demandsOf s r) with
    | 0 => if cur = .lit then endWait s r else unparkRegion s r .lit
    | 1 => if cur = .throttled then endWait s r else unparkRegion s r .throttled
    | 2 => if cur = .parked then s else if stepWaits s r then noteWait s r else parkRegion s r
    | _ => if stepWaits s r then noteWait s r else s

/-- Change the demands on a region and follow them. -/
def demand (s : State) (r : Nat) (f : Demands → Demands) : State := settleShed (onDemands s r f) r

/-! ## Going dark, R792, R798 -/

/-- An endpoint of a region. -/
def endpointIn (r ep : Nat) : Bool :=
  match epKind ep with
  | 0 => regionOf ep = r
  | 1 => regionOfCluster (ep % 2 ^ 12) = r
  | 2 => epRegion ep = r
  | _ => false

/-- A packet that a dark region takes with it. -/
def packetIn (r : Nat) (p : Packet) : Bool := endpointIn r p.dest || endpointIn r p.src

/-- R798: a request that a dark region will not answer: its unit halts at that record until the region is relit. -/
def haltAtDark (s : State) (r : Nat) (p : Packet) : State :=
  if p.kind = 0 || p.kind = 1 then haltUnit (freeAnswered s p.src p.dest (answerOf p)) p.unit p.rtag (.dark r)
  else if p.kind = 2 || p.kind = 3 then haltUnit (freeAnswered s p.dest p.src p.answers) p.unit p.rtag (.dark r)
  else s

/-- The packets of the mesh and its endpoints that a dark region takes with it, and those that wait for its fills. -/
def lostPackets (s : State) (r : Nat) : List Packet :=
  (((s.mesh.wires ++ s.mesh.entering).map (fun e => if regionOf (e.1 / 8) = r then e.2 else e.2.filter (packetIn r))).flatten) ++
  (((s.mesh.arrived ++ s.mesh.held ++ s.mesh.reorder).map (fun e => if endpointIn r e.1 then e.2 else e.2.filter (packetIn r))).flatten) ++
  ((regOf s r).fills.map (·.waiting)).flatten

/-- The routers and endpoints of a region lose what they hold, messages without notice (R310), and every pair with one of them
starts anew. -/
def dropMesh (s : State) (r : Nat) : State :=
  let stay (l : List Packet) : List Packet := l.filter (fun p => !(packetIn r p))
  let pairs {α : Type} (t : Tab α) : Tab α := t.filter (fun e => !(endpointIn r (e.1 / 2 ^ 14) || endpointIn r (e.1 % 2 ^ 14)))
  let at_ (t : Tab (List Packet)) : Tab (List Packet) := (t.filter (fun e => !(endpointIn r e.1))).map (fun e => (e.1, stay e.2))
  let lost (m : Msg) : Bool := regionOf (routerOf ((msgAt m).getD (msgFrom m))) = r
  { s with
    narrow := s.narrow.filter (fun m => !(lost m))
    mesh := { s.mesh with
      wires := (s.mesh.wires.filter (fun e => regionOf (e.1 / 8) ≠ r)).map (fun e => (e.1, stay e.2))
      entering := (s.mesh.entering.filter (fun e => regionOf (e.1 / 8) ≠ r)).map (fun e => (e.1, stay e.2))
      tries := s.mesh.tries.filter (fun e => regionOf (e.1 / 8) ≠ r), turn := s.mesh.turn.filter (fun e => regionOf (e.1 / 8) ≠ r)
      arrived := at_ s.mesh.arrived, held := at_ s.mesh.held, reorder := at_ s.mesh.reorder
      pairSrc := pairs s.mesh.pairSrc, pairDst := pairs s.mesh.pairDst } }

/-- A slot of a core that has lost its power: what Furelo can still tell of a FAULTED slot. -/
def deadSlot (v : Slot) : Slot :=
  { Slot.fresh with
    state := v.state, image := v.image, gen := v.gen, errLost := v.errLost, lastErr := v.lastErr, ip := v.ip
    faultAddr := v.faultAddr, faultUnit := v.faultUnit, faultCause := v.faultCause, primary := v.primary, ringOn := v.ringOn,
    ringTab := v.ringTab }

/-- R792: the compute state of a region is lost. -/
def loseCompute (s : State) (r : Nat) : State :=
  let mine (u : Unit) : Bool := match u with
    | .coreCopy c => regionOf c = r
    | .stream c _ _ => regionOf c = r
    | .hubCopy h => regionOfCluster h = r
    | .merge h => regionOfCluster h = r
    | _ => false
  let s := { s with
    mem := each (regionCores r) s.mem (fun c m =>
      zeroRange (zeroRange m (corePhys c 0) (corePhys c 0 + coreBytes)) (bufPhys (engineOf c 0) 0) (bufPhys (engineOf c 0) 0 + 2 ^ 20))
    cores := s.cores.map (fun e => if regionOf e.1 = r then
      (e.1, { Core.fresh with ends := closedEnds e.2, slots := (e.2.slots.filter (fun v => v.2.state = .faulted)).map (fun v => (v.1, deadSlot v.2)) }) else e)
    engines := s.engines.filter (fun e => regionOf (coreOfEngine e.1) ≠ r)
    hubs := s.hubs.filter (fun e => regionOfCluster e.1 ≠ r)
    xlat := { s.xlat with
      walks := s.xlat.walks.filter (fun w => !(mine w.unit))
      cache := s.xlat.cache.filter (fun e => !(mine e.unit))
      migrating := s.xlat.migrating.map (fun m => { m with waiting := m.waiting.filter (fun u => !(mine u)) }) } }
  dropMesh s r

/-- The message sent last has crossed the network to its destination's router. -/
def sendAhead (s : State) : State :=
  match s.narrow.getLast? with
  | none => s
  | some m => { s with narrow := s.narrow.dropLast ++ [{ m with place := some (msgTo m * 8 + 4) }] }

/-- R335, R333: the waits parked at a region's objects complete with a status: the die has sent the responses before its
routers stop. -/
def answerWaits (s : State) (r status : Nat) : State :=
  let l := (regOf s r).waits
  each l (setReg s r { regOf s r with waits := [] }) (fun p s => sendAhead <| answerSync s r p.index p.core p.slot p.tag status 0)

/-- R792, R796 steps 2 to 5: a region goes dark: its packets are lost and their units halt, its compute state is lost, its
stack cache is invalid, its memories are kept in retention and self-refresh, and its parked waits end. -/
def darken (s : State) (r : Nat) : State :=
  let gone := lostPackets s r
  let s := each gone (loseCompute (dropLines s r (fun _ => true)) r) (fun p s => haltAtDark s r p)
  let s := answerWaits (setReg s r { regOf s r with fills := [], retained := true }) r 4
  let s := { s with
    clocks := { s.clocks with region := cut s.clocks.region r, compute := cut s.clocks.compute r }
    sup := { s.sup with beat := cut s.sup.beat r, ctrlHalted := s.sup.ctrlHalted.filter (· ≠ r) } }
  setShed s r .dark

/-! ## Planned dark, R796 -/

/-- R796 step 1: the lit region of a slice that takes the images of a region about to go dark, or the region itself. -/
def lodgeFor (s : State) (h r : Nat) : Nat :=
  let taken := ((allGroups s).map (fun e => e.2.2.dark)).flatten
  match taken.find? (·.1 = r) with
  | some d => d.2
  | none =>
    let regions := ((look? s.slices h).map (·.regions)).getD []
    (regions.find? (fun t => t ≠ r && shedOf s t = .lit && (demandsOf s t) = .fresh && !(taken.any (fun d => d.2 = t)))).getD r

/-- The images of a group move to or from where a dark region's lie: `now` is the group as it will say so. -/
def moveImages (s : State) (g now : Group) (r : Nat) : State :=
  if g.pool.isSome then s
  else each (g.cores.filter (fun c => regionOf c = r)) s (fun c s =>
    match imageAt s g c 0, imageAt s now c 0 with
    | some a, some b => if a = b then s else { s with mem := copyRange s.mem a b (2 ^ 23) }
    | _, _ => s)

/-- R796 step 1: a resident group of a region about to go dark begins its save. -/
def saveForDark (s : State) (h i r : Nat) (g : Group) : State :=
  let home := lodgeFor s h r
  beginSave (setGroup s h i { g with dark := g.dark ++ [(r, home)] }) h i none true

/-- R796, R792: a group whose save failed loses its state with the region. -/
def loseGroup (s : State) (h i : Nat) (g : Group) : State :=
  let s := setGroup s h i { g with image := .empty, halted := false, affected := [] }
  each (slotsWhere s g.cores (fun v => v.state ≠ .faulted)) s (fun e s =>
    rejectStep s e.1 e.2 (slotOf s e.1 e.2).ip 0xA2 e.1 0 0)

/-- R796 step 6, R788: a group saved out of a dark region moves onto substitutes if it can; `fenced` when the dark follows
the fence of the region's controller. -/
def rehome (s : State) (h i r : Nat) (fenced : Bool) : State :=
  match (groupsOf s h)[i]? with
  | none => s
  | some g =>
    let policy := ((look? s.slices h).map (·.heal)).getD .initial
    let affected := g.cores.filter (fun c => regionOf c = r)
    match substitutes s h affected [] with
    | none => s
    | some moves =>
      if fenced && healForbids s h g then s
      else
        let s := moveSaved s h i g moves
        let s := bump (bump s ctrSliceReplaced h 1) ctrSliceSubstituted h moves.length
        let s := if fenced then
            { s with sup := { s.sup with replaced := put s.sup.replaced h (s.clocks.sup :: look s.sup.replaced h []) } }
          else s
        match (groupsOf s h)[i]? with
        | none => s
        | some g =>
          let left := g.dark.filter (fun d => d.1 ≠ r)
          setGroup s h i { g with
            dark := left
            image := if left.isEmpty && g.byHost then .restoring else g.image
            prog := []
            byHost := g.byHost && !left.isEmpty || (g.byHost && fenced && policy.hold) }

/-- R796: a saved-out group of a region going dark: its images move to a lit region. -/
def lodgeGroup (s : State) (h i r : Nat) (g : Group) : State :=
  if g.dark.any (fun d => d.1 = r) || g.pool.isSome then s
  else
    let s := dropRestore s h i
    let g := ((groupsOf s h)[i]?).getD g
    let now := { g with dark := g.dark ++ [(r, lodgeFor s h r)] }
    setGroup (moveImages s g now r) h i now

/-- R807: the fence of a region controller that a rehearsal caused is cleared once its planned dark is over. -/
def clearDarkFence (s : State) (r : Nat) : State :=
  let last := ((allRecords s).filter (fun d => d.element = 8 && d.id = r)).getLast?
  if s.nv.fenceBits.contains (elCtrl r) && last.any (fun d => injectedFence s (elCtrl r) d.cause) then
    restoreElement s (elCtrl r) ((last.map (·.cause)).getD 0)
  else s

/-- R796, R800: a planned dark: it begins the saves of the region's groups, and once they are out the region goes dark. A group
whose re-placement has not finished in time cannot be saved. -/
def goDark (s : State) (r : Nat) : State :=
  let mine := (allGroups s).filter (fun e => groupIn e.2.2 r)
  let running := mine.filter (fun e => e.2.2.resident && e.2.2.image ≠ .failed && e.2.2.affected.isEmpty)
  if shedOf s r = .dark || !(regionExists s r) || demandLevel (demandsOf s r) ≠ 3 || (demandsOf s r).excursion then s
  else if stepWaits s r then noteWait s r
  else if !running.isEmpty then
    each (running.filter (fun e => e.2.2.image ≠ .saving)) s (fun e s => saveForDark s e.1 e.2.1 r e.2.2)
  else
    let s := each (mine.filter (fun e => e.2.2.resident)) s (fun e s => loseGroup s e.1 e.2.1 e.2.2)
    let s := each (mine.filter (fun e => !e.2.2.resident)) s (fun e s => lodgeGroup s e.1 e.2.1 r e.2.2)
    let s := darken s r
    clearDarkFence (each (mine.filter (fun e => !e.2.2.resident)) s (fun e s => rehome s e.1 e.2.1 r (demandsOf s r).held)) r

/-! ## Unplanned dark, R797 -/

/-- R797: what an unplanned dark does to a group with a core in the region. -/
def strikeGroup (s : State) (h i r : Nat) (lost : Bool) (g : Group) : State :=
  if g.resident then
    let s := setGroup (if g.image = .saving && !g.prog.isEmpty then unsave s g else s) h i { g with
      image := .empty, halted := false, affected := [], prog := [], saved := [] }
    each (slotsWhere s g.cores (fun v => v.state ≠ .faulted)) s (fun e s =>
      rejectStep s e.1 e.2 (slotOf s e.1 e.2).ip 0xA2 e.1 0 0)
  else if g.pool.isSome || g.dark.any (fun d => d.1 = r) then s
  else
    let s := dropRestore s h i
    let g := ((groupsOf s h)[i]?).getD g
    setGroup s h i { g with dark := g.dark ++ [(r, r)], image := if lost then .failed else g.image }

/-- R797, R749: a region goes dark at once. With its memory output failed, its memories are lost as well. -/
def unplannedDark (s : State) (r : Nat) (lost : Bool) : State :=
  let s := detect (onDemands s r (fun d => { d with excursion := true })) (elCtrl r) 0x12 false 0
  let s := { s with power := { s.power with coolSince := put s.power.coolSince r s.clocks.sup } }
  let s := if shedOf s r = .dark then s
    else
      let s := each ((allGroups s).filter (fun e => groupIn e.2.2 r)) s (fun e s => strikeGroup s e.1 e.2.1 r lost e.2.2)
      darken (writeClove s r 7 6 0x12 0 0 true) r
  if lost && !(regOf s r).memLost then escalate (setReg s r { regOf s r with memLost := true, retained := false }) 3 (r * 65536) else s

/-- The module's state in which regions run. -/
def regionsRun (s : State) : Bool := s.power.state = .m0 || s.power.state = .m1

/-! ## Relighting, R799 -/

/-- R797: the memories of a region are written poisoned, and its state words read zero. -/
def poisonRegion (s : State) (r : Nat) : State :=
  let all_ (m : Memory) (a n : Nat) : Memory := poisonRange (zeroRange m a (a + n)) a n
  let m := all_ s.mem (regionPhys r 0) regionBytes
  let m := each (regionStacks r) m (fun k m => all_ m (hbmPhys k 0) (stackPages s.fuses.ordering * 65536))
  let s := { s with mem := m }
  setReg s r { regOf s r with sync := [], memLost := false }

/-- R798: a halt on a region. -/
def isDarkOn (r : Nat) (h : Halt) : Bool := h = .dark r

/-- R798: the units that halted on a region retry. -/
def resumeDark (s : State) (r : Nat) : State :=
  let t := each (keys s.cores) s (fun c s => each (unitsOfCore s c) s (fun u s => resumeUnit s u (isDarkOn r)))
  each (keys t.hubs) t (fun h s => resumeUnit (resumeUnit s (.hubCopy h) (isDarkOn r)) (.merge h) (isDarkOn r))

/-- R799: a group that stayed saved out of a region comes back in place. -/
def bringBack (s : State) (h i r : Nat) (g : Group) : State :=
  let left := g.dark.filter (fun d => d.1 ≠ r)
  if left.length = g.dark.length then s
  else
    let now := { g with dark := left }
    let now := if left.isEmpty && g.byHost && g.image = .saved && g.pool.isNone then { now with image := .restoring, byHost := false, prog := [] } else now
    setGroup (moveImages s g now r) h i now

/-- R842: the memories of a region are wiped. -/
def wipeRegion (s : State) (r : Nat) : State :=
  let m := zeroRange s.mem (regionPhys r 0) (regionPhys r 0 + regionBytes)
  let m := each (regionStacks r) m (fun k m => zeroRange m (hbmPhys k 0) (hbmPhys k 0 + 2 ^ 37))
  let s := dropLines { s with mem := m } r (fun _ => true)
  setReg s r { regOf s r with sync := [], unwiped := false }

/-- R799: a region is relit, with the cores, hubs and links that failed its tests and the pages that failed the HBM test of
R890; a failing anise pass drains the module. -/
def relightRegion (s : State) (r : Nat) (failed : List Element) (badPages : List Nat) (anisePassed : Bool) : State :=
  let s := { s with clocks := { s.clocks with region := put s.clocks.region r 0, compute := put s.clocks.compute r 0 } }
  let s := each (failed.filter (fun el => elementExists s el && elementRegion el = r)) s (fun el s =>
    fenceElement (detect s el 0x14 true 0) el 1 0x14 [])
  let s := if (regOf s r).untested then
      each (badPages.filter (fun id => elementRegion { kind := 7, id := id } = r)) s (fun id s => fenceElement s { kind := 7, id := id } 1 4 [])
    else s
  let s := setReg s r { regOf s r with untested := false, retained := false, patrolAt := 0, patrolOk := [], pageErrs := [] }
  let s := if (regOf s r).unwiped then wipeRegion s r else s
  let s := if (regOf s r).memLost then poisonRegion s r else s
  let s := { s with sup := { s.sup with aniseAt := put s.sup.aniseAt r s.clocks.sup, beat := put s.sup.beat r s.clocks.sup } }
  let s := setShed (bump s ctrRegionRelights r 1) r .parked
  let s := setScrub s false
  let s := if anisePassed then bump s ctrModAnise 0 1
    else drain (setSelfTest (bump (detect s (elCtrl r) 0x13 false 0) ctrModAniseFailed 0 1) false) 0x13
  let s := each ((allGroups s).filter (fun e => !e.2.2.resident)) s (fun e s => bringBack s e.1 e.2.1 r e.2.2)
  resumeDark s r

/-! ## Thermal steps, R929, R930 -/

/-- R929: the threshold of a step for a sensor kind (0 junction, 1 memory-side die, 2 stack), in 0.1 degrees. -/
def threshold (kind step : Nat) : Int := (if kind = 2 then 900 else 950) + 50 * ((step : Int) - 1)

/-- A sensor reading is noted. -/
def noteSensor (s : State) (kind unit : Nat) (reading : Int) : State :=
  { s with power := { s.power with sensors := put s.power.sensors (kind * 128 + unit) reading } }

/-- R930: a region moves up one thermal step. -/
def thermalUp (s : State) (r kind : Nat) (reading : Int) : State :=
  let step := (demandsOf s r).thermal
  if !(regionExists s r) || !(regionsRun s) || 3 ≤ step || 3 ≤ kind || reading < threshold kind (step + 1) || s.power.tripped then s
  else
    let s := bump (noteSensor s kind r reading) (ctrModThermalSteps.plus kind) 0 1
    let s := { s with power := { s.power with coolSince := put s.power.coolSince r s.clocks.sup } }
    demand s r (fun d => { d with thermal := step + 1 })

/-- R929, R930: every reading of a region lies below the release threshold of its thermal step. -/
def cooled (s : State) (r : Nat) : Bool :=
  (List.range 3).all (fun k => match look? s.power.sensors (k * 128 + r) with
    | some t => decide (t < threshold k (demandsOf s r).thermal - 50)
    | none => true)

/-- R793, R930: a region moves down one step after 10 s: demand 0 to 2 is the reading of a sensor kind, 3 an excursion. -/
def release (s : State) (r kind : Nat) (reading : Int) : State :=
  let since := look s.power.coolSince r 0
  let d := demandsOf s r
  if !(windowOver s.clocks.sup since (10 * ticksPerS)) then s
  else
    let again (s : State) : State := { s with power := { s.power with coolSince := put s.power.coolSince r s.clocks.sup } }
    if kind = 3 then (if d.excursion then again (demand s r (fun d => { d with excursion := false })) else s)
    else
      let t := noteSensor s kind r reading
      if 3 < kind || d.thermal = 0 || !(cooled t r) then s
      else again (demand t r (fun d => { d with thermal := d.thermal - 1 }))

/-! ## The power limit, R918 to R921 -/

/-- R918: P_lim in W, with the average input voltage in mV. -/
def powerLimit (s : State) (vmv : Nat) : Nat := min (min 34000 s.power.trayCap) (680 * vmv / 1000)

/-- R919: the region of those listed with the highest average power, the lowest index among equals. -/
def hottest (draw : List Nat) (l : List Nat) : Option Nat :=
  l.foldl (fun best r => match best with
    | none => some r
    | some b => if draw.getD b 0 < draw.getD r 0 then some r else best) none

/-- R919, R920: power steps a region up to a level. -/
def powerStep (s : State) (r level : Nat) : State :=
  let s := bump { s with power := { s.power with steps := r :: s.power.steps } } ctrModPowerSteps 0 1
  demand s r (fun d => { d with power := max d.power level })

/-- R919: the end of a window: `draw` is each region's average power. -/
def powerWindow (s : State) (watts vmv : Nat) (draw : List Nat) : State :=
  let limit := powerLimit s vmv
  let s := { s with power := { s.power with
    watts := watts, releaseAt := if limit ≤ watts + 1000 then s.clocks.sup else s.power.releaseAt } }
  if watts ≤ limit || !(regionsRun s) then s
  else match hottest draw ((regionList s).filter (fun r => shedOf s r = .lit)) with
    | some r => powerStep s r 1
    | none => match hottest draw ((regionList s).filter (fun r => shedOf s r = .throttled)) with
      | some r => powerStep s r 2
      | none => s

/-- R920: the region that power stepped up most recently steps down by one. -/
def powerRelease (s : State) : State :=
  match s.power.steps with
  | [] => s
  | r :: rest =>
    if !(windowOver s.clocks.sup s.power.releaseAt (10 * ticksPerS)) then s
    else
      let s := { s with power := { s.power with steps := rest, releaseAt := s.clocks.sup } }
      demand s r (fun d => { d with power := (rest.filter (· = r)).length })

/-- R921: hardware throttles every lit region. -/
def overcurrent (s : State) : State :=
  if !(regionsRun s) then s
  else
    let lit := (regionList s).filter (fun r => shedOf s r = .lit)
    each lit (bump s ctrModOvercurrent 0 1) (fun r s =>
      demand { s with power := { s.power with steps := r :: s.power.steps } } r (fun d => { d with power := max d.power 1 }))

/-! ## The commands -/

/-- A sensor kind stays at or above the next threshold, R930. -/
def execThermalStep (region kind : Nat) (reading : Int) (s : State) : Host.Outcome State Fault Refusal :=
  .next (thermalUp s region kind reading)

/-- A demand is released, R793. -/
def execShedRelease (region demand : Nat) (reading : Int) (s : State) : Host.Outcome State Fault Refusal :=
  .next (release s region demand reading)

/-- A power window ends, R919. -/
def execPowerWindowEnd (watts vmv : Nat) (regions : List Nat) (s : State) : Host.Outcome State Fault Refusal :=
  .next (powerWindow s watts vmv regions)

/-- Power releases a step, R920. -/
def execPowerRelease (s : State) : Host.Outcome State Fault Refusal := .next (powerRelease s)

/-- The input current stays at or above 720 A, R921. -/
def execOvercurrentThrottle (s : State) : Host.Outcome State Fault Refusal := .next (overcurrent s)

/-- A region parks or unparks as its demands call for, R795, R800. -/
def execRegionPark (region : Nat) (park : Bool) (s : State) : Host.Outcome State Fault Refusal :=
  .next (if regionExists s region && regionsRun s && (park = decide (2 ≤ demandLevel (demandsOf s region))) then
    settleShed s region else s)

/-- A planned dark, R796. -/
def execPlannedDark (region : Nat) (s : State) : Host.Outcome State Fault Refusal :=
  .next (if regionsRun s then goDark s region else s)

/-- A region regulator leaves its limits, R749, R797. -/
def execRegulatorExcursion (region : Nat) (memory : Bool) (s : State) : Host.Outcome State Fault Refusal :=
  .next (if regionExists s region && (regionsRun s || s.power.state = .m2) && (shedOf s region ≠ .dark || memory) && !s.power.tripped then
    unplannedDark s region memory else s)

/-- A region's root PLL loses lock, R797. -/
def execPllLossOfLock (region : Nat) (s : State) : Host.Outcome State Fault Refusal :=
  .next (if regionExists s region && regionsRun s && shedOf s region ≠ .dark then unplannedDark s region false else s)

/-- A region is relit, R799. -/
def execRelight (region : Nat) (failed : List Element) (badPages : List Nat) (anisePassed : Bool) (s : State) :
    Host.Outcome State Fault Refusal :=
  .next (if regionExists s region && shedOf s region = .dark && demandLevel (demandsOf s region) ≠ 3 && !s.power.tripped &&
      (regionsRun s || (s.power.state = .m2 && s.sup.powerMove = some 0)) then
    relightRegion s region failed badPages anisePassed else s)

end Sys2Proof.Machine
end

