-- ==== Sys2Proof/Machine/Secure.lean ====
section
/-! DEFINITION. Signed envelopes, the debug session and its journal, wipes, and what a loss of power leaves
(17_security.md R837 to R863, 16_recovery.md R823). -/

namespace Sys2Proof.Machine

/-! ## Signed envelopes, R844 to R846 -/

/-- A signed envelope in its parts. -/
structure Envelope where
  type      : Nat
  key       : Nat
  revoke    : BitVec 4
  svn       : Nat
  lcCount   : Nat
  target    : List Byte
  challenge : List Byte
  body      : List Byte
  deriving DecidableEq, Repr

/-- R849: the module identity. -/
def moduleIdentity (s : State) : List Byte := sha384 (bytesOf 16 s.fuses.serial.toNat)

/-- All bytes are zero. -/
def allZero (l : List Byte) : Bool := l.all (· = 0)

/-- R844: the parts of an envelope. -/
def envelopeOf (l : List Byte) : Envelope :=
  let h := natOf (fit l 128)
  { type := bitsOf h 32 8, key := bitsOf h 48 2, revoke := BitVec.ofNat 4 (bitsOf h 56 4), svn := bitsOf h 96 32
    lcCount := bitsOf h 128 16, target := sub l 24 48, challenge := sub l 72 32, body := sub l 128 (bitsOf h 64 32) }

/-- R846: the fields of a header that must be zero, or have one value. -/
def headerGood (l : List Byte) : Bool :=
  let h := natOf (fit l 128)
  let type := bitsOf h 32 8
  bitsOf h 0 32 = 0x59474532 && bitsOf h 40 8 = 1 && bitsOf h 50 6 = 0 && bitsOf h 60 4 = 0 && bitsOf h 144 48 = 0 &&
  bitsOf h 832 192 = 0 && (type = 1 || bitsOf h 56 4 = 0) && (type = 1 || type = 2 || bitsOf h 96 32 = 0) &&
  (type = 4 || bitsOf h 128 16 = 0) && (type = 5 || bitsOf h 576 256 = 0)

/-- R845, R846: the code an envelope of a type ends with: 0 when it is accepted. -/
def envelopeCode (s : State) (type : Nat) (l : List Byte) : Nat :=
  let e := envelopeOf l
  let n := 128 + e.body.length
  let fits := l.length = n + 384 + 16224
  let mine := e.target = moduleIdentity s || ((type = 1 || type = 2) && allZero e.target)
  if !(fits && headerGood l && e.type = type && mine) then 0x23
  else if s.fuses.revoked.getLsbD e.key || !(Config.envelopeVerifies e.key (l.take n) (sub l n 384) (sub l (n + 384) 16224)) then 0x23
  else if (type = 1 || type = 2) && decide (e.svn < s.fuses.minSvn) then 0x24
  else 0

/-- R873: envelopes verified, and rejected by code. -/
def countEnvelope (s : State) (code : Nat) : State :=
  if code = 0 then bump s ctrModVerified 0 1 else bump s (ctrModRejected.plus (code - 0x23)) 0 1

/-! ## The debug session, R856 to R863 -/

/-- R862: an entry of the debug journal: 1 an opening, 2 an end, 3 a challenge, 4 a burst. -/
def journal (s : State) (kind addr count : Nat) (write : Bool) : State :=
  let e : JournalEntry := { kind := kind, addr := addr, count := count, write := write, stamp := s.clocks.sup, counter := 0x14 }
  { s with nv := { s.nv with journal := (e :: s.nv.journal).take 16384 } }

/-- R862, R941: a session has opened or ended: the journal and the tray learn of it. -/
def sessionEvent (s : State) (kind minutes : Nat) : State :=
  trayEvent (journal s kind 0 0 false) 4 (bytesOf 1 (debugView s) ++ bytesOf 2 minutes)

/-- R860: a session opens. -/
def openSession (s : State) (full : Bool) (minutes : Nat) : State :=
  let t := { s with sup := { s.sup with session := some (full, minutes, s.clocks.sup), dapWrote := false } }
  bump (sessionEvent t 1 minutes) (if full then ctrModFull else ctrModLimited) 0 1

/-- R861: the session ends. -/
def endSession (s : State) : State :=
  if s.sup.session.isSome then sessionEvent { s with sup := { s.sup with session := none, dapWrote := false } } 2 0 else s

/-! ## Wipes, R842 -/

/-- R842: wipe every memory it names; a dark region is wiped when it is relit. -/
def wipeAll (s : State) : State :=
  let powered := (regionList s).filter (fun r => shedOf s r ≠ .dark)
  let dark := (regionList s).filter (fun r => shedOf s r = .dark)
  let s := each powered s (fun r s => wipeRegion { s with
    mem := each (regionCores r) s.mem (fun c m =>
      zeroRange (zeroRange m (corePhys c 0) (corePhys c 0 + coreBytes)) (bufPhys (engineOf c 0) 0) (bufPhys (engineOf c 0) 0 + 2 ^ 20)) } r)
  let s := each dark s (fun r s => setReg s r { regOf s r with unwiped := true })
  let ports := (List.range 8).filter (fun p => (tierOf s p).linkUp)
  let m := each ports s.mem (fun p m => zeroRange m (tierPhys p 0) (tierPhys p (tierEnd s p * 2 ^ 30)))
  { s with
    mem := m, cores := [], engines := [], hubs := [], narrow := [], xlat := .atReset
    frames := keep s.frames (fun f => f = 0)
    sup := { s.sup with challenge := none, injections := [], resets := [], detections := [], replaced := [], admitted := [] } }

/-- R841: secrets are erased. -/
def eraseSecrets (s : State) : State := { s with nv := { s.nv with keysHeld := false, chain := none } }

/-- R839, R841 step 4: a count bit is blown and a new state is fused. -/
def blowCount (s : State) (life : LifeCycle) : State :=
  settleHolds (bump { s with fuses := { s.fuses with life := life, lcCount := s.fuses.lcCount + 1 } } ctrModTransitions 0 1)

/-! ## Loss of power, R823, R864 -/

/-- R864, R823: the module without power: fuses, the non-volatile store and what its surroundings do are all that stays.
The last event recorded is then no orderly shut-down, unless power left in M3 (R875). -/
def powerGone (s : State) : State :=
  let orderly := s.power.state = .m3 || s.power.state = .m4
  let t := endSession s
  { State.reset with
    pending := s.pending
    fuses := s.fuses
    nv := { t.nv with cleanDown := if orderly && !s.boot.running then t.nv.cleanDown else none }
    power := { Power.atReset with inputMv := s.power.inputMv, band := s.power.band, within := s.power.within
                                  standby := s.power.standby, inlet := s.power.inlet, refLost := s.power.refLost }
    clocks := { Clocks.atReset with input := s.clocks.input }
    pins := { s.pins with thermTrip := false, alert := false, tap := 0, trayReqAt := none, trayBusy := false }
    sup := { State.reset.sup with mctpSeq := 0 }
    outbox := t.outbox
    free := s.free }

/-- R910: a supply loss: recorded with class 0x12 in hold-up, and everything volatile is lost. -/
def supplyLoss (s : State) : State :=
  let t := bump (detect s (elCtrl 0) 0x12 false 0) ctrModSupplyLosses 0 1
  let t := { t with power := { t.power with band := .lost, within := false, standby := false, tripped := false } }
  let t := powerGone t
  { t with sup := { t.sup with alive := false } }

end Sys2Proof.Machine
end

