-- ==== Sys2Proof/Machine/Supply.lean ====
section
/-! DEFINITION. The supply, the reference, thermal trips and the operating envelope (19_physical.md R908 to R943). -/

namespace Sys2Proof.Machine

/-! ## The reference clock, R926 -/

/-- R926: the reference is lost. -/
def loseReference (s : State) : State :=
  if s.power.refLost then s
  else
    let t := { s with power := { s.power with refLost := true, refSince := s.clocks.sup, refParked := false } }
    trayEvent (bump (setEnvelope t false) ctrModRefLosses 0 1) 9 (bytesOf 1 0)

/-- R926: with the reference still absent after 100 ms, the lit and throttled regions park and the ports stop. -/
def holdoverEnds (s : State) : State :=
  if !s.power.refLost || s.power.refParked || !(windowOver s.clocks.sup s.power.refSince (100 * ticksPerMs)) then s
  else
    let up := (regionList s).filter (fun r => regionsRun s && (shedOf s r = .lit || shedOf s r = .throttled))
    let t := { s with power := { s.power with refParked := true } }
    let t := each up (bump t ctrModRefParked 0 up.length) (fun r s => demand s r (fun d => { d with reference := true }))
    each (joinedPorts t) t (fun p s => setPort s p { portOf s p with quiet := true })

/-- R926: the reference is back: its demands are released and the ports resume. -/
def referenceBack (s : State) : State :=
  if !s.power.refLost then s
  else
    let t := { s with power := { s.power with refLost := false, refParked := false } }
    let t := each ((regionList t).filter (fun r => (demandsOf t r).reference)) t (fun r s =>
      demand s r (fun d => { d with reference := false }))
    let t := each ((joinedPorts t).filter (fun p => (portOf t p).quiet)) t (fun p s =>
      setPort s p { portOf s p with quiet := false, joinAt := portNow s p, edgeSeen := false })
    trayEvent t 9 (bytesOf 1 1)

/-! ## The supply, R909 to R912 -/

/-- R909: the band of an input voltage in mV. -/
def bandOf (mv : Nat) : Band :=
  if 44000 ≤ mv && mv ≤ 58000 then .operating else if 40000 ≤ mv && mv ≤ 60000 then .marginal else .lost

/-- R941: the code of a band. -/
def bandCode : Band → Nat
  | .operating => 0
  | .marginal => 1
  | .lost => 2

/-- R909: the input voltage moves; entering a band is told and counted, and the marginal one lapses the envelope. The
third band is entered only by a supply loss. -/
def changeBand (s : State) (mv : Nat) : State :=
  let b := bandOf mv
  let t := { s with power := { s.power with inputMv := mv, within := s.power.within && decide (b = .operating) } }
  if b = s.power.band || b = .lost || !s.power.standby then t
  else
    let t := bump { t with power := { t.power with band := b } } (ctrModBands.plus (bandCode b)) 0 1
    let t := trayEvent t 8 (bytesOf 1 (bandCode b) ++ bytesOf 4 mv)
    if b = .operating then t else setEnvelope t false

/-- R911, R912: the supply has been within limits for 10 ms and the standby rails are up. -/
def supplyGood (s : State) : State :=
  if bandOf s.power.inputMv ≠ .operating then s
  else { s with
    power := { s.power with band := .operating, within := true, standby := true }
    sup := { s.sup with alive := s.sup.alive || !s.pins.modReset } }

/-! ## Rails cut, R917, R931 -/

/-- R917: an I/O die group is cut: its ports are fenced, and on the north die the host link goes down. -/
def cutDie (s : State) (die : Nat) : State :=
  if 4 ≤ die || s.power.dieCut.contains die then s
  else
    let s := detect { s with power := { s.power with dieCut := addTo s.power.dieCut die } } { kind := 5, id := 4 * die } 0x12 false 0
    let s := each ((List.range 4).map (fun i => 4 * die + i)) s (fun p s => fencePort s p 1 0x12 [])
    let s := each ((List.range 2).map (fun i => 2 * die + i)) s (fun p s =>
      let t := if (tierOf s p).linkUp then setTier s p { tierOf s p with linkUp := false } else s
      if (tierOf t p).fenced then tierChanged s t p else fenceTier t p 1 0x12)
    if die = 0 && s.hp.linkUp then linkDies s else s

/-- R931: with every region rail and I/O die group cut, memory, state words, clove records, the links of the tier ports and
the membership of the Rolben ports are lost. -/
def bareAfterTrip (s : State) : State :=
  let bare (g : Region) : Region := { g with sync := [], retained := false, cloves := [] }
  let left (t : RolPort) : RolPort := { RolPort.fresh with loopback := t.loopback }
  let regions : Tab Region := s.regions.map (fun (e : Nat × Region) => (e.1, bare e.2))
  let ports : Tab RolPort := s.fabric.ports.map (fun (e : Nat × RolPort) => (e.1, left e.2))
  leaveDomain (tiersDown { s with mem := { cells := [], poison := [] }, regions := regions, fabric := { s.fabric with ports := ports } })

/-- R931, R797: a sensor reaches its trip threshold: every region rail and I/O die group is cut, and the pin is latched. -/
def thermalTrip (s : State) (kind index : Nat) : State :=
  if s.power.tripped || !s.power.standby then s
  else
    let s := if s.hp.linkUp then linkDies s else s
    let s := bump { s with power := { s.power with tripped := true, dieCut := [0, 1, 2, 3] }, pins := { s.pins with thermTrip := true } }
      ctrModTrips 0 1
    let s : State := each ((regionList s).filter (fun r => shedOf s r ≠ .dark)) s (fun r s =>
      let s := each ((allGroups s).filter (fun e => groupIn e.2.2 r)) s (fun e s => strikeGroup s e.1 e.2.1 r true e.2.2)
      darken (writeClove (onDemands s r (fun d => { d with excursion := true })) r 7 6 0x12 0 0 true) r)
    let s := bareAfterTrip s
    let s := setEnvelope (detect s (elCtrl 0) 0x12 false 0) false
    settleAlert (trayEvent s 7 (bytesOf 1 kind ++ bytesOf 1 index))

/-! ## The operating envelope, R932, R942 -/

/-- R942: the flow counts as at least 60 L/min. -/
def flowGood (s : State) : Bool :=
  s.power.flowValid && decide (600 ≤ s.power.flow) && !(windowOver s.clocks.sup s.power.trayAt ticksPerS)

/-- R932, R930: every condition of the operating envelope. -/
def insideEnvelope (s : State) : Bool :=
  s.power.band = .operating && !s.power.refLost && decide (200 ≤ s.power.inlet) && decide (s.power.inlet ≤ 350) && flowGood s &&
  decide (s.power.ioDie < 1000) && !s.power.tripped

/-! ## The commands -/

/-- The reference is lost, R926. -/
def execReferenceLoss (s : State) : Host.Outcome State Fault Refusal := .next (loseReference s)
/-- The holdover window ends, R926. -/
def execReferenceHoldoverExpire (s : State) : Host.Outcome State Fault Refusal := .next (holdoverEnds s)
/-- The reference returns, R926. -/
def execReferenceReturn (s : State) : Host.Outcome State Fault Refusal := .next (referenceBack s)
/-- The input voltage changes, R909. -/
def execSupplyBandChange (mv : Nat) (s : State) : Host.Outcome State Fault Refusal := .next (changeBand s mv)
/-- A supply loss, R910. -/
def execSupplyLoss (s : State) : Host.Outcome State Fault Refusal := .next (supplyLoss s)
/-- The supply is within limits, R911, R912. -/
def execSupplyWithinLimits (s : State) : Host.Outcome State Fault Refusal := .next (supplyGood s)
/-- A thermal trip, R931. -/
def execThermalTrip (kind index : Nat) (s : State) : Host.Outcome State Fault Refusal := .next (thermalTrip s kind index)
/-- An I/O die group rail leaves its limits, R917. -/
def execIoDieGroupExcursion (die : Nat) (s : State) : Host.Outcome State Fault Refusal := .next (cutDie s die)

/-- The envelope is evaluated on the inlet temperature and the hottest edge I/O die reading, in tenths of a degree, R932. -/
def execEnvelopeEvaluation (inlet die : Int) (s : State) : Host.Outcome State Fault Refusal :=
  .next (let t := { s with power := { s.power with inlet := inlet, ioDie := die } }
    setEnvelope t (insideEnvelope t))

end Sys2Proof.Machine
end

