-- ==== Sys2Proof/Machine/Health.lean ====
section
/-! DEFINITION. Heartbeats, telemetry, patrol scrub, anise passes, rehearsal and what the module does while no command
waits (14_integrity.md R747 to R754, 15_healing.md R804 to R808, 19_physical.md R940, R941). -/

namespace Sys2Proof.Machine

/-- R701, R753: a re-placement, a reset or a planned dark is in progress. -/
def recovering (s : State) : Bool :=
  replacing s || !s.sup.resets.isEmpty ||
  (regionsRun s && (regionList s).any (fun r => demandLevel (demandsOf s r) = 3 && shedOf s r ≠ .dark))

/-- The resident groups of the slice of a region, or of none. -/
def groupsBeside (s : State) (r : Nat) : List (Nat × Nat × Group) :=
  (allGroups s).filter (fun e => e.2.2.resident && sliceOfRegion s r = some e.1)

/-! ## Heartbeats, R747, R748, R815 -/

/-- R747: a heartbeat of a region controller; a rehearsal's missed ones do not arrive. -/
def controllerBeat (s : State) (r : Nat) : State :=
  if !s.sup.alive || !(regionExists s r) || shedOf s r = .dark || plantedAt s 0x10 9 r then s
  else
    let was := s.sup.ctrlHalted
    let t := { s with sup := { s.sup with beat := put s.sup.beat r s.clocks.sup, ctrlHalted := was.filter (· ≠ r) } }
    if was.contains r then each ((groupsBeside t r).map (fun e => e.2.2.cores)).flatten.eraseDups t (fun c s => wakeCore s c) else t

/-- R747, R815, R764: no heartbeat for 90 ms: the regions of the slice halt until the controller has restarted, and a second
failure in 24 h fences it. -/
def controllerFails (s : State) (r : Nat) : State :=
  let el := elCtrl r
  if !s.sup.alive || !(regionExists s r) || shedOf s r = .dark || s.nv.fenceBits.contains el ||
      !((look? s.sup.beat r).any (fun h => windowOver s.clocks.sup h (90 * ticksPerMs))) then s
  else
    let cls := clsCode 0x10 (plantedAt s 0x10 9 r)
    let t := detectAt s el 0x10 9 r false
    let t := each (groupsBeside t r) t (fun e s => quietCores s e.2.2.cores)
    let t := { t with sup := { t.sup with
      beat := put t.sup.beat r t.clocks.sup, beatFail := put t.sup.beatFail r t.clocks.sup
      ctrlHalted := addTo t.sup.ctrlHalted r } }
    if triggerMet t el cls then fenceElement t el 1 cls [] else t

/-- R748: the supervisor's heartbeat to the tray controller. -/
def superBeat (s : State) : State :=
  if !s.sup.alive || !(windowOver s.clocks.sup s.sup.beatSent (100 * ticksPerMs)) then s
  else
    let t := { s with sup := { s.sup with beatSent := s.clocks.sup } }
    mctp t 1 (bytesOf 8 s.clocks.sup ++ bytesOf 4 (hpStatus s) ++ bytesOf 4 (hpAssure s))

/-- R941: a temperature in 0.1 degrees, as 2 bytes. -/
def temperature (t : Int) : List Byte := bytesOf 2 (t % 65536).toNat

/-- R941: the shedding step of every region index, 2 bits each. -/
def shedBits (s : State) : Nat := ((List.range 48).map (fun r => shedCode (shedOf s r) * 2 ^ (2 * r))).sum

/-- R941: the telemetry of each second. -/
def sendTelemetry (s : State) (vmv ma10 watts : Nat) (temps : List Int) : State :=
  if !s.sup.alive || !(windowOver s.clocks.sup s.sup.teleSent ticksPerS) then s
  else
    let t := { s with sup := { s.sup with teleSent := s.clocks.sup } }
    mctp t 2 (bytesOf 8 s.clocks.sup ++ bytesOf 4 vmv ++ bytesOf 4 ma10 ++ bytesOf 4 watts ++ bytesOf 4 (powerLimit s vmv) ++
      (temps.map temperature).flatten ++ bytesOf 12 (shedBits s))

/-! ## Patrol scrub, R750 -/

/-- R764: a codeword of a stack, by its byte offset, counts against its page in this window. -/
def notePage (s : State) (stack off : Nat) (bad : Bool) : State :=
  let r := regionOfStack stack
  let id := stack + off / 65536 * 128
  let e := look (regOf s r).pageErrs id (0, 0)
  let e := if bad then (e.1, e.2 + 1) else (e.1 + 1, e.2)
  setReg s r { regOf s r with pageErrs := put (regOf s r).pageErrs id e }

/-- R716: the stacks of the regions that are not dark, without those withdrawn. -/
def patrolled (s : State) : List Nat :=
  (((regionList s).filter (fun r => shedOf s r ≠ .dark)).map regionStacks).flatten.filter (fun k => !(s.caps.stacksOut.contains k))

/-- R716: every one of them has completed a pass. -/
def allPatrolled (s : State) : Bool := (patrolled s).all (fun k => (regOf s (regionOfStack k)).patrolOk.contains k)

/-- R750, R510: a patrol pass of a stack ends; the codewords it corrected and poisoned are given by byte offset. -/
def patrolPass (s : State) (stack : Nat) (corrected uncorrectable : List Nat) : State :=
  let r := regionOfStack stack
  if !(stackExists s stack) || shedOf s r = .dark || s.caps.stacksOut.contains stack then s
  else
    let s := each corrected s (fun o s => notePage s stack o false)
    let s := each uncorrectable s (fun o s =>
      wordsLost (notePage s stack o true) (hbmPhys stack (o / codewordBytes * codewordBytes)) codewordBytes)
    let s := bump (bump (bump s ctrRegionPatrol r 1) ctrRegionCorrected r corrected.length) ctrRegionPoisonedCw r uncorrectable.length
    let s := setReg s r { regOf s r with patrolOk := addTo (regOf s r).patrolOk stack }
    if allPatrolled s then setScrub s true else s

/-- R750: the patrol window of a region ends; a stack without a pass in it lapses the scrub condition. -/
def patrolWindow (s : State) (r : Nat) : State :=
  let g := regOf s r
  if !(regionExists s r) || shedOf s r = .dark || !(windowOver (regionNow s r) g.patrolAt (24 * ticksPerHour)) then s
  else
    let missing := (regionStacks r).any (fun k => !(s.caps.stacksOut.contains k) && !(g.patrolOk.contains k))
    let s := setReg s r { g with patrolAt := g.patrolAt + 24 * ticksPerHour, patrolOk := [], pageErrs := [] }
    if missing then setScrub s false else s

/-! ## Anise passes, R751 to R754 -/

/-- R753: a pass is put off. -/
def deferAnise (s : State) : State := bump s ctrModAniseDeferred 0 1

/-- R752: a group with a core in the region of a pass is saved out for it; one on its way back stays out. -/
def saveForPass (s : State) (h i : Nat) (g : Group) : State :=
  if g.image = .restoring then dropRestore s h i
  else if !g.resident || g.byHost then s
  else
    let s := { s with sup := { s.sup with aniseHeld := s.sup.aniseHeld ++ [(h, g.configs.headD 0)] } }
    if g.image = .saving then setGroup s h i { g with byHost := true } else beginSave s h i none true

/-- R751 to R753: a pass falls due on a region. -/
def aniseDue (s : State) (r : Nat) : State :=
  if !(regionExists s r) || !(regionsRun s) || shedOf s r = .parked || shedOf s r = .dark || s.nv.packs.isEmpty ||
      s.sup.aniseRun.isSome then s
  else if recovering s then deferAnise s
  else
    let s := { s with sup := { s.sup with aniseRun := some r, aniseHeld := [] } }
    each ((allGroups s).filter (fun e => groupIn e.2.2 r)) s (fun e s => saveForPass s e.1 e.2.1 e.2.2)

/-- R752: the pass is over: what it had saved is restored, and groups that waited may return. -/
def leavePass (s : State) : State :=
  let r := s.sup.aniseRun.getD 0
  let held := s.sup.aniseHeld
  let s := { s with sup := { s.sup with aniseRun := none, aniseHeld := [] } }
  let s := each held s (fun e s => match groupHolding s e.1 e.2 with
    | none => s
    | some (i, g) =>
      if g.byHost && !g.resident && g.image = .saved && g.dark.isEmpty then
        setGroup s e.1 i { g with byHost := false, image := .restoring, prog := [] }
      else setGroup s e.1 i { g with byHost := false })
  let s := each (keys s.slices) s (fun h s => if (groupsOf s h).isEmpty then s else startRestores s h 0)
  each (regionCores r) s (fun c s => if (look? s.cores c).isSome then wakeCore s c else s)

/-- R753: a group of the region of a pass has not been saved out yet. -/
def passWaits (s : State) (r : Nat) : Bool := (allGroups s).any (fun e => groupIn e.2.2 r && e.2.2.image = .saving)

/-- R751 to R754: the packs have run on a region, or a failed save puts the pass off. -/
def aniseEnds (s : State) (r : Nat) (passed : Bool) : State :=
  if s.sup.aniseRun ≠ some r || passWaits s r then s
  else if s.sup.aniseHeld.any (fun e => (groupHolding s e.1 e.2).any (·.2.resident)) then leavePass (deferAnise s)
  else
    let s := leavePass { s with sup := { s.sup with aniseAt := put s.sup.aniseAt r s.clocks.sup } }
    if passed then bump (setSelfTest s true) ctrModAnise 0 1
    else drain (setSelfTest (bump (detect s (elCtrl r) 0x13 false 0) ctrModAniseFailed 0 1) false) 0x13

/-! ## Rehearsal, R804 to R807 -/

/-- R804: the classes that may be injected, in ascending order, each with its unit class. -/
def injectClasses : List (Nat × Nat) :=
  [(1, 2), (2, 2), (5, 6), (6, 1), (7, 2), (8, 2), (0xA, 3), (0xD, 0xA), (0xF, 0xE), (0x10, 9), (0x18, 1)]

/-- R804, R764: a double-bit flip in a word of a core memory, which the spec does not name; a second one at the same word
within 24 h is a hard result. -/
def flipTwice (s : State) (c : Nat) : State :=
  let q := freeNext s
  let word := q.1.toNat % (coreBytes / 8)
  let r := regionOf c
  let s := wordsLost q.2 (corePhys c (8 * word)) 8
  let place := c * 2 ^ 20 + word
  let again := (look? (regOf s r).dblErrs place).any (fun t => !(windowOver s.clocks.sup t (24 * ticksPerHour)))
  let s := setReg s r { regOf s r with dblErrs := put (regOf s r).dblErrs place s.clocks.sup }
  if again then detect s (elCore c) 0x82 true place else s

/-- R804: make an injection. What the module masks at once, and what finds nothing to strike, awaits nothing. -/
def plant (s : State) (j : Injection) : State × Bool :=
  match j.cls with
  | 2 => (flipTwice s j.id, true)
  | 6 => (setEng s j.id { engOf s j.id with defect := 1 }, true)
  | 0x18 => (setEng s j.id { engOf s j.id with defect := 2 }, true)
  | 5 => (s, true)
  | 7 => (s, true)
  | 8 => (s, true)
  | 0xA =>
    let v := slotOf s (j.id / 4) (j.id % 4)
    if v.state = .empty then (s, false)
    else (onSlot s (j.id / 4) (j.id % 4) (fun v => { v with injected := true, monIp := v.ip + 1 }), true)
  | 0xD => (setLink s j.id { linkState s j.id with planted := (linkState s j.id).planted + 1 }, true)
  | 0x10 => (s, true)
  | _ => (s, false)

/-- R701, R805: the planned injection i falls due: it is made, skipped, or waits for a recovery to end. -/
def injectionDue (s : State) (i : Nat) : State :=
  match s.sup.injections[i]? with
  | none => s
  | some j =>
    if j.left = 0 || j.live || s.clocks.sup < j.dueAt then s
    else
      let later := { j with left := j.left - 1, dueAt := s.clocks.sup + j.delay * ticksPerMs }
      let keepAt (s : State) (j : Injection) : State := { s with sup := { s.sup with injections := s.sup.injections.set i j } }
      if !s.sup.holds then bump (keepAt s later) ctrModInjectSkipped 0 1
      else if recovering s || s.sup.injections.any (·.live) then s
      else
        let q := plant s j
        bump (keepAt q.1 { later with live := q.2 }) (ctrModInjections.plus ((injectClasses.map (·.1)).idxOf j.cls)) 0 1

/-! ## The module while no command waits -/

/-- R808: each millisecond of the supervisor's counter adds to the time of the regions that are throttled, parked or dark. -/
def shedTime (s : State) : State :=
  if s.clocks.sup % ticksPerMs ≠ 0 || !(regionsRun s) then s
  else each s.caps.shed s (fun e s => match e.2 with
    | .lit => s
    | .throttled => bump s ctrRegionMsThrottled e.1 1
    | .parked => bump s ctrRegionMsParked e.1 1
    | .dark => bump s ctrRegionMsDark e.1 1)

/-- One housekeeping tick: the counters, the watchdogs' counted time and the shedding times. Log entry 2. -/
def idle (s : State) : State := shedTime (watchTick (tick s))

/-! ## The commands -/

/-- A region controller's heartbeat, R747. -/
def execControllerHeartbeat (region : Nat) (s : State) : Host.Outcome State Fault Refusal := .next (controllerBeat s region)
/-- No heartbeat for 90 ms, R747. -/
def execHeartbeatTimeout (region : Nat) (s : State) : Host.Outcome State Fault Refusal := .next (controllerFails s region)
/-- The supervisor's heartbeat, R748. -/
def execSupervisorHeartbeat (s : State) : Host.Outcome State Fault Refusal := .next (superBeat s)

/-- Telemetry, R941. -/
def execTelemetry (vmv ma10 watts : Nat) (inlet outlet junction hbm : Int) (s : State) : Host.Outcome State Fault Refusal :=
  .next (sendTelemetry s vmv ma10 watts [inlet, outlet, junction, hbm])

/-- A patrol pass of a stack, R750. -/
def execPatrolPassComplete (stack : Nat) (corrected uncorrectable : List Nat) (s : State) : Host.Outcome State Fault Refusal :=
  .next (patrolPass s stack corrected uncorrectable)

/-- A patrol window ends, R750. -/
def execPatrolWindowEnd (region : Nat) (s : State) : Host.Outcome State Fault Refusal := .next (patrolWindow s region)
/-- An anise pass falls due, R751. -/
def execAnisePassDue (region : Nat) (s : State) : Host.Outcome State Fault Refusal := .next (aniseDue s region)
/-- An anise pass ends, R754. -/
def execAnisePassComplete (region : Nat) (passed : Bool) (s : State) : Host.Outcome State Fault Refusal :=
  .next (aniseEnds s region passed)
/-- A planned injection falls due, R805. -/
def execInjectionDue (i : Nat) (s : State) : Host.Outcome State Fault Refusal := .next (injectionDue s i)

/-- R516: the number by which a firmware memory error names the supervisor, beside the region controllers (log entry 63). -/
def supervisorPlace : Nat := 48

/-- An uncorrectable error in the firmware memory of a region controller or of the supervisor, R516, R747. -/
def execFirmwareMemoryError (region : Nat) (s : State) : Host.Outcome State Fault Refusal :=
  .next (if region = supervisorPlace || (regionExists s region && shedOf s region ≠ .dark) then escalate s 2 region else s)

end Sys2Proof.Machine
end

