-- ==== Sys2Proof/Machine/Mailbox.lean ====
section
/-! DEFINITION. The mailbox: slots, commits, what a commit is refused for, completion and timeouts (12_mailbox.md, and the
common rules of 13_commands.md). -/

namespace Sys2Proof.Machine

/-! ## Slots, R597, R642 to R644 -/

/-- A slot nothing has written. -/
def MbSlot.fresh : MbSlot := { commit := 0, status := 0, payload := [], last := 0, run := none }

/-- A slot. -/
def mbSlot (s : State) (f k : Nat) : MbSlot := look (frameOf s f).slots k .fresh

/-- Replace it. -/
def setMb (s : State) (f k : Nat) (m : MbSlot) : State :=
  { s with frames := put s.frames f { frameOf s f with slots := put (frameOf s f).slots k m } }

/-- R597: the frame, slot and place within it of a BAR2 offset; none when reserved or in a frame no slice holds. -/
def bar2Place (s : State) (off : Nat) : Option (Nat × Nat × Nat) :=
  if off < 0x8000 then some (0, off / 4096, off % 4096)
  else if 0x10000 ≤ off && off < 0x310000 then
    let f := (off - 0x10000) / 0x10000 + 1
    if (frameOf s f).owner = 0 then none else some (f, off % 0x10000 / 4096, off % 4096)
  else none

/-- R643 fields of a commit word: seq, opcode, payload length, ring, irq, reserved. -/
def cwSeq (w : Nat) : Nat := bitsOf w 0 16
/-- R643. -/
def cwOpcode (w : Nat) : Nat := bitsOf w 16 16
/-- R643. -/
def cwLen (w : Nat) : Nat := bitsOf w 32 12
/-- R643. -/
def cwReserved (w : Nat) : Nat := bitsOf w 46 18

/-- R644: a status word. -/
def statusWord (seq phase code len : Nat) : Reg := BitVec.ofNat 64 (seq + phase * 2 ^ 16 + code * 2 ^ 24 + len * 2 ^ 32)

/-- R642: the first bytes of a slot's payload area. -/
def slotPayload (m : MbSlot) (n : Nat) : List Byte := (List.range n).map (fun i => look m.payload i 0)

/-- R642: the bytes of a slot: commit word, status word, reserved ones, payload area. -/
def slotBytesOf (m : MbSlot) : List Byte :=
  bytesOf 8 m.commit.toNat ++ bytesOf 8 m.status.toNat ++ List.replicate 48 0 ++ slotPayload m 4032

/-- R512, R515: the poisoned words of a payload area after n bytes are written at `off`; `bad` are those of the write. -/
def payloadPoison (old : List Nat) (off n : Nat) (bad : List Nat) : List Nat :=
  bad.foldl addTo (old.filter (fun w => !(decide (off ≤ 8 * w) && decide (8 * w + 8 ≤ off + n))))

/-- Write bytes of a payload area. -/
def putPayload (t : Tab Byte) (off : Nat) (l : List Byte) : Tab Byte := each l.zipIdx t (fun e t => put t (off + e.2) e.1)

/-! ## Which commands a state takes, R639, R667, R869, R892 -/

/-- R639: an opcode, the frames that accept it (frame 0, a slice's) and whether RESETTING and FAILED accept it. -/
structure Taken where
  opcode    : Nat
  frame0    : Bool
  sliced    : Bool
  resetting : Bool
  failed    : Bool
  deriving DecidableEq, Repr

/-- R639: the table, module commands first. -/
def takenModule : List Taken :=
  [⟨0x0101, true, true, true, true⟩, ⟨0x0102, true, false, true, true⟩, ⟨0x0103, true, false, true, true⟩,
   ⟨0x0104, true, false, true, true⟩, ⟨0x0105, true, false, true, true⟩, ⟨0x0106, true, true, true, true⟩,
   ⟨0x0201, true, false, true, true⟩, ⟨0x0202, true, false, true, true⟩, ⟨0x0203, true, false, true, true⟩,
   ⟨0x0301, true, false, true, true⟩, ⟨0x0302, true, false, true, true⟩, ⟨0x0303, true, false, true, true⟩]

/-- R639: slices, contexts and memory. -/
def takenSlices : List Taken :=
  [⟨0x0401, true, false, true, true⟩, ⟨0x0402, true, false, true, true⟩, ⟨0x0403, true, true, true, true⟩,
   ⟨0x0404, true, true, false, true⟩, ⟨0x0501, false, true, false, false⟩, ⟨0x0502, false, true, false, false⟩,
   ⟨0x0503, false, true, false, false⟩, ⟨0x0504, false, true, false, false⟩, ⟨0x0505, false, true, false, false⟩,
   ⟨0x0506, false, true, true, true⟩, ⟨0x0601, false, true, false, false⟩, ⟨0x0602, false, true, false, false⟩,
   ⟨0x0603, true, true, false, false⟩, ⟨0x0604, true, true, false, false⟩, ⟨0x0605, true, true, false, false⟩,
   ⟨0x0606, false, true, false, false⟩, ⟨0x0607, true, true, true, true⟩]

/-- R639: fabric, health, resets and admission. -/
def takenOthers : List Taken :=
  [⟨0x0701, true, false, true, true⟩, ⟨0x0702, true, false, true, true⟩, ⟨0x0703, true, true, false, false⟩,
   ⟨0x0704, true, true, false, false⟩, ⟨0x0801, true, true, false, false⟩, ⟨0x0802, true, true, true, true⟩,
   ⟨0x0803, true, false, true, true⟩, ⟨0x0804, true, true, false, false⟩, ⟨0x0805, true, false, true, true⟩,
   ⟨0x0901, true, false, true, true⟩, ⟨0x0902, true, true, true, true⟩, ⟨0x0A01, true, false, true, true⟩,
   ⟨0x0A02, true, false, true, true⟩, ⟨0x0A03, true, false, true, true⟩]

/-- R639: the entry of an opcode; none for a reserved one. -/
def takenOf (op : Nat) : Option Taken := (takenModule ++ takenSlices ++ takenOthers).find? (·.opcode = op)

/-- R654: commands served during a module compute reset. -/
def servedInReset (op : Nat) : Bool := [0x0101, 0x0106, 0x0403, 0x0902].contains op

/-- R869: the life-cycle columns for an opcode. -/
def lifeAllows (s : State) (op target : Nat) : Bool :=
  let pending := s.fuses.life = .returned && s.nv.wipePending
  if [0x0101, 0x0102, 0x0802, 0x0103, 0x0104, 0x0106, 0x0403, 0x0506, 0x0902].contains op then true
  else if pending then false
  else match s.fuses.life with
    | .blank => [0x0105, 0x0201, 0x0202, 0x0203, 0x0301, 0x0302, 0x0303].contains op
    | .scrapped => (op = 0x0105 && target = 3) || op = 0x0203
    | _ => true

/-- R869: the power columns for an opcode. -/
def powerAllows (s : State) (op : Nat) : Bool :=
  if [0x0101, 0x0102, 0x0802, 0x0103, 0x0104, 0x0106, 0x0403, 0x0506, 0x0902, 0x0105, 0x0203, 0x0301, 0x0302, 0x0303].contains op
  then true
  else if op = 0x0201 || op = 0x0202 then s.power.state = .m0
  else if 0x0701 ≤ op && op ≤ 0x0704 then s.power.state = .m0 || s.power.state = .m1 || s.power.state = .m2
  else s.power.state = .m0 || s.power.state = .m1

/-- R869, R843, R868: a command is refused by the life-cycle or power state. -/
def stateRefuses (s : State) (op target : Nat) : Bool :=
  !(lifeAllows s op target) || !(powerAllows s op) ||
  ((op = 0x0201 || op = 0x0202) && (s.sup.powerMove.isSome || (regionList s).any (fun r => shedOf s r = .dark))) ||
  (op = 0x0105 && s.sup.lifeMove.isSome && s.frames.any (fun f => f.2.slots.any (fun m => m.2.run.any (fun r => r.opcode = 0x0201 || r.opcode = 0x0202))))

/-- R892: the module is ready for a command, or a start in progress or failed lets it through. -/
def readyFor (s : State) (op target : Nat) : Bool :=
  [0x0102, 0x0802, 0x0103, 0x0104, 0x0106, 0x0203].contains op ||
  (!s.boot.running && (s.boot.phase = 6 || (s.fuses.life = .scrapped && s.power.state = .m3))) ||
  (s.boot.phase = 7 && op = 0x0105 && target = 3)

/-! ## Payloads, R663, R667 -/

/-- R689 and elsewhere: the payload bits an opcode of fixed length names. -/
def payloadFields (op : Nat) : List (Nat × Nat) :=
  match op with
  | 0x0102 => [(0, 32)]
  | 0x0802 => [(0, 32)]
  | 0x0105 => [(0, 3), (8, 48)]
  | 0x0106 => [(0, 8), (16, 16), (32, 32)]
  | 0x0401 => [(0, 82), (128, 128)]
  | 0x0402 => [(0, 33)]
  | 0x0403 => [(0, 32)]
  | 0x0404 => [(0, 32)]
  | 0x0502 => [(0, 32)]
  | 0x0503 => [(0, 32)]
  | 0x0504 => [(0, 32), (64, 64)]
  | 0x0505 => [(0, 32), (64, 64)]
  | 0x0506 => [(0, 14)]
  | 0x0601 => [(0, 69), (72, 24), (128, 64)]
  | 0x0602 => [(0, 128)]
  | 0x0603 => [(0, 192)]
  | 0x0604 => [(0, 194)]
  | 0x0605 => [(0, 160)]
  | 0x0606 => [(0, 128)]
  | 0x0607 => [(0, 160)]
  | 0x0702 => [(0, 16)]
  | 0x0801 => [(0, 2)]
  | 0x0804 => [(0, 2), (8, 8)]
  | 0x0901 => [(0, 3), (32, 32)]
  | 0x0902 => [(0, 38), (40, 8)]
  | 0x0A01 => [(0, 32)]
  | 0x0A03 => [(0, 78), (80, 6), (96, 32)]
  | _ => []

/-- R667: the payload length of an opcode that has one length. -/
def payloadLen (op : Nat) : Option Nat :=
  if [0x0101, 0x0103, 0x0104].contains op then some 0
  else if [0x0102, 0x0802, 0x0105, 0x0106, 0x0302, 0x0402, 0x0403, 0x0404, 0x0502, 0x0503, 0x0506, 0x0702, 0x0801, 0x0804,
      0x0901, 0x0902, 0x0A01].contains op then some 8
  else if [0x0504, 0x0505, 0x0602, 0x0606].contains op then some 16
  else if [0x0603, 0x0605, 0x0607, 0x0A03].contains op then some 24
  else if [0x0401, 0x0601, 0x0604].contains op then some 32
  else if op = 0x0703 then some 72
  else none

/-- The ports a mask names, ascending. -/
def maskPorts (mask : Nat) : List Nat := (List.range 16).filter (bitAt mask)

/-- R694: a 16-bit membership entry with its reserved bit clear. -/
def memberEntryGood (e : Nat) : Bool := !(bitAt e 15)

/-- The 16-bit words of a byte list from an offset. -/
def halves (l : List Byte) (off n : Nat) : List Nat := (List.range n).map (fun i => natAt l (off + 2 * i) 2)

/-- R694, R663: the layout of `fab.join`. -/
def joinGood (l : List Byte) : Bool :=
  let w := natAt l 0 8
  let n := (maskPorts (bitsOf w 16 16)).length
  onlyFields w [(0, 14), (16, 16)] && natAt l 8 8 = 0 && l.length = 48 + 72 * n &&
  (List.range n).all (fun i => natAt l (49 + 72 * i) 7 = 0 && (halves l (56 + 72 * i) 32).all memberEntryGood)

/-- R700, R671: the layout of `fence.set`: an existing element, a first chunk that carries what a chunk must. -/
def fenceGood (s : State) (l : List Byte) : Bool :=
  let w := natAt l 0 8
  let r := natAt l 8 32
  let op := bitsOf w 0 8
  onlyFields r [(0, 6), (8, 62), (128, 64)] && elementNamed s { kind := bitsOf r 0 4, id := bitsOf r 16 48 } &&
  decide (40 ≤ l.length) &&
  (if op = 0 then w = 0 && l.length = 40 else op = 1 && onlyFields w [(0, 9), (16, 32)])

/-- R663, R667: a payload of a variable length is laid out as its command says. -/
def variableGood (s : State) (op : Nat) (l : List Byte) : Bool :=
  let w := natAt l 0 8
  match op with
  | 0x0201 => decide (8 ≤ l.length) && onlyFields w [(0, 3), (8, 1), (16, 32)]
  | 0x0202 => decide (8 ≤ l.length) && onlyFields w [(0, 3), (8, 1), (16, 32)]
  | 0x0203 =>
    if bitsOf w 0 8 = 1 then decide (8 ≤ l.length) && onlyFields w [(0, 9), (16, 32)]
    else (w = 0 || w = 2) && l.length = 8
  | 0x0301 => decide (8 ≤ l.length) && onlyFields w [(0, 33)]
  | 0x0303 => decide (8 ≤ l.length) && onlyFields w [(0, 33), (40, 8)] && decide (bitsOf w 40 8 < 16)
  | 0x0501 =>
    let n := bitsOf w 0 8
    decide (1 ≤ n) && decide (n ≤ 17) && w < 256 && l.length = 8 + 224 * n &&
    (List.range n).all (fun i => natAt l (8 + 224 * i) 32 < 2 ^ 63)
  | 0x0701 => joinGood l
  | 0x0704 =>
    let n := bitsOf w 16 12
    onlyFields w [(0, 14), (16, 12), (32, 1)] && decide (1 ≤ n) && decide (n ≤ 2012) && l.length = 8 + 2 * n &&
    (halves l 8 n).all (fun e => decide (e < 4096))
  | 0x0803 => fenceGood s l
  | 0x0805 =>
    let n := bitsOf w 0 8
    decide (1 ≤ n) && decide (n ≤ 251) && w < 256 && l.length = 8 + 16 * n &&
    (List.range n).all (fun i => onlyFields (natAt l (8 + 16 * i) 16) [(0, 48), (64, 32)])
  | 0x0A02 =>
    let n := bitsOf w 32 8
    onlyFields w [(0, 40)] && decide (1 ≤ n) && decide (n ≤ 125) && l.length = 8 + 32 * n &&
    (List.range n).all (fun i => natAt l (32 + 32 * i) 8 = 0)
  | _ => false

/-- R689, R698, R681: values of fixed payloads that break their layout. -/
def valueBad (op v : Nat) (l : List Byte) : Bool :=
  match op with
  | 0x0401 => bitsOf v 0 48 = 0
  | 0x0601 => bitsOf v 64 2 = 3
  | 0x0603 => bitsOf v 64 64 % 8 ≠ 0
  | 0x0605 => bitsOf v 128 32 = 0
  | 0x0606 => bitsOf v 64 64 % 8 ≠ 0
  | 0x0607 => bitsOf v 64 64 % 8 ≠ 0
  | 0x0801 => bitsOf v 0 2 = 3
  | 0x0703 =>
    !(onlyFields (v % 2 ^ 64) [(0, 4), (8, 1)]) ||
    (if bitAt v 8 then (halves l 8 32).any (fun e => !(memberEntryGood e)) else 2 ^ 64 ≤ v)
  | _ => false

/-- R647, R667: a payload that breaks its command's layout. -/
def payloadBad (s : State) (op : Nat) (l : List Byte) : Bool :=
  match payloadLen op with
  | none => !(variableGood s op l)
  | some n =>
    let v := natOf l
    l.length ≠ n || valueBad op v l || (op ≠ 0x0703 && !(onlyFields v (payloadFields op)))

/-- R639, R681: a command names a handle in its payload. -/
def namesHandle (op : Nat) : Bool := [0x0402, 0x0403, 0x0404, 0x0A01, 0x0A02, 0x0A03].contains op

/-- R658, R681: the slice a command names: the frame's, or the one its payload names. -/
def handleNamed (s : State) (f op : Nat) (l : List Byte) : Nat :=
  let own := (frameOf s f).owner
  let h := natAt l 0 4
  if f ≠ 0 then (if namesHandle op && h ≠ 0 then h else own) else if namesHandle op then h else 0

/-- R639: the slice a command concerns; 0 for none. -/
def concerned (op handle : Nat) : Nat := if 0x0A01 ≤ op && op ≤ 0x0A03 then 0 else handle

/-- R639 to R641, R653: what the state of the slice concerned refuses a command with; 0 for nothing. -/
def sliceRefuses (s : State) (f : Nat) (t : Taken) (handle : Nat) : Nat :=
  match look? s.slices (concerned t.opcode handle) with
  | none => 0
  | some l => match l.state with
    | .active => 0
    | .resetting => if t.resetting then 0 else 6
    | .failed => if t.failed then 0 else 6
    | .destroying => if t.opcode = 0x0403 || t.opcode = 0x0902 then 0 else if f = 0 then 6 else 0x0B

/-- R944 steps 2 to 9, and R674's target states that no transition has: the code of a commit that starts no command. -/
def commitCode (s : State) (f w : Nat) (l : List Byte) : Nat :=
  let op := cwOpcode w
  let target := bitsOf (natAt l 0 1) 0 3
  if cwReserved w ≠ 0 || 4032 < cwLen w then 3
  else match takenOf op with
    | none => 1
    | some t =>
      if s.sup.resetting && !(servedInReset op) then 0x0C
      else if stateRefuses s op target then 7
      else if !(readyFor s op target) then 8
      else if !(if f = 0 then t.frame0 else t.sliced) then 4
      else if payloadBad s op l then 3
      else
        let h := handleNamed s f op l
        if (namesHandle op && (look? s.slices h).isNone) || (f ≠ 0 && h ≠ (frameOf s f).owner) then 5
        else if sliceRefuses s f t h ≠ 0 then sliceRefuses s f t h
        else if op = 0x0105 && 4 ≤ target then 0x26
        else 0

/-! ## Completion, R648, R658, R659 -/

/-- R658: a completion record. -/
def completionRecord (s : State) (f k : Nat) (r : Running) (phase : Bool) (code len : Nat) : List Byte :=
  bytesOf 32 (r.seq + k * 2 ^ 16 + f * 2 ^ 20 + bn phase * 2 ^ 26 + code * 2 ^ 32 + r.opcode * 2 ^ 48 + r.handle * 2 ^ 64 +
    len * 2 ^ 96 + s.clocks.sup * 2 ^ 128 + 255 * 2 ^ 192)

/-- R656: records of a ring. -/
def ringRecords (g : FrameRing) : Nat := 2 ^ (g.logSize + 4)

/-- R648 step 3, R659, R661, R590: the completion record. -/
def sendRecord (s : State) (f k : Nat) (r : Running) (code len : Nat) : State :=
  let g := (frameOf s f).ring
  if !r.ring then s
  else if !g.enable then bump s ctrFrameOmitted f 1
  else
    let n := g.written
    let rec_ := completionRecord s f k r (n / ringRecords g % 2 = 0) code len
    let t := { s with frames := put s.frames f { frameOf s f with ring := { g with written := n + 1 } } }
    if t.hp.linkUp then bump (emit t (.hostWrite (g.base + 32 * (n % ringRecords g)) rec_)) ctrFrameRecords f 1
    else bump t ctrHostRecDiscarded 0 1

/-- R648: a command completes. -/
def complete (s : State) (f k : Nat) (r : Running) (code : Nat) (resp : List Byte) : State :=
  let m := mbSlot s f k
  let t := setMb s f k { m with
    payload := putPayload m.payload 0 resp, poison := payloadPoison m.poison 0 resp.length [], status := statusWord r.seq 2 code resp.length, run := none }
  let t := { t with fabric := { t.fabric with far := t.fabric.far.filter (fun g => !(g.frame = f && g.slot = k)) } }
  let t := if code ≤ 0x0C then bump t (ctrFrameCode.plus code) f 1 else t
  let t := sendRecord t f k r code resp.length
  let v := (frameOf t f).ring.vector
  if r.irq && v ≠ 0 then bump (raiseMsix t v) ctrFrameMsix f 1 else t

/-! ## Commits, R645 -/

/-- R667, R706: a command's timeout in ticks of the supervisor's counter. -/
def timeoutOf (op : Nat) (l : List Byte) : Option Nat :=
  let ms (n : Nat) : Option Nat := some (n * ticksPerMs)
  match op with
  | 0x0101 => ms 1
  | 0x0104 => ms 1
  | 0x0105 => ms 60000
  | 0x0201 => ms 600000
  | 0x0202 => ms 600000
  | 0x0203 => ms 10000
  | 0x0301 => ms 5000
  | 0x0302 => ms 1000
  | 0x0303 => ms 5000
  | 0x0401 => ms 2000
  | 0x0402 => ms (if bitAt (natAt l 0 8) 32 then 300000 else 500)
  | 0x0403 => ms 1
  | 0x0404 => none
  | 0x0501 => ms 50
  | 0x0502 => ms 10
  | 0x0503 => ms 100
  | 0x0504 => ms 1000
  | 0x0505 => ms 1000
  | 0x0506 => ms 1
  | 0x0601 => ms 1000
  | 0x0602 => ms 1000
  | 0x0603 => ms 10000
  | 0x0604 => ms 60000
  | 0x0605 => ms 1000
  | 0x0606 => ms 60000
  | 0x0607 => ms 100
  | 0x0701 => ms 1000
  | 0x0702 => ms 50
  | 0x0704 => ms 100
  | 0x0801 => ms 1
  | 0x0803 => ms 1000
  | 0x0804 => ms 1
  | 0x0805 => ms 1
  | 0x0901 => ms 30000
  | 0x0A01 => ms 30000
  | 0x0A02 =>
    let total := ((List.range (bitsOf (natAt l 4 1) 0 8)).map (fun i => natAt l (24 + 32 * i) 8)).sum
    some (10 * ticksPerS + total * ticksPerS / 100000000000)
  | 0x0A03 => ms 60000
  | _ => ms 10

/-- A command as a commit asks for it. -/
def runningOf (s : State) (f k w : Nat) (l : List Byte) : Running :=
  { seq := cwSeq w, opcode := cwOpcode w, ring := bitAt w 44, irq := bitAt w 45, payload := l, since := s.clocks.sup
    timeout := timeoutOf (cwOpcode w) l, handle := handleNamed s f (cwOpcode w) l, wait := .unstarted, code := 0, resp := []
    progress := 0, order := s.sup.nextOrder, at_ := 0
    poison := (mbSlot s f k).poison.filter (fun n => decide (8 * n < l.length)) }

/-- R633: an accepted `slice.destroy` puts its slice in DESTROYING; one that is RESETTING first finishes that (R641). -/
def noteDestroy (s : State) (r : Running) : State :=
  match if r.opcode = 0x0402 then look? s.slices r.handle else none with
  | some l =>
    let t := { s with sup := { s.sup with destroys := put s.sup.destroys r.handle (bitAt (natAt r.payload 0 8) 32) } }
    if l.state = .resetting then t else setSlice t r.handle { l with state := .destroying }
  | none => s

/-- R515: what a command that is otherwise accepted fails with when its payload is poisoned; `ctx.load` meets the poison of an
entry as it reads it (R513). -/
def acceptCode (code : Nat) (r : Running) : Nat :=
  if code = 0 && (if r.opcode = 0x0501 then r.poison.contains 0 else !r.poison.isEmpty) then 0x8F else code

/-- R645: a commit. -/
def commitSlot (s : State) (f k : Nat) : State :=
  let m := mbSlot s f k
  let w := m.commit.toNat
  if m.run.isSome then bump s ctrFrameDiscarded f 1
  else if cwSeq w = m.last then s
  else
    let l := slotPayload m (min (cwLen w) 4032)
    let r := runningOf s f k w l
    let t := setMb s f k { m with last := cwSeq w }
    if cwSeq w ≠ (m.last + 1) % 65536 then complete t f k r 2 []
    else
      let t := bump t ctrFrameAccepted f 1
      let code := acceptCode (commitCode t f w l) r
      if code ≠ 0 then complete t f k r code []
      else
        let t := setMb t f k { mbSlot t f k with status := statusWord r.seq 1 0 0, run := some r }
        noteDestroy { t with sup := { t.sup with nextOrder := t.sup.nextOrder + 1 } } r

/-- R598: a BAR2 access is discarded. -/
def discardBar2 (s : State) (off : Nat) (write : Bool) : State :=
  hostEvent (hostRefusal (bump s ctrHostBar2Discarded 0 1) 0x62 off write) evBar2

/-- The eight bytes of a register, with some replaced. -/
def mergeReg (v off : Nat) (l : List Byte) : Nat :=
  natOf ((bytesOf 8 v).zipIdx.map (fun e => if off ≤ e.2 && e.2 < off + l.length then l.getD (e.2 - off) 0 else e.1))

/-- R598, R599, R644, R645: a host write to BAR2. -/
def bar2Write (s : State) (off : Nat) (data : HostBytes) : State :=
  let l := data.bytes
  if !s.hp.linkUp || l.isEmpty then s
  else match bar2Place s off with
    | none => discardBar2 s off true
    | some (f, k, at_) =>
      if 256 < l.length || 4096 < at_ + l.length then discardBar2 s off true
      else
        let m := mbSlot s f k
        let body := l.drop (64 - at_)
        let bad := ((data.poison.map (fun n => at_ + 8 * n)).filter (fun a => decide (64 ≤ a))).map (fun a => (a - 64) / 8)
        let t := if body.isEmpty then s
          else setMb s f k { m with
            payload := putPayload m.payload (at_ - 64) body, poison := payloadPoison m.poison (at_ - 64) body.length bad }
        if 8 ≤ at_ then t
        else if at_ = 0 && 8 ≤ l.length then
          commitSlot (setMb t f k { mbSlot t f k with commit := BitVec.ofNat 64 (natOf (l.take 8)) }) f k
        else bump t ctrFramePartial f 1

/-! ## Running commands -/

/-- Every running command, with its frame and slot. -/
def running (s : State) : List (Nat × Nat × Running) :=
  (s.frames.map (fun e => e.2.slots.filterMap (fun m => m.2.run.map (fun r => (e.1, m.1, r))))).flatten

/-- The running command of a slot, when it has an opcode. -/
def runAs (s : State) (f k op : Nat) : Option Running := (mbSlot s f k).run.filter (fun r => r.opcode = op)

/-- Replace the running command of a slot. -/
def setRun (s : State) (f k : Nat) (r : Running) : State := setMb s f k { mbSlot s f k with run := some r }

/-- R651 step 3: a command's effects are complete; its completion is due. -/
def settle (s : State) (f k code : Nat) (resp : List Byte) : State :=
  match (mbSlot s f k).run with
  | none => s
  | some r => setRun s f k { r with wait := .nothing, code := code, resp := resp }

/-- A command goes on waiting. -/
def await (s : State) (f k : Nat) (w : Wait) : State :=
  match (mbSlot s f k).run with
  | none => s
  | some r => setRun s f k { r with wait := w }

/-- The slots of a group's cores. -/
def slotNumbers (cores : List Nat) : List Nat := (cores.map (fun c => (List.range 4).map (fun k => c * 4 + k))).flatten

/-- R649: what a command names, as kind and number: 1 a creation or destruction, 2 a slice, 3 a context slot, 4 a window,
5 a Rolben port, 6 what changes the life-cycle state, the firmware or the capability table, 7 a tier port, 8 a route table. -/
def namesOf (s : State) (r : Running) : List (Nat × Nat) :=
  let p := r.payload
  let w := natAt p 0 8
  let slotsOf (l : List (Nat × Nat)) : List (Nat × Nat) := l.map (fun e => (3, e.1 * 4 + e.2))
  let groupSlots := ((groupHolding s r.handle (w % 2 ^ 32)).map (fun g => slotNumbers g.2.cores)).getD []
  match r.opcode with
  | 0x0401 => [(1, 0)]
  | 0x0402 => [(1, 0)]
  | 0x0501 => (List.range (bitsOf w 0 8)).map (fun i =>
      let h := natAt p (8 + 224 * i) 2
      (3, bitsOf h 0 12 * 4 + bitsOf h 12 2))
  | 0x0502 => slotsOf (confSlots s r.handle (w % 2 ^ 32))
  | 0x0503 => slotsOf (confSlots s r.handle (w % 2 ^ 32))
  | 0x0504 => groupSlots.map (fun u => (3, u))
  | 0x0505 => groupSlots.map (fun u => (3, u))
  | 0x0601 => (rangeKeys (gaSpace w) (gaOff w) (natAt p 10 2 * pageBytes (bitsOf (natAt p 8 1) 0 2))).map (fun w => (4, w))
  | 0x0602 => (rangeKeys (gaSpace w) (gaOff w) (min (natAt p 8 8) (2 ^ 48 - gaOff w))).map (fun w => (4, w))
  | 0x0701 => (maskPorts (bitsOf w 16 16)).map (fun q => (5, q))
  | 0x0702 => (maskPorts (bitsOf w 0 16)).map (fun q => (5, q))
  | 0x0703 => [(5, bitsOf w 0 4)]
  | 0x0704 => [(8, r.handle)]
  | 0x0105 => [(6, 0)]
  | 0x0201 => [(6, 0)]
  | 0x0202 => [(6, 0)]
  | 0x0301 => [(6, 0)]
  | 0x0302 => [(6, 0)]
  | 0x0803 => [(6, 0), (7, natAt p 10 6)]
  | 0x0A01 => [(2, r.handle)]
  | 0x0A02 => [(2, r.handle)]
  | 0x0A03 => [(2, r.handle)]
  | _ => []

/-- R649: an earlier command that names the same thing has not taken its effect yet. -/
def behind (s : State) (r : Running) : Bool :=
  let mine := namesOf s r
  (running s).any (fun e => decide (e.2.2.order < r.order) && e.2.2.wait ≠ .nothing && (namesOf s e.2.2).any (fun n => mine.contains n))

/-- The command of a slot whose row may act now: accepted, not begun, and behind nothing. -/
def due (s : State) (f k op : Nat) : Option Running :=
  (runAs s f k op).filter (fun r => r.wait = .unstarted && !(behind s r))

/-! ## Stopping commands, R652 to R654, R665 -/

/-- R686: slots of a configured region still stopping. -/
def stillStopping (s : State) (h config : Nat) : Nat :=
  ((confSlots s h config).filter (fun e => activeState (slotOf s e.1 e.2).state)).length

/-- R664, R665: the response of a command stopped before it was done. -/
def partResponse (s : State) (r : Running) : List Byte :=
  match r.opcode with
  | 0x0501 => bytesOf 8 0
  | 0x0503 => bytesOf 8 (r.progress - (match r.wait with
    | .stopped c => stillStopping s r.handle c
    | _ => 0))
  | 0x0504 => bytesOf 8 0
  | 0x0505 => bytesOf 8 0
  | 0x0603 => bytesOf 8 r.progress
  | 0x0604 => bytesOf 8 r.progress
  | 0x0605 => bytesOf 8 r.progress
  | 0x0606 => bytesOf 8 r.progress
  | 0x0701 => r.resp
  | 0x0A02 => bytesOf 8 (((s.fabric.admits.find? (fun a => a.handle = r.handle)).map (·.done)).getD 0)
  | _ => []

/-- R652 to R654, R665: a running command stops and completes with a code. -/
def stopCommand (s : State) (f k : Nat) (r : Running) (code : Nat) : State := complete s f k r code (partResponse s r)

/-- R652 to R654: every running command that satisfies p is stopped. -/
def interrupt (s : State) (code : Nat) (p : Running → Bool) : State :=
  each ((running s).filter (fun e => p e.2.2)) s (fun e s => stopCommand s e.1 e.2.1 e.2.2 code)

/-- R652: a partition reset of a slice begins. -/
def interruptReset (s : State) (h : Nat) : State :=
  interrupt s 0x0A (fun r => concerned r.opcode r.handle = h && r.opcode ≠ 0x0404 && !((takenOf r.opcode).any (·.resetting)))

/-- R653: a slice is destroyed. -/
def interruptDestroy (s : State) (h : Nat) : State :=
  interrupt s 0x0B (fun r => concerned r.opcode r.handle = h && r.opcode ≠ 0x0402)

/-- R654: a module compute reset begins. -/
def interruptModule (s : State) : State := interrupt s 0x0C (fun r => !(servedInReset r.opcode) && r.opcode ≠ 0x0901)

/-- R665: a command that reaches its timeout. -/
def timeOut (s : State) (f k : Nat) : State :=
  match (mbSlot s f k).run with
  | none => s
  | some r =>
    if r.wait ≠ .nothing && r.timeout.any (fun t => windowOver s.clocks.sup r.since t) then stopCommand s f k r 9 else s

/-- Complete at once what has nothing to wait for: the code and response its row set. -/
def completeNow (s : State) (f k : Nat) : State :=
  match (mbSlot s f k).run with
  | none => s
  | some r => if r.wait = .nothing then complete s f k r r.code r.resp else s

/-! ## The commands -/

/-- A host write that covers a commit word, R645. -/
def execCommit (off : Nat) (data : HostBytes) (s : State) : Host.Outcome State Fault Refusal :=
  .next (match bar2Place s off with
  | some (_, _, at_) => if at_ = 0 && 8 ≤ data.bytes.length then bar2Write (openBars s) off data else s
  | none => s)

/-- R598, R642: a BAR2 read: an aligned one of 4 or 8 bytes answers with what the slot holds; any other is discarded, and answers
zero. -/
def bar2Read (s : State) (off length : Nat) : State :=
  match if (length = 4 || length = 8) && off % length = 0 then bar2Place s off else none with
  | none => emit (discardBar2 s off false) (.barRead off 0)
  | some (f, k, at_) => emit s (.barRead off (natAt (slotBytesOf (mbSlot s f k)) at_ length))

/-- A BAR2 read, R598. The row is of one that is discarded; one that is served is answered by it too (log entry 97). -/
def execBar2Discard (off length : Nat) (s : State) : Host.Outcome State Fault Refusal :=
  .next (if s.hp.linkUp then bar2Read (openBars s) off length else s)

/-- A command reaches its timeout, R665. -/
def execCommandTimeout (frame slot : Nat) (s : State) : Host.Outcome State Fault Refusal := .next (timeOut s frame slot)

end Sys2Proof.Machine
end

