-- ==== Sys2Proof/Machine/Resets.lean ====
section
/-! DEFINITION. Resets: context, engine, partition and module compute, when they clear, and what follows one that does not
(16_recovery.md R816 to R828). -/

namespace Sys2Proof.Machine

/-! ## Groups, R495 -/

/-- The cores that hold a slot of a configured region of a slice, twins among them. -/
def confCores (s : State) (h config : Nat) : List Nat :=
  (sliceCores s h).filter (fun c => (coreOf s c).slots.any (fun v => v.2.state ≠ .empty && imConfig v.2.image = config))

/-- The configured regions loaded on the cores of a slice. -/
def loadedConfigs (s : State) (h : Nat) : List Nat :=
  (((sliceCores s h).map (fun c => ((coreOf s c).slots.filter (fun v => v.2.state ≠ .empty)).map (fun v => imConfig v.2.image))).flatten).eraseDups

/-- Join a configured region to the sets that share one of its cores. -/
def joinSets (l : List (List Nat × List Nat)) (e : Nat × List Nat) : List (List Nat × List Nat) :=
  let hit := l.filter (fun x => x.2.any (fun c => e.2.contains c))
  l.filter (fun x => !(x.2.any (fun c => e.2.contains c))) ++
    [((hit.map (·.1)).flatten ++ [e.1], (hit.map (·.2)).flatten.foldl addTo (e.2.foldl addTo []))]

/-- R495: the sets of configured regions on the cores of a slice, each with its cores. -/
def groupSets (s : State) (h : Nat) : List (List Nat × List Nat) :=
  ((loadedConfigs s h).map (fun k => (k, confCores s h k))).foldl joinSets []

/-- A group that has just formed. -/
def Group.fresh (configs cores : List Nat) (places : Tab Nat) (began : Nat) : Group :=
  { configs := configs, cores := cores, resident := true, byHost := false, image := .empty, pool := none, dark := [], began := began
    places := places, prog := [], saved := [], engs := [], jobs := [], halted := false, affected := [] }

/-- A saved-out group that still holds a slot. -/
def groupHolds (g : Group) : Bool := g.saved.any (fun c => c.2.slots.any (fun v => v.2.state ≠ .empty))

/-- A group after the sets on the cores have changed: its set, or itself while saved out, or nothing. -/
def regrouped (sets : List (List Nat × List Nat)) (l : List Group) (g : Group) : Option Group :=
  if !g.resident then (if groupHolds g then some g else none)
  else
    match sets.find? (fun x => x.1.any (fun k => g.configs.contains k)) with
    | none => none
    | some x =>
      let first := (l.find? (fun o => o.resident && x.1.any (fun k => o.configs.contains k))).any (fun o => o = g)
      if first then some { g with configs := x.1, cores := x.2, places := placesOn (l.filter (fun o => !(o.resident && x.1.any (fun k => o.configs.contains k)))) g.places x.2 } else none

/-- R495: the groups of a slice follow what is loaded on its cores. -/
def regroup (s : State) (h : Nat) : State :=
  match look? s.slices h with
  | none => s
  | some l =>
    let sets := groupSets s h
    let old := l.groups.filterMap (regrouped sets l.groups)
    let new_ := (sets.filter (fun x => !(l.groups.any (fun g => g.resident && x.1.any (fun k => g.configs.contains k)))))
    let groups := new_.foldl (fun a x => a ++ [Group.fresh x.1 x.2 (placesOn a [] x.2) s.clocks.sup]) old
    setSlice s h { l with groups := groups }

/-! ## A slot's units let go of it, R817 -/

/-- R817 step 2, R137: what an engine holds of a slot is discarded. -/
def engineWithout (e : Engine) (c k : Nat) : Engine :=
  let mine (a : OpenAcc) : Bool := a.first.core = c && a.first.slot = k
  let clean (t : TileBuf) : TileBuf := if t.done.any mine then .fresh else t
  let gone := e.sent.filter mine
  let keyOf_ (a : OpenAcc) : Nat := sdRow a.first.desc * 2 ^ 20 + sdCol a.first.desc
  let opened := e.acc.filter mine
  let e1 := { e with
    waiting := e.waiting.filter (fun w => !(w.core = c && w.slot = k))
    queue := e.queue.filter (fun w => !(w.core = c && w.slot = k))
    tile0 := clean e.tile0
    tile1 := clean e.tile1
    sent := e.sent.filter (fun a => !(mine a))
    replays := e.replays.filter (fun key => !(gone.any (fun a => keyOf_ a = key % 2 ^ 44)))
    kept := e.kept.filter (fun x => !(mine x.2)) }
  match opened with
  | some a => closeAcc e1 a
  | none => if e.kept.isSome && e1.kept.isNone then freeHeld e1 else e1

/-- The engines of a core let go of a slot; a replay that waited behind it begins (R106). -/
def engineRelease (s : State) (c k : Nat) : State :=
  each (List.range 4) s (fun i s =>
    match look? s.engines (engineOf c i) with
    | some e => takeReplay (setEng s (engineOf c i) (engineWithout e c k)) (engineOf c i)
    | none => s)

/-- R368, R817: a copy that a reset stopped writes elems_done and goes, once no record of it is in flight. -/
def releaseCopies (s : State) (unit : Unit) : State :=
  let over_ (j : CopyJob) : Bool := j.halt = some .reset && !(j.segs.any segBusy)
  each ((jobsOf s unit).filter over_) (setJobs s unit ((jobsOf s unit).filter (fun j => !(over_ j))))
    (fun j s => (retire s j).1)

/-- R817 step 2: copies of a slot stop. -/
def stopCopies (s : State) (unit : Unit) (c k : Nat) : State :=
  releaseCopies (setJobs s unit ((jobsOf s unit).map (fun j => if j.core = c && j.slot = k then { j with halt := some .reset } else j))) unit

/-- Copies of a slot that still wait for their acks. -/
def slotHeld (s : State) (c k : Nat) : Bool :=
  (jobsOf s (.coreCopy c) ++ jobsOf s (.hubCopy (clusterOf c))).any (fun j => j.core = c && j.slot = k && j.halt = some .reset)

/-- R817 step 2, R394: a slot's streams stop and become unbound. -/
def stopStreams (s : State) (c k : Nat) : State :=
  each (keys (slotOf s c k).strms) s (fun n s => setStrm (leavePartial s c k n) c k n .fresh)

/-- R333: a reset has the waits of a slot cancelled; a value on its way from its twin is gone. -/
def dropWaits (s : State) (c k : Nat) : State :=
  let s := cancelWaits s c k
  let stale (m : Msg) : Bool := match m.body with
    | .twin _ _ => m.dst = c && m.dstSlot = k
    | _ => false
  { s with narrow := s.narrow.filter (fun m => !(stale m)) }

/-- R817 step 3: the landing areas of a slot are freed; the contributors of bound ones are told. -/
def freeAreas (s : State) (c k : Nat) : State :=
  let v := slotOf s c k
  each v.areas s (fun e s =>
    if e.2.bound then
      tellContributors (setArea s c k (e.1 / 2) (e.1 % 2) .fresh) c k (landEntry s c v (e.1 / 2)) (fun g => .abort g e.2.row e.2.col)
    else s)

/-- R270: tokens held in the lanes and the reserve. -/
def tokensHeld (v : Slot) : Nat := (v.lanes.map (fun l => l.2.tokens.length + l.2.spilled.length)).sum

/-- R270, R272, R817 steps 4 to 6: an EMPTY slot k that follows v, with the next gen values; a stall beacon that it sent
still stands (R280). -/
def emptied (k : Nat) (v : Slot) : Slot :=
  { Slot.fresh with
    gen := v.gen
    lanes := (List.range 16).map (fun n => (n, Lane.fresh (((laneOf v n).gen + 1) % 16)))
    hqs := (List.range 4).map (fun n => (n, { gen := ((hqOf v n).gen + 1) % 16
                                              free := hqFresh k n (((hqOf v n).gen + 1) % 16) (imHq v.image n)
                                              ready := [] }))
    beacon := v.beacon
    told := v.told
    errLost := v.errLost
    lastErr := v.lastErr }

/-- R270, R277, R291: what the reset of a slot counts: the tokens it discards and the handles that its units held. -/
def countReset (s : State) (c k : Nat) (v : Slot) : State :=
  bump (bump s ctrSlotDiscarded (slotUnit c k) (tokensHeld v)) ctrSlotOrphanHandles (slotUnit c k) (heldHandles v).length

/-- R817 for one slot, without its twin. -/
def resetOne (s : State) (c k : Nat) : State :=
  let s := if (slotOf s c k).issued.any (fun i => i.op = 0x10 || i.op = 0x11) then
      setCore s c { coreOf s c with vecQ := (coreOf s c).vecQ.filter (· ≠ k), parts := [], owed := [], formed := [], vecRetry := false }
    else s
  let s := stopCopies (stopCopies (engineRelease s c k) (.coreCopy c) c k) (.hubCopy (clusterOf c)) c k
  let v := slotOf s c k
  let h := hubOf s (clusterOf c)
  let s := setHub s (clusterOf c) { h with merges := h.merges.filter (fun j => !(j.core = c && j.slot = k)) }
  let s := forgetSyncs (dropWaits (stopStreams s c k) c k) c k (fun _ => true)
  let s := { s with xlat := { s.xlat with walks := s.xlat.walks.filter (fun w => match w.unit with
    | .stream c' k' _ => !(c' = c && k' = k)
    | _ => true) } }
  settleCore (onSlot (closeEnds (countReset (freeAreas (dropWindow s c k) c k) c k v) c k) c k (emptied k)) c

/-- R505: a reset of cores meets a group whose save or restore is under way: their images go to state 5 and the save is over; a
restore is given up. -/
def breakSave (s : State) (h i : Nat) (g : Group) (cores : List Nat) : State :=
  match g.image with
  | .saving =>
    let s := failImages (if g.prog.isEmpty then s else unsave s g) h g (g.cores.filter (fun c => cores.contains c))
    unpark (setGroup s h i { g with image := .failed, byHost := false, prog := [], saved := [] }) g.cores
  | .restoring => dropRestore s h i
  | _ => s

/-- A saved-out group without one of its slots. -/
def savedWithout (g : Group) (c k : Nat) : Group :=
  let co := look g.saved c .fresh
  { g with
    saved := put g.saved c { co with slots := put co.slots k (emptied k (look co.slots k .fresh)) }
    engs := g.engs.map (fun e => if coreOfEngine e.1 = c then (e.1, engineWithout e.2 c k) else e)
    jobs := g.jobs.map (fun e => (e.1, { e.2 with
      merges := e.2.merges.filter (fun j => !(j.core = c && j.slot = k))
      copies := e.2.copies.filter (fun j => !(j.core = c && j.slot = k)) })) }

/-- R817: a context reset of a slot on its core, of its twin with it, and of the saves it meets. -/
def resetSlot (s : State) (c k : Nat) : State :=
  let v := slotOf s c k
  let h := (sliceOfCore s c).getD 0
  let s := each ((groupsOf s h).zipIdx.filter (fun e => e.1.cores.contains c)) s (fun e s => breakSave s h e.2 e.1 [c])
  let s := resetOne s c k
  let s := match v.twin with
    | some (tc, tk) => resetOne s tc tk
    | none => s
  regroup (bump s ctrRegionCtxResets (regionOf c) 1) h

/-- R817: a context reset of a slot of a saved-out group. -/
def resetSaved (s : State) (h i c k : Nat) : State :=
  match (groupsOf s h)[i]? with
  | none => s
  | some g =>
    let v := look (look g.saved c .fresh).slots k .fresh
    let s := countReset s c k v
    let g := match v.twin with
      | some (tc, tk) => savedWithout (savedWithout g c k) tc tk
      | none => savedWithout g c k
    regroup (bump (setGroup s h i g) ctrRegionCtxResets (regionOf c) 1) h

/-! ## The resets in progress -/

/-- A reset by its number. -/
def resetOf (s : State) (id : Nat) : Option Reset := s.sup.resets.find? (fun x => x.id = id)

/-- Change a reset. -/
def onReset (s : State) (id : Nat) (f : Reset → Reset) : State :=
  { s with sup := { s.sup with resets := s.sup.resets.map (fun x => if x.id = id then f x else x) } }

/-- A reset is over. -/
def endReset (s : State) (id : Nat) : State := { s with sup := { s.sup with resets := s.sup.resets.filter (fun x => x.id ≠ id) } }

/-- R832: the slice of the reset of a whole configured region. -/
def wholeConf (x : Reset) : Option Nat := if 2 ^ 32 ≤ x.target then some (x.target / 2 ^ 32) else none

/-- The region whose controller times a context or engine reset, or whose core a slot lies on. -/
def resetRegion (s : State) (x : Reset) : Nat :=
  if x.domain = 1 then regionOf (coreOfEngine x.target)
  else match wholeConf x with
    | some h => ((confRegion s h x.config).orElse (fun _ => (x.holding.head?).map (fun e => regionOf (e.id / 4)))).getD 0
    | none => regionOf (x.target / 4)

/-- The counter that times a reset, R816. -/
def resetNow (s : State) (x : Reset) : Nat := if x.domain ≤ 1 then regionNow s (resetRegion s x) else s.clocks.sup

/-- R816: the timeout of a domain. -/
def resetTicks (domain : Nat) : Nat :=
  match domain with
  | 0 => 2 * ticksPerMs
  | 1 => 200 * ticksPerUs
  | 2 => 500 * ticksPerMs
  | _ => 20 * ticksPerS

/-- The slots a context reset still has to reset. -/
def slotsLeft (s : State) (x : Reset) : List (Nat × Nat) :=
  match wholeConf x with
  | some h => confSlots s h x.config
  | none => if x.begun then [] else [(x.target / 4, x.target % 4)]

/-- The regions a reset touches, R829. -/
def resetRegions (s : State) (x : Reset) : List Nat :=
  match x.domain with
  | 0 => match wholeConf x with
    | some h => (confSlots s h x.config).map (fun e => regionOf e.1)
    | none => [regionOf (x.target / 4)]
  | 1 => [regionOf (coreOfEngine x.target)]
  | 2 => ((look? s.slices x.target).map (·.regions)).getD []
  | _ => regionList s

/-- R832: the target and the configured region that a region's clove record names. -/
def cloveTarget (s : State) (x : Reset) (r : Nat) : Nat × Nat :=
  match wholeConf x with
  | none => (x.target, 0)
  | some h => match (confSlots s h x.config).filter (fun e => regionOf e.1 = r) with
    | [e] => (e.1 * 4 + e.2, 0)
    | _ => (2 ^ 32 - 1, x.config)

/-- R822: the clove record that a region has just written notes the index of a repaired state word. -/
def noteWord (s : State) (r index : Nat) : State :=
  match (regOf s r).cloves with
  | c :: rest => setReg s r { regOf s r with cloves := { c with noted := some index } :: rest }
  | [] => s

/-- R816, R829: a reset begins: its clove records are written and its timeout runs. -/
def beginReset (s : State) (x : Reset) : State :=
  let lit := (resetRegions s x).filter (fun r => shedOf s r ≠ .dark)
  let s := each lit.eraseDups s (fun r t =>
    let e := cloveTarget s x r
    writeClove t r x.domain x.trigger x.cls e.1 e.2 false)
  let s := match x.repair with
    | some (3, place) => noteWord s (place / 65536) (place % 65536)
    | _ => s
  onReset s x.id (fun y => { y with begun := true, since := resetNow s x })

/-- R826: a reset absorbs smaller ones; commands that wait for those wait for it. -/
def supersede (s : State) (id : Nat) (p : Reset → Bool) : State :=
  let gone := (s.sup.resets.filter (fun x => x.id ≠ id && p x)).map (·.id)
  let s := each (running s) s (fun e s => match e.2.2.wait with
    | .reset n => if gone.contains n then setRun s e.1 e.2.1 { e.2.2 with wait := .reset id } else s
    | _ => s)
  { s with sup := { s.sup with resets := s.sup.resets.filter (fun x => !(gone.contains x.id)) } }

/-- The slice a context or engine reset lies in. -/
def resetSlice (s : State) (x : Reset) : Option Nat :=
  match x.domain with
  | 0 => (wholeConf x).orElse (fun _ => sliceOfCore s (x.target / 4))
  | 1 => sliceOfCore s (coreOfEngine x.target)
  | 2 => some x.target
  | _ => none

/-- R827, R753: an anise pass in the scope of a reset is deferred. -/
def deferIn (s : State) (regions : List Nat) : State :=
  if s.sup.aniseRun.any (fun r => regions.contains r) then leavePass (deferAnise s) else s

/-! ## Context and engine resets -/

/-- The decided context reset that covers a slot. -/
def contextOver (s : State) (c k : Nat) : Option Reset :=
  s.sup.resets.find? (fun x => x.domain = 0 && (slotsLeft s x).contains (c, k))

/-- R817: the row of a context reset. -/
def contextReset (s : State) (c k : Nat) : State :=
  match contextOver s c k with
  | none => s
  | some x =>
    let s := if x.begun then s else beginReset s x
    let s := deferIn s [regionOf c]
    onReset (resetSlot s c k) x.id (fun y => { y with holding := y.holding ++ [{ kind := 0, id := c * 4 + k }] })

/-- R819: the slots with a descriptor an engine has accepted. -/
def engineSlots (e : Engine) : List (Nat × Nat) :=
  ((e.acc.toList ++ e.tile0.done.toList ++ e.tile1.done.toList ++ e.sent ++ (e.kept.map (·.2)).toList).map (fun a =>
    (a.first.core, a.first.slot)) ++ e.waiting.toList.map (fun w => (w.core, w.slot))).eraseDups

/-- R819: the row of an engine reset. -/
def engineReset (s : State) (g : Nat) : State :=
  match s.sup.resets.find? (fun x => x.domain = 1 && x.target = g && !x.begun) with
  | none => s
  | some x =>
    let c := coreOfEngine g
    let s := deferIn (bump (beginReset s x) ctrRegionEngResets (regionOf c) 1) [regionOf c]
    let hit := engineSlots (engOf s g)
    let s := each hit s (fun e s => noteFault (rejectStep s e.1 e.2 (slotOf s e.1 e.2).ip 0xB2 g 0 0) e.1 e.2 0xB2 1 0)
    let s := each hit s (fun e s => resetSlot s e.1 e.2)
    let s := setEng { s with mem := zeroRange s.mem (bufPhys g 0) (bufPhys g (2 ^ 18)) } g { Engine.fresh with queue := (engOf s g).queue, defect := (engOf s g).defect }
    onReset s x.id (fun y => { y with holding := hit.map (fun e => { kind := 0, id := e.1 * 4 + e.2 }) })

/-! ## Partition resets, R820 -/

/-- R820 step 5: a region's stack cache is invalid and its wait table empty. -/
def clearRegion (s : State) (r : Nat) : State :=
  let s := dropLines s r (fun _ => true)
  setReg s r { regOf s r with fills := [], waits := [] }

/-- R823: the groups of a slice are gone, with their images. -/
def dropGroups (s : State) (h : Nat) : State :=
  let s := each ((groupsOf s h).filter (fun g => g.image = .saving)) s (fun g s => failImages s h g g.cores)
  match look? s.slices h with
  | none => s
  | some l => setSlice s h { l with groups := [], confs := [] }

/-- R823: an engine's operand buffers and accumulators are cleared; a persistent fault that a rehearsal planted stays (R804). -/
def clearEngine (s : State) (g : Nat) : State :=
  setEng { s with mem := zeroRange s.mem (bufPhys g 0) (bufPhys g (2 ^ 18)) } g { Engine.fresh with defect := (engOf s g).defect }

/-- R820 steps 3 and 4: every unit of a core is cleared; its slots are EMPTY already. -/
def clearCore (s : State) (c : Nat) : State :=
  let co := coreOf s c
  let s := setCore s c { co with copies := [], last := 0, vecQ := [], parts := [], owed := [], formed := [], vecRetry := false }
  each (List.range 4) s (fun i s => if (look? s.engines (engineOf c i)).isSome then clearEngine s (engineOf c i) else s)

/-- R820 steps 2 to 6: the compute of a slice. -/
def clearSlice (s : State) (h : Nat) : State :=
  let regions := ((look? s.slices h).map (·.regions)).getD []
  let cores := sliceCores s h
  let s := each cores s (fun c s => each (keys (coreOf s c).slots) s (fun k s =>
    if (slotOf s c k).state = .empty then s else resetOne s c k))
  let s := each cores s (fun c s => clearCore s c)
  let s := each ((keys s.hubs).filter (fun u => regions.contains (regionOfCluster u))) s (fun u s =>
    setHub s u { hubOf s u with merges := [], copies := [] })
  dropGroups (each regions s (fun r s => clearRegion s r)) h

/-- R835, R941: the report of a reset. -/
def tellReset (s : State) (x : Reset) (handle : Nat) : State :=
  trayEvent s 1 (bytesOf 1 x.domain ++ bytesOf 1 x.trigger ++ bytesOf 4 handle)

/-- R820: the row of a partition reset. -/
def partitionReset (s : State) (h : Nat) : State :=
  match s.sup.resets.find? (fun x => x.domain = 2 && x.target = h && !x.begun), look? s.slices h with
  | some x, some l =>
    if l.state = .destroying then endReset s x.id
    else
      let s := setSlice s h { l with state := .resetting, partResets := l.partResets + 1 }
      let s := bump (interruptReset s h) ctrSliceResets h 1
      let s := supersede (beginReset s x) x.id (fun y => decide (y.domain ≤ 1) && (resetSlice s y = some h))
      let s := clearSlice (deferIn s l.regions) h
      let s := { s with sup := { s.sup with
        ctrlHalted := s.sup.ctrlHalted.filter (fun r => !(l.regions.contains r))
        beat := s.sup.beat.map (fun e => if l.regions.contains e.1 then (e.1, s.clocks.sup) else e) } }
      tellReset s x h
  | some x, none => endReset s x.id
  | _, _ => s

/-! ## Module compute resets, R821, R822 -/

/-- R821 steps 2 and 5: every unit of the wafer, and every slot of every slice. -/
def clearWafer (s : State) : State :=
  let wafer (a : Nat) : Bool := a < 2 ^ 36 || (2 ^ 52 ≤ a)
  let core (co : Core) : Core := { Core.fresh with
    nextTag := co.nextTag
    slots := co.slots.map (fun v => (v.1, if v.2.state = .empty then v.2 else emptied v.1 v.2))
    ends := co.ends.map (fun e => (e.1, if e.2.isOpen then { e.2 with isOpen := false, prev := some e.2.epoch } else e.2)) }
  { s with
    mem := { cells := s.mem.cells.filter (fun c => !(wafer c.1)), poison := s.mem.poison.filter (fun k => !(wafer (8 * k))) }
    cores := s.cores.map (fun e => (e.1, core e.2))
    engines := (s.engines.filter (fun e => e.2.defect ≠ 0)).map (fun e => (e.1, { Engine.fresh with defect := e.2.defect }))
    hubs := s.hubs.map (fun e => (e.1, { e.2 with merges := [], copies := [] }))
    narrow := []
    mesh := { s.mesh with wires := [], entering := [], tries := [], turn := [], passed := [], arrived := [], held := [], reorder := [], pairSrc := [], pairDst := [], links := [] }
    xlat := { s.xlat with walks := [], cache := [], migrating := s.xlat.migrating.map (fun m => { m with waiting := [] }) } }

/-- R821 step 3: the route tables stand rebuilt: a swap that was ordered is over, and a shadow copy not ordered is begun anew. -/
def settleRoutes (s : State) : State :=
  if 2 ≤ s.mesh.rebuild then closeRoutes (retireNow s)
  else closeRoutes { s with mesh := { s.mesh with restart := s.mesh.rebuild = 1 } }

/-- R822: a window's tables are written again from the mappings in force. -/
def rewriteWindow (s : State) (key : Nat) : State :=
  match look? s.xlat.windows key with
  | none => s
  | some w =>
    let mine := s.xlat.leaves.filter (fun l => keyOf l.space l.off = key)
    let bare := { s with xlat := { s.xlat with
      windows := put s.xlat.windows key { w with root0 := 0, root1 := 0, second := false, folded := [] }
      tables := s.xlat.tables.filter (fun t => t.2.2 ≠ key)
      overrides := s.xlat.overrides.filter (fun l => keyOf l.space l.off ≠ key) } }
    match rebuildWindow bare w.owner key (mine.map (fun l => (l.off, l.size, l.entry))) with
    | some t => t
    | none => s

/-- R822: the structure that caused a module compute reset is repaired. -/
def repair (s : State) (structure_ place : Nat) : State :=
  match structure_ with
  | 0 => each (keys s.xlat.windows) s (fun k s => rewriteWindow s k)
  | 3 =>
    let r := place / 65536
    setReg s r { regOf s r with sync := put (regOf s r).sync (place % 65536) 0 }
  | _ => s

/-- R821: the row of a module compute reset; `failed` are the cores whose known-answer run failed. -/
def moduleReset (s : State) (failed : List Element) : State :=
  match s.sup.resets.find? (fun x => x.domain = 3 && !x.begun) with
  | none => s
  | some x =>
    let s := settleAlert { s with sup := { s.sup with resetting := true } }
    let s := bump (interruptModule s) (ctrModResets.plus (x.trigger - 1)) 0 1
    let s := supersede (beginReset s x) x.id (fun y => decide (y.domain ≤ 3))
    let s := deferIn s (regionList s)
    let s := each (keys s.slices) s (fun h s => dropGroups s h)
    let s := each (regionList s) (settleRoutes (clearWafer s)) (fun r s => clearRegion s r)
    let s := each (failed.filter (fun el => el.kind = 1 && elementExists s el)) s (fun el s =>
      fenceElement (detect s el 0x14 true 0) el 1 0x14 [])
    let s := match x.repair with
      | some (a, b) => repair s a b
      | none => s
    tellReset s x 0

/-! ## Clearing, R817 to R821 -/

/-- R817 step 2: every slot of a reset has been released. -/
def resetReleased (s : State) (x : Reset) : Bool :=
  x.begun && (x.domain ≠ 0 || (slotsLeft s x).isEmpty) && !(x.holding.any (fun e => slotHeld s (e.id / 4) (e.id % 4)))

/-- The slice of a partition reset returns to ACTIVE, or takes another state. -/
def leaveReset (s : State) (h : Nat) (to_ : SliceState) : State :=
  match look? s.slices h with
  | some l => if l.state = .resetting then setSlice s h { l with state := to_ } else s
  | none => s

/-- R805: the injections a context reset ends. -/
def injectionOver (s : State) (x : Reset) : State :=
  if 0x80 ≤ x.cls && x.cls ≠ 0xFF then
    { s with sup := { s.sup with injections := s.sup.injections.map (fun j => if j.live && j.cls + 0x80 = x.cls then { j with live := false } else j) } }
  else s

/-- Let the copies a reset stopped go, where their acks have come. -/
def releaseAll (s : State) (x : Reset) : State :=
  each x.holding s (fun e s => releaseCopies (releaseCopies s (.coreCopy (e.id / 4))) (.hubCopy (clusterOf (e.id / 4))))

/-- A reset clears. -/
def clearReset (s : State) (id : Nat) : State :=
  match resetOf s id with
  | none => s
  | some x =>
    let s := releaseAll s x
    if !(resetReleased s x) then s
    else
      let s := injectionOver (endReset s id) x
      match x.domain with
      | 2 => leaveReset s x.target .active
      | 3 =>
        let s := each (keys s.slices) s (fun h s => match look? s.slices h with
          | some l => if l.state = .resetting || l.state = .failed then setSlice s h { l with state := .active } else s
          | none => s)
        settleAlert { s with sup := { s.sup with resetting := false } }
      | _ => s

/-! ## Escalation, R825 -/

/-- R825: a larger reset is decided in place of one that did not clear, and absorbs it. -/
def takeNext (s : State) (x : Reset) (domain target : Nat) : State :=
  let id := s.sup.nextReset
  supersede (decideReset s domain target 3 x.cls x.config [] none) id (fun y => y.id = x.id)

/-- R825, R835: a power cycle is requested of the tray controller, and reported as a reset with its trigger. -/
def askCycle (s : State) (trigger : Nat) : State :=
  if s.sup.cycleAsked then s
  else
    let t := trayEvent (bump { s with sup := { s.sup with cycleAsked := true } } ctrModCycles 0 1) 2 []
    settleAlert (trayEvent t 1 (bytesOf 1 4 ++ bytesOf 1 trigger ++ bytesOf 4 0))

/-- R825: a context reset has not cleared. -/
def contextStuck (s : State) (x : Reset) (engine : Option Nat) : State :=
  let s := bump s ctrRegionCtxStuck (resetRegion s x) 1
  if 0x80 ≤ x.cls && x.cls ≠ 0xFF then injectionOver (endReset s x.id) x
  else match engine with
    | some g => takeNext s x 1 g
    | none => match resetSlice s x with
      | some h => takeNext s x 2 h
      | none => endReset s x.id

/-- R825: the row of a reset that has not cleared within its timeout; `engine` is the unit that holds a context reset when
it is an engine, `router` says that a partition reset is held by a router or an attachment. -/
def resetTimeout (s : State) (id : Nat) (engine : Option Nat) (router : Bool) : State :=
  match resetOf s id with
  | none => s
  | some x =>
    if !x.begun || !(windowOver (resetNow s x) x.since (resetTicks x.domain)) then s
    else match x.domain with
      | 0 => contextStuck s x engine
      | 1 =>
        let s := bump s ctrRegionEngStuck (resetRegion s x) 1
        let s := match resetSlice s x with
          | some h => takeNext s x 2 h
          | none => endReset s id
        fenceAny s (elCore (coreOfEngine x.target)) 1 x.cls
      | 2 =>
        let s := leaveReset (bump s ctrSliceResetStuck x.target 1) x.target .failed
        if router then takeNext s x 3 0 else endReset s id
      | _ => askCycle (endReset (bump s ctrModResetStuck 0 1) id) 3

/-! ## The commands -/

/-- A context reset reaches a slot, R817. -/
def execContextReset (core slot : Nat) (s : State) : Host.Outcome State Fault Refusal := .next (contextReset s core slot)
/-- An engine reset, R819. -/
def execEngineReset (engine : Nat) (s : State) : Host.Outcome State Fault Refusal := .next (engineReset s engine)
/-- A partition reset, R820. -/
def execPartitionReset (handle : Nat) (s : State) : Host.Outcome State Fault Refusal := .next (partitionReset s handle)
/-- A module compute reset, R821. -/
def execModuleComputeReset (failed : List Element) (s : State) : Host.Outcome State Fault Refusal := .next (moduleReset s failed)
/-- A reset clears. -/
def execResetClear (i : Nat) (s : State) : Host.Outcome State Fault Refusal := .next (clearReset s i)
/-- A reset has not cleared within its timeout, R825. -/
def execResetTimeout (i : Nat) (engine : Option Nat) (router : Bool) (s : State) : Host.Outcome State Fault Refusal :=
  .next (resetTimeout s i engine router)

end Sys2Proof.Machine
end

