-- ==== Sys2Proof/Machine/Boot.lean ====
section
/-! DEFINITION. Starts, the shut-down self-test's samples, ageing and the tray controller's inputs (18_bringup.md, 19_physical.md
R937 to R942). -/

namespace Sys2Proof.Machine

/-! ## Ageing, R903 to R906 -/

/-- R904, R905: a prediction enters an entry, with n more hours of samples. -/
def ageSample (n : Nat) (t : Tab AgeEntry) (k hours dominant : Nat) : Tab AgeEntry :=
  let e := look t k .fresh
  put t k { e with hours := hours, dominant := dominant, sampled := e.sampled + n }

/-- R905: the days an entry reports. -/
def ageDays (e : AgeEntry) : Nat := if e.sampled < 720 then 0xFFFF else min (e.hours / 24) 0xFFFF

/-- Insert an entry by its days. -/
def insertAge (a : AgeEntry) : List AgeEntry → List AgeEntry
  | [] => [a]
  | b :: t => if ageDays a < ageDays b then a :: b :: t else b :: insertAge a t

/-- R906: the n-th smallest entry of a list by its days, n from 0. -/
def nthSmallest (l : List AgeEntry) (n : Nat) : AgeEntry := ((l.foldl (fun m a => insertAge a m) [])[n]?).getD .fresh

/-- R906: the module entry. -/
def moduleAge (s : State) : AgeEntry :=
  let o := s.fuses.ordering
  let regions := (regionList s).map (fun r => look s.nv.ageRegion r .fresh)
  let stacks_ := ((List.range 96).filter (stackExists s)).map (fun k => look s.nv.ageStack k .fresh)
  let ports := ((List.range 16).filter (portEnabled o)).map (fun p => look s.nv.agePort p .fresh)
  [nthSmallest regions 4, nthSmallest stacks_ 8, nthSmallest ports 4].foldl
    (fun a b => if ageDays b < ageDays a then b else a) s.nv.ageCommon

/-- R906, R941: entries of a kind that fall below 90 days for the first time are told, each with its unit class of R676. -/
def tellAgeing (s : State) (kind : Nat) (t : Tab AgeEntry) : State :=
  each (t.filter (fun e => !e.2.told && decide (ageDays e.2 < 90))) s (fun e s =>
    trayEvent s 5 (bytesOf 1 kind ++ bytesOf 2 e.1 ++ bytesOf 2 (ageDays e.2)))

/-- Entries that have been told. -/
def markTold (t : Tab AgeEntry) : Tab AgeEntry :=
  t.map (fun (e : Nat × AgeEntry) => (e.1, if ageDays e.2 < 90 then { e.2 with told := true } else e.2))

/-- R906: the predictions are recomputed, with n more hours of samples, and what falls below 90 days is told, the module entry
under unit class 0x14. -/
def predict (s : State) (n : Nat) (obs : AgeingObs) : State :=
  let regions := (obs.regions.filter (fun e => regionExists s e.1 && shedOf s e.1 ≠ .dark)).foldl
    (fun t e => ageSample n t e.1 e.2.1 e.2.2) s.nv.ageRegion
  let ports := (obs.ports.filter (fun e => portEnabled s.fuses.ordering e.1 && !(s.caps.portsOut.contains e.1))).foldl
    (fun t e => ageSample n t e.1 e.2.1 e.2.2) s.nv.agePort
  let stacks_ := (obs.hbmStacks.filter (fun e => stackExists s e.1 && !(s.caps.stacksOut.contains e.1))).foldl
    (fun t e => ageSample n t e.1 e.2.1 e.2.2) s.nv.ageStack
  let common := { s.nv.ageCommon with hours := obs.common.1, dominant := obs.common.2, sampled := s.nv.ageCommon.sampled + n }
  let s := tellAgeing (tellAgeing (tellAgeing s 9 regions) 0xE ports) 0x15 stacks_
  let s := { s with nv := { s.nv with
    ageRegion := markTold regions, agePort := markTold ports, ageStack := markTold stacks_, ageCommon := common } }
  let whole : Tab AgeEntry := [(0, { moduleAge s with told := common.told })]
  let s := tellAgeing s 0x14 whole
  { s with nv := { s.nv with ageCommon := { common with told := common.told || decide (ageDays (moduleAge s) < 90) } } }

/-- R903, R904: an operating hour. -/
def ageHour (s : State) (obs : AgeingObs) : State :=
  if !(s.power.state = .m0 || s.power.state = .m1 || s.power.state = .m2) then s
  else predict { s with nv := { s.nv with hours := s.nv.hours + 1 } } 1 obs

/-! ## Starts, R874 to R895 -/

/-- R875, R876: why a start is cold; 0 for a warm start. -/
def startReason (s : State) : Nat :=
  if s.nv.startMark then 5
  else if s.nv.wipePending then 2
  else match s.nv.cleanDown with
    | some d => if s.nv.nextImage.isSome || d ≠ s.nv.bootImage.digest then 3 else if s.nv.heldDown then 4 else 0
    | none => 1

/-- R874, R865, R893: a start may begin. -/
def mayStart (s : State) : Bool :=
  s.power.within && s.power.standby && !s.pins.modReset && s.pins.vio && !s.power.tripped && s.sup.alive && !s.boot.running &&
  ((s.boot.phase = 0 && (s.power.state = .m4 || s.boot.fallback)) || (s.power.state = .m3 && s.sup.powerMove = some 0))

/-- R902: a self-test marker found without a result. -/
def settleTestMark (s : State) : State :=
  if s.nv.testMark then
    bump { s with nv := { s.nv with testMark := false, bist := { SelfTest.none with result := 3, abort := 4, stamp := s.clocks.sup } } }
      (ctrModBistAbort.plus 3) 0 1
  else s

/-- R875, R877: a start begins: its marker, its kind and its reason. -/
def beginStart (s : State) : State :=
  let reason := startReason s
  let s := settleTestMark s
  let s := bump s (if reason = 0 then ctrModWarm else ctrModCold.plus (reason - 1)) 0 1
  let s := if s.boot.fallback then bump s ctrModFallback 0 1 else s
  let s := if s.nv.wipePending then bump s ctrModWipesResumed 0 1 else s
  { s with
    nv := { s.nv with startMark := true, cleanDown := none, heldDown := false }
    power := { s.power with state := .m0 }
    boot := { Boot.atReset with
      warm := reason = 0, coldReason := reason, fallback := s.boot.fallback, began := s.clocks.sup, running := true } }

/-- R893: the new boot image is given up for the one before it, with the record of R680, and a cold start follows. -/
def fallBackImage (s : State) : State :=
  let s := appendRecord s (elCtrl 0) 1 0xFF
  { s with
    nv := { s.nv with bootImage := s.nv.prevImage.getD s.nv.bootImage, prevImage := none, activated := false, startMark := false }
    boot := { Boot.atReset with fallback := true, coldReason := s.boot.coldReason } }

/-- R893: a start fails with a code. -/
def startFails (s : State) (code : Nat) : State :=
  let s := bump s (ctrModFailed.plus (code - 1)) 0 1
  let s := { s with
    boot := { s.boot with phase := 7, fail := code, running := false, elapsed := bootElapsed s }
    nv := { s.nv with startMark := false }
    sup := { s.sup with powerMove := none } }
  trayEvent (settleAlert s) 3 (bytesOf 1 code)

/-- R893: a start does not reach ready: with a new image it falls back, otherwise it fails. -/
def giveUpStart (s : State) (code : Nat) : State :=
  if s.nv.activated && s.nv.prevImage.isSome then fallBackImage s else startFails s code

/-- R680, R893: phase 0: the image that runs; none when no image verifies. -/
def pickImage (s : State) (obs : StartObs) : Option State :=
  let s := match s.nv.nextImage with
    | some im => { s with nv := { s.nv with bootImage := im, prevImage := some s.nv.bootImage, nextImage := none, activated := true } }
    | none => s
  if obs.imageOk then some s
  else if obs.prevOk && s.nv.prevImage.isSome then
    let t := fallBackImage s
    some (bump { t with
      boot := { s.boot with fallback := true, warm := false, coldReason := if s.boot.warm then 3 else s.boot.coldReason }
      nv := { t.nv with startMark := true } } ctrModFallback 0 1)
  else none

/-- R45, R774: the elements that failed factory test and that no signed update has restored. -/
def factoryOut (s : State) : List Element :=
  let of (d : DefectRec) : Element := { kind := d.element, id := d.id }
  ((s.nv.map.filter (fun d => d.origin = 0)).map of).filter (fun el =>
    !(s.nv.map.any (fun d => d.origin = 2 && decide (of d = el))))

/-- R772, R45: the elements out of service at a start. -/
def outAtStart (s : State) : List Element := s.nv.fenceBits ++ factoryOut s

/-- R772, R45: the fence bitmap and the factory records are applied to the capability state of a start; R60: the generation
goes on, by one when an entry changes, until ready. -/
def applyFences (s : State) : State :=
  let caps := each (outAtStart s) { Capability.atReset with gen := s.caps.gen } (fun el c => serviceOf c el true)
  if caps = s.caps then s else capsChanged { s with caps := caps }

/-- R771: the map names again every element the bitmap marks and no record does, while it has room. -/
def nameFences (s : State) : State :=
  each s.nv.fenceBits s (fun el s =>
    if s.nv.keysHeld && decide (s.nv.map.length < 65536) && !(s.nv.map.any (fun d => d.element = el.kind && d.id = el.id && d.origin ≠ 2)) then
      appendRecord s el 1 0
    else s)

/-- R864, R877 phase 2: the powered units start from nothing; their counters start. -/
def powerUnits (s : State) : State :=
  let regions := regionList s
  let zeros (l : List Nat) : Tab Nat := l.map (fun k => (k, 0))
  { s with
    clocks := { s.clocks with
      region := zeros regions, compute := zeros regions, die := zeros (List.range 4), port := zeros (List.range 16), mesh := 0 }
    regions := regions.map (fun r => (r, Region.fresh))
    cores := []
    engines := []
    hubs := []
    narrow := []
    mesh := .atReset
    xlat := .atReset }

/-- R883, R884: the memories are written zero; tier-2 keeps its bytes at a warm start. -/
def zeroMemories (s : State) (warm : Bool) : State :=
  let stays (a : Nat) : Bool := warm && decide (2 ^ 48 ≤ a) && decide (a < 2 ^ 52)
  { s with mem := { cells := s.mem.cells.filter (fun c => stays c.1), poison := s.mem.poison.filter (fun k => stays (8 * k)) } }

/-- R880: a stack is withdrawn as a whole. -/
def withdrawStack (s : State) (stack : Nat) : State :=
  if !(stackExists s stack) || s.caps.stacksOut.contains stack then s
  else
    let t := appendRecord s (elStack stack) 1 4
    capsChanged { t with
      nv := { t.nv with fenceBits := t.nv.fenceBits ++ [elStack stack] }
      caps := serviceOf t.caps (elStack stack) true }

/-- R617, R882: the devices of a tier port are placed, and at a cold start the lines that failed are poisoned; a device
with more than 1,024 of them is left unmapped. R585: the link trains at 64 or 32 GT/s, in 16, 8, 4 or 2 lanes. -/
def startTier (s : State) (port : Nat) (link : Nat × Nat) (devices bad : List Nat) (warm : Bool) : State :=
  let t := tierOf s port
  let all_ := devices.foldl addDevice { t with devices := [], reqs := [], unsupported := false }
  let linesOf (d : Nat × Nat) : List Nat := bad.filter (fun n => decide (d.1 * 2 ^ 24 ≤ n) && decide (n < (d.1 + d.2) * 2 ^ 24))
  let good := if warm then all_.devices else all_.devices.filter (fun d => decide ((linesOf d).length ≤ 1024))
  let dropped := all_.devices.length - good.length
  let placed_ := (good.map (·.2)).foldl addDevice { all_ with devices := [] }
  let lines := if warm then [] else (good.map linesOf).flatten
  let s := setTier s port { placed_ with
    linkUp := !devices.isEmpty && !t.fenced
    width := if devices.isEmpty then 0 else link.1
    rate := if devices.isEmpty then 0 else link.2
    unsupported := placed_.unsupported || all_.unsupported || decide (0 < dropped) }
  let s := { s with mem := each lines s.mem (fun n m => poisonRange m (tierPhys port (n * 64)) 64) }
  bump (bump s ctrTierLinesPoisoned port lines.length) ctrTierUnmapped port dropped

/-- R585: the widths and rates of a tier link. -/
def tierLinkGood (link : Nat × Nat) : Bool := [16, 8, 4, 2].contains link.1 && [3, 4].contains link.2

/-- R617, R882: every tier port; R596: a `TP_STATUS` that the start changes is told. -/
def startTiers (s : State) (obs : StartObs) (warm : Bool) : State :=
  each ((List.range 8).filter (tierEnabled s.fuses.ordering)) s (fun p s =>
    let out := s.caps.tiersOut.contains p
    let link := obs.tierLinks.getD p (16, 4)
    let t := setTier s p { tierOf s p with fenced := out }
    tierChanged s (startTier t p link (if out || !(tierLinkGood link) then [] else obs.tierDevices.getD p [])
      ((obs.tierBad.filter (fun b => b.1 = p)).map (·.2)) warm) p)

/-- R886, R887, R901: the elements of a list that a test fences: those that exist and are not out of service. -/
def failedNow (s : State) (l : List Element) : List Element :=
  (l.filter (fun el => decide (1 ≤ el.kind ∧ el.kind ≤ 4) && elementExists s el && !((outAtStart s).contains el))).eraseDups

/-- R886, R887, R888, R901: elements that a test finds failing are fenced. -/
def testFences (s : State) (l : List Element) (cause : Nat) : State :=
  each (failedNow s l) s (fun el s => takeOut (detect s el cause true 0) el 1 cause)

/-- R886, R887, R907: elements that a start finds failing are fenced and counted. -/
def startFences (s : State) (l : List Element) (cause : Nat) : State :=
  bump (testFences s l cause) (if cause = 0x17 then ctrModStart17 else ctrModStart14) 0 (failedNow s l).length

/-- R880: pages that the march finds bad are retired. -/
def marchPages (s : State) (stack : Nat) (bad : List Nat) : State :=
  let s := each (bad.filter (fun id => id % 128 = stack)) s (fun id s =>
    let el : Element := { kind := 7, id := id }
    if elementExists s el && !(wholeStack id) && !((outAtStart s).contains el) then bump (takeOut s el 1 4) ctrStackRetired stack 1 else s)
  if 16384 < (s.caps.pagesOut.filter (fun p => p / 2 ^ 21 = stack)).length then withdrawStack s stack else s

/-- R884: the read-back of a warm start is treated as the march is. -/
def warmPages (s : State) (bad : List Nat) : State :=
  each (((regionList s).filter (fun r => shedOf s r ≠ .dark)).flatMap regionStacks) s (fun k s => marchPages s k bad)

/-- R889: a region is dark from the start on. -/
def shutRegion (s : State) (r : Nat) : State :=
  let s := onDemands s r (fun d => { d with held := true })
  setShed { s with clocks := { s.clocks with region := cut s.clocks.region r, compute := cut s.clocks.compute r } } r .dark

/-- R889: a region is held dark, and recorded. -/
def holdDark (s : State) (r cause : Nat) : State :=
  if !(regionExists s r) || shedOf s r = .dark then s else shutRegion (appendRecord s (elCtrl r) 1 cause) r

/-- R764, R768: a region whose controller is fenced stays dark. -/
def holdFenced (s : State) : State :=
  each ((outAtStart s).filter (fun el => el.kind = 8 && regionExists s el.id)) s (fun el s => shutRegion s el.id)

/-- R889, R881: the regions held dark. -/
def holdRegions (s : State) (dark : List Nat) : State :=
  let s := each dark s (fun r s => holdDark s r 0x17)
  each (regionList s) s (fun r s => if (regionStacks r).all (fun k => s.caps.stacksOut.contains k) then holdDark s r 4 else s)

/-- R879: the stacks of a cold start begin their march; each next waits in its first pause. -/
def beginMarch (s : State) : State :=
  let stacks_ := ((regionList s).filter (fun r => shedOf s r ≠ .dark)).flatMap regionStacks
  { s with boot := { s.boot with march := (stacks_.filter (fun k => !(s.caps.stacksOut.contains k))).map (fun k => (k, (3, regionNow s (regionOfStack k)))) } }

/-- R877 phases 2 to 5, without the memory tests that go on. -/
def startUnits (s : State) (obs : StartObs) : State :=
  let warm := s.boot.warm
  let s := zeroMemories (powerUnits s) warm
  let s := startTiers (each obs.deadStacks s (fun k s => withdrawStack s k)) obs warm
  if obs.fusedAnswer then giveUpStart s 4
  else
    let s := if warm then warmPages s obs.warmBad else s
    let s := startFences (holdRegions (holdFenced s) obs.darkRegions) obs.failed 0x17
    let s := closeRoutes (buildRoutes s obs.routes obs.narrow)
    let s := startFences s obs.wrong 0x14
    let s := match obs.ageing with
      | some a => predict s 0 a
      | none => s
    let s := if warm then s else beginMarch s
    { s with boot := { s.boot with phase := 5, tested := true } }

/-- R895: a start of a scrapped module ends in M3. -/
def scrappedStart (s : State) : State :=
  { s with
    boot := { s.boot with phase := 1, running := false, elapsed := bootElapsed s }
    nv := { s.nv with startMark := false }
    power := { s.power with state := .m3 }
    sup := { s.sup with powerMove := none } }

/-- R877: a start. -/
def start (s : State) (obs : StartObs) : State :=
  if !(mayStart s) then s
  else
    let s := beginStart s
    match pickImage s obs with
    | none => startFails s 1
    | some s =>
      if s.nv.keysHeld && !(obs.keyOk && s.nv.sealedAt = s.fuses.lcCount) then startFails s 2
      else if !obs.mapOk then startFails s 3
      else
        let s := applyFences (nameFences s)
        if s.fuses.life = .scrapped then scrappedStart s else startUnits s obs

/-- R879: a pause of the march has ended. -/
def marchGoesOn (s : State) (stack : Nat) (bad : List Nat) (corrected : Nat) : State :=
  match look? s.boot.march stack with
  | none => s
  | some (element, since) =>
    let now := regionNow s (regionOfStack stack)
    if !s.boot.running || !(windowOver now since (30 * ticksPerS)) then s
    else
      let s := marchPages (bump s ctrStackCorrected stack corrected) stack bad
      { s with boot := { s.boot with march := if element = 3 then put s.boot.march stack (5, now) else cut s.boot.march stack } }

/-- R847: what the first ready of a new image fuses. -/
def fuseImage (s : State) : State :=
  if !s.nv.activated then s
  else
    let im := s.nv.bootImage
    { s with
      nv := { s.nv with activated := false }
      fuses := { s.fuses with
        minSvn := max s.fuses.minSvn (min im.svn 64)
        revoked := s.fuses.revoked ||| (im.revoke &&& ~~~(BitVec.ofNat 4 (2 ^ im.key))) } }

/-- R890: a region that went dark while the tests ran stays dark, its stacks untested, until it is relit. -/
def holdShed (s : State) : State :=
  each ((regionList s).filter (fun r => shedOf s r = .dark && !(demandsOf s r).held)) s (fun r s =>
    setReg s r { regOf s r with untested := true })

/-- R891, R885, R708, R716: ready sets; R60, R596: the generation becomes 1, and a change of it is told. -/
def setReady (s : State) : State :=
  let gen := s.caps.gen
  let lit := (regionList s).filter (fun r => shedOf s r ≠ .dark)
  let now : Tab Nat := lit.map (fun r => (r, s.clocks.sup))
  let s := { s with
    boot := { s.boot with phase := 6, running := false, elapsed := bootElapsed s }
    nv := { s.nv with startMark := false, wipePending := if s.boot.warm then s.nv.wipePending else false }
    caps := { s.caps with gen := 1 }
    sup := { s.sup with dapWrote := false, powerMove := none, checkDefault := 1, beat := now, aniseAt := now } }
  let s := setEnvelope (setFirmware (setSelfTest (setScrub s true) true) true) (insideEnvelope s)
  if gen = 1 then s else hostEvent s evCaps

/-- R891: phase 5 and every memory activity have ended. -/
def startReady (s : State) : State :=
  if !s.boot.running || !s.boot.tested || !s.boot.march.isEmpty then s
  else
    let s := holdRegions (holdShed s) []
    if (regionList s).all (fun r => shedOf s r = .dark) then giveUpStart s 5 else setReady (fuseImage s)

/-! ## The pins, R894, R937 -/

/-- R937, R894, R825: `MOD_RESET_N` registers low. -/
def resetPinLow (s : State) : State :=
  if s.pins.modReset then s
  else
    let t := powerGone { s with pins := { s.pins with modReset := true } }
    { t with sup := { t.sup with alive := false } }

/-- R937: `MOD_RESET_N` registers high. -/
def resetPinHigh (s : State) : State :=
  { s with pins := { s.pins with modReset := false }, sup := { s.sup with alive := s.power.standby } }

/-- R937: a pulse of `TRAY_REQ_N` registers. -/
def trayRequest (s : State) : State :=
  match s.pins.trayReqAt with
  | some t =>
    if windowOver s.clocks.sup t ticksPerMs then { s with pins := { s.pins with trayReqAt := some s.clocks.sup, trayBusy := true } }
    else bump s ctrModTrayRefused 0 1
  | none => { s with pins := { s.pins with trayReqAt := some s.clocks.sup, trayBusy := true } }

/-- R942, R918: a tray status message. -/
def trayStatus (s : State) (flow : Nat) (valid : Bool) (cap : Nat) : State :=
  let t := { s with
    power := { s.power with
      flow := flow, flowValid := valid, trayAt := s.clocks.sup, trayMissed := false
      trayCap := if cap = 0 then 34000 else max 20000 (min cap 34000) }
    pins := { s.pins with trayBusy := false } }
  if flowGood t then t else setEnvelope t false

/-- R942: no tray status throughout a second. -/
def trayMissing (s : State) : State :=
  if s.power.trayMissed || !(windowOver s.clocks.sup s.power.trayAt ticksPerS) then s
  else setEnvelope (bump { s with power := { s.power with trayMissed := true } } ctrModTrayMissed 0 1) false

/-! ## The self-test's samples, R900 -/

/-- R900: a sample; the first outside a limit aborts the test. -/
def sampleTest (s : State) (voltageOk clockOk : Bool) (inlet : Int) : State :=
  let reason := if !voltageOk then 1 else if !clockOk then 2 else if inlet < 200 || 350 < inlet then 3 else 0
  if !s.nv.bist.running || reason = 0 then s
  else
    bump { s with nv := { s.nv with
      testMark := false
      bist := { SelfTest.none with result := 3, abort := reason, stamp := s.clocks.sup, began := s.nv.bist.began } } }
      (ctrModBistAbort.plus (reason - 1)) 0 1

/-! ## The commands -/

/-- `MOD_RESET_N` asserted, R937. -/
def execModResetNAssert (s : State) : Host.Outcome State Fault Refusal := .next (resetPinLow s)
/-- `MOD_RESET_N` released, R937. -/
def execModResetNRelease (s : State) : Host.Outcome State Fault Refusal := .next (resetPinHigh s)
/-- A start, R877. -/
def execStart (obs : StartObs) (s : State) : Host.Outcome State Fault Refusal := .next (start s obs)
/-- A pause of the HBM march ends, R879. -/
def execHbmMarchPauseEnd (stack : Nat) (badPages : List Nat) (corrected : Nat) (s : State) : Host.Outcome State Fault Refusal :=
  .next (marchGoesOn s stack badPages corrected)
/-- Ready, R891. -/
def execStartReady (s : State) : Host.Outcome State Fault Refusal := .next (startReady s)
/-- A start fails, R893. -/
def execStartFailed (code : Nat) (s : State) : Host.Outcome State Fault Refusal :=
  .next (if s.boot.running && decide (1 ≤ code ∧ code ≤ 6) then giveUpStart s code else s)
/-- A sample of the shut-down self-test, R900. -/
def execSelfTestSample (voltageOk clockOk : Bool) (inlet : Int) (s : State) : Host.Outcome State Fault Refusal :=
  .next (sampleTest s voltageOk clockOk inlet)
/-- An operating hour, R903. -/
def execAgeingHour (obs : AgeingObs) (s : State) : Host.Outcome State Fault Refusal := .next (ageHour s obs)
/-- Tray status, R942. -/
def execTrayStatus (flow : Nat) (valid : Bool) (cap : Nat) (s : State) : Host.Outcome State Fault Refusal :=
  .next (trayStatus s flow valid cap)
/-- No tray status for a second, R942. -/
def execTrayStatusMissing (s : State) : Host.Outcome State Fault Refusal := .next (trayMissing s)
/-- A `TRAY_REQ_N` pulse, R937. -/
def execTrayReqN (s : State) : Host.Outcome State Fault Refusal := .next (trayRequest s)

end Sys2Proof.Machine
end

