-- ==== Sys2Proof/Machine/Commands.lean ====
section
/-! DEFINITION. Register writes, and the commands that read the module's tables, change its power, its life cycle, its debug
view and its firmware (13_commands.md R667 to R680, 17_security.md R840 to R869). -/

namespace Sys2Proof.Machine

/-! ## Register writes, R594, R596, R656 -/

/-- R594, R595: the 16 bytes of an MSI-X table entry. -/
def msixBytes (e : MsixEntry) : List Byte := bytesOf 8 e.addr.toNat ++ bytesOf 4 e.data.toNat ++ bytesOf 4 (bn e.masked)

/-- R595: one byte of the MSI-X table is written. -/
def msixWrite (s : State) (off : Nat) (b : Byte) : State :=
  let v := off / 16
  let old := msixEntry s v
  let l := (msixBytes old).set (off % 16) b
  let e : MsixEntry := { addr := BitVec.ofNat 64 (natAt l 0 8), data := BitVec.ofNat 32 (natAt l 8 4), masked := bitAt (natAt l 12 4) 0 }
  let t := { s with hp := { s.hp with msix := put s.hp.msix v e, msixOn := true } }
  if old.masked && !e.masked then unmask t v else t

/-- The write of the bytes l at place off of the 8-byte host port register at base. -/
def hpWrite (s : State) (base off : Nat) (l : List Byte) : State :=
  match base with
  | 0x20010 => { s with hp := { s.hp with event := s.hp.event &&& ~~~(BitVec.ofNat 6 (mergeReg 0 off l)) } }
  | 0x20018 => writeEventEn s (BitVec.ofNat 64 (mergeReg s.hp.eventEn.toNat off l))
  | 0x20020 => writeErrInfo s (BitVec.ofNat 64 (mergeReg 0 off l))
  | 0x20030 => writeRing s (BitVec.ofNat 64 (mergeReg (ringWord (frameOf s 0).ring) off l))
  | 0x20038 => writeRingCfg s (BitVec.ofNat 64 (mergeReg (ringCfgWord (frameOf s 0).ring) off l))
  | _ => s

/-- R594: bytes are written to the registers of BAR0. -/
def writeBar0 (s : State) (off : Nat) (l : List Byte) : State :=
  if l.isEmpty then s
  else if off < 0x10000 then
    each l.zipIdx s (fun e s => if off + e.2 < 0x10000 then writeComponent s (off + e.2) e.1 else s)
  else if off < 0x11000 then each l.zipIdx s (fun e s => if off + e.2 < 0x11000 then msixWrite s (off + e.2 - 0x10000) e.1 else s)
  else
    let first := off / 8
    each (List.range ((off + l.length - 1) / 8 - first + 1)) s (fun i s =>
      let base := (first + i) * 8
      if base < off then hpWrite s base (off - base) (l.take (base + 8 - off))
      else hpWrite s base 0 ((l.drop (base - off)).take 8))

/-- R594, R587: a host write to BAR0. -/
def bar0Write (s : State) (off : Nat) (l : List Byte) : State := if s.hp.linkUp then writeBar0 s off l else s

/-- A host write to a BAR, R26, R594, R598. -/
def registerWrite (s : State) (bar off : Nat) (data : HostBytes) : State :=
  match bar with
  | 0 => bar0Write (openBars s) off data.bytes
  | 2 => bar2Write (openBars s) off data
  | _ => s

/-! ## Answers -/

/-- A command that only reads: its code and response. -/
def answer (s : State) (f k op : Nat) (g : Running → Nat × List Byte) : State :=
  match due s f k op with
  | none => s
  | some r => settle s f k (g r).1 (g r).2

/-- A command whose row may act does so. -/
def act (s : State) (f k op : Nat) (g : Running → State) : State :=
  match due s f k op with
  | none => s
  | some r => g r

/-- The first 8 bytes of a command's payload. -/
def head8 (r : Running) : Nat := natAt r.payload 0 8

/-- R668: a paged response: the header and the records that fit. -/
def paged (recs : List (List Byte)) (first recBytes : Nat) : List Byte :=
  let l := (recs.drop first).take (4016 / recBytes)
  bytesOf 16 (recs.length + first * 2 ^ 32 + l.length * 2 ^ 64 + recBytes * 2 ^ 80) ++ l.flatten

/-! ## Reading commands, R669 to R675 -/

/-- R671: element order. -/
def elementBefore (a b : Element) : Bool := decide (a.kind < b.kind) || (a.kind = b.kind && decide (a.id < b.id))

/-- Insert an element in order. -/
def insertElement (a : Element) : List Element → List Element
  | [] => [a]
  | b :: t => if elementBefore a b then a :: b :: t else if a = b then b :: t else b :: insertElement a t

/-- R671: the elements fenced now, in ascending order. -/
def fencedElements (s : State) : List Element := s.nv.fenceBits.foldl (fun l e => insertElement e l) []

/-- R671: the record that fenced an element. -/
def fenceRecord (s : State) (el : Element) : DefectRec :=
  (((allRecords s).filter (fun d => d.element = el.kind && d.id = el.id && d.origin ≠ 2)).getLast?).getD
    { element := el.kind, origin := 1, cause := 0, id := el.id, stampRegion := elementRegion el, stamp := 0, sig := [] }

/-- R672, R905: an entry of `ageing.read`. -/
def ageEntry (e : AgeEntry) : Nat := if e.sampled < 720 then 0xFFFF else min (e.hours / 24) 0xFFFF + e.dominant * 2 ^ 16

/-- R672: the response of `ageing.read`. -/
def ageingBytes (s : State) : List Byte :=
  let o := s.fuses.ordering
  bytesOf 32 (ageEntry (moduleAge s)) ++
  ((List.range 48).map (fun r => bytesOf 4 (if regionExists s r then ageEntry (look s.nv.ageRegion r .fresh) else 0))).flatten ++
  ((List.range 16).map (fun p => bytesOf 4 (if portEnabled o p then ageEntry (look s.nv.agePort p .fresh) else 0))).flatten ++
  ((List.range 96).map (fun k => bytesOf 4 (if stackExists s k then ageEntry (look s.nv.ageStack k .fresh) else 0))).flatten

/-- R673: the response of `bist.read`. -/
def bistBytes (b : SelfTest) : List Byte :=
  bytesOf 32 (b.result + b.abort * 2 ^ 4 + b.logicMs * 2 ^ 16 + b.sramMs * 2 ^ 32 + b.stamp % 2 ^ 64 * 2 ^ 64) ++
  ((List.range 48).map (fun r =>
    let e := look b.regions r (0, 0, false, 0)
    bytesOf 8 (e.1 + e.2.1 * 2 ^ 16 + bn e.2.2.1 * 2 ^ 32 + e.2.2.2 * 2 ^ 33))).flatten

/-- R676: the die or region a unit of a class lies in exists. -/
def unitExists (s : State) (cls id : Nat) : Bool :=
  match cls with
  | 1 => coreExists s (coreOfEngine id)
  | 2 => coreExists s id
  | 3 => coreExists s (id / 4)
  | 4 => coreExists s (id / 16)
  | 5 => clusterExists s id
  | 6 => coreExists s id
  | 7 => coreExists s (id / 64)
  | 8 => regionExists s id
  | 9 => regionExists s id
  | 0xA => elementNamed s { kind := 3, id := id } || elementNamed s { kind := 4, id := id }
  | 0xB => coreExists s id
  | 0xC => (match epKind id with
    | 0 => coreExists s id
    | 1 => clusterExists s (id % 2 ^ 12)
    | 2 => regionExists s (epRegion id)
    | _ => decide (id < 2 ^ 14))
  | 0xD => coreExists s id
  | 0xE => portEnabled s.fuses.ordering id
  | 0xF => decide (id < 4)
  | 0x10 => id = 0
  | 0x11 => tierEnabled s.fuses.ordering id
  | 0x12 => decide (id ≤ 48)
  | 0x13 => (look? s.slices id).isSome
  | 0x14 => id = 0
  | _ => false

/-- R676: the region a unit of a class lies in, when it lies in one. -/
def unitPlace (cls id : Nat) : Option Nat :=
  match cls with
  | 1 => some (regionOf (coreOfEngine id))
  | 2 => some (regionOf id)
  | 3 => some (regionOf (id / 4))
  | 4 => some (regionOf (id / 16))
  | 5 => some (regionOfCluster id)
  | 6 => some (regionOf id)
  | 7 => some (regionOf (id / 64))
  | 8 => some id
  | 9 => some id
  | 0xA => some (regionOf (id % 2 ^ 12))
  | 0xB => some (regionOf id)
  | 0xC => (match epKind id with
    | 0 => some (regionOf id)
    | 1 => some (regionOfCluster (id % 2 ^ 12))
    | 2 => some (epRegion id)
    | _ => none)
  | 0xD => some (regionOf id)
  | _ => none

/-- R676: a unit lies in a slice whose frame is f. -/
def unitInSlice (s : State) (f cls id : Nat) : Bool :=
  let h := (frameOf s f).owner
  match look? s.slices h with
  | none => false
  | some l =>
    match unitPlace cls id with
    | some r => l.regions.contains r
    | none => (cls = 0xE && l.ports.contains id) || (cls = 0x11 && l.tiers.contains id) || (cls = 0x12 && id = f) || (cls = 0x13 && id = h)

/-- R808: the relocations in force in a slice: each group's, on its cores or saved out. -/
def relocationsIn (s : State) (h : Nat) : Nat :=
  ((groupsOf s h).map (fun g =>
    let slots := if g.resident then g.cores.flatMap (fun c => (coreOf s c).slots) else g.saved.flatMap (fun e => e.2.slots)
    (slots.flatMap (fun v => v.2.reloc)).eraseDups.length)).sum

/-- R675: what a counter reads as. -/
def counterValue (s : State) (c : Ctr) (id : Nat) : Nat :=
  if c = ctrSliceRelocations then relocationsIn s id else look s.counts (ctrKey c id) 0

/-- R675: the code and response of `log.read`. -/
def logAnswer (s : State) (f : Nat) (r : Running) : Nat × List Byte :=
  let w := head8 r
  let cls := bitsOf w 0 8
  let first := bitsOf w 16 16
  let id := bitsOf w 32 32
  let n := (ctrWide cls).length
  if !(unitExists s cls id) then (0x20, [])
  else if f ≠ 0 && !(unitInSlice s f cls id) then (0x21, [])
  else
    let m := min (n - first) 502
    (0, bytesOf 8 m ++ ((List.range m).map (fun i => bytesOf 8 (counterValue s ⟨cls, first + i⟩ id))).flatten)

/-! ## Power, R864 to R868 -/

/-- R865, R868: every region that the mask parks or leaves follows it. -/
def applyMask (s : State) (mask : BitVec 48) : State :=
  each (regionList s) { s with power := { s.power with mask := mask } } (fun r s => demand s r (fun d => { d with mask := mask.getLsbD r }))

/-- R873: power transitions by target. -/
def countPower (s : State) (target : Nat) : State := bump s (ctrModPower.plus target) 0 1

/-- R865, R868: the module enters M1 with a mask, or M0 without one. -/
def enterRunning (s : State) (st : PowerState) (mask : BitVec 48) : State :=
  applyMask (countPower { s with power := { s.power with state := st } } (powerCode st)) mask

/-- R865, R864: every region off, its memories in retention, and the module in M2. -/
def enterM2 (s : State) : State :=
  let s := each ((regionList s).filter (fun r => shedOf s r ≠ .dark)) s (fun r s => darken s r)
  let s := countPower s 2
  { s with power := { s.power with state := .m2, mask := 0 } }

/-- R533, R868: a port's lasers go dark at once, as the module leaves. -/
def dropPort (s : State) (p : Nat) : State :=
  let t := portOf s p
  let owners := ((t.queue ++ (t.ready ++ t.retained).flatMap (·.rows)).map (·.owners)).flatten
  haltOwners (setPort s p { RolPort.fresh with loopback := t.loopback }) owners

/-- R533: ports stop reserving and send what they hold. -/
def leavePorts (s : State) (ports : List Nat) : State :=
  each ports s (fun p s => setPort s p { portOf s p with leaving := true })

/-- R533: a leaving port has nothing left to send or to see acknowledged. -/
def sentAll (p : RolPort) : Bool := !p.joined || (p.queue.isEmpty && p.ready.isEmpty && p.retained.isEmpty)

/-- R533: every one of the ports may darken its lasers. -/
def portsLeft (s : State) (ports : List Nat) : Bool := ports.all (fun p => sentAll (portOf s p))

/-- R533, R46: the ports darken their lasers. -/
def darkenPorts (s : State) (ports : List Nat) : State := leaveDomain (each ports s (fun p s => dropPort s p))

/-- R864: everything but the supervisor and the host port is off. -/
def enterM3 (s : State) : State :=
  let s := each ((regionList s).filter (fun r => shedOf s r ≠ .dark)) s (fun r s => darken s r)
  let s := darkenPorts s (joinedPorts s)
  let tier (a : Nat) : Bool := decide (2 ^ 48 ≤ a) && decide (a < 2 ^ 52)
  let s := countPower (tiersDown s) 3
  { s with
    mem := { cells := s.mem.cells.filter (fun c => tier c.1), poison := s.mem.poison.filter (fun k => tier (8 * k)) }
    regions := []
    power := { s.power with state := .m3, mask := 0, demands := [] }
    xlat := .atReset
    fabric := { Fabric.atReset with ports := s.fabric.ports } }

/-- R674, R865: a target reached through `power.set`. -/
def powerTo (s : State) (f k : Nat) (target : Nat) (legal : Bool) (go : Running → State) : State :=
  act s f k 0x0105 (fun r =>
    if bitsOf (head8 r) 0 3 ≠ target then s
    else if (target = 2 || target = 3) && !s.slices.isEmpty then settle s f k 0x22 []
    else if !legal then settle s f k 0x26 []
    else go r)

/-- R865: `power.set` to M0. -/
def powerM0 (s : State) (f k : Nat) : State :=
  let st := s.power.state
  powerTo s f k 0 (st = .m1 || st = .m2 || st = .m3) (fun _ =>
    if st = .m1 then settle (enterRunning s .m0 0) f k 0 []
    else
      let s := { s with sup := { s.sup with powerMove := some 0 } }
      await (if st = .m2 then countPower { s with power := { s.power with state := .m0 } } 0 else s) f k (.power 0))

/-- R865: `power.set` to M1. -/
def powerM1 (s : State) (f k : Nat) : State :=
  powerTo s f k 1 (s.power.state = .m0 || s.power.state = .m1) (fun r =>
    settle (enterRunning s .m1 (BitVec.ofNat 48 (bitsOf (head8 r) 8 48))) f k 0 [])

/-- R865: `power.set` to M2. -/
def powerM2 (s : State) (f k : Nat) : State :=
  powerTo s f k 2 (s.power.state = .m0 || s.power.state = .m1) (fun _ => settle (enterM2 s) f k 0 [])

/-- R897, R902: the shut-down self-test begins. -/
def beginTest (s : State) : State :=
  { s with
    nv := { s.nv with testMark := true, bist := { SelfTest.none with running := true, began := s.clocks.sup } }
    sup := { s.sup with powerMove := some 3 } }

/-- R673, R898: the coverage of a region in hundredths of a percent: at least 92 % stuck-at, and no rule states more: free values
within those bounds. -/
def coverage (s : State) : (Nat × Nat) × State :=
  let a := freeNext s
  let b := freeNext a.2
  ((9200 + a.1.toNat % 801, b.1.toNat % 10001), b.2)

/-- R673, R898: the entries of the regions tested. -/
def testRegions (failed : List Element) (common : Bool) : List Nat → State → Tab (Nat × Nat × Bool × Nat) × State
  | [], s => ([], s)
  | r :: t, s =>
    let c := coverage s
    let rest := testRegions failed common t c.2
    let bad := (failed.filter (fun el => el.kind = 1 && regionOf el.id = r)).length
    ((r, (c.1.1, c.1.2, !common, bad)) :: rest.1, rest.2)

/-- R898 to R902: the test ends, unless a sample has aborted it; `failed` are the cores and hubs that failed alone, `common`
any other failure, and `vmin` the lowest passing setpoints. -/
def endTest (s : State) (failed : List Element) (common : Bool) (vmin : List Nat) : State :=
  if !s.nv.bist.running then s
  else
    let lit := (regionList s).filter (fun r => shedOf s r ≠ .dark)
    let entries := testRegions failed common lit s
    let s := entries.2
    let result := if common then 2 else 1
    let s := { s with nv := { s.nv with
      testMark := false
      vmin := each (lit.zip vmin) s.nv.vmin (fun e t => put t e.1 e.2)
      bist := { result := result, abort := 0, logicMs := 40000, sramMs := 20000, stamp := s.clocks.sup, regions := entries.1
                running := false, began := s.nv.bist.began } } }
    let s := bump s (if common then ctrModBistFail else ctrModBistPass) 0 1
    testFences s (failed.filter (fun el => el.kind = 1 || el.kind = 2)) 0x17

/-- R875: what an orderly shut-down leaves in the non-volatile store. -/
def noteDown (s : State) : State :=
  { s with nv := { s.nv with
    cleanDown := if s.nv.bist.result = 1 && s.boot.phase = 6 then some s.nv.bootImage.digest else none
    heldDown := !s.sup.heldRecs.isEmpty } }

/-- R865, R897: `power.set` to M3: from M0 and M1 its first row begins the self-test, its second ends it; the ports then leave
under R533, and once they have the module enters M3. -/
def powerM3 (s : State) (f k : Nat) (failed : List Element) (common : Bool) (vmin : List Nat) : State :=
  let st := s.power.state
  powerTo s f k 3 (st = .m0 || st = .m1 || st = .m2) (fun r =>
    let leave (s : State) : State :=
      settle (enterM3 (noteDown { s with sup := { s.sup with powerMove := none } })) f k 0 []
    let begin_ (s : State) : State :=
      let s := leavePorts { s with sup := { s.sup with powerMove := some 3 } } (joinedPorts s)
      if portsLeft s (joinedPorts s) then leave s else setRun s f k { r with progress := 2 }
    if s.boot.phase = 7 then leave s
    else if r.progress = 2 then (if portsLeft s (joinedPorts s) then leave s else s)
    else if st = .m2 then begin_ { s with nv := { s.nv with bist := { SelfTest.none with stamp := s.clocks.sup } } }
    else if r.progress = 0 then setRun (beginTest s) f k { r with progress := 1 }
    else begin_ (endTest s failed common vmin))

/-! ## Signed objects in chunks, R848 -/

/-- R848, R679: what an opcode has gathered. -/
def gathered_ (s : State) (op : Nat) : Gather := look s.sup.gathers op { bytes := [], challenge := none }

/-- Replace it. -/
def setGather (s : State) (op : Nat) (g : Option Gather) : State :=
  { s with sup := { s.sup with gathers := match g with
    | some x => put s.sup.gathers op x
    | none => cut s.sup.gathers op } }

/-- R848: a chunk at an offset: none when it does not continue the previous one. -/
def takeChunk (s : State) (op off : Nat) (l : List Byte) : Option (Gather × State) :=
  let g := gathered_ s op
  if off ≠ g.bytes.length then none
  else
    let g' := { g with bytes := g.bytes ++ l }
    some (g', setGather s op (some g'))

/-! ## The life cycle, R840 to R843 -/

/-- R840: the transitions: from, target code, keeps the keys, wipes. -/
def transitions : List (LifeCycle × Nat × Bool × Bool) :=
  [(.blank, 1, false, false), (.factory, 2, true, true), (.factory, 3, false, true), (.deployed, 3, false, true),
   (.returned, 1, false, false), (.blank, 4, false, true), (.factory, 4, false, true), (.returned, 4, false, true)]

/-- The state of a target code. -/
def lifeOf (code : Nat) : LifeCycle :=
  match code with
  | 1 => .factory
  | 2 => .deployed
  | 3 => .returned
  | 4 => .scrapped
  | _ => .blank

/-- R841 step 1: the code a transition ends with; 0 when it goes on. The body's first byte is the target state (log entry 20). -/
def lifeCode_ (s : State) (op target : Nat) (l : List Byte) : Nat :=
  let e := envelopeOf l
  let code := envelopeCode s 4 l
  if code ≠ 0 then code
  else if natAt e.body 0 1 ≠ target then 0x23
  else if e.lcCount ≠ s.fuses.lcCount then 0x26
  else if (op = 0x0202) ≠ (target = 3) then 0x26
  else if !(transitions.any (fun t => t.1 = s.fuses.life && t.2.1 = target)) then 0x26
  else if 16 ≤ s.fuses.lcCount || (15 ≤ s.fuses.lcCount && target ≠ 4) then 0x26
  else 0

/-- R840, R533, R841 step 2: a verified transition ends the session, and one to RETURNED or SCRAPPED has the ports leave. -/
def beginLife (s : State) (target : Nat) : State :=
  let s := endSession { s with sup := { s.sup with lifeMove := some target } }
  if target = 3 || target = 4 then leavePorts s (joinedPorts s) else s

/-- R841 steps 3 to 6: a verified transition is fused; with a wipe to run, wipe_pending is set. -/
def fuseLife (s : State) (target : Nat) : State :=
  let t := (transitions.find? (fun t => t.1 = s.fuses.life && t.2.1 = target)).getD (.blank, 0, false, false)
  let s := if target = 3 || target = 4 then darkenPorts s (joinedPorts s) else s
  let s := blowCount s (lifeOf target)
  let s := if t.2.2.1 then { s with nv := { s.nv with sealedAt := s.fuses.lcCount } } else eraseSecrets s
  { s with nv := { s.nv with wipePending := t.2.2.2 } }

/-- R841: the transition is fused once the ports that leave have left. -/
def advanceLife (s : State) (f k target : Nat) (r : Running) : State :=
  if (target = 3 || target = 4) && !(portsLeft s (joinedPorts s)) then setRun s f k { r with progress := 2 }
  else setRun (fuseLife s target) f k { r with progress := 1 }

/-- R841 steps 6 and 7: the wipe has run, and the remaining effects of R840 are applied. -/
def finishLife (s : State) (target : Nat) (body : List Byte) : State :=
  let s := if s.nv.wipePending then wipeAll (bump s ctrModWipes 0 1) else s
  let s := { s with nv := { s.nv with wipePending := false }, sup := { s.sup with lifeMove := none } }
  match target with
  | 1 => settleAlert (settleHolds { s with nv := { s.nv with
      keysHeld := true, keyGen := s.nv.keyGen + 1, sealedAt := s.fuses.lcCount, chain := none, drained := false, suspect := 0 } })
  | 2 => { s with nv := { s.nv with chain := some (body.drop 8) } }
  | 4 => enterM3 (each (regionList s) s (fun r s => onDemands s r (fun d => { d with held := true })))
  | _ => s

/-- R677, R841, R848: `lifecycle.advance` and `lifecycle.return`. -/
def lifecycle (s : State) (f k op : Nat) : State :=
  act s f k op (fun r =>
    let w := head8 r
    let target := bitsOf w 0 3
    if r.progress = 1 then
      settle (finishLife s target r.resp) f k 0 []
    else if r.progress = 2 then advanceLife s f k target r
    else if !s.slices.isEmpty then settle s f k 0x22 []
    else match takeChunk s op (bitsOf w 16 32) (r.payload.drop 8) with
      | none => settle (setGather s op none) f k 3 []
      | some (g, t) =>
        if !(bitAt w 8) then settle t f k 0 []
        else
          let code := lifeCode_ s op target g.bytes
          let t := countEnvelope t (if code = 0 then 0 else if code = 0x23 then 0x23 else 0)
          let t := setGather t op none
          if code ≠ 0 then settle t f k code []
          else advanceLife (beginLife t target) f k target { r with resp := (envelopeOf g.bytes).body })

/-! ## Debug, R856 to R863 -/

/-- R859: the states in which a token opens a view. -/
def tokenStates (s : State) : Bool := s.fuses.life = .factory || s.fuses.life = .deployed

/-- R860: op 0: a fresh challenge. -/
def debugChallenge (s : State) (f k : Nat) : State :=
  act s f k 0x0203 (fun r =>
    if bitsOf (head8 r) 0 8 ≠ 0 then s
    else if !(tokenStates s) then settle s f k 0x26 []
    else
      let c := fit (Config.challenge s.sup.challengeN) 32
      let t := { s with sup := { s.sup with challenge := some (c, s.clocks.sup), challengeN := s.sup.challengeN + 1 } }
      settle (bump (journal t 3 0 0 false) ctrModChallenges 0 1) f k 0 c)

/-- R858, R859, R860, R944: the code a complete token ends with, the lowest that applies; 0 when it opens a session. -/
def tokenCode (s : State) (g : Gather) : Nat :=
  let e := envelopeOf g.bytes
  let b := natOf e.body
  if envelopeCode s 5 g.bytes ≠ 0 || g.challenge.any (fun c => e.challenge ≠ c.1) || e.body.length ≠ 8 then 0x23
  else if !(onlyFields b [(0, 4), (16, 16)]) || bitsOf b 16 16 = 0 || 480 < bitsOf b 16 16 then 0x23
  else if s.fuses.life = .deployed && (bitAt b 2 || bitAt b 3) then 0x26
  else if g.challenge.all (fun c => windowOver s.clocks.sup c.2 (60 * ticksPerS)) then 0x27
  else 0

/-- R678, R860: the first op 1 consumes the challenge. -/
def consumeChallenge (s : State) : State :=
  let t := setGather s 0x0203 (some { bytes := [], challenge := s.sup.challenge })
  { t with sup := { t.sup with challenge := none } }

/-- R860, R848: op 1: a chunk of a token; the first consumes the challenge. -/
def debugToken (s : State) (f k : Nat) : State :=
  act s f k 0x0203 (fun r =>
    let w := head8 r
    if bitsOf w 0 8 ≠ 1 then s
    else if !(tokenStates s) then settle s f k 0x26 []
    else
      let s := if (gathered_ s 0x0203).bytes.isEmpty then consumeChallenge s else s
      match takeChunk s 0x0203 (bitsOf w 16 32) (r.payload.drop 8) with
      | none => settle (setGather s 0x0203 none) f k 3 []
      | some (g, t) =>
        if !(bitAt w 8) then settle t f k 0 []
        else
          let code := tokenCode t g
          let t := setGather t 0x0203 none
          let t := countEnvelope t (if code = 0x23 then 0x23 else 0)
          if code ≠ 0 then settle t f k code []
          else
            let b := natOf (envelopeOf g.bytes).body
            settle (openSession t (bitAt b 2 || bitAt b 3) (bitsOf b 16 16)) f k 0 [])

/-- R678, R861: op 2 relocks. -/
def debugRelock (s : State) (f k : Nat) : State :=
  act s f k 0x0203 (fun r =>
    if bitsOf (head8 r) 0 8 ≠ 2 then s
    else if !(tokenStates s) then settle s f k 0x26 []
    else settle (endSession s) f k 0 [])

/-! ## Firmware and packs, R679, R680 -/

/-- R679: an upload of an image of a type, with the largest size it may have; `keep_` places a verified one. -/
def upload (s : State) (f k op type limit : Nat) (keep_ : Running → Envelope → State → State) : State :=
  act s f k op (fun r =>
    let w := head8 r
    match if bitsOf w 0 32 + (r.payload.length - 8) ≤ limit then takeChunk s op (bitsOf w 0 32) (r.payload.drop 8) else none with
    | none => settle (setGather s op none) f k 0x25 []
    | some (g, t) =>
      if !(bitAt w 32) then settle t f k 0 (bytesOf 8 g.bytes.length)
      else
        let code := envelopeCode t type g.bytes
        let t := countEnvelope (setGather t op none) code
        if code ≠ 0 then settle t f k code []
        else settle (keep_ r (envelopeOf g.bytes) t) f k 0 (bytesOf 8 g.bytes.length))

/-- R679: a verified firmware image is kept as staged. -/
def keepImage (_ : Running) (e : Envelope) (s : State) : State :=
  { s with nv := { s.nv with staged := some { digest := sha384 e.body, svn := e.svn, key := e.key, revoke := e.revoke } } }

/-- R679: a verified pack replaces the pack of the same number. -/
def keepPack (r : Running) (e : Envelope) (s : State) : State :=
  { s with nv := { s.nv with packs := put s.nv.packs (bitsOf (head8 r) 40 8) (sha384 e.body, e.svn) } }

/-- R680: `fw.activate`. -/
def activateImage (s : State) (f k : Nat) : State :=
  act s f k 0x0302 (fun _ =>
    match s.nv.staged with
    | none => settle s f k 0x25 []
    | some im => settle { s with nv := { s.nv with nextImage := some im, staged := none } } f k 0 [])

/-! ## The commands -/

/-- A host register write with no row of its own, R26. -/
def execRegisterWrite (bar off : Nat) (data : HostBytes) (s : State) : Host.Outcome State Fault Refusal :=
  .next (registerWrite s bar off data)
/-- `caps.read`, R669. -/
def execCapsRead (frame slot : Nat) (s : State) : Host.Outcome State Fault Refusal :=
  .next (answer s frame slot 0x0101 (fun _ => (0, capsBytes s)))
/-- `defect.read`, R671. -/
def execDefectRead (frame slot : Nat) (s : State) : Host.Outcome State Fault Refusal :=
  .next (answer s frame slot 0x0102 (fun r => (0, paged ((allRecords s).map defectBytes) (bitsOf (head8 r) 0 32) 32)))
/-- `fence.query`, R671. -/
def execFenceQuery (frame slot : Nat) (s : State) : Host.Outcome State Fault Refusal :=
  .next (answer s frame slot 0x0802 (fun r =>
    (0, paged ((fencedElements s).map (fun el => defectBytes (fenceRecord s el))) (bitsOf (head8 r) 0 32) 32)))
/-- `ageing.read`, R672. -/
def execAgeingRead (frame slot : Nat) (s : State) : Host.Outcome State Fault Refusal :=
  .next (answer s frame slot 0x0103 (fun _ => (0, ageingBytes s)))
/-- `bist.read`, R673. -/
def execBistRead (frame slot : Nat) (s : State) : Host.Outcome State Fault Refusal :=
  .next (answer s frame slot 0x0104 (fun _ => (0, bistBytes s.nv.bist)))
/-- `power.set` to M0, R865. -/
def execPowerSetM0 (frame slot : Nat) (s : State) : Host.Outcome State Fault Refusal := .next (powerM0 s frame slot)
/-- `power.set` to M1, R865. -/
def execPowerSetM1 (frame slot : Nat) (s : State) : Host.Outcome State Fault Refusal := .next (powerM1 s frame slot)
/-- `power.set` to M2, R865. -/
def execPowerSetM2 (frame slot : Nat) (s : State) : Host.Outcome State Fault Refusal := .next (powerM2 s frame slot)
/-- `power.set` to M3, R865, R897. -/
def execPowerSetM3 (frame slot : Nat) (failed : List Element) (common : Bool) (vmin : List Nat) (s : State) :
    Host.Outcome State Fault Refusal := .next (powerM3 s frame slot failed common vmin)
/-- `log.read`, R675. -/
def execLogRead (frame slot : Nat) (s : State) : Host.Outcome State Fault Refusal :=
  .next (answer s frame slot 0x0106 (fun r => logAnswer s frame r))
/-- `lifecycle.advance`, R677. -/
def execLifecycleAdvance (frame slot : Nat) (s : State) : Host.Outcome State Fault Refusal := .next (lifecycle s frame slot 0x0201)
/-- `lifecycle.return`, R677. -/
def execLifecycleReturn (frame slot : Nat) (s : State) : Host.Outcome State Fault Refusal := .next (lifecycle s frame slot 0x0202)
/-- `debug.unlock` op 0, R860. -/
def execDebugUnlockChallenge (frame slot : Nat) (s : State) : Host.Outcome State Fault Refusal := .next (debugChallenge s frame slot)
/-- `debug.unlock` op 1, R860. -/
def execDebugUnlockToken (frame slot : Nat) (s : State) : Host.Outcome State Fault Refusal := .next (debugToken s frame slot)
/-- `debug.unlock` op 2, R861. -/
def execDebugUnlockRelock (frame slot : Nat) (s : State) : Host.Outcome State Fault Refusal := .next (debugRelock s frame slot)
/-- `fw.stage`, R679. -/
def execFwStage (frame slot : Nat) (s : State) : Host.Outcome State Fault Refusal :=
  .next (upload s frame slot 0x0301 1 (2 ^ 26) keepImage)
/-- `fw.activate`, R680. -/
def execFwActivate (frame slot : Nat) (s : State) : Host.Outcome State Fault Refusal := .next (activateImage s frame slot)
/-- `pack.install`, R679. -/
def execPackInstall (frame slot : Nat) (s : State) : Host.Outcome State Fault Refusal :=
  .next (upload s frame slot 0x0303 2 (2 ^ 24) keepPack)

end Sys2Proof.Machine
end

