-- ==== Sys2Proof/Machine/Slices.lean ====
section
/-! DEFINITION. The commands that create, destroy, query and reset slices, escalate resets and read clove records
(12_mailbox.md R624 to R641, 13_commands.md R681 to R683, R702, R703). -/

namespace Sys2Proof.Machine

/-! ## Creation, R630, R631 -/

/-- Rolben ports and tier ports that some slice holds. -/
def portHeld (s : State) (p : Nat) : Bool := s.slices.any (fun l => l.2.ports.contains p)
/-- R624. -/
def tierHeld (s : State) (p : Nat) : Bool := s.slices.any (fun l => l.2.tiers.contains p)

/-- R630: a region a new slice may take. -/
def regionFree (s : State) (r : Nat) : Bool := regionExists s r && (sliceOfRegion s r).isNone && shedOf s r ≠ .dark

/-- R630: a Rolben port a new slice may take. -/
def portFree (s : State) (p : Nat) : Bool := portEnabled s.fuses.ordering p && !(s.caps.portsOut.contains p) && !(portHeld s p)

/-- R630: a tier port a new slice may take. -/
def tierFree (s : State) (p : Nat) : Bool :=
  tierEnabled s.fuses.ordering p && (tierOf s p).linkUp && !(tierOf s p).fenced && !(s.caps.tiersOut.contains p) && !(tierHeld s p)

/-- R681: what a `slice.create` payload asks for. -/
structure Wanted where
  regions : List Nat
  ports   : List Nat
  tiers   : List Nat
  period  : Nat
  ring    : Nat
  cfg     : Nat
  deriving DecidableEq, Repr

/-- R681. -/
def wantedOf (l : List Byte) : Wanted :=
  let v := natOf l
  { regions := (List.range 48).filter (bitAt v), ports := maskPorts (bitsOf v 48 16)
    tiers := (List.range 8).filter (bitAt (bitsOf v 64 8)), period := bitsOf v 72 10, ring := bitsOf v 128 64
    cfg := bitsOf v 192 64 }

/-- R630, R944: the code of a `slice.create`; 0 when it succeeds. -/
def createCode (s : State) (w : Wanted) : Nat :=
  if !(w.regions.all (regionFree s)) then 0x30
  else if !(w.ports.all (portFree s)) || !(w.tiers.all (tierFree s)) then 0x31
  else if w.ring % 64 ≠ 0 || !(ringCfgGood w.cfg) then 0x33
  else if 1000 < w.period then 0x34
  else if 2 ^ 32 - 1 ≤ s.sup.nextHandle then 0x32
  else 0

/-- R631 step 2: the lowest-numbered free frame. -/
def freeFrameOf (s : State) : Nat :=
  (((List.range 48).map (· + 1)).find? (fun f => (frameOf s f).owner = 0)).getD 48

/-- R631 steps 1 to 7: a slice of what was asked for. -/
def newSlice (s : State) (w : Wanted) (frame : Nat) : Slice :=
  { state := .active, frame := frame, regions := w.regions, ports := w.ports, tiers := w.tiers
    periodMs := if w.period = 0 then 10 else w.period, mode := s.sup.checkDefault, heal := s.sup.healDefault
    partResets := 0, confs := [], groups := [], saves := [], origin := .empty }

/-- R631 steps 5 and 6: a region's controller restarts and its cores hold nothing. -/
def readyRegion (s : State) (r : Nat) : State :=
  let s := setReg s r { regOf s r with sync := [], cloves := [], cloveSeq := 0 }
  let s := { s with sup := { s.sup with
    ctrlHalted := s.sup.ctrlHalted.filter (fun x => x ≠ r)
    beat := put s.sup.beat r s.clocks.sup } }
  each ((keys s.cores).filter (fun c => regionOf c = r)) s (fun c s =>
    each (keys (coreOf s c).slots) s (fun k s => if (slotOf s c k).state = .empty then closeEnds s c k else resetOne s c k))

/-- R631: `slice.create`. -/
def createSlice (s : State) (f k : Nat) : State :=
  act s f k 0x0401 (fun r =>
    let w := wantedOf r.payload
    let code := createCode s w
    if code ≠ 0 then settle s f k code []
    else
      let h := s.sup.nextHandle
      let frame := freeFrameOf s
      let ring : FrameRing := { base := w.ring, enable := bitAt w.cfg 0, logSize := bitsOf w.cfg 1 4, vector := bitsOf w.cfg 8 8, written := 0 }
      let s := { s with
        sup := { s.sup with nextHandle := h + 1 }
        frames := put s.frames frame { owner := h, ring := ring, slots := [] } }
      let s := bump (setSlice (each w.regions s (fun x s => readyRegion s x)) h (newSlice s w frame)) ctrFrameCreated 0 1
      let s := setRun s f k { r with handle := h }
      settle s f k 0 (bytesOf 8 (h + frame * 2 ^ 32)))

/-! ## Destruction, R633 -/

/-- The windows a slice holds. -/
def windowsOf (s : State) (h : Nat) : List Nat := keys (s.xlat.windows.filter (fun w => w.2.owner = h))

/-- The leaves of a slice. -/
def leavesOf (s : State) (h : Nat) : List Leaf :=
  let mine := windowsOf s h
  s.xlat.leaves.filter (fun l => mine.contains (keyOf l.space l.off))

/-- R607: the lines of the pages of a leaf that the host holds. -/
def leafLines (s : State) (l : Leaf) : List Nat :=
  let d := dpaOf l.space l.off
  (s.hp.filter.filter (fun e => decide (d / 64 ≤ e.line) && decide (e.line < (d + pageBytes l.size) / 64))).map (·.line)

/-- R405, R633 step 3: the slice's windows translate nothing any more, and the host and the stack caches give up the lines in
them. -/
def unmapSlice (s : State) (h : Nat) : State :=
  let mine := windowsOf s h
  let at_ (a : Nat) : Bool := mine.contains (keyOf (gaSpace a) (gaOff a)) && gaSpace a % 2 = 0
  let s := snoopAll s ((leavesOf s h).flatMap (leafLines s)) false 3 none
  let s := dropPages (discardCached s (fun l => mine.contains (keyOf l.space l.off))) (leavesOf s h)
  let x := s.xlat
  { s with xlat := { x with
    windows := x.windows.map (fun (e : Nat × Window) =>
      (e.1, if e.2.owner = h then { e.2 with root0 := 0, root1 := 0, second := false, folded := [] } else e.2))
    overrides := x.overrides.filter (fun l => !(mine.contains (keyOf l.space l.off)))
    tables := x.tables.filter (fun t => !(mine.contains t.2.2))
    walks := x.walks.map (fun (w : Walk) => if at_ w.addr then { w with root := 0 } else w) } }

/-- R633 steps 1 to 3. -/
def emptySlice (s : State) (h : Nat) : State :=
  let s := interruptDestroy s h
  let cores := sliceCores s h
  let s := each cores s (fun c s => each (keys (coreOf s c).slots) s (fun k s =>
    if (slotOf s c k).state = .empty then s else resetOne s c k))
  let s := match look? s.slices h with
    | some l => setSlice s h { l with groups := [], confs := [] }
    | none => s
  let s := { s with
    regions := s.regions.map (fun e => (e.1, { e.2 with parked := e.2.parked.filter (fun m => !(sliceOfCore s m.dst = some h)) }))
    sup := { s.sup with
      resets := s.sup.resets.filter (fun x => resetSlice s x ≠ some h)
      aniseHeld := s.sup.aniseHeld.filter (fun e => e.1 ≠ h) } }
  unmapSlice s h

/-- R633 step 4. -/
def scrubSlice (s : State) (h : Nat) : State :=
  match look? s.slices h with
  | none => s
  | some l =>
    let zero (s : State) (a n : Nat) : State := { s with mem := zeroRange s.mem a (a + n) }
    let s := each (l.regions.flatMap regionCores) s (fun c s => zero s (corePhys c 0) coreBytes)
    let s := each l.regions s (fun r s => dropLines (zero s (regionPhys r 0) regionBytes) r (fun _ => true))
    bump (each (leavesOf s h) s (fun p s => zero s (leafPhys p 0) (pageBytes p.size))) ctrFrameScrubbed 0 1

/-- R633 steps 5 and 6: what the slice held is free. -/
def releaseSlice (s : State) (h : Nat) : State :=
  match look? s.slices h with
  | none => s
  | some l =>
    let mine := windowsOf s h
    let x := s.xlat
    bump { s with
      slices := cut s.slices h
      frames := put s.frames l.frame .fresh
      xlat := { x with
        windows := x.windows.filter (fun w => w.2.owner ≠ h)
        leaves := x.leaves.filter (fun p => !(mine.contains (keyOf p.space p.off))) }
      regions := s.regions.map (fun e => (e.1, if l.regions.contains e.1 then { e.2 with cloves := [] } else e.2))
      sup := { s.sup with
        destroys := cut s.sup.destroys h, admitted := cut s.sup.admitted h, replaced := cut s.sup.replaced h }
      fabric := { s.fabric with admits := s.fabric.admits.filter (fun a => a.handle ≠ h) } } ctrFrameDestroyed 0 1

/-- R633: a destruction goes as far as it can: not past a reset of the slice (R641), nor past the lines
the host holds and the stack caches fill (R405). -/
def destroyStep (s : State) (h : Nat) : State :=
  match look? s.slices h with
  | none => { s with sup := { s.sup with destroys := cut s.sup.destroys h } }
  | some l =>
    if l.state = .resetting then s
    else
      let s := emptySlice (setSlice s h { l with state := .destroying }) h
      if ((leavesOf s h).flatMap (leafLines s)).isEmpty && !(fillsIn s (leavesOf s h)) then
        releaseSlice (if look s.sup.destroys h false then scrubSlice s h else s) h
      else s

/-- R633, R683: `slice.destroy`; what an earlier one left unfinished at its timeout goes on too. -/
def destroySlice (s : State) (f k : Nat) : State :=
  let s := each (keys s.sup.destroys) s (fun h s =>
    if (running s).any (fun e => e.2.2.opcode = 0x0402 && e.2.2.handle = h) then s else destroyStep s h)
  act s f k 0x0402 (fun r =>
    match look? s.slices r.handle with
    | none => settle s f k 5 []
    | some _ =>
      let s := destroyStep s r.handle
      if (look? s.slices r.handle).isNone then settle s f k 0 []
      else if (look? s.slices r.handle).any (fun l => l.state = .resetting) then s
      else await s f k (.destroy r.handle))

/-! ## Queries -/

/-- R637. -/
def sliceCode : SliceState → Nat
  | .active => 1
  | .resetting => 2
  | .failed => 3
  | .destroying => 4

/-- Slots of a slice that are not EMPTY, on its cores and saved out. -/
def slotsUsed (s : State) (h : Nat) : Nat :=
  let used (co : Core) : Nat := (co.slots.filter (fun v => v.2.state ≠ .empty)).length
  ((sliceCores s h).map (fun c => used (coreOf s c))).sum +
  ((groupsOf s h).map (fun g => (g.saved.map (fun c => used c.2)).sum)).sum

/-- A set of numbers as a mask. -/
def setMask (l : List Nat) : Nat := (l.map (fun n => 2 ^ n)).sum

/-- R682: the response of `slice.query`. -/
def sliceBytes (s : State) (h : Nat) : List Byte :=
  match look? s.slices h with
  | none => []
  | some l =>
    bytesOf 64 (sliceCode l.state + l.frame * 2 ^ 8 + l.mode * 2 ^ 14 + setMask l.regions * 2 ^ 16 + setMask l.ports * 2 ^ 64 +
      setMask l.tiers * 2 ^ 80 + l.periodMs * 2 ^ 88 + slotsUsed s h * 2 ^ 128 + l.partResets % 2 ^ 32 * 2 ^ 160)

/-! ## Resets asked for, R683, R702, R826 -/

/-- R826: a reset under way or decided that covers what a request names. -/
def covering (s : State) (domain target : Nat) : Option Reset :=
  s.sup.resets.find? (fun x => match domain, x.domain with
    | _, 3 => true
    | 0, 0 => (slotsLeft s x).contains (target / 4, target % 4) || x.target = target
    | 0, 1 => x.target / 4 = target / 16
    | 0, 2 => sliceOfCore s (target / 4) = some x.target
    | 1, 1 => x.target = target
    | 1, 2 => sliceOfCore s (coreOfEngine target) = some x.target
    | 2, 2 => x.target = target
    | _, _ => false)

/-- R826, R828: the reset a command asks for, and the command waits for it. -/
def askReset (s : State) (f k domain target : Nat) : State :=
  match covering s domain target with
  | some x => await s f k (.reset x.id)
  | none => await (decideReset s domain target 2 0 0 [] none) f k (.reset s.sup.nextReset)

/-- R683: `slice.reset`. -/
def sliceReset (s : State) (f k : Nat) : State := act s f k 0x0404 (fun r => askReset s f k 2 r.handle)

/-- R702: the target of `reset.escalate` exists. -/
def targetGood (s : State) (domain target : Nat) : Bool :=
  match domain with
  | 0 => coreExists s (target / 4)
  | 1 => coreExists s (coreOfEngine target)
  | 2 => (look? s.slices target).isSome
  | 3 => target = 0
  | 4 => target = 0
  | _ => false

/-- R702: `reset.escalate`. -/
def escalateReset (s : State) (f k : Nat) : State :=
  act s f k 0x0901 (fun r =>
    let domain := bitsOf (head8 r) 0 3
    let target := bitsOf (head8 r) 32 32
    if !(targetGood s domain target) then settle s f k 0x20 []
    else if domain = 4 then settle (askCycle s 2) f k 0 []
    else askReset s f k domain target)

/-! ## Clove records, R703, R833 -/

/-- R668, R703, R833: the code and response of `record.read`. -/
def recordAnswer (s : State) (f : Nat) (r : Running) : Nat × List Byte :=
  let w := head8 r
  let region := bitsOf w 32 6
  match if regionExists s region then (regOf s region).cloves[bitsOf w 40 8]? else none with
  | none => (0x20, [])
  | some c =>
    if f ≠ 0 && sliceOfRegion s region ≠ some r.handle then (0x21, [])
    else
      let first := bitsOf w 0 32
      let total := if (sliceOfRegion s region).isSome then 32768 else 1
      let n := min 15 (total - first)
      (0, bytesOf 16 (total + first * 2 ^ 32 + n * 2 ^ 64 + 256 * 2 ^ 80) ++
        ((List.range n).map (fun i => clovePage c region (first + i))).flatten)

/-! ## The commands -/

/-- `slice.create`, R631. -/
def execSliceCreate (frame slot : Nat) (s : State) : Host.Outcome State Fault Refusal := .next (createSlice s frame slot)
/-- `slice.destroy`, R633. -/
def execSliceDestroy (frame slot : Nat) (s : State) : Host.Outcome State Fault Refusal := .next (destroySlice s frame slot)
/-- `slice.query`, R682. -/
def execSliceQuery (frame slot : Nat) (s : State) : Host.Outcome State Fault Refusal :=
  .next (answer s frame slot 0x0403 (fun r => (0, sliceBytes s r.handle)))
/-- `slice.reset`, R683. -/
def execSliceReset (frame slot : Nat) (s : State) : Host.Outcome State Fault Refusal := .next (sliceReset s frame slot)
/-- `reset.escalate`, R702. -/
def execResetEscalate (frame slot : Nat) (s : State) : Host.Outcome State Fault Refusal := .next (escalateReset s frame slot)
/-- `record.read`, R703. -/
def execRecordRead (frame slot : Nat) (s : State) : Host.Outcome State Fault Refusal :=
  .next (answer s frame slot 0x0902 (recordAnswer s frame))

end Sys2Proof.Machine
end

