-- ==== Sys2Proof/Machine/CtxCmds.lean ====
section
/-! DEFINITION. The context commands (13_commands.md R684 to R688; 05_spatial.md R234 to R244, R267 to R272; 06_messages.md
R304 to R307; 08_mesh.md R445, R446; 09_translation.md R495 to R503; 14_integrity.md R739 to R741). -/

namespace Sys2Proof.Machine

/-! ## An entry of `ctx.load`, R684 -/

/-- R684: an entry: its header's fields and its image. -/
structure Entry where
  core    : Nat
  slot    : Nat
  g1      : Bool
  landOn  : Bool
  ringTab : Nat
  defer   : Bool
  landTab : Nat
  image   : BitVec 1536
  /-- R513: a word of the entry is poisoned -/
  poison  : Bool := false
  deriving DecidableEq, Repr

/-- R684: entry i of a payload. -/
def entryOf (l : List Byte) (i : Nat) : Entry :=
  let h := natAt l (8 + 224 * i) 32
  { core := bitsOf h 0 12, slot := bitsOf h 12 2, g1 := bitAt h 14, landOn := bitAt h 15, ringTab := bitsOf h 16 23
    defer := bitAt h 39, landTab := bitsOf h 40 23, image := BitVec.ofNat 1536 (natAt l (40 + 224 * i) 192) }

/-! ## The checks of an image, R240 -/

/-- R240: a core that a lane or port may name. -/
def peerGood (s : State) (d : BitVec 1536) (c : Nat) : Bool := inRect d c && coreUsable s c

/-- R240, R239: the handle queues of an image. -/
def hqsGood (d : BitVec 1536) : Bool :=
  (List.range 4).all (fun h =>
    let q := imHq d h
    !(hqOn q) || (hqBase q % 256 = 0 && decide (1 ≤ hqBufs q) && decide (hqBufs q ≤ 64) &&
      decide (hqBase q + hqBufs q * hqBytes q ≤ coreBytes)))

/-- R240: the step list of an image names, with out_mode 3, only engines whose queue is enabled. -/
def outModesGood (s : State) (c : Nat) (d : BitVec 1536) : Bool :=
  (List.range (imStepCount d)).all (fun i =>
    let t := recordOf 512 (coreRead s c (imStepBase d + 64 * i) 64)
    !(decide (1 ≤ fld t 0 8) && decide (fld t 0 8 ≤ 4) && sdOutMode t = 3) || hqOn (imHq d (imEngineHq d (sdEngine t))))

/-- R240: an image a slot of a slice's core may take. -/
def imageValid (s : State) (h c : Nat) (d : BitVec 1536) : Bool :=
  let depths := (List.range 16).map (fun n => laneDepth (imLane d n))
  !(imReserved d) && decide (1 ≤ imWidth d) && decide (1 ≤ imHeight d) && decide (imX0 d + imWidth d ≤ 80) &&
  decide (imY0 d + imHeight d ≤ 48) && (rectCores d).all (fun x => sliceOfCore s x = some h) && inRect d (imAnchor d) && inRect d c &&
  (List.range 16).all (fun n => laneDepth (imLane d n) = 0 || peerGood s d (laneCore (imLane d n))) &&
  (List.range 16).all (fun n => !(portOn (imPort d n)) || peerGood s d (portCore (imPort d n))) &&
  decide (depths.sum ≤ 64) && decide (imEntry d < imStepCount d) && imStepBase d % 64 = 0 &&
  decide (imStepBase d + 64 * imStepCount d ≤ coreBytes) &&
  imExtBase d % 8 = 0 && (imExtTokens d = 0 || decide (imExtBase d + 264 * imExtTokens d ≤ coreBytes)) &&
  hqsGood d && outModesGood s c d

/-! ## The checks of a ring table, R306 -/

/-- The enabled rings of a slot's table, as (base, bytes). -/
def ringsOf (s : State) (c tab : Nat) : List (Nat × Nat) :=
  ((List.range 17).map (fun i => coreNat s c (tab + 16 * i) 16)).filterMap (fun e => if reOn e then some (reBase e, 8 * reSize e) else none)

/-- No two ranges of a list overlap. -/
def apart : List (Nat × Nat) → Bool
  | [] => true
  | a :: t => t.all (fun b => !(overlaps a.1 a.2 b.1 b.2)) && apart t

/-- R305: an entry keeps the form its table gives. -/
def ringEntryGood (e : Nat) (first : Bool) : Bool :=
  bitsOf e 50 14 = 0 && bitsOf e 83 13 = 0 && bitsOf e 115 13 = 0 &&
  (!(reOn e) || (reBase e % 8 = 0 && decide (8 ≤ reSize e) && decide (reSize e ≤ 131072) && (!first || reSize e % 4 = 0) &&
    decide (reBase e + 8 * reSize e ≤ coreBytes)))

/-- R306: an enabled class may be bound to slot k with an epoch. -/
def classGood (s : State) (c k cls epoch : Nat) : Bool :=
  match look? (coreOf s c).ends cls with
  | none => true
  | some e => if e.isOpen then e.slot = k && e.epoch ≠ epoch else e.prev ≠ some epoch

/-- R306: the ring table at an offset may be loaded into slot k. -/
def ringTableGood (s : State) (c k tab : Nat) : Bool :=
  let es := (List.range 17).map (fun i => coreNat s c (tab + 16 * i) 16)
  let mine := ringsOf s c tab
  let others := (((coreOf s c).slots.filter (fun v => v.1 ≠ k && v.2.state ≠ .empty && v.2.ringOn && v.2.primary.isNone)).map (fun v => ringsOf s c v.2.ringTab)).flatten
  tab % 8 = 0 && decide (tab + 272 ≤ coreBytes) && reOn (es.headD 0) &&
  es.zipIdx.all (fun e => ringEntryGood e.1 (e.2 = 0)) && apart mine &&
  mine.all (fun a => others.all (fun b => !(overlaps a.1 a.2 b.1 b.2))) &&
  (List.range 16).all (fun cls => !(reOn (es.getD (cls + 1) 0)) || classGood s c k cls (reEpoch (es.getD (cls + 1) 0)))

/-! ## The checks of a landing table, R446 -/

/-- R446: an enabled entry's areas, out slots and contributor list. -/
def landRanges (e : Nat) : List (Nat × Nat) :=
  [(leAcc e, 45824), (leAcc e + 45824, 45824), (leOut e, 33824), (leOut e + 33824, 33824), (leContrib e, 2 * leCount e)]

/-- R446: the landing table at an offset may be loaded into slot k. -/
def landTableGood (s : State) (c k tab : Nat) : Bool :=
  let es := (List.range 8).map (fun i => coreNat s c (tab + 32 * i) 32)
  let on := es.filter leOn
  let tags := on.map leTag
  let others := (((coreOf s c).slots.filter (fun v => v.1 ≠ k && v.2.state ≠ .empty && v.2.landOn && v.2.primary.isNone)).map (fun v =>
    (((List.range 8).map (fun i => landEntry s c v.2 i)).filter leOn).map leTag)).flatten
  tab % 8 = 0 && decide (tab + 256 ≤ coreBytes) && es.all (fun e => !(leReserved e)) &&
  tags.length = tags.eraseDups.length && tags.all (fun t => !(others.contains t)) &&
  on.all (fun e => leAcc e % 256 = 0 && leOut e % 8 = 0 && leContrib e % 8 = 0 &&
    (landRanges e).all (fun r => decide (r.1 + r.2 ≤ coreBytes)) && (leEngines s c e).all (fun g => coreExists s (coreOfEngine g))) &&
  apart (on.map landRanges).flatten

/-! ## Twins, R739, R740 -/

/-- R740: a core that holds a twin, on it or in a saved-out group's images. -/
def holdsTwin (s : State) (c : Nat) : Bool :=
  let twin (co : Core) : Bool := co.slots.any (fun v => v.2.state ≠ .empty && v.2.primary.isSome)
  twin (coreOf s c) || (groupsOf s (handleOf s c)).any (fun g => twin (look g.saved c .fresh))

/-- A core that holds no slot, on it or saved out. -/
def slotless (s : State) (c : Nat) : Bool :=
  let bare (co : Core) : Bool := co.slots.all (fun v => v.2.state = .empty)
  bare (coreOf s c) && (groupsOf s (handleOf s c)).all (fun g => bare (look g.saved c .fresh))

/-- The slots of a configured region with a twin, and its core. -/
def twinsOf (s : State) (h config : Nat) : List (Nat × Nat) :=
  let of_ (t : Tab Core) : List (Nat × Nat) := (t.map (fun e => (e.2.slots.filter (fun v =>
    v.2.state ≠ .empty && imConfig v.2.image = config)).filterMap (fun v => v.2.twin.map (fun w => (e.1, w.1))))).flatten
  of_ (s.cores.filter (fun e => sliceOfCore s e.1 = some h)) ++ ((groupsOf s h).map (fun g => of_ g.saved)).flatten

/-- The core as far from x0', y0' as c is from the rectangle's corner. -/
def shifted (d : BitVec 1536) (x y c : Nat) : Nat := coreAt (x + coreX c - imX0 d) (y + coreY c - imY0 d)

/-- R739: a rectangle at (x, y) may hold the twins of a configured region. -/
def twinRectGood (s : State) (h : Nat) (d : BitVec 1536) (x y : Nat) : Bool :=
  decide (x + imWidth d ≤ 80) && decide (y + imHeight d ≤ 48) && (rectCores d).all (fun c =>
    let t := shifted d x y c
    !(coreUsable s c) || (sliceOfCore s t = some h && coreUsable s t && shedOf s (regionOf t) ≠ .dark && slotless s t && !(inRect d t) &&
      clusterOf t ≠ clusterOf c))

/-- R739: the twin's core of a core of a configured region: where its other twins are, or in the first rectangle that fits. -/
def twinCoreFor (s : State) (h c : Nat) (d : BitVec 1536) : Option Nat :=
  match (twinsOf s h (imConfig d)).head? with
  | some (p, t) =>
    let x := coreX t + coreX c - coreX p
    let y := coreY t + coreY c - coreY p
    let tc := coreAt x y
    if coreUsable s tc && sliceOfCore s tc = some h && (slotless s tc || holdsTwin s tc) then some tc else none
  | none =>
    (((List.range 48).map (fun y => (List.range 80).map (fun x => (x, y)))).flatten.find? (fun e => twinRectGood s h d e.1 e.2)).map
      (fun e => shifted d e.1 e.2 c)

/-- The relocations that make a twin name its own rectangle's cores. -/
def twinReloc (d : BitVec 1536) (c tc : Nat) : List (Nat × Nat) :=
  (rectCores d).map (fun p => (p, coreAt (coreX tc + coreX p - coreX c) (coreY tc + coreY p - coreY c)))

/-! ## Loading a slot, R269, R307 -/

/-- R269, R272: a slot as an image leaves it; v held it before. -/
def loadedSlot (v : Slot) (k : Nat) (e : Entry) : Slot :=
  { Slot.fresh with
    state := .loaded
    image := e.image
    g1 := e.g1
    ringOn := true
    ringTab := e.ringTab
    landOn := e.landOn
    landTab := e.landTab
    ip := imEntry e.image
    monIp := imEntry e.image
    gen := (v.gen + 1) % 16
    lanes := (List.range 16).map (fun n => (n, Lane.fresh (((laneOf v n).gen + 1) % 16)))
    hqs := (List.range 4).map (fun n => (n, { gen := ((hqOf v n).gen + 1) % 16
                                              free := hqFresh k n (((hqOf v n).gen + 1) % 16) (imHq e.image n)
                                              ready := [] }))
    errLost := v.errLost
    lastErr := v.lastErr }

/-- R307: ring i of a slot starts empty, and its class is open. -/
def openRing (s : State) (c k tab i : Nat) : State :=
  let e := coreNat s c (tab + 16 * i) 16
  if !(reOn e) then s
  else
    let a := corePhys c (reBase e)
    let s := { s with mem := zeroRange s.mem a (a + 8 * reSize e) }
    let s := coreWrite s c (tab + 16 * i + 8) (bytesOf 8 (2 ^ 18 + 2 ^ 50))
    if i = 0 then s
    else
      let co := coreOf s c
      let old := look co.ends (i - 1) .fresh
      setCore s c { co with ends := put co.ends (i - 1) { old with slot := k, epoch := reEpoch e, isOpen := true, parked := false } }

/-- R445: no tile has completed since the load. -/
def openLanding (s : State) (c : Nat) (e : Entry) : State :=
  if !e.landOn then s
  else each (List.range 8) s (fun i s =>
    if leOn (coreNat s c (e.landTab + 32 * i) 32) then coreWrite s c (e.landTab + 32 * i + 24) (bytesOf 8 0) else s)

/-- R739, R741: the twin of a slot just loaded. -/
def placeTwin (s : State) (c k tc : Nat) (e : Entry) : State :=
  let s := { s with mem := copyRange s.mem (corePhys c 0) (corePhys tc 0) coreBytes }
  let twin := { loadedSlot (slotOf s tc k) k e with primary := some (c, k), reloc := twinReloc e.image c tc }
  onSlot (setSlot s tc k twin) c k (fun v => { v with twin := some (tc, k) })

/-- R263: the open grants and open requests of a slot just loaded. -/
def openQueues (s : State) (c k : Nat) : State :=
  let d := (slotOf s c k).image
  let s := each ((List.range 16).filter (fun n => laneDepth (imLane d n) ≠ 0)) s (fun n s => openLane s c k n)
  each ((List.range 16).filter (fun n => portOn (imPort d n))) s (fun n s => requestOpen s c k n)

/-- R233, R280: a slot belongs to one configured region: its anchor's record of it ends in every other of the slice. -/
def joinConf (s : State) (h config u : Nat) : State :=
  match look? s.slices h with
  | none => s
  | some l =>
    let confs := l.confs.map (fun e => if e.1 = config then e else
      (e.1, { e.2 with members := dropFrom e.2.members u, stalled := dropFrom e.2.stalled u, full := e.2.full.filter (·.1 ≠ u) }))
    let w := look confs config .fresh
    setSlice s h { l with confs := put confs config { w with members := addTo w.members u, window := none } }

/-- R269, R307, R739: an entry that passes its checks is loaded. A stall beacon of the slot to the same configured region
still stands (R280); a handle that a unit of the slot still held is an orphan (R277). -/
def placeEntry (s : State) (e : Entry) (twin : Option Nat) : State :=
  let c := e.core
  let k := e.slot
  let v := slotOf s c k
  let s := match v.twin with
    | some (tc, tk) => resetOne s tc tk
    | none => s
  let s := freeAreas (closeEnds s c k) c k
  let h := handleOf s c
  let same := (confOf s h (imConfig e.image)).members.contains (slotUnit c k)
  let s := joinConf (setSlot s c k { loadedSlot v k e with beacon := v.beacon && same, told := if same then v.told else [] })
    h (imConfig e.image) (slotUnit c k)
  let s := each (heldHandles v) s (fun x s => putFree s c k x)
  let s := openLanding (each (List.range 17) s (fun i s => openRing s c k e.ringTab i)) c e
  match twin with
  | none => openQueues s c k
  | some tc => openQueues (openQueues (placeTwin s c k tc e) c k) tc k

/-! ## The code of an entry, R944 order -/

/-- R267: a slot is drained. -/
def drained (v : Slot) : Bool := tokensHeld v = 0 && v.hqs.all (fun q => q.2.ready.isEmpty) && v.issued.isEmpty && v.syncs.isEmpty

/-- R240, R268, R306, R446: the codes that the slot and its core's memory decide. A table on a core that cannot be used,
or one that is poisoned, has no content to reject. -/
def entryCode (s : State) (h : Nat) (e : Entry) : Nat :=
  let v := slotOf s e.core e.slot
  let known (a n : Nat) : Bool := coreUsable s e.core && shedOf s (regionOf e.core) ≠ .dark && !(corePoison s e.core a n)
  if !(coreExists s e.core) || !(imageValid s h e.core e.image) then 0x40
  else if activeState v.state then 0x41
  else if v.state ≠ .faulted && !(drained v) then 0x42
  else if known e.ringTab 272 && !(ringTableGood s e.core e.slot e.ringTab) then 0x43
  else if e.landOn && known e.landTab 256 && !(landTableGood s e.core e.slot e.landTab) then 0x44
  else 0

/-- R513: poison in a table that the load reads. -/
def tablesPoisoned (s : State) (e : Entry) : Bool :=
  corePoison s e.core e.ringTab 272 || (e.landOn && corePoison s e.core e.landTab 256)

/-- R496: the slot an entry names belongs to a configured region of a group other than the entry's. -/
def slotElsewhere (s : State) (h : Nat) (e : Entry) : Bool :=
  (groupsOf s h).any (fun g => !(g.configs.contains (imConfig e.image)) && g.cores.contains e.core &&
    (if g.resident then (slotOf s e.core e.slot).state else (look (look g.saved e.core .fresh).slots e.slot .fresh).state) ≠ .empty)

/-- R496: the saved-out group of a configured region, with its place. -/
def savedHolding (s : State) (h config : Nat) : Option (Nat × Group) :=
  ((groupsOf s h).zipIdx.find? (fun e => !e.1.resident && e.1.configs.contains config)).map (fun e => (e.2, e.1))

/-- R496: some group of a configured region is on its cores. -/
def hasResident (s : State) (h config : Nat) : Bool := (groupsOf s h).any (fun g => g.resident && g.configs.contains config)

/-- R496: an entry goes into a saved-out group's images: its slot belongs to another group, or its own group is saved out. -/
def deferred (s : State) (h : Nat) (e : Entry) : Bool :=
  e.defer && (slotElsewhere s h e || ((savedHolding s h (imConfig e.image)).isSome && !(hasResident s h (imConfig e.image))))

/-- Twins that an entry of a slice needs: none asked for, or the core, or none to be had. -/
def twinWanted (s : State) (h : Nat) (e : Entry) : Option (Option Nat) :=
  if modeOfCore s e.core = 2 then (twinCoreFor s h e.core e.image).map some else some none

/-- R739, R740, R496, R497, R686: the remaining codes, before that of poison. -/
def placeCode (s : State) (h : Nat) (e : Entry) (late : Bool) : Nat :=
  let cfg := imConfig e.image
  let others := (groupsOf s h).filter (fun g => g.resident || !(g.configs.contains cfg))
  let away := savedHolding s h cfg
  if !(coreUsable s e.core) || shedOf s (regionOf e.core) = .dark || holdsTwin s e.core || (twinWanted s h e).isNone then 0x45
  else if away.any (fun g => g.2.byHost) || (!late && away.isSome && !(hasResident s h cfg)) then 0x49
  else if late && (e.core :: (((twinWanted s h e).getD none).toList)).any (fun c => freePlace others c = 4) then 0x4A
  else 0

/-! ## Loading into images, R496 -/

/-- A state in which a core holds what a saved-out group holds for it. -/
def swapIn (s : State) (g : Group) (c : Nat) : State :=
  let engines := (List.range 4).map (engineOf c)
  let s := each engines s (fun n s =>
    setEng { s with mem := zeroRange s.mem (bufPhys n 0) (bufPhys n (2 ^ 18)) } n (look g.engs n .fresh))
  let s := if (look? g.saved c).isSome then each (List.range 4) s (fun j s =>
      fromImage s g c (bufPhys (engineOf c j) 0) (0x80000 + j * 2 ^ 18) 0x30000) else s
  match look? g.saved c with
  | some co => setCore (fromImage s g c (corePhys c 0) imageCore coreBytes) c co
  | none => setCore s c { Core.fresh with nextTag := (coreOf s c).nextTag }

/-- The bytes and poison of [lo, hi) of a memory put into another. -/
def graft (m old : Memory) (lo hi : Nat) : Memory :=
  let z := zeroRange m lo hi
  { cells := (old.cells.filter (fun c => decide (lo ≤ c.1) && decide (c.1 < hi))).foldl (fun l c => put l c.1 c.2) z.cells
    poison := (old.poison.filter (fun k => decide (lo ≤ 8 * k) && decide (8 * k < hi))).foldl addTo z.poison }

/-- What a core held before comes back. -/
def swapBack (s before : State) (c : Nat) : State :=
  let s := { s with mem := graft s.mem before.mem (corePhys c 0) (corePhys c (2 ^ 23)) }
  let s := each ((List.range 4).map (engineOf c)) s (fun n s =>
    setEng { s with mem := graft s.mem before.mem (bufPhys n 0) (bufPhys n (2 ^ 18)) } n (engOf before n))
  setCore s c (coreOf before c)

/-- What a core holds goes into the image of a saved-out group, and the core holds again what it held before. -/
def lodge (s before : State) (h i c : Nat) : State :=
  match (groupsOf s h)[i]? with
  | none => s
  | some g =>
    let s := saveWhole s g c
    let engines := (List.range 4).map (engineOf c)
    let g := { g with
      saved := put g.saved c (coreOf s c)
      engs := engines.foldl (fun t n => put t n (engOf s n)) g.engs
      cores := addTo g.cores c }
    swapBack (setGroup s h i g) before c

/-- A slot in the images of the i-th group of a slice. -/
def savedOf (s : State) (h i c k : Nat) : Slot :=
  (((groupsOf s h)[i]?).map (fun g => look (look g.saved c .fresh).slots k .fresh)).getD .fresh

/-- Replace it. -/
def setSaved (s : State) (h i c k : Nat) (v : Slot) : State :=
  match (groupsOf s h)[i]? with
  | none => s
  | some g =>
    let co := look g.saved c .fresh
    setGroup s h i { g with saved := put g.saved c { co with slots := put co.slots k v } }

/-- R263: a port within the images takes an open grant; under another gen it numbers its tokens from 0 (log entry 107). -/
def grantInImage (s : State) (h i c k n gen credits : Nat) : State :=
  let v := savedOf s h i c k
  let p := outOf v n
  if v.state = .empty then s
  else setSaved s h i c k { v with ports := put v.ports n { gen := gen, credits := credits, seq := if gen = p.gen then p.seq else 0 } }

/-- R263, R264: within the images of a group, a slot's lanes grant their producers credit, and its ports ask for it: a lane whose
producer a port is not drops the request. -/
def grantSaved (s : State) (h i c k : Nat) : State :=
  let v := savedOf s h i c k
  let s := each ((List.range 16).filter (fun n => laneDepth (imLane v.image n) ≠ 0)) s (fun n s =>
    let e := imLane v.image n
    grantInImage s h i (relocated v (laneCore e)) (laneSlot e) (lanePort e) (laneOf v n).gen (grantCredits v n))
  each ((List.range 16).filter (fun n => portOn (imPort v.image n))) s (fun n s =>
    let e := imPort v.image n
    let dc := relocated v (portCore e)
    let d := savedOf s h i dc (portSlot e)
    let l := laneOf d (portLane e)
    if isProducer d (portLane e) c k n then
      let d := { d with lanes := put d.lanes (portLane e) (rebindLane l) }
      grantInImage (setSaved s h i dc (portSlot e) d) h i c k n (rebindLane l).gen (grantCredits d (portLane e))
    else orphanTo (bump s ctrSlotDropped (slotUnit dc (portSlot e)) 1) dc c k v.gen 0 5
      (dc + portLane e * 2 ^ 12 + portSlot e * 2 ^ 16 + l.gen * 2 ^ 22 + n * 2 ^ 26 + 2 ^ 30))

/-- R496: the saved-out group of a configured region, formed when there is none, with its place. -/
def deferGroup (s : State) (h c config : Nat) : Nat × State :=
  match savedHolding s h config with
  | some (i, _) => (i, s)
  | none =>
    let gs := groupsOf s h
    let g := { Group.fresh [config] [c] (placesOn gs [] [c]) s.clocks.sup with resident := false, image := .saved }
    (gs.length, match look? s.slices h with
      | some l => setSlice s h { l with groups := gs ++ [g] }
      | none => s)

/-- R497: a group takes a further core, with a save image there that no other group uses. -/
def takeCore (s : State) (h i c : Nat) : State :=
  match (groupsOf s h)[i]? with
  | none => s
  | some g =>
    let cores := addTo g.cores c
    setGroup s h i { g with cores := cores, places := placesOn ((groupsOf s h).eraseIdx i) g.places cores }

/-- R496: an entry that passes its checks is loaded into the images of its group. -/
def placeDeferred (s : State) (h : Nat) (e : Entry) (twin : Option Nat) : State :=
  let p := deferGroup s h e.core (imConfig e.image)
  let cores := e.core :: twin.toList
  let t := each cores p.2 (fun c t => takeCore t h p.1 c)
  let g := ((groupsOf t h)[p.1]?).getD (Group.fresh [] [] [] 0)
  let v := placeEntry (each cores t (fun c v => swapIn v g c)) e twin
  let v := each cores { v with narrow := t.narrow } (fun c v => lodge v t h p.1 c)
  each cores v (fun c v => grantSaved v h p.1 c e.slot)

/-! ## `ctx.load` -/

/-- R684, R685: one entry: its code and the state it leaves. -/
def loadEntry (s : State) (h : Nat) (e : Entry) : Nat × State :=
  let late := deferred s h e
  let mine := sliceOfCore s e.core = some h
  let s := if !mine then s
    else if late then (match savedHolding s h (imConfig e.image) with
      | some (i, _) => if (savedOf s h i e.core e.slot).state = .faulted then resetSaved s h i e.core e.slot else s
      | none => s)
    else if (slotOf s e.core e.slot).state = .faulted then resetSlot s e.core e.slot else s
  let g := ((savedHolding s h (imConfig e.image)).map (·.2)).getD (Group.fresh [] [] [] 0)
  let view := if late then (if g.resident then setCore s e.core { coreOf s e.core with slots := [], ends := [] } else swapIn s g e.core) else s
  let code := entryCode view h e
  if e.poison then (0x8F, s)
  else if code ≠ 0 then (code, s)
  else
    let code := placeCode s h e late
    if code ≠ 0 then (code, s)
    else if tablesPoisoned view e then (0x8F, detect s (elCore e.core) 2 false 0)
    else
      let twin := ((twinWanted s h e).getD none)
      (0, regroup (if late then placeDeferred s h e twin else placeEntry s e twin) h)

/-- R684: entries in order, until one fails: how many were loaded and the code. -/
def loadEntries (h : Nat) : List Entry → Nat → State → Nat × Nat × State
  | [], n, s => (n, 0, s)
  | e :: t, n, s =>
    let r := loadEntry s h e
    if r.1 ≠ 0 then (n, r.1, r.2) else loadEntries h t (n + 1) r.2

/-- A save or a restore of a group of the slice on one of the cores listed is under way. -/
def groupMoving (s : State) (h : Nat) (cores : List Nat) : Bool :=
  (groupsOf s h).any (fun g => (g.image = .saving || g.image = .restoring) && g.cores.any (fun c => cores.contains c))

/-- R684: `ctx.load`. -/
def loadContexts (s : State) (f k : Nat) : State :=
  act s f k 0x0501 (fun r =>
    let es := (List.range (bitsOf (head8 r) 0 8)).map (fun i => { entryOf r.payload i with
      poison := r.poison.any (fun w => decide (1 + 28 * i ≤ w) && decide (w < 29 + 28 * i)) })
    if groupMoving s r.handle (es.map (·.core)) then s
    else
      let q := loadEntries r.handle es 0 s
      settle q.2.2 f k q.2.1 (bytesOf 8 (q.1 + (if q.2.1 = 0 then 0 else q.1) * 2 ^ 8)))

/-! ## Configured regions, live or saved out -/

/-- The slots of a configured region that a saved-out group holds. -/
def savedSlots (g : Group) (config : Nat) : List (Nat × Nat × Slot) :=
  (g.saved.map (fun e => (e.2.slots.filter (fun v =>
    v.2.state ≠ .empty && v.2.primary.isNone && imConfig v.2.image = config)).map (fun v => (e.1, v.1, v.2)))).flatten

/-- R686: the slots of a slice that carry a config_id, wherever they are. -/
def carrying (s : State) (h config : Nat) : List (Nat × Nat × Slot) :=
  (confSlots s h config).map (fun e => (e.1, e.2, slotOf s e.1 e.2)) ++
  ((groupsOf s h).map (fun g => if g.resident then [] else savedSlots g config)).flatten

/-- R234: the slots agree, and the anchor holds one of them. -/
def slotsAgree (l : List (Nat × Nat × Slot)) : Bool :=
  match l with
  | [] => true
  | (_, _, v) :: _ =>
    let d := v.image
    let same (w : Slot) : Bool := imX0 w.image = imX0 d && imY0 w.image = imY0 d && imWidth w.image = imWidth d &&
      imHeight w.image = imHeight d && imAnchor w.image = imAnchor d
    l.all (fun e => same e.2.2) && inRect d (imAnchor d) && l.any (fun e => e.1 = anchorOf v)

/-- R686: a slot that may be started. -/
def startable (v : Slot) : Bool := v.state = .loaded || v.state = .halted || v.state = .stopped

/-- R244: a slot starts. -/
def startSlot (v : Slot) : Slot :=
  if v.state = .halted then
    { v with state := .ready, ip := imEntry v.image, loops := [], monIp := imEntry v.image, monLoops := [], sigSeq := 0, sigMon := 0 }
  else { v with state := .ready }

/-- R686, R244: every live slot of a configured region starts, its twins with it. -/
def startLive (s : State) (h config : Nat) : State :=
  let l := confSlots s h config
  let s := each l s (fun e s =>
    let s := match (slotOf s e.1 e.2).twin with
      | some (tc, tk) => onSlot s tc tk startSlot
      | none => s
    onSlot s e.1 e.2 startSlot)
  let s := setConf s h config { confOf s h config with counted := 0 }
  each (confCores s h config) s (fun c s => settleCore s c)

/-- R496: the slots of a configured region are READY in their images, and run once the group is restored. -/
def startSaved (s : State) (h i config : Nat) (g : Group) : State :=
  let on (v : Slot) : Slot := if v.state ≠ .empty && imConfig v.image = config then startSlot v else v
  let saved := g.saved.map (fun (e : Nat × Core) => (e.1, { e.2 with slots := e.2.slots.map (fun v => (v.1, on v.2)) }))
  let n := (groupsOf s h).length
  startRestores (setConf (setGroup s h i { g with saved := saved }) h config { confOf s h config with counted := 0 }) h (i + n - 1)

/-- R234, R686, R944: the code of a `ctx.start`; 0 when it starts. -/
def startCode (s : State) (h config : Nat) : Nat :=
  let l := carrying s h config
  if l.isEmpty then 0x46
  else if !(slotsAgree l) then 0x47
  else if !(l.all (fun e => startable e.2.2)) then 0x48
  else if (savedHolding s h config).any (fun g => g.2.byHost) then 0x49
  else 0

/-- R282, R686: the configured region starts, where it is; a window its slots' states barred may stand now. -/
def startConf (s : State) (h config : Nat) : State :=
  let s := if hasResident s h config || (savedHolding s h config).isNone then watchStall (startLive s h config) h config else s
  match savedHolding s h config with
  | some (i, g) => startSaved s h i config g
  | none => s

/-- A save or restore of the group of a configured region is under way. -/
def confMoving (s : State) (h config : Nat) : Bool :=
  (groupHolding s h config).any (fun g => g.2.image = .saving || g.2.image = .restoring)

/-- R686: `ctx.start`; no rule states its response, so its bytes are a free value (log entry 4). -/
def startContexts (s : State) (f k : Nat) : State :=
  act s f k 0x0502 (fun r =>
    let config := bitsOf (head8 r) 0 32
    if confMoving s r.handle config then s
    else
      let code := startCode s r.handle config
      if code ≠ 0 then settle s f k code []
      else
        let w := freeNext s
        settle (startConf w.2 r.handle config) f k 0 (bytesOf 8 w.1.toNat))

/-- R243, R686: `ctx.stop`. -/
def stopContexts (s : State) (f k : Nat) : State :=
  act s f k 0x0503 (fun r =>
    let config := bitsOf (head8 r) 0 32
    if confMoving s r.handle config then s
    else if (carrying s r.handle config).isEmpty then settle s f k 0x46 []
    else if (savedHolding s r.handle config).isSome then settle s f k 0x49 []
    else
      let l := (confSlots s r.handle config).filter (fun e => activeState (slotOf s e.1 e.2).state)
      let twins := l.filterMap (fun e => (slotOf s e.1 e.2).twin)
      let t := stopAll (stopAll s l) twins
      setRun t f k { r with wait := .stopped config, progress := l.length })

/-! ## Saving and restoring at the host's request, R687 -/

/-- R687: a mapped page of the slice's own windows. -/
def ownPage (s : State) (h a : Nat) : Bool :=
  gaWhere s a = 0 && gaSpace a = 0 && (windowOf s 0 (gaOff a)).any (fun w => w.owner = h) &&
  s.xlat.leaves.any (fun l => leafCovers l 0 (gaOff a))

/-- R687: an image pool for n cores. -/
def poolGood (s : State) (h pool n : Nat) : Bool :=
  pool % 65536 = 0 && (List.range (128 * n)).all (fun i => ownPage s h (pool + i * 65536))

/-- R687: the code of a `ctx.save`; 0 when it begins. -/
def saveCode (s : State) (h config pool : Nat) : Nat :=
  if (carrying s h config).isEmpty then 0x46
  else match groupHolding s h config with
    | none => 0x46
    | some (_, g) => if !g.resident then 0x49 else if !(poolGood s h pool g.cores.length) then 0x4B else 0

/-- R687, R501: `ctx.save`. -/
def saveContexts (s : State) (f k : Nat) : State :=
  act s f k 0x0504 (fun r =>
    let config := bitsOf (head8 r) 0 32
    let pool := natAt r.payload 8 8
    if confMoving s r.handle config || (groupHolding s r.handle config).any (fun g => g.2.halted) then s
    else
      let code := saveCode s r.handle config pool
      if code ≠ 0 then settle s f k code []
      else match groupHolding s r.handle config with
        | none => s
        | some (i, g) => setRun (beginSave s r.handle i (some pool) true) f k { r with wait := .saved config, progress := g.cores.length })

/-- R687, R503: the cores of a group are free for it. -/
def coresFree (s : State) (h : Nat) (g : Group) : Bool :=
  !((groupsOf s h).any (fun o => (o.resident || o.image = .restoring) && shareCore o g)) && g.cores.all (fun c =>
    (coreOf s c).slots.all (fun v => v.2.state = .empty))

/-- R687, R503, R752, R796: the code of a `ctx.restore`; 0 when it begins. -/
def restoreCode (s : State) (h config pool : Nat) : Nat :=
  match groupHolding s h config with
  | none => 0x46
  | some (_, g) =>
    if (carrying s h config).isEmpty then 0x46
    else if !g.resident && (!g.byHost || !g.dark.isEmpty || s.sup.aniseHeld.any (fun e => e.1 = h && g.configs.contains e.2)) then 0x49
    else if g.resident || !(coresFree s h g) then 0x4A
    else if !(poolGood s h pool g.cores.length) then 0x4B
    else if !(g.cores.all (imageGood s { g with pool := some pool })) then 0x4A
    else 0

/-- R687, R503: `ctx.restore`. -/
def restoreContexts (s : State) (f k : Nat) : State :=
  act s f k 0x0505 (fun r =>
    let config := bitsOf (head8 r) 0 32
    let pool := natAt r.payload 8 8
    if confMoving s r.handle config then s
    else
      let code := restoreCode s r.handle config pool
      if code ≠ 0 then settle s f k code []
      else match groupHolding s r.handle config with
        | none => s
        | some (i, g) =>
          setRun (setGroup s r.handle i { g with image := .restoring, prog := [], pool := some pool }) f k
            { r with wait := .restored config, progress := g.cores.length })

/-! ## `ctx.status`, R688 -/

/-- R241: the code of a state. -/
def stateCode : SlotState → Nat
  | .empty => 0
  | .loaded => 1
  | .ready => 2
  | .running => 3
  | .blocked => 4
  | .halted => 5
  | .stopped => 6
  | .faulted => 7

/-- R688: the slot that `ctx.status` reports, whether it is saved out, and whether its images failed. -/
def reported (s : State) (h c k : Nat) : Slot × Bool × Bool :=
  let live := slotOf s c k
  if live.state ≠ .empty then (live, false, (groupsOf s h).any (fun g => g.resident && g.cores.contains c && g.image = .failed))
  else
    match ((groupsOf s h).filter (fun g => !g.resident)).findSome? (fun g =>
      let v := look (look g.saved c .fresh).slots k .fresh
      if v.state = .empty then none else some (v, decide (g.image = .failed))) with
    | some (v, bad) => (v, true, bad)
    | none => (live, false, false)

/-- R688, R506: the 96 bytes of a slot. -/
def statusBytes (v : Slot) (out bad : Bool) : List Byte :=
  let p := v.primary.getD (0, 0)
  bytesOf 96 ((if bad then 7 else stateCode v.state) + bn out * 2 ^ 3 + bn v.primary.isSome * 2 ^ 4 + v.ip % 2 ^ 16 * 2 ^ 16 +
    imConfig v.image * 2 ^ 32 + v.faultAddr % 2 ^ 64 * 2 ^ 64 + v.faultUnit % 2 ^ 8 * 2 ^ 128 + v.faultCause % 2 ^ 8 * 2 ^ 136 +
    p.1 % 2 ^ 12 * 2 ^ 144 + p.2 % 4 * 2 ^ 156 + v.lastErr.toNat * 2 ^ 256)

/-- R688, R944: the code and response of `ctx.status`. -/
def statusAnswer (s : State) (r : Running) : Nat × List Byte :=
  let c := bitsOf (head8 r) 0 12
  let k := bitsOf (head8 r) 12 2
  if !(coreExists s c) || sliceOfCore s c ≠ some r.handle then (0x21, [])
  else if !(coreUsable s c) then (0x45, [])
  else
    let v := reported s r.handle c k
    (0, statusBytes v.1 v.2.1 v.2.2)

/-! ## The commands -/

/-- `ctx.load`, R684. -/
def execCtxLoad (frame slot : Nat) (s : State) : Host.Outcome State Fault Refusal := .next (loadContexts s frame slot)
/-- `ctx.start`, R686. -/
def execCtxStart (frame slot : Nat) (s : State) : Host.Outcome State Fault Refusal := .next (startContexts s frame slot)
/-- `ctx.stop`, R686. -/
def execCtxStop (frame slot : Nat) (s : State) : Host.Outcome State Fault Refusal := .next (stopContexts s frame slot)
/-- `ctx.save`, R687. -/
def execCtxSave (frame slot : Nat) (s : State) : Host.Outcome State Fault Refusal := .next (saveContexts s frame slot)
/-- `ctx.restore`, R687. -/
def execCtxRestore (frame slot : Nat) (s : State) : Host.Outcome State Fault Refusal := .next (restoreContexts s frame slot)
/-- `ctx.status`, R688. -/
def execCtxStatus (frame slot : Nat) (s : State) : Host.Outcome State Fault Refusal :=
  .next (answer s frame slot 0x0506 (statusAnswer s))

end Sys2Proof.Machine
end

