-- ==== Sys2Proof/Machine/MemCmds.lean ====
section
/-! DEFINITION. The memory commands (13_commands.md R689 to R693; 09_translation.md R474 to R486; 11_cxl.md R605 to R610). -/

namespace Sys2Proof.Machine

/-! ## Mapping, R690 -/

/-- R689: what a `mem.map` payload asks for. -/
structure MapReq where
  space   : Nat
  off     : Nat
  high    : Nat
  size    : Nat
  write   : Bool
  shared  : Bool
  migrate : Bool
  loc     : Nat
  pages   : Nat
  frame   : Nat
  deriving DecidableEq, Repr

/-- R689. -/
def mapReqOf (l : List Byte) : MapReq :=
  let v := natOf l
  { space := gaSpace v, off := gaOff v, high := bitsOf v 50 14, size := bitsOf v 64 2, write := bitAt v 66, shared := bitAt v 67
    migrate := bitAt v 68, loc := bitsOf v 72 8, pages := bitsOf v 80 16, frame := bitsOf v 128 64 }

/-- The bytes a `mem.map` maps. -/
def mapSpan (m : MapReq) : Nat := m.pages * pageBytes m.size

/-- The leaves a `mem.map` writes. -/
def newLeaves (m : MapReq) : List Leaf :=
  (List.range m.pages).map (fun i =>
    { space := m.space, off := m.off + i * pageBytes m.size, size := m.size
      entry := mkLeaf m.write m.shared (m.space = 2) m.migrate m.loc (m.frame + i * pageBytes m.size) })

/-- R690 first condition: alignment and range. -/
def mapAligned (m : MapReq) : Bool :=
  m.high = 0 && m.space % 2 = 0 && decide (1 ≤ m.pages) && decide (m.pages ≤ 4096) && m.off % pageBytes m.size = 0 &&
  m.frame % pageBytes m.size = 0 && decide (m.off + mapSpan m ≤ 2 ^ 48) && !(m.migrate && m.space = 0)

/-- R690 third condition: bytes of a stack, or of a tier port's devices. -/
def mapRoom (s : State) (regions : List Nat) (m : MapReq) : Bool :=
  if m.space = 2 then
    (tierOf s m.loc).devices.any (fun d => decide (d.1 * 2 ^ 30 ≤ m.frame) && decide (m.frame + mapSpan m ≤ (d.1 + d.2) * 2 ^ 30))
  else
    stackExists s m.loc && regions.contains (regionOfStack m.loc) && !(s.caps.stacksOut.contains m.loc) &&
    decide (m.frame + mapSpan m ≤ stackPages s.fuses.ordering * 2 ^ 16)

/-- R690 fifth condition: a page retired from the stack. -/
def mapRetired (s : State) (m : MapReq) : Bool :=
  m.space = 0 && s.caps.pagesOut.any (fun p => p / 2 ^ 21 = m.loc &&
    decide (m.frame ≤ p % 2 ^ 21 * 2 ^ 16) && decide (p % 2 ^ 21 * 2 ^ 16 < m.frame + mapSpan m))

/-- A window that another slice holds. -/
def othersWindow (s : State) (h key : Nat) : Bool := (look? s.xlat.windows key).any (fun w => w.owner ≠ h)

/-- R690 seventh condition: a leaf of a larger page size holds one of the pages. -/
def withinLarger (s : State) (m : MapReq) : Bool :=
  s.xlat.leaves.any (fun l => l.space = m.space && decide (m.size < l.size) && overlaps l.off (pageBytes l.size) m.off (mapSpan m))

/-- R690: the first of the conditions in its order, but for the exhausted area; 0 for none. -/
def mapCode (s : State) (h : Nat) (m : MapReq) : Nat :=
  let l := look? s.slices h
  let regions := (l.map (·.regions)).getD []
  let tiers := (l.map (·.tiers)).getD []
  if !(mapAligned m) then 0x53
  else if m.space = 2 && !(tiers.contains m.loc) then 0x52
  else if !(mapRoom s regions m) then 0x51
  else if m.space = 0 && shedOf s (regionOfStack m.loc) = .dark then 0x58
  else if mapRetired s m then 0x55
  else if (rangeKeys m.space m.off (mapSpan m)).any (othersWindow s h) then 0x50
  else if withinLarger s m then 0x53
  else 0

/-- R482: rebuild several windows, each with its changes; none when an area is exhausted. -/
def rebuildAll (h : Nat) : List (Nat × List (Nat × Nat × Reg)) → State → Option State
  | [], s => some s
  | (key, c) :: t, s =>
    match rebuildWindow s h key c with
    | none => none
    | some s => rebuildAll h t s

/-- R607: host lines in the pages of some leaves. -/
def linesOf (s : State) (l : List Leaf) : List Nat := (l.flatMap (leafLines s)).eraseDups

/-- R486, R607: mappings have changed: `gone` are replaced, and the command waits for the old copies, the host and the
stack caches. -/
def settleMaps (s : State) (f k : Nat) (windows : List Nat) (gone : List Leaf) : State :=
  let ls := linesOf s gone
  let t := each windows (snoopAll (dropPages s gone) ls false 3 none) (fun w s => retireWindow s w)
  await t f k (.lines windows ls gone)

/-- R690: `mem.map`. -/
def mapPages (s : State) (f k : Nat) : State :=
  act s f k 0x0601 (fun r =>
    let m := mapReqOf r.payload
    let code := mapCode s r.handle m
    if code ≠ 0 then settle s f k code []
    else
      let windows := rangeKeys m.space m.off (mapSpan m)
      if !(windows.all (retired s)) then s
      else
        let made := newLeaves m
        let gone := s.xlat.leaves.filter (fun l => l.space = m.space && overlaps l.off (pageBytes l.size) m.off (mapSpan m))
        let changes := windows.map (fun w => (w, (made.filter (fun l => keyOf l.space l.off = w)).map (fun l => (l.off, l.size, l.entry))))
        match rebuildAll r.handle changes s with
        | none => settle s f k 0x56 []
        | some t =>
          let leaves := t.xlat.leaves.filter (fun l => !(gone.contains l)) ++ made
          settleMaps { t with xlat := { t.xlat with leaves := leaves } } f k windows gone)

/-- R690, R944: the code of a `mem.unmap`; 0 when it goes on. -/
def unmapCode (s : State) (h space off high length : Nat) : Nat :=
  let part (l : Leaf) : Bool := l.space = space && overlaps l.off (pageBytes l.size) off length &&
    !(decide (off ≤ l.off) && decide (l.off + pageBytes l.size ≤ off + length))
  if high = 0 && space % 2 = 0 && (rangeKeys space off (min length (2 ^ 48 - off))).any (othersWindow s h) then 0x50
  else if high ≠ 0 || space % 2 ≠ 0 || off % 2 ^ 16 ≠ 0 || length % 2 ^ 16 ≠ 0 || 2 ^ 48 < off + length || s.xlat.leaves.any part then 0x53
  else 0

/-- R690: `mem.unmap`. -/
def unmapPages (s : State) (f k : Nat) : State :=
  act s f k 0x0602 (fun r =>
    let a := natAt r.payload 0 8
    let length := natAt r.payload 8 8
    let code := unmapCode s r.handle (gaSpace a) (gaOff a) (bitsOf a 50 14) length
    if code ≠ 0 then settle s f k code []
    else
      let gone := s.xlat.leaves.filter (fun l => l.space = gaSpace a && overlaps l.off (pageBytes l.size) (gaOff a) length)
      let windows := (gone.map (fun l => keyOf l.space l.off)).eraseDups
      if !(windows.all (retired s)) then s
      else
        let changes := windows.map (fun w => (w, (gone.filter (fun l => keyOf l.space l.off = w)).map (fun l => (l.off, l.size, (0 : Reg)))))
        match rebuildAll r.handle changes s with
        | none => s
        | some t =>
          settleMaps { t with xlat := { t.xlat with leaves := t.xlat.leaves.filter (fun l => !(gone.contains l)) } } f k windows gone)

/-! ## Furelo's own accesses for a command, R347, R666 -/

/-- R666: the code of an access that goes nowhere; 0 when it may be made. -/
def reachCode : Reach → Nat
  | .ok _ _ => 0
  | .walk => 0x81
  | .fault c => c
  | .reject c => if c = 0x64 then 0x62 else c
  | .remote => 0x62
  | .dark _ => 0x58

/-- What a piece of a command's access came to: done, waiting for the host (R605), or failed with a code. -/
inductive Piece where
  | done (s : State)
  | wait (s : State)
  | fail (s : State) (code : Nat)

/-- R605, R606: n bytes at a, within a page, that Furelo may touch now, and where they lie. -/
def pieceAt (s : State) (a n : Nat) (write : Bool) : Piece × Nat :=
  let q := touch s .furelo a n write
  match q.2 with
  | .ok p _ =>
    let held := linesHeld q.1 a n write
    if held.isEmpty then (.done q.1, p) else (.wait (snoopAll q.1 held (!write) (if write then 1 else 0) (some .furelo)), p)
  | x => (.fail q.1 (reachCode x), 0)

/-- The next bytes of a range, cut at the page. -/
def pageLeft (a n : Nat) : Nat := min n (2 ^ 16 - a % 2 ^ 16)

/-- A 64-bit address some bytes further. -/
def addrAt (a n : Nat) : Nat := (a + n) % 2 ^ 64

/-- R347, R536: n bytes at an address of another module, read or written by a row of the command's slice: it waits for the row's
answer (DEDUCED, log entry 115). -/
def farPiece (s : State) (f k : Nat) (r : Running) (a n : Nat) (write : Bool) (data : List Byte) (pois : List Bool) :
    Piece × List Byte × List Bool :=
  match s.fabric.far.find? (fun g => g.frame = f && g.slot = k && g.addr = a && g.len = n && g.write = write) with
  | some g =>
    (match g.answer with
    | none => (.wait s, [], [])
    | some code =>
      let t := { s with fabric := { s.fabric with far := s.fabric.far.erase g } }
      if code ≠ 0 then (.fail t code, [], []) else (.done t, fit g.data n, spreadMask g.poison n))
  | none =>
    if !routed s r.handle (gaModule a) then (.fail s 0x62, [], [])
    else
      let q := addRequest s (if write then 0 else 1) .furelo (farTag s.fabric.nextReq) k 0
      let row := if write then mkRow q.2 0 (gaModule a) a data (wordMask pois) .furelo (farTag s.fabric.nextReq)
        else { mkRow q.2 1 (gaModule a) a (bytesOf 8 n) [] .furelo (farTag s.fabric.nextReq) with aux := BitVec.ofNat 32 q.1 }
      let g : Far := { frame := f, slot := k, id := s.fabric.nextReq, addr := a, len := n, write := write, answer := none, data := [], poison := [] }
      let t := { q.2 with fabric := { q.2.fabric with
        far := q.2.fabric.far ++ [g], requests := if write then s.fabric.requests else q.2.fabric.requests } }
      (.wait (sendRow t r.handle row), [], [])

/-- R347: n bytes at a, within a page, that a command reads. -/
def readPiece (s : State) (f k : Nat) (r : Running) (a n : Nat) : Piece × List Byte × List Bool :=
  if gaWhere s a = 1 then farPiece s f k r a n false [] []
  else match pieceAt s a n false with
    | (.done t, p) =>
      let b := readPieces t [(p, n)]
      (.done t, b.1, b.2)
    | (x, _) => (x, [], [])

/-- R347: bytes that a command writes at a, within a page; `whole` when they clear the poison of every word they touch (R512). -/
def writePiece (s : State) (f k : Nat) (r : Running) (a : Nat) (data : List Byte) (pois : List Bool) (whole : Bool) : Piece :=
  if gaWhere s a = 1 then (farPiece s f k r a data.length true data pois).1
  else match pieceAt s a data.length true with
    | (.done t, p) =>
      let t := writePieces [(p, data.length)] data pois t
      .done (if whole then { t with mem := clearWords t.mem p data.length } else t)
    | (x, _) => x

/-- R360: n bytes of a pattern from its byte `off`. -/
def patternBytes (pattern off n : Nat) : List Byte :=
  (List.range n).map (fun i => BitVec.ofNat 8 (pattern / 2 ^ (8 * ((off + i) % 8))))

/-! ## Filling and scrubbing, R691 -/

/-- R360, R512, R691: write a pattern over [a, a + total) from byte `done` on. Fuel counts the pages. -/
def fillFrom (f k : Nat) (r : Running) (a total pattern : Nat) : Nat → Nat → State → Nat × Piece
  | 0, done, s => (done, .done s)
  | fuel + 1, done, s =>
    if total ≤ done then (done, .done s)
    else
      let n := pageLeft (addrAt a done) (total - done)
      match writePiece s f k r (addrAt a done) (patternBytes pattern done n) [] true with
      | .done t => fillFrom f k r a total pattern fuel (done + n) t
      | x => (done, x)

/-- R691: how a command that reports the bytes it completed stands after its pieces. -/
def reportPieces (f k : Nat) (r : Running) (done : Nat) (x : Piece) : State :=
  match x with
  | .done s => settle s f k 0 (bytesOf 8 done)
  | .wait s => setRun s f k { r with progress := done }
  | .fail s code => settle s f k code (bytesOf 8 done)

/-- R691: `mem.fill`. -/
def fillMemory (s : State) (f k : Nat) : State :=
  act s f k 0x0603 (fun r =>
    let n := natAt r.payload 8 8
    let q := fillFrom f k r (natAt r.payload 0 8) n (natAt r.payload 16 8) (n / 2 ^ 16 + 2) r.progress s
    reportPieces f k r q.1 q.2)

/-- R691: a range in the slice's own mapped windows. -/
def ownRange (s : State) (h a n : Nat) : Bool :=
  gaWhere s a = 0 && gaSpace a % 2 = 0 && decide (gaOff a + n ≤ 2 ^ 48) &&
  (rangeKeys (gaSpace a) (gaOff a) n).all (fun w => (look? s.xlat.windows w).any (fun x => x.owner = h))

/-- R691, R512: `mem.scrub`. -/
def scrubMemory (s : State) (f k : Nat) : State :=
  act s f k 0x0606 (fun r =>
    let a := natAt r.payload 0 8
    let n := natAt r.payload 8 8
    if !(ownRange s r.handle a n) then settle s f k 0x21 (bytesOf 8 r.progress)
    else
      let q := fillFrom f k r a n 0 (n / 2 ^ 16 + 2) r.progress s
      reportPieces f k r q.1 q.2)

/-! ## Copying, R609, R610, R691 -/

/-- R689: what a `mem.copy` payload asks for. -/
structure CopyReq where
  src     : Nat
  dst     : Nat
  length  : Nat
  srcHost : Bool
  dstHost : Bool
  deriving DecidableEq, Repr

/-- R689. -/
def copyReqOf (l : List Byte) : CopyReq :=
  { src := natAt l 0 8, dst := natAt l 8 8, length := natAt l 16 8, srcHost := bitAt (natAt l 24 1) 0, dstHost := bitAt (natAt l 24 1) 1 }

/-- R609: bytes of an end that are touched at once: within a page, or, in host memory, within a line. -/
def endPiece (host : Bool) (a n : Nat) : Nat := if host then min n (64 - a % 64) else pageLeft a n

/-- R609: the bytes of a copy that are written next, from byte `done` on. -/
def copyPiece (q : CopyReq) (done : Nat) : Nat := endPiece q.dstHost (addrAt q.dst done) (q.length - done)

/-- R609: those of them that are read next, after `got` of them. -/
def copyRead (q : CopyReq) (done got : Nat) : Nat := endPiece q.srcHost (addrAt q.src (done + got)) (copyPiece q done - got)

/-- Send a host request and wait for its completion. -/
def askHost (s : State) (f k : Nat) (r : Running) (o : Out) : State :=
  setRun (emit s o) f k { r with wait := .host, at_ := look s.clocks.die 0 0 }

/-- R609: a write of a part of a line of host memory, or of all of it. -/
def hostPut (a : Nat) (data : List Byte) (poison : Bool) : Out :=
  if data.length = 64 then .itoMWr a data poison else .wrCur a data poison

/-- R691, R609, R371: go on with a copy: the bytes of a piece are read, then written together. Fuel counts the pieces. -/
def copyFrom (f k : Nat) (q : CopyReq) : Nat → Running → State → State
  | 0, _, s => s
  | fuel + 1, r, s =>
    if q.length ≤ r.progress then settle s f k 0 (bytesOf 8 r.progress)
    else
      let got := r.data.length
      let stopped (x : Piece) (on : State → State) : State := match x with
        | .done t => on t
        | .wait t => setRun t f k r
        | .fail t code => settle t f k code (bytesOf 8 r.progress)
      if got < copyPiece q r.progress then
        let a := addrAt q.src (r.progress + got)
        let n := copyRead q r.progress got
        if q.srcHost then askHost s f k r (.rdCurr a n)
        else
          let b := readPiece s f k r a n
          stopped b.1 (fun t => copyFrom f k q fuel { r with data := r.data ++ b.2.1, bad := r.bad ++ b.2.2 } t)
      else
        let d := addrAt q.dst r.progress
        if q.dstHost then askHost s f k r (hostPut d r.data (r.bad.any id))
        else stopped (writePiece s f k r d r.data r.bad false)
          (fun t => copyFrom f k q fuel { r with progress := r.progress + got, data := [], bad := [] } t)

/-- Pieces a copy between memories of the module may have. -/
def copyFuel (q : CopyReq) : Nat := q.length / 2 ^ 14 + 8

/-- R691: `mem.copy`. -/
def copyMemory (s : State) (f k : Nat) : State :=
  act s f k 0x0604 (fun r =>
    let q := copyReqOf r.payload
    copyFrom f k q (copyFuel q) r s)

/-- R609, R610: the completion of a host request: its data and which of its words are poisoned. -/
def hostAnswers (s : State) (f k : Nat) (data : List Byte) (poison : List Nat) : State :=
  match runAs s f k 0x0604 with
  | none => s
  | some r =>
    let q := copyReqOf r.payload
    let got := r.data.length
    let go (r : Running) : State := copyFrom f k q (copyFuel q) { r with wait := .unstarted } s
    if r.wait ≠ .host then s
    else if got < copyPiece q r.progress then
      let n := copyRead q r.progress got
      go { r with data := r.data ++ fit data n, bad := r.bad ++ (List.range n).map (fun i => poison.contains (i / 8)) }
    else go { r with progress := r.progress + got, data := [], bad := [] }

/-- R610: no completion within 10 ms. -/
def hostTimesOut (s : State) (f k : Nat) : State :=
  match runAs s f k 0x0604 with
  | none => s
  | some r =>
    if r.wait = .host && windowOver (look s.clocks.die 0 0) r.at_ (10 * ticksPerMs) then settle s f k 0x57 (bytesOf 8 r.progress) else s

/-! ## Digests and poison, R692, R693 -/

/-- R692: n bytes at a that Furelo reads, over pages: none with a state while the host holds a line, or a code. -/
def readRange : List (Nat × Nat) → State → Piece × List Byte × List Bool
  | [], s => (.done s, [], [])
  | (a, n) :: t, s =>
    match pieceAt s a n false with
    | (.done s, p) =>
      let b := readPieces s [(p, n)]
      let q := readRange t s
      (q.1, b.1 ++ q.2.1, b.2 ++ q.2.2)
    | (x, _) => (x, [], [])

/-- R692: a tile header that a command reads: over pages of this module, or by one row of another. -/
def readHeader (s : State) (f k : Nat) (r : Running) (a : Nat) : Piece × List Byte × List Bool :=
  if gaWhere s a = 1 then farPiece s f k r a 32 false [] [] else readRange (pageCuts a 32) s

/-- R692: the check fields of `left` tiles from tile i on, with how many were read and how it ended. -/
def digestFrom (f k : Nat) (r : Running) (first stride : Nat) : Nat → Nat → State → List Byte × Nat × Piece
  | 0, i, s => ([], i, .done s)
  | left + 1, i, s =>
    match readHeader s f k r (addrAt first (i * stride)) with
    | (.done t, data, pois) =>
      if pois.any id then ([], i, .fail t 0x8F)
      else
        let q := digestFrom f k r first stride left (i + 1) t
        (sub data 24 4 ++ q.1, q.2)
    | (x, _, _) => ([], i, x)

/-- R692: `mem.digest`. -/
def digestTiles (s : State) (f k : Nat) : State :=
  act s f k 0x0605 (fun r =>
    let q := digestFrom f k r (natAt r.payload 0 8) (natAt r.payload 8 8) (natAt r.payload 16 4 - r.progress) r.progress s
    let data := r.data ++ q.1
    match q.2.2 with
    | .done t => settle t f k 0 (bytesOf 8 q.2.1 ++ sha384 data)
    | .wait t => setRun t f k { r with progress := q.2.1, data := data }
    | .fail t code => settle t f k code (if code = 0x8F then bytesOf 8 q.2.1 else []))

/-- R693: which 8-byte words of n bytes at an aligned address are poisoned, or how finding out ended. -/
def poisonPiece (s : State) (f k : Nat) (r : Running) (a n : Nat) : Piece × List Bool :=
  if gaWhere s a = 1 then
    let q := farPiece s f k r a n false [] []
    (q.1, wordMask q.2.2)
  else
    let q := touch s .furelo a n false
    match q.2 with
    | .ok p _ => (.done q.1, (List.range (n / 8)).map (fun i => poisoned q.1.mem (p + 8 * i) 8))
    | x => (.fail q.1 (reachCode x), [])

/-- R693: the poisoned words of pieces of a range, as global addresses, with the bytes covered and how it ended. -/
def poisonedWords (f k : Nat) (r : Running) : List (Nat × Nat) → Nat → State → List Nat × Nat × Piece
  | [], done, s => ([], done, .done s)
  | (a, n) :: t, done, s =>
    match poisonPiece s f k r a n with
    | (.done s, l) =>
      let q := poisonedWords f k r t (done + n) s
      ((l.zipIdx.filter (·.1)).map (fun e => addrAt a (8 * e.2)) ++ q.1, q.2)
    | (x, _) => ([], done, x)

/-- R693: `mem.poison.query`. -/
def queryPoison (s : State) (f k : Nat) : State :=
  act s f k 0x0607 (fun r =>
    let a := natAt r.payload 0 8
    let n := natAt r.payload 8 8
    let first := a / 8 * 8
    let total := if n = 0 then 0 else roundUp (a % 8 + n) 8
    let q := poisonedWords f k r (pageCuts (addrAt first r.progress) (total - r.progress)) r.progress s
    let found := r.data ++ (q.1.map (bytesOf 8)).flatten
    match q.2.2 with
    | .done t => settle t f k 0 (paged (pieces 8 found) (natAt r.payload 16 4) 8)
    | .wait t => setRun t f k { r with progress := q.2.1, data := found }
    | .fail t code => settle t f k code [])

/-! ## The commands -/

/-- `mem.map`, R690. -/
def execMemMap (frame slot : Nat) (s : State) : Host.Outcome State Fault Refusal := .next (mapPages s frame slot)
/-- `mem.unmap`, R690. -/
def execMemUnmap (frame slot : Nat) (s : State) : Host.Outcome State Fault Refusal := .next (unmapPages s frame slot)
/-- `mem.fill`, R691. -/
def execMemFill (frame slot : Nat) (s : State) : Host.Outcome State Fault Refusal := .next (fillMemory s frame slot)
/-- `mem.copy`, R691. -/
def execMemCopy (frame slot : Nat) (s : State) : Host.Outcome State Fault Refusal := .next (copyMemory s frame slot)
/-- `mem.digest`, R692. -/
def execMemDigest (frame slot : Nat) (s : State) : Host.Outcome State Fault Refusal := .next (digestTiles s frame slot)
/-- `mem.scrub`, R691. -/
def execMemScrub (frame slot : Nat) (s : State) : Host.Outcome State Fault Refusal := .next (scrubMemory s frame slot)
/-- `mem.poison.query`, R693. -/
def execMemPoisonQuery (frame slot : Nat) (s : State) : Host.Outcome State Fault Refusal := .next (queryPoison s frame slot)
/-- A host request of `mem.copy` completes, R610. -/
def execHostRequestCompletion (frame slot : Nat) (data : List Byte) (poison : List Nat) (s : State) :
    Host.Outcome State Fault Refusal := .next (hostAnswers s frame slot data poison)
/-- A host request of `mem.copy` times out, R610. -/
def execHostRequestTimeout (frame slot : Nat) (s : State) : Host.Outcome State Fault Refusal := .next (hostTimesOut s frame slot)

end Sys2Proof.Machine
end

