-- ==== Sys2Proof/Machine/FabCmds.lean ====
section
/-! DEFINITION. The commands of the fabric and of admission (13_commands.md R694 to R697, R704 to R707). -/

namespace Sys2Proof.Machine

/-! ## Joining, R528, R529, R532, R694 -/

/-- R694: the valid entries of a membership table: member index and module ID. -/
def memberTable (ws : List Nat) : Tab Nat := ws.zipIdx.filterMap (fun e => if bitAt e.1 14 then some (e.2, e.1 % 2 ^ 14) else none)

/-- R529: a module appears at most once, and the member's own entry names its own module. -/
def tableGood (t : Tab Nat) (member module : Nat) : Bool :=
  (t.map (·.2)).eraseDups.length = t.length && look? t member = some module

/-- R694: what a `fab.join` asks of one port: the port, its member index, its table and its measured loopback delay. -/
structure Joining where
  port   : Nat
  member : Nat
  table  : Tab Nat
  delay  : Nat
  deriving DecidableEq, Repr

/-- R694: the port entries of a payload, ascending. -/
def joiningOf (l : List Byte) (loopback : List Nat) : List Joining :=
  (maskPorts (bitsOf (natAt l 0 8) 16 16)).zipIdx.map (fun e =>
    { port := e.1, member := natAt l (48 + 72 * e.2) 1, table := memberTable (halves l (56 + 72 * e.2) 32)
      delay := loopback.getD e.2 0 })

/-- R694: the code of a `fab.join` that joins no port; 0 when it goes on. -/
def joinCode (s : State) (module : Nat) (key : List Byte) (l : List Joining) : Nat :=
  let on := joinedPorts s
  if (!on.isEmpty && (s.fabric.moduleId ≠ module || s.fabric.key ≠ key)) || l.any (fun j => on.contains j.port) then 0x60
  else if l.any (fun j => decide (32 ≤ j.member) || !(tableGood j.table j.member module)) then 0x61
  else 0

/-- R524, R694: why one port cannot join; 0 when it can. -/
def portCode (s : State) (j : Joining) : Nat :=
  if 1000 < j.delay then 0x63
  else if !(portEnabled s.fuses.ordering j.port) || s.caps.portsOut.contains j.port then 0x64
  else 0

/-- R528, R532: a port joins. -/
def joinPort (s : State) (j : Joining) : State :=
  setPort s j.port { RolPort.fresh with
    joined := true, member := j.member, table := j.table, loopback := j.delay, joinAt := portNow s j.port
    quiet := s.power.refLost }

/-- R694: the ports join one after another until one fails. -/
def joinAll : List Joining → State → Nat × State
  | [], s => (0, s)
  | j :: t, s => if portCode s j ≠ 0 then (portCode s j, s) else joinAll t (joinPort s j)

/-- R694: the response: of the ports named, those joined, then the loopback delay of each. -/
def joinBytes (s : State) (ports : List Nat) : List Byte :=
  bytesOf 8 (setMask (ports.filter (fun p => (portOf s p).joined))) ++ (ports.map (fun p => bytesOf 4 (portOf s p).loopback)).flatten

/-- R694: `fab.join`. -/
def joinFabric (s : State) (f k : Nat) (loopback : List Nat) : State :=
  act s f k 0x0701 (fun r =>
    let module := bitsOf (head8 r) 0 14
    let key := sub r.payload 16 32
    let l := joiningOf r.payload loopback
    let code := joinCode s module key l
    if code ≠ 0 then settle s f k code []
    else
      let q := joinAll l { s with fabric := { s.fabric with moduleId := module, key := key, domain := domainTag key } }
      let t := leaveDomain q.2
      let resp := joinBytes t (l.map (·.port))
      if q.1 ≠ 0 then settle t f k q.1 resp
      else setRun t f k { r with wait := .idle (l.map (·.port)), resp := resp })

/-! ## Leaving, R533, R695 -/

/-- R695: `fab.leave`. -/
def leaveFabric (s : State) (f k : Nat) : State :=
  act s f k 0x0702 (fun r =>
    let ports := maskPorts (bitsOf (head8 r) 0 16)
    if ports.any (fun p => !(portOf s p).joined) then settle s f k 0x64 []
    else await (leavePorts s ports) f k (.left ports))

/-! ## Members, R530, R696 -/

/-- R696: the response of `fab.members`. -/
def membersBytes (p : RolPort) : List Byte :=
  ((List.range 32).map (fun i => bytesOf 2 ((look? p.table i).elim 0 (fun m => m % 2 ^ 14 + 2 ^ 14)))).flatten ++
  fit ((p.strangers.map (fun x => bytesOf 16 (x.module % 2 ^ 14 + x.tag.toNat * 2 ^ 32 + x.member % 32 * 2 ^ 64 +
    x.count % 2 ^ 32 * 2 ^ 96))).flatten) 256

/-- R696, R529, R944: the code of a `fab.members`; 0 when it goes on. -/
def membersCode (s : State) (f : Nat) (r : Running) (replace : Bool) : Nat :=
  let p := bitsOf (head8 r) 0 4
  let t := memberTable (halves r.payload 8 32)
  let own := (look? s.slices r.handle).elim [] (·.ports)
  if f ≠ 0 && !(own.contains p) then 0x21
  else if replace && ((t.map (·.2)).eraseDups.length ≠ t.length ||
      ((portOf s p).joined && !(tableGood t (portOf s p).member s.fabric.moduleId))) then 0x61
  else if !(portOf s p).joined then 0x64
  else 0

/-- R696: `fab.members` that reads, or that replaces the table at the port's next idle edge. -/
def portMembers (s : State) (f k : Nat) (replace : Bool) : State :=
  act s f k 0x0703 (fun r =>
    let p := bitsOf (head8 r) 0 4
    let code := membersCode s f r replace
    if bitAt (head8 r) 8 ≠ replace then s
    else if code ≠ 0 then settle s f k code []
    else if replace then
      await (setPort s p { portOf s p with nextTable := some (memberTable (halves r.payload 8 32)) }) f k (.idle [p])
    else settle s f k 0 (membersBytes (portOf s p)))

/-- R530, R532: a port has seen its idle edge and no table waits for one. -/
def edgePassed (p : RolPort) : Bool := p.edgeSeen && p.nextTable.isNone

/-! ## Routes, R534 to R538, R697 -/

/-- R536: the route table a frame writes: the relay table, or its slice's own. -/
def routeTabOf (s : State) (f h : Nat) : RouteTab := if f = 0 then s.fabric.relay else originTab s h

/-- Replace it. -/
def setRouteTab (s : State) (f h : Nat) (t : RouteTab) : State :=
  if f = 0 then { s with fabric := { s.fabric with relay := t } }
  else match look? s.slices h with
    | none => s
    | some l => setSlice s h { l with origin := t }

/-- R697: an entry that may be written. -/
def routeGood (s : State) (f h index e : Nat) : Bool :=
  decide (index < 2 ^ 14) && (!(frValid e) ||
    (frHops e ≠ 0 && (portOf s (frPort e)).joined && (f = 0 || ((look? s.slices h).elim [] (·.ports)).contains (frPort e))))

/-- R697: write entries until one is refused; the Bool says that none was. -/
def writeRoutes (s : State) (f h : Nat) : Nat → List Nat → Tab (BitVec 16) → Bool × Tab (BitVec 16)
  | _, [], t => (true, t)
  | i, e :: l, t =>
    if !(routeGood s f h i e) then (false, t)
    else writeRoutes s f h (i + 1) l (if e = 0 then cut t i else put t i (BitVec.ofNat 16 e))

/-- R568: an entry that names a port out of service or not joined. -/
def routeDead (s : State) (e : Nat) : Bool :=
  frValid e && (s.caps.portsOut.contains (frPort e) || !(portOf s (frPort e)).joined)

/-- R535, R547: the trains being assembled: port, and when the first row was queued. -/
def assembling (s : State) : List (Nat × Nat) :=
  s.fabric.ports.filterMap (fun e => (e.2.queue.head?).map (fun r => (e.1, r.queuedAt)))

/-- R457, R535: the swap; the trains that are being assembled are bound to the old copy (DESIGN CHOICE, log entry 115). -/
def swapRoutes (s : State) (t : RouteTab) : RouteTab :=
  { t with active := t.shadow, shadow := t.active, fresh := false, users := assembling s }

/-- R457, R535: the old copy of a table has not retired: a train that was being assembled at its swap still is. -/
def tabBusy (s : State) (t : RouteTab) : Bool := t.users.any (assembling s).contains

/-- R457: the old copy has retired: the override entries that the new one covers are cleared. -/
def retireTab (s : State) (t : RouteTab) : RouteTab :=
  { t with users := [], detour := t.detour.filter (fun e => routeDead s (look t.active e.1 0).toNat) }

/-- R567: the pairs whose member's route a swap changed are no longer lost. -/
def findAgain (s : State) (old new : RouteTab) : State :=
  let f (p : RolPort) : RolPort := { p with
    lost := p.lost.filter (fun m => (look? p.table m).all (fun d => routeEntry old d = routeEntry new d)) }
  { s with fabric := { s.fabric with ports := s.fabric.ports.map (fun (e : Nat × RolPort) => (e.1, f e.2)) } }

/-- R697: `fab.route.set`; it waits for the retirement of an earlier swap, and completes at that of its own. -/
def setRoutes (s : State) (f k : Nat) : State :=
  act s f k 0x0704 (fun r =>
    let w := head8 r
    let old := routeTabOf s f r.handle
    if tabBusy s old then s
    else
      let old := if old.users.isEmpty then old else retireTab s old
      let base := if old.fresh then old.shadow else old.active
      let q := writeRoutes s f r.handle (bitsOf w 0 14) (halves r.payload 8 (bitsOf w 16 12)) base
      let t := { old with shadow := q.2, fresh := true }
      if !q.1 then settle (setRouteTab s f r.handle t) f k 0x66 []
      else if !(bitAt w 32) then settle (setRouteTab s f r.handle t) f k 0 []
      else
        let new := swapRoutes s t
        await (resumeFenced (findAgain (setRouteTab s f r.handle new) old new)) f k .routes)

/-- R697: the old copy of the table that a `fab.route.set` swapped has retired. -/
def afterSwap (s : State) (f k : Nat) (r : Running) : State :=
  let t := routeTabOf s f r.handle
  if tabBusy s t then s else settle (setRouteTab s f r.handle (retireTab s t)) f k 0 []

/-! ## Admission, R704 to R707, R801 -/

/-- R704: the stage of a slice's admission. -/
def stageOf (s : State) (h : Nat) : Nat := look s.sup.admitted h 0

/-- Replace it. -/
def setStage (s : State) (h n : Nat) : State := { s with sup := { s.sup with admitted := put s.sup.admitted h n } }

/-- R705, R754, R759: the packs or the known-answer runs of `admit.prepare` failed: the module drains. -/
def prepareFails (s : State) (h : Nat) : State :=
  let r := ((look? s.slices h).elim [] (·.regions)).headD 0
  drain (setSelfTest (detect s (elCtrl r) 0x13 false 0) false) 0x13

/-- R705, R801: `admit.prepare`, whose runs passed or failed after some seconds. -/
def admitPrepare (s : State) (f k : Nat) (passed : Bool) (seconds : Nat) : State :=
  act s f k 0x0A01 (fun r =>
    let h := r.handle
    if (look? s.slices h).isNone then settle s f k 5 []
    else if stageOf s h ≠ 0 || slotsUsed s h ≠ 0 then settle s f k 0x78 []
    else if s.nv.drained then settle s f k 0x79 (bytesOf 8 0)
    else if passed then settle (setStage (setSelfTest s true) h 1) f k 0 (bytesOf 8 seconds)
    else settle (prepareFails s h) f k 0x79 (bytesOf 8 seconds))

/-- R706: the ranges of an `admit.load`: remote source, local destination and bytes. -/
def loadRanges (l : List Byte) : List (Nat × Nat × Nat) :=
  (List.range (natAt l 4 1)).map (fun i => (natAt l (8 + 32 * i) 8, natAt l (16 + 32 * i) 8, natAt l (24 + 32 * i) 8))

/-- R706: a range whose destination the slice does not hold. -/
def rangeOutside (s : State) (h : Nat) (e : Nat × Nat × Nat) : Bool := e.2.2 ≠ 0 && !(ownRange s h e.2.1 e.2.2)

/-- R706, R665: the load that a command continues, or a new one. -/
def loadFor (s : State) (h : Nat) (l : List (Nat × Nat × Nat)) : AdmitLoad :=
  match admitOf s h with
  | some a => if a.all_ = l then a else { handle := h, ranges := l.filter (fun e => e.2.2 ≠ 0), done := 0, all_ := l, out := none }
  | none => { handle := h, ranges := l.filter (fun e => e.2.2 ≠ 0), done := 0, all_ := l, out := none }

/-- R706, R567: every pair that could reach the source of the next range is lost. -/
def loadCut (s : State) (a : AdmitLoad) : Bool := (a.ranges.head?).any (fun e => (admitPorts s a.handle (gaModule e.1)).isEmpty)

/-- R704, R706, R944: the code of an `admit.load`; 0 when it goes on. -/
def loadCode (s : State) (h : Nat) (l : List (Nat × Nat × Nat)) : Nat :=
  if (look? s.slices h).isNone then 5
  else if l.any (rangeOutside s h) then 0x21
  else if !((look? s.slices h).elim [] (·.ports)).any (fun p => (portOf s p).joined) then 0x64
  else if stageOf s h ≠ 1 || slotsUsed s h ≠ 0 then 0x78
  else if loadCut s (loadFor s h l) then 0x7A
  else 0

/-- R706: `admit.load`: it begins or continues its reads. -/
def admitLoad (s : State) (f k : Nat) : State :=
  match (runAs s f k 0x0A02).filter (fun r => r.wait = .fabric || (due s f k 0x0A02).isSome) with
  | none => s
  | some r =>
    if r.wait = .fabric then admitSend s r.handle
    else
      let l := loadRanges r.payload
      let a := loadFor s r.handle l
      let code := loadCode s r.handle l
      if code = 0x7A then settle (setAdmit s a) f k code (bytesOf 8 a.done)
      else if code ≠ 0 then settle s f k code []
      else await (admitSend (setAdmit s a) r.handle) f k .fabric

/-- R706: an `admit.load` that has all its bytes completes; one whose every pair is lost completes with 0x7A. -/
def loadEnds (s : State) (f k : Nat) (r : Running) : State :=
  match admitOf s r.handle with
  | none => settle s f k 5 []
  | some a =>
    if a.ranges.isEmpty then settle (setStage s r.handle 2) f k 0 (bytesOf 8 a.done)
    else if loadCut s a then settle s f k 0x7A (bytesOf 8 a.done)
    else s

/-- R704: a slot of a slice that is READY, RUNNING or BLOCKED, on its cores or saved out. -/
def sliceActive (s : State) (h : Nat) : Bool :=
  let busy (co : Core) : Bool := co.slots.any (fun v => activeState v.2.state)
  (sliceCores s h).any (fun c => busy (coreOf s c)) || (groupsOf s h).any (fun g => g.saved.any (fun c => busy c.2))

/-- R803: a fence left too few cores for a configured region. -/
def coresLacking (s : State) (h config : Nat) : Bool :=
  (confSlots s h config).any (fun e => (slotOf s e.1 e.2).state = .faulted && (slotOf s e.1 e.2).faultCause = 0xA1)

/-- R704, R707, R803, R944: the code of an `admit.commit`; 0 when it goes on. -/
def commitStage (s : State) (h config : Nat) : Nat :=
  if (look? s.slices h).isNone then 5
  else if (carrying s h config).isEmpty || coresLacking s h config then 0x46
  else if stageOf s h ≠ 2 || sliceActive s h then 0x78
  else 0

/-- R707: `admit.commit` begins to read the partner's barrier. -/
def admitCommit (s : State) (f k : Nat) : State :=
  act s f k 0x0A03 (fun r =>
    let code := commitStage s r.handle (bitsOf (head8 r) 32 32)
    if code ≠ 0 then settle s f k code []
    else setRun s f k { r with wait := .barrier, progress := 0, at_ := s.clocks.sup })

/-- R707: the partner's barrier has moved on: the configured region starts. -/
def admitStart (s : State) (f k : Nat) (r : Running) : State :=
  let config := bitsOf (head8 r) 32 32
  let code := if coresLacking s r.handle config then 0x46 else startCode s r.handle config
  if confMoving s r.handle config then s
  else if code ≠ 0 then settle s f k code []
  else settle (startConf (setStage s r.handle 3) r.handle config) f k 0 []

/-- R707: a read of the partner's barrier, every 100 µs, answers with a status and a phase. -/
def pollBarrier (s : State) (f k : Nat) (status phase : Nat) : State :=
  match (runAs s f k 0x0A03).filter (fun r => r.wait = .barrier && windowOver s.clocks.sup r.at_ (100 * ticksPerUs)) with
  | none => s
  | some r =>
    let n := if status = 5 then r.progress + 1 else 0
    let t := setRun s f k { r with progress := n, at_ := s.clocks.sup }
    if 100 ≤ n then settle t f k 0x7A []
    else if status = 0 && phase ≠ bitsOf (natAt r.payload 14 2) 0 16 then admitStart t f k r
    else t

/-! ## The commands -/

/-- `fab.join`, R694. -/
def execFabJoin (frame slot : Nat) (loopback : List Nat) (s : State) : Host.Outcome State Fault Refusal :=
  .next (joinFabric s frame slot loopback)
/-- `fab.leave`, R695. -/
def execFabLeave (frame slot : Nat) (s : State) : Host.Outcome State Fault Refusal := .next (leaveFabric s frame slot)
/-- `fab.members` with replace = 0, R696. -/
def execFabMembersRead (frame slot : Nat) (s : State) : Host.Outcome State Fault Refusal := .next (portMembers s frame slot false)
/-- `fab.members` with replace = 1, R696. -/
def execFabMembersReplace (frame slot : Nat) (s : State) : Host.Outcome State Fault Refusal := .next (portMembers s frame slot true)
/-- `fab.route.set`, R697. -/
def execFabRouteSet (frame slot : Nat) (s : State) : Host.Outcome State Fault Refusal := .next (setRoutes s frame slot)
/-- `admit.prepare`, R705. -/
def execAdmitPrepare (frame slot : Nat) (passed : Bool) (seconds : Nat) (s : State) : Host.Outcome State Fault Refusal :=
  .next (admitPrepare s frame slot passed seconds)
/-- `admit.load`, R706. -/
def execAdmitLoad (frame slot : Nat) (s : State) : Host.Outcome State Fault Refusal := .next (admitLoad s frame slot)
/-- `admit.commit`, R707. -/
def execAdmitCommit (frame slot : Nat) (s : State) : Host.Outcome State Fault Refusal := .next (admitCommit s frame slot)
/-- A read of the partner's barrier, R707. -/
def execAdmitBarrierPoll (frame slot : Nat) (status phase : Nat) (s : State) : Host.Outcome State Fault Refusal :=
  .next (pollBarrier s frame slot status phase)

end Sys2Proof.Machine
end

