-- ==== Sys2Proof/Machine/HealthCmds.lean ====
section
/-! DEFINITION. The commands of health: the checking mode, the healing policy, fences by command and rehearsal
(13_commands.md R698 to R701, 15_healing.md R766, R773 to R775, R804). -/

namespace Sys2Proof.Machine

/-! ## The checking mode, R698, R740 -/

/-- R740: the twins of a slice are released. -/
def releaseTwins (s : State) (h : Nat) : State :=
  let drop (k : Nat) (v : Slot) : Slot := if v.primary.isSome then emptied k v else { v with twin := none, twinWait := [] }
  let s := each (sliceCores s h) s (fun c s => each (keys (coreOf s c).slots) s (fun k s =>
    let v := slotOf s c k
    if v.state = .empty then s
    else if v.primary.isSome then resetOne s c k
    else onSlot s c k (fun v => { v with twin := none, twinWait := [] })))
  let s := onGroups s h (fun g => { g with
    saved := g.saved.map (fun (e : Nat × Core) => (e.1, { e.2 with slots := e.2.slots.map (fun (v : Nat × Slot) => (v.1, drop v.1 v.2)) })) })
  regroup s h

/-- A slice's checking mode is set. -/
def setMode (s : State) (h mode : Nat) : State :=
  match look? s.slices h with
  | none => s
  | some l =>
    let t := if l.mode = 2 && mode ≠ 2 then releaseTwins s h else s
    match look? t.slices h with
    | none => t
    | some l => setSlice t h { l with mode := mode }

/-- R698: `check.mode`. -/
def checkMode (s : State) (f k : Nat) : State :=
  act s f k 0x0801 (fun r =>
    let mode := bitsOf (head8 r) 0 2
    if f = 0 then settle { s with sup := { s.sup with checkDefault := mode } } f k 0 []
    else if sliceActive s r.handle then settle s f k 0x70 []
    else settle (setMode s r.handle mode) f k 0 [])

/-! ## The healing policy, R699 -/

/-- R699. -/
def policyOf (w : Nat) : HealPolicy := { auto := bitAt w 0, hold := bitAt w 1, limit := bitsOf w 8 8 }

/-- R699: `heal.policy`. -/
def healPolicy (s : State) (f k : Nat) : State :=
  act s f k 0x0804 (fun r =>
    let p := policyOf (head8 r)
    if f = 0 then settle { s with sup := { s.sup with healDefault := p } } f k 0 []
    else match look? s.slices r.handle with
      | none => settle s f k 5 []
      | some l => settle (setSlice s r.handle { l with heal := p }) f k 0 [])

/-! ## Fencing and clearing by command, R700, R766, R773 to R775 -/

/-- R671: a record from its 32 bytes. -/
def recordFrom (l : List Byte) : DefectRec :=
  let r := natOf (l.take 32)
  { element := bitsOf r 0 4, origin := bitsOf r 4 2, cause := bitsOf r 8 8, id := bitsOf r 16 48, stampRegion := bitsOf r 64 6
    stamp := bitsOf r 128 64, sig := [] }

/-- The element a record names. -/
def elementOf (d : DefectRec) : Element := { kind := d.element, id := d.id }

/-- R766, R774, R807: a fence about to be made by command or by a signed update is no injection's. -/
def noteHostFence (s : State) (el : Element) : State :=
  if s.nv.fenceBits.contains el then s else { s with nv := { s.nv with hostFences := s.nv.hostFences ++ [el] } }

/-- R700, R766: `fence.set` with operation 0. -/
def fenceByHost (s : State) (f k : Nat) : State :=
  act s f k 0x0803 (fun r =>
    if bitsOf (head8 r) 0 8 ≠ 0 then s
    else
      let d := recordFrom (r.payload.drop 8)
      settle (fenceAny (noteHostFence s (elementOf d)) (elementOf d) 1 d.cause) f k 0 [])

/-- R775: a fenced tier port is retrained, to the width and rate of `link`, and its devices are enumerated; a link that does not
come up (R585) fences it again. -/
def clearTier (s : State) (port : Nat) (link : Option (Nat × Nat)) (devices : List Nat) : State :=
  if !(tierOf s port).fenced then s
  else
    let t := backInService s { kind := 6, id := port }
    let t := setTier t port { tierOf t port with fenced := false }
    let up := link.any tierLinkGood
    let t := startTier t port (link.getD (0, 0)) (if up then devices else []) [] true
    tierChanged s (if up then t else tierFails t port) port

/-- R773: the records of an update's body (log entry 20: their count at its issue in 8 bytes, then the records). -/
def updateRecords (body : List Byte) : List DefectRec :=
  (List.range ((body.length - 8) / 32)).map (fun i => recordFrom (body.drop (8 + 32 * i)))

/-- R773: a record an update may hold. -/
def updateGood (s : State) (body : List Byte) : Bool :=
  decide (8 ≤ body.length) && body.length % 32 = 8 && (updateRecords body).all (fun d =>
    (d.origin = 2 || d.origin = 3) && elementNamed s (elementOf d))

/-- R773: the code of a complete update; 0 when it is accepted. -/
def updateCode (s : State) (l : List Byte) : Nat :=
  let code := envelopeCode s 3 l
  if code ≠ 0 then code
  else if !(updateGood s (envelopeOf l).body) then 0x23
  else if natAt (envelopeOf l).body 0 8 ≠ (allRecords s).length then 0x72
  else 0

/-- R774: a record of an accepted update. -/
def applyRecord (s : State) (d : DefectRec) : State :=
  let el := elementOf d
  let t := addRecord s d
  if d.origin = 3 then fenceAny (noteHostFence t el) el 3 d.cause
  else if el.kind = 6 then
    let u := backInService t el
    tierChanged s (setTier u el.id { tierOf u el.id with fenced := false }) el.id
  else backInService t el

/-- R774. -/
def applyUpdate (s : State) (body : List Byte) : State := each (updateRecords body) s (fun d s => applyRecord s d)

/-- R700, R773 to R775, R848: `fence.set` with operation 1. -/
def clearByHost (s : State) (f k : Nat) (link : Option (Nat × Nat)) (devices : List Nat) : State :=
  act s f k 0x0803 (fun r =>
    let w := head8 r
    let el := elementOf (recordFrom (r.payload.drop 8))
    let chunk := r.payload.drop 40
    if bitsOf w 0 8 ≠ 1 then s
    else if el.kind = 6 then settle (clearTier s el.id link devices) f k 0 []
    else if chunk.isEmpty && (gathered_ s 0x0803).bytes.isEmpty then settle s f k 0x72 []
    else match takeChunk s 0x0803 (bitsOf w 16 32) chunk with
      | none => settle (setGather s 0x0803 none) f k 3 []
      | some (g, t) =>
        if !(bitAt w 8) then settle t f k 0 []
        else
          let code := updateCode t g.bytes
          let t := countEnvelope (setGather t 0x0803 none) (if code = 0x23 then 0x23 else 0)
          if code ≠ 0 then settle (bump t ctrModUpdatesRefused 0 1) f k code []
          else settle (bump (applyUpdate t (envelopeOf g.bytes).body) ctrModUpdates 0 1) f k 0 [])

/-! ## Rehearsal, R701, R804 -/

/-- R701: the injections of a plan; repetitions of 0 stand for one. -/
def plannedOf (s : State) (l : List Byte) : List Injection :=
  (List.range (natAt l 0 1)).map (fun i =>
    let e := natAt l (8 + 16 * i) 16
    { cls := bitsOf e 0 8, unit := bitsOf e 8 8, id := bitsOf e 16 32, delay := bitsOf e 64 16, left := max 1 (bitsOf e 80 16)
      dueAt := s.clocks.sup + bitsOf e 64 16 * ticksPerMs, live := false })

/-- R804: a class and target that may be injected. -/
def plannable (s : State) (j : Injection) : Bool := injectClasses.contains (j.cls, j.unit) && unitExists s j.unit j.id

/-- R701: `inject.plan`. -/
def planInjections (s : State) (f k : Nat) : State :=
  act s f k 0x0805 (fun r =>
    let l := plannedOf s r.payload
    if !(l.all (plannable s)) then settle s f k 0x71 []
    else settle { s with sup := { s.sup with injections := s.sup.injections ++ l } } f k 0 [])

/-! ## The commands -/

/-- `check.mode`, R698. -/
def execCheckMode (frame slot : Nat) (s : State) : Host.Outcome State Fault Refusal := .next (checkMode s frame slot)
/-- `fence.set` with operation 0, R700, R766. -/
def execFenceSet (frame slot : Nat) (s : State) : Host.Outcome State Fault Refusal := .next (fenceByHost s frame slot)
/-- `fence.set` with operation 1, R700, R773 to R775. -/
def execFenceClear (frame slot : Nat) (link : Option (Nat × Nat)) (devices : List Nat) (s : State) : Host.Outcome State Fault Refusal :=
  .next (clearByHost s frame slot link devices)
/-- `heal.policy`, R699. -/
def execHealPolicy (frame slot : Nat) (s : State) : Host.Outcome State Fault Refusal := .next (healPolicy s frame slot)
/-- `inject.plan`, R701. -/
def execInjectPlan (frame slot : Nat) (s : State) : Host.Outcome State Fault Refusal := .next (planInjections s frame slot)

end Sys2Proof.Machine
end

