-- ==== Sys2Proof/Machine/Completion.lean ====
section
/-! DEFINITION. When what a command waits for has happened, and its completion (12_mailbox.md R648, R651). -/

namespace Sys2Proof.Machine

/-- R686: `ctx.stop`: no slot of the configured region is stopping any more. -/
def afterStop (s : State) (f k config : Nat) (r : Running) : State :=
  if stillStopping s r.handle config = 0 then settle s f k 0 (bytesOf 8 r.progress) else s

/-- R687: `ctx.save`: the group is saved out, or its save failed. -/
def afterSave (s : State) (f k config : Nat) (r : Running) : State :=
  match groupHolding s r.handle config with
  | none => settle s f k 0x4A []
  | some (_, g) =>
    if g.image = .saving then s
    else if g.image = .saved && !g.resident then settle s f k 0 (bytesOf 8 r.progress)
    else settle s f k 0x4A []

/-- R687: `ctx.restore`: the group is back on its cores, or was refused. -/
def afterRestore (s : State) (f k config : Nat) (r : Running) : State :=
  match groupHolding s r.handle config with
  | none => settle s f k 0x4A []
  | some (_, g) =>
    if g.image = .restoring then s
    else if g.resident then settle s f k 0 (bytesOf 8 r.progress)
    else settle s f k 0x4A []

/-- R694, R696: `fab.join` and `fab.members`: the ports have seen their idle edges, or one has gone dark. -/
def afterIdle (s : State) (f k : Nat) (ports : List Nat) (r : Running) : State :=
  if ports.any (fun p => !(portOf s p).joined) then settle s f k 0x64 r.resp
  else if !(ports.all (fun p => edgePassed (portOf s p))) then s
  else if r.opcode = 0x0703 then settle (resumeFenced s) f k 0 (membersBytes (portOf s (ports.headD 0)))
  else settle s f k 0 r.resp

/-- R533, R695: `fab.leave`: the ports have nothing left to send, and go dark. -/
def afterLeave (s : State) (f k : Nat) (ports : List Nat) : State :=
  if portsLeft s ports then settle (darkenPorts s ports) f k 0 [] else s

/-- R683, R702: the reset a command waits for has cleared, or the slice has failed. -/
def afterReset (s : State) (f k id : Nat) (r : Running) : State :=
  if s.sup.resets.any (fun x => x.id = id) then s
  else
    let failed := (look? s.slices r.handle).any (fun l => l.state = .failed)
    settle s f k (if r.opcode = 0x0404 && failed then 0x35 else 0) []

/-- R486: a request that was translated by a leaf has not taken effect at its memory yet. -/
def underWay (s : State) (l : Leaf) : Bool :=
  let m := s.mesh
  (m.wires ++ m.entering ++ m.arrived ++ m.held ++ m.reorder).any (fun w => w.2.any (fun p =>
    (p.kind = 0 || p.kind = 1) && overlaps (leafPhys l 0) (pageBytes l.size) p.phys p.count))

/-- R405, R486, R607: `mem.map` and `mem.unmap`: the old copies have retired, neither the host nor a stack cache holds a line of
what they mapped, and no request translated by them is under way. -/
def afterMaps (s : State) (f k : Nat) (windows ls : List Nat) (gone : List Leaf) : State :=
  if windows.all (retired s) && !(s.hp.filter.any (fun e => ls.contains e.line)) && !(fillsIn s gone) &&
      !(gone.any (underWay s)) then
    settle (dropPages s gone) f k 0 []
  else s

/-- R865: `power.set` to M0: every region that nothing holds dark is lit, and the module is ready. -/
def afterPower (s : State) (f k : Nat) : State :=
  let lit := (regionList s).all (fun r => shedOf s r ≠ .dark || decide (3 ≤ demandLevel (demandsOf s r)))
  if s.power.state = .m0 && !s.boot.running && s.boot.phase = 6 && lit then
    settle { s with sup := { s.sup with powerMove := if s.sup.powerMove = some 0 then none else s.sup.powerMove } } f k 0 []
  else s

/-- R633: `slice.destroy`: it goes on once the host has given up its lines. -/
def afterDestroy (s : State) (f k h : Nat) : State :=
  let t := destroyStep s h
  if (look? t.slices h).isNone then settle t f k 0 [] else t

/-- What a running command waits for has happened: it takes its last effects and settles. -/
def finish (s : State) (f k : Nat) (r : Running) : State :=
  match r.wait with
  | .nothing => s
  | .unstarted => s
  | .host => s
  | .barrier => s
  | .stopped config => afterStop s f k config r
  | .saved config => afterSave s f k config r
  | .restored config => afterRestore s f k config r
  | .idle ports => afterIdle s f k ports r
  | .left ports => afterLeave s f k ports
  | .reset id => afterReset s f k id r
  | .lines windows ls gone => afterMaps s f k windows ls gone
  | .power _ => afterPower s f k
  | .destroy h => afterDestroy s f k h
  | .fabric => loadEnds s f k r
  | .routes => afterSwap s f k r

/-- R648, R651: a command whose effects are complete completes. -/
def completes (s : State) (f k : Nat) : State :=
  match (mbSlot s f k).run with
  | none => s
  | some r => completeNow (finish s f k r) f k

/-- A command completes, R648. -/
def execCommandCompletion (frame slot : Nat) (s : State) : Host.Outcome State Fault Refusal := .next (completes s frame slot)

end Sys2Proof.Machine
end

