-- ==== Sys2Proof/Machine/Debug.lean ====
section
/-! DEFINITION. The debug port: the DAP, the TAP and the end of a session (17_security.md R856 to R863, 19_physical.md R935). -/

namespace Sys2Proof.Machine

/-! ## The debug port, R856 to R863 -/

/-- R856, R935: the debug port is served. -/
def debugServed (s : State) : Bool := s.power.standby && s.pins.vio && !s.pins.modReset && s.power.state ≠ .m4

/-- R935: what arrives through the debug pins shows that a probe is present. -/
def probeSeen (s : State) : State := { s with pins := { s.pins with dbgPrsnt := true } }

/-- R861: the session's window has ended. -/
def sessionOver (s : State) : State :=
  match s.sup.session with
  | some (_, minutes, since) =>
    if windowOver s.clocks.sup since (minutes * 60 * ticksPerS) then bump (endSession s) ctrModExpired 0 1 else s
  | none => s

/-- R863: the first DAP write or EXTEST of a session clears the firmware bit. -/
def noteDebugWrite (s : State) : State :=
  if s.sup.dapWrote then s else setFirmware { s with sup := { s.sup with dapWrote := true } } false

/-- R862: the bytes of a journal entry (log entry 20). -/
def journalBytes (e : JournalEntry) : List Byte :=
  bytesOf 1 e.kind ++ bytesOf 1 (bn e.write) ++ bytesOf 1 e.counter ++ bytesOf 5 0 ++ bytesOf 8 e.addr ++ bytesOf 8 e.count ++ bytesOf 8 e.stamp

/-- The DAP's places for what the limited view reads (log entry 20): the journal, the defect map, clove record headers and
the counters. -/
def dapRecords (s : State) (a n : Nat) : List Byte :=
  let off := a % 2 ^ 56
  match a / 2 ^ 56 with
  | 0x80 => sub ((s.nv.journal.map journalBytes).flatten) off n
  | 0x81 => sub (((allRecords s).map defectBytes).flatten) off n
  | 0x82 => sub ((((regOf s (off / 2 ^ 16)).cloves.map (fun c => cloveHeader c (off / 2 ^ 16))).flatten)) (off % 2 ^ 16) n
  | 0x83 => bytesOf n (look s.counts off 0)
  | _ => []

/-- R6, R9, R10, R338, R857: n bytes from an address lie in one memory of the module that is not fused off. -/
def memoryEnabled (s : State) (a n : Nat) : Bool :=
  match placeOf a with
  | .core c off => coreExists s c && decide (off + n ≤ coreBytes)
  | .region r off => regionExists s r && decide (off + n ≤ regionBytes)
  | .hbm k off => stackExists s k && decide (off + n ≤ stackPages s.fuses.ordering * 2 ^ 16)
  | .tier p off => tierEnabled s.fuses.ordering p && (tierOf s p).linkUp && decide (off + n ≤ tierEnd s p * 2 ^ 30)
  | .buffer e off => coreExists s (coreOfEngine e) && decide (off + n ≤ 192 * 2 ^ 10)

/-- R856, R10: n bytes of memory the DAP reaches: enabled, and powered. -/
def dapPowered (s : State) (a n : Nat) : Bool :=
  regionsRun s && memoryEnabled s a n && (placeRegion (placeOf a)).all (regionServes s)

/-- R594, R596, R615: the 8 bytes at an 8-byte offset of BAR0's registers. -/
def registerWord (s : State) (base : Nat) : Nat :=
  match base with
  | 0x20000 => hpId s
  | 0x20008 => hpStatus s
  | 0x20010 => s.hp.event.toNat
  | 0x20018 => s.hp.eventEn.toNat
  | 0x20020 => s.hp.errInfo.toNat
  | 0x20028 => s.hp.errAddr.toNat
  | 0x20030 => ringWord (frameOf s 0).ring
  | 0x20038 => ringCfgWord (frameOf s 0).ring
  | 0x20040 => hpAssure s
  | 0x20048 => hpSecurity s
  | 0x20050 => hpBoot s
  | _ => if base % 0x100 = 0 && 0x30000 ≤ base && base < 0x30800 then tpStatus s ((base - 0x30000) / 0x100) else 0

/-- R594: a byte of BAR0. -/
def registerByte (s : State) (off : Nat) : Byte :=
  if off < 0x10000 then BitVec.ofNat 8 (componentDword s (off / 4 * 4) / 2 ^ (off % 4 * 8))
  else if off < 0x11000 then (msixBytes (msixEntry s ((off - 0x10000) / 16))).getD (off % 16) 0
  else if off < 0x11020 then
    BitVec.ofNat 8 ((List.range 8).map (fun i => bn (s.hp.msixPend.contains ((off - 0x11000) * 8 + i)) * 2 ^ i)).sum
  else BitVec.ofNat 8 (registerWord s (off / 8 * 8) / 2 ^ (off % 8 * 8))

/-- R857: the DAP's place for the registers of BAR0 (log entry 20). -/
def dapRegisters (a : Nat) : Bool := a / 2 ^ 56 = 0x84 && decide (a % 2 ^ 56 < 2 ^ 20)

/-- R857, R862: a burst of DAP transfers. -/
def dapBurst (s : State) (write : Bool) (a : Nat) (data : List Byte) (count : Nat) : State :=
  let view := debugView s
  let records := decide (2 ^ 63 ≤ a)
  if !(debugServed s) || view = 0 then s
  else
    let s := journal s 4 a (if write then data.length else count) write
    if write then
      if view = 2 && dapRegisters a then noteDebugWrite (writeBar0 s (a % 2 ^ 56) data)
      else if view = 2 && !records && dapPowered s a data.length then noteDebugWrite { s with mem := writeMem s.mem a data }
      else s
    else if view = 2 && dapRegisters a then
      emit s (.dap a ((List.range (min count (2 ^ 20 - a % 2 ^ 56))).map (fun i => registerByte s (a % 2 ^ 56 + i))))
    else if records then emit s (.dap a (dapRecords s a count))
    else if view = 2 && dapPowered s a count then emit s (.dap a (readMem s.mem a count))
    else s

/-- R857: the TAP instruction a view permits: 0 BYPASS, 1 IDCODE, 2 SAMPLE/PRELOAD, 3 EXTEST (log entry 20). -/
def tapPermitted (view code : Nat) : Nat := if code ≤ 1 || (code = 2 && 1 ≤ view) || 2 ≤ view then code else 0

/-- R857: a TAP instruction is loaded. -/
def loadTap (s : State) (code : Nat) : State :=
  if !(debugServed s) then s
  else
    let i := tapPermitted (debugView s) code
    let s := emit { s with pins := { s.pins with tap := i } } (.tdo i)
    if i = 3 then noteDebugWrite s else s

/-! ## The commands -/

/-- A debug session's window ends, R861. -/
def execDebugSessionEnd (s : State) : Host.Outcome State Fault Refusal := .next (sessionOver s)
/-- A DAP transfer burst, R862. -/
def execDapTransfer (write : Bool) (address : Nat) (data : List Byte) (count : Nat) (s : State) : Host.Outcome State Fault Refusal :=
  .next (dapBurst (probeSeen s) write address data count)
/-- A TAP instruction, R857. -/
def execTapInstruction (code : Nat) (s : State) : Host.Outcome State Fault Refusal := .next (loadTap (probeSeen s) code)

end Sys2Proof.Machine
end

