-- ==== Sys2Proof/Machine/Doe.lean ====
section
/-! DEFINITION. The DOE mailbox: discovery, SPDM 1.3, CDAT and the attestation extension (11_cxl.md R611 to R614,
17_security.md R850 to R855). The message layouts are those of PCI DOE, DMTF DSP0274 1.3 and CDAT 1.03, which the
spec names and does not repeat (log entry 18). -/

namespace Sys2Proof.Machine

/-! ## Data objects -/

/-- R611: a data object of a vendor and type leaves the module. -/
def sendObject (s : State) (vendor type : Nat) (body : List Byte) : State :=
  let body := fit body (roundUp body.length 4)
  let t := { s with hp := { s.hp with doe := { s.hp.doe with response := body } } }
  emit t (.doe (bytesOf 2 vendor ++ bytesOf 1 type ++ bytesOf 1 0 ++ bytesOf 4 (body.length / 4 + 2) ++ body))

/-- R611: the objects supported, as vendor and type. -/
def doeObjects (_ : State) : List (Nat × Nat) := [(1, 0), (1, 1), (0x1E98, 2), (Config.vendorId.toNat, 1)]

/-- R611: DOE Discovery of an index. -/
def discover (s : State) (index : Nat) : State :=
  match (doeObjects s)[index]? with
  | some o => sendObject s 1 0 (bytesOf 2 o.1 ++ bytesOf 1 o.2 ++ bytesOf 1 (if index = 3 then 0 else index + 1))
  | none => sendObject s 1 0 (bytesOf 2 0xFFFF ++ bytesOf 2 0)

/-! ## SPDM, R612, R850 to R855 -/

/-- An SPDM response leaves the module. -/
def sendSpdm (s : State) (msg : List Byte) : State := sendObject s 1 1 msg

/-- A message of SPDM 1.3: its code, two parameters and the rest. -/
def spdmMsg (code p1 p2 : Nat) (rest : List Byte) : List Byte := bytesOf 1 0x13 ++ bytesOf 1 code ++ bytesOf 1 p1 ++ bytesOf 1 p2 ++ rest

/-- An SPDM error. -/
def spdmError (s : State) (code : Nat) : State := sendSpdm s (spdmMsg 0x7F code 0 [])

/-- The SPDM exchange changed. -/
def setDoe (s : State) (f : Doe → Doe) : State := { s with hp := { s.hp with doe := f s.hp.doe } }

/-- R855: slot 0 is provisioned. -/
def provisioned (s : State) : Bool := s.fuses.life = .deployed && s.nv.chain.isSome

/-- Bytes of the first DER element of a list, whose length field has two bytes; else all of it. -/
def derFirst (l : List Byte) : Nat := if (l.getD 1 0).toNat = 0x82 then 4 + natBig ((l.drop 2).take 2) else l.length

/-- R852: the certificate chain as SPDM carries it: its length, the digest of the root, the certificates. -/
def spdmChain (s : State) : List Byte :=
  let certs := s.nv.chain.getD []
  bytesOf 2 (52 + certs.length) ++ bytesOf 2 0 ++ sha384 (certs.take (derFirst certs)) ++ certs

/-- 32 bytes that the spec leaves open: a responder's nonce. -/
def freshNonce (s : State) : List Byte × State :=
  let a := freeNext s
  let b := freeNext a.2
  let c := freeNext b.2
  let d := freeNext c.2
  (bytesOf 8 a.1.toNat ++ bytesOf 8 b.1.toNat ++ bytesOf 8 c.1.toNat ++ bytesOf 8 d.1.toNat, d.2)

/-- R851: the RSA identity key's signature. -/
def rsaSign (s : State) (msg : List Byte) : List Byte := fit (Config.identitySign s.nv.keyGen 0 msg) 384

/-- GET_VERSION: version 1.3, and a fresh exchange. -/
def spdmVersion (s : State) : State :=
  let req := bytesOf 4 0x8410
  let resp := bytesOf 4 0x0410 ++ bytesOf 1 0 ++ bytesOf 1 1 ++ bytesOf 2 0x1300
  sendSpdm (setDoe s (fun d => { d with vca := req ++ resp, certs := [], meas := [], negotiated := false })) resp

/-- GET_CAPABILITIES: certificates, challenges and signed measurements. -/
def spdmCapabilities (s : State) : State :=
  if s.hp.doe.vca.isEmpty || s.hp.doe.negotiated then spdmError s 4
  else
    let sizes := bytesOf 4 0x10000 ++ bytesOf 4 0x10000
    let req := spdmMsg 0xE1 0 0 (bytesOf 8 0 ++ sizes)
    let resp := spdmMsg 0x61 0 0 (bytesOf 1 0 ++ bytesOf 1 18 ++ bytesOf 2 0 ++ bytesOf 4 0x16 ++ sizes)
    sendSpdm (setDoe s (fun d => { d with vca := d.vca ++ req ++ resp })) resp

/-- NEGOTIATE_ALGORITHMS, R612: RSASSA-PSS with RSA-3072, and SHA-384, where the host offers them. -/
def spdmAlgorithms (s : State) (asym hash : BitVec 32) : State :=
  if s.hp.doe.vca.isEmpty || s.hp.doe.negotiated then spdmError s 4
  else
    let a := if asym.getLsbD 3 then 8 else 0
    let h := if hash.getLsbD 1 then 2 else 0
    let req := spdmMsg 0xE3 0 0 (bytesOf 2 32 ++ bytesOf 1 1 ++ bytesOf 1 0 ++ bytesOf 4 asym.toNat ++ bytesOf 4 hash.toNat ++ bytesOf 16 0)
    let resp := spdmMsg 0x63 0 0
      (bytesOf 2 36 ++ bytesOf 1 1 ++ bytesOf 1 0 ++ bytesOf 4 1 ++ bytesOf 4 a ++ bytesOf 4 h ++ bytesOf 16 0)
    let good := a ≠ 0 && h ≠ 0
    sendSpdm (setDoe s (fun d => { d with vca := d.vca ++ req ++ resp, negotiated := good })) resp

/-- R855: GET_DIGESTS. -/
def spdmDigests (s : State) : State :=
  if !s.hp.doe.negotiated then spdmError s 4
  else
    let req := spdmMsg 0x81 0 0 []
    let resp := if provisioned s then spdmMsg 0x01 1 1 (sha384 (spdmChain s)) else spdmMsg 0x01 1 0 []
    sendSpdm (setDoe s (fun d => { d with certs := d.certs ++ req ++ resp })) resp

/-- R852: GET_CERTIFICATE of a part of the chain. -/
def spdmCertificate (s : State) (slot offset length : Nat) : State :=
  let chain := spdmChain s
  if !s.hp.doe.negotiated then spdmError s 4
  else if slot ≠ 0 || !(provisioned s) || chain.length ≤ offset then spdmError s 1
  else
    let n := min length (chain.length - offset)
    let req := spdmMsg 0x82 slot 0 (bytesOf 2 offset ++ bytesOf 2 length)
    let resp := spdmMsg 0x02 slot 0 (bytesOf 2 n ++ bytesOf 2 (chain.length - offset - n) ++ (chain.drop offset).take n)
    sendSpdm (setDoe s (fun d => { d with certs := d.certs ++ req ++ resp })) resp

/-- R851, R855: CHALLENGE. -/
def spdmChallenge (s : State) (slot : Nat) (nonce : List Byte) : State :=
  if !s.hp.doe.negotiated then spdmError s 4
  else if slot ≠ 0 || !(provisioned s) then spdmError s 1
  else
    let n := freshNonce s
    let req := spdmMsg 0x83 slot 0 (fit nonce 32 ++ bytesOf 8 0)
    let body := spdmMsg 0x03 slot 1 (sha384 (spdmChain s) ++ n.1 ++ bytesOf 2 0 ++ bytesOf 8 0)
    let d := s.hp.doe
    let transcript := d.vca ++ d.certs ++ req ++ body
    let t := setDoe n.2 (fun d => { d with completed := some transcript, meas := [] })
    sendSpdm t (body ++ rsaSign s transcript)

/-! ### Measurements, R853 -/

/-- R853 block 4: the digests of the packs. -/
def packDigests (s : State) : List Byte :=
  ((List.range 16).map (fun k => ((look? s.nv.packs k).map (fun p => fit p.1 48)).getD (List.replicate 48 0))).flatten

/-- R853: the contents of a block. -/
def measurement (s : State) (index : Nat) : List Byte :=
  match index with
  | 1 => fit Config.bootRomDigest 48
  | 2 => fit s.nv.bootImage.digest 48 ++ bytesOf 4 s.nv.bootImage.svn
  | 3 => (s.nv.staged.map (fun i => fit i.digest 48)).getD (List.replicate 48 0)
  | 4 => sha384 (packDigests s)
  | 5 =>
    bytesOf 4 (allRecords s).length ++ sha384 ((allRecords s).map defectBytes).flatten ++
    ((s.nv.map.filter (fun r => !r.sig.isEmpty)).getLast?.elim (List.replicate 384 0) (fun r => fit r.sig 384))
  | 6 => bytesOf 8 (hpSecurity s) ++ bytesOf 1 (bn s.nv.drained) ++ bytesOf 4 s.nv.journal.length
  | 7 =>
    bytesOf 16 s.fuses.serial.toNat ++ bytesOf 1 (orderingCode s.fuses.ordering) ++
    bytesOf 6 (2 ^ regionCount s.fuses.ordering - 1) ++
    bytesOf 2 ((List.range 16).map (fun p => bn (portEnabled s.fuses.ordering p) * 2 ^ p)).sum ++
    bytesOf 1 ((List.range 8).map (fun p => bn (tierEnabled s.fuses.ordering p) * 2 ^ p)).sum
  | _ => Config.identityPublic s.nv.keyGen

/-- R853: the kind of a block, as a raw bit stream. -/
def measurementType (index : Nat) : Nat :=
  0x80 + (if index = 1 then 0 else if index ≤ 4 then 1 else if index = 7 then 2 else 3)

/-- A measurement block. -/
def measurementBlock (s : State) (index : Nat) : List Byte :=
  let v := measurement s index
  bytesOf 1 index ++ bytesOf 1 1 ++ bytesOf 2 (v.length + 3) ++ bytesOf 1 (measurementType index) ++ bytesOf 2 v.length ++ v

/-- R853, R855: GET_MEASUREMENTS; outside DEPLOYED it is served unsigned. -/
def spdmMeasurements (s : State) (index slot : Nat) (sign : Bool) (nonce : List Byte) : State :=
  let one := decide (1 ≤ index ∧ index ≤ 8)
  if !s.hp.doe.negotiated then spdmError s 4
  else if !(one || index = 0 || index = 0xFF) || (sign && slot ≠ 0) then spdmError s 1
  else
    let blocks := if index = 0 then [] else if one then [index] else [1, 2, 3, 4, 5, 6, 7, 8]
    let record := (blocks.map (measurementBlock s)).flatten
    let n := freshNonce s
    let req := spdmMsg 0xE0 (bn sign) index ((if sign then fit nonce 32 ++ bytesOf 1 slot else []) ++ bytesOf 8 0)
    let body := spdmMsg 0x60 (if index = 0 then 8 else 0) slot
      (bytesOf 1 blocks.length ++ bytesOf 3 record.length ++ record ++ n.1 ++ bytesOf 2 0 ++ bytesOf 8 0)
    let d := s.hp.doe
    let transcript := d.vca ++ d.meas ++ req ++ body
    if sign && provisioned s then
      sendSpdm (setDoe n.2 (fun d => { d with completed := some transcript, meas := [] })) (body ++ rsaSign s transcript)
    else sendSpdm (setDoe n.2 (fun d => { d with meas := d.meas ++ req ++ body })) body

/-! ## CDAT, R613 -/

/-- R613: bandwidth of the host link in MB/s. -/
def linkMBs (s : State) : Nat := if s.hp.linkUp then s.hp.width * (if s.hp.rate = 4 then 64 else 32) / 8 * 1000 else 0

/-- A latency or bandwidth structure of a handle: read latency in ns (1) or read bandwidth (4) in GB/s. -/
def dslbis (handle type value : Nat) : List Byte :=
  bytesOf 1 1 ++ bytesOf 1 0 ++ bytesOf 2 24 ++ bytesOf 1 handle ++ bytesOf 1 0 ++ bytesOf 1 type ++ bytesOf 1 0 ++
  bytesOf 8 1000 ++ bytesOf 2 value ++ bytesOf 6 0

/-- R613: the entries after the header. -/
def cdatEntries (s : State) : List (List Byte) :=
  let dsmas (h base : Nat) := bytesOf 1 0 ++ bytesOf 1 0 ++ bytesOf 2 24 ++ bytesOf 1 h ++ bytesOf 3 0 ++ bytesOf 8 base ++ bytesOf 8 (2 ^ 48)
  let dsemts (h : Nat) := bytesOf 1 4 ++ bytesOf 1 0 ++ bytesOf 2 24 ++ bytesOf 1 h ++ bytesOf 1 1 ++ bytesOf 2 0 ++ bytesOf 8 0 ++ bytesOf 8 (2 ^ 48)
  [dsmas 0 0, dsmas 1 (2 ^ 48), dslbis 0 1 900, dslbis 1 1 3400, dslbis 0 4 (linkMBs s / 1000), dslbis 1 4 (linkMBs s / 1000),
   dsemts 0, dsemts 1]

/-- The CDAT header, whose checksum makes the bytes of the table sum to zero. -/
def cdatHeader (s : State) : List Byte :=
  let body := (cdatEntries s).flatten
  let n := 16 + body.length
  let sum := (((bytesOf 4 n ++ body).map (·.toNat)).sum + 1) % 256
  bytesOf 4 n ++ bytesOf 1 1 ++ bytesOf 1 (256 - sum) ++ bytesOf 10 0

/-- Table Access of an entry: entry 0 is the header. -/
def cdatAccess (s : State) (entry : Nat) : State :=
  let all := cdatHeader s :: cdatEntries s
  match all[entry]? with
  | some e => sendObject s 0x1E98 2 (bytesOf 1 0 ++ bytesOf 1 0 ++ bytesOf 2 (if entry + 1 < all.length then entry + 1 else 0xFFFF) ++ e)
  | none => s

/-! ## The attestation extension, R614 -/

/-- R614: its response. -/
def attest (s : State) (request : BitVec 64) : State :=
  let slot := bitsOf request.toNat 8 8
  let answer (status len : Nat) (digest sig : List Byte) : State :=
    sendObject s Config.vendorId.toNat 1 (bytesOf 1 status ++ bytesOf 1 slot ++ bytesOf 2 0 ++ bytesOf 4 len ++ fit digest 48 ++ sig)
  if bitsOf request.toNat 16 48 ≠ 0 || bitsOf request.toNat 0 8 ≠ 1 then answer 3 0 [] []
  else if slot ≠ 0 || !(provisioned s) then answer 2 0 [] []
  else match s.hp.doe.completed with
    | none => answer 1 0 [] []
    | some m => answer 0 35664 (sha384 m) (fit (Config.identitySign s.nv.keyGen 1 m) 35664)

/-! ## The commands -/

/-- DOE Discovery, R611. -/
def execDoeDiscovery (index : Nat) (s : State) : Host.Outcome State Fault Refusal := .next (discover s index)

/-- GET_VERSION, R612. -/
def execSpdmGetVersion (s : State) : Host.Outcome State Fault Refusal := .next (spdmVersion s)

/-- GET_CAPABILITIES, R612. -/
def execSpdmGetCapabilities (s : State) : Host.Outcome State Fault Refusal := .next (spdmCapabilities s)

/-- NEGOTIATE_ALGORITHMS, R612. -/
def execSpdmNegotiateAlgorithms (asym hash : BitVec 32) (s : State) : Host.Outcome State Fault Refusal :=
  .next (spdmAlgorithms s asym hash)

/-- GET_DIGESTS, R855. -/
def execSpdmGetDigests (s : State) : Host.Outcome State Fault Refusal := .next (spdmDigests s)

/-- GET_CERTIFICATE, R852. -/
def execSpdmGetCertificate (slot offset length : Nat) (s : State) : Host.Outcome State Fault Refusal :=
  .next (spdmCertificate s slot offset length)

/-- CHALLENGE, R851. -/
def execSpdmChallenge (slot : Nat) (nonce : List Byte) (s : State) : Host.Outcome State Fault Refusal :=
  .next (spdmChallenge s slot nonce)

/-- GET_MEASUREMENTS, R853. -/
def execSpdmGetMeasurements (index slot : Nat) (signed : Bool) (nonce : List Byte) (s : State) :
    Host.Outcome State Fault Refusal :=
  .next (spdmMeasurements s index slot signed nonce)

/-- CDAT Table Access, R613. -/
def execCdatTableAccess (entry : Nat) (s : State) : Host.Outcome State Fault Refusal := .next (cdatAccess s entry)

/-- The attestation extension, R614. -/
def execAttestationExtension (request : BitVec 64) (s : State) : Host.Outcome State Fault Refusal := .next (attest s request)

end Sys2Proof.Machine
end

