-- ==== Sys2Proof/Machine/Dispatch.lean ====
section
/-! DEFINITION. One arm per command: a direct call of its meaning. -/

namespace Sys2Proof.Machine

/-- R26 and the rows of the table: the effect of one command on everything but the queue. -/
def exec (i : Instr) (s : State) : Host.Outcome State Fault Refusal :=
  match i with
  | .registerWrite bar off data => Sys2Proof.Machine.execRegisterWrite bar off data s
  | .hpEventEnWrite v => Sys2Proof.Machine.execHpEventEnWrite v s
  | .hpErrInfoClear v => Sys2Proof.Machine.execHpErrInfoClear v s
  | .hpMbRingCfgWrite v => Sys2Proof.Machine.execHpMbRingCfgWrite v s
  | .msixUnmask vector => Sys2Proof.Machine.execMsixUnmask vector s
  | .commandCompletion frame slot => Sys2Proof.Machine.execCommandCompletion frame slot s
  | .commandTimeout frame slot => Sys2Proof.Machine.execCommandTimeout frame slot s
  | .capsRead frame slot => Sys2Proof.Machine.execCapsRead frame slot s
  | .defectRead frame slot => Sys2Proof.Machine.execDefectRead frame slot s
  | .fenceQuery frame slot => Sys2Proof.Machine.execFenceQuery frame slot s
  | .ageingRead frame slot => Sys2Proof.Machine.execAgeingRead frame slot s
  | .bistRead frame slot => Sys2Proof.Machine.execBistRead frame slot s
  | .powerSetM0 frame slot => Sys2Proof.Machine.execPowerSetM0 frame slot s
  | .powerSetM1 frame slot => Sys2Proof.Machine.execPowerSetM1 frame slot s
  | .powerSetM2 frame slot => Sys2Proof.Machine.execPowerSetM2 frame slot s
  | .powerSetM3 frame slot failed common vmin => Sys2Proof.Machine.execPowerSetM3 frame slot failed common vmin s
  | .logRead frame slot => Sys2Proof.Machine.execLogRead frame slot s
  | .lifecycleAdvance frame slot => Sys2Proof.Machine.execLifecycleAdvance frame slot s
  | .lifecycleReturn frame slot => Sys2Proof.Machine.execLifecycleReturn frame slot s
  | .debugUnlockChallenge frame slot => Sys2Proof.Machine.execDebugUnlockChallenge frame slot s
  | .debugUnlockToken frame slot => Sys2Proof.Machine.execDebugUnlockToken frame slot s
  | .debugUnlockRelock frame slot => Sys2Proof.Machine.execDebugUnlockRelock frame slot s
  | .fwStage frame slot => Sys2Proof.Machine.execFwStage frame slot s
  | .fwActivate frame slot => Sys2Proof.Machine.execFwActivate frame slot s
  | .packInstall frame slot => Sys2Proof.Machine.execPackInstall frame slot s
  | .sliceCreate frame slot => Sys2Proof.Machine.execSliceCreate frame slot s
  | .sliceDestroy frame slot => Sys2Proof.Machine.execSliceDestroy frame slot s
  | .sliceQuery frame slot => Sys2Proof.Machine.execSliceQuery frame slot s
  | .sliceReset frame slot => Sys2Proof.Machine.execSliceReset frame slot s
  | .ctxLoad frame slot => Sys2Proof.Machine.execCtxLoad frame slot s
  | .ctxStart frame slot => Sys2Proof.Machine.execCtxStart frame slot s
  | .ctxStop frame slot => Sys2Proof.Machine.execCtxStop frame slot s
  | .ctxSave frame slot => Sys2Proof.Machine.execCtxSave frame slot s
  | .ctxRestore frame slot => Sys2Proof.Machine.execCtxRestore frame slot s
  | .ctxStatus frame slot => Sys2Proof.Machine.execCtxStatus frame slot s
  | .memMap frame slot => Sys2Proof.Machine.execMemMap frame slot s
  | .memUnmap frame slot => Sys2Proof.Machine.execMemUnmap frame slot s
  | .memFill frame slot => Sys2Proof.Machine.execMemFill frame slot s
  | .memCopy frame slot => Sys2Proof.Machine.execMemCopy frame slot s
  | .memDigest frame slot => Sys2Proof.Machine.execMemDigest frame slot s
  | .memScrub frame slot => Sys2Proof.Machine.execMemScrub frame slot s
  | .memPoisonQuery frame slot => Sys2Proof.Machine.execMemPoisonQuery frame slot s
  | .fabJoin frame slot loopback => Sys2Proof.Machine.execFabJoin frame slot loopback s
  | .fabLeave frame slot => Sys2Proof.Machine.execFabLeave frame slot s
  | .fabMembersRead frame slot => Sys2Proof.Machine.execFabMembersRead frame slot s
  | .fabMembersReplace frame slot => Sys2Proof.Machine.execFabMembersReplace frame slot s
  | .fabRouteSet frame slot => Sys2Proof.Machine.execFabRouteSet frame slot s
  | .checkMode frame slot => Sys2Proof.Machine.execCheckMode frame slot s
  | .fenceSet frame slot => Sys2Proof.Machine.execFenceSet frame slot s
  | .fenceClear frame slot link devices => Sys2Proof.Machine.execFenceClear frame slot link devices s
  | .healPolicy frame slot => Sys2Proof.Machine.execHealPolicy frame slot s
  | .injectPlan frame slot => Sys2Proof.Machine.execInjectPlan frame slot s
  | .resetEscalate frame slot => Sys2Proof.Machine.execResetEscalate frame slot s
  | .recordRead frame slot => Sys2Proof.Machine.execRecordRead frame slot s
  | .admitPrepare frame slot passed seconds => Sys2Proof.Machine.execAdmitPrepare frame slot passed seconds s
  | .admitLoad frame slot => Sys2Proof.Machine.execAdmitLoad frame slot s
  | .admitCommit frame slot => Sys2Proof.Machine.execAdmitCommit frame slot s
  | .admitBarrierPoll frame slot status phase => Sys2Proof.Machine.execAdmitBarrierPoll frame slot status phase s
  | .mma core => Sys2Proof.Machine.execMma core s
  | .mmaGc core => Sys2Proof.Machine.execMmaGc core s
  | .sumac core => Sys2Proof.Machine.execSumac core s
  | .epi core => Sys2Proof.Machine.execEpi core s
  | .loadComplete engine => Sys2Proof.Machine.execLoadComplete engine s
  | .accumulationFinalisation engine mismatch => Sys2Proof.Machine.execAccumulationFinalisation engine mismatch s
  | .epilogueOutput engine mismatch => Sys2Proof.Machine.execEpilogueOutput engine mismatch s
  | .operandCheckVerify core slot stream => Sys2Proof.Machine.execOperandCheckVerify core slot stream s
  | .streamChunkDeliver core slot turn => Sys2Proof.Machine.execStreamChunkDeliver core slot turn s
  | .stackCacheFill region line uncorrectable => Sys2Proof.Machine.execStackCacheFill region line uncorrectable s
  | .vectorKernel core mismatch => Sys2Proof.Machine.execVectorKernel core mismatch s
  | .expressionProgram core mismatch => Sys2Proof.Machine.execExpressionProgram core mismatch s
  | .merge turn => Sys2Proof.Machine.execMerge turn s
  | .copy turn => Sys2Proof.Machine.execCopy turn s
  | .copyHub turn => Sys2Proof.Machine.execCopyHub turn s
  | .strmBind core => Sys2Proof.Machine.execStrmBind core s
  | .strmUnbind core => Sys2Proof.Machine.execStrmUnbind core s
  | .qSend core => Sys2Proof.Machine.execQSend core s
  | .qRecv core => Sys2Proof.Machine.execQRecv core s
  | .ctlLoop core => Sys2Proof.Machine.execCtlLoop core s
  | .ctlJump core => Sys2Proof.Machine.execCtlJump core s
  | .ctlWait core => Sys2Proof.Machine.execCtlWait core s
  | .ctlYield core => Sys2Proof.Machine.execCtlYield core s
  | .ctlHalt core => Sys2Proof.Machine.execCtlHalt core s
  | .msgSend core => Sys2Proof.Machine.execMsgSend core s
  | .msgRecv core => Sys2Proof.Machine.execMsgRecv core s
  | .syncOpRead core => Sys2Proof.Machine.execSyncOpRead core s
  | .syncOpInit core => Sys2Proof.Machine.execSyncOpInit core s
  | .syncOpAdd core mismatch => Sys2Proof.Machine.execSyncOpAdd core mismatch s
  | .syncOpCas core => Sys2Proof.Machine.execSyncOpCas core s
  | .syncOpPost core mismatch => Sys2Proof.Machine.execSyncOpPost core mismatch s
  | .syncOpTake core => Sys2Proof.Machine.execSyncOpTake core s
  | .syncOpArrive core mismatch => Sys2Proof.Machine.execSyncOpArrive core mismatch s
  | .syncOpWaitGe core => Sys2Proof.Machine.execSyncOpWaitGe core s
  | .syncOpWaitPhase core => Sys2Proof.Machine.execSyncOpWaitPhase core s
  | .syncOpArriveWait core => Sys2Proof.Machine.execSyncOpArriveWait core s
  | .syncOpTakeWait core => Sys2Proof.Machine.execSyncOpTakeWait core s
  | .syncResponse j => Sys2Proof.Machine.execSyncResponse j s
  | .syncCancel j => Sys2Proof.Machine.execSyncCancel j s
  | .syncWaitRetry core slot => Sys2Proof.Machine.execSyncWaitRetry core slot s
  | .syncRemoteTimeout core slot step => Sys2Proof.Machine.execSyncRemoteTimeout core slot step s
  | .quantumEnd core => Sys2Proof.Machine.execQuantumEnd core s
  | .routerPacketReceive router port crcOk lookup => Sys2Proof.Machine.execRouterPacketReceive router port crcOk lookup s
  | .readRequest ep => Sys2Proof.Machine.execReadRequest ep s
  | .writePacket ep => Sys2Proof.Machine.execWritePacket ep s
  | .readResponse ep => Sys2Proof.Machine.execReadResponse ep s
  | .writeAck ep => Sys2Proof.Machine.execWriteAck ep s
  | .dropResponse ep => Sys2Proof.Machine.execDropResponse ep s
  | .orderAck ep => Sys2Proof.Machine.execOrderAck ep s
  | .tokenArrive ep => Sys2Proof.Machine.execTokenArrive ep s
  | .flaggedPacket ep => Sys2Proof.Machine.execFlaggedPacket ep s
  | .flaggedPacketRelease ep => Sys2Proof.Machine.execFlaggedPacketRelease ep s
  | .vc5Packet ep => Sys2Proof.Machine.execVc5Packet ep s
  | .reductionPacketLand turn => Sys2Proof.Machine.execReductionPacketLand turn s
  | .reductionAccept j => Sys2Proof.Machine.execReductionAccept j s
  | .reductionReplayRequest j => Sys2Proof.Machine.execReductionReplayRequest j s
  | .reductionAbort j => Sys2Proof.Machine.execReductionAbort j s
  | .routeRebuild writes done => Sys2Proof.Machine.execRouteRebuild writes done s
  | .switchOrder ep => Sys2Proof.Machine.execSwitchOrder ep s
  | .routeRetire => Sys2Proof.Machine.execRouteRetire s
  | .messageDeliver j passage => Sys2Proof.Machine.execMessageDeliver j passage s
  | .orphanNotice j => Sys2Proof.Machine.execOrphanNotice j s
  | .openGrant j => Sys2Proof.Machine.execOpenGrant j s
  | .openRequest j => Sys2Proof.Machine.execOpenRequest j s
  | .creditReturn j => Sys2Proof.Machine.execCreditReturn j s
  | .stallBeacon j => Sys2Proof.Machine.execStallBeacon j s
  | .progressBeacon j => Sys2Proof.Machine.execProgressBeacon j s
  | .stallWindowEnd handle config => Sys2Proof.Machine.execStallWindowEnd handle config s
  | .extendCommand j => Sys2Proof.Machine.execExtendCommand j s
  | .twinCheckValue j => Sys2Proof.Machine.execTwinCheckValue j s
  | .twinTimeout core slot again primaryFails twinFails => Sys2Proof.Machine.execTwinTimeout core slot again primaryFails twinFails s
  | .watchdogProgressReport j => Sys2Proof.Machine.execWatchdogProgressReport j s
  | .watchdogExpiry handle config => Sys2Proof.Machine.execWatchdogExpiry handle config s
  | .signatureCheck core slot differs => Sys2Proof.Machine.execSignatureCheck core slot differs s
  | .translationWalk j check => Sys2Proof.Machine.execTranslationWalk j check s
  | .migrationComplete j => Sys2Proof.Machine.execMigrationComplete j s
  | .timeSliceEnd handle => Sys2Proof.Machine.execTimeSliceEnd handle s
  | .saveComplete handle group => Sys2Proof.Machine.execSaveComplete handle group s
  | .restoreComplete handle group => Sys2Proof.Machine.execRestoreComplete handle group s
  | .contentionWindowEnd port slots mine rand => Sys2Proof.Machine.execContentionWindowEnd port slots mine rand s
  | .entryWindowEnd port slots mine rand => Sys2Proof.Machine.execEntryWindowEnd port slots mine rand s
  | .startToleranceExpire port => Sys2Proof.Machine.execStartToleranceExpire port s
  | .trainCollision port own rand => Sys2Proof.Machine.execTrainCollision port own rand s
  | .trainReceive port data symbols lookup => Sys2Proof.Machine.execTrainReceive port data symbols lookup s
  | .trainAssemble port => Sys2Proof.Machine.execTrainAssemble port s
  | .retransmitTimeout port member => Sys2Proof.Machine.execRetransmitTimeout port member s
  | .pairLost port member => Sys2Proof.Machine.execPairLost port member s
  | .portFence port routes => Sys2Proof.Machine.execPortFence port routes s
  | .loopbackMeasure port delay => Sys2Proof.Machine.execLoopbackMeasure port delay s
  | .joinSilenceExpire port => Sys2Proof.Machine.execJoinSilenceExpire port s
  | .ackHoldExpire port => Sys2Proof.Machine.execAckHoldExpire port s
  | .e2eAckDue origin => Sys2Proof.Machine.execE2eAckDue origin s
  | .hostLinkTrain width rate => Sys2Proof.Machine.execHostLinkTrain width rate s
  | .hostLinkDown => Sys2Proof.Machine.execHostLinkDown s
  | .functionLevelReset => Sys2Proof.Machine.execFunctionLevelReset s
  | .cxlReset => Sys2Proof.Machine.execCxlReset s
  | .hotReset => Sys2Proof.Machine.execHotReset s
  | .hdmDecoderCommit decoder base size skip ways biOn => Sys2Proof.Machine.execHdmDecoderCommit decoder base size skip ways biOn s
  | .hostMemRead dpa hold => Sys2Proof.Machine.execHostMemRead dpa hold s
  | .hostMemWrite dpa data poisoned => Sys2Proof.Machine.execHostMemWrite dpa data poisoned s
  | .birsp line writeback => Sys2Proof.Machine.execBirsp line writeback s
  | .biTimeout line => Sys2Proof.Machine.execBiTimeout line s
  | .h2dSnoop line => Sys2Proof.Machine.execH2dSnoop line s
  | .hostRequestTimeout frame slot => Sys2Proof.Machine.execHostRequestTimeout frame slot s
  | .doeDiscovery index => Sys2Proof.Machine.execDoeDiscovery index s
  | .spdmGetVersion => Sys2Proof.Machine.execSpdmGetVersion s
  | .spdmGetCapabilities => Sys2Proof.Machine.execSpdmGetCapabilities s
  | .spdmNegotiateAlgorithms asym hash => Sys2Proof.Machine.execSpdmNegotiateAlgorithms asym hash s
  | .spdmGetDigests => Sys2Proof.Machine.execSpdmGetDigests s
  | .spdmGetCertificate slot offset length => Sys2Proof.Machine.execSpdmGetCertificate slot offset length s
  | .spdmChallenge slot nonce => Sys2Proof.Machine.execSpdmChallenge slot nonce s
  | .spdmGetMeasurements index slot signed nonce => Sys2Proof.Machine.execSpdmGetMeasurements index slot signed nonce s
  | .cdatTableAccess entry => Sys2Proof.Machine.execCdatTableAccess entry s
  | .attestationExtension request => Sys2Proof.Machine.execAttestationExtension request s
  | .tierLinkDown port => Sys2Proof.Machine.execTierLinkDown port s
  | .tierDeviceHotAdd port gib => Sys2Proof.Machine.execTierDeviceHotAdd port gib s
  | .tierDeviceRemoval port device => Sys2Proof.Machine.execTierDeviceRemoval port device s
  | .tierDeviceFatal port => Sys2Proof.Machine.execTierDeviceFatal port s
  | .tierRequestTimeout port request => Sys2Proof.Machine.execTierRequestTimeout port request s
  | .controllerHeartbeat region => Sys2Proof.Machine.execControllerHeartbeat region s
  | .heartbeatTimeout region => Sys2Proof.Machine.execHeartbeatTimeout region s
  | .supervisorHeartbeat => Sys2Proof.Machine.execSupervisorHeartbeat s
  | .telemetry vmv ma10 watts inlet outlet junction hbm => Sys2Proof.Machine.execTelemetry vmv ma10 watts inlet outlet junction hbm s
  | .regulatorExcursion region memory => Sys2Proof.Machine.execRegulatorExcursion region memory s
  | .pllLossOfLock region => Sys2Proof.Machine.execPllLossOfLock region s
  | .patrolPassComplete stack corrected uncorrectable => Sys2Proof.Machine.execPatrolPassComplete stack corrected uncorrectable s
  | .patrolWindowEnd region => Sys2Proof.Machine.execPatrolWindowEnd region s
  | .anisePassDue region => Sys2Proof.Machine.execAnisePassDue region s
  | .anisePassComplete region passed => Sys2Proof.Machine.execAnisePassComplete region passed s
  | .injectionDue j => Sys2Proof.Machine.execInjectionDue j s
  | .fence kind id cls detours => Sys2Proof.Machine.execFence kind id cls detours s
  | .replacement handle group unreadable => Sys2Proof.Machine.execReplacement handle group unreadable s
  | .thermalStep region kind reading => Sys2Proof.Machine.execThermalStep region kind reading s
  | .shedRelease region demand reading => Sys2Proof.Machine.execShedRelease region demand reading s
  | .powerWindowEnd watts vmv regions => Sys2Proof.Machine.execPowerWindowEnd watts vmv regions s
  | .powerRelease => Sys2Proof.Machine.execPowerRelease s
  | .overcurrentThrottle => Sys2Proof.Machine.execOvercurrentThrottle s
  | .regionPark region park => Sys2Proof.Machine.execRegionPark region park s
  | .plannedDark region => Sys2Proof.Machine.execPlannedDark region s
  | .relight region failed badPages anisePassed => Sys2Proof.Machine.execRelight region failed badPages anisePassed s
  | .thermalTrip kind index => Sys2Proof.Machine.execThermalTrip kind index s
  | .referenceLoss => Sys2Proof.Machine.execReferenceLoss s
  | .referenceHoldoverExpire => Sys2Proof.Machine.execReferenceHoldoverExpire s
  | .referenceReturn => Sys2Proof.Machine.execReferenceReturn s
  | .supplyBandChange mv => Sys2Proof.Machine.execSupplyBandChange mv s
  | .supplyLoss => Sys2Proof.Machine.execSupplyLoss s
  | .supplyWithinLimits => Sys2Proof.Machine.execSupplyWithinLimits s
  | .contextReset core slot => Sys2Proof.Machine.execContextReset core slot s
  | .engineReset engine => Sys2Proof.Machine.execEngineReset engine s
  | .partitionReset handle => Sys2Proof.Machine.execPartitionReset handle s
  | .moduleComputeReset failed => Sys2Proof.Machine.execModuleComputeReset failed s
  | .resetClear j => Sys2Proof.Machine.execResetClear j s
  | .resetTimeout j engine router => Sys2Proof.Machine.execResetTimeout j engine router s
  | .modResetNAssert => Sys2Proof.Machine.execModResetNAssert s
  | .modResetNRelease => Sys2Proof.Machine.execModResetNRelease s
  | .start obs => Sys2Proof.Machine.execStart obs s
  | .hbmMarchPauseEnd stack badPages corrected => Sys2Proof.Machine.execHbmMarchPauseEnd stack badPages corrected s
  | .startReady => Sys2Proof.Machine.execStartReady s
  | .startFailed code => Sys2Proof.Machine.execStartFailed code s
  | .selfTestSample voltageOk clockOk inlet => Sys2Proof.Machine.execSelfTestSample voltageOk clockOk inlet s
  | .ageingHour obs => Sys2Proof.Machine.execAgeingHour obs s
  | .debugSessionEnd => Sys2Proof.Machine.execDebugSessionEnd s
  | .dapTransfer write address data count => Sys2Proof.Machine.execDapTransfer write address data count s
  | .tapInstruction code => Sys2Proof.Machine.execTapInstruction code s
  | .trayStatus flow valid cap => Sys2Proof.Machine.execTrayStatus flow valid cap s
  | .trayStatusMissing => Sys2Proof.Machine.execTrayStatusMissing s
  | .trayReqN => Sys2Proof.Machine.execTrayReqN s
  | .commit off data => Sys2Proof.Machine.execCommit off data s
  | .bar2Discard off length => Sys2Proof.Machine.execBar2Discard off length s
  | .hostRequestCompletion frame slot data poison => Sys2Proof.Machine.execHostRequestCompletion frame slot data poison s
  | .tierRequestCompletion port request poisoned => Sys2Proof.Machine.execTierRequestCompletion port request poisoned s
  | .ioDieGroupExcursion die => Sys2Proof.Machine.execIoDieGroupExcursion die s
  | .envelopeEvaluation inlet die => Sys2Proof.Machine.execEnvelopeEvaluation inlet die s
  | .firmwareMemoryError region => Sys2Proof.Machine.execFirmwareMemoryError region s

end Sys2Proof.Machine
end

