-- ==== Sys2Proof/Laws/Tab.lean ====
section
/-! SUPPORT. What the sparse tables and rising lists do: reading after writing, and the order kept. -/

namespace Sys2Proof.Machine

variable {α : Type}

/-! ## Reading after writing -/

theorem look?_put_same (t : Tab α) (k : Nat) (v : α) : look? (put t k v) k = some v := by
  induction t with
  | nil => simp [put, look?]
  | cons a t ih =>
    obtain ⟨i, b⟩ := a
    unfold put
    split
    · simp [look?]
    · split <;> simp_all [look?]

theorem look?_put_ne (t : Tab α) {k j : Nat} (v : α) (h : j ≠ k) : look? (put t k v) j = look? t j := by
  have h' : ¬k = j := fun e => h e.symm
  induction t with
  | nil => simp [put, look?, h']
  | cons a t ih =>
    obtain ⟨i, b⟩ := a
    unfold put
    split
    · simp [look?, h']
    · split
      · subst_vars; simp [look?, h']
      · simp [look?, ih]

/-- Reading the key written. -/
theorem look_put_same (t : Tab α) (k : Nat) (v d : α) : look (put t k v) k d = v := by
  simp [look, look?_put_same]

/-- Reading another key. -/
theorem look_put_ne (t : Tab α) {k j : Nat} (v d : α) (h : j ≠ k) : look (put t k v) j d = look t j d := by
  simp [look, look?_put_ne t v h]

theorem look?_cut_same (t : Tab α) (k : Nat) : look? (cut t k) k = none := by
  induction t with
  | nil => rfl
  | cons a t ih =>
    obtain ⟨i, b⟩ := a
    unfold cut at *
    by_cases h : i = k <;> simp_all [look?]

theorem look?_cut_ne (t : Tab α) {k j : Nat} (h : j ≠ k) : look? (cut t k) j = look? t j := by
  induction t with
  | nil => rfl
  | cons a t ih =>
    obtain ⟨i, b⟩ := a
    unfold cut at *
    by_cases hi : i = k
    · subst hi
      have h' : ¬i = j := fun e => h e.symm
      simp_all [look?]
    · simp_all [look?]

/-! ## Order -/

theorem rising_iff (l : List Nat) : rising l = true ↔ l.Pairwise (· < ·) := by
  induction l with
  | nil => simp [rising]
  | cons a t ih => simp [rising, ih, List.all_eq_true]

theorem rising_filter {l : List Nat} (p : Nat → Bool) (h : rising l = true) : rising (l.filter p) = true := by
  rw [rising_iff] at *
  exact h.sublist List.filter_sublist

theorem mem_addTo {l : List Nat} {k x : Nat} : x ∈ addTo l k → x = k ∨ x ∈ l := by
  induction l with
  | nil => simp [addTo]
  | cons a t ih =>
    unfold addTo
    split
    · simp
    · split
      · exact .inr
      · intro h
        rcases List.mem_cons.mp h with h | h
        · simp [h]
        · rcases ih h with h | h <;> simp [h]

theorem rising_addTo {l : List Nat} (k : Nat) (h : rising l = true) : rising (addTo l k) = true := by
  induction l with
  | nil => simp [addTo, rising]
  | cons a t ih =>
    rw [rising_iff, List.pairwise_cons] at h
    unfold addTo
    split
    · rw [rising_iff, List.pairwise_cons, List.pairwise_cons]
      refine ⟨fun b hb => ?_, h⟩
      rcases List.mem_cons.mp hb with rfl | hb
      · assumption
      · have := h.1 b hb; omega
    · split
      · rw [rising_iff, List.pairwise_cons]; exact h
      · rw [rising_iff, List.pairwise_cons]
        refine ⟨fun b hb => ?_, (rising_iff _).mp (ih ((rising_iff _).mpr h.2))⟩
        rcases mem_addTo hb with rfl | hb
        · omega
        · exact h.1 b hb

theorem rising_dropFrom {l : List Nat} (k : Nat) (h : rising l = true) : rising (dropFrom l k) = true :=
  rising_filter _ h

theorem mem_keys_put {t : Tab α} {k x : Nat} {v : α} : x ∈ keys (put t k v) → x = k ∨ x ∈ keys t := by
  induction t with
  | nil => simp [put, keys]
  | cons a t ih =>
    obtain ⟨i, b⟩ := a
    unfold put
    split
    · simp [keys]
    · split
      · simp_all [keys]
      · intro h
        simp only [keys, List.map_cons, List.mem_cons] at h ih ⊢
        rcases h with h | h
        · simp [h]
        · rcases ih h with h | h
          · exact .inl h
          · exact .inr (.inr h)

theorem rising_put {t : Tab α} (k : Nat) (v : α) (h : rising (keys t) = true) : rising (keys (put t k v)) = true := by
  induction t with
  | nil => simp [put, keys, rising]
  | cons a t ih =>
    obtain ⟨i, b⟩ := a
    simp only [keys, List.map_cons] at h ⊢
    rw [rising_iff, List.pairwise_cons] at h
    unfold put
    split
    · simp only [List.map_cons]
      rw [rising_iff, List.pairwise_cons, List.pairwise_cons]
      refine ⟨fun b hb => ?_, h⟩
      rcases List.mem_cons.mp hb with rfl | hb
      · assumption
      · have := h.1 b hb; omega
    · split
      · subst_vars
        simp only [List.map_cons]
        rw [rising_iff, List.pairwise_cons]; exact h
      · simp only [List.map_cons]
        rw [rising_iff, List.pairwise_cons]
        refine ⟨fun b hb => ?_, (rising_iff _).mp (ih ((rising_iff _).mpr h.2))⟩
        rcases mem_keys_put (v := v) hb with rfl | hb
        · omega
        · exact h.1 b hb

theorem keys_keep (t : Tab α) (p : Nat → Bool) : keys (keep t p) = (keys t).filter p := by
  simp [keys, keep, List.filter_map, Function.comp_def]

theorem rising_keep {t : Tab α} (p : Nat → Bool) (h : rising (keys t) = true) : rising (keys (keep t p)) = true := by
  rw [keys_keep]; exact rising_filter p h

theorem rising_cut {t : Tab α} (k : Nat) (h : rising (keys t) = true) : rising (keys (cut t k)) = true :=
  rising_keep (fun j => j ≠ k) h

end Sys2Proof.Machine
end

