-- ==== Sys2Proof/Laws/Memory.lean ====
section
/-! SUPPORT. Memory: every operation keeps the canonical form, a read after a write gives the value written, and a write
leaves every other byte alone. -/

namespace Sys2Proof.Machine

/-- The canonical form of the cells alone. -/
def cellsOk (cells : List Host.Cell) : Bool := rising (keys cells) && cells.all (fun c => c.2 ≠ 0)

theorem Memory.wf_iff (m : Memory) : m.wf = true ↔ cellsOk m.cells = true ∧ rising m.poison = true := by
  simp [Memory.wf, cellsOk, and_assoc]

theorem cellsOk_keep {l : List Host.Cell} (p : Nat → Bool) (h : cellsOk l = true) : cellsOk (keep l p) = true := by
  simp only [cellsOk, Bool.and_eq_true] at *
  refine ⟨rising_keep p h.1, ?_⟩
  rw [List.all_eq_true] at *
  intro x hx
  exact h.2 x ((List.mem_filter.mp hx).1)

theorem mem_put {α : Type} {t : Tab α} {k : Nat} {v : α} {x : Nat × α} : x ∈ put t k v → x = (k, v) ∨ x ∈ t := by
  induction t with
  | nil => simp [put]
  | cons a t ih =>
    obtain ⟨i, b⟩ := a
    unfold put
    split
    · simp
    · split
      · intro h; rcases List.mem_cons.mp h with h | h <;> simp [h]
      · intro h
        rcases List.mem_cons.mp h with h | h
        · simp [h]
        · rcases ih h with h | h <;> simp [h]

theorem cellsOk_writeByte {l : List Host.Cell} (a : Nat) (b : Byte) (h : cellsOk l = true) :
    cellsOk (writeByte l a b) = true := by
  unfold writeByte
  split
  · exact cellsOk_keep (fun j => j ≠ a) h
  · simp only [cellsOk, Bool.and_eq_true] at *
    refine ⟨rising_put _ _ h.1, ?_⟩
    rw [List.all_eq_true] at *
    intro x hx
    rcases mem_put hx with rfl | hx
    · simpa
    · exact h.2 x hx

theorem cellsOk_writeCells {l : List Host.Cell} (a : Nat) (d : List Byte) (h : cellsOk l = true) :
    cellsOk (writeCells l a d) = true := by
  induction d generalizing l a with
  | nil => exact h
  | cons b t ih => exact ih (a + 1) (cellsOk_writeByte a b h)

/-- Reading one byte of memory. -/
theorem readByte_writeByte (l : List Host.Cell) (a x : Nat) (b : Byte) :
    readByte (writeByte l a b) x = if x = a then b else readByte l x := by
  unfold readByte writeByte look
  by_cases h : x = a
  · subst h
    split
    · simp_all [look?_cut_same]
    · simp [look?_put_same]
  · split
    · simp [look?_cut_ne l h]
    · simp [look?_put_ne l b h]

/-- Reading one byte after a write of several. -/
theorem readByte_writeCells (l : List Host.Cell) (a x : Nat) (d : List Byte) :
    readByte (writeCells l a d) x = if a ≤ x ∧ x < a + d.length then d.getD (x - a) 0 else readByte l x := by
  induction d generalizing l a with
  | nil =>
    have : ¬(a ≤ x ∧ x < a + ([] : List Byte).length) := by simp only [List.length_nil]; omega
    rw [if_neg this]; rfl
  | cons b t ih =>
    simp only [writeCells, ih, readByte_writeByte, List.length_cons]
    by_cases h : x = a
    · subst h
      have h1 : ¬(x + 1 ≤ x ∧ x < x + 1 + t.length) := by omega
      have h2 : x ≤ x ∧ x < x + (t.length + 1) := by omega
      rw [if_neg h1, if_pos h2, if_pos rfl, Nat.sub_self, List.getD_cons_zero]
    · by_cases h1 : a + 1 ≤ x ∧ x < a + 1 + t.length
      · have h2 : a ≤ x ∧ x < a + (t.length + 1) := by omega
        have h3 : x - a = (x - (a + 1)) + 1 := by omega
        rw [if_pos h1, if_pos h2, h3, List.getD_cons_succ]
      · have h2 : ¬(a ≤ x ∧ x < a + (t.length + 1)) := by omega
        rw [if_neg h1, if_neg h2, if_neg h]

theorem rising_foldl_addTo {l p : List Nat} (h : rising p = true) : rising (l.foldl addTo p) = true := by
  induction l generalizing p with
  | nil => exact h
  | cons a t ih => exact ih (rising_addTo a h)

theorem rising_poisonAfter {p : List Nat} (a n : Nat) (mask : List Bool) (h : rising p = true) :
    rising (poisonAfter p a n mask) = true := by
  unfold poisonAfter
  generalize marksOf a n = l
  induction l generalizing p with
  | nil => exact h
  | cons k t ih =>
    refine ih ?_
    dsimp only
    split
    · exact rising_addTo _ h
    · split
      · exact rising_dropFrom _ h
      · exact h

theorem wf_poisonRange {m : Memory} (a n : Nat) (h : m.wf = true) : (poisonRange m a n).wf = true := by
  rw [Memory.wf_iff] at *
  exact ⟨h.1, rising_foldl_addTo h.2⟩

theorem wf_writePoison {m : Memory} (a : Nat) (d : List Byte) (mask : List Bool) (h : m.wf = true) :
    (writePoison m a d mask).wf = true := by
  rw [Memory.wf_iff] at *
  exact ⟨cellsOk_writeCells a d h.1, rising_poisonAfter _ _ _ h.2⟩

theorem wf_writeMem {m : Memory} (a : Nat) (d : List Byte) (h : m.wf = true) : (writeMem m a d).wf = true :=
  wf_writePoison a d [] h

theorem wf_writeNat {m : Memory} (a n v : Nat) (h : m.wf = true) : (writeNat m a n v).wf = true :=
  wf_writeMem a _ h

theorem wf_filter {m : Memory} (p q : Nat → Bool) (h : m.wf = true) :
    Memory.wf { cells := m.cells.filter (fun c => p c.1), poison := m.poison.filter q } = true := by
  rw [Memory.wf_iff] at *
  exact ⟨cellsOk_keep p h.1, rising_filter q h.2⟩

theorem wf_zeroRange {m : Memory} (lo hi : Nat) (h : m.wf = true) : (zeroRange m lo hi).wf = true :=
  wf_filter (fun a => a < lo || hi ≤ a) (fun k => 8 * k < lo || hi ≤ 8 * k) h

theorem wf_copyRange {m : Memory} (a b n : Nat) (h : m.wf = true) : (copyRange m a b n).wf = true := by
  have hz := wf_zeroRange b (b + n) h
  rw [Memory.wf_iff] at *
  refine ⟨?_, ?_⟩
  · unfold copyRange
    dsimp only
    generalize List.filter _ m.cells = l
    have : ∀ z, cellsOk z = true → cellsOk (l.foldl (fun l c => writeByte l (b + (c.1 - a)) c.2) z) = true := by
      induction l with
      | nil => intro z hz; exact hz
      | cons c t ih => intro z hz; exact ih _ (cellsOk_writeByte _ _ hz)
    exact this _ hz.1
  · unfold copyRange
    dsimp only
    generalize List.filter _ m.poison = l
    have : ∀ z, rising z = true → rising (l.foldl (fun p k =>
        (marksOf (b + (8 * k - a)) (markSize a)).foldl addTo p) z) = true := by
      induction l with
      | nil => intro z hz; exact hz
      | cons c t ih => intro z hz; exact ih _ (rising_foldl_addTo hz)
    exact this _ hz.2

theorem wf_each {α : Type} {f : α → Memory → Memory} (hf : ∀ a m, m.wf = true → (f a m).wf = true) (l : List α)
    {m : Memory} (h : m.wf = true) : (each l m f).wf = true := by
  unfold each
  induction l generalizing m with
  | nil => exact h
  | cons a t ih => exact ih (hf a m h)

end Sys2Proof.Machine
end

