-- ==== Sys2Proof/Laws/Keeps.lean ====
section
/-! SUPPORT. What every command keeps: the queue, the fuses but for the bits that can only be blown, and the canonical
form of memory. One relation, closed under composition, that every operation of the model is shown to satisfy. -/

namespace Sys2Proof.Machine

/-- R10, R838, R847: fuses only ever gain blown bits, within their numbers. -/
structure FuseStep (a b : Fuses) : Prop where
  ordering : b.ordering = a.ordering
  serial   : b.serial = a.serial
  count    : a.lcCount ≤ b.lcCount
  countMax : a.lcCount ≤ 16 → b.lcCount ≤ 16
  svn      : a.minSvn ≤ b.minSvn
  svnMax   : a.minSvn ≤ 64 → b.minSvn ≤ 64
  revoked  : a.revoked &&& b.revoked = a.revoked

theorem FuseStep.refl (a : Fuses) : FuseStep a a :=
  ⟨rfl, rfl, Nat.le_refl _, id, Nat.le_refl _, id, BitVec.and_self⟩

theorem FuseStep.trans {a b c : Fuses} (h : FuseStep a b) (k : FuseStep b c) : FuseStep a c where
  ordering := k.ordering.trans h.ordering
  serial := k.serial.trans h.serial
  count := Nat.le_trans h.count k.count
  countMax := fun x => k.countMax (h.countMax x)
  svn := Nat.le_trans h.svn k.svn
  svnMax := fun x => k.svnMax (h.svnMax x)
  revoked := by rw [← h.revoked, BitVec.and_assoc, k.revoked]

/-- The queue is as before, the fuses have only gained bits, and a memory in canonical form stays so. -/
structure Keeps (s t : State) : Prop where
  queue : t.pending = s.pending
  fuses : FuseStep s.fuses t.fuses
  mem   : s.mem.wf = true → t.mem.wf = true

theorem Keeps.refl (s : State) : Keeps s s := ⟨rfl, .refl _, id⟩

theorem Keeps.trans {s t u : State} (h : Keeps s t) (k : Keeps t u) : Keeps s u :=
  ⟨k.queue.trans h.queue, h.fuses.trans k.fuses, fun x => k.mem (h.mem x)⟩

/-- A state that differs from one kept in other fields only. -/
theorem Keeps.lit {s a : State}
    {nv_ : NonVolatile} {power_ : Power} {clocks_ : Clocks} {pins_ : Pins} {boot_ : Boot} {hp_ : HostPort}
    {frames_ : Tab Frame} {sup_ : Supervisor} {caps_ : Capability} {slices_ : Tab Slice} {xlat_ : Translation}
    {engines_ : Tab Engine} {cores_ : Tab Core} {hubs_ : Tab Hub} {regions_ : Tab Region} {mesh_ : Mesh}
    {narrow_ : List Msg} {fabric_ : Fabric} {tiers_ : Tab TierPort} {counts_ : Tab Nat} {outbox_ : List Out}
    {free_ : Nat} :
    Keeps s (State.mk
    a.pending a.fuses nv_ power_ clocks_ pins_ boot_ hp_ frames_ sup_ caps_ slices_ xlat_ a.mem engines_ cores_ hubs_
    regions_ mesh_ narrow_ fabric_ tiers_ counts_ outbox_ free_) ↔ Keeps s a :=
  ⟨fun h => ⟨h.queue, h.fuses, h.mem⟩, fun h => ⟨h.queue, h.fuses, h.mem⟩⟩

/-- A state that differs from one kept in other fields and in a memory still in canonical form. -/
theorem Keeps.litMem {s a : State}
    {nv_ : NonVolatile} {power_ : Power} {clocks_ : Clocks} {pins_ : Pins} {boot_ : Boot} {hp_ : HostPort}
    {frames_ : Tab Frame} {sup_ : Supervisor} {caps_ : Capability} {slices_ : Tab Slice} {xlat_ : Translation}
    {mem_ : Memory} {engines_ : Tab Engine} {cores_ : Tab Core} {hubs_ : Tab Hub} {regions_ : Tab Region}
    {mesh_ : Mesh} {narrow_ : List Msg} {fabric_ : Fabric} {tiers_ : Tab TierPort} {counts_ : Tab Nat}
    {outbox_ : List Out} {free_ : Nat}
    (h : Keeps s a) (m : a.mem.wf = true → mem_.wf = true) : Keeps s (State.mk
    a.pending a.fuses nv_ power_ clocks_ pins_ boot_ hp_ frames_ sup_ caps_ slices_ xlat_ mem_ engines_ cores_ hubs_
    regions_ mesh_ narrow_ fabric_ tiers_ counts_ outbox_ free_) :=
  h.trans ⟨rfl, .refl _, m⟩

/-- Either way. -/
theorem Keeps.ite {s a b : State} {c : Prop} [Decidable c] (h : c → Keeps s a) (k : ¬c → Keeps s b) :
    Keeps s (if c then a else b) := by
  split
  · exact h ‹_›
  · exact k ‹_›

theorem Keeps.each {α : Type} {f : α → State → State} {s : State} (l : List α) (h : ∀ a t, Keeps t (f a t)) :
    Keeps s (each l s f) := by
  unfold Machine.each
  induction l generalizing s with
  | nil => exact .refl s
  | cons a l ih => exact (h a s).trans ih

theorem Keeps.foldl {α : Type} {f : State → α → State} {s : State} (l : List α) (h : ∀ t a, Keeps t (f t a)) :
    Keeps s (l.foldl f s) := by
  induction l generalizing s with
  | nil => exact .refl s
  | cons a l ih => exact (h s a).trans ih

end Sys2Proof.Machine
end

