-- ==== Sys2Proof/WellFormed.lean ====
section
/-! DEFINITION. When a command's operands name units that a module can have: each number lies in the range the spec gives
its kind. -/

namespace Sys2Proof

/-- An operand with what it names. -/
inductive Operand where
  /-- R30, R41: a core ID. -/
  | core (n : Nat)
  /-- R40: an engine ID. -/
  | engine (n : Nat)
  /-- R30: a region index. -/
  | region (n : Nat)
  /-- R516: a region controller, or 48 for the supervisor. -/
  | controller (n : Nat)
  /-- R37: an HBM stack. -/
  | stack (n : Nat)
  /-- R410: a router. -/
  | router (n : Nat)
  /-- R410: an input port of a router. -/
  | link (n : Nat)
  /-- R419: a mesh endpoint. -/
  | endpoint (n : Nat)
  /-- R520: a Rolben port. -/
  | rolben (n : Nat)
  /-- R615: a tier port. -/
  | tier (n : Nat)
  /-- R624: a mailbox frame. -/
  | frame (n : Nat)
  /-- R642: a command slot of a frame. -/
  | mailbox (n : Nat)
  /-- R235: a context slot of a core. -/
  | context (n : Nat)
  /-- R372: a stream slot; 16 and 17 stand for the core and the cluster copy engine. -/
  | stream (n : Nat)
  /-- R595: an MSI-X vector. -/
  | vector (n : Nat)
  /-- R531: a member of a segment. -/
  | member (n : Nat)
  /-- R48: a slice handle. -/
  | handle (n : Nat)
  /-- R39: an edge I/O die. -/
  | die (n : Nat)
  /-- R593: BAR0 or BAR2. -/
  | bar (n : Nat)
  /-- R601: an HDM decoder. -/
  | decoder (n : Nat)
  /-- R612: a certificate slot. -/
  | certSlot (n : Nat)
  /-- R612: a 32-byte nonce. -/
  | nonce (l : List Byte)
  /-- R604: at most one 64-byte line. -/
  | line (l : List Byte)
  deriving DecidableEq, Repr

/-- The operand lies in its range. -/
def Operand.ok : Operand → Bool
  | .core n => decide (n < 3840)
  | .engine n => decide (n < 15360)
  | .region n => decide (n < 48)
  | .controller n => decide (n ≤ 48)
  | .stack n => decide (n < 96)
  | .router n => decide (n < 3840)
  | .link n => decide (n < 8)
  | .endpoint n => decide (n < 16384)
  | .rolben n => decide (n < 16)
  | .tier n => decide (n < 8)
  | .frame n => decide (n ≤ 48)
  | .mailbox n => decide (n < 16)
  | .context n => decide (n < 4)
  | .stream n => decide (n < 18)
  | .vector n => decide (n < 256)
  | .member n => decide (n < 32)
  | .handle n => decide (n < 65536)
  | .die n => decide (n < 4)
  | .bar n => decide (n = 0 ∨ n = 2)
  | .decoder n => decide (n < 2)
  | .certSlot n => decide (n < 8)
  | .nonce l => decide (l.length = 32)
  | .line l => decide (l.length ≤ 64)

/-- The operands of a command that name a unit or have a fixed size. -/
def operands : Instr → List Operand
  | .registerWrite bar _ _ => [.bar bar]
  | .hpEventEnWrite _ => []
  | .hpErrInfoClear _ => []
  | .hpMbRingCfgWrite _ => []
  | .msixUnmask vector => [.vector vector]
  | .commandCompletion frame slot => [.frame frame, .mailbox slot]
  | .commandTimeout frame slot => [.frame frame, .mailbox slot]
  | .capsRead frame slot => [.frame frame, .mailbox slot]
  | .defectRead frame slot => [.frame frame, .mailbox slot]
  | .fenceQuery frame slot => [.frame frame, .mailbox slot]
  | .ageingRead frame slot => [.frame frame, .mailbox slot]
  | .bistRead frame slot => [.frame frame, .mailbox slot]
  | .powerSetM0 frame slot => [.frame frame, .mailbox slot]
  | .powerSetM1 frame slot => [.frame frame, .mailbox slot]
  | .powerSetM2 frame slot => [.frame frame, .mailbox slot]
  | .powerSetM3 frame slot _ _ _ => [.frame frame, .mailbox slot]
  | .logRead frame slot => [.frame frame, .mailbox slot]
  | .lifecycleAdvance frame slot => [.frame frame, .mailbox slot]
  | .lifecycleReturn frame slot => [.frame frame, .mailbox slot]
  | .debugUnlockChallenge frame slot => [.frame frame, .mailbox slot]
  | .debugUnlockToken frame slot => [.frame frame, .mailbox slot]
  | .debugUnlockRelock frame slot => [.frame frame, .mailbox slot]
  | .fwStage frame slot => [.frame frame, .mailbox slot]
  | .fwActivate frame slot => [.frame frame, .mailbox slot]
  | .packInstall frame slot => [.frame frame, .mailbox slot]
  | .sliceCreate frame slot => [.frame frame, .mailbox slot]
  | .sliceDestroy frame slot => [.frame frame, .mailbox slot]
  | .sliceQuery frame slot => [.frame frame, .mailbox slot]
  | .sliceReset frame slot => [.frame frame, .mailbox slot]
  | .ctxLoad frame slot => [.frame frame, .mailbox slot]
  | .ctxStart frame slot => [.frame frame, .mailbox slot]
  | .ctxStop frame slot => [.frame frame, .mailbox slot]
  | .ctxSave frame slot => [.frame frame, .mailbox slot]
  | .ctxRestore frame slot => [.frame frame, .mailbox slot]
  | .ctxStatus frame slot => [.frame frame, .mailbox slot]
  | .memMap frame slot => [.frame frame, .mailbox slot]
  | .memUnmap frame slot => [.frame frame, .mailbox slot]
  | .memFill frame slot => [.frame frame, .mailbox slot]
  | .memCopy frame slot => [.frame frame, .mailbox slot]
  | .memDigest frame slot => [.frame frame, .mailbox slot]
  | .memScrub frame slot => [.frame frame, .mailbox slot]
  | .memPoisonQuery frame slot => [.frame frame, .mailbox slot]
  | .fabJoin frame slot _ => [.frame frame, .mailbox slot]
  | .fabLeave frame slot => [.frame frame, .mailbox slot]
  | .fabMembersRead frame slot => [.frame frame, .mailbox slot]
  | .fabMembersReplace frame slot => [.frame frame, .mailbox slot]
  | .fabRouteSet frame slot => [.frame frame, .mailbox slot]
  | .checkMode frame slot => [.frame frame, .mailbox slot]
  | .fenceSet frame slot => [.frame frame, .mailbox slot]
  | .fenceClear frame slot _ _ => [.frame frame, .mailbox slot]
  | .healPolicy frame slot => [.frame frame, .mailbox slot]
  | .injectPlan frame slot => [.frame frame, .mailbox slot]
  | .resetEscalate frame slot => [.frame frame, .mailbox slot]
  | .recordRead frame slot => [.frame frame, .mailbox slot]
  | .admitPrepare frame slot _ _ => [.frame frame, .mailbox slot]
  | .admitLoad frame slot => [.frame frame, .mailbox slot]
  | .admitCommit frame slot => [.frame frame, .mailbox slot]
  | .admitBarrierPoll frame slot _ _ => [.frame frame, .mailbox slot]
  | .mma core => [.core core]
  | .mmaGc core => [.core core]
  | .sumac core => [.core core]
  | .epi core => [.core core]
  | .loadComplete engine => [.engine engine]
  | .accumulationFinalisation engine _ => [.engine engine]
  | .epilogueOutput engine _ => [.engine engine]
  | .operandCheckVerify core slot stream => [.core core, .context slot, .stream stream]
  | .streamChunkDeliver core slot turn => [.core core, .context slot, .stream turn.place]
  | .stackCacheFill region _ _ => [.region region]
  | .vectorKernel core _ => [.core core]
  | .expressionProgram core _ => [.core core]
  | .merge turn => [.core turn.place]
  | .copy turn => [.core turn.place]
  | .copyHub turn => [.core turn.place]
  | .strmBind core => [.core core]
  | .strmUnbind core => [.core core]
  | .qSend core => [.core core]
  | .qRecv core => [.core core]
  | .ctlLoop core => [.core core]
  | .ctlJump core => [.core core]
  | .ctlWait core => [.core core]
  | .ctlYield core => [.core core]
  | .ctlHalt core => [.core core]
  | .msgSend core => [.core core]
  | .msgRecv core => [.core core]
  | .syncOpRead core => [.core core]
  | .syncOpInit core => [.core core]
  | .syncOpAdd core _ => [.core core]
  | .syncOpCas core => [.core core]
  | .syncOpPost core _ => [.core core]
  | .syncOpTake core => [.core core]
  | .syncOpArrive core _ => [.core core]
  | .syncOpWaitGe core => [.core core]
  | .syncOpWaitPhase core => [.core core]
  | .syncOpArriveWait core => [.core core]
  | .syncOpTakeWait core => [.core core]
  | .syncResponse _ => []
  | .syncCancel _ => []
  | .syncWaitRetry core slot => [.core core, .context slot]
  | .syncRemoteTimeout core slot _ => [.core core, .context slot]
  | .quantumEnd core => [.core core]
  | .routerPacketReceive router port _ _ => [.router router, .link port]
  | .readRequest turn => [.endpoint turn.ep]
  | .writePacket ep => [.endpoint ep]
  | .readResponse ep => [.endpoint ep]
  | .writeAck ep => [.endpoint ep]
  | .dropResponse ep => [.endpoint ep]
  | .orderAck ep => [.endpoint ep]
  | .tokenArrive ep => [.endpoint ep]
  | .flaggedPacket ep => [.endpoint ep]
  | .flaggedPacketRelease ep => [.endpoint ep]
  | .vc5Packet ep => [.endpoint ep]
  | .reductionPacketLand turn => [.endpoint turn.place]
  | .reductionAccept _ => []
  | .reductionReplayRequest _ => []
  | .reductionAbort _ => []
  | .routeRebuild _ _ => []
  | .switchOrder ep => [.endpoint ep]
  | .routeRetire => []
  | .messageDeliver _ _ => []
  | .orphanNotice _ => []
  | .openGrant _ => []
  | .openRequest _ => []
  | .creditReturn _ => []
  | .stallBeacon _ => []
  | .progressBeacon _ => []
  | .stallWindowEnd handle _ => [.handle handle]
  | .extendCommand _ => []
  | .twinCheckValue _ => []
  | .twinTimeout core slot _ _ _ => [.core core, .context slot]
  | .watchdogProgressReport _ => []
  | .watchdogExpiry handle _ => [.handle handle]
  | .signatureCheck core slot _ => [.core core, .context slot]
  | .translationWalk _ _ => []
  | .migrationComplete _ => []
  | .timeSliceEnd handle => [.handle handle]
  | .saveComplete handle _ => [.handle handle]
  | .restoreComplete handle _ => [.handle handle]
  | .contentionWindowEnd port _ _ _ => [.rolben port]
  | .entryWindowEnd port _ _ _ => [.rolben port]
  | .startToleranceExpire port => [.rolben port]
  | .trainCollision port _ _ => [.rolben port]
  | .trainReceive port _ _ _ => [.rolben port]
  | .trainAssemble port => [.rolben port]
  | .retransmitTimeout port member => [.rolben port, .member member]
  | .pairLost port member => [.rolben port, .member member]
  | .portFence port _ => [.rolben port]
  | .loopbackMeasure port _ => [.rolben port]
  | .joinSilenceExpire port => [.rolben port]
  | .ackHoldExpire port => [.rolben port]
  | .e2eAckDue _ => []
  | .hostLinkTrain _ _ => []
  | .hostLinkDown => []
  | .functionLevelReset => []
  | .cxlReset => []
  | .hotReset => []
  | .hdmDecoderCommit decoder _ _ _ _ _ => [.decoder decoder]
  | .hostMemRead _ _ => []
  | .hostMemWrite _ data _ => [.line data]
  | .birsp _ _ => []
  | .biTimeout _ => []
  | .h2dSnoop _ => []
  | .hostRequestTimeout frame slot => [.frame frame, .mailbox slot]
  | .doeDiscovery _ => []
  | .spdmGetVersion => []
  | .spdmGetCapabilities => []
  | .spdmNegotiateAlgorithms _ _ => []
  | .spdmGetDigests => []
  | .spdmGetCertificate slot _ _ => [.certSlot slot]
  | .spdmChallenge slot nonce => [.certSlot slot, .nonce nonce]
  | .spdmGetMeasurements _ slot _ nonce => [.certSlot slot, .nonce nonce]
  | .cdatTableAccess _ => []
  | .attestationExtension _ => []
  | .tierLinkDown port => [.tier port]
  | .tierDeviceHotAdd port _ => [.tier port]
  | .tierDeviceRemoval port _ => [.tier port]
  | .tierDeviceFatal port => [.tier port]
  | .tierRequestTimeout port _ => [.tier port]
  | .controllerHeartbeat region => [.region region]
  | .heartbeatTimeout region => [.region region]
  | .supervisorHeartbeat => []
  | .telemetry _ _ _ _ _ _ _ => []
  | .regulatorExcursion region _ => [.region region]
  | .pllLossOfLock region => [.region region]
  | .patrolPassComplete stack _ _ => [.stack stack]
  | .patrolWindowEnd region => [.region region]
  | .anisePassDue region => [.region region]
  | .anisePassComplete region _ => [.region region]
  | .injectionDue _ => []
  | .fence _ _ _ _ => []
  | .replacement handle _ _ => [.handle handle]
  | .thermalStep region _ _ => [.region region]
  | .shedRelease region _ _ => [.region region]
  | .powerWindowEnd _ _ _ => []
  | .powerRelease => []
  | .overcurrentThrottle => []
  | .regionPark region _ => [.region region]
  | .plannedDark region => [.region region]
  | .relight region _ _ _ => [.region region]
  | .thermalTrip _ _ => []
  | .referenceLoss => []
  | .referenceHoldoverExpire => []
  | .referenceReturn => []
  | .supplyBandChange _ => []
  | .supplyLoss => []
  | .supplyWithinLimits => []
  | .contextReset core slot => [.core core, .context slot]
  | .engineReset engine => [.engine engine]
  | .partitionReset handle => [.handle handle]
  | .moduleComputeReset _ => []
  | .resetClear _ => []
  | .resetTimeout _ _ _ => []
  | .modResetNAssert => []
  | .modResetNRelease => []
  | .start _ => []
  | .hbmMarchPauseEnd stack _ _ => [.stack stack]
  | .startReady => []
  | .startFailed _ => []
  | .selfTestSample _ _ _ => []
  | .ageingHour _ => []
  | .debugSessionEnd => []
  | .dapTransfer _ _ _ _ => []
  | .tapInstruction _ => []
  | .trayStatus _ _ _ => []
  | .trayStatusMissing => []
  | .trayReqN => []
  | .commit _ _ => []
  | .bar2Discard _ _ => []
  | .hostRequestCompletion frame slot _ _ => [.frame frame, .mailbox slot]
  | .tierRequestCompletion port _ _ => [.tier port]
  | .ioDieGroupExcursion die => [.die die]
  | .envelopeEvaluation _ _ => []
  | .firmwareMemoryError region => [.controller region]

/-- Every operand of a command lies in its range. -/
def wellFormed (i : Instr) : Bool := (operands i).all Operand.ok

end Sys2Proof
end

