-- ==== Sys2Proof/Certificates/Slice0/Obligations.lean ====
section
/-! DEFINITION. The statements about the model for the provers: what each command does when it acts, what every step keeps,
and what reset leaves. -/

namespace Sys2Proof.Claims

open Sys2Proof.Machine

/-- Slot `k` of frame `f` carries its command's code and response and waits for nothing but its completion (R651 step 3);
against the state `u`, nothing outside that slot has changed. -/
def Settled (u t : State) (f k code : Nat) (resp : List Byte) : Prop :=
  (∃ r, (mbSlot u f k).run = some r ∧
    mbSlot t f k = { mbSlot u f k with run := some { r with wait := .nothing, code := code, resp := resp } }) ∧
  t = { u with frames := t.frames } ∧
  (∀ f', (frameOf t f').owner = (frameOf u f').owner ∧ (frameOf t f').ring = (frameOf u f').ring) ∧
  ∀ f' k', (f', k') ≠ (f, k) → mbSlot t f' k' = mbSlot u f' k'

/-- In `t`, slot `k` of frame `f` holds its command `r`, whose effects are complete with a code and a response. -/
def Answered (t : State) (f k : Nat) (r : Running) (code : Nat) (resp : List Byte) : Prop :=
  (mbSlot t f k).run = some { r with wait := .nothing, code := code, resp := resp }

/-- In `t`, slot `k` of frame `f` holds its command `r`, which waits for `w`. -/
def Awaits (t : State) (f k : Nat) (r : Running) (w : Wait) : Prop := (mbSlot t f k).run = some { r with wait := w }

/-- The command `c` runs, and settles its mailbox slot with a code and a response over the effects that made `u`. -/
def Settles (c : Instr) (s u : State) (f k code : Nat) (resp : List Byte) : Prop :=
  ∃ t, exec c s = .next t ∧ Settled u t f k code resp

/-- What every step keeps: memory in canonical form, and fused counts within their numbers (R838, R847). -/
def Sound (s : State) : Prop := s.mem.wf = true ∧ s.fuses.lcCount ≤ 16 ∧ s.fuses.minSvn ≤ 64

/-- The payload words that a write from the start of a slot poisons (R515). -/
def BadWords (data : HostBytes) : List Nat :=
  (data.poison.filter (fun n => decide (64 ≤ 8 * n))).map (fun n => (8 * n - 64) / 8)

/-- The slot after a commit's bytes and sequence number have been taken (R645, R599): the payload bytes of the same write first,
with their poison. -/
def CommitTaken (s : State) (f k : Nat) (data : HostBytes) : State :=
  let body := data.bytes.drop 64
  setMb s f k { mbSlot s f k with
    payload := putPayload (mbSlot s f k).payload 0 body
    poison := if body.isEmpty then (mbSlot s f k).poison
      else payloadPoison (mbSlot s f k).poison 0 body.length (BadWords data)
    commit := BitVec.ofNat 64 (natOf (data.bytes.take 8)), last := cwSeq (natOf (data.bytes.take 8)) }

/-- The command a commit asks for, with the payload it acts on. -/
def CommitRun (s : State) (f k : Nat) (data : HostBytes) : Running :=
  let w := natOf (data.bytes.take 8)
  let t := CommitTaken s f k data
  runningOf t f k w (slotPayload (mbSlot t f k) (min (cwLen w) 4032))

/-- The command `r` of slot `k`, frame `f`, has completed with a code and a response (R648): the response bytes, then the
status word; the completion record goes to the enabled ring; no other slot, and nothing but the frames, the counters, the
host port, the answers of other modules it waited for and what leaves the module, has changed. -/
def Completed (s t : State) (f k : Nat) (r : Running) (code : Nat) (resp : List Byte) : Prop :=
  (mbSlot t f k).run = none ∧ (mbSlot t f k).status = statusWord r.seq 2 code resp.length ∧
  (mbSlot t f k).last = (mbSlot s f k).last ∧
  (∀ i (h : i < resp.length), look (mbSlot t f k).payload i 0 = resp[i]) ∧
  (∀ i, resp.length ≤ i → look (mbSlot t f k).payload i 0 = look (mbSlot s f k).payload i 0) ∧
  (∀ f' k', (f', k') ≠ (f, k) → mbSlot t f' k' = mbSlot s f' k') ∧
  (r.ring = true → (frameOf s f).ring.enable = true → s.hp.linkUp = true →
    Out.hostWrite ((frameOf s f).ring.base + 32 * ((frameOf s f).ring.written % ringRecords (frameOf s f).ring))
      (completionRecord s f k r ((frameOf s f).ring.written / ringRecords (frameOf s f).ring % 2 = 0) code resp.length) ∈ t.outbox ∧
    (frameOf t f).ring.written = (frameOf s f).ring.written + 1) ∧
  (r.ring = false → r.irq = false → t.outbox = s.outbox) ∧
  t = { s with frames := t.frames, hp := t.hp, counts := t.counts, outbox := t.outbox,
               fabric := { s.fabric with far := s.fabric.far.filter (fun g => !(g.frame = f && g.slot = k)) } }

/-- The image an accepted envelope stages. -/
def ImageOf (l : List Byte) : Image :=
  { digest := sha384 (envelopeOf l).body, svn := (envelopeOf l).svn, key := (envelopeOf l).key, revoke := (envelopeOf l).revoke }

/-- The rows of the synchronisation operations that do not wait, with their numbers of R328. -/
def SyncRows (c : Nat) : List (Instr × Nat) :=
  [(.syncOpRead c, 0), (.syncOpInit c, 1), (.syncOpAdd c false, 2), (.syncOpCas c, 3), (.syncOpPost c false, 4),
   (.syncOpTake c, 5), (.syncOpArrive c false, 6)]

/-- The rows of the waiting operations other than `arrive_wait`. -/
def WaitRows (c : Nat) : List (Instr × Nat) := [(.syncOpWaitGe c, 7), (.syncOpWaitPhase c, 8), (.syncOpTakeWait c, 0xA)]

/-- The sequencer of core `c` holds a well-formed `sync.op` of slot `k`, operation `op`, on an object of its own module, in a
slot that has no twin. -/
def SyncStep (s : State) (c k op : Nat) (d : BitVec 512) : Prop :=
  fetchStep s c 0x52 = .step k d ∧ syReserved d = false ∧ syResult d % 8 = 0 ∧ syOp d = op ∧ syRemote d = false ∧
  syResult d + 16 ≤ coreBytes ∧ (slotOf s c k).primary = none ∧ (slotOf s c k).twin = none ∧
  (slotOf s c k).syncs.any (fun y => y.step = (slotOf s c k).ip && decide (7 ≤ y.op)) = false ∧
  signaturesDiffer s c (slotOf s c k) = false

/-- Nothing of the machine but its cores, the anchors' records of them, the messages of the narrow network and the counters has
changed. -/
def CoresOnly (s t : State) : Prop := t = { s with cores := t.cores, slices := t.slices, narrow := t.narrow, counts := t.counts }

/-- What a fill of n bytes at the physical address p leaves (R360, R512): the pattern, and no poison in a word it touches. -/
def Filled (t : State) (p n pattern : Nat) : State :=
  let w := writePieces [(p, n)] (patternBytes pattern 0 n) [] t
  { w with mem := clearWords w.mem p n }

/-- The first packet at an endpoint that satisfies p is taken: the packet, and the state without it. -/
def Arrived (s : State) (ep : Nat) (p : Packet → Bool) (q : Packet) (t : State) : Prop := takeArrived s ep p = some (q, t)

/-- The packet `p` is the only one in a running router, at input port `port`; it is whole there, and none waits to enter. -/
def Alone (s : State) (router port : Nat) (p : Packet) : Prop :=
  routerUp s router = true ∧ port < 8 ∧ wire s router port = [p] ∧ (∀ x < 8, x ≠ port → wire s router x = []) ∧
  (∀ x < 8, look s.mesh.entering (router * 8 + x) [] = []) ∧ arrivedWhole s router port true p = true

/-- Nothing of the machine but the wafer mesh and the counters has changed. -/
def MeshOnly (s t : State) : Prop := t = { s with mesh := t.mesh, counts := t.counts }

/-- A packet as it enters a router's buffer. -/
def Entered (s : State) (p : Packet) : Packet := { p with seen := s.mesh.nextSeen, noted := false }

/-- No stream waits for one of these rows. -/
def NoStream (rows : List Row) : Prop := ∀ r ∈ rows, ∀ o ∈ r.owners, ∀ c k n, o.1 ≠ .stream c k n

/-- Command `i` leaves an SPDM or DOE response with this body, and changes no memory and nothing non-volatile. -/
def Responds (s : State) (i : Instr) (resp : List Byte) : Prop :=
  ∃ t, exec i s = .next t ∧ t.hp.doe.response = fit resp (roundUp resp.length 4) ∧ t.mem = s.mem ∧ t.nv = s.nv

end Sys2Proof.Claims

open Sys2Proof Sys2Proof.Machine Sys2Proof.Claims

/-- The model takes commands first in, first out (log entry 2): a step is `exec` of the front command over the rest of the queue. -/
def Obligations.StepRunsFront : Prop :=
  ∀ (c : Instr) (rest : List Instr) (s : State),
    step { s with pending := c :: rest } = exec c { s with pending := rest }

/-- The model's choice, log entry 2: with nothing to do the block lets its counters of R925 tick; a counter that the supervisor keeps advances while it has power. -/
def Obligations.EmptyQueueTicks : Prop :=
  ∀ s : State, s.pending = [] → ∃ t, step s = .next t ∧ t.pending = [] ∧ t.clocks = (tick s).clocks ∧
    (s.power.standby = true → s.sup.alive = true → t.clocks.sup = (s.clocks.sup + 1) % 2 ^ 64) ∧
    t.mem = s.mem ∧ t.fuses = s.fuses ∧ t.nv = s.nv ∧ t.frames = s.frames ∧ t.hp = s.hp

/-- R838 (16 count bits) and R847 (64 version bits), with the model's own canonical form of memory (log entry 12): every step keeps all three, from every state. -/
def Obligations.StepKeepsSound : Prop :=
  ∀ s t : State, Sound s → step s = .next t → Sound t

/-- R10: fusing is permanent. Whatever the command, a step leaves the ordering code, by which resources are fused off, and the serial number; it only raises the counts and the revocations. -/
def Obligations.FusesOnlyBlow : Prop :=
  ∀ s t : State, step s = .next t → FuseStep s.fuses t.fuses

/-- The queue is first in, first out: whatever a command does, the commands behind it stay as they were, in their order (log entry 2). Every command of the table completes in every state: none ends in a fault or a refusal. -/
def Obligations.StepTakesOneCommand : Prop :=
  (∀ s t : State, step s = .next t → t.pending = s.pending.tail) ∧
    ∀ (c : Instr) (s : State), ∃ t, exec c s = .next t ∧ t.pending = s.pending

/-- `State.reset` meets the invariant that every step keeps, and no command waits. -/
def Obligations.ResetSound : Prop :=
  Sound State.reset ∧ State.reset.pending = []

/-- The values of R596, R656 and R876 after reset, and R324's state words; that the life-cycle bit of `HP_ASSURE` reads 1 rests on the DEPLOYED module of log entry 8. -/
def Obligations.ResetRegisters : Prop :=
  State.reset.hp.event = 0 ∧ State.reset.hp.eventEn = 0 ∧ State.reset.hp.errInfo = 0 ∧ State.reset.hp.errAddr = 0 ∧
    ringCfgWord (frameOf State.reset 0).ring = 0 ∧ hpBoot State.reset = 0 ∧ hpAssure State.reset = 8 ∧
    hpStatus State.reset % 2 = 0 ∧ bitsOf (hpStatus State.reset) 7 25 = 0 ∧ bitsOf (hpStatus State.reset) 32 32 = 0 ∧
    (∀ r i, syncWord State.reset r i = 0) ∧ (∀ c k, (slotOf State.reset c k).state = .empty)

/-- Memory over the model's canonical list of cells: a write sets exactly its bytes, and clears the poison (R509, R512) of the words it covers. -/
def Obligations.MemoryReadsWhatWasWritten : Prop :=
  ∀ (m : Memory) (a : Nat) (data : List Byte),
    (∀ i (h : i < data.length), readByte (writeMem m a data).cells (a + i) = data[i]) ∧
    (∀ b, b < a ∨ a + data.length ≤ b → readByte (writeMem m a data).cells b = readByte m.cells b) ∧
    (m.wf = true → (writeMem m a data).wf = true) ∧
    (a % 8 = 0 → data.length % 8 = 0 → a + data.length ≤ 2 ^ 48 →
      ∀ w, (writeMem m a data).poison.contains w =
        (m.poison.contains w && !(decide (a ≤ 8 * w ∧ 8 * w < a + data.length))))

/-- R596: vector 0 is raised when software sets the enable while the bit is already set; with no such bit only `HP_EVENT_EN` changes. -/
def Obligations.EventEnableRaisesVector0 : Prop :=
  ∀ (s : State) (v : BitVec 64),
    (s.hp.event &&& v.setWidth 6 &&& ~~~s.hp.eventEn = 0 →
      exec (.hpEventEnWrite v) s = .next { s with hp := { s.hp with eventEn := v.setWidth 6 } }) ∧
    (∀ e : MsixEntry, s.hp.event &&& v.setWidth 6 &&& ~~~s.hp.eventEn ≠ 0 → s.hp.msixOn = true → look? s.hp.msix 0 = some e →
      e.masked = false → s.hp.linkUp = true →
      exec (.hpEventEnWrite v) s = .next { s with
        hp := { s.hp with eventEn := v.setWidth 6 }, outbox := .msix 0 e.addr.toNat e.data.toNat :: s.outbox })

/-- R596: `HP_EVENT` bits and valid of `HP_ERR_INFO` are W1C. -/
def Obligations.EventBitsClearByOne : Prop :=
  ∀ (s : State) (v : BitVec 64),
    (∀ bad, s.hp.linkUp = true → let u := openBars s
      exec (.registerWrite 0 0x20010 ⟨bytesOf 8 v.toNat, bad⟩) s =
        .next { u with hp := { u.hp with event := s.hp.event &&& ~~~(v.setWidth 6) } }) ∧
    (v.getLsbD 0 = true → exec (.hpErrInfoClear v) s = .next { s with hp := { s.hp with errInfo := 0, errAddr := 0 } }) ∧
    (v.getLsbD 0 = false → exec (.hpErrInfoClear v) s = .next s)

/-- R657: the ring of frame 0; size changes are ignored while the ring is enabled, and enabling restarts its index. -/
def Obligations.RingConfiguration : Prop :=
  ∀ (s : State) (v : BitVec 64),
    (ringCfgGood v.toNat = false → exec (.hpMbRingCfgWrite v) s = .next s) ∧
    (ringCfgGood v.toNat = true → ∃ t, exec (.hpMbRingCfgWrite v) s = .next t ∧ t = { s with frames := t.frames } ∧
      (∀ f, f ≠ 0 → frameOf t f = frameOf s f) ∧
      frameOf t 0 = { frameOf s 0 with ring :=
        { base := (frameOf s 0).ring.base, enable := v.getLsbD 0, vector := bitsOf v.toNat 8 8
          logSize := if (frameOf s 0).ring.enable then (frameOf s 0).ring.logSize else bitsOf v.toNat 1 4
          written := if !(frameOf s 0).ring.enable && v.getLsbD 0 then 0 else (frameOf s 0).ring.written } })

/-- R590: a masked vector's pending message is sent when it is unmasked if the link is then up, and discarded and counted otherwise. -/
def Obligations.UnmaskedVectorSends : Prop :=
  ∀ (s : State) (v : Nat), v < 256 → s.hp.msixPend.contains v = true → ∃ t, exec (.msixUnmask v) s = .next t ∧
    t.hp.msixPend = dropFrom s.hp.msixPend v ∧ (msixEntry t v) = { msixEntry s v with masked := false } ∧
    t.hp.msixOn = true ∧
    t.outbox = (if s.hp.linkUp then [.msix v (msixEntry s v).addr.toNat (msixEntry s v).data.toNat] else []) ++ s.outbox ∧
    t.counts = (if s.hp.linkUp then s.counts else (bump s ctrHostMsixDiscarded 0 1).counts) ∧
    t = { s with hp := t.hp, outbox := t.outbox, counts := t.counts } ∧ t.hp = { s.hp with msix := t.hp.msix, msixPend := t.hp.msixPend, msixOn := true }

/-- R645, case by case: a running slot discards, a repeated sequence number is ignored, the next one is accepted (or completes at once with the code of R944, or 0x8F of R515 for a poisoned payload), and any other resynchronises with code 0x02. -/
def Obligations.CommitsAreTaken : Prop :=
  ∀ (s : State) (off f k : Nat) (data : HostBytes), s.hp.linkUp = true → bar2Place s off = some (f, k, 0) →
    8 ≤ data.bytes.length → data.bytes.length ≤ 256 →
    let m := mbSlot s f k
    let w := natOf (data.bytes.take 8)
    let x := CommitRun s f k data
    (m.run.isSome = true → ∃ t, exec (.commit off data) s = .next t ∧ (mbSlot t f k).run = m.run ∧
      (mbSlot t f k).status = m.status ∧ (mbSlot t f k).last = m.last ∧ t.counts = (bump s ctrFrameDiscarded f 1).counts ∧
      t.outbox = s.outbox) ∧
    (m.run = none → cwSeq w = m.last → ∃ t, exec (.commit off data) s = .next t ∧ (mbSlot t f k).run = none ∧
      (mbSlot t f k).status = m.status ∧ (mbSlot t f k).last = m.last ∧ t.counts = s.counts ∧ t.outbox = s.outbox) ∧
    (m.run = none → cwSeq w ≠ m.last → cwSeq w = (m.last + 1) % 65536 →
      let code := acceptCode (commitCode (CommitTaken s f k data) f w x.payload) x
      (code = 0 → ∃ t, exec (.commit off data) s = .next t ∧ (mbSlot t f k).last = cwSeq w ∧
        (mbSlot t f k).status = statusWord (cwSeq w) 1 0 0 ∧
        (mbSlot t f k).run = some x) ∧
      (code ≠ 0 → ∃ t, exec (.commit off data) s = .next t ∧ (mbSlot t f k).last = cwSeq w ∧
        (mbSlot t f k).status = statusWord (cwSeq w) 2 code 0 ∧ (mbSlot t f k).run = none)) ∧
    (m.run = none → cwSeq w ≠ m.last → cwSeq w ≠ (m.last + 1) % 65536 →
      ∃ t, exec (.commit off data) s = .next t ∧ (mbSlot t f k).last = cwSeq w ∧
        (mbSlot t f k).status = statusWord (cwSeq w) 2 2 0 ∧ (mbSlot t f k).run = none)

/-- R648 steps 1 to 3 with the record of R658 and the place and phase of R659. -/
def Obligations.CompletionWritesTheSlot : Prop :=
  ∀ (s : State) (f k : Nat) (r : Running), (mbSlot s f k).run = some r → r.wait = .nothing →
    ∃ t, exec (.commandCompletion f k) s = .next t ∧ Completed s t f k r r.code r.resp

/-- R651: a command that reaches its timeout completes with code 0x09; its response is what R664 and R665 give a stopped command. -/
def Obligations.TimeoutCompletes : Prop :=
  ∀ (s : State) (f k n : Nat) (r : Running), (mbSlot s f k).run = some r → r.wait ≠ .nothing → r.timeout = some n →
    r.since + n ≤ s.clocks.sup →
    ∃ t, exec (.commandTimeout f k) s = .next t ∧ Completed s t f k r 9 (partResponse s r)

/-- R668 to R675, R682, R688, R703: a reading command answers from the state it finds and has no other effect. -/
def Obligations.QueriesAnswer : Prop :=
  ∀ (s : State) (f k : Nat) (r : Running),
    (due s f k 0x0101 = some r → Settles (.capsRead f k) s s f k 0 (capsBytes s)) ∧
    (due s f k 0x0102 = some r → Settles (.defectRead f k) s s f k 0
      (paged ((allRecords s).map defectBytes) (bitsOf (head8 r) 0 32) 32)) ∧
    (due s f k 0x0802 = some r → Settles (.fenceQuery f k) s s f k 0
      (paged ((fencedElements s).map (fun el => defectBytes (fenceRecord s el))) (bitsOf (head8 r) 0 32) 32)) ∧
    (due s f k 0x0103 = some r → Settles (.ageingRead f k) s s f k 0 (ageingBytes s)) ∧
    (due s f k 0x0104 = some r → Settles (.bistRead f k) s s f k 0 (bistBytes s.nv.bist)) ∧
    (due s f k 0x0106 = some r → Settles (.logRead f k) s s f k (logAnswer s f r).1 (logAnswer s f r).2) ∧
    (due s f k 0x0403 = some r → Settles (.sliceQuery f k) s s f k 0 (sliceBytes s r.handle)) ∧
    (due s f k 0x0506 = some r → Settles (.ctxStatus f k) s s f k (statusAnswer s r).1 (statusAnswer s r).2) ∧
    (due s f k 0x0902 = some r → Settles (.recordRead f k) s s f k (recordAnswer s f r).1 (recordAnswer s f r).2)

/-- R668: the header and the records of a paged response. -/
def Obligations.PagedResponsesHoldTheirRecords : Prop :=
  ∀ (recs : List (List Byte)) (first n : Nat), 1 ≤ n → n ≤ 4016 → (∀ x ∈ recs, x.length = n) → recs.length < 2 ^ 32 →
    first < 2 ^ 32 →
    let resp := paged recs first n
    let count := min (recs.length - first) (4016 / n)
    natAt resp 0 4 = recs.length ∧ natAt resp 4 4 = first ∧ natAt resp 8 2 = count ∧ natAt resp 10 2 = n ∧
    resp.length = 16 + count * n ∧ resp.length ≤ 4032 ∧
    ∀ i (h : first + i < recs.length), i < count → (resp.drop (16 + i * n)).take n = recs[first + i]

/-- R598: a read outside the slots, of another size or not aligned returns zero, and is counted and recorded with cause 0x62; any other answers with the slot's bytes (log entry 97). -/
def Obligations.DiscardedBar2Access : Prop :=
  ∀ (s : State) (off len : Nat), s.hp.linkUp = true →
    ((bar2Place s off = none ∨ len ≠ 4 ∧ len ≠ 8 ∨ off % len ≠ 0) →
      ∃ t, exec (.bar2Discard off len) s = .next t ∧ Out.barRead off 0 ∈ t.outbox ∧ t.hp.event.getLsbD 5 = true ∧
        (s.hp.errInfo = 0 → t.hp.errInfo.toNat = 1 + 0x62 * 2 ^ 8 ∧ t.hp.errAddr = BitVec.ofNat 64 off) ∧
        look t.counts (ctrKey ctrHostBar2Discarded 0) 0 =
          ctrAdd ctrHostBar2Discarded (look s.counts (ctrKey ctrHostBar2Discarded 0) 0) 1 ∧
        t = { s with hp := t.hp, counts := t.counts, outbox := t.outbox }) ∧
    (∀ f k n, bar2Place s off = some (f, k, n) → len = 4 ∨ len = 8 → off % len = 0 →
      exec (.bar2Discard off len) s =
        .next { openBars s with outbox := .barRead off (natAt (slotBytesOf (mbSlot s f k)) n len) :: s.outbox })

/-- R587 (link_change on each change of width or rate), R588 (the condition is reported to the tray, R941 event 6), R589 (what the link has met enters the registers first), R590 and the first row of R591's table; with `PERST_N` held nothing trains. -/
def Obligations.HostLinkChanges : Prop :=
  ∀ (s : State) (width : Nat) (x : Trained),
    let v := noteLink s x
    (s.pins.perst = false → (width = 2 ∨ width = 4 ∨ width = 8) → (x.rate = 3 ∨ x.rate = 4) →
      ∃ t, exec (.hostLinkTrain width x) s = .next t ∧
        t.hp.linkUp = true ∧ t.hp.width = width ∧ t.hp.rate = x.rate ∧ t.hp.config = v.hp.config ∧
        ((s.hp.width ≠ width ∨ s.hp.rate ≠ x.rate) → t.hp.event.getLsbD 0 = true) ∧
        ((s.hp.width = width ∧ s.hp.rate = x.rate) → t.hp = { v.hp with linkUp := true } ∧ t.outbox = s.outbox) ∧
        t = { s with hp := t.hp, counts := t.counts, outbox := t.outbox }) ∧
    (s.pins.perst = true → exec (.hostLinkTrain width x) s = .next v) ∧
    (s.pins.perst = false → ¬((width = 2 ∨ width = 4 ∨ width = 8) ∧ (x.rate = 3 ∨ x.rate = 4)) →
      exec (.hostLinkTrain width x) s = .next (trayEvent (linkDies v) 6 [])) ∧
    exec .hostLinkDown s = .next (each s.hp.backInv { s with hp := { s.hp with linkUp := false, waitReads := [] } }
      (fun b s => abandonSnoop s b)) ∧
    (s.hp.backInv = [] → exec .hostLinkDown s = .next { s with hp := { s.hp with linkUp := false, waitReads := [] } }) ∧
    exec .functionLevelReset s = .next { s with hp := { s.hp with
      msix := [], msixPend := [], msixOn := false, config := { s.hp.config with command := 0, bar0 := 4, bar2 := 4 } } }

/-- R591's table: a CXL Reset waits for BISnpInv of every held line, and for every answer still out, before it uncommits the decoders; a hot reset resets all CXL.io state, takes the link down, poisons the lines held A and drops the others. -/
def Obligations.PortResets : Prop :=
  ∀ s : State,
    (s.hp.filter = [] → s.hp.backInv = [] → exec .cxlReset s =
      .next { s with hp := { s.hp with cxlReset := false, decoder0 := .off, decoder1 := .off } }) ∧
    (s.hp.filter = [] → s.hp.backInv ≠ [] → exec .cxlReset s = .next { s with hp := { s.hp with cxlReset := true } }) ∧
    (s.hp.filter ≠ [] → ∃ t, exec .cxlReset s = .next t ∧ t.hp.cxlReset = true ∧ t.hp.decoder0 = s.hp.decoder0 ∧
      t.hp.decoder1 = s.hp.decoder1 ∧ t.hp.filter = s.hp.filter ∧
      (∀ e ∈ s.hp.filter, ∃ b ∈ t.hp.backInv, b.line = e.line ∧ (b.data = false ∨ b.again = true)) ∧
      t = { s with hp := t.hp, counts := t.counts, outbox := t.outbox }) ∧
    (let v := linkDies s
      ∃ t, exec .hotReset s = .next t ∧ t.hp = { v.hp with
          event := 0, eventEn := 0, errInfo := 0, errAddr := 0, msix := [], msixPend := [], msixOn := false, component := []
          doe := .fresh, config := { PortConfig.fresh with placed := v.hp.config.placed }
          filter := [], cxlReset := false, biOn := false, decoder0 := .off, decoder1 := .off } ∧
        t = { v with hp := t.hp, mem := t.mem } ∧ t.mem.cells = v.mem.cells) ∧
    (s.hp.backInv = [] → ∃ t, exec .hotReset s = .next t ∧ t.hp.linkUp = false ∧ t.hp.waitReads = [] ∧ t.hp.filter = [] ∧
      t.hp.decoder0.committed = false ∧ t.hp.decoder1.committed = false ∧
      t = { s with hp := t.hp, mem := t.mem } ∧ t.mem.cells = s.mem.cells)

/-- R601: the commit conditions of the two HDM decoders; `start` is where the DPA range of the decoder begins (decoder 1 follows decoder 0). -/
def Obligations.DecoderCommits : Prop :=
  ∀ (s : State) (n base size skip ways : Nat) (biOn : Bool), base % 2 ^ 28 = 0 → size % 2 ^ 28 = 0 → skip % 2 ^ 28 = 0 →
    let start := if n = 0 then skip else (if s.hp.decoder0.committed then s.hp.decoder0.skip + s.hp.decoder0.size else 0) + skip
    let take (ok : Bool) : Host.Outcome State Fault Refusal :=
      let d : HdmDecoder := { base := base, skip := skip, size := size, committed := ok, error := !ok }
      .next { s with hp := if n = 0 then { s.hp with biOn := biOn, decoder0 := d } else { s.hp with biOn := biOn, decoder1 := d } }
    (n < 2 → ways = 1 → biOn = true → 0 < size → (start + size ≤ 2 ^ 48 ∨ 2 ^ 48 ≤ start) → start + size ≤ 2 ^ 49 →
      exec (.hdmDecoderCommit n base size skip ways biOn) s = take true) ∧
    (n < 2 → (ways ≠ 1 ∨ biOn = false ∨ (start < 2 ^ 48 ∧ 2 ^ 48 < start + size)) →
      exec (.hdmDecoderCommit n base size skip ways biOn) s = take false) ∧
    (2 ≤ n → exec (.hdmDecoderCommit n base size skip ways biOn) s = .next s)

/-- R602 and R603: what a host access does once its translation is known (`touch` looks it up), and R609: every H2D snoop is answered. -/
def Obligations.HostMemoryAccesses : Prop :=
  ∀ (s t : State) (dpa p : Nat) (sh : Bool) (data : List Byte) (bad : Bool) (line : Nat), decoded s dpa = true →
    (touch s .hostPort (gaOfDpa s (dpa / 64 * 64)) 64 false = (t, .ok p sh) →
      exec (.hostMemRead dpa ⟨0, .good⟩) s = .next (recordLine (emit (bump t ctrHostReads 0 1)
        (.hostData (dpa / 64 * 64) (readPhys t p 64) (poisoned t.mem p 64))) (dpa / 64) 0)) ∧
    (∀ c, touch s .hostPort (gaOfDpa s (dpa / 64 * 64)) 64 false = (t, .fault c) →
      exec (.hostMemRead dpa ⟨0, .good⟩) s =
        .next (refuseHost (emit t (.hostData (dpa / 64 * 64) (List.replicate 64 0) true)) c (dpa / 64 * 64) false)) ∧
    (dpa % 64 + data.length ≤ 64 → data ≠ [] → touch s .hostPort (gaOfDpa s dpa) data.length true = (t, .ok p sh) →
      exec (.hostMemWrite dpa data bad) s =
        .next (bump (physWrite t p data (if bad then List.replicate 8 true else [])) ctrHostWrites 0 1)) ∧
    (dpa % 64 + data.length ≤ 64 → data ≠ [] → ∀ c, touch s .hostPort (gaOfDpa s dpa) data.length true = (t, .reject c) →
      exec (.hostMemWrite dpa data bad) s = .next (refuseHost t c dpa true)) ∧
    exec (.h2dSnoop line) s = .next { s with outbox := .snoopResp line :: s.outbox }

/-- R605, R604 (a BISnpInv still owed follows an answered BISnpData) and R606 steps 1, 3 and 4. -/
def Obligations.BackInvalidations : Prop :=
  ∀ (s : State) (line : Nat) (b : BackInval), s.hp.backInv.find? (fun x => x.line = line) = some b →
    let kept := if b.data then s.hp.filter.map (fun e => if e.line = line then { e with exclusive := false } else e)
      else s.hp.filter.filter (fun e => e.line ≠ line)
    exec (.birsp line []) s = .next (endSnoop { s with hp := { s.hp with filter := kept } } b) ∧
    (b.since + 10 * ticksPerMs ≤ look s.clocks.die 0 0 → exec (.biTimeout line) s = .next (abandonSnoop s b)) ∧
    (look s.clocks.die 0 0 < b.since + 10 * ticksPerMs → exec (.biTimeout line) s = .next s) ∧
    (b.units = [] → s.hp.waitReads = [] → s.fabric.waitRows = [] → s.hp.cxlReset = false →
      (b.again = false → ∃ t, exec (.birsp line []) s = .next t ∧ (∀ x ∈ t.hp.backInv, x.line ≠ line) ∧ t.mem = s.mem ∧
        t.hp.filter = kept ∧ t = { s with hp := t.hp, fabric := t.fabric }) ∧
      (b.again = true → b.data = true → (s.hp.filter.any (fun e => e.line = line)) = true →
        ∃ t, exec (.birsp line []) s = .next t ∧ Out.bisnp line false ∈ t.outbox ∧
          (∃ x ∈ t.hp.backInv, x.line = line ∧ x.data = false) ∧ t.hp.filter = kept ∧ t.mem = s.mem) ∧
      (b.since + 10 * ticksPerMs ≤ look s.clocks.die 0 0 → ∃ t, exec (.biTimeout line) s = .next t ∧
        (∀ x ∈ t.hp.backInv, x.line ≠ line) ∧ (∀ e ∈ t.hp.filter, e.line ≠ line) ∧ t.hp.event.getLsbD 2 = true ∧
        (s.hp.errInfo = 0 → t.hp.errInfo.toNat = 1 + 0x91 * 2 ^ 8 ∧ t.hp.errAddr = BitVec.ofNat 64 (gaOfDpa s (line * 64))) ∧
        t.mem.cells = s.mem.cells))

/-- R865: the transitions of `power.set`. Where nothing is in the cores and no slice exists, M1 is what its mask says; the way to M3 begins the self-test of R897, ends it, and waits for the ports that leave under R533. -/
def Obligations.PowerSetReachesItsTarget : Prop :=
  ∀ (s : State) (f k : Nat) (r : Running) (failed : List Element) (common : Bool) (vmin : List Nat),
    due s f k 0x0105 = some r →
    (bitsOf (head8 r) 0 3 = 0 → s.power.state = .m1 →
      exec (.powerSetM0 f k) s = .next (settle (enterRunning s .m0 0) f k 0 []) ∧
      (s.slices = [] → s.cores = [] → ∃ t, exec (.powerSetM0 f k) s = .next t ∧ t.power.state = .m0 ∧ t.power.mask = 0 ∧
        Answered t f k r 0 [] ∧ ∀ x ∈ regionList s, (demandsOf t x).mask = false)) ∧
    (bitsOf (head8 r) 0 3 = 0 → s.power.state = .m2 → ∃ t, exec (.powerSetM0 f k) s = .next t ∧ t.power.state = .m0 ∧
      t.sup.powerMove = some 0 ∧ Awaits t f k r (.power 0) ∧ t.mem = s.mem) ∧
    (bitsOf (head8 r) 0 3 = 0 → s.power.state = .m3 → ∃ t, exec (.powerSetM0 f k) s = .next t ∧ t.power = s.power ∧
      t.sup.powerMove = some 0 ∧ Awaits t f k r (.power 0) ∧ t.mem = s.mem) ∧
    (bitsOf (head8 r) 0 3 = 1 → (s.power.state = .m0 ∨ s.power.state = .m1) →
      let mask := BitVec.ofNat 48 (bitsOf (head8 r) 8 48)
      exec (.powerSetM1 f k) s = .next (settle (enterRunning s .m1 mask) f k 0 []) ∧
      (s.slices = [] → s.cores = [] → ∃ t, exec (.powerSetM1 f k) s = .next t ∧ t.power.state = .m1 ∧ t.power.mask = mask ∧
        Answered t f k r 0 [] ∧ ∀ x ∈ regionList s, (demandsOf t x).mask = mask.getLsbD x)) ∧
    (bitsOf (head8 r) 0 3 = 2 → (s.power.state = .m0 ∨ s.power.state = .m1) → s.slices = [] →
      exec (.powerSetM2 f k) s = .next (settle (enterM2 s) f k 0 []) ∧
      ∃ t, exec (.powerSetM2 f k) s = .next t ∧ t.power.state = .m2 ∧ t.power.mask = 0) ∧
    (bitsOf (head8 r) 0 3 = 3 → (s.power.state = .m0 ∨ s.power.state = .m1) → s.slices = [] → s.boot.phase ≠ 7 → r.progress = 0 →
      ∃ t, exec (.powerSetM3 f k failed common vmin) s = .next t ∧ t.nv.testMark = true ∧ t.nv.bist.running = true ∧
        t.nv.bist.began = s.clocks.sup ∧ (mbSlot t f k).run = some { r with progress := 1 } ∧ t.power = s.power) ∧
    (bitsOf (head8 r) 0 3 = 3 → s.power.state = .m2 → s.slices = [] → s.boot.phase ≠ 7 → r.progress ≠ 2 → joinedPorts s = [] →
      exec (.powerSetM3 f k failed common vmin) s = .next (settle (enterM3 (noteDown { s with
        nv := { s.nv with bist := { SelfTest.none with stamp := s.clocks.sup } }, sup := { s.sup with powerMove := none } })) f k 0 [])) ∧
    (bitsOf (head8 r) 0 3 = 3 → (s.power.state = .m0 ∨ s.power.state = .m1 ∨ s.power.state = .m2) → s.slices = [] →
      s.boot.phase ≠ 7 → r.progress = 2 →
      (portsLeft s (joinedPorts s) = true → exec (.powerSetM3 f k failed common vmin) s =
          .next (settle (enterM3 (noteDown { s with sup := { s.sup with powerMove := none } })) f k 0 []) ∧
        ∃ t, exec (.powerSetM3 f k failed common vmin) s = .next t ∧ t.power.state = .m3 ∧ t.power.mask = 0 ∧ t.regions = [] ∧
          t.fabric.moduleId = 0) ∧
      (portsLeft s (joinedPorts s) = false → exec (.powerSetM3 f k failed common vmin) s = .next s))

/-- R674: codes 0x22 and 0x26 of `power.set`; a refused command has no effect (R944). -/
def Obligations.PowerSetRefused : Prop :=
  ∀ (s : State) (f k : Nat) (r : Running) (failed : List Element) (common : Bool) (vmin : List Nat),
    due s f k 0x0105 = some r →
    (bitsOf (head8 r) 0 3 = 2 → s.slices ≠ [] → Settles (.powerSetM2 f k) s s f k 0x22 []) ∧
    (bitsOf (head8 r) 0 3 = 3 → s.slices ≠ [] → Settles (.powerSetM3 f k failed common vmin) s s f k 0x22 []) ∧
    (bitsOf (head8 r) 0 3 = 2 → s.slices = [] → s.power.state ≠ .m0 → s.power.state ≠ .m1 →
      Settles (.powerSetM2 f k) s s f k 0x26 [])

/-- R841: a verified transition is fused (R838: one count bit) before its remaining effects, and one to RETURNED or SCRAPPED first waits for the Rolben ports that leave under R533; R677: refused while slices exist. -/
def Obligations.LifeCycleTransitions : Prop :=
  ∀ (s : State) (f k op : Nat) (c : Instr) (r : Running),
    (op = 0x0201 ∧ c = .lifecycleAdvance f k ∨ op = 0x0202 ∧ c = .lifecycleReturn f k) → due s f k op = some r →
    let target := bitsOf (head8 r) 0 3
    let l := (gathered_ s op).bytes ++ r.payload.drop 8
    let last := r.progress = 0 ∧ s.slices = [] ∧ bitsOf (head8 r) 16 32 = (gathered_ s op).bytes.length ∧ bitAt (head8 r) 8 = true
    (r.progress = 0 → s.slices ≠ [] → Settles c s s f k 0x22 []) ∧
    (last → lifeCode_ s op target l ≠ 0 → ∃ u, exec c s = .next u ∧ Answered u f k r (lifeCode_ s op target l) [] ∧
      u.fuses = s.fuses ∧ u.nv = s.nv ∧ u.mem = s.mem ∧ u.sup.session = s.sup.session) ∧
    (last → lifeCode_ s op target l = 0 →
      (target = 1 ∨ target = 2 ∨ portsLeft s (joinedPorts s) = true) →
      ∃ u, exec c s = .next u ∧ u.fuses = { s.fuses with life := lifeOf target, lcCount := s.fuses.lcCount + 1 } ∧
        u.sup.session = none ∧ u.sup.lifeMove = some target ∧
        (target = 1 ∨ target = 2 → u.mem = s.mem ∧
          (mbSlot u f k).run = some { r with progress := 1, resp := (envelopeOf l).body })) ∧
    (last → lifeCode_ s op target l = 0 → (target = 3 ∨ target = 4) → portsLeft s (joinedPorts s) = false →
      ∃ u, exec c s = .next u ∧ u.fuses = s.fuses ∧ u.sup.session = none ∧ u.sup.lifeMove = some target ∧ u.mem = s.mem ∧
        (∀ p ∈ joinedPorts s, (portOf u p).leaving = true) ∧
        (mbSlot u f k).run = some { r with progress := 2, resp := (envelopeOf l).body }) ∧
    (r.progress = 2 → exec c s = .next (advanceLife s f k target r)) ∧
    (r.progress = 1 → exec c s = .next (settle (finishLife s target r.resp) f k 0 []))

/-- R860 and R861: the three operations of `debug.unlock`; R859: the states in which a token opens a view. The challenge itself is a free value (log entry 4). -/
def Obligations.DebugUnlock : Prop :=
  ∀ (s : State) (f k : Nat) (r : Running), due s f k 0x0203 = some r →
    (tokenStates s = true → bitsOf (head8 r) 0 8 = 0 → ∃ c, c.length = 32 ∧ Settles (.debugUnlockChallenge f k) s
      (bump (journal { s with sup := { s.sup with challenge := some (c, s.clocks.sup), challengeN := s.sup.challengeN + 1 } } 3 0 0 false)
        ctrModChallenges 0 1) f k 0 c) ∧
    (tokenStates s = true → bitsOf (head8 r) 0 8 = 1 → look? s.sup.gathers 0x0203 = none → bitsOf (head8 r) 16 32 = 0 →
      bitAt (head8 r) 8 = true →
      let g : Gather := { bytes := r.payload.drop 8, challenge := s.sup.challenge }
      let b := natOf (envelopeOf g.bytes).body
      ∃ t, exec (.debugUnlockToken f k) s = .next t ∧ t.sup.challenge = none ∧
        (mbSlot t f k).run = some { r with wait := .nothing, code := tokenCode s g, resp := [] } ∧
        (tokenCode s g = 0 → t.sup.session = some (bitAt b 2 || bitAt b 3, bitsOf b 16 16, s.clocks.sup)) ∧
        (tokenCode s g ≠ 0 → t.sup.session = s.sup.session)) ∧
    (tokenStates s = true → bitsOf (head8 r) 0 8 = 2 → ∃ t, exec (.debugUnlockRelock f k) s = .next t ∧ t.sup.session = none ∧
      (mbSlot t f k).run = some { r with wait := .nothing, code := 0, resp := [] } ∧ t.sup.challenge = s.sup.challenge) ∧
    (tokenStates s = false →
      (bitsOf (head8 r) 0 8 = 0 → Settles (.debugUnlockChallenge f k) s s f k 0x26 []) ∧
      (bitsOf (head8 r) 0 8 = 1 → Settles (.debugUnlockToken f k) s s f k 0x26 []) ∧
      (bitsOf (head8 r) 0 8 = 2 → Settles (.debugUnlockRelock f k) s s f k 0x26 []))

/-- R679, R680: each chunk of an upload, what a verified one leaves in the non-volatile store, and what activation does. `b` is what has been gathered, with the chunk. -/
def Obligations.FirmwareUploads : Prop :=
  ∀ (s : State) (f k : Nat) (r : Running),
    (due s f k 0x0301 = some r →
      let b := (gathered_ s 0x0301).bytes ++ r.payload.drop 8
      let fits := bitsOf (head8 r) 0 32 + (r.payload.length - 8) ≤ 2 ^ 26 ∧ bitsOf (head8 r) 0 32 = (gathered_ s 0x0301).bytes.length
      (¬fits → ∃ u, exec (.fwStage f k) s = .next u ∧ Answered u f k r 0x25 [] ∧ u.nv = s.nv ∧ (gathered_ u 0x0301).bytes = []) ∧
      (fits → bitAt (head8 r) 32 = false → ∃ u, exec (.fwStage f k) s = .next u ∧ Answered u f k r 0 (bytesOf 8 b.length) ∧
        u.nv = s.nv ∧ (gathered_ u 0x0301).bytes = b) ∧
      (fits → bitAt (head8 r) 32 = true → envelopeCode s 1 b = 0 → ∃ u, exec (.fwStage f k) s = .next u ∧
        Answered u f k r 0 (bytesOf 8 b.length) ∧ u.nv = { s.nv with staged := some (ImageOf b) } ∧ u.fuses = s.fuses ∧
        u.mem = s.mem ∧ (gathered_ u 0x0301).bytes = []) ∧
      (fits → bitAt (head8 r) 32 = true → envelopeCode s 1 b ≠ 0 → ∃ u, exec (.fwStage f k) s = .next u ∧
        Answered u f k r (envelopeCode s 1 b) [] ∧ u.nv = s.nv ∧ (gathered_ u 0x0301).bytes = [])) ∧
    (due s f k 0x0303 = some r →
      let b := (gathered_ s 0x0303).bytes ++ r.payload.drop 8
      let fits := bitsOf (head8 r) 0 32 + (r.payload.length - 8) ≤ 2 ^ 24 ∧ bitsOf (head8 r) 0 32 = (gathered_ s 0x0303).bytes.length
      (¬fits → ∃ u, exec (.packInstall f k) s = .next u ∧ Answered u f k r 0x25 [] ∧ u.nv = s.nv ∧ (gathered_ u 0x0303).bytes = []) ∧
      (fits → bitAt (head8 r) 32 = false → ∃ u, exec (.packInstall f k) s = .next u ∧ Answered u f k r 0 (bytesOf 8 b.length) ∧
        u.nv = s.nv ∧ (gathered_ u 0x0303).bytes = b) ∧
      (fits → bitAt (head8 r) 32 = true → envelopeCode s 2 b = 0 → ∃ u, exec (.packInstall f k) s = .next u ∧
        Answered u f k r 0 (bytesOf 8 b.length) ∧
        u.nv = { s.nv with packs := put s.nv.packs (bitsOf (head8 r) 40 8) (sha384 (envelopeOf b).body, (envelopeOf b).svn) } ∧
        u.fuses = s.fuses ∧ u.mem = s.mem ∧ (gathered_ u 0x0303).bytes = []) ∧
      (fits → bitAt (head8 r) 32 = true → envelopeCode s 2 b ≠ 0 → ∃ u, exec (.packInstall f k) s = .next u ∧
        Answered u f k r (envelopeCode s 2 b) [] ∧ u.nv = s.nv ∧ (gathered_ u 0x0303).bytes = [])) ∧
    (due s f k 0x0302 = some r →
      (∀ im, s.nv.staged = some im →
        Settles (.fwActivate f k) s { s with nv := { s.nv with nextImage := some im, staged := none } } f k 0 []) ∧
      (s.nv.staged = none → Settles (.fwActivate f k) s s f k 0x25 []))

/-- R926 (loss of the reference), R909 (bands), R910 and R823 (what a supply loss keeps), R911 and R912. -/
def Obligations.ReferenceAndSupply : Prop :=
  ∀ (s : State) (mv : Nat),
    (s.power.refLost = false → ∃ t, exec .referenceLoss s = .next t ∧ t.power.refLost = true ∧ t.power.refSince = s.clocks.sup ∧
      t.sup.envelope = false ∧ t.mem = s.mem ∧ t.cores = s.cores ∧
      (∃ n l, t.outbox = .mctp 3 n l :: s.outbox ∧ natAt l 8 1 = 9 ∧ natAt l 12 1 = 0)) ∧
    (s.power.standby = true → bandOf mv ≠ s.power.band → bandOf mv ≠ .lost → ∃ t, exec (.supplyBandChange mv) s = .next t ∧
      t.power.band = bandOf mv ∧ t.power.inputMv = mv ∧ (bandOf mv = .marginal → t.sup.envelope = false ∧ t.power.within = false) ∧
      (∃ n l, t.outbox = .mctp 3 n l :: s.outbox ∧ natAt l 8 1 = 8 ∧ natAt l 12 1 = bandCode (bandOf mv)) ∧ t.mem = s.mem) ∧
    (∃ t, exec .supplyLoss s = .next t ∧ t.fuses = s.fuses ∧ t.nv.map = s.nv.map ∧ t.pending = s.pending ∧ t.power.band = .lost ∧
      t.power.standby = false ∧ t.sup.alive = false ∧ t.mem = { cells := [], poison := [] } ∧ t.slices = [] ∧ t.cores = [] ∧
      t.frames = []) ∧
    (bandOf s.power.inputMv = .operating → exec .supplyWithinLimits s = .next { s with
      power := { s.power with band := .operating, within := true, standby := true }
      sup := { s.sup with alive := s.sup.alive || !s.pins.modReset } })

/-- R926: holdover and its end, over the operation `demand` of R922. -/
def Obligations.ReferenceHoldover : Prop :=
  ∀ s : State, s.power.refLost = true →
    (s.power.refParked = false → s.power.refSince + 100 * ticksPerMs ≤ s.clocks.sup →
      let up := (regionList s).filter (fun r => regionsRun s && (shedOf s r = .lit || shedOf s r = .throttled))
      let u := each up (bump { s with power := { s.power with refParked := true } } ctrModRefParked 0 up.length)
        (fun r s => demand s r (fun d => { d with reference := true }))
      exec .referenceHoldoverExpire s = .next (each (joinedPorts u) u (fun p s => setPort s p { portOf s p with quiet := true }))) ∧
    (∃ t, exec .referenceReturn s = .next t ∧ (∃ n l o, t.outbox = .mctp 3 n l :: o ∧ natAt l 8 1 = 9 ∧ natAt l 12 1 = 1)) ∧
    ((∀ r, r < 48 → (demandsOf s r).reference = false) → joinedPorts s = [] → exec .referenceReturn s =
      .next (trayEvent { s with power := { s.power with refLost := false, refParked := false } } 9 (bytesOf 1 1)))

/-- R716, R717, R932, R942: bit [0] of `HP_ASSURE`, its lapse, and holds. -/
def Obligations.EnvelopeFollowsItsConditions : Prop :=
  ∀ (s : State) (inlet die : Int) (flow cap : Nat) (valid : Bool),
    (∃ t, exec (.envelopeEvaluation inlet die) s = .next t ∧ t.power = { s.power with inlet := inlet, ioDie := die } ∧
      t.sup.envelope = insideEnvelope t ∧ t.sup.holds = assureHolds t ∧
      (s.sup.envelope = true → insideEnvelope t = false → t.sup.lapse = 1) ∧
      (s.sup.holds = true → t.sup.holds = false → s.sup.lapses + 1 < 2 ^ 32 → t.sup.lapses = s.sup.lapses + 1) ∧
      t = { s with power := t.power, sup := t.sup, counts := t.counts }) ∧
    ((valid = false ∨ flow < 600) → ∃ t, exec (.trayStatus flow valid cap) s = .next t ∧ t.sup.envelope = false ∧
      t.power.flow = flow ∧ t.power.trayAt = s.clocks.sup) ∧
    (valid = true → 600 ≤ flow → ∃ t, exec (.trayStatus flow valid cap) s = .next t ∧ t.sup = s.sup ∧
      t.power.trayCap = (if cap = 0 then 34000 else max 20000 (min cap 34000)) ∧ t.pins = { s.pins with trayBusy := false }) ∧
    (s.power.trayMissed = false → s.power.trayAt + ticksPerS ≤ s.clocks.sup → ∃ t, exec .trayStatusMissing s = .next t ∧
      t.sup.envelope = false ∧ t.power.trayMissed = true ∧ t.mem = s.mem)

/-- R937 and R894 (reset and tray pins), R861 (a session's end), R856, R857 and R862 (DAP and TAP under a debug view; the address map is log entry 20). -/
def Obligations.PinsAndTray : Prop :=
  ∀ (s : State) (a n code : Nat) (data : List Byte),
    (s.pins.modReset = false → ∃ t, exec .modResetNAssert s = .next t ∧ t.fuses = s.fuses ∧ t.pending = s.pending ∧
      t.nv.map = s.nv.map ∧ t.pins.modReset = true ∧ t.sup.alive = false ∧ t.slices = [] ∧ t.mem = { cells := [], poison := [] }) ∧
    exec .modResetNRelease s = .next { s with
      pins := { s.pins with modReset := false }, sup := { s.sup with alive := s.power.standby } } ∧
    (∀ at_, s.pins.trayReqAt = some at_ → at_ + ticksPerMs ≤ s.clocks.sup →
      exec .trayReqN s = .next { s with pins := { s.pins with trayReqAt := some s.clocks.sup, trayBusy := true } }) ∧
    (∀ at_, s.pins.trayReqAt = some at_ → s.clocks.sup < at_ + ticksPerMs → exec .trayReqN s = .next (bump s ctrModTrayRefused 0 1)) ∧
    (∀ full minutes at_, s.sup.session = some (full, minutes, at_) → at_ + minutes * 60 * ticksPerS ≤ s.clocks.sup →
      ∃ t, exec .debugSessionEnd s = .next t ∧ t.sup.session = none ∧ t.mem = s.mem ∧ t.nv.map = s.nv.map) ∧
    (debugServed (probeSeen s) = true → debugView s = 2 → a < 2 ^ 63 →
      (dapPowered s a data.length = true → ∃ t, exec (.dapTransfer true a data n) s = .next t ∧ t.mem = writeMem s.mem a data) ∧
      (dapPowered s a n = true → ∃ t, exec (.dapTransfer false a data n) s = .next t ∧ t.mem = s.mem ∧
        Out.dap a (readMem s.mem a n) ∈ t.outbox)) ∧
    (debugView s = 0 → ∀ w, exec (.dapTransfer w a data n) s = .next (probeSeen s)) ∧
    (debugServed (probeSeen s) = true → debugView s = 0 → 2 ≤ code →
      exec (.tapInstruction code) s = .next (emit { s with pins := { s.pins with dbgPrsnt := true, tap := 0 } } (.tdo 0)))

/-- R877: the phases of a start up to the memory tests; R893: failure codes 1 and 2; R874: a start that may not begin. -/
def Obligations.StartsBegin : Prop :=
  ∀ (s : State) (obs : StartObs),
    (mayStart s = false → exec (.start obs) s = .next s) ∧
    (mayStart s = true → obs.imageOk = false → obs.prevOk = false → ∃ t, exec (.start obs) s = .next t ∧ t.boot.phase = 7 ∧
      t.boot.fail = 1 ∧ t.boot.running = false ∧ t.nv.startMark = false ∧ t.fuses = s.fuses) ∧
    (mayStart s = true → obs.imageOk = true → s.nv.keysHeld = true → obs.keyOk = false → ∃ t, exec (.start obs) s = .next t ∧
      t.boot.phase = 7 ∧ t.boot.fail = 2 ∧ t.boot.running = false ∧ t.fuses = s.fuses) ∧
    (mayStart s = true → obs.imageOk = true → obs.keyOk = true → s.nv.sealedAt = s.fuses.lcCount → obs.mapOk = true →
      obs.fusedAnswer = false → obs.deadStacks = [] → obs.failed = [] → obs.wrong = [] → obs.darkRegions = [] →
      obs.tierDevices = [] → obs.tierBad = [] → obs.warmBad = [] → s.nv.fenceBits = [] → s.nv.map = [] → s.fuses.life = .deployed →
      ∃ t, exec (.start obs) s = .next t ∧ t.boot.phase = 5 ∧ t.boot.tested = true ∧ t.boot.running = true ∧ t.nv.startMark = true ∧
        t.power.state = .m0 ∧ (∀ a, a < 2 ^ 48 → readByte t.mem.cells a = 0) ∧ (∀ c k, (slotOf t c k).state = .empty))

/-- R891 (ready), R847 (what the first ready of a new image fuses), R879 (march pauses), R893 (failure). The case with no region newly dark. -/
def Obligations.StartsEnd : Prop :=
  ∀ (s : State) (stack since code : Nat),
    (s.boot.running = true → s.boot.tested = true → s.boot.march = [] → (∀ r, r < 48 → shedOf s r = .lit) →
      (∀ r, r < 48 → ∃ k ∈ regionStacks r, s.caps.stacksOut.contains k = false) →
      ∃ t, exec .startReady s = .next t ∧ t.boot.phase = 6 ∧ t.boot.running = false ∧ t.caps.gen = 1 ∧ t.nv.startMark = false ∧
        t.sup.scrub = true ∧ t.sup.selftest = true ∧ t.sup.firmware = true ∧ t.sup.envelope = insideEnvelope t ∧
        t.fuses.minSvn = (if s.nv.activated then max s.fuses.minSvn (min s.nv.bootImage.svn 64) else s.fuses.minSvn) ∧
        t.fuses.lcCount = s.fuses.lcCount) ∧
    (s.boot.running = true → look? s.boot.march stack = some (3, since) →
      since + 30 * ticksPerS ≤ regionNow s (regionOfStack stack) → ∃ t, exec (.hbmMarchPauseEnd stack [] 0) s = .next t ∧
        look? t.boot.march stack = some (5, regionNow s (regionOfStack stack))) ∧
    (s.boot.running = true → 1 ≤ code → code ≤ 6 → s.nv.activated = false → ∃ t, exec (.startFailed code) s = .next t ∧
      t.boot.phase = 7 ∧ t.boot.fail = code ∧ t.boot.running = false ∧ t.nv.startMark = false ∧ t.power.state = s.power.state)

/-- R900, R902: aborts of the shut-down self-test; R903 to R905: the hourly ageing evaluation. -/
def Obligations.SelfTestAndAgeing : Prop :=
  ∀ (s : State) (v c : Bool) (inlet : Int) (obs : AgeingObs),
    (s.nv.bist.running = true → (v = false ∨ c = false ∨ inlet < 200 ∨ 350 < inlet) → ∃ t, exec (.selfTestSample v c inlet) s = .next t ∧
      t.nv.bist.result = 3 ∧ t.nv.bist.running = false ∧ t.nv.testMark = false ∧ t.nv.bist.stamp = s.clocks.sup ∧
      t.nv.bist.abort = (if v = false then 1 else if c = false then 2 else 3)) ∧
    (v = true → c = true → 200 ≤ inlet → inlet ≤ 350 → exec (.selfTestSample v c inlet) s = .next s) ∧
    ((s.power.state = .m0 ∨ s.power.state = .m1 ∨ s.power.state = .m2) → ∃ t, exec (.ageingHour obs) s = .next t ∧
      t.nv.hours = s.nv.hours + 1 ∧ t.nv.ageCommon.sampled = s.nv.ageCommon.sampled + 1 ∧
      t.nv.ageCommon.hours = obs.common.1 ∧ t.mem = s.mem ∧ t.nv.map = s.nv.map) ∧
    ((s.power.state = .m3 ∨ s.power.state = .m4) → exec (.ageingHour obs) s = .next s)

/-- R631, R633, R683 and R702 with the refusal order of R630 and R944, and R826 for a reset already under way. -/
def Obligations.SliceCommands : Prop :=
  ∀ (s : State) (f k : Nat) (r : Running),
    (due s f k 0x0401 = some r → createCode s (wantedOf r.payload) ≠ 0 →
      Settles (.sliceCreate f k) s s f k (createCode s (wantedOf r.payload)) []) ∧
    (due s f k 0x0401 = some r → createCode s (wantedOf r.payload) = 0 → ∃ t, exec (.sliceCreate f k) s = .next t ∧
      look? t.slices s.sup.nextHandle = some (newSlice s (wantedOf r.payload) (freeFrameOf s)) ∧
      (mbSlot t f k).run = some { r with handle := s.sup.nextHandle, wait := .nothing, code := 0,
                                         resp := bytesOf 8 (s.sup.nextHandle + freeFrameOf s * 2 ^ 32) }) ∧
    (due s f k 0x0402 = some r → s.sup.destroys = [] → (look? s.slices r.handle).isSome = true →
      (look? (destroyStep s r.handle).slices r.handle).isNone = true →
      exec (.sliceDestroy f k) s = .next (settle (destroyStep s r.handle) f k 0 [])) ∧
    (due s f k 0x0404 = some r → covering s 2 r.handle = none → ∃ t x, exec (.sliceReset f k) s = .next t ∧
      t.sup.resets = s.sup.resets ++ [x] ∧ x.domain = 2 ∧ x.target = r.handle ∧ x.trigger = 2 ∧ x.begun = false ∧
      t.sup.nextReset = s.sup.nextReset + 1 ∧ (mbSlot t f k).run = some { r with wait := .reset x.id } ∧
      t = { s with sup := t.sup, frames := t.frames }) ∧
    (due s f k 0x0404 = some r → ∀ x, covering s 2 r.handle = some x → ∃ t, exec (.sliceReset f k) s = .next t ∧
      (mbSlot t f k).run = some { r with wait := .reset x.id } ∧ t = { s with frames := t.frames }) ∧
    (due s f k 0x0901 = some r → targetGood s (bitsOf (head8 r) 0 3) (bitsOf (head8 r) 32 32) = false →
      Settles (.resetEscalate f k) s s f k 0x20 []) ∧
    (due s f k 0x0901 = some r → bitsOf (head8 r) 0 3 = 4 → bitsOf (head8 r) 32 32 = 0 → s.sup.cycleAsked = false →
      ∃ t, exec (.resetEscalate f k) s = .next t ∧ t.sup.cycleAsked = true ∧ t.pins.alert = true ∧
        (mbSlot t f k).run = some { r with wait := .nothing, code := 0, resp := [] } ∧ t.mem = s.mem ∧ t.slices = s.slices) ∧
    (due s f k 0x0901 = some r → bitsOf (head8 r) 0 3 ≤ 3 → targetGood s (bitsOf (head8 r) 0 3) (bitsOf (head8 r) 32 32) = true →
      covering s (bitsOf (head8 r) 0 3) (bitsOf (head8 r) 32 32) = none → ∃ t x, exec (.resetEscalate f k) s = .next t ∧
        t.sup.resets = s.sup.resets ++ [x] ∧ x.domain = bitsOf (head8 r) 0 3 ∧ x.target = bitsOf (head8 r) 32 32 ∧
        (mbSlot t f k).run = some { r with wait := .reset x.id } ∧ t = { s with sup := t.sup, frames := t.frames })

/-- R698 to R701 with R775 and R804: what the commands of health write, and their refusals. -/
def Obligations.HealthCommands : Prop :=
  ∀ (s : State) (f k : Nat) (r : Running) (retrained : Option (Nat × Nat)) (devices : List Nat),
    (due s 0 k 0x0801 = some r →
      Settles (.checkMode 0 k) s { s with sup := { s.sup with checkDefault := bitsOf (head8 r) 0 2 } } 0 k 0 []) ∧
    (f ≠ 0 → due s f k 0x0801 = some r → sliceActive s r.handle = true → Settles (.checkMode f k) s s f k 0x70 []) ∧
    (f ≠ 0 → due s f k 0x0801 = some r → sliceActive s r.handle = false → ∀ l, look? s.slices r.handle = some l → l.mode ≠ 2 →
      Settles (.checkMode f k) s (setSlice s r.handle { l with mode := bitsOf (head8 r) 0 2 }) f k 0 []) ∧
    (due s 0 k 0x0804 = some r →
      Settles (.healPolicy 0 k) s { s with sup := { s.sup with healDefault := policyOf (head8 r) } } 0 k 0 []) ∧
    (f ≠ 0 → due s f k 0x0804 = some r → ∀ l, look? s.slices r.handle = some l →
      Settles (.healPolicy f k) s (setSlice s r.handle { l with heal := policyOf (head8 r) }) f k 0 []) ∧
    (due s f k 0x0803 = some r → bitsOf (head8 r) 0 8 = 0 → exec (.fenceSet f k) s =
      .next (settle (fenceAny (noteHostFence s (elementOf (recordFrom (r.payload.drop 8)))) (elementOf (recordFrom (r.payload.drop 8))) 1
        (recordFrom (r.payload.drop 8)).cause) f k 0 [])) ∧
    (due s f k 0x0803 = some r → bitsOf (head8 r) 0 8 = 1 → (elementOf (recordFrom (r.payload.drop 8))).kind ≠ 6 →
      r.payload.length = 40 → look? s.sup.gathers 0x0803 = none → Settles (.fenceClear f k retrained devices) s s f k 0x72 []) ∧
    (due s f k 0x0803 = some r → bitsOf (head8 r) 0 8 = 1 → (elementOf (recordFrom (r.payload.drop 8))).kind = 6 →
      (tierOf s (elementOf (recordFrom (r.payload.drop 8))).id).fenced = false →
      Settles (.fenceClear f k retrained devices) s s f k 0 []) ∧
    (due s f k 0x0803 = some r → bitsOf (head8 r) 0 8 = 1 → (elementOf (recordFrom (r.payload.drop 8))).kind = 6 →
      let port := (elementOf (recordFrom (r.payload.drop 8))).id
      (tierOf s port).fenced = true → ∀ x, retrained = some x → tierLinkGood x = true →
        let u := backInService s { kind := 6, id := port }
        let u := startTier (setTier u port { tierOf u port with fenced := false }) port x devices [] true
        exec (.fenceClear f k retrained devices) s = .next (settle (tierChanged s u port) f k 0 []) ∧
        ∃ t, exec (.fenceClear f k retrained devices) s = .next t ∧ Answered t f k r 0 [] ∧ (tierOf t port).fenced = false ∧
          t.nv.fenceBits.contains ⟨6, port⟩ = false ∧ (tierOf t port).linkUp = !devices.isEmpty ∧ t.mem = s.mem ∧
          t.engines = s.engines) ∧
    (due s f k 0x0803 = some r → bitsOf (head8 r) 0 8 = 1 → (elementOf (recordFrom (r.payload.drop 8))).kind ≠ 6 →
      let chunk := r.payload.drop 40
      let b := (gathered_ s 0x0803).bytes ++ chunk
      b ≠ [] → bitsOf (head8 r) 16 32 = (gathered_ s 0x0803).bytes.length →
      (bitAt (head8 r) 8 = false → ∃ t, exec (.fenceClear f k retrained devices) s = .next t ∧ Answered t f k r 0 [] ∧
        (gathered_ t 0x0803).bytes = b ∧ t = { s with sup := t.sup, frames := t.frames }) ∧
      (bitAt (head8 r) 8 = true → updateCode s b = 0 →
        exec (.fenceClear f k retrained devices) s = .next (settle (bump (applyUpdate
          (countEnvelope (setGather (setGather s 0x0803 (some { gathered_ s 0x0803 with bytes := b })) 0x0803 none) 0)
          (envelopeOf b).body) ctrModUpdates 0 1) f k 0 []) ∧
        ∃ t, exec (.fenceClear f k retrained devices) s = .next t ∧ Answered t f k r 0 []) ∧
      (bitAt (head8 r) 8 = true → updateCode s b ≠ 0 → ∃ t, exec (.fenceClear f k retrained devices) s = .next t ∧
        Answered t f k r (updateCode s b) [] ∧ t = { s with sup := t.sup, frames := t.frames, counts := t.counts })) ∧
    (due s f k 0x0805 = some r → (plannedOf s r.payload).all (plannable s) = true → Settles (.injectPlan f k) s
      { s with sup := { s.sup with injections := s.sup.injections ++ plannedOf s r.payload } } f k 0 []) ∧
    (due s f k 0x0805 = some r → (plannedOf s r.payload).all (plannable s) = false → Settles (.injectPlan f k) s s f k 0x71 [])

/-- R689 to R693, R609 and R610: each memory command over one page of memory that Furelo can reach (`pieceAt` looks it up), with its response. -/
def Obligations.MemoryCommands : Prop :=
  ∀ (s t u : State) (f k p q n : Nat) (r : Running) (data : List Byte) (pois : List Bool) (words : List Nat) (hd : List Byte) (hp : List Nat),
    (due s f k 0x0601 = some r → mapCode s r.handle (mapReqOf r.payload) ≠ 0 →
      Settles (.memMap f k) s s f k (mapCode s r.handle (mapReqOf r.payload)) []) ∧
    (due s f k 0x0601 = some r → mapCode s r.handle (mapReqOf r.payload) = 0 →
      let m := mapReqOf r.payload
      let windows := rangeKeys m.space m.off (mapSpan m)
      let gone := s.xlat.leaves.filter (fun l => l.space = m.space && overlaps l.off (pageBytes l.size) m.off (mapSpan m))
      windows.all (retired s) = true →
      rebuildAll r.handle (windows.map (fun w =>
        (w, ((newLeaves m).filter (fun l => keyOf l.space l.off = w)).map (fun l => (l.off, l.size, l.entry))))) s = some t →
      exec (.memMap f k) s = .next (settleMaps { t with xlat := { t.xlat with
        leaves := t.xlat.leaves.filter (fun l => !(gone.contains l)) ++ newLeaves m } } f k windows gone) ∧
      ∃ x ls, exec (.memMap f k) s = .next x ∧ Awaits x f k r (.lines windows ls gone) ∧ x.nv = s.nv ∧ x.fuses = s.fuses) ∧
    (due s f k 0x0602 = some r →
      let a := natAt r.payload 0 8
      let code := unmapCode s r.handle (gaSpace a) (gaOff a) (bitsOf a 50 14) (natAt r.payload 8 8)
      (code ≠ 0 → Settles (.memUnmap f k) s s f k code []) ∧
      let gone := s.xlat.leaves.filter (fun l => l.space = gaSpace a && overlaps l.off (pageBytes l.size) (gaOff a) (natAt r.payload 8 8))
      let windows := (gone.map (fun l => keyOf l.space l.off)).eraseDups
      (code = 0 → windows.all (retired s) = true →
        rebuildAll r.handle (windows.map (fun w =>
          (w, (gone.filter (fun l => keyOf l.space l.off = w)).map (fun l => (l.off, l.size, (0 : Reg)))))) s = some t →
        exec (.memUnmap f k) s = .next (settleMaps { t with xlat := { t.xlat with
          leaves := t.xlat.leaves.filter (fun l => !(gone.contains l)) } } f k windows gone) ∧
        ∃ x ls, exec (.memUnmap f k) s = .next x ∧ Awaits x f k r (.lines windows ls gone) ∧ x.nv = s.nv ∧ x.fuses = s.fuses)) ∧
    (due s f k 0x0603 = some r → r.progress = 0 → natAt r.payload 8 8 = n → 0 < n → n ≤ 2 ^ 16 - natAt r.payload 0 8 % 2 ^ 16 →
      gaWhere s (natAt r.payload 0 8) ≠ 1 → pieceAt s (natAt r.payload 0 8) n true = (.done t, p) →
      let w := Filled t p n (natAt r.payload 16 8)
      exec (.memFill f k) s = .next (settle w f k 0 (bytesOf 8 n)) ∧
        ∃ x, exec (.memFill f k) s = .next x ∧ Answered x f k r 0 (bytesOf 8 n) ∧ x.mem = w.mem ∧ x.nv = s.nv) ∧
    (due s f k 0x0606 = some r → r.progress = 0 → natAt r.payload 8 8 = n → 0 < n → n ≤ 2 ^ 16 - natAt r.payload 0 8 % 2 ^ 16 →
      ownRange s r.handle (natAt r.payload 0 8) n = true → pieceAt s (natAt r.payload 0 8) n true = (.done t, p) →
      let w := Filled t p n 0
      exec (.memScrub f k) s = .next (settle w f k 0 (bytesOf 8 n)) ∧
        ∃ x, exec (.memScrub f k) s = .next x ∧ Answered x f k r 0 (bytesOf 8 n) ∧ x.mem = w.mem ∧ x.nv = s.nv) ∧
    (due s f k 0x0606 = some r → r.progress = 0 → ownRange s r.handle (natAt r.payload 0 8) (natAt r.payload 8 8) = false →
      Settles (.memScrub f k) s s f k 0x21 (bytesOf 8 0)) ∧
    (due s f k 0x0604 = some r → r.progress = 0 → r.data = [] → r.bad = [] → (copyReqOf r.payload).srcHost = false →
      (copyReqOf r.payload).dstHost = false → (copyReqOf r.payload).length = n → 0 < n →
      n ≤ 2 ^ 16 - (copyReqOf r.payload).src % 2 ^ 16 → n ≤ 2 ^ 16 - (copyReqOf r.payload).dst % 2 ^ 16 →
      gaWhere s (copyReqOf r.payload).src ≠ 1 → gaWhere t (copyReqOf r.payload).dst ≠ 1 →
      pieceAt s (copyReqOf r.payload).src n false = (.done t, p) → readPieces t [(p, n)] = (data, pois) →
      pieceAt t (copyReqOf r.payload).dst n true = (.done u, q) →
      exec (.memCopy f k) s = .next (settle (writePieces [(q, n)] data pois u) f k 0 (bytesOf 8 n)) ∧
        ∃ x, exec (.memCopy f k) s = .next x ∧ Answered x f k r 0 (bytesOf 8 n) ∧
          x.mem = (writePieces [(q, n)] data pois u).mem ∧ x.nv = s.nv) ∧
    (due s f k 0x0604 = some r → r.progress < (copyReqOf r.payload).length → let c := copyReqOf r.payload
      (c.srcHost = true → r.data.length < copyPiece c r.progress → exec (.memCopy f k) s = .next (askHost s f k r
        (.rdCurr (addrAt c.src (r.progress + r.data.length)) (copyRead c r.progress r.data.length)))) ∧
      (c.dstHost = true → copyPiece c r.progress ≤ r.data.length → exec (.memCopy f k) s = .next (askHost s f k r
        (hostPut (addrAt c.dst r.progress) r.data (r.bad.any id))))) ∧
    (due s f k 0x0605 = some r → r.progress = 0 → r.data = [] → natAt r.payload 16 4 = 1 → gaWhere s (natAt r.payload 0 8) ≠ 1 →
      readRange (pageCuts (natAt r.payload 0 8) 32) s = (.done t, data, pois) → pois.any id = false →
      exec (.memDigest f k) s = .next (settle t f k 0 (bytesOf 8 1 ++ sha384 (sub data 24 4))) ∧
        ∃ x, exec (.memDigest f k) s = .next x ∧ Answered x f k r 0 (bytesOf 8 1 ++ sha384 (sub data 24 4)) ∧ x.nv = s.nv) ∧
    (let a := natAt r.payload 0 8
      let total := if natAt r.payload 8 8 = 0 then 0 else roundUp (a % 8 + natAt r.payload 8 8) 8
      due s f k 0x0607 = some r →
      poisonedWords f k r (pageCuts (addrAt (a / 8 * 8) r.progress) (total - r.progress)) r.progress s = (words, n, .done t) →
      let resp := paged (pieces 8 (r.data ++ (words.map (bytesOf 8)).flatten)) (natAt r.payload 16 4) 8
      exec (.memPoisonQuery f k) s = .next (settle t f k 0 resp) ∧
        ∃ x, exec (.memPoisonQuery f k) s = .next x ∧ Answered x f k r 0 resp ∧ x.nv = s.nv) ∧
    (runAs s f k 0x0604 = some r → r.wait = .host → let c := copyReqOf r.payload
      (copyPiece c r.progress ≤ r.data.length → c.length ≤ r.progress + r.data.length →
        Settles (.hostRequestCompletion f k hd hp) s s f k 0 (bytesOf 8 (r.progress + r.data.length))) ∧
      (let m := copyRead c r.progress r.data.length
        let x := { r with wait := .unstarted, data := r.data ++ fit hd m, bad := r.bad ++ (List.range m).map (fun i => hp.contains (i / 8)) }
        r.data.length < copyPiece c r.progress → r.data.length + m = copyPiece c r.progress → c.dstHost = true →
        exec (.hostRequestCompletion f k hd hp) s =
          .next (askHost s f k x (hostPut (addrAt c.dst r.progress) x.data (x.bad.any id))))) ∧
    (runAs s f k 0x0604 = some r → r.wait = .host → r.at_ + 10 * ticksPerMs ≤ look s.clocks.die 0 0 →
      Settles (.hostRequestTimeout f k) s s f k 0x57 (bytesOf 8 r.progress))

/-- R684 to R687: the context commands, each refusal with no effect, each acceptance over the operation that carries it out. The 8 bytes that `ctx.start` answers are a free value (log entry 4). -/
def Obligations.ContextCommands : Prop :=
  ∀ (s : State) (f k : Nat) (r : Running),
    (due s f k 0x0501 = some r →
      let es := (List.range (bitsOf (head8 r) 0 8)).map (fun i => { entryOf r.payload i with
        poison := r.poison.any (fun w => decide (1 + 28 * i ≤ w) && decide (w < 29 + 28 * i)) })
      let q := loadEntries r.handle es 0 s
      groupMoving s r.handle (es.map (·.core)) = false → exec (.ctxLoad f k) s =
        .next (settle q.2.2 f k q.2.1 (bytesOf 8 (q.1 + (if q.2.1 = 0 then 0 else q.1) * 2 ^ 8))) ∧
        ∃ t, exec (.ctxLoad f k) s = .next t ∧
          Answered t f k r q.2.1 (bytesOf 8 (q.1 + (if q.2.1 = 0 then 0 else q.1) * 2 ^ 8)) ∧
          t.nv = s.nv ∧ t.fuses = s.fuses) ∧
    (due s f k 0x0502 = some r → confMoving s r.handle (bitsOf (head8 r) 0 32) = false →
      startCode s r.handle (bitsOf (head8 r) 0 32) ≠ 0 →
      Settles (.ctxStart f k) s s f k (startCode s r.handle (bitsOf (head8 r) 0 32)) []) ∧
    (due s f k 0x0502 = some r → confMoving s r.handle (bitsOf (head8 r) 0 32) = false →
      startCode s r.handle (bitsOf (head8 r) 0 32) = 0 → ∃ answer, answer.length = 8 ∧ exec (.ctxStart f k) s =
        .next (settle (startConf { s with free := s.free + 1 } r.handle (bitsOf (head8 r) 0 32)) f k 0 answer) ∧
        ∃ t, exec (.ctxStart f k) s = .next t ∧ Answered t f k r 0 answer ∧ t.mem = s.mem ∧ t.nv = s.nv ∧
          t.engines = s.engines) ∧
    (due s f k 0x0503 = some r → confMoving s r.handle (bitsOf (head8 r) 0 32) = false →
      carrying s r.handle (bitsOf (head8 r) 0 32) = [] → Settles (.ctxStop f k) s s f k 0x46 []) ∧
    (due s f k 0x0503 = some r → confMoving s r.handle (bitsOf (head8 r) 0 32) = false →
      carrying s r.handle (bitsOf (head8 r) 0 32) ≠ [] → (savedHolding s r.handle (bitsOf (head8 r) 0 32)).isSome = true →
      Settles (.ctxStop f k) s s f k 0x49 []) ∧
    (due s f k 0x0503 = some r → confMoving s r.handle (bitsOf (head8 r) 0 32) = false →
      carrying s r.handle (bitsOf (head8 r) 0 32) ≠ [] → savedHolding s r.handle (bitsOf (head8 r) 0 32) = none →
      let l := (confSlots s r.handle (bitsOf (head8 r) 0 32)).filter (fun e => activeState (slotOf s e.1 e.2).state)
      exec (.ctxStop f k) s = .next (setRun (stopAll (stopAll s l) (l.filterMap (fun e => (slotOf s e.1 e.2).twin))) f k
        { r with wait := .stopped (bitsOf (head8 r) 0 32), progress := l.length }) ∧
      ∃ t, exec (.ctxStop f k) s = .next t ∧
        (mbSlot t f k).run = some { r with wait := .stopped (bitsOf (head8 r) 0 32), progress := l.length } ∧
        t.mem = s.mem ∧ t.nv = s.nv ∧ t.engines = s.engines) ∧
    (due s f k 0x0504 = some r → confMoving s r.handle (bitsOf (head8 r) 0 32) = false →
      (groupHolding s r.handle (bitsOf (head8 r) 0 32)).any (fun g => g.2.halted) = false →
      (saveCode s r.handle (bitsOf (head8 r) 0 32) (natAt r.payload 8 8) ≠ 0 →
        Settles (.ctxSave f k) s s f k (saveCode s r.handle (bitsOf (head8 r) 0 32) (natAt r.payload 8 8)) []) ∧
      (saveCode s r.handle (bitsOf (head8 r) 0 32) (natAt r.payload 8 8) = 0 → ∀ i g,
        groupHolding s r.handle (bitsOf (head8 r) 0 32) = some (i, g) → exec (.ctxSave f k) s =
          .next (setRun (beginSave s r.handle i (some (natAt r.payload 8 8)) true) f k
            { r with wait := .saved (bitsOf (head8 r) 0 32), progress := g.cores.length }) ∧
          ∃ t, exec (.ctxSave f k) s = .next t ∧
            (mbSlot t f k).run = some { r with wait := .saved (bitsOf (head8 r) 0 32), progress := g.cores.length } ∧
            ((∀ c ∈ g.cores, ∀ j n, (strmOf (slotOf s c j) n).bound = false) → t.mem = s.mem) ∧ t.nv = s.nv ∧
            t.engines = s.engines)) ∧
    (due s f k 0x0505 = some r → confMoving s r.handle (bitsOf (head8 r) 0 32) = false →
      (restoreCode s r.handle (bitsOf (head8 r) 0 32) (natAt r.payload 8 8) ≠ 0 →
        Settles (.ctxRestore f k) s s f k (restoreCode s r.handle (bitsOf (head8 r) 0 32) (natAt r.payload 8 8)) []) ∧
      (restoreCode s r.handle (bitsOf (head8 r) 0 32) (natAt r.payload 8 8) = 0 → ∀ i g,
        groupHolding s r.handle (bitsOf (head8 r) 0 32) = some (i, g) → ∃ t, exec (.ctxRestore f k) s = .next t ∧
          (groupsOf t r.handle)[i]? = some { g with image := .restoring, prog := [], pool := some (natAt r.payload 8 8) } ∧
          (mbSlot t f k).run = some { r with wait := .restored (bitsOf (head8 r) 0 32), progress := g.cores.length } ∧
          t = { s with slices := t.slices, frames := t.frames }))

/-- R694 to R697 and R704 to R707: what the fabric and admission commands write, and their refusals. -/
def Obligations.FabricCommands : Prop :=
  ∀ (s : State) (f k : Nat) (r : Running) (loop : List Nat) (sec status phase : Nat),
    (due s f k 0x0701 = some r →
      let l := joiningOf r.payload loop
      let code := joinCode s (bitsOf (head8 r) 0 14) (sub r.payload 16 32) l
      (code ≠ 0 → Settles (.fabJoin f k loop) s s f k code []) ∧
      let fab := { s.fabric with moduleId := bitsOf (head8 r) 0 14, key := sub r.payload 16 32, domain := domainTag (sub r.payload 16 32) }
      (code = 0 → (joinAll l { s with fabric := fab }).1 = 0 →
        ∃ t, exec (.fabJoin f k loop) s = .next t ∧ ∃ resp,
          (mbSlot t f k).run = some { r with wait := .idle (l.map (·.port)), resp := resp } ∧
          (∀ j ∈ l, (portOf t j.port).joined = true) ∧ t = { s with fabric := t.fabric, frames := t.frames })) ∧
    (due s f k 0x0702 = some r →
      let ports := maskPorts (bitsOf (head8 r) 0 16)
      (ports.any (fun p => !(portOf s p).joined) = true → Settles (.fabLeave f k) s s f k 0x64 []) ∧
      (ports.any (fun p => !(portOf s p).joined) = false → ∃ t, exec (.fabLeave f k) s = .next t ∧
        (∀ p ∈ ports, (portOf t p).leaving = true) ∧ (mbSlot t f k).run = some { r with wait := .left ports } ∧
        t = { s with fabric := t.fabric, frames := t.frames })) ∧
    (due s f k 0x0703 = some r → bitAt (head8 r) 8 = false →
      (membersCode s f r false ≠ 0 → Settles (.fabMembersRead f k) s s f k (membersCode s f r false) []) ∧
      (membersCode s f r false = 0 →
        Settles (.fabMembersRead f k) s s f k 0 (membersBytes (portOf s (bitsOf (head8 r) 0 4))))) ∧
    (due s f k 0x0703 = some r → bitAt (head8 r) 8 = true →
      (membersCode s f r true ≠ 0 → Settles (.fabMembersReplace f k) s s f k (membersCode s f r true) []) ∧
      (membersCode s f r true = 0 → ∃ t, exec (.fabMembersReplace f k) s = .next t ∧
        portOf t (bitsOf (head8 r) 0 4) = { portOf s (bitsOf (head8 r) 0 4) with nextTable := some (memberTable (halves r.payload 8 32)) } ∧
        (mbSlot t f k).run = some { r with wait := .idle [bitsOf (head8 r) 0 4] } ∧
        t = { s with fabric := t.fabric, frames := t.frames })) ∧
    (due s f k 0x0704 = some r →
      let was := routeTabOf s f r.handle
      let old := if was.users.isEmpty then was else retireTab s was
      let q := writeRoutes s f r.handle (bitsOf (head8 r) 0 14) (halves r.payload 8 (bitsOf (head8 r) 16 12))
        (if old.fresh then old.shadow else old.active)
      let wrote := { old with shadow := q.2, fresh := true }
      let new_ := swapRoutes s wrote
      (tabBusy s was = true → exec (.fabRouteSet f k) s = .next s) ∧
      (tabBusy s was = false → q.1 = false → Settles (.fabRouteSet f k) s (setRouteTab s f r.handle wrote) f k 0x66 []) ∧
      (tabBusy s was = false → q.1 = true → bitAt (head8 r) 32 = false →
        Settles (.fabRouteSet f k) s (setRouteTab s f r.handle wrote) f k 0 []) ∧
      (tabBusy s was = false → q.1 = true → bitAt (head8 r) 32 = true → exec (.fabRouteSet f k) s =
          .next (await (resumeFenced (findAgain (setRouteTab s f r.handle new_) old new_)) f k .routes) ∧
        ∃ t, exec (.fabRouteSet f k) s = .next t ∧ Awaits t f k r .routes ∧ t.nv = s.nv)) ∧
    (due s f k 0x0A01 = some r → (look? s.slices r.handle).isSome = true → stageOf s r.handle = 0 → slotsUsed s r.handle = 0 →
      s.nv.drained = false → Settles (.admitPrepare f k true sec) s (setStage (setSelfTest s true) r.handle 1) f k 0 (bytesOf 8 sec)) ∧
    (due s f k 0x0A02 = some r → loadCode s r.handle (loadRanges r.payload) = 0 → r.wait ≠ .fabric → exec (.admitLoad f k) s =
      .next (await (admitSend (setAdmit s (loadFor s r.handle (loadRanges r.payload))) r.handle) f k .fabric)) ∧
    (due s f k 0x0A02 = some r → r.wait ≠ .fabric → loadCode s r.handle (loadRanges r.payload) ≠ 0 →
      loadCode s r.handle (loadRanges r.payload) ≠ 0x7A →
      Settles (.admitLoad f k) s s f k (loadCode s r.handle (loadRanges r.payload)) []) ∧
    (due s f k 0x0A03 = some r → commitStage s r.handle (bitsOf (head8 r) 32 32) = 0 → ∃ t, exec (.admitCommit f k) s = .next t ∧
      (mbSlot t f k).run = some { r with wait := .barrier, progress := 0, at_ := s.clocks.sup } ∧ t = { s with frames := t.frames }) ∧
    (due s f k 0x0A03 = some r → commitStage s r.handle (bitsOf (head8 r) 32 32) ≠ 0 →
      Settles (.admitCommit f k) s s f k (commitStage s r.handle (bitsOf (head8 r) 32 32)) []) ∧
    (runAs s f k 0x0A03 = some r → r.wait = .barrier → r.at_ + 100 * ticksPerUs ≤ s.clocks.sup →
      (status = 5 → 99 ≤ r.progress → ∃ t, exec (.admitBarrierPoll f k status phase) s = .next t ∧
        (mbSlot t f k).run = some { r with progress := r.progress + 1, at_ := s.clocks.sup, wait := .nothing, code := 0x7A, resp := [] } ∧
        t = { s with frames := t.frames }) ∧
      (status = 0 → phase ≠ bitsOf (natAt r.payload 14 2) 0 16 → exec (.admitBarrierPoll f k status phase) s =
        .next (admitStart (setRun s f k { r with progress := 0, at_ := s.clocks.sup }) f k r)))

/-- R246 to R255: the control steps. The frame says that a control step changes its core, the anchors' records, the narrow network and counters, and nothing else. -/
def Obligations.ControlStepsMove : Prop :=
  ∀ (s : State) (c k : Nat) (d : BitVec 512), (slotOf s c k).stopping = false → signaturesDiffer s c (slotOf s c k) = false →
    (fetchStep s c 0x45 = .step k d → qReserved d = false → qTarget d < imStepCount (slotOf s c k).image →
      ∃ t, exec (.ctlJump c) s = .next t ∧ CoresOnly s t ∧ (slotOf t c k).ip = qTarget d ∧ (slotOf t c k).loops = (slotOf s c k).loops) ∧
    (fetchStep s c 0x44 = .step k d → qReserved d = false → qTarget d < imStepCount (slotOf s c k).image → qCount d ≠ 0 →
      ∃ t, exec (.ctlLoop c) s = .next t ∧ CoresOnly s t ∧
        (look (slotOf s c k).loops (qSel d) 0 + 1 < qCount d →
          (slotOf t c k).ip = qTarget d ∧ look (slotOf t c k).loops (qSel d) 0 = look (slotOf s c k).loops (qSel d) 0 + 1) ∧
        (qCount d ≤ look (slotOf s c k).loops (qSel d) 0 + 1 →
          (slotOf t c k).ip = (slotOf s c k).ip + 1 ∧ look (slotOf t c k).loops (qSel d) 0 = 0)) ∧
    (fetchStep s c 0x46 = .step k d → qReserved d = false →
      ((slotOf s c k).issued = [] → ∃ t, exec (.ctlWait c) s = .next t ∧ CoresOnly s t ∧ (slotOf t c k).ip = (slotOf s c k).ip + 1) ∧
      ((slotOf s c k).issued ≠ [] → (slotOf s c k).primary = none → ∃ t, exec (.ctlWait c) s = .next t ∧ CoresOnly s t ∧
        (slotOf t c k).ip = (slotOf s c k).ip ∧ (slotOf t c k).state = .blocked)) ∧
    (fetchStep s c 0x47 = .step k d → qReserved d = false → ∃ t, exec (.ctlYield c) s = .next t ∧ CoresOnly s t ∧
      (slotOf t c k).ip = (slotOf s c k).ip + 1 ∧ ((slotOf t c k).state = .ready ∨ (slotOf t c k).state = .running)) ∧
    (fetchStep s c 0x48 = .step k d → qReserved d = false → ∃ t, exec (.ctlHalt c) s = .next t ∧ CoresOnly s t ∧
      (slotOf t c k).ip = (slotOf s c k).ip + 1 ∧ (slotOf t c k).state = .halted) ∧
    (fetchStep s c 0x48 = .past k → ∃ t, exec (.ctlHalt c) s = .next t ∧ CoresOnly s t ∧ (slotOf t c k).state = .halted) ∧
    (runningSlot s c = some k → coreRuns s c = true → imQuantum (slotOf s c k).image ≠ 0 →
      (slotOf s c k).since + imQuantum (slotOf s c k).image ≤ computeNow s c →
      (wouldBlock s c k = false → (slotsIn s c .ready).any (fun j => !(slotOf s c j).stopping) = true →
        ∃ t, exec (.quantumEnd c) s = .next t ∧ CoresOnly s t ∧ (slotOf t c k).ip = (slotOf s c k).ip ∧
          ((slotOf t c k).state = .ready ∨ (slotOf t c k).state = .running) ∧
          t = settleCore (onSlot s c k (fun v => { v with state := .ready })) c) ∧
      (wouldBlock s c k = false → (slotsIn s c .ready).any (fun j => !(slotOf s c j).stopping) = false →
        ∃ t, exec (.quantumEnd c) s = .next t ∧
          slotOf t c k = { slotOf s c k with since := (slotOf s c k).since + imQuantum (slotOf s c k).image } ∧
          t = { s with cores := t.cores }) ∧
      (wouldBlock s c k = true → computeNow s c = (slotOf s c k).since + imQuantum (slotOf s c k).image →
        exec (.quantumEnd c) s = .next (settleCore (onSlot s c k (fun v => { v with state := .blocked })) c)))

/-- R258 to R261 (queue steps), R299 to R317 (messages): what a step does that goes through at once, and when it blocks. -/
def Obligations.QueueAndMessageSteps : Prop :=
  ∀ (s : State) (c k : Nat) (d : BitVec 512), (slotOf s c k).primary = none → (slotOf s c k).twin = none →
    (slotOf s c k).moving = none → (slotOf s c k).stopping = false → signaturesDiffer s c (slotOf s c k) = false →
    let v := slotOf s c k
    (fetchStep s c 0x40 = .step k d → qReserved d = false → qUseHq d = false → portOn (imPort v.image (qSel d)) = true →
      qAddr d + 32 + thBytes (coreNat s c (qAddr d) 32) ≤ coreBytes → queueHeader (coreNat s c (qAddr d) 32) = true →
      let m : Moving := ⟨0, qAddr d, 32 + thBytes (coreNat s c (qAddr d) 32), none, false⟩
      let p := outOf v (qSel d)
      let dest := relocated v (portCore (imPort v.image (qSel d)))
      exec (.qSend c) s = .next (settleCore (goOnSending (onSlot s c k (fun v => { v with moving := some m })) c k d) c) ∧
      (m.bytes ≤ 256 → p.credits ≠ 0 → injectHeld s (epCore c) (epCore dest) 5 (qFlagged d) v.g1 = false →
        ∃ t, exec (.qSend c) s = .next t ∧ (slotOf t c k).ip = v.ip + 1 ∧
          (outOf (slotOf t c k) (qSel d)).credits = p.credits - 1 ∧ (outOf (slotOf t c k) (qSel d)).seq = (p.seq + 1) % 256 ∧
          t.mem = s.mem ∧ t.nv = s.nv ∧ t.frames = s.frames) ∧
      (p.credits = 0 → ∃ t, exec (.qSend c) s = .next t ∧ (slotOf t c k).ip = v.ip ∧ (slotOf t c k).state = .blocked ∧
        (slotOf t c k).moving = some m ∧ t.mem = s.mem ∧ t.mesh = s.mesh)) ∧
    (fetchStep s c 0x41 = .step k d → qReserved d = false → laneDepth (imLane v.image (qSel d)) ≠ 0 → qUseHq d = false →
      (laneHead s c k (qSel d) = none → exec (.qRecv c) s = .next (settleCore (onSlot s c k (fun v => { v with state := .blocked })) c)) ∧
      (∀ x, laneHead s c k (qSel d) = some x → let h := natOf (fit x.data 32)
        queueHeader h = true → 32 + thBytes h ≤ qCount d → qAddr d + 32 + thBytes h ≤ coreBytes →
        let m : Moving := ⟨0, qAddr d, 32 + thBytes h, none, false⟩
        exec (.qRecv c) s = .next (settleCore (goOnReceiving (onSlot s c k (fun v => { v with moving := some m })) c k d) c) ∧
        (m.bytes ≤ 256 → bitAt x.header.toNat 8 = false → x.poison.any id = false → twinCore s c = none →
          ∃ t, exec (.qRecv c) s = .next t ∧ (slotOf t c k).ip = v.ip + 1 ∧
            (laneOf (slotOf t c k) (qSel d)).hand = (laneOf v (qSel d)).hand + 1 ∧
            t.mem = writePoison s.mem (corePhys c (qAddr d)) (fit x.data m.bytes) x.poison ∧ t.nv = s.nv ∧ t.frames = s.frames))) ∧
    (fetchStep s c 0x50 = .step k d → msReserved d = false → msInline d = true → coreExists s (msDest d) = true →
      1 ≤ msWords d → msWords d ≤ 4 → exec (.msgSend c) s = .next (settleCore (sendMessage s c k d) c) ∧
      (coreReachable s (relocated v (msDest d)) = true → ∃ t, exec (.msgSend c) s = .next t ∧ CoresOnly s t ∧
        (slotOf t c k).ip = v.ip + 1 ∧ (slotOf t c k).issued = v.issued ++ [{ step := v.ip, op := fld d 0 8, done := 0 }] ∧
        ∃ m ∈ t.narrow, m.src = c ∧ m.srcSlot = k ∧ m.dst = relocated v (msDest d) ∧
          m.body = .user (msTag d) (msEpoch d) (messageWords s c d) false)) ∧
    (fetchStep s c 0x51 = .step k d → mrReserved d = false → mrAddr d % 8 = 0 →
      corePoison s c (ringEntryAt v (mrClass d + 1)) 16 = false → reOn (ringEntry s c v (mrClass d + 1)) = true →
      mrAddr d + 40 ≤ coreBytes →
      let e := ringEntry s c v (mrClass d + 1)
      let a := reBase e + 8 * reRd e
      let n := bitsOf (coreNat s c a 8) 0 3
      let whole := decide (reRd e + 1 + n = reSize e)
      (ringHas e = false → mrNowait d = true → ∃ t, exec (.msgRecv c) s = .next t ∧ (slotOf t c k).ip = v.ip + 1 ∧
        t.mem = (coreWrite s c (mrAddr d) (bytesOf 8 0)).mem ∧ t.nv = s.nv ∧ t.frames = s.frames) ∧
      (ringHas e = false → mrNowait d = false → ∃ t, exec (.msgRecv c) s = .next t ∧ CoresOnly s t ∧ (slotOf t c k).ip = v.ip ∧
        (slotOf t c k).state = .blocked) ∧
      (ringHas e = true → bitAt (coreNat s c a 8) 3 = false → bitAt (coreNat s c a 8) 4 = false →
        corePoison s c a (8 + 8 * n) = false → ∃ t, exec (.msgRecv c) s = .next t ∧ (slotOf t c k).ip = v.ip + 1 ∧
        t.mem = (setRingRd (coreWrite s c (mrAddr d) (coreRead s c a (8 + 8 * n))) c v (mrClass d + 1)
          (if whole then 0 else reRd e + 1 + n) (reRdPhase e != whole)).mem ∧ t.nv = s.nv ∧ t.frames = s.frames))

/-- R328: the operations that do not wait, on a counter (value v), a semaphore (count n) and a barrier of R324. -/
def Obligations.SyncOperations : Prop :=
  (∀ (w a b : Reg), swType w = 0 → w.toNat < 2 ^ 48 →
      (syncApply 2 w a b).2 = 0 ∧ (syncApply 2 w a b).1.toNat = (w.toNat + a.toNat % 2 ^ 48) % 2 ^ 48 ∧
      (syncApply 3 w a b).2 = 0 ∧
      (syncApply 3 w a b).1.toNat = (if w.toNat = a.toNat % 2 ^ 48 then b.toNat % 2 ^ 48 else w.toNat)) ∧
    (∀ (n : Nat) (a b : Reg), n < 2 ^ 32 → let w : Reg := BitVec.ofNat 64 (n + 2 ^ 62)
      (n + a.toNat % 2 ^ 32 < 2 ^ 32 → syncApply 4 w a b = (BitVec.ofNat 64 (n + a.toNat % 2 ^ 32 + 2 ^ 62), 0)) ∧
      (2 ^ 32 ≤ n + a.toNat % 2 ^ 32 → syncApply 4 w a b = (w, 3)) ∧
      (a.toNat % 2 ^ 32 ≤ n → syncApply 5 w a b = (BitVec.ofNat 64 (n - a.toNat % 2 ^ 32 + 2 ^ 62), 0)) ∧
      (n < a.toNat % 2 ^ 32 → syncApply 5 w a b = (w, 1))) ∧
    (∀ (x y p : Nat) (a b : Reg), x < y → y < 2 ^ 16 → p < 2 ^ 16 →
      syncApply 6 (barrierWord x y p) a b =
        (if x + 1 = y then barrierWord 0 y ((p + 1) % 2 ^ 16) else barrierWord (x + 1) y p, 0)) ∧
    (∀ (op : Nat) (w a b : Reg), (syncApply op w a b).2 ≠ 0 → (syncApply op w a b).1 = w) ∧
    (∀ (op n : Nat) (w a b : Reg), opType op = some n → swType w ≠ n → syncApply op w a b = (w, 2)) ∧
    (∀ (w a b : Reg), (swValid a = true → syncApply 1 w a b = (a, 0)) ∧ (swValid a = false → syncApply 1 w a b = (w, 2)))

/-- R324: a counter or semaphore within its width, or a barrier whose arrivals are below its target: no operation of R328 leaves anything else. -/
def Obligations.SyncWordsStayValid : Prop :=
  ∀ (op : Nat) (w a b : Reg), swValid w = true → swValid (syncApply op w a b).1 = true

/-- R327 to R331: the rows of `sync.op`. A core with no operation of the kind on its way issues the step of its RUNNING slot, and one whose operation has reached the die of its object has it applied there. The slot has no twin and no wait is parked at the region. -/
def Obligations.SyncStepsAnswer : Prop :=
  ∀ (s : State) (c op : Nat),
    (∀ (k : Nat) (d : BitVec 512), SyncStep s c k op d → syncSent s c op = none → (slotOf s c k).stopping = false →
      (slotOf s c k).twinWait = [] →
      let v := slotOf s c k
      (∀ e ∈ SyncRows c, e.2 = op → ∃ t, exec e.1 s = .next t ∧ CoresOnly s t ∧ (slotOf t c k).ip = v.ip + 1 ∧
        ∃ m ∈ t.narrow, m.src = c ∧ m.srcSlot = k ∧
          m.body = .syncReq (syRegion d) (syIndex d) op (syA d) (syB d) v.ip (coreOf s c).nextTag) ∧
      (∀ e ∈ WaitRows c ++ [(.syncOpArriveWait c, 9)], e.2 = op → ∃ t, exec e.1 s = .next t ∧ CoresOnly s t ∧
        (slotOf t c k).ip = v.ip ∧ (slotOf t c k).state = .blocked ∧
        ∃ m ∈ t.narrow, m.src = c ∧ m.srcSlot = k ∧
          m.body = .syncReq (syRegion d) (syIndex d) op (syA d) (syB d) v.ip (coreOf s c).nextTag)) ∧
    (∀ (i r j step tag : Nat) (a b : Reg) (m : Msg) (u : State), syncSent s c op = some i → takeMsg s i = some (m, u) →
      m.body = .syncReq r j op a b step tag → regionServes s r = true → (regOf s r).waits = [] →
      let w := syncWord s r j
      let answers (t : State) (status : Nat) : Prop :=
        ∃ x ∈ t.narrow, x.dst = c ∧ x.dstSlot = m.srcSlot ∧ x.body = .syncResp tag status w
      let parked : Parked :=
        { index := j, op := op, operand := a, before := w, core := c, slot := m.srcSlot, step := step, tag := tag }
      (∀ e ∈ SyncRows c, e.2 = op → ∃ t, exec e.1 s = .next t ∧ syncWord t r j = (syncApply op w a b).1 ∧
        (∀ x, x ≠ j → syncWord t r x = syncWord s r x) ∧ t.mem = s.mem ∧ t.cores = s.cores ∧ answers t (syncApply op w a b).2) ∧
      (∀ e ∈ WaitRows c, e.2 = op → opType op = some (swType w) →
        (waitMet op w a w = false → ∃ t, exec e.1 s = .next t ∧ syncWord t r j = w ∧ (regOf t r).waits = [parked] ∧
          t.mem = s.mem ∧ t.cores = s.cores) ∧
        (waitMet op w a w = true → ∃ t, exec e.1 s = .next t ∧ (regOf t r).waits = [] ∧ t.mem = s.mem ∧ t.cores = s.cores ∧
          syncWord t r j = (if op = 0xA then (syncApply 5 w a 0).1 else w) ∧ answers t 0)) ∧
      (op = 9 → swType w = 2 → swValid w = true →
        (bitsOf w.toNat 0 16 + 1 ≠ bitsOf w.toNat 16 16 → ∃ t, exec (.syncOpArriveWait c) s = .next t ∧
          syncWord t r j = arriveWord w ∧ (regOf t r).waits = [parked] ∧ t.mem = s.mem ∧ t.cores = s.cores) ∧
        (bitsOf w.toNat 0 16 + 1 = bitsOf w.toNat 16 16 → ∃ t, exec (.syncOpArriveWait c) s = .next t ∧
          syncWord t r j = arriveWord w ∧ (regOf t r).waits = [] ∧ t.mem = s.mem ∧ t.cores = s.cores ∧ answers t 0)))

/-- R329 (the result record), R332 (retry after a full table), R333 (cancel), R334 and R336 (remote timeouts). -/
def Obligations.SyncOutcomes : Prop :=
  ∀ (s t : State) (i c k step : Nat) (m : Msg),
    (takeMsg s i = some (m, t) → ∀ tag status word, m.body = .syncResp tag status word → epKind m.dst = 1 →
      exec (.syncResponse i) s = .next (postAnswered t (m.dst % 2 ^ 12) tag status)) ∧
    (takeMsg s i = some (m, t) → ∀ tag status word y, m.body = .syncResp tag status word → epKind m.dst ≠ 1 →
      syncOf t m.dst m.dstSlot tag = some y →
      exec (.syncResponse i) s = .next (finishSync t m.dst m.dstSlot y status word) ∧
      (status < 2 → twinCore s m.dst = none → ∃ u, exec (.syncResponse i) s = .next u ∧
        u.mem = writePoison s.mem (corePhys m.dst y.result) (resultRecord status word) [] ∧
        (y.op < 7 → (slotOf u m.dst m.dstSlot).ip = (slotOf s m.dst m.dstSlot).ip ∧
          (slotOf u m.dst m.dstSlot).issued = (slotOf s m.dst m.dstSlot).issued.eraseP (fun x => x.step = y.step)) ∧
        (7 ≤ y.op → (slotOf u m.dst m.dstSlot).ip = y.step + 1 ∧ (slotOf u m.dst m.dstSlot).issued = (slotOf s m.dst m.dstSlot).issued))) ∧
    (takeMsg s i = some (m, t) → ∀ r x tag, m.body = .cancel r x tag →
      (regOf t r).waits.any (fun p => p.core = m.src && p.slot = m.srcSlot && p.tag = tag) = true →
      ∃ u, exec (.syncCancel i) s = .next u ∧ (regOf u r).waits =
        (regOf s r).waits.filter (fun p => !(p.core = m.src && p.slot = m.srcSlot && p.tag = tag)) ∧ u.mem = s.mem) ∧
    (∀ y, (slotOf s c k).syncs.find? (fun y => y.retry && windowOver (computeNow s c) y.since (computeUs s c)) = some y →
      (slotOf s c k).state = .blocked → (slotOf s c k).stopping = false → coreRuns s c = true →
      let d := nextStep s c (slotOf s c k)
      exec (.syncWaitRetry c k) s =
        .next (settleCore (issueWait (onSlot (bump s ctrRegionRetries (syRegion d) 1) c k (fun v => { v with syncs := v.syncs.eraseP (· = y) })) c k d) c) ∧
      (signaturesDiffer s c (slotOf s c k) = false → ∃ u, exec (.syncWaitRetry c k) s = .next u ∧ CoresOnly s u ∧
        ∃ x ∈ u.narrow, x.src = c ∧ x.srcSlot = k ∧
          x.body = .syncReq (syRegion d) (syIndex d) (syOp d) (syA d) (syB d) (slotOf s c k).ip (coreOf s c).nextTag)) ∧
    (∀ y, (slotOf s c k).syncs.find? (fun y => y.remote && y.step = step && syncLate s c y) = some y →
      exec (.syncRemoteTimeout c k step) s = .next (finishSync (forgetSyncs (bump s ctrRegionRemoteTimeouts (regionOf c) 1) c k
        (fun n => n = y.tag)) c k y 5 0) ∧
      ((slotOf s c k).twin = none → ∃ u, exec (.syncRemoteTimeout c k step) s = .next u ∧ (slotOf u c k).state = .faulted ∧
        u.nv = s.nv ∧ u.frames = s.frames))

/-- R131 to R137, R247, R256 (engine steps), R126, R378 (loads), R84 and R95 to R97 (finalisation), R148 (the epilogue of out_mode 1). -/
def Obligations.EngineSteps : Prop :=
  ∀ (s : State) (c k id : Nat) (d : BitVec 512) (a : OpenAcc) (tile : Nat),
    (∀ e ∈ [(Instr.mma c, 1), (Instr.mmaGc c, 2), (Instr.sumac c, 3), (Instr.epi c, 4)],
      (if coreRuns s c then serveWaiting s c e.2 else none) = none → fetchStep s c e.2 = .step k d →
      let g := engineOf c (sdEngine d)
      let w : Accepted := { core := c, slot := k, step := (slotOf s c k).ip, desc := d }
      (engBusy (engOf s g) c k d = true → ∃ t, exec e.1 s = .next t ∧ (slotOf t c k).ip = (slotOf s c k).ip + 1 ∧
        engOf t g = { engOf s g with queue := (engOf s g).queue ++ [w] } ∧ t.mem = s.mem ∧ t.nv = s.nv ∧ t.frames = s.frames) ∧
      (engBusy (engOf s g) c k d = false → (engOf s g).queue = [] →
        (∀ x, engCause s c k d = some x → exec e.1 s = .next (engReject s c k (slotOf s c k).ip x g d) ∧
          ∃ t, exec e.1 s = .next t ∧ (slotOf t c k).state = .faulted ∧ (slotOf t c k).ip = (slotOf s c k).ip ∧
            t.engines = s.engines ∧ t.nv = s.nv ∧ t.frames = s.frames) ∧
        (engCause s c k d = none → planFault d = false → exec e.1 s = .next (settleCore (engTake (issueTo s c k d) w) c) ∧
          ∃ t, exec e.1 s = .next t ∧ (slotOf t c k).ip = (slotOf s c k).ip + 1 ∧
            (e.2 ≠ 4 → sdArmed d = false → (engOf t g).waiting = some w ∧ (engOf t g).ended = false) ∧
            t.nv = s.nv ∧ t.fuses = s.fuses))) ∧
    (coreRuns s (coreOfEngine id) = true → exec (.loadComplete id) s = .next (runLoad s id) ∧
      (∀ u w, wantedLoad (engOf s id) = some (u, w) → (engOf s id).acc = some a →
        let h := halfOf (engOf s id) (engOf s id).nextHalf
        h.aDone = true → h.bDone = true → h.held = false → h.poison = false → sdPreload a.first.desc = 0 → a.pending = 0 →
        etOutside (accEt (withEt a (loadOf s id (engOf s id).nextHalf h.gc (sdPlan a.first.desc) u.k))) = false →
        ∃ t x, exec (.loadComplete id) s = .next t ∧ (engOf t id).acc = some x ∧ x.kBlocks = a.kBlocks + u.k ∧
          x.loads = a.loads + 1 ∧ x.used = a.used ++ [u] ∧ (engOf t id).waiting = none ∧
          (engOf t id).ended = sdFinish w.desc ∧ (engOf t id).nextHalf = 1 - (engOf s id).nextHalf ∧ t.nv = s.nv)) ∧
    (engineRuns s (coreOfEngine id) = true → (engOf s id).acc = some a → (engOf s id).ended = true → a.again = false →
      checksPending s a = false → kCountWrong a = false → (engOf s id).defect = 0 → sdOpcode a.first.desc ≠ 3 →
      planReduce (sdPlan a.first.desc) = false → sumsHold a (tileOf (engOf s id) a.tile).words = true →
      exec (.accumulationFinalisation id false) s = .next (settleCore (finishTile s id a) a.first.core) ∧
      ((liveWords a (tileOf (engOf s id) a.tile).words).any wordOver = false → a.checked = false → (engOf s id).replays = [] →
        ∃ t, exec (.accumulationFinalisation id false) s = .next t ∧ (engOf t id).acc = none ∧
          tileOf (engOf t id) a.tile = { words := (tileOf (engOf s id) a.tile).words, done := some a } ∧
          t.mem = s.mem ∧ t.nv = s.nv ∧ t.frames = s.frames)) ∧
    (engineRuns s (coreOfEngine id) = true → doneTile (engOf s id) = some (tile, a) → plantedAt s 7 2 a.first.core = false →
      sdOutMode a.first.desc = 1 → (slotOf s a.first.core a.first.slot).primary = none →
      (slotOf s a.first.core a.first.slot).twin = none →
      let ws := (tileOf (engOf s id) tile).words
      let body := wordBytes 8 ws
      let head := mkHeader 2 0 false false false 64 64
        (planResult (sdPlan a.first.desc) a.et a.replay false false (ws.any (fun w => w.tag ≠ .finite)))
        (sdRow a.first.desc) (sdCol a.first.desc) (crc32c body) body.length
      let u := coreWrite s a.first.core (sdOut a.first.desc) (head ++ body)
      exec (.epilogueOutput id false) s = .next (settleCore (drainTile u id tile a) a.first.core) ∧
      ∃ t, exec (.epilogueOutput id false) s = .next t ∧ t.mem = u.mem ∧
        (slotOf t a.first.core a.first.slot).issued = (slotOf s a.first.core a.first.slot).issued.eraseP (fun x => x.step = a.finish) ∧
        t.nv = s.nv ∧ t.frames = s.frames)

/-- R167 to R171 (vector), R220 to R222 (merge), R356 to R366 (copies), R372 (binding), R354 (checks), R402 (fills): what each row does at once, and the operation that carries on. -/
def Obligations.VectorCopyAndStreamSteps : Prop :=
  ∀ (s : State) (c k n : Nat) (d : BitVec 512) (mm : Bool) (u : Upset), (slotOf s c k).primary = none → (slotOf s c k).twin = none →
    let v := slotOf s c k
    (∀ e ∈ [(Instr.vectorKernel c mm, 0x10), (Instr.expressionProgram c mm, 0x11)], ∀ x, fetchStep s c e.2 = .step k d →
      (e.2 = 0x11 → corePoison s c (vkProg d) (64 + 4 * vkProgLen d) = false) → vecCause s c k d = some x →
      exec e.1 s = .next (settleCore (rejectStep s c k v.ip x c 0 0) c) ∧
      ∃ t, exec e.1 s = .next t ∧ (slotOf t c k).state = .faulted ∧ (slotOf t c k).ip = v.ip ∧ t.nv = s.nv ∧ t.frames = s.frames) ∧
    (∀ e ∈ [(Instr.vectorKernel c mm, 0x10), (Instr.expressionProgram c mm, 0x11)], fetchStep s c e.2 = .step k d →
      (e.2 = 0x11 → corePoison s c (vkProg d) (64 + 4 * vkProgLen d) = false) → vecCause s c k d = none →
      let q := if (vectorStep s c).isNone then { coreOf s c with vecQ := [k], formed := [] }
        else { coreOf s c with vecQ := (coreOf s c).vecQ ++ [k] }
      let t := settleCore (issueTo (setCore s c q) c k d) c
      exec e.1 s = .next (if (vectorStep t c).any (fun p => p.2.1.op = e.2) then runRow t c mm else t) ∧
      ∃ t, exec e.1 s = .next t ∧ (slotOf t c k).ip = v.ip + 1 ∧ t.nv = s.nv ∧ t.frames = s.frames) ∧
    (fetchStep s c 0x20 = .step k d → mgBad s c d = false →
      let recs := (List.range (mgInputs d)).map (fun i => mgRecDone (mgEntry s c d i))
      let j : MergeJob := { core := c, slot := k, step := v.ip, desc := d, out := mgDone d, recs := recs, halt := none,
                            taken := recs, prev := [], used := [], next := [], last := [], sum := none, emitting := false, segs := [],
                            retried := false }
      let h := clusterOf c
      let t := issueTo s c k d
      exec (.merge ⟨c, u⟩) s = .next (onUpset (settleCore (setHub t h { hubOf t h with merges := (hubOf t h).merges ++ [j] }) c)
        (.merge h) u (fun s => mergeUpset s h) (fun s => pumpMerge s h)) ∧
      ∃ t, exec (.merge ⟨c, u⟩) s = .next t ∧ (slotOf t c k).ip = v.ip + 1 ∧ t.nv = s.nv ∧ t.frames = s.frames) ∧
    (∀ e ∈ [(Instr.copy ⟨c, u⟩, 0x30, Unit.coreCopy c), (Instr.copyHub ⟨c, u⟩, 0x31, Unit.hubCopy (clusterOf c))],
      fetchStep s c e.2.1 = .step k d → csReserved d = false → csStream d = 0 → csDesc d % 128 = 0 → csDesc d + 128 ≤ coreBytes →
      corePoison s c (csDesc d) 128 = false →
      (8 ≤ (jobsOf s e.2.2).length → exec e.1 s = .next (goCopies s e.2.2 u)) ∧
      ((jobsOf s e.2.2).length < 8 →
        let cd := recordOf 1024 (coreRead s c (csDesc d) 128)
        (∀ x, copyCause cd = some x → ∃ t, exec e.1 s = .next t ∧ (slotOf t c k).state = .faulted ∧ t.nv = s.nv) ∧
        (copyCause cd = none → exec e.1 s = .next (goCopies (takeCopy s c k e.2.2 d cd) e.2.2 u) ∧
          ∃ t, exec e.1 s = .next t ∧ (slotOf t c k).ip = v.ip + 1 ∧ t.nv = s.nv ∧ t.frames = s.frames))) ∧
    (fetchStep s c 0x34 = .step k d → csReserved d = false → csDesc d % 128 = 0 → csDesc d + 128 ≤ coreBytes →
      corePoison s c (csDesc d) 128 = false → ((strmOf v (csStream d)).bound = false ∨ stForm (strmOf v (csStream d)).desc ≠ 2) →
      let sd := recordOf 1024 (coreRead s c (csDesc d) 128)
      stBad sd = false →
      (streamFree s c k (csStream d) = true → ∃ t, exec (.strmBind c) s = .next t ∧ (slotOf t c k).ip = v.ip + 1 ∧
        (strmOf (slotOf t c k) (csStream d)).bound = true ∧ (strmOf (slotOf t c k) (csStream d)).desc = sd ∧
        t.nv = s.nv ∧ t.frames = s.frames) ∧
      (streamFree s c k (csStream d) = false → exec (.strmBind c) s = .next (settleCore (giveUp s c k .blocked) c))) ∧
    (fetchStep s c 0x35 = .step k d → csReserved d = false → csDesc d = 0 → streamFree s c k (csStream d) = true →
      ((strmOf v (csStream d)).bound = false ∨ stForm (strmOf v (csStream d)).desc ≠ 2) →
      ∃ t, exec (.strmUnbind c) s = .next t ∧ (slotOf t c k).ip = v.ip + 1 ∧ (strmOf (slotOf t c k) (csStream d)).bound = false ∧
        t.nv = s.nv ∧ t.frames = s.frames) ∧
    (exec (.streamChunkDeliver c k ⟨n, u⟩) s = .next (settleVector (settleCore (onUpset s (.stream c k n) u
        (fun s => strmUpset s c k n) (fun s => (pumpStream s c k n).1)) c) c) ∧
      ∃ t, exec (.streamChunkDeliver c k ⟨n, u⟩) s = .next t ∧ (slotOf t c k).ip = v.ip ∧ t.nv = s.nv ∧ t.frames = s.frames) ∧
    (∀ rest, n < 16 → (strmOf v n).checks = false :: rest → plantedAt s 5 6 c = false →
      exec (.operandCheckVerify c k n) s =
        .next (bump (setStrm s c k n { strmOf v n with checks := rest }) ctrCopyVerified c 1) ∧
      ∃ t, exec (.operandCheckVerify c k n) s = .next t ∧ slotOf t c k = { v with strms := (slotOf t c k).strms } ∧
        (strmOf (slotOf t c k) n).checks = rest ∧ t.mem = s.mem) ∧
    (∀ r f, (regOf s r).fills.find? (fun f => f.line = n) = some f → f.waiting = [] →
      (lineShared s n = true → ∃ t, exec (.stackCacheFill r n false) s = .next t ∧ cacheHolds t r n = true ∧
        (regOf t r).fills = (regOf s r).fills.eraseP (fun f => f.line = n) ∧ t.mem = s.mem) ∧
      (∃ t, exec (.stackCacheFill r n true) s = .next t ∧ t.hubs = s.hubs ∧
        (regOf t r).fills = (regOf s r).fills.eraseP (fun f => f.line = n) ∧ t.mem = poisonRange s.mem (n * 512) 512))

/-- R413, R421, R424, R425, R434, R455, R464 and R516: one row for each hop. -/
def Obligations.MeshHops : Prop :=
  ∀ (s u : State) (router port ep : Nat) (p q : Packet),
    (Alone s router port p → let code := codeOf s router p
      (4 ≤ code → code < 8 → stallsAt s p = false → (code = 7 → linkOut s (edgeLink router) = false) → ∃ t, exec (.routerPacketReceive router port true .good) s = .next t ∧
        arrivals t p.dest = arrivals s p.dest ++ [p] ∧ wire t router port = [] ∧ MeshOnly s t) ∧
      (4 ≤ code → code < 8 → stallsAt s p = true → p.noted = false →
        ∃ t, exec (.routerPacketReceive router port true .good) s = .next t ∧ wire t router port = [{ p with noted := true }] ∧
          look t.mesh.stalls p.dest 0 = look s.mesh.stalls p.dest 0 + 1 ∧ t.mesh.arrived = s.mesh.arrived ∧ MeshOnly s t) ∧
      (8 ≤ code → p.dest < 2 ^ 14 → ∃ t, exec (.routerPacketReceive router port true .good) s = .next t ∧
        t.mesh.arrived = s.mesh.arrived ∧ MeshOnly s t ∧
        (p.kind ≤ 1 → t.mesh.dropped = s.mesh.dropped ∧ let resp := sealed { dropResponse p with tbl := p.tbl }
          if localCode p.dest = 7 ∧ linkOut s (edgeLink router) = true then look t.mesh.entering (router * 8 + 7) [] = [resp]
          else wire t router (localCode p.dest) = [Entered s resp]) ∧
        (p.kind = 4 ∨ p.kind = 5 → wire t router port = [] ∧ t.mesh.dropped = (router, p.kind, p.dest) :: s.mesh.dropped) ∧
        (1 < p.kind → p.kind ≠ 4 → p.kind ≠ 5 → wire t router port = [] ∧ t.mesh.dropped = s.mesh.dropped)) ∧
      (∀ n, code < 4 → neighbour router code = some n → routerUp s n = true →
        (linkOut s (linkOf router code) = false → vcRoom s router n (portFacing code) p.vc = true →
          ∃ t, exec (.routerPacketReceive router port true .good) s = .next t ∧ wire t router port = [] ∧
            wire t n (portFacing code) = wire s n (portFacing code) ++ [Entered s p] ∧
            t.mesh.arrived = s.mesh.arrived ∧ MeshOnly s t) ∧
        (linkOut s (linkOf router code) = true ∨ vcRoom s router n (portFacing code) p.vc = false →
          ∃ t, exec (.routerPacketReceive router port true .good) s = .next t ∧ t.mesh.wires = s.mesh.wires ∧
            t.mesh.arrived = s.mesh.arrived ∧ MeshOnly s t))) ∧
    (∀ id n back b, routerUp s router = true → wire s router port = [p] → inLink router port = some (id, n, back) →
      arrivedWhole s router port b p = false → let m := look s.mesh.tries (router * 8 + port) 0 + 1
      (m < 8 → let u := linkRetry (setTries s router port m) router n id m
        (linkState u id).retries < 256 → linkOut u id = false → exec (.routerPacketReceive router port b .good) s = .next u ∧
        ∃ t, exec (.routerPacketReceive router port b .good) s = .next t ∧ look t.mesh.tries (router * 8 + port) 0 = m ∧
          t.mesh.wires = s.mesh.wires ∧ t.mem = s.mem ∧ t.cores = s.cores) ∧
      (8 ≤ m → port < 4 → ∃ t, exec (.routerPacketReceive router port b .good) s = .next t ∧ wire t router port = [] ∧
        look t.mesh.tries (router * 8 + port) 0 = 0 ∧ t.mem = s.mem ∧ t.cores = s.cores ∧
        ∃ x ∈ wire t n back ++ look t.mesh.entering (n * 8 + back) [], x = { p with seen := x.seen, noted := x.noted })) ∧
    (∀ b, routerUp s router = true → wire s router port = [p] →
      ∃ t, exec (.routerPacketReceive router port b .tableError) s = .next t ∧ t.mesh = s.mesh ∧
        ∃ x ∈ t.sup.resets, x.domain = 3 ∧ x.cls = 0x15 ∧ x.repair = some (1, router)) ∧
    (∀ e ∈ [(Instr.readRequest ⟨ep, []⟩, 0), (Instr.writePacket ep, 1), (Instr.tokenArrive ep, 5)],
      Arrived s ep (fun x => x.kind = e.2 && !x.flagged && x.vc ≠ 5) q u →
      exec e.1 s = .next (countArrival (applyPacket u q) q) ∧
      ∃ t, exec e.1 s = .next t ∧
        arrivals t ep = (arrivals s ep).eraseP (fun x => x.kind = e.2 && !x.flagged && x.vc ≠ 5) ∧
        (let d := pairDst s q.src q.dest;
          pairDst t q.src q.dest = if q.fepoch then { d with got1 := d.got1 + 1 } else { d with got0 := d.got0 + 1 }) ∧
        (e.2 = 1 → epKind q.dest ≠ 3 → t.mem = (physWrite s q.phys q.payload q.poison).mem) ∧
        (e.2 = 0 → t.mem = s.mem) ∧ t.nv = s.nv ∧ t.frames = s.frames ∧ t.engines = s.engines) ∧
    (Arrived s ep (fun x => x.kind = 2) q u → exec (.readResponse ep) s =
        .next (pumpUnit (onSegs (freeAnswered u ep q.src q.answers) q.unit (readBack q.rtag q.payload q.poison)) q.unit) ∧
      ∃ t, exec (.readResponse ep) s = .next t ∧ arrivals t ep = (arrivals s ep).eraseP (fun x => x.kind = 2) ∧
        t.nv = s.nv ∧ t.frames = s.frames ∧ t.engines = s.engines) ∧
    (Arrived s ep (fun x => x.kind = 3) q u → exec (.writeAck ep) s =
        .next (pumpUnit (onSegs (freeAnswered u ep q.src q.answers) q.unit (writeBack q.rtag)) q.unit) ∧
      ∃ t, exec (.writeAck ep) s = .next t ∧ arrivals t ep = (arrivals s ep).eraseP (fun x => x.kind = 3) ∧
        t.nv = s.nv ∧ t.frames = s.frames ∧ t.engines = s.engines) ∧
    (Arrived s ep (fun x => x.kind = 6) q u → exec (.dropResponse ep) s =
        .next (haltUnit (freeAnswered u ep q.src q.answers) q.unit q.rtag .fence) ∧
      ∃ t, exec (.dropResponse ep) s = .next t ∧ arrivals t ep = (arrivals s ep).eraseP (fun x => x.kind = 6) ∧
        ((∀ c k n, q.unit ≠ .stream c k n) → t.mem = s.mem) ∧ t.nv = s.nv ∧ t.frames = s.frames ∧ t.engines = s.engines) ∧
    (Arrived s ep (fun x => x.kind = 7) q u → exec (.orderAck ep) s = .next (freeAnswered u ep q.src q.answers) ∧
      ∃ t, exec (.orderAck ep) s = .next t ∧ arrivals t ep = (arrivals s ep).eraseP (fun x => x.kind = 7) ∧
        (q.answers = 4 → pairSrc t ep q.src = { pairSrc s ep q.src with unanswered := false }) ∧
        (q.answers = 5 → pairSrc t ep q.src = { pairSrc s ep q.src with vc5Out := (pairSrc s ep q.src).vc5Out - 1 }) ∧
        t.mem = s.mem ∧ t.nv = s.nv ∧ t.frames = s.frames ∧ t.engines = s.engines)

/-- R432 (flagged packets), R435 (VC5), R448 (landing), R384, R387 and R452 (the three messages of a destination). -/
def Obligations.EndpointArrivals : Prop :=
  ∀ (s u : State) (ep i : Nat) (q : Packet) (m : Msg),
    (Arrived s ep (fun x => x.flagged) q u →
      (flaggedMet u q = true → exec (.flaggedPacket ep) s = .next (applyFlagged u q) ∧
        ∃ t, exec (.flaggedPacket ep) s = .next t ∧ arrivals t ep = (arrivals s ep).eraseP (fun x => x.flagged) ∧
          heldAt t ep = heldAt s ep ∧ (let d := pairDst s q.src q.dest;
            pairDst t q.src q.dest = if q.fepoch then { d with got1 := 0 } else { d with got0 := 0 }) ∧
          t.nv = s.nv ∧ t.frames = s.frames ∧ t.engines = s.engines) ∧
      (flaggedMet u q = false → (heldAt u ep).length < 4 → ∃ t, exec (.flaggedPacket ep) s = .next t ∧
        heldAt t ep = heldAt s ep ++ [q] ∧ arrivals t ep = (arrivals s ep).eraseP (fun x => x.flagged) ∧ MeshOnly s t) ∧
      (flaggedMet u q = false → 4 ≤ (heldAt u ep).length → exec (.flaggedPacket ep) s = .next s)) ∧
    ((heldAt s ep).find? (flaggedMet s) = some q →
      exec (.flaggedPacketRelease ep) s = .next (applyFlagged (setHeld s ep ((heldAt s ep).erase q)) q) ∧
      ∃ t, exec (.flaggedPacketRelease ep) s = .next t ∧ heldAt t ep = (heldAt s ep).erase q ∧
        (let d := pairDst s q.src q.dest;
          pairDst t q.src q.dest = if q.fepoch then { d with got1 := 0 } else { d with got0 := 0 }) ∧
        t.nv = s.nv ∧ t.frames = s.frames ∧ t.engines = s.engines) ∧
    (Arrived s ep (fun x => x.vc = 5) q u →
      (q.pseq = (pairDst u q.src q.dest).pseq → exec (.vc5Packet ep) s = .next (applyVc5 16 u q) ∧
        ∃ t, exec (.vc5Packet ep) s = .next t ∧ arrivals t ep = (arrivals s ep).eraseP (fun x => x.vc = 5) ∧
          t.nv = s.nv ∧ t.frames = s.frames ∧ t.engines = s.engines) ∧
      (q.pseq ≠ (pairDst u q.src q.dest).pseq → (reorderAt u ep).length < 16 →
        ∃ t, exec (.vc5Packet ep) s = .next t ∧ reorderAt t ep = reorderAt s ep ++ [q] ∧
          arrivals t ep = (arrivals s ep).eraseP (fun x => x.vc = 5) ∧ MeshOnly s t)) ∧
    ((arrivals s ep).find? (fun x => decide (x.kind = 4)) = some q → exec (.reductionPacketLand ⟨ep, .none⟩) s =
        .next (landPacket (setArrivals s ep ((arrivals s ep).eraseP (fun x => decide (x.kind = 4)))) ep q) ∧
      ∃ t, exec (.reductionPacketLand ⟨ep, .none⟩) s = .next t ∧
        arrivals t ep = (arrivals s ep).eraseP (fun x => decide (x.kind = 4)) ∧
        t.nv = s.nv ∧ t.frames = s.frames ∧ t.engines = s.engines) ∧
    (takeMsg s i = some (m, u) →
      (∀ e ∈ [Instr.reductionAccept i, .reductionAbort i], ∀ g row col,
        m.body = (if e = .reductionAccept i then .accept g row col else .abort g row col) →
        exec e s = .next (each (engineTwins u g) u (fun e s => releaseSent s e row col)) ∧
        (∀ a, sentIn (engOf s g) row col = some a → engineTwins u g = [g] → ∃ t, exec e s = .next t ∧
          engOf t g = withoutSent (engOf s g) a row col ∧ t.mem = s.mem ∧ t.nv = s.nv ∧ t.frames = s.frames)) ∧
      (∀ g row col n, m.body = .replayRequest g row col n →
        exec (.reductionReplayRequest i) s = .next (each (engineTwins u g) u (fun e s => noteReplay s e row col n)) ∧
        ∃ t, exec (.reductionReplayRequest i) s = .next t ∧ t.nv = s.nv ∧ t.frames = s.frames ∧
          ((sentIn (engOf s g) row col).isSome = true → (engOf s g).acc.isSome = true → engineTwins u g = [g] →
            engOf t g = withReplay (engOf s g) row col n ∧ t.mem = s.mem)))

/-- R457 to R462: the shadow copy, the switch order and the retirement of the old copy. -/
def Obligations.RouteTablesSwitch : Prop :=
  ∀ (s : State) (writes : RouteWrites) (done : Bool) (ep : Nat),
    (s.mesh.rebuild < 2 →
      let u := if s.mesh.restart || s.mesh.rebuild = 0 then clearShadow s else s
      let u := writeShadow { u with mesh := { u.mesh with rebuild := 1, restart := false } } writes.mesh writes.narrow
      ∃ t, exec (.routeRebuild writes done) s = .next t ∧
      (if done && shadowGood u then t.mesh.rebuild = 2 ∧ t.mesh.switched = [] ∧
        t.mesh.covered = s.mesh.detour.map (fun e => (e.1, e.2.length)) else t = u) ∧
      t.mesh.active = s.mesh.active ∧ (∀ router dest, routeOf t router dest s.mesh.active = routeOf s router dest s.mesh.active) ∧
      (∀ router dest, narrowTable t s.mesh.active router dest = narrowTable s s.mesh.active router dest) ∧
      t.mesh.wires = s.mesh.wires ∧ t.mesh.detour = s.mesh.detour ∧ t.nv = s.nv ∧ t.frames = s.frames ∧ t.engines = s.engines) ∧
    (s.mesh.rebuild = 2 → s.mesh.switched.contains ep = false → epServes s ep = true →
      ∃ t, exec (.switchOrder ep) s = .next t ∧ stampOf t ep = !s.mesh.active ∧ (∀ e, e ≠ ep → stampOf t e = stampOf s e) ∧
        look t.mesh.swaps ep 0 = look s.mesh.swaps ep 0 + 1 ∧ t.mesh.wires = s.mesh.wires ∧ MeshOnly s t ∧
        t.mesh.rebuild = 2) ∧
    (s.mesh.rebuild = 2 → allSwitched s = true → copyGone s s.mesh.active = true → exec .routeRetire s = .next (resumeFenced (retireRoutes s)) ∧
      (∀ e, stampOf (retireRoutes s) e = !s.mesh.active) ∧
      (retireRoutes s).mesh.detour = (s.mesh.detour.map (fun (e : Nat × List Override) =>
        (e.1, e.2.take (e.2.length - look s.mesh.covered e.1 0)))).filter (fun e => !e.2.isEmpty) ∧ MeshOnly s (retireRoutes s) ∧
      ∃ t, exec .routeRetire s = .next t ∧ t.mesh.active = (!s.mesh.active) ∧ t.mesh.switched = [] ∧ t.mesh.rebuild = 0 ∧
        t.nv = s.nv ∧ t.frames = s.frames ∧ t.engines = s.engines) ∧
    (s.mesh.rebuild ≠ 2 ∨ allSwitched s = false ∨ copyGone s s.mesh.active = false → exec .routeRetire s = .next s)

/-- R309 to R313 (messages), R322 (orphan notices), R263 and R264 (the binding of a port to a lane). -/
def Obligations.NarrowMessages : Prop :=
  ∀ (s t : State) (i : Nat) (m : Msg), takeMsg s i = some (m, t) →
    (∀ tag epoch words poison, m.body = .user tag epoch words poison →
      let e := endOf t m.dst (tag / 2 ^ 12)
      (coreReachable t m.dst = false → exec (.messageDeliver i ⟨true, .good⟩) s =
        .next (departs (dropMessage t m.src m tag epoch 0 2) m)) ∧
      (coreReachable t m.dst = true → e.isOpen = true → e.epoch = epoch → e.parked = false →
        exec (.messageDeliver i ⟨true, .good⟩) s =
          .next (departs (placeMessage t m (slotOf t m.dst e.slot) tag epoch words poison e.epoch) m)) ∧
      (∀ g, coreReachable t m.dst = true → e.isOpen = true → e.epoch = epoch → e.parked = true → groupOf t m.dst = some g →
        parkedPlace g m.dst ≠ 1 →
        exec (.messageDeliver i ⟨true, .good⟩) s = .next (departs (parkMessage t m tag epoch) m)) ∧
      (coreReachable t m.dst = true → (e.isOpen && e.epoch = epoch) = false → savedSlot t m.dst (fun co k _ =>
          let e := look co.ends (tag / 2 ^ 12) .fresh
          e.isOpen && e.epoch = epoch && e.slot = k) = none →
        exec (.messageDeliver i ⟨true, .good⟩) s = .next (departs (if e.isOpen then dropMessage t m.dst m tag epoch e.epoch 0
          else dropMessage t m.dst m tag epoch 0 1) m)) ∧
      (exec (.messageDeliver i ⟨false, .good⟩) s =
        .next (departs (deliverUser (detect t (elCore m.dst) 5 false 0) m tag epoch words true) m)) ∧
      (∀ b x, x ≠ .tableError → ∃ u, exec (.messageDeliver i ⟨b, x⟩) s = .next u ∧ u.nv = s.nv ∧ u.frames = s.frames ∧
        u.engines = s.engines ∧ u.mesh = s.mesh) ∧
      (∀ b, ∃ u, exec (.messageDeliver i ⟨b, .tableError⟩) s = .next u ∧ u.narrow = s.narrow ∧
        ∃ x ∈ u.sup.resets, x.domain = 3 ∧ x.cls = 0x15 ∧ x.repair = some (1, msgTo m))) ∧
    (∀ gen kind detail, m.body = .orphan gen kind detail → (slotOf t m.dst m.dstSlot).state ≠ .empty →
      (slotOf t m.dst m.dstSlot).gen = gen → (groupOf t m.dst).all (fun g => g.image ≠ .saving || g.prog.isEmpty) = true →
      exec (.orphanNotice i) s =
        .next (writeRecord (bump t ctrCoreOrphanWritten m.dst (bn (recordFit t m.dst m.dstSlot).isSome)) m.dst m.dstSlot
          (errorRecord t (slotOf t m.dst m.dstSlot).errLost m.dst m.dstSlot kind 0 m.dst m.step 0 0 0 detail.toNat))) ∧
    (∀ gen kind detail, m.body = .orphan gen kind detail → (slotOf t m.dst m.dstSlot).gen ≠ gen →
      savedSlot t m.dst (fun _ j w => j = m.dstSlot && w.state ≠ .empty && w.gen = gen) = none →
      exec (.orphanNotice i) s = .next (bump t ctrCoreOrphanDiscarded m.dst 1)) ∧
    (∀ port gen credits, m.body = .openGrant port gen credits → ∃ u, exec (.openGrant i) s = .next u ∧
      (outOf (slotOf u m.dst m.dstSlot) port).gen = gen ∧ (outOf (slotOf u m.dst m.dstSlot) port).credits = credits ∧
      (outOf (slotOf u m.dst m.dstSlot) port).seq = (if gen = (outOf (slotOf s m.dst m.dstSlot) port).gen then
        (outOf (slotOf s m.dst m.dstSlot) port).seq else 0) ∧ u.mem = s.mem) ∧
    (∀ port gen n, m.body = .credit port gen n →
      ((outOf (slotOf t m.dst m.dstSlot) port).gen = gen → ∃ u, exec (.creditReturn i) s = .next u ∧
        (outOf (slotOf u m.dst m.dstSlot) port).credits = (outOf (slotOf s m.dst m.dstSlot) port).credits + n ∧ u.mem = s.mem) ∧
      ((outOf (slotOf t m.dst m.dstSlot) port).gen ≠ gen → exec (.creditReturn i) s = .next t)) ∧
    (∀ n port, m.body = .openRequest n port → isProducer (slotOf t m.dst m.dstSlot) n m.src m.srcSlot port = true →
      ∃ u, exec (.openRequest i) s = .next u ∧
        (laneOf (slotOf u m.dst m.dstSlot) n).gen = ((laneOf (slotOf s m.dst m.dstSlot) n).gen + 1) % 16 ∧
        (laneOf (slotOf u m.dst m.dstSlot) n).start = (laneOf (slotOf s m.dst m.dstSlot) n).due ∧
        (∀ x ∈ (laneOf (slotOf u m.dst m.dstSlot) n).tokens, x.1 < (laneOf (slotOf s m.dst m.dstSlot) n).due) ∧ u.mem = s.mem ∧
        ∃ x ∈ u.narrow, ∃ cr, x.dst = m.src ∧ x.dstSlot = m.srcSlot ∧
          x.body = .openGrant port (((laneOf (slotOf s m.dst m.dstSlot) n).gen + 1) % 16) cr) ∧
    (∀ n port, m.body = .openRequest n port → isProducer (slotOf t m.dst m.dstSlot) n m.src m.srcSlot port = false →
      exec (.openRequest i) s = .next (orphanLane t m.dst m.dstSlot n m.src m.srcSlot m.gen port 0 true))

/-- R281 to R289 (stall windows), R743 to R745 (twins), R810 to R814 (the watchdog), R735 (signatures). -/
def Obligations.StallsTwinsAndWatchdogs : Prop :=
  ∀ (s t : State) (i h k c : Nat) (m : Msg),
    (takeMsg s i = some (m, t) →
      (∀ h k full, m.body = .stall h k full → let v := confOf t h k
        exec (.stallBeacon i) s = .next (watchStall (setConf t h k { v with
          stalled := addTo v.stalled (slotUnit m.src m.srcSlot)
          full := v.full.filter (·.1 ≠ slotUnit m.src m.srcSlot) ++ full.map (fun n => (slotUnit m.src m.srcSlot, n))
          beaconAt := t.clocks.mesh }) h k)) ∧
      (∀ h k, m.body = .progress h k → let v := confOf t h k
        exec (.progressBeacon i) s = .next (setConf t h k { v with
          stalled := dropFrom v.stalled (slotUnit m.src m.srcSlot), full := v.full.filter (·.1 ≠ slotUnit m.src m.srcSlot)
          window := if v.window.any (fun w => windowOver t.clocks.mesh w 65536) then v.window else none })) ∧
      (∀ n, m.body = .extend n → (slotOf t m.dst m.dstSlot).state ≠ .empty → mayArm (slotOf t m.dst m.dstSlot) = true →
        ∃ u, exec (.extendCommand i) s = .next u ∧ (slotOf u m.dst m.dstSlot).reserve = some n ∧
          (laneOf (slotOf u m.dst m.dstSlot) n).armed = true ∧ u.mem = s.mem) ∧
      (∀ step crc w, m.body = .twin step crc →
        (slotOf t m.dst m.dstSlot).twinWait.find? (fun w => w.step = step && !w.agreed && !w.rerun) = some w →
        (w.crc = crc → exec (.twinCheckValue i) s =
          .next (settleCore (setTwinWait t m.dst m.dstSlot step (fun w => { w with agreed := true })) m.dst)) ∧
        (w.crc ≠ crc → exec (.twinCheckValue i) s = .next (setTwinWait (bump (detect t (elCore m.dst) 0xC false 0)
          ctrSlotTwinMismatch (slotUnit m.dst m.dstSlot) 1) m.dst m.dstSlot step (fun w => { w with rerun := true })))) ∧
      (∀ h k w, m.body = .watchdog h k true w → (confOf t h k).counted < 8 * ticksPerMs → exec (.watchdogProgressReport i) s =
        .next (setConf (bump t ctrRegionReports m.dst 1) h k { confOf t h k with counted := 0 }))) ∧
    (∀ t0, (confOf s h k).window = some t0 → windowBarred s h k = false → confSlots s h k ≠ [] →
      t0 + 65536 ≤ s.clocks.mesh →
      let v := confOf s h k
      let a := (((confSlots s h k).head?).map (fun e => anchorOf (slotOf s e.1 e.2))).getD 0
      let u := bump s ctrAnchorSignatures a 1
      let lanes := starvedLanes u h k
      exec (.stallWindowEnd h k) s = .next (if lanes.any (fun f => mayArm (slotOf u (f.1 / 4) (f.1 % 4))) then
          each lanes (setConf u h k { v with window := none, signature := lanes }) (fun f s =>
            post s { src := a, srcSlot := 0, dst := f.1 / 4, dstSlot := f.1 % 4, body := .extend f.2 })
        else bump (setConf u h k { v with window := none, signature := lanes, exhausted := true }) ctrAnchorExhausted a 1)) ∧
    (∀ w x y, (slotOf s c k).twinWait.find? (fun w => !w.agreed &&
        (w.rerun || windowOver (regionNow s (regionOf c)) w.since (100 * ticksPerUs))) = some w → w.rerun = true →
      exec (.twinTimeout c k false x y) s =
        .next (settleCore (masked (setTwinWait s c k w.step (fun w => { w with agreed := true })) 3) c)) ∧
    (8 * ticksPerMs ≤ (confOf s h k).counted → ∃ u, exec (.watchdogExpiry h k) s = .next u ∧
      ∃ x ∈ u.sup.resets, x.domain = 0 ∧ x.target = confTarget h ∧ x.trigger = 1 ∧ x.cls = 0xB ∧ x.config = k ∧ x.begun = false) ∧
    (checked s c = true → activeState (slotOf s c k).state = true → ∃ u, exec (.signatureCheck c k true) s = .next u ∧
      (slotOf u c k).state = .faulted)

/-- R476 to R483 (walks), R736 (their address generators), R491 (migration), R495 to R505 (time slicing), R776 to R790 (re-placement). -/
def Obligations.TranslationAndTimeSlices : Prop :=
  ∀ (s : State) (i h : Nat) (b : Bool) (x : WalkCheck),
    (∀ w, s.xlat.walks[i]? = some w → w.root ≠ 0 →
      let u := { s with xlat := { s.xlat with walks := s.xlat.walks.eraseIdx i } }
      let u := bump u ctrRegionWalks ((placeRegion (placeOf w.root)).getD 0) 1
      let none_ : Leaf := { space := gaSpace w.addr, off := gaOff w.addr / 2 ^ 16 * 2 ^ 16, size := 0, entry := 0 }
      (exec (.translationWalk i .uncorrectable) s = .next (retireWindows (escalate u 0 w.addr)) ∧
        ∃ t, exec (.translationWalk i .uncorrectable) s = .next t ∧ t.nv = s.nv ∧ t.frames = s.frames ∧ t.engines = s.engines ∧
          ∃ x ∈ t.sup.resets, x.domain = 3 ∧ x.cls = 0x15 ∧ x.repair = some (0, w.addr)) ∧
      (unitChecked s w.unit = true → ∃ t, exec (.translationWalk i .address) s = .next t ∧
        t.xlat.walks = s.xlat.walks.set i { w with retried := true } ∧ t.cores = s.cores ∧ t.nv = s.nv ∧ t.frames = s.frames) ∧
      (x = .good ∨ x = .address ∧ unitChecked s w.unit = false →
        (∀ l, walkFrom u w.root (gaSpace w.addr) (gaOff w.addr) = .leaf l →
          (windowOf u (gaSpace w.addr) (gaOff w.addr)).any (fun x => activeRoot x = w.root) = true →
          exec (.translationWalk i x) s = .next (retireWindows (pumpUnit (cacheLeaf u w.unit l) w.unit)) ∧
          ∃ t, exec (.translationWalk i x) s = .next t ∧ t.nv = s.nv ∧ t.frames = s.frames ∧ t.engines = s.engines) ∧
        (walkFrom u w.root (gaSpace w.addr) (gaOff w.addr) = .none_ →
          exec (.translationWalk i x) s = .next (retireWindows (useOnce u w.unit none_)) ∧
          ∃ t, exec (.translationWalk i x) s = .next t ∧ t.nv = s.nv ∧ t.frames = s.frames ∧ t.engines = s.engines))) ∧
    (∀ m, s.xlat.migrating[i]? = some m → s.xlat.overrides.length < 64 → s.xlat.leaves.contains m.leaf = true →
      tierHolds s (ptLoc m.leaf.entry.toNat % 8) (ptFrame m.leaf.entry.toNat) = true → exec (.migrationComplete i) s =
        .next (each m.waiting (movePage { s with xlat := { s.xlat with migrating := s.xlat.migrating.eraseIdx i } } m)
          (fun u s => resumeUnit s u isMigrating)) ∧
      ∃ t, exec (.migrationComplete i) s = .next t ∧ t.nv = s.nv ∧ t.frames = s.frames ∧ t.engines = s.engines ∧
        (m.waiting = [] → t.mem = copyRange s.mem (leafPhys m.leaf 0) (leafPhys m.target 0) (pageBytes m.leaf.size) ∧
          t.xlat.overrides = s.xlat.overrides ++ [m.target] ∧ t.xlat.migrating = s.xlat.migrating.eraseIdx i)) ∧
    (∀ l, look? s.slices h = some l → exec (.timeSliceEnd h) s =
        .next (each l.groups.zipIdx s (fun e s => if sliceDue s l e.1 then beginSave s h e.2 none false else s)) ∧
      ∃ t, exec (.timeSliceEnd h) s = .next t ∧ t.nv = s.nv ∧ t.frames = s.frames ∧ t.engines = s.engines ∧
        ((∀ c j n, (strmOf (slotOf s c j) n).bound = false) → t.mem = s.mem) ∧
        ∀ (j : Nat) (g : Group), l.groups[j]? = some g → ∃ g', (groupsOf t h)[j]? = some g' ∧ g'.cores = g.cores ∧
          (if sliceDue s l g then g'.image = .saving ∧ g'.byHost = false else g' = g)) ∧
    (∀ g, (groupsOf s h)[i]? = some g → g.image = .saving →
      (g.prog = [] → g.cores.any (coreBusy s) = false → packetsWithin s g = false →
        (g.cores.all (fun c => (imageAt s g c 0).isSome) = true → exec (.saveComplete h i) s = .next (beginImages s h i g) ∧
          ∃ t, exec (.saveComplete h i) s = .next t ∧ t.nv = s.nv ∧ t.hp = s.hp ∧ t.engines = s.engines ∧ t.frames = s.frames ∧
            (∀ c ∈ g.cores, ∀ k, activeState (slotOf t c k).state = false)) ∧
        (g.cores.all (fun c => (imageAt s g c 0).isSome) = false → g.cores.any (fun c => imageWaits s g c 0) = false →
          exec (.saveComplete h i) s = .next (failSave s h i g) ∧
          ∃ t g', exec (.saveComplete h i) s = .next t ∧ (groupsOf t h)[i]? = some g' ∧ g'.image = .failed ∧ g'.prog = [] ∧
            g'.resident = g.resident ∧ t.nv = s.nv)) ∧
      (∀ c n, g.prog = [(c, (n, 0))] → g.cores = [c] → n < 4 → (putPieces g c n s.free (piecesFrom n 0) { s with free := s.free + 1 }).2 = none →
        ∃ t g', exec (.saveComplete h i) s = .next t ∧ (groupsOf t h)[i]? = some g' ∧ g'.prog = [(c, (n + 1, 0))] ∧ g'.image = .saving ∧
          t.nv = s.nv ∧ t.hp = s.hp ∧ t.cores = s.cores ∧ t.engines = s.engines) ∧
      (g.prog ≠ [] → g.prog.all (fun e => e.2.1 = 5) = true → exec (.saveComplete h i) s = .next (endImages s h i g) ∧
        ∃ t g', exec (.saveComplete h i) s = .next t ∧ (groupsOf t h)[i]? = some g' ∧
          g'.resident = false ∧ (g'.image = .saved ∨ g'.image = .restoring) ∧
          (∀ c ∈ g.cores, ∀ k, (slotOf t c k).state = .empty) ∧ t.nv = s.nv)) ∧
    (∀ g, (groupsOf s h)[i]? = some g → g.image = .restoring →
      (g.prog = [] → g.cores.all (imageGood s g) = false → exec (.restoreComplete h i) s =
        .next (unpark (setGroup s h i { g with image := .saved, prog := [] }) g.cores)) ∧
      (g.prog = [] → g.cores.all (imageGood s g) = true → exec (.restoreComplete h i) s = .next (beginRestore s h i g) ∧
        ∃ t g', exec (.restoreComplete h i) s = .next t ∧ (groupsOf t h)[i]? = some g' ∧
          (∀ c ∈ g.cores, look? g'.prog c = some (5, 0)) ∧ g'.image = .restoring ∧ t.nv = s.nv ∧ t.hp = s.hp ∧ t.cores = s.cores) ∧
      (∀ c n, g.prog = [(c, (n + 1, 0))] → g.cores = [c] → n < 4 → (takePieces g c n (piecesFrom n 0) s).2 = none →
        ∃ t g', exec (.restoreComplete h i) s = .next t ∧ (groupsOf t h)[i]? = some g' ∧ g'.prog = [(c, (n, 0))] ∧
          g'.image = .restoring ∧ t.nv = s.nv ∧ t.hp = s.hp ∧ t.cores = s.cores) ∧
      (g.prog ≠ [] → g.prog.all (fun e => e.2.1 = 0) = true → exec (.restoreComplete h i) s = .next (finishRestore s h i g) ∧
        ∃ t g', exec (.restoreComplete h i) s = .next t ∧ (groupsOf t h)[i]? = some g' ∧ g'.image = .saved ∧ g'.resident = true ∧
          g'.byHost = false ∧ g'.pool = none ∧ g'.began = s.clocks.sup ∧ g'.cores = g.cores ∧ t.nv = s.nv ∧ t.frames = s.frames)) ∧
    (∀ g, (groupsOf s h)[i]? = some g → g.affected ≠ [] → g.resident = false →
      let u := each (g.affected.map regionOf).eraseDups s (fun r t =>
        let cls := ((((g.affected.filter (fun c => regionOf c = r)).map (fenceClass s)).find? (· ≠ 0)).getD 0)
        writeClove t r 7 5 cls 0 0 false)
      (substitutes u h g.affected [] = none → exec (.replacement h i b) s =
          .next (clearInjected (failReplace u h i (if healForbids u h g then 0xA3 else 0xA1) g)) ∧
        ∃ t g', exec (.replacement h i b) s = .next t ∧ (groupsOf t h)[i]? = some g' ∧ g'.affected = [] ∧ g'.halted = false ∧
          g'.cores = g.cores ∧ t.frames = s.frames) ∧
      (∀ moves, substitutes u h g.affected [] = some moves → healForbids u h g = false → rehearsed u g = true →
        g.saved.all (fun c => c.2.slots.all (fun v => decide ((mapReloc moves v.2.reloc).length ≤ 80))) = true →
        exec (.replacement h i false) s = .next (clearInjected (bump (bump (moveSaved u h i g moves) ctrSliceReplaced h 1)
          ctrSliceSubstituted h moves.length)) ∧
        ∃ t g', exec (.replacement h i false) s = .next t ∧ (groupsOf t h)[i]? = some g' ∧ g'.affected = [] ∧ g'.halted = false ∧
          g'.cores = g.cores.map (mapCore moves) ∧ t.frames = s.frames))

/-- R524 to R575: each event of a port over the operation of its rules, in port-counter ticks of 0.8 ns. -/
def Obligations.FabricSchedule : Prop :=
  ∀ (s : State) (port mine rand member delay : Nat) (slots : List (List Nat)) (y : Symbols) (data : List Byte)
    (routes : List (Nat × Nat × Nat)),
    let p := portOf s port
    let now := portNow s port
    (portLive p = true → p.roster = false → p.await = none → p.idleEdge + 4450 ≤ now →
      let w := windowSeen s port 32 slots mine rand
      let q := portOf w.2 port
      (cleanSenders w.1 = [] → ∃ t, exec (.contentionWindowEnd port slots mine rand) s = .next t ∧
        t = setPort w.2 port { q with idleEdge := q.idleEdge + 3200 } ∧ (portOf t port).named = p.named ∧
        t = { s with fabric := t.fabric, counts := t.counts, outbox := t.outbox }) ∧
      (∀ m l, cleanSenders w.1 = m :: l → let u := setPort w.2 port { q with
            named := some m, await := some (m, p.idleEdge + 4450), pending := BitVec.ofNat 32 (maskOf (l.filter (· ≠ m))) }
        exec (.contentionWindowEnd port slots mine rand) s = .next (if m = q.member then transmit u port (p.idleEdge + 4450 - loopTicks p) else u) ∧
        ∃ t, exec (.contentionWindowEnd port slots mine rand) s = .next t ∧ (portOf t port).named = some m ∧
          (portOf t port).await = some (m, p.idleEdge + 4450) ∧
          t = { s with fabric := t.fabric, counts := t.counts, outbox := t.outbox })) ∧
    (∀ m, p.named = some m → portLive p = true → p.roster = true → p.await = none → p.idleEdge + 1650 ≤ now →
      let w := windowSeen s port 4 slots mine rand
      let q := portOf w.2 port
      let u := setPort w.2 port { q with
        await := some (m, p.idleEdge + 1650), pending := q.pending ||| BitVec.ofNat 32 (maskOf (cleanSenders w.1)) }
      exec (.entryWindowEnd port slots mine rand) s = .next (if m = q.member then transmit u port (p.idleEdge + 1650 - loopTicks p) else u) ∧
      ∃ t, exec (.entryWindowEnd port slots mine rand) s = .next t ∧ (portOf t port).await = some (m, p.idleEdge + 1650) ∧
        t = { s with fabric := t.fabric, counts := t.counts, outbox := t.outbox }) ∧
    (∀ m start, p.await = some (m, start) → start + 313 ≤ now → ∃ t, exec (.startToleranceExpire port) s = .next t ∧
      t = setPort (bump (bump s ctrPortSilent port 1) ctrPortBreaks port (bn p.roster)) port (fallBack p (start + 313 - 1250)) ∧
      (portOf t port).roster = false ∧ (portOf t port).idleEdge = start + 313 - 1250 ∧ (portOf t port).await = none) ∧
    (p.joined = true → ∃ t, exec (.trainCollision port false rand) s = .next t ∧
      t = setPort (bump (bump s ctrPortTrainCollisions port 1) ctrPortHdrFail port 1) port (atIdleEdge (fallBack p now) now) ∧
      (portOf t port).roster = false ∧ (portOf t port).idleEdge = now ∧ (portOf t port).edgeSeen = true) ∧
    (p.joined = true → p.edgeSeen = false → p.sending = none → p.joinAt + 100 * 1250 ≤ now →
      exec (.joinSilenceExpire port) s =
        .next (speak (bump s ctrPortNulls port 1) port now { p with sending := some none } [] false false false []) ∧
      ∃ t b, exec (.joinSilenceExpire port) s = .next t ∧ t.outbox = .train port now b :: s.outbox ∧
        (portOf t port).sending = some none ∧ t = { s with fabric := t.fabric, counts := t.counts, outbox := t.outbox }) ∧
    (p.joined = true → ∃ t, exec (.loopbackMeasure port delay) s = .next t ∧ portOf t port = { p with loopback := delay } ∧
      (∀ x, x ≠ port → portOf t x = portOf s x) ∧ t.mem = s.mem) ∧
    (p.owed.any (fun o => decide (o.2 + 250 * 1250 ≤ now)) = true → ∃ t, exec (.ackHoldExpire port) s = .next t ∧
      portOf t port = { p with wantNull := true } ∧ t.mem = s.mem) ∧
    (let head := natOf (data.take 256);
      let u := countCodewords s port data y.badWords y.corrected;
      let from_ := bitsOf head 8 5;
      p.joined = true → p.quiet = false → headDecodes data head = true →
      stranger u p (bitsOf head 32 32) from_ (bitsOf head 16 14) = false → from_ ≠ p.member →
      let v := bump (bump (endOfTrain u port from_ (natOf (sub data (256 + bitsOf head 96 21) 64))) ctrPortReceived port 1)
        ctrPortCrcFail port (bn (!(trainCrcOk head data)))
      (bitAt (bitsOf head 64 32) p.member = true → s.sup.resetting = false → receiverFull s port = false →
        exec (.trainReceive port data y .good) s = .next (takeAck (takeTrain v port from_ head data y.badWords) port from_ head) ∧
        ∃ t, exec (.trainReceive port data y .good) s = .next t ∧ t.nv = s.nv ∧ t.engines = s.engines) ∧
      (bitAt (bitsOf head 64 32) p.member = true → s.sup.resetting = false → receiverFull s port = true →
        exec (.trainReceive port data y .good) s = .next (takeAck (bump v ctrPortOverruns port 1) port from_ head)) ∧
      (bitAt (bitsOf head 64 32) p.member = false ∨ s.sup.resetting = true →
        exec (.trainReceive port data y .good) s = .next (takeAck v port from_ head))) ∧
    (∀ r rs, let u := dropLost s port;
      (portOf u port).queue = r :: rs → (portOf u port).joined = true → r.queuedAt + 2 * 1250 ≤ portNow u port →
      ∃ t x, exec (.trainAssemble port) s = .next t ∧ (portOf t port).ready = (portOf u port).ready ++ [x] ∧
        x.rows = (takeRows 0 0 (mergeRows (trainRows (r :: rs))).1).1 ∧ (∀ e ∈ rs, e ∉ trainRows (r :: rs) → e ∈ (portOf t port).queue) ∧
        (portOf t port).queueAt = (((portOf t port).queue.head?).elim (portOf u port).queueAt (·.queuedAt)) ∧
        (portOf t port).retained = (portOf u port).retained ∧ t.mem = u.mem) ∧
    (∃ t, exec (.retransmitTimeout port member) s = .next t ∧ t.mem = s.mem ∧
      portOf t port = { p with resend := (portOf t port).resend } ∧ (∀ x ∈ p.resend, x ∈ (portOf t port).resend) ∧
      (∀ x ∈ p.retained, ∀ q, x.waiting.contains member = true → look x.last member 0 + 500 * 1250 ≤ now →
        look? x.seqs member = some q → (member, q) ∈ (portOf t port).resend)) ∧
    ((∃ x ∈ p.retained, x.waiting.contains member = true ∧ x.first + 4000 * 1250 ≤ now) →
      ∃ t, exec (.pairLost port member) s = .next t ∧ (portOf t port).lost.contains member = true ∧
        (∀ x ∈ (portOf t port).retained, x.waiting.contains member = false) ∧
        (NoStream (p.retained.flatMap (·.rows)) → t.mem = s.mem)) ∧
    (portFails p now = true → exec (.portFence port routes) s =
        .next (fencePort (detect s { kind := 5, id := port } 0x0F true 0) port 1 0x0F routes) ∧
      (portEnabled s.fuses.ordering port = true → s.nv.fenceBits.contains ⟨5, port⟩ = false →
        ∃ t, exec (.portFence port routes) s = .next t ∧ t.nv.fenceBits.contains ⟨5, port⟩ = true ∧
          portOf t port = { RolPort.fresh with loopback := p.loopback } ∧ t.engines = s.engines ∧
          (NoStream (p.queue ++ (p.ready ++ p.retained).flatMap (·.rows)) → t.mem = s.mem))) ∧
    (∀ e, look? s.fabric.e2eIn member = some e → e.unacked ≠ 0 → e.since + 50 * 1250 ≤ portNow s e.clock →
      exec (.e2eAckDue member) s = .next (sendE2e s member) ∧
      ∃ t, exec (.e2eAckDue member) s = .next t ∧ look? t.fabric.e2eIn member = some { e with unacked := 0 } ∧
        t = { s with fabric := t.fabric, counts := t.counts })

/-- R611 to R614 and R850 to R855. The byte layouts are those of the standards the spec names (log entry 18), and the nonce is a free value (log entry 4): each clause holds for every value of it. -/
def Obligations.DoeResponses : Prop :=
  ∀ (s : State) (n m : Nat) (asym hash : BitVec 32) (nonce : List Byte) (req : BitVec 64),
    (∀ o, n < 4 → (doeObjects s)[n]? = some o → Responds s (.doeDiscovery n)
      (bytesOf 2 o.1 ++ bytesOf 1 o.2 ++ bytesOf 1 (if n = 3 then 0 else n + 1))) ∧
    (∃ t, exec .spdmGetVersion s = .next t ∧ t.hp.doe.negotiated = false ∧ t.hp.doe.certs = [] ∧ t.hp.doe.meas = [] ∧
      t.hp.doe.vca.isEmpty = false ∧ t.mem = s.mem) ∧
    (s.hp.doe.vca.isEmpty = false → s.hp.doe.negotiated = false →
      (∃ t l, exec .spdmGetCapabilities s = .next t ∧ t.hp.doe.vca = s.hp.doe.vca ++ l ∧ t.hp.doe.negotiated = false) ∧
      (∃ t l, exec (.spdmNegotiateAlgorithms asym hash) s = .next t ∧ t.hp.doe.vca = s.hp.doe.vca ++ l ∧
        t.hp.doe.negotiated = (asym.getLsbD 3 && hash.getLsbD 1))) ∧
    (s.hp.doe.negotiated = true → provisioned s = true →
      Responds s .spdmGetDigests (spdmMsg 0x01 1 1 (sha384 (spdmChain s))) ∧
      (n < (spdmChain s).length → let k := min m ((spdmChain s).length - n)
        Responds s (.spdmGetCertificate 0 n m) (spdmMsg 0x02 0 0
          (bytesOf 2 k ++ bytesOf 2 ((spdmChain s).length - n - k) ++ ((spdmChain s).drop n).take k))) ∧
      (∃ t, exec (.spdmChallenge 0 nonce) s = .next t ∧
        let body := spdmMsg 0x03 0 1 (sha384 (spdmChain s) ++ (freshNonce s).1 ++ bytesOf 2 0 ++ bytesOf 8 0)
        let done := s.hp.doe.vca ++ s.hp.doe.certs ++ spdmMsg 0x83 0 0 (fit nonce 32 ++ bytesOf 8 0) ++ body
        t.hp.doe.completed = some done ∧ t.hp.doe.response =
          fit (body ++ rsaSign s done) (roundUp (body ++ rsaSign s done).length 4) ∧ t.mem = s.mem ∧ t.nv = s.nv) ∧
      (1 ≤ n → n ≤ 8 → Responds s (.spdmGetMeasurements n 0 false nonce) (spdmMsg 0x60 0 0
        (bytesOf 1 1 ++ bytesOf 3 (measurementBlock s n).length ++ measurementBlock s n ++ (freshNonce s).1 ++ bytesOf 2 0 ++ bytesOf 8 0)))) ∧
    (∀ e, (cdatHeader s :: cdatEntries s)[n]? = some e → Responds s (.cdatTableAccess n)
      (bytesOf 1 0 ++ bytesOf 1 0 ++ bytesOf 2 (if n + 1 < 9 then n + 1 else 0xFFFF) ++ e)) ∧
    (bitsOf req.toNat 16 48 = 0 → bitsOf req.toNat 0 8 = 1 → bitsOf req.toNat 8 8 = 0 → provisioned s = true →
      let answer (status len : Nat) (digest sig : List Byte) : List Byte :=
        bytesOf 1 status ++ bytesOf 1 0 ++ bytesOf 2 0 ++ bytesOf 4 len ++ fit digest 48 ++ sig
      (∀ x, s.hp.doe.completed = some x → Responds s (.attestationExtension req)
        (answer 0 35664 (sha384 x) (fit (Config.identitySign s.nv.keyGen 1 x) 35664))) ∧
      (s.hp.doe.completed = none → Responds s (.attestationExtension req) (answer 1 0 [] [])))

/-- R616 to R622: what a tier port does with its link, its devices and the requests they hold. -/
def Obligations.TierPortEvents : Prop :=
  ∀ (s : State) (port n gib : Nat),
    let p := tierOf s port
    let fails (c : Instr) : Prop := tierEnabled s.fuses.ordering port = true → p.fenced = false →
      s.nv.fenceBits.contains ⟨6, port⟩ = false → ∃ t, exec c s = .next t ∧ (tierOf t port).fenced = true ∧
        (tierOf t port).reqs = [] ∧ t.nv.fenceBits.contains ⟨6, port⟩ = true ∧ t.frames = s.frames ∧ t.engines = s.engines
    (p.linkUp = true → s.caps.tiersOut.contains port = false →
      exec (.tierLinkDown port) s = .next (tierFails (setTier s port { p with linkUp := false }) port) ∧
      fails (.tierLinkDown port) ∧
      ∃ t, exec (.tierLinkDown port) s = .next t ∧ (tierOf t port).linkUp = false ∧ t.frames = s.frames ∧ t.engines = s.engines) ∧
    (p.linkUp = true → tierEnabled s.fuses.ordering port = true → p.fenced = false → exec (.tierDeviceFatal port) s =
        .next (fenceTier (detect s { kind := 6, id := port } 0x16 true 0) port 1 0x16) ∧
      fails (.tierDeviceFatal port)) ∧
    (let base := p.devices.foldl (fun a d => max a (d.1 + d.2)) 0;
      p.linkUp = true → p.fenced = false → (p.devices.filter (fun d => d.2 ≠ 0)).length < 8 → gib ≠ 0 → base + gib ≤ 4096 →
      ∃ t, exec (.tierDeviceHotAdd port gib) s = .next t ∧ tierOf t port = { p with devices := p.devices ++ [(base, gib)] } ∧
        (∀ x, x ≠ port → tierOf t x = tierOf s x) ∧ t.mem = s.mem) ∧
    (∀ d, p.devices[n]? = some d → d.2 ≠ 0 →
      let u := bump (setTier s port { p with devices := p.devices.set n (d.1, 0) }) ctrTierRemovals port 1
      let u := { u with mem := zeroRange u.mem (tierPhys port (d.1 * 2 ^ 30)) (tierPhys port ((d.1 + d.2) * 2 ^ 30)) }
      exec (.tierDeviceRemoval port n) s =
        .next (tierChanged s (dropTierLeaves (dropRequests u port (fun q => deviceHolds d q.packet.phys)) port) port) ∧
      ∃ t, exec (.tierDeviceRemoval port n) s = .next t ∧ (tierOf t port).devices = p.devices.set n (d.1, 0) ∧
        (tierOf t port).reqs = p.reqs.filter (fun q => !(deviceHolds d q.packet.phys)) ∧
        t.nv = s.nv ∧ t.frames = s.frames ∧ t.engines = s.engines) ∧
    (∀ q, p.reqs.find? (fun q => q.id = n) = some q → windowOver (look s.clocks.die (dieOfTier port) 0) q.since ticksPerMs = true →
      (q.again = true → exec (.tierRequestTimeout port n) s = .next (tierFails (bump s ctrTierTimeouts port 1) port) ∧
        fails (.tierRequestTimeout port n)) ∧
      (q.again = false → ∃ t l, exec (.tierRequestTimeout port n) s = .next t ∧ t.outbox = .tierReq port n :: l ∧
        (let now := look s.clocks.die (dieOfTier port) 0;
          let sentAgain (q : TierReq) : TierReq := { q with again := true, since := now };
          tierOf t port = { p with reqs := onFirst (fun q => decide (q.id = n)) sentAgain p.reqs }) ∧ t.mem = s.mem)) ∧
    (∀ (b : Bool) (q : TierReq), p.reqs.find? (fun q => q.id = n) = some q →
      let u := setTier s port { p with reqs := p.reqs.filter (fun q => q.id ≠ n) }
      let u := if b then devicePoison u port q.packet else u
      exec (.tierRequestCompletion port n b) s = .next (if q.packet.kind = 1 then
          respondWrite (bump (bump u ctrTierWrites port 1) ctrTierBytesOut port q.packet.count) q.packet
        else respondRead (bump (bump u ctrTierReads port 1) ctrTierBytesIn port q.packet.count) q.packet q.data
          (if b then List.replicate (ceilDiv q.packet.count 8) true else q.poison)) ∧
      ∃ t, exec (.tierRequestCompletion port n b) s = .next t ∧ tierOf t port = { p with reqs := p.reqs.filter (fun q => q.id ≠ n) } ∧
        t.mem = (if b then poisonRange s.mem q.packet.phys q.packet.count else s.mem) ∧ t.cores = s.cores ∧ t.nv = s.nv)

/-- R747, R748 and R815 (heartbeats), R941 (telemetry), R750 (patrol), R751 to R754 (anise), R804 and R805 (rehearsal), R764 and R766 (fences), R516. -/
def Obligations.HealthEvents : Prop :=
  ∀ (s : State) (r i k cls a b c : Nat) (t1 t2 t3 t4 : Int) (det : List (Nat × Nat × Nat × Nat)),
    (s.sup.alive = true → regionExists s r = true → shedOf s r ≠ .dark →
      (plantedAt s 0x10 9 r = false → s.sup.ctrlHalted.contains r = false → exec (.controllerHeartbeat r) s = .next { s with
        sup := { s.sup with beat := put s.sup.beat r s.clocks.sup, ctrlHalted := s.sup.ctrlHalted.filter (· ≠ r) } }) ∧
      (∀ h, s.nv.fenceBits.contains (elCtrl r) = false → look? s.sup.beat r = some h → h + 90 * ticksPerMs ≤ s.clocks.sup →
        let u := detectAt s (elCtrl r) 0x10 9 r false
        let u := each (groupsBeside u r) u (fun e s => quietCores s e.2.2.cores)
        let u := { u with sup := { u.sup with
          beat := put u.sup.beat r u.clocks.sup, beatFail := put u.sup.beatFail r u.clocks.sup
          ctrlHalted := addTo u.sup.ctrlHalted r } }
        let code := clsCode 0x10 (plantedAt s 0x10 9 r)
        exec (.heartbeatTimeout r) s = .next (if triggerMet u (elCtrl r) code then fenceElement u (elCtrl r) 1 code [] else u) ∧
        ∃ t, exec (.heartbeatTimeout r) s = .next t ∧ t.sup.ctrlHalted.contains r = true ∧
          look? t.sup.beat r = some s.clocks.sup ∧ look? t.sup.beatFail r = some s.clocks.sup ∧ t.frames = s.frames)) ∧
    (s.sup.alive = true → s.sup.beatSent + 100 * ticksPerMs ≤ s.clocks.sup → ∃ t l, exec .supervisorHeartbeat s = .next t ∧
      t.sup.beatSent = s.clocks.sup ∧ t.outbox = .mctp 1 s.sup.mctpSeq (bytesOf 8 s.clocks.sup ++ l) :: s.outbox ∧ t.mem = s.mem) ∧
    (s.sup.alive = true → s.sup.teleSent + ticksPerS ≤ s.clocks.sup → ∃ t l, exec (.telemetry a b c t1 t2 t3 t4) s = .next t ∧
      t.sup.teleSent = s.clocks.sup ∧ t.mem = s.mem ∧
      t.outbox = .mctp 2 s.sup.mctpSeq (bytesOf 8 s.clocks.sup ++ bytesOf 4 a ++ bytesOf 4 b ++ bytesOf 4 c ++ l) :: s.outbox) ∧
    (stackExists s k = true → shedOf s (regionOfStack k) ≠ .dark → s.caps.stacksOut.contains k = false →
      ∃ t, exec (.patrolPassComplete k [] []) s = .next t ∧
        (regOf t (regionOfStack k)).patrolOk = addTo (regOf s (regionOfStack k)).patrolOk k ∧ t.mem = s.mem) ∧
    (regionExists s r = true → shedOf s r ≠ .dark → (regOf s r).patrolAt + 24 * ticksPerHour ≤ regionNow s r →
      ∃ t, exec (.patrolWindowEnd r) s = .next t ∧ (regOf t r).patrolOk = [] ∧ (regOf t r).pageErrs = [] ∧
        (regOf t r).patrolAt = (regOf s r).patrolAt + 24 * ticksPerHour ∧
        ((regionStacks r).any (fun k => !(s.caps.stacksOut.contains k) && !((regOf s r).patrolOk.contains k)) = true →
          t.sup.scrub = false)) ∧
    (regionExists s r = true → regionsRun s = true → shedOf s r ≠ .parked → shedOf s r ≠ .dark → s.nv.packs ≠ [] → s.sup.aniseRun = none →
      (recovering s = true → exec (.anisePassDue r) s = .next (deferAnise s) ∧
        ∃ t, exec (.anisePassDue r) s = .next t ∧ t = { s with counts := t.counts }) ∧
      (recovering s = false → exec (.anisePassDue r) s = .next (let u := { s with sup := { s.sup with aniseRun := some r, aniseHeld := [] } }
        each ((allGroups u).filter (fun e => groupIn e.2.2 r)) u (fun e s => saveForPass s e.1 e.2.1 e.2.2)) ∧
        ∃ t, exec (.anisePassDue r) s = .next t ∧ t.sup.aniseRun = some r ∧ t.nv = s.nv ∧ t.frames = s.frames ∧
          t.engines = s.engines ∧ ((∀ c j n, (strmOf (slotOf s c j) n).bound = false) →
            (∀ e ∈ allGroups s, e.2.2.image ≠ .restoring) → t.mem = s.mem))) ∧
    (s.sup.aniseRun = some r → passWaits s r = false → s.sup.aniseHeld = [] → exec (.anisePassComplete r true) s =
        .next (bump (setSelfTest (leavePass { s with sup := { s.sup with aniseAt := put s.sup.aniseAt r s.clocks.sup } }) true) ctrModAnise 0 1) ∧
      ∃ t, exec (.anisePassComplete r true) s = .next t ∧ t.sup.aniseRun = none ∧ look? t.sup.aniseAt r = some s.clocks.sup ∧
        t.sup.selftest = true ∧ t.nv = s.nv ∧ t.frames = s.frames) ∧
    (∀ j, s.sup.injections[i]? = some j → j.left ≠ 0 → j.live = false → j.dueAt ≤ s.clocks.sup →
      let later := { j with left := j.left - 1, dueAt := s.clocks.sup + j.delay * ticksPerMs }
      (s.sup.holds = false → exec (.injectionDue i) s =
          .next (bump { s with sup := { s.sup with injections := s.sup.injections.set i later } } ctrModInjectSkipped 0 1) ∧
        ∃ t, exec (.injectionDue i) s = .next t ∧ t.sup.injections[i]? = some later ∧ t.mem = s.mem ∧ t.nv = s.nv ∧
          t.cores = s.cores) ∧
      (s.sup.holds = true → recovering s = false → s.sup.injections.any (·.live) = false → exec (.injectionDue i) s =
        .next (bump { (plant s j).1 with sup := { (plant s j).1.sup with
            injections := (plant s j).1.sup.injections.set i { later with live := (plant s j).2 } } }
          (ctrModInjections.plus ((injectClasses.map (·.1)).idxOf j.cls)) 0 1) ∧
        ∃ t, exec (.injectionDue i) s = .next t ∧ t.sup.injections[i]? = some { later with live := (plant s j).2 } ∧
          t.nv = s.nv ∧ t.frames = s.frames)) ∧
    (s.nv.fenceBits.contains ⟨k, i⟩ = true → exec (.fence k i cls det) s = .next (detourFence s ⟨k, i⟩ det) ∧
      ∃ t, exec (.fence k i cls det) s = .next t ∧ t.nv = s.nv ∧ t.frames = s.frames ∧ t.engines = s.engines ∧ (det = [] → t = s)) ∧
    (elementExists s ⟨k, i⟩ = true → s.nv.fenceBits.contains ⟨k, i⟩ = false → triggerMet s ⟨k, i⟩ cls = true →
      exec (.fence k i cls det) s = .next (fenceElement s ⟨k, i⟩ 1 cls det) ∧
      (cls < 0x80 → ∃ t, exec (.fence k i cls det) s = .next t ∧ t.nv.fenceBits.contains ⟨k, i⟩ = true ∧ t.frames = s.frames)) ∧
    (regionExists s r = true ∧ shedOf s r ≠ .dark ∨ r = supervisorPlace → exec (.firmwareMemoryError r) s = .next (escalate s 2 r) ∧
      ∃ t, exec (.firmwareMemoryError r) s = .next t ∧ t.nv = s.nv ∧ t.frames = s.frames ∧
        ∃ x ∈ t.sup.resets, x.domain = 3 ∧ x.cls = 0x15 ∧ x.repair = some (2, r))

/-- R749, R792 to R800 and R917 to R931: each event over the operation of its rules. -/
def Obligations.SheddingFollowsDemands : Prop :=
  ∀ (s : State) (r kind watts vmv die : Nat) (reading : Int) (draw bad : List Nat) (failed : List Element) (m ok : Bool),
    let d := demandsOf s r
    let kept (t : State) : Prop := t.nv = s.nv ∧ t.frames = s.frames ∧ t.fuses = s.fuses
    (regionExists s r = true → regionsRun s = true → d.thermal < 3 → kind < 3 → threshold kind (d.thermal + 1) ≤ reading →
      s.power.tripped = false → exec (.thermalStep r kind reading) s =
        .next (let u := bump (noteSensor s kind r reading) (ctrModThermalSteps.plus kind) 0 1
          demand { u with power := { u.power with coolSince := put u.power.coolSince r u.clocks.sup } } r
            (fun e => { e with thermal := d.thermal + 1 })) ∧
      ∃ t, exec (.thermalStep r kind reading) s = .next t ∧ demandsOf t r = { d with thermal := d.thermal + 1 } ∧ kept t) ∧
    (look s.power.coolSince r 0 + 10 * ticksPerS ≤ s.clocks.sup → kind < 3 → d.thermal ≠ 0 →
      cooled (noteSensor s kind r reading) r = true → exec (.shedRelease r kind reading) s =
        .next (let t := demand (noteSensor s kind r reading) r (fun d => { d with thermal := d.thermal - 1 })
          { t with power := { t.power with coolSince := put t.power.coolSince r t.clocks.sup } }) ∧
      ∃ t, exec (.shedRelease r kind reading) s = .next t ∧ demandsOf t r = { d with thermal := d.thermal - 1 } ∧ kept t) ∧
    (watts ≤ powerLimit s vmv → ∃ t, exec (.powerWindowEnd watts vmv draw) s = .next t ∧ t.power.watts = watts ∧
      t = { s with power := t.power } ∧ t.power.demands = s.power.demands) ∧
    (powerLimit s vmv < watts → regionsRun s = true →
      let u := { s with power := { s.power with watts := watts, releaseAt := s.clocks.sup } }
      let lit := (regionList u).filter (fun r => shedOf u r = .lit)
      let thr := (regionList u).filter (fun r => shedOf u r = .throttled)
      ∀ x level, hottest draw lit = some x ∧ level = 1 ∨ hottest draw lit = none ∧ hottest draw thr = some x ∧ level = 2 →
        exec (.powerWindowEnd watts vmv draw) s = .next (powerStep u x level) ∧
        ∃ t, exec (.powerWindowEnd watts vmv draw) s = .next t ∧ t.power.steps = x :: s.power.steps ∧
          demandsOf t x = { demandsOf s x with power := max (demandsOf s x).power level } ∧ kept t) ∧
    (∀ x rest, s.power.steps = x :: rest → s.power.releaseAt + 10 * ticksPerS ≤ s.clocks.sup → exec .powerRelease s =
        .next (demand { s with power := { s.power with steps := rest, releaseAt := s.clocks.sup } } x
          (fun e => { e with power := (rest.filter (· = x)).length })) ∧
      ∃ t, exec .powerRelease s = .next t ∧ t.power.steps = rest ∧
        demandsOf t x = { demandsOf s x with power := (rest.filter (· = x)).length } ∧ kept t) ∧
    (regionsRun s = true → exec .overcurrentThrottle s =
        .next (each ((regionList s).filter (fun r => shedOf s r = .lit)) (bump s ctrModOvercurrent 0 1) (fun r s =>
          demand { s with power := { s.power with steps := r :: s.power.steps } } r (fun d => { d with power := max d.power 1 }))) ∧
      ∃ t, exec .overcurrentThrottle s = .next t ∧ kept t ∧ ∀ x, demandsOf t x =
        if x ∈ regionList s ∧ shedOf s x = .lit then { demandsOf s x with power := max (demandsOf s x).power 1 } else demandsOf s x) ∧
    (regionExists s r = true → regionsRun s = true →
      (demandLevel d = 2 → shedOf s r = .lit → stepWaits s r = false → exec (.regionPark r true) s = .next (parkRegion s r) ∧
        ∃ t, exec (.regionPark r true) s = .next t ∧ shedOf t r = .parked ∧ kept t ∧
          ((∀ c j n, (strmOf (slotOf s c j) n).bound = false) → t.mem = s.mem)) ∧
      (demandLevel d = 0 → shedOf s r = .parked → exec (.regionPark r false) s = .next (unparkRegion s r .lit) ∧
        ∃ t, exec (.regionPark r false) s = .next t ∧ shedOf t r = .lit ∧ kept t) ∧
      (demandLevel d = 3 → d.excursion = false → stepWaits s r = false → shedOf s r ≠ .dark →
        (allGroups s).filter (fun e => groupIn e.2.2 r) = [] → exec (.plannedDark r) s = .next (clearDarkFence (darken s r) r) ∧
        ∃ t, exec (.plannedDark r) s = .next t ∧ shedOf t r = .dark ∧ (regOf t r).retained = true ∧ t.frames = s.frames) ∧
      (∀ e ∈ [(Instr.regulatorExcursion r m, m), (Instr.pllLossOfLock r, false)], shedOf s r ≠ .dark → s.power.tripped = false →
        exec e.1 s = .next (unplannedDark s r e.2) ∧
        ∃ t, exec e.1 s = .next t ∧ shedOf t r = .dark ∧ (demandsOf t r).excursion = true ∧ kept t) ∧
      (shedOf s r = .dark → demandLevel d ≠ 3 → s.power.tripped = false →
        exec (.relight r failed bad ok) s = .next (relightRegion s r failed bad ok) ∧
        ∃ t, exec (.relight r failed bad ok) s = .next t ∧ shedOf t r = .parked ∧ (regOf t r).retained = false ∧
          t.frames = s.frames)) ∧
    (s.power.tripped = false → s.power.standby = true → ∃ u, exec (.thermalTrip kind die) s = .next u ∧
      u.power.tripped = true ∧ u.pins.thermTrip = true ∧ u.pins.alert = true ∧ u.mem = { cells := [], poison := [] }) ∧
    (die < 4 → s.power.dieCut.contains die = false → ∃ u, exec (.ioDieGroupExcursion die) s = .next u ∧
      u.power.dieCut.contains die = true ∧ (die = 0 → u.hp.linkUp = false))

/-- R816 to R829: each reset over the operation of its rules. -/
def Obligations.ResetsRunAndClear : Prop :=
  ∀ (s : State) (c k g h n : Nat) (x : Reset) (e : Option Nat) (b : Bool),
    (contextOver s c k = some x →
      let u := deferIn (if x.begun then s else beginReset s x) [regionOf c]
      exec (.contextReset c k) s = .next (onReset (resetSlot u c k) x.id
        (fun y => { y with holding := y.holding ++ [{ kind := 0, id := c * 4 + k }] })) ∧
      ∃ t, exec (.contextReset c k) s = .next t ∧ (slotOf t c k).state = .empty ∧ t.nv = s.nv ∧ t.frames = s.frames ∧
        ∃ y ∈ t.sup.resets, y.id = x.id ∧ ⟨0, c * 4 + k⟩ ∈ y.holding) ∧
    (contextOver s c k = none → exec (.contextReset c k) s = .next s) ∧
    (s.sup.resets.find? (fun x => x.domain = 1 && x.target = g && !x.begun) = some x →
      let u := deferIn (bump (beginReset s x) ctrRegionEngResets (regionOf (coreOfEngine g)) 1) [regionOf (coreOfEngine g)]
      engineSlots (engOf u g) = [] → exec (.engineReset g) s =
        .next (onReset (setEng { u with mem := zeroRange u.mem (bufPhys g 0) (bufPhys g (2 ^ 18)) } g
          { Engine.fresh with queue := (engOf u g).queue, defect := (engOf u g).defect }) x.id (fun y => { y with holding := [] })) ∧
      ∃ t, exec (.engineReset g) s = .next t ∧
        engOf t g = { Engine.fresh with queue := (engOf u g).queue, defect := (engOf u g).defect } ∧
        t.mem = zeroRange u.mem (bufPhys g 0) (bufPhys g (2 ^ 18)) ∧ t.nv = s.nv ∧ t.frames = s.frames) ∧
    (∀ l, s.sup.resets.find? (fun x => x.domain = 2 && x.target = h && !x.begun) = some x → look? s.slices h = some l →
      (l.state = .destroying → exec (.partitionReset h) s = .next (endReset s x.id)) ∧
      (l.state ≠ .destroying →
        let u := bump (interruptReset (setSlice s h { l with state := .resetting, partResets := l.partResets + 1 }) h) ctrSliceResets h 1
        let u := supersede (beginReset u x) x.id (fun y => decide (y.domain ≤ 1) && (resetSlice u y = some h))
        let u := clearSlice (deferIn u l.regions) h
        let u := { u with sup := { u.sup with
          ctrlHalted := u.sup.ctrlHalted.filter (fun r => !(l.regions.contains r))
          beat := u.sup.beat.map (fun e => if l.regions.contains e.1 then (e.1, u.clocks.sup) else e) } }
        exec (.partitionReset h) s = .next (tellReset u x h) ∧
        ∃ t l', exec (.partitionReset h) s = .next t ∧ look? t.slices h = some l' ∧ l'.state = .resetting ∧ l'.groups = [] ∧
          l'.confs = [] ∧ l'.partResets = l.partResets + 1 ∧ t.nv = s.nv)) ∧
    (s.sup.resets.find? (fun x => x.domain = 3 && !x.begun) = some x → x.repair = none →
      let u := settleAlert { s with sup := { s.sup with resetting := true } }
      let u := bump (interruptModule u) (ctrModResets.plus (x.trigger - 1)) 0 1
      let u := deferIn (supersede (beginReset u x) x.id (fun y => decide (y.domain ≤ 3))) (regionList u)
      let u := each (keys u.slices) u (fun h s => dropGroups s h)
      let u := each (regionList u) (settleRoutes (clearWafer u)) (fun r s => clearRegion s r)
      exec (.moduleComputeReset []) s = .next (tellReset u x 0) ∧
      ∃ t, exec (.moduleComputeReset []) s = .next t ∧ t.sup.resetting = true ∧ t.narrow = [] ∧ t.mesh.wires = [] ∧
        t.xlat.cache = [] ∧ (∀ c k, activeState (slotOf t c k).state = false) ∧ t.nv = s.nv) ∧
    (resetOf s n = some x → resetReleased (releaseAll s x) x = true → let u := injectionOver (endReset (releaseAll s x) n) x
      (x.domain ≤ 1 → exec (.resetClear n) s = .next u) ∧ (x.domain = 2 → exec (.resetClear n) s = .next (leaveReset u x.target .active)) ∧
      ∃ t, exec (.resetClear n) s = .next t ∧ resetOf t n = none ∧ t.nv = s.nv ∧ t.frames = s.frames ∧
        (x.domain = 3 → t.sup.resetting = false)) ∧
    (resetOf s n = none → exec (.resetClear n) s = .next s) ∧
    (resetOf s n = some x → x.begun = true → windowOver (resetNow s x) x.since (resetTicks x.domain) = true →
      (x.domain = 2 → b = false → ∃ t, exec (.resetTimeout n e b) s = .next t ∧ resetOf t n = none ∧
        (∀ l, look? s.slices x.target = some l → l.state = .resetting → look? t.slices x.target = some { l with state := .failed }) ∧
        t.mem = s.mem ∧ t.nv = s.nv ∧ t.frames = s.frames) ∧
      (x.domain = 3 → s.sup.cycleAsked = false →
        exec (.resetTimeout n e b) s = .next (askCycle (endReset (bump s ctrModResetStuck 0 1) n) 3) ∧
        ∃ t, exec (.resetTimeout n e b) s = .next t ∧ t.sup.cycleAsked = true ∧ t.pins.alert = true ∧ t.mem = s.mem))
end

