-- ==== Sys2Proof/Laws/PerInstr.lean ====
section
/-! SUPPORT. One lemma per command: what its well-formedness says of the units it names. -/

namespace Sys2Proof.Laws.Named

open Sys2Proof.Machine

/-- R30, R41: a well-formed command names cores that lie on the wafer and in a region, and regions, stacks and engines
that exist on the largest ordering. -/
def Statement (i : Instr) : Prop :=
  wellFormed i = true →
    (∀ c, Operand.core c ∈ operands i → coreX c < 80 ∧ coreY c < 48 ∧ regionOf c < 48) ∧
    (∀ r, Operand.region r ∈ operands i → r < 48) ∧
    (∀ e, Operand.engine e ∈ operands i → coreOfEngine e < 3840) ∧
    (∀ k, Operand.stack k ∈ operands i → regionOfStack k < 48)

theorem all (i : Instr) : Statement i := by
  intro h
  have ok : ∀ o ∈ operands i, o.ok = true := List.all_eq_true.mp h
  refine ⟨fun c hc => ?_, fun r hr => ?_, fun e he => ?_, fun k hk => ?_⟩
  · have := ok _ hc
    simp only [Operand.ok, decide_eq_true_eq] at this
    simp only [regionOf, coreX, coreY]
    omega
  · have := ok _ hr
    simpa [Operand.ok] using this
  · have := ok _ he
    simp only [Operand.ok, decide_eq_true_eq] at this
    simp only [coreOfEngine]
    omega
  · have := ok _ hk
    simp only [Operand.ok, decide_eq_true_eq] at this
    simp only [regionOfStack]
    omega

theorem registerWrite (x0 : Nat) (x1 : Nat) (x2 : HostBytes) : Statement (.registerWrite x0 x1 x2) := all _
theorem hpEventEnWrite (x0 : BitVec 64) : Statement (.hpEventEnWrite x0) := all _
theorem hpErrInfoClear (x0 : BitVec 64) : Statement (.hpErrInfoClear x0) := all _
theorem hpMbRingCfgWrite (x0 : BitVec 64) : Statement (.hpMbRingCfgWrite x0) := all _
theorem msixUnmask (x0 : Nat) : Statement (.msixUnmask x0) := all _
theorem commandCompletion (x0 : Nat) (x1 : Nat) : Statement (.commandCompletion x0 x1) := all _
theorem commandTimeout (x0 : Nat) (x1 : Nat) : Statement (.commandTimeout x0 x1) := all _
theorem capsRead (x0 : Nat) (x1 : Nat) : Statement (.capsRead x0 x1) := all _
theorem defectRead (x0 : Nat) (x1 : Nat) : Statement (.defectRead x0 x1) := all _
theorem fenceQuery (x0 : Nat) (x1 : Nat) : Statement (.fenceQuery x0 x1) := all _
theorem ageingRead (x0 : Nat) (x1 : Nat) : Statement (.ageingRead x0 x1) := all _
theorem bistRead (x0 : Nat) (x1 : Nat) : Statement (.bistRead x0 x1) := all _
theorem powerSetM0 (x0 : Nat) (x1 : Nat) : Statement (.powerSetM0 x0 x1) := all _
theorem powerSetM1 (x0 : Nat) (x1 : Nat) : Statement (.powerSetM1 x0 x1) := all _
theorem powerSetM2 (x0 : Nat) (x1 : Nat) : Statement (.powerSetM2 x0 x1) := all _
theorem powerSetM3 (x0 : Nat) (x1 : Nat) (x2 : List Element) (x3 : Bool) (x4 : List Nat) : Statement (.powerSetM3 x0 x1 x2 x3 x4) := all _
theorem logRead (x0 : Nat) (x1 : Nat) : Statement (.logRead x0 x1) := all _
theorem lifecycleAdvance (x0 : Nat) (x1 : Nat) : Statement (.lifecycleAdvance x0 x1) := all _
theorem lifecycleReturn (x0 : Nat) (x1 : Nat) : Statement (.lifecycleReturn x0 x1) := all _
theorem debugUnlockChallenge (x0 : Nat) (x1 : Nat) : Statement (.debugUnlockChallenge x0 x1) := all _
theorem debugUnlockToken (x0 : Nat) (x1 : Nat) : Statement (.debugUnlockToken x0 x1) := all _
theorem debugUnlockRelock (x0 : Nat) (x1 : Nat) : Statement (.debugUnlockRelock x0 x1) := all _
theorem fwStage (x0 : Nat) (x1 : Nat) : Statement (.fwStage x0 x1) := all _
theorem fwActivate (x0 : Nat) (x1 : Nat) : Statement (.fwActivate x0 x1) := all _
theorem packInstall (x0 : Nat) (x1 : Nat) : Statement (.packInstall x0 x1) := all _
theorem sliceCreate (x0 : Nat) (x1 : Nat) : Statement (.sliceCreate x0 x1) := all _
theorem sliceDestroy (x0 : Nat) (x1 : Nat) : Statement (.sliceDestroy x0 x1) := all _
theorem sliceQuery (x0 : Nat) (x1 : Nat) : Statement (.sliceQuery x0 x1) := all _
theorem sliceReset (x0 : Nat) (x1 : Nat) : Statement (.sliceReset x0 x1) := all _
theorem ctxLoad (x0 : Nat) (x1 : Nat) : Statement (.ctxLoad x0 x1) := all _
theorem ctxStart (x0 : Nat) (x1 : Nat) : Statement (.ctxStart x0 x1) := all _
theorem ctxStop (x0 : Nat) (x1 : Nat) : Statement (.ctxStop x0 x1) := all _
theorem ctxSave (x0 : Nat) (x1 : Nat) : Statement (.ctxSave x0 x1) := all _
theorem ctxRestore (x0 : Nat) (x1 : Nat) : Statement (.ctxRestore x0 x1) := all _
theorem ctxStatus (x0 : Nat) (x1 : Nat) : Statement (.ctxStatus x0 x1) := all _
theorem memMap (x0 : Nat) (x1 : Nat) : Statement (.memMap x0 x1) := all _
theorem memUnmap (x0 : Nat) (x1 : Nat) : Statement (.memUnmap x0 x1) := all _
theorem memFill (x0 : Nat) (x1 : Nat) : Statement (.memFill x0 x1) := all _
theorem memCopy (x0 : Nat) (x1 : Nat) : Statement (.memCopy x0 x1) := all _
theorem memDigest (x0 : Nat) (x1 : Nat) : Statement (.memDigest x0 x1) := all _
theorem memScrub (x0 : Nat) (x1 : Nat) : Statement (.memScrub x0 x1) := all _
theorem memPoisonQuery (x0 : Nat) (x1 : Nat) : Statement (.memPoisonQuery x0 x1) := all _
theorem fabJoin (x0 : Nat) (x1 : Nat) (x2 : List Nat) : Statement (.fabJoin x0 x1 x2) := all _
theorem fabLeave (x0 : Nat) (x1 : Nat) : Statement (.fabLeave x0 x1) := all _
theorem fabMembersRead (x0 : Nat) (x1 : Nat) : Statement (.fabMembersRead x0 x1) := all _
theorem fabMembersReplace (x0 : Nat) (x1 : Nat) : Statement (.fabMembersReplace x0 x1) := all _
theorem fabRouteSet (x0 : Nat) (x1 : Nat) : Statement (.fabRouteSet x0 x1) := all _
theorem checkMode (x0 : Nat) (x1 : Nat) : Statement (.checkMode x0 x1) := all _
theorem fenceSet (x0 : Nat) (x1 : Nat) : Statement (.fenceSet x0 x1) := all _
theorem fenceClear (x0 : Nat) (x1 : Nat) (x2 : Option (Nat × Nat)) (x3 : List Nat) : Statement (.fenceClear x0 x1 x2 x3) := all _
theorem healPolicy (x0 : Nat) (x1 : Nat) : Statement (.healPolicy x0 x1) := all _
theorem injectPlan (x0 : Nat) (x1 : Nat) : Statement (.injectPlan x0 x1) := all _
theorem resetEscalate (x0 : Nat) (x1 : Nat) : Statement (.resetEscalate x0 x1) := all _
theorem recordRead (x0 : Nat) (x1 : Nat) : Statement (.recordRead x0 x1) := all _
theorem admitPrepare (x0 : Nat) (x1 : Nat) (x2 : Bool) (x3 : Nat) : Statement (.admitPrepare x0 x1 x2 x3) := all _
theorem admitLoad (x0 : Nat) (x1 : Nat) : Statement (.admitLoad x0 x1) := all _
theorem admitCommit (x0 : Nat) (x1 : Nat) : Statement (.admitCommit x0 x1) := all _
theorem admitBarrierPoll (x0 : Nat) (x1 : Nat) (x2 : Nat) (x3 : Nat) : Statement (.admitBarrierPoll x0 x1 x2 x3) := all _
theorem mma (x0 : Nat) : Statement (.mma x0) := all _
theorem mmaGc (x0 : Nat) : Statement (.mmaGc x0) := all _
theorem sumac (x0 : Nat) : Statement (.sumac x0) := all _
theorem epi (x0 : Nat) : Statement (.epi x0) := all _
theorem loadComplete (x0 : Nat) : Statement (.loadComplete x0) := all _
theorem accumulationFinalisation (x0 : Nat) (x1 : Bool) : Statement (.accumulationFinalisation x0 x1) := all _
theorem epilogueOutput (x0 : Nat) (x1 : Bool) : Statement (.epilogueOutput x0 x1) := all _
theorem operandCheckVerify (x0 : Nat) (x1 : Nat) (x2 : Nat) : Statement (.operandCheckVerify x0 x1 x2) := all _
theorem streamChunkDeliver (x0 : Nat) (x1 : Nat) (x2 : Turn) : Statement (.streamChunkDeliver x0 x1 x2) := all _
theorem stackCacheFill (x0 : Nat) (x1 : Nat) (x2 : Bool) : Statement (.stackCacheFill x0 x1 x2) := all _
theorem vectorKernel (x0 : Nat) (x1 : Bool) : Statement (.vectorKernel x0 x1) := all _
theorem expressionProgram (x0 : Nat) (x1 : Bool) : Statement (.expressionProgram x0 x1) := all _
theorem merge (x0 : Turn) : Statement (.merge x0) := all _
theorem copy (x0 : Turn) : Statement (.copy x0) := all _
theorem copyHub (x0 : Turn) : Statement (.copyHub x0) := all _
theorem strmBind (x0 : Nat) : Statement (.strmBind x0) := all _
theorem strmUnbind (x0 : Nat) : Statement (.strmUnbind x0) := all _
theorem qSend (x0 : Nat) : Statement (.qSend x0) := all _
theorem qRecv (x0 : Nat) : Statement (.qRecv x0) := all _
theorem ctlLoop (x0 : Nat) : Statement (.ctlLoop x0) := all _
theorem ctlJump (x0 : Nat) : Statement (.ctlJump x0) := all _
theorem ctlWait (x0 : Nat) : Statement (.ctlWait x0) := all _
theorem ctlYield (x0 : Nat) : Statement (.ctlYield x0) := all _
theorem ctlHalt (x0 : Nat) : Statement (.ctlHalt x0) := all _
theorem msgSend (x0 : Nat) : Statement (.msgSend x0) := all _
theorem msgRecv (x0 : Nat) : Statement (.msgRecv x0) := all _
theorem syncOpRead (x0 : Nat) : Statement (.syncOpRead x0) := all _
theorem syncOpInit (x0 : Nat) : Statement (.syncOpInit x0) := all _
theorem syncOpAdd (x0 : Nat) (x1 : Bool) : Statement (.syncOpAdd x0 x1) := all _
theorem syncOpCas (x0 : Nat) : Statement (.syncOpCas x0) := all _
theorem syncOpPost (x0 : Nat) (x1 : Bool) : Statement (.syncOpPost x0 x1) := all _
theorem syncOpTake (x0 : Nat) : Statement (.syncOpTake x0) := all _
theorem syncOpArrive (x0 : Nat) (x1 : Bool) : Statement (.syncOpArrive x0 x1) := all _
theorem syncOpWaitGe (x0 : Nat) : Statement (.syncOpWaitGe x0) := all _
theorem syncOpWaitPhase (x0 : Nat) : Statement (.syncOpWaitPhase x0) := all _
theorem syncOpArriveWait (x0 : Nat) : Statement (.syncOpArriveWait x0) := all _
theorem syncOpTakeWait (x0 : Nat) : Statement (.syncOpTakeWait x0) := all _
theorem syncResponse (x0 : Nat) : Statement (.syncResponse x0) := all _
theorem syncCancel (x0 : Nat) : Statement (.syncCancel x0) := all _
theorem syncWaitRetry (x0 : Nat) (x1 : Nat) : Statement (.syncWaitRetry x0 x1) := all _
theorem syncRemoteTimeout (x0 : Nat) (x1 : Nat) (x2 : Nat) : Statement (.syncRemoteTimeout x0 x1 x2) := all _
theorem quantumEnd (x0 : Nat) : Statement (.quantumEnd x0) := all _
theorem routerPacketReceive (x0 : Nat) (x1 : Nat) (x2 : Bool) (x3 : Lookup) : Statement (.routerPacketReceive x0 x1 x2 x3) := all _
theorem readRequest (x0 : Reading) : Statement (.readRequest x0) := all _
theorem writePacket (x0 : Nat) : Statement (.writePacket x0) := all _
theorem readResponse (x0 : Nat) : Statement (.readResponse x0) := all _
theorem writeAck (x0 : Nat) : Statement (.writeAck x0) := all _
theorem dropResponse (x0 : Nat) : Statement (.dropResponse x0) := all _
theorem orderAck (x0 : Nat) : Statement (.orderAck x0) := all _
theorem tokenArrive (x0 : Nat) : Statement (.tokenArrive x0) := all _
theorem flaggedPacket (x0 : Nat) : Statement (.flaggedPacket x0) := all _
theorem flaggedPacketRelease (x0 : Nat) : Statement (.flaggedPacketRelease x0) := all _
theorem vc5Packet (x0 : Nat) : Statement (.vc5Packet x0) := all _
theorem reductionPacketLand (x0 : Turn) : Statement (.reductionPacketLand x0) := all _
theorem reductionAccept (x0 : Nat) : Statement (.reductionAccept x0) := all _
theorem reductionReplayRequest (x0 : Nat) : Statement (.reductionReplayRequest x0) := all _
theorem reductionAbort (x0 : Nat) : Statement (.reductionAbort x0) := all _
theorem routeRebuild (x0 : RouteWrites) (x1 : Bool) : Statement (.routeRebuild x0 x1) := all _
theorem switchOrder (x0 : Nat) : Statement (.switchOrder x0) := all _
theorem routeRetire : Statement (.routeRetire) := all _
theorem messageDeliver (x0 : Nat) (x1 : Passage) : Statement (.messageDeliver x0 x1) := all _
theorem orphanNotice (x0 : Nat) : Statement (.orphanNotice x0) := all _
theorem openGrant (x0 : Nat) : Statement (.openGrant x0) := all _
theorem openRequest (x0 : Nat) : Statement (.openRequest x0) := all _
theorem creditReturn (x0 : Nat) : Statement (.creditReturn x0) := all _
theorem stallBeacon (x0 : Nat) : Statement (.stallBeacon x0) := all _
theorem progressBeacon (x0 : Nat) : Statement (.progressBeacon x0) := all _
theorem stallWindowEnd (x0 : Nat) (x1 : Nat) : Statement (.stallWindowEnd x0 x1) := all _
theorem extendCommand (x0 : Nat) : Statement (.extendCommand x0) := all _
theorem twinCheckValue (x0 : Nat) : Statement (.twinCheckValue x0) := all _
theorem twinTimeout (x0 : Nat) (x1 : Nat) (x2 : Bool) (x3 : Bool) (x4 : Bool) : Statement (.twinTimeout x0 x1 x2 x3 x4) := all _
theorem watchdogProgressReport (x0 : Nat) : Statement (.watchdogProgressReport x0) := all _
theorem watchdogExpiry (x0 : Nat) (x1 : Nat) : Statement (.watchdogExpiry x0 x1) := all _
theorem signatureCheck (x0 : Nat) (x1 : Nat) (x2 : Bool) : Statement (.signatureCheck x0 x1 x2) := all _
theorem translationWalk (x0 : Nat) (x1 : WalkCheck) : Statement (.translationWalk x0 x1) := all _
theorem migrationComplete (x0 : Nat) : Statement (.migrationComplete x0) := all _
theorem timeSliceEnd (x0 : Nat) : Statement (.timeSliceEnd x0) := all _
theorem saveComplete (x0 : Nat) (x1 : Nat) : Statement (.saveComplete x0 x1) := all _
theorem restoreComplete (x0 : Nat) (x1 : Nat) : Statement (.restoreComplete x0 x1) := all _
theorem contentionWindowEnd (x0 : Nat) (x1 : List (List Nat)) (x2 : Nat) (x3 : Nat) : Statement (.contentionWindowEnd x0 x1 x2 x3) := all _
theorem entryWindowEnd (x0 : Nat) (x1 : List (List Nat)) (x2 : Nat) (x3 : Nat) : Statement (.entryWindowEnd x0 x1 x2 x3) := all _
theorem startToleranceExpire (x0 : Nat) : Statement (.startToleranceExpire x0) := all _
theorem trainCollision (x0 : Nat) (x1 : Bool) (x2 : Nat) : Statement (.trainCollision x0 x1 x2) := all _
theorem trainReceive (x0 : Nat) (x1 : List Byte) (x2 : Symbols) (x3 : Lookup) : Statement (.trainReceive x0 x1 x2 x3) := all _
theorem trainAssemble (x0 : Nat) : Statement (.trainAssemble x0) := all _
theorem retransmitTimeout (x0 : Nat) (x1 : Nat) : Statement (.retransmitTimeout x0 x1) := all _
theorem pairLost (x0 : Nat) (x1 : Nat) : Statement (.pairLost x0 x1) := all _
theorem portFence (x0 : Nat) (x1 : List (Nat × Nat × Nat)) : Statement (.portFence x0 x1) := all _
theorem loopbackMeasure (x0 : Nat) (x1 : Nat) : Statement (.loopbackMeasure x0 x1) := all _
theorem joinSilenceExpire (x0 : Nat) : Statement (.joinSilenceExpire x0) := all _
theorem ackHoldExpire (x0 : Nat) : Statement (.ackHoldExpire x0) := all _
theorem e2eAckDue (x0 : Nat) : Statement (.e2eAckDue x0) := all _
theorem hostLinkTrain (x0 : Nat) (x1 : Trained) : Statement (.hostLinkTrain x0 x1) := all _
theorem hostLinkDown : Statement (.hostLinkDown) := all _
theorem functionLevelReset : Statement (.functionLevelReset) := all _
theorem cxlReset : Statement (.cxlReset) := all _
theorem hotReset : Statement (.hotReset) := all _
theorem hdmDecoderCommit (x0 : Nat) (x1 : Nat) (x2 : Nat) (x3 : Nat) (x4 : Nat) (x5 : Bool) : Statement (.hdmDecoderCommit x0 x1 x2 x3 x4 x5) := all _
theorem hostMemRead (x0 : Nat) (x1 : Holding) : Statement (.hostMemRead x0 x1) := all _
theorem hostMemWrite (x0 : Nat) (x1 : List Byte) (x2 : Bool) : Statement (.hostMemWrite x0 x1 x2) := all _
theorem birsp (x0 : Nat) (x1 : List Byte) : Statement (.birsp x0 x1) := all _
theorem biTimeout (x0 : Nat) : Statement (.biTimeout x0) := all _
theorem h2dSnoop (x0 : Nat) : Statement (.h2dSnoop x0) := all _
theorem hostRequestTimeout (x0 : Nat) (x1 : Nat) : Statement (.hostRequestTimeout x0 x1) := all _
theorem doeDiscovery (x0 : Nat) : Statement (.doeDiscovery x0) := all _
theorem spdmGetVersion : Statement (.spdmGetVersion) := all _
theorem spdmGetCapabilities : Statement (.spdmGetCapabilities) := all _
theorem spdmNegotiateAlgorithms (x0 : BitVec 32) (x1 : BitVec 32) : Statement (.spdmNegotiateAlgorithms x0 x1) := all _
theorem spdmGetDigests : Statement (.spdmGetDigests) := all _
theorem spdmGetCertificate (x0 : Nat) (x1 : Nat) (x2 : Nat) : Statement (.spdmGetCertificate x0 x1 x2) := all _
theorem spdmChallenge (x0 : Nat) (x1 : List Byte) : Statement (.spdmChallenge x0 x1) := all _
theorem spdmGetMeasurements (x0 : Nat) (x1 : Nat) (x2 : Bool) (x3 : List Byte) : Statement (.spdmGetMeasurements x0 x1 x2 x3) := all _
theorem cdatTableAccess (x0 : Nat) : Statement (.cdatTableAccess x0) := all _
theorem attestationExtension (x0 : BitVec 64) : Statement (.attestationExtension x0) := all _
theorem tierLinkDown (x0 : Nat) : Statement (.tierLinkDown x0) := all _
theorem tierDeviceHotAdd (x0 : Nat) (x1 : Nat) : Statement (.tierDeviceHotAdd x0 x1) := all _
theorem tierDeviceRemoval (x0 : Nat) (x1 : Nat) : Statement (.tierDeviceRemoval x0 x1) := all _
theorem tierDeviceFatal (x0 : Nat) : Statement (.tierDeviceFatal x0) := all _
theorem tierRequestTimeout (x0 : Nat) (x1 : Nat) : Statement (.tierRequestTimeout x0 x1) := all _
theorem controllerHeartbeat (x0 : Nat) : Statement (.controllerHeartbeat x0) := all _
theorem heartbeatTimeout (x0 : Nat) : Statement (.heartbeatTimeout x0) := all _
theorem supervisorHeartbeat : Statement (.supervisorHeartbeat) := all _
theorem telemetry (x0 : Nat) (x1 : Nat) (x2 : Nat) (x3 : Int) (x4 : Int) (x5 : Int) (x6 : Int) : Statement (.telemetry x0 x1 x2 x3 x4 x5 x6) := all _
theorem regulatorExcursion (x0 : Nat) (x1 : Bool) : Statement (.regulatorExcursion x0 x1) := all _
theorem pllLossOfLock (x0 : Nat) : Statement (.pllLossOfLock x0) := all _
theorem patrolPassComplete (x0 : Nat) (x1 : List Nat) (x2 : List Nat) : Statement (.patrolPassComplete x0 x1 x2) := all _
theorem patrolWindowEnd (x0 : Nat) : Statement (.patrolWindowEnd x0) := all _
theorem anisePassDue (x0 : Nat) : Statement (.anisePassDue x0) := all _
theorem anisePassComplete (x0 : Nat) (x1 : Bool) : Statement (.anisePassComplete x0 x1) := all _
theorem injectionDue (x0 : Nat) : Statement (.injectionDue x0) := all _
theorem fence (x0 : Nat) (x1 : Nat) (x2 : Nat) (x3 : List (Nat × Nat × Nat × Nat)) : Statement (.fence x0 x1 x2 x3) := all _
theorem replacement (x0 : Nat) (x1 : Nat) (x2 : Bool) : Statement (.replacement x0 x1 x2) := all _
theorem thermalStep (x0 : Nat) (x1 : Nat) (x2 : Int) : Statement (.thermalStep x0 x1 x2) := all _
theorem shedRelease (x0 : Nat) (x1 : Nat) (x2 : Int) : Statement (.shedRelease x0 x1 x2) := all _
theorem powerWindowEnd (x0 : Nat) (x1 : Nat) (x2 : List Nat) : Statement (.powerWindowEnd x0 x1 x2) := all _
theorem powerRelease : Statement (.powerRelease) := all _
theorem overcurrentThrottle : Statement (.overcurrentThrottle) := all _
theorem regionPark (x0 : Nat) (x1 : Bool) : Statement (.regionPark x0 x1) := all _
theorem plannedDark (x0 : Nat) : Statement (.plannedDark x0) := all _
theorem relight (x0 : Nat) (x1 : List Element) (x2 : List Nat) (x3 : Bool) : Statement (.relight x0 x1 x2 x3) := all _
theorem thermalTrip (x0 : Nat) (x1 : Nat) : Statement (.thermalTrip x0 x1) := all _
theorem referenceLoss : Statement (.referenceLoss) := all _
theorem referenceHoldoverExpire : Statement (.referenceHoldoverExpire) := all _
theorem referenceReturn : Statement (.referenceReturn) := all _
theorem supplyBandChange (x0 : Nat) : Statement (.supplyBandChange x0) := all _
theorem supplyLoss : Statement (.supplyLoss) := all _
theorem supplyWithinLimits : Statement (.supplyWithinLimits) := all _
theorem contextReset (x0 : Nat) (x1 : Nat) : Statement (.contextReset x0 x1) := all _
theorem engineReset (x0 : Nat) : Statement (.engineReset x0) := all _
theorem partitionReset (x0 : Nat) : Statement (.partitionReset x0) := all _
theorem moduleComputeReset (x0 : List Element) : Statement (.moduleComputeReset x0) := all _
theorem resetClear (x0 : Nat) : Statement (.resetClear x0) := all _
theorem resetTimeout (x0 : Nat) (x1 : Option Nat) (x2 : Bool) : Statement (.resetTimeout x0 x1 x2) := all _
theorem modResetNAssert : Statement (.modResetNAssert) := all _
theorem modResetNRelease : Statement (.modResetNRelease) := all _
theorem start (x0 : StartObs) : Statement (.start x0) := all _
theorem hbmMarchPauseEnd (x0 : Nat) (x1 : List Nat) (x2 : Nat) : Statement (.hbmMarchPauseEnd x0 x1 x2) := all _
theorem startReady : Statement (.startReady) := all _
theorem startFailed (x0 : Nat) : Statement (.startFailed x0) := all _
theorem selfTestSample (x0 : Bool) (x1 : Bool) (x2 : Int) : Statement (.selfTestSample x0 x1 x2) := all _
theorem ageingHour (x0 : AgeingObs) : Statement (.ageingHour x0) := all _
theorem debugSessionEnd : Statement (.debugSessionEnd) := all _
theorem dapTransfer (x0 : Bool) (x1 : Nat) (x2 : List Byte) (x3 : Nat) : Statement (.dapTransfer x0 x1 x2 x3) := all _
theorem tapInstruction (x0 : Nat) : Statement (.tapInstruction x0) := all _
theorem trayStatus (x0 : Nat) (x1 : Bool) (x2 : Nat) : Statement (.trayStatus x0 x1 x2) := all _
theorem trayStatusMissing : Statement (.trayStatusMissing) := all _
theorem trayReqN : Statement (.trayReqN) := all _
theorem commit (x0 : Nat) (x1 : HostBytes) : Statement (.commit x0 x1) := all _
theorem bar2Discard (x0 : Nat) (x1 : Nat) : Statement (.bar2Discard x0 x1) := all _
theorem hostRequestCompletion (x0 : Nat) (x1 : Nat) (x2 : List Byte) (x3 : List Nat) : Statement (.hostRequestCompletion x0 x1 x2 x3) := all _
theorem tierRequestCompletion (x0 : Nat) (x1 : Nat) (x2 : Bool) : Statement (.tierRequestCompletion x0 x1 x2) := all _
theorem ioDieGroupExcursion (x0 : Nat) : Statement (.ioDieGroupExcursion x0) := all _
theorem envelopeEvaluation (x0 : Int) (x1 : Int) : Statement (.envelopeEvaluation x0 x1) := all _
theorem firmwareMemoryError (x0 : Nat) : Statement (.firmwareMemoryError x0) := all _

end Sys2Proof.Laws.Named
end

