-- ==== Sys2Proof/Laws/State.lean ====
section
/-! SUPPORT. The updates of the state: which field each changes, and reading a unit after replacing it. -/

namespace Sys2Proof.Machine

/-! ## `setCore` changes `cores` alone -/

@[simp] theorem setCore_pending (s : State) (c : Nat) (v : Core) : (setCore s c v).pending = s.pending := rfl
@[simp] theorem setCore_fuses (s : State) (c : Nat) (v : Core) : (setCore s c v).fuses = s.fuses := rfl
@[simp] theorem setCore_nv (s : State) (c : Nat) (v : Core) : (setCore s c v).nv = s.nv := rfl
@[simp] theorem setCore_power (s : State) (c : Nat) (v : Core) : (setCore s c v).power = s.power := rfl
@[simp] theorem setCore_clocks (s : State) (c : Nat) (v : Core) : (setCore s c v).clocks = s.clocks := rfl
@[simp] theorem setCore_pins (s : State) (c : Nat) (v : Core) : (setCore s c v).pins = s.pins := rfl
@[simp] theorem setCore_boot (s : State) (c : Nat) (v : Core) : (setCore s c v).boot = s.boot := rfl
@[simp] theorem setCore_hp (s : State) (c : Nat) (v : Core) : (setCore s c v).hp = s.hp := rfl
@[simp] theorem setCore_frames (s : State) (c : Nat) (v : Core) : (setCore s c v).frames = s.frames := rfl
@[simp] theorem setCore_sup (s : State) (c : Nat) (v : Core) : (setCore s c v).sup = s.sup := rfl
@[simp] theorem setCore_caps (s : State) (c : Nat) (v : Core) : (setCore s c v).caps = s.caps := rfl
@[simp] theorem setCore_slices (s : State) (c : Nat) (v : Core) : (setCore s c v).slices = s.slices := rfl
@[simp] theorem setCore_xlat (s : State) (c : Nat) (v : Core) : (setCore s c v).xlat = s.xlat := rfl
@[simp] theorem setCore_mem (s : State) (c : Nat) (v : Core) : (setCore s c v).mem = s.mem := rfl
@[simp] theorem setCore_engines (s : State) (c : Nat) (v : Core) : (setCore s c v).engines = s.engines := rfl
@[simp] theorem setCore_hubs (s : State) (c : Nat) (v : Core) : (setCore s c v).hubs = s.hubs := rfl
@[simp] theorem setCore_regions (s : State) (c : Nat) (v : Core) : (setCore s c v).regions = s.regions := rfl
@[simp] theorem setCore_mesh (s : State) (c : Nat) (v : Core) : (setCore s c v).mesh = s.mesh := rfl
@[simp] theorem setCore_narrow (s : State) (c : Nat) (v : Core) : (setCore s c v).narrow = s.narrow := rfl
@[simp] theorem setCore_fabric (s : State) (c : Nat) (v : Core) : (setCore s c v).fabric = s.fabric := rfl
@[simp] theorem setCore_tiers (s : State) (c : Nat) (v : Core) : (setCore s c v).tiers = s.tiers := rfl
@[simp] theorem setCore_counts (s : State) (c : Nat) (v : Core) : (setCore s c v).counts = s.counts := rfl
@[simp] theorem setCore_outbox (s : State) (c : Nat) (v : Core) : (setCore s c v).outbox = s.outbox := rfl
@[simp] theorem setCore_free (s : State) (c : Nat) (v : Core) : (setCore s c v).free = s.free := rfl

/-! ## `setSlot` changes `cores` alone -/

@[simp] theorem setSlot_pending (s : State) (c k : Nat) (v : Slot) : (setSlot s c k v).pending = s.pending := rfl
@[simp] theorem setSlot_fuses (s : State) (c k : Nat) (v : Slot) : (setSlot s c k v).fuses = s.fuses := rfl
@[simp] theorem setSlot_nv (s : State) (c k : Nat) (v : Slot) : (setSlot s c k v).nv = s.nv := rfl
@[simp] theorem setSlot_power (s : State) (c k : Nat) (v : Slot) : (setSlot s c k v).power = s.power := rfl
@[simp] theorem setSlot_clocks (s : State) (c k : Nat) (v : Slot) : (setSlot s c k v).clocks = s.clocks := rfl
@[simp] theorem setSlot_pins (s : State) (c k : Nat) (v : Slot) : (setSlot s c k v).pins = s.pins := rfl
@[simp] theorem setSlot_boot (s : State) (c k : Nat) (v : Slot) : (setSlot s c k v).boot = s.boot := rfl
@[simp] theorem setSlot_hp (s : State) (c k : Nat) (v : Slot) : (setSlot s c k v).hp = s.hp := rfl
@[simp] theorem setSlot_frames (s : State) (c k : Nat) (v : Slot) : (setSlot s c k v).frames = s.frames := rfl
@[simp] theorem setSlot_sup (s : State) (c k : Nat) (v : Slot) : (setSlot s c k v).sup = s.sup := rfl
@[simp] theorem setSlot_caps (s : State) (c k : Nat) (v : Slot) : (setSlot s c k v).caps = s.caps := rfl
@[simp] theorem setSlot_slices (s : State) (c k : Nat) (v : Slot) : (setSlot s c k v).slices = s.slices := rfl
@[simp] theorem setSlot_xlat (s : State) (c k : Nat) (v : Slot) : (setSlot s c k v).xlat = s.xlat := rfl
@[simp] theorem setSlot_mem (s : State) (c k : Nat) (v : Slot) : (setSlot s c k v).mem = s.mem := rfl
@[simp] theorem setSlot_engines (s : State) (c k : Nat) (v : Slot) : (setSlot s c k v).engines = s.engines := rfl
@[simp] theorem setSlot_hubs (s : State) (c k : Nat) (v : Slot) : (setSlot s c k v).hubs = s.hubs := rfl
@[simp] theorem setSlot_regions (s : State) (c k : Nat) (v : Slot) : (setSlot s c k v).regions = s.regions := rfl
@[simp] theorem setSlot_mesh (s : State) (c k : Nat) (v : Slot) : (setSlot s c k v).mesh = s.mesh := rfl
@[simp] theorem setSlot_narrow (s : State) (c k : Nat) (v : Slot) : (setSlot s c k v).narrow = s.narrow := rfl
@[simp] theorem setSlot_fabric (s : State) (c k : Nat) (v : Slot) : (setSlot s c k v).fabric = s.fabric := rfl
@[simp] theorem setSlot_tiers (s : State) (c k : Nat) (v : Slot) : (setSlot s c k v).tiers = s.tiers := rfl
@[simp] theorem setSlot_counts (s : State) (c k : Nat) (v : Slot) : (setSlot s c k v).counts = s.counts := rfl
@[simp] theorem setSlot_outbox (s : State) (c k : Nat) (v : Slot) : (setSlot s c k v).outbox = s.outbox := rfl
@[simp] theorem setSlot_free (s : State) (c k : Nat) (v : Slot) : (setSlot s c k v).free = s.free := rfl

/-! ## `onSlot` changes `cores` alone -/

@[simp] theorem onSlot_pending (s : State) (c k : Nat) (f : Slot → Slot) : (onSlot s c k f).pending = s.pending := rfl
@[simp] theorem onSlot_fuses (s : State) (c k : Nat) (f : Slot → Slot) : (onSlot s c k f).fuses = s.fuses := rfl
@[simp] theorem onSlot_nv (s : State) (c k : Nat) (f : Slot → Slot) : (onSlot s c k f).nv = s.nv := rfl
@[simp] theorem onSlot_power (s : State) (c k : Nat) (f : Slot → Slot) : (onSlot s c k f).power = s.power := rfl
@[simp] theorem onSlot_clocks (s : State) (c k : Nat) (f : Slot → Slot) : (onSlot s c k f).clocks = s.clocks := rfl
@[simp] theorem onSlot_pins (s : State) (c k : Nat) (f : Slot → Slot) : (onSlot s c k f).pins = s.pins := rfl
@[simp] theorem onSlot_boot (s : State) (c k : Nat) (f : Slot → Slot) : (onSlot s c k f).boot = s.boot := rfl
@[simp] theorem onSlot_hp (s : State) (c k : Nat) (f : Slot → Slot) : (onSlot s c k f).hp = s.hp := rfl
@[simp] theorem onSlot_frames (s : State) (c k : Nat) (f : Slot → Slot) : (onSlot s c k f).frames = s.frames := rfl
@[simp] theorem onSlot_sup (s : State) (c k : Nat) (f : Slot → Slot) : (onSlot s c k f).sup = s.sup := rfl
@[simp] theorem onSlot_caps (s : State) (c k : Nat) (f : Slot → Slot) : (onSlot s c k f).caps = s.caps := rfl
@[simp] theorem onSlot_slices (s : State) (c k : Nat) (f : Slot → Slot) : (onSlot s c k f).slices = s.slices := rfl
@[simp] theorem onSlot_xlat (s : State) (c k : Nat) (f : Slot → Slot) : (onSlot s c k f).xlat = s.xlat := rfl
@[simp] theorem onSlot_mem (s : State) (c k : Nat) (f : Slot → Slot) : (onSlot s c k f).mem = s.mem := rfl
@[simp] theorem onSlot_engines (s : State) (c k : Nat) (f : Slot → Slot) : (onSlot s c k f).engines = s.engines := rfl
@[simp] theorem onSlot_hubs (s : State) (c k : Nat) (f : Slot → Slot) : (onSlot s c k f).hubs = s.hubs := rfl
@[simp] theorem onSlot_regions (s : State) (c k : Nat) (f : Slot → Slot) : (onSlot s c k f).regions = s.regions := rfl
@[simp] theorem onSlot_mesh (s : State) (c k : Nat) (f : Slot → Slot) : (onSlot s c k f).mesh = s.mesh := rfl
@[simp] theorem onSlot_narrow (s : State) (c k : Nat) (f : Slot → Slot) : (onSlot s c k f).narrow = s.narrow := rfl
@[simp] theorem onSlot_fabric (s : State) (c k : Nat) (f : Slot → Slot) : (onSlot s c k f).fabric = s.fabric := rfl
@[simp] theorem onSlot_tiers (s : State) (c k : Nat) (f : Slot → Slot) : (onSlot s c k f).tiers = s.tiers := rfl
@[simp] theorem onSlot_counts (s : State) (c k : Nat) (f : Slot → Slot) : (onSlot s c k f).counts = s.counts := rfl
@[simp] theorem onSlot_outbox (s : State) (c k : Nat) (f : Slot → Slot) : (onSlot s c k f).outbox = s.outbox := rfl
@[simp] theorem onSlot_free (s : State) (c k : Nat) (f : Slot → Slot) : (onSlot s c k f).free = s.free := rfl

/-! ## `setEng` changes `engines` alone -/

@[simp] theorem setEng_pending (s : State) (e : Nat) (v : Engine) : (setEng s e v).pending = s.pending := rfl
@[simp] theorem setEng_fuses (s : State) (e : Nat) (v : Engine) : (setEng s e v).fuses = s.fuses := rfl
@[simp] theorem setEng_nv (s : State) (e : Nat) (v : Engine) : (setEng s e v).nv = s.nv := rfl
@[simp] theorem setEng_power (s : State) (e : Nat) (v : Engine) : (setEng s e v).power = s.power := rfl
@[simp] theorem setEng_clocks (s : State) (e : Nat) (v : Engine) : (setEng s e v).clocks = s.clocks := rfl
@[simp] theorem setEng_pins (s : State) (e : Nat) (v : Engine) : (setEng s e v).pins = s.pins := rfl
@[simp] theorem setEng_boot (s : State) (e : Nat) (v : Engine) : (setEng s e v).boot = s.boot := rfl
@[simp] theorem setEng_hp (s : State) (e : Nat) (v : Engine) : (setEng s e v).hp = s.hp := rfl
@[simp] theorem setEng_frames (s : State) (e : Nat) (v : Engine) : (setEng s e v).frames = s.frames := rfl
@[simp] theorem setEng_sup (s : State) (e : Nat) (v : Engine) : (setEng s e v).sup = s.sup := rfl
@[simp] theorem setEng_caps (s : State) (e : Nat) (v : Engine) : (setEng s e v).caps = s.caps := rfl
@[simp] theorem setEng_slices (s : State) (e : Nat) (v : Engine) : (setEng s e v).slices = s.slices := rfl
@[simp] theorem setEng_xlat (s : State) (e : Nat) (v : Engine) : (setEng s e v).xlat = s.xlat := rfl
@[simp] theorem setEng_mem (s : State) (e : Nat) (v : Engine) : (setEng s e v).mem = s.mem := rfl
@[simp] theorem setEng_cores (s : State) (e : Nat) (v : Engine) : (setEng s e v).cores = s.cores := rfl
@[simp] theorem setEng_hubs (s : State) (e : Nat) (v : Engine) : (setEng s e v).hubs = s.hubs := rfl
@[simp] theorem setEng_regions (s : State) (e : Nat) (v : Engine) : (setEng s e v).regions = s.regions := rfl
@[simp] theorem setEng_mesh (s : State) (e : Nat) (v : Engine) : (setEng s e v).mesh = s.mesh := rfl
@[simp] theorem setEng_narrow (s : State) (e : Nat) (v : Engine) : (setEng s e v).narrow = s.narrow := rfl
@[simp] theorem setEng_fabric (s : State) (e : Nat) (v : Engine) : (setEng s e v).fabric = s.fabric := rfl
@[simp] theorem setEng_tiers (s : State) (e : Nat) (v : Engine) : (setEng s e v).tiers = s.tiers := rfl
@[simp] theorem setEng_counts (s : State) (e : Nat) (v : Engine) : (setEng s e v).counts = s.counts := rfl
@[simp] theorem setEng_outbox (s : State) (e : Nat) (v : Engine) : (setEng s e v).outbox = s.outbox := rfl
@[simp] theorem setEng_free (s : State) (e : Nat) (v : Engine) : (setEng s e v).free = s.free := rfl

/-! ## `setHub` changes `hubs` alone -/

@[simp] theorem setHub_pending (s : State) (h : Nat) (v : Hub) : (setHub s h v).pending = s.pending := rfl
@[simp] theorem setHub_fuses (s : State) (h : Nat) (v : Hub) : (setHub s h v).fuses = s.fuses := rfl
@[simp] theorem setHub_nv (s : State) (h : Nat) (v : Hub) : (setHub s h v).nv = s.nv := rfl
@[simp] theorem setHub_power (s : State) (h : Nat) (v : Hub) : (setHub s h v).power = s.power := rfl
@[simp] theorem setHub_clocks (s : State) (h : Nat) (v : Hub) : (setHub s h v).clocks = s.clocks := rfl
@[simp] theorem setHub_pins (s : State) (h : Nat) (v : Hub) : (setHub s h v).pins = s.pins := rfl
@[simp] theorem setHub_boot (s : State) (h : Nat) (v : Hub) : (setHub s h v).boot = s.boot := rfl
@[simp] theorem setHub_hp (s : State) (h : Nat) (v : Hub) : (setHub s h v).hp = s.hp := rfl
@[simp] theorem setHub_frames (s : State) (h : Nat) (v : Hub) : (setHub s h v).frames = s.frames := rfl
@[simp] theorem setHub_sup (s : State) (h : Nat) (v : Hub) : (setHub s h v).sup = s.sup := rfl
@[simp] theorem setHub_caps (s : State) (h : Nat) (v : Hub) : (setHub s h v).caps = s.caps := rfl
@[simp] theorem setHub_slices (s : State) (h : Nat) (v : Hub) : (setHub s h v).slices = s.slices := rfl
@[simp] theorem setHub_xlat (s : State) (h : Nat) (v : Hub) : (setHub s h v).xlat = s.xlat := rfl
@[simp] theorem setHub_mem (s : State) (h : Nat) (v : Hub) : (setHub s h v).mem = s.mem := rfl
@[simp] theorem setHub_engines (s : State) (h : Nat) (v : Hub) : (setHub s h v).engines = s.engines := rfl
@[simp] theorem setHub_cores (s : State) (h : Nat) (v : Hub) : (setHub s h v).cores = s.cores := rfl
@[simp] theorem setHub_regions (s : State) (h : Nat) (v : Hub) : (setHub s h v).regions = s.regions := rfl
@[simp] theorem setHub_mesh (s : State) (h : Nat) (v : Hub) : (setHub s h v).mesh = s.mesh := rfl
@[simp] theorem setHub_narrow (s : State) (h : Nat) (v : Hub) : (setHub s h v).narrow = s.narrow := rfl
@[simp] theorem setHub_fabric (s : State) (h : Nat) (v : Hub) : (setHub s h v).fabric = s.fabric := rfl
@[simp] theorem setHub_tiers (s : State) (h : Nat) (v : Hub) : (setHub s h v).tiers = s.tiers := rfl
@[simp] theorem setHub_counts (s : State) (h : Nat) (v : Hub) : (setHub s h v).counts = s.counts := rfl
@[simp] theorem setHub_outbox (s : State) (h : Nat) (v : Hub) : (setHub s h v).outbox = s.outbox := rfl
@[simp] theorem setHub_free (s : State) (h : Nat) (v : Hub) : (setHub s h v).free = s.free := rfl

/-! ## `setReg` changes `regions` alone -/

@[simp] theorem setReg_pending (s : State) (r : Nat) (v : Region) : (setReg s r v).pending = s.pending := rfl
@[simp] theorem setReg_fuses (s : State) (r : Nat) (v : Region) : (setReg s r v).fuses = s.fuses := rfl
@[simp] theorem setReg_nv (s : State) (r : Nat) (v : Region) : (setReg s r v).nv = s.nv := rfl
@[simp] theorem setReg_power (s : State) (r : Nat) (v : Region) : (setReg s r v).power = s.power := rfl
@[simp] theorem setReg_clocks (s : State) (r : Nat) (v : Region) : (setReg s r v).clocks = s.clocks := rfl
@[simp] theorem setReg_pins (s : State) (r : Nat) (v : Region) : (setReg s r v).pins = s.pins := rfl
@[simp] theorem setReg_boot (s : State) (r : Nat) (v : Region) : (setReg s r v).boot = s.boot := rfl
@[simp] theorem setReg_hp (s : State) (r : Nat) (v : Region) : (setReg s r v).hp = s.hp := rfl
@[simp] theorem setReg_frames (s : State) (r : Nat) (v : Region) : (setReg s r v).frames = s.frames := rfl
@[simp] theorem setReg_sup (s : State) (r : Nat) (v : Region) : (setReg s r v).sup = s.sup := rfl
@[simp] theorem setReg_caps (s : State) (r : Nat) (v : Region) : (setReg s r v).caps = s.caps := rfl
@[simp] theorem setReg_slices (s : State) (r : Nat) (v : Region) : (setReg s r v).slices = s.slices := rfl
@[simp] theorem setReg_xlat (s : State) (r : Nat) (v : Region) : (setReg s r v).xlat = s.xlat := rfl
@[simp] theorem setReg_mem (s : State) (r : Nat) (v : Region) : (setReg s r v).mem = s.mem := rfl
@[simp] theorem setReg_engines (s : State) (r : Nat) (v : Region) : (setReg s r v).engines = s.engines := rfl
@[simp] theorem setReg_cores (s : State) (r : Nat) (v : Region) : (setReg s r v).cores = s.cores := rfl
@[simp] theorem setReg_hubs (s : State) (r : Nat) (v : Region) : (setReg s r v).hubs = s.hubs := rfl
@[simp] theorem setReg_mesh (s : State) (r : Nat) (v : Region) : (setReg s r v).mesh = s.mesh := rfl
@[simp] theorem setReg_narrow (s : State) (r : Nat) (v : Region) : (setReg s r v).narrow = s.narrow := rfl
@[simp] theorem setReg_fabric (s : State) (r : Nat) (v : Region) : (setReg s r v).fabric = s.fabric := rfl
@[simp] theorem setReg_tiers (s : State) (r : Nat) (v : Region) : (setReg s r v).tiers = s.tiers := rfl
@[simp] theorem setReg_counts (s : State) (r : Nat) (v : Region) : (setReg s r v).counts = s.counts := rfl
@[simp] theorem setReg_outbox (s : State) (r : Nat) (v : Region) : (setReg s r v).outbox = s.outbox := rfl
@[simp] theorem setReg_free (s : State) (r : Nat) (v : Region) : (setReg s r v).free = s.free := rfl

/-! ## `setSlice` changes `slices` alone -/

@[simp] theorem setSlice_pending (s : State) (h : Nat) (v : Slice) : (setSlice s h v).pending = s.pending := rfl
@[simp] theorem setSlice_fuses (s : State) (h : Nat) (v : Slice) : (setSlice s h v).fuses = s.fuses := rfl
@[simp] theorem setSlice_nv (s : State) (h : Nat) (v : Slice) : (setSlice s h v).nv = s.nv := rfl
@[simp] theorem setSlice_power (s : State) (h : Nat) (v : Slice) : (setSlice s h v).power = s.power := rfl
@[simp] theorem setSlice_clocks (s : State) (h : Nat) (v : Slice) : (setSlice s h v).clocks = s.clocks := rfl
@[simp] theorem setSlice_pins (s : State) (h : Nat) (v : Slice) : (setSlice s h v).pins = s.pins := rfl
@[simp] theorem setSlice_boot (s : State) (h : Nat) (v : Slice) : (setSlice s h v).boot = s.boot := rfl
@[simp] theorem setSlice_hp (s : State) (h : Nat) (v : Slice) : (setSlice s h v).hp = s.hp := rfl
@[simp] theorem setSlice_frames (s : State) (h : Nat) (v : Slice) : (setSlice s h v).frames = s.frames := rfl
@[simp] theorem setSlice_sup (s : State) (h : Nat) (v : Slice) : (setSlice s h v).sup = s.sup := rfl
@[simp] theorem setSlice_caps (s : State) (h : Nat) (v : Slice) : (setSlice s h v).caps = s.caps := rfl
@[simp] theorem setSlice_xlat (s : State) (h : Nat) (v : Slice) : (setSlice s h v).xlat = s.xlat := rfl
@[simp] theorem setSlice_mem (s : State) (h : Nat) (v : Slice) : (setSlice s h v).mem = s.mem := rfl
@[simp] theorem setSlice_engines (s : State) (h : Nat) (v : Slice) : (setSlice s h v).engines = s.engines := rfl
@[simp] theorem setSlice_cores (s : State) (h : Nat) (v : Slice) : (setSlice s h v).cores = s.cores := rfl
@[simp] theorem setSlice_hubs (s : State) (h : Nat) (v : Slice) : (setSlice s h v).hubs = s.hubs := rfl
@[simp] theorem setSlice_regions (s : State) (h : Nat) (v : Slice) : (setSlice s h v).regions = s.regions := rfl
@[simp] theorem setSlice_mesh (s : State) (h : Nat) (v : Slice) : (setSlice s h v).mesh = s.mesh := rfl
@[simp] theorem setSlice_narrow (s : State) (h : Nat) (v : Slice) : (setSlice s h v).narrow = s.narrow := rfl
@[simp] theorem setSlice_fabric (s : State) (h : Nat) (v : Slice) : (setSlice s h v).fabric = s.fabric := rfl
@[simp] theorem setSlice_tiers (s : State) (h : Nat) (v : Slice) : (setSlice s h v).tiers = s.tiers := rfl
@[simp] theorem setSlice_counts (s : State) (h : Nat) (v : Slice) : (setSlice s h v).counts = s.counts := rfl
@[simp] theorem setSlice_outbox (s : State) (h : Nat) (v : Slice) : (setSlice s h v).outbox = s.outbox := rfl
@[simp] theorem setSlice_free (s : State) (h : Nat) (v : Slice) : (setSlice s h v).free = s.free := rfl

/-! ## `setPort` changes `fabric` alone -/

@[simp] theorem setPort_pending (s : State) (p : Nat) (v : RolPort) : (setPort s p v).pending = s.pending := rfl
@[simp] theorem setPort_fuses (s : State) (p : Nat) (v : RolPort) : (setPort s p v).fuses = s.fuses := rfl
@[simp] theorem setPort_nv (s : State) (p : Nat) (v : RolPort) : (setPort s p v).nv = s.nv := rfl
@[simp] theorem setPort_power (s : State) (p : Nat) (v : RolPort) : (setPort s p v).power = s.power := rfl
@[simp] theorem setPort_clocks (s : State) (p : Nat) (v : RolPort) : (setPort s p v).clocks = s.clocks := rfl
@[simp] theorem setPort_pins (s : State) (p : Nat) (v : RolPort) : (setPort s p v).pins = s.pins := rfl
@[simp] theorem setPort_boot (s : State) (p : Nat) (v : RolPort) : (setPort s p v).boot = s.boot := rfl
@[simp] theorem setPort_hp (s : State) (p : Nat) (v : RolPort) : (setPort s p v).hp = s.hp := rfl
@[simp] theorem setPort_frames (s : State) (p : Nat) (v : RolPort) : (setPort s p v).frames = s.frames := rfl
@[simp] theorem setPort_sup (s : State) (p : Nat) (v : RolPort) : (setPort s p v).sup = s.sup := rfl
@[simp] theorem setPort_caps (s : State) (p : Nat) (v : RolPort) : (setPort s p v).caps = s.caps := rfl
@[simp] theorem setPort_slices (s : State) (p : Nat) (v : RolPort) : (setPort s p v).slices = s.slices := rfl
@[simp] theorem setPort_xlat (s : State) (p : Nat) (v : RolPort) : (setPort s p v).xlat = s.xlat := rfl
@[simp] theorem setPort_mem (s : State) (p : Nat) (v : RolPort) : (setPort s p v).mem = s.mem := rfl
@[simp] theorem setPort_engines (s : State) (p : Nat) (v : RolPort) : (setPort s p v).engines = s.engines := rfl
@[simp] theorem setPort_cores (s : State) (p : Nat) (v : RolPort) : (setPort s p v).cores = s.cores := rfl
@[simp] theorem setPort_hubs (s : State) (p : Nat) (v : RolPort) : (setPort s p v).hubs = s.hubs := rfl
@[simp] theorem setPort_regions (s : State) (p : Nat) (v : RolPort) : (setPort s p v).regions = s.regions := rfl
@[simp] theorem setPort_mesh (s : State) (p : Nat) (v : RolPort) : (setPort s p v).mesh = s.mesh := rfl
@[simp] theorem setPort_narrow (s : State) (p : Nat) (v : RolPort) : (setPort s p v).narrow = s.narrow := rfl
@[simp] theorem setPort_tiers (s : State) (p : Nat) (v : RolPort) : (setPort s p v).tiers = s.tiers := rfl
@[simp] theorem setPort_counts (s : State) (p : Nat) (v : RolPort) : (setPort s p v).counts = s.counts := rfl
@[simp] theorem setPort_outbox (s : State) (p : Nat) (v : RolPort) : (setPort s p v).outbox = s.outbox := rfl
@[simp] theorem setPort_free (s : State) (p : Nat) (v : RolPort) : (setPort s p v).free = s.free := rfl

/-! ## `setTier` changes `tiers` alone -/

@[simp] theorem setTier_pending (s : State) (p : Nat) (v : TierPort) : (setTier s p v).pending = s.pending := rfl
@[simp] theorem setTier_fuses (s : State) (p : Nat) (v : TierPort) : (setTier s p v).fuses = s.fuses := rfl
@[simp] theorem setTier_nv (s : State) (p : Nat) (v : TierPort) : (setTier s p v).nv = s.nv := rfl
@[simp] theorem setTier_power (s : State) (p : Nat) (v : TierPort) : (setTier s p v).power = s.power := rfl
@[simp] theorem setTier_clocks (s : State) (p : Nat) (v : TierPort) : (setTier s p v).clocks = s.clocks := rfl
@[simp] theorem setTier_pins (s : State) (p : Nat) (v : TierPort) : (setTier s p v).pins = s.pins := rfl
@[simp] theorem setTier_boot (s : State) (p : Nat) (v : TierPort) : (setTier s p v).boot = s.boot := rfl
@[simp] theorem setTier_hp (s : State) (p : Nat) (v : TierPort) : (setTier s p v).hp = s.hp := rfl
@[simp] theorem setTier_frames (s : State) (p : Nat) (v : TierPort) : (setTier s p v).frames = s.frames := rfl
@[simp] theorem setTier_sup (s : State) (p : Nat) (v : TierPort) : (setTier s p v).sup = s.sup := rfl
@[simp] theorem setTier_caps (s : State) (p : Nat) (v : TierPort) : (setTier s p v).caps = s.caps := rfl
@[simp] theorem setTier_slices (s : State) (p : Nat) (v : TierPort) : (setTier s p v).slices = s.slices := rfl
@[simp] theorem setTier_xlat (s : State) (p : Nat) (v : TierPort) : (setTier s p v).xlat = s.xlat := rfl
@[simp] theorem setTier_mem (s : State) (p : Nat) (v : TierPort) : (setTier s p v).mem = s.mem := rfl
@[simp] theorem setTier_engines (s : State) (p : Nat) (v : TierPort) : (setTier s p v).engines = s.engines := rfl
@[simp] theorem setTier_cores (s : State) (p : Nat) (v : TierPort) : (setTier s p v).cores = s.cores := rfl
@[simp] theorem setTier_hubs (s : State) (p : Nat) (v : TierPort) : (setTier s p v).hubs = s.hubs := rfl
@[simp] theorem setTier_regions (s : State) (p : Nat) (v : TierPort) : (setTier s p v).regions = s.regions := rfl
@[simp] theorem setTier_mesh (s : State) (p : Nat) (v : TierPort) : (setTier s p v).mesh = s.mesh := rfl
@[simp] theorem setTier_narrow (s : State) (p : Nat) (v : TierPort) : (setTier s p v).narrow = s.narrow := rfl
@[simp] theorem setTier_fabric (s : State) (p : Nat) (v : TierPort) : (setTier s p v).fabric = s.fabric := rfl
@[simp] theorem setTier_counts (s : State) (p : Nat) (v : TierPort) : (setTier s p v).counts = s.counts := rfl
@[simp] theorem setTier_outbox (s : State) (p : Nat) (v : TierPort) : (setTier s p v).outbox = s.outbox := rfl
@[simp] theorem setTier_free (s : State) (p : Nat) (v : TierPort) : (setTier s p v).free = s.free := rfl

/-! ## `setMb` changes `frames` alone -/

@[simp] theorem setMb_pending (s : State) (f k : Nat) (m : MbSlot) : (setMb s f k m).pending = s.pending := rfl
@[simp] theorem setMb_fuses (s : State) (f k : Nat) (m : MbSlot) : (setMb s f k m).fuses = s.fuses := rfl
@[simp] theorem setMb_nv (s : State) (f k : Nat) (m : MbSlot) : (setMb s f k m).nv = s.nv := rfl
@[simp] theorem setMb_power (s : State) (f k : Nat) (m : MbSlot) : (setMb s f k m).power = s.power := rfl
@[simp] theorem setMb_clocks (s : State) (f k : Nat) (m : MbSlot) : (setMb s f k m).clocks = s.clocks := rfl
@[simp] theorem setMb_pins (s : State) (f k : Nat) (m : MbSlot) : (setMb s f k m).pins = s.pins := rfl
@[simp] theorem setMb_boot (s : State) (f k : Nat) (m : MbSlot) : (setMb s f k m).boot = s.boot := rfl
@[simp] theorem setMb_hp (s : State) (f k : Nat) (m : MbSlot) : (setMb s f k m).hp = s.hp := rfl
@[simp] theorem setMb_sup (s : State) (f k : Nat) (m : MbSlot) : (setMb s f k m).sup = s.sup := rfl
@[simp] theorem setMb_caps (s : State) (f k : Nat) (m : MbSlot) : (setMb s f k m).caps = s.caps := rfl
@[simp] theorem setMb_slices (s : State) (f k : Nat) (m : MbSlot) : (setMb s f k m).slices = s.slices := rfl
@[simp] theorem setMb_xlat (s : State) (f k : Nat) (m : MbSlot) : (setMb s f k m).xlat = s.xlat := rfl
@[simp] theorem setMb_mem (s : State) (f k : Nat) (m : MbSlot) : (setMb s f k m).mem = s.mem := rfl
@[simp] theorem setMb_engines (s : State) (f k : Nat) (m : MbSlot) : (setMb s f k m).engines = s.engines := rfl
@[simp] theorem setMb_cores (s : State) (f k : Nat) (m : MbSlot) : (setMb s f k m).cores = s.cores := rfl
@[simp] theorem setMb_hubs (s : State) (f k : Nat) (m : MbSlot) : (setMb s f k m).hubs = s.hubs := rfl
@[simp] theorem setMb_regions (s : State) (f k : Nat) (m : MbSlot) : (setMb s f k m).regions = s.regions := rfl
@[simp] theorem setMb_mesh (s : State) (f k : Nat) (m : MbSlot) : (setMb s f k m).mesh = s.mesh := rfl
@[simp] theorem setMb_narrow (s : State) (f k : Nat) (m : MbSlot) : (setMb s f k m).narrow = s.narrow := rfl
@[simp] theorem setMb_fabric (s : State) (f k : Nat) (m : MbSlot) : (setMb s f k m).fabric = s.fabric := rfl
@[simp] theorem setMb_tiers (s : State) (f k : Nat) (m : MbSlot) : (setMb s f k m).tiers = s.tiers := rfl
@[simp] theorem setMb_counts (s : State) (f k : Nat) (m : MbSlot) : (setMb s f k m).counts = s.counts := rfl
@[simp] theorem setMb_outbox (s : State) (f k : Nat) (m : MbSlot) : (setMb s f k m).outbox = s.outbox := rfl
@[simp] theorem setMb_free (s : State) (f k : Nat) (m : MbSlot) : (setMb s f k m).free = s.free := rfl

/-! ## `setRun` changes `frames` alone -/

@[simp] theorem setRun_pending (s : State) (f k : Nat) (r : Running) : (setRun s f k r).pending = s.pending := rfl
@[simp] theorem setRun_fuses (s : State) (f k : Nat) (r : Running) : (setRun s f k r).fuses = s.fuses := rfl
@[simp] theorem setRun_nv (s : State) (f k : Nat) (r : Running) : (setRun s f k r).nv = s.nv := rfl
@[simp] theorem setRun_power (s : State) (f k : Nat) (r : Running) : (setRun s f k r).power = s.power := rfl
@[simp] theorem setRun_clocks (s : State) (f k : Nat) (r : Running) : (setRun s f k r).clocks = s.clocks := rfl
@[simp] theorem setRun_pins (s : State) (f k : Nat) (r : Running) : (setRun s f k r).pins = s.pins := rfl
@[simp] theorem setRun_boot (s : State) (f k : Nat) (r : Running) : (setRun s f k r).boot = s.boot := rfl
@[simp] theorem setRun_hp (s : State) (f k : Nat) (r : Running) : (setRun s f k r).hp = s.hp := rfl
@[simp] theorem setRun_sup (s : State) (f k : Nat) (r : Running) : (setRun s f k r).sup = s.sup := rfl
@[simp] theorem setRun_caps (s : State) (f k : Nat) (r : Running) : (setRun s f k r).caps = s.caps := rfl
@[simp] theorem setRun_slices (s : State) (f k : Nat) (r : Running) : (setRun s f k r).slices = s.slices := rfl
@[simp] theorem setRun_xlat (s : State) (f k : Nat) (r : Running) : (setRun s f k r).xlat = s.xlat := rfl
@[simp] theorem setRun_mem (s : State) (f k : Nat) (r : Running) : (setRun s f k r).mem = s.mem := rfl
@[simp] theorem setRun_engines (s : State) (f k : Nat) (r : Running) : (setRun s f k r).engines = s.engines := rfl
@[simp] theorem setRun_cores (s : State) (f k : Nat) (r : Running) : (setRun s f k r).cores = s.cores := rfl
@[simp] theorem setRun_hubs (s : State) (f k : Nat) (r : Running) : (setRun s f k r).hubs = s.hubs := rfl
@[simp] theorem setRun_regions (s : State) (f k : Nat) (r : Running) : (setRun s f k r).regions = s.regions := rfl
@[simp] theorem setRun_mesh (s : State) (f k : Nat) (r : Running) : (setRun s f k r).mesh = s.mesh := rfl
@[simp] theorem setRun_narrow (s : State) (f k : Nat) (r : Running) : (setRun s f k r).narrow = s.narrow := rfl
@[simp] theorem setRun_fabric (s : State) (f k : Nat) (r : Running) : (setRun s f k r).fabric = s.fabric := rfl
@[simp] theorem setRun_tiers (s : State) (f k : Nat) (r : Running) : (setRun s f k r).tiers = s.tiers := rfl
@[simp] theorem setRun_counts (s : State) (f k : Nat) (r : Running) : (setRun s f k r).counts = s.counts := rfl
@[simp] theorem setRun_outbox (s : State) (f k : Nat) (r : Running) : (setRun s f k r).outbox = s.outbox := rfl
@[simp] theorem setRun_free (s : State) (f k : Nat) (r : Running) : (setRun s f k r).free = s.free := rfl

/-! ## `bump` changes `counts` alone -/

@[simp] theorem bump_pending (s : State) (c : Ctr) (u n : Nat) : (bump s c u n).pending = s.pending := rfl
@[simp] theorem bump_fuses (s : State) (c : Ctr) (u n : Nat) : (bump s c u n).fuses = s.fuses := rfl
@[simp] theorem bump_nv (s : State) (c : Ctr) (u n : Nat) : (bump s c u n).nv = s.nv := rfl
@[simp] theorem bump_power (s : State) (c : Ctr) (u n : Nat) : (bump s c u n).power = s.power := rfl
@[simp] theorem bump_clocks (s : State) (c : Ctr) (u n : Nat) : (bump s c u n).clocks = s.clocks := rfl
@[simp] theorem bump_pins (s : State) (c : Ctr) (u n : Nat) : (bump s c u n).pins = s.pins := rfl
@[simp] theorem bump_boot (s : State) (c : Ctr) (u n : Nat) : (bump s c u n).boot = s.boot := rfl
@[simp] theorem bump_hp (s : State) (c : Ctr) (u n : Nat) : (bump s c u n).hp = s.hp := rfl
@[simp] theorem bump_frames (s : State) (c : Ctr) (u n : Nat) : (bump s c u n).frames = s.frames := rfl
@[simp] theorem bump_sup (s : State) (c : Ctr) (u n : Nat) : (bump s c u n).sup = s.sup := rfl
@[simp] theorem bump_caps (s : State) (c : Ctr) (u n : Nat) : (bump s c u n).caps = s.caps := rfl
@[simp] theorem bump_slices (s : State) (c : Ctr) (u n : Nat) : (bump s c u n).slices = s.slices := rfl
@[simp] theorem bump_xlat (s : State) (c : Ctr) (u n : Nat) : (bump s c u n).xlat = s.xlat := rfl
@[simp] theorem bump_mem (s : State) (c : Ctr) (u n : Nat) : (bump s c u n).mem = s.mem := rfl
@[simp] theorem bump_engines (s : State) (c : Ctr) (u n : Nat) : (bump s c u n).engines = s.engines := rfl
@[simp] theorem bump_cores (s : State) (c : Ctr) (u n : Nat) : (bump s c u n).cores = s.cores := rfl
@[simp] theorem bump_hubs (s : State) (c : Ctr) (u n : Nat) : (bump s c u n).hubs = s.hubs := rfl
@[simp] theorem bump_regions (s : State) (c : Ctr) (u n : Nat) : (bump s c u n).regions = s.regions := rfl
@[simp] theorem bump_mesh (s : State) (c : Ctr) (u n : Nat) : (bump s c u n).mesh = s.mesh := rfl
@[simp] theorem bump_narrow (s : State) (c : Ctr) (u n : Nat) : (bump s c u n).narrow = s.narrow := rfl
@[simp] theorem bump_fabric (s : State) (c : Ctr) (u n : Nat) : (bump s c u n).fabric = s.fabric := rfl
@[simp] theorem bump_tiers (s : State) (c : Ctr) (u n : Nat) : (bump s c u n).tiers = s.tiers := rfl
@[simp] theorem bump_outbox (s : State) (c : Ctr) (u n : Nat) : (bump s c u n).outbox = s.outbox := rfl
@[simp] theorem bump_free (s : State) (c : Ctr) (u n : Nat) : (bump s c u n).free = s.free := rfl

/-! ## `bumpMax` changes `counts` alone -/

@[simp] theorem bumpMax_pending (s : State) (c : Ctr) (u n : Nat) : (bumpMax s c u n).pending = s.pending := rfl
@[simp] theorem bumpMax_fuses (s : State) (c : Ctr) (u n : Nat) : (bumpMax s c u n).fuses = s.fuses := rfl
@[simp] theorem bumpMax_nv (s : State) (c : Ctr) (u n : Nat) : (bumpMax s c u n).nv = s.nv := rfl
@[simp] theorem bumpMax_power (s : State) (c : Ctr) (u n : Nat) : (bumpMax s c u n).power = s.power := rfl
@[simp] theorem bumpMax_clocks (s : State) (c : Ctr) (u n : Nat) : (bumpMax s c u n).clocks = s.clocks := rfl
@[simp] theorem bumpMax_pins (s : State) (c : Ctr) (u n : Nat) : (bumpMax s c u n).pins = s.pins := rfl
@[simp] theorem bumpMax_boot (s : State) (c : Ctr) (u n : Nat) : (bumpMax s c u n).boot = s.boot := rfl
@[simp] theorem bumpMax_hp (s : State) (c : Ctr) (u n : Nat) : (bumpMax s c u n).hp = s.hp := rfl
@[simp] theorem bumpMax_frames (s : State) (c : Ctr) (u n : Nat) : (bumpMax s c u n).frames = s.frames := rfl
@[simp] theorem bumpMax_sup (s : State) (c : Ctr) (u n : Nat) : (bumpMax s c u n).sup = s.sup := rfl
@[simp] theorem bumpMax_caps (s : State) (c : Ctr) (u n : Nat) : (bumpMax s c u n).caps = s.caps := rfl
@[simp] theorem bumpMax_slices (s : State) (c : Ctr) (u n : Nat) : (bumpMax s c u n).slices = s.slices := rfl
@[simp] theorem bumpMax_xlat (s : State) (c : Ctr) (u n : Nat) : (bumpMax s c u n).xlat = s.xlat := rfl
@[simp] theorem bumpMax_mem (s : State) (c : Ctr) (u n : Nat) : (bumpMax s c u n).mem = s.mem := rfl
@[simp] theorem bumpMax_engines (s : State) (c : Ctr) (u n : Nat) : (bumpMax s c u n).engines = s.engines := rfl
@[simp] theorem bumpMax_cores (s : State) (c : Ctr) (u n : Nat) : (bumpMax s c u n).cores = s.cores := rfl
@[simp] theorem bumpMax_hubs (s : State) (c : Ctr) (u n : Nat) : (bumpMax s c u n).hubs = s.hubs := rfl
@[simp] theorem bumpMax_regions (s : State) (c : Ctr) (u n : Nat) : (bumpMax s c u n).regions = s.regions := rfl
@[simp] theorem bumpMax_mesh (s : State) (c : Ctr) (u n : Nat) : (bumpMax s c u n).mesh = s.mesh := rfl
@[simp] theorem bumpMax_narrow (s : State) (c : Ctr) (u n : Nat) : (bumpMax s c u n).narrow = s.narrow := rfl
@[simp] theorem bumpMax_fabric (s : State) (c : Ctr) (u n : Nat) : (bumpMax s c u n).fabric = s.fabric := rfl
@[simp] theorem bumpMax_tiers (s : State) (c : Ctr) (u n : Nat) : (bumpMax s c u n).tiers = s.tiers := rfl
@[simp] theorem bumpMax_outbox (s : State) (c : Ctr) (u n : Nat) : (bumpMax s c u n).outbox = s.outbox := rfl
@[simp] theorem bumpMax_free (s : State) (c : Ctr) (u n : Nat) : (bumpMax s c u n).free = s.free := rfl

/-! ## `emit` changes `outbox` alone -/

@[simp] theorem emit_pending (s : State) (o : Out) : (emit s o).pending = s.pending := rfl
@[simp] theorem emit_fuses (s : State) (o : Out) : (emit s o).fuses = s.fuses := rfl
@[simp] theorem emit_nv (s : State) (o : Out) : (emit s o).nv = s.nv := rfl
@[simp] theorem emit_power (s : State) (o : Out) : (emit s o).power = s.power := rfl
@[simp] theorem emit_clocks (s : State) (o : Out) : (emit s o).clocks = s.clocks := rfl
@[simp] theorem emit_pins (s : State) (o : Out) : (emit s o).pins = s.pins := rfl
@[simp] theorem emit_boot (s : State) (o : Out) : (emit s o).boot = s.boot := rfl
@[simp] theorem emit_hp (s : State) (o : Out) : (emit s o).hp = s.hp := rfl
@[simp] theorem emit_frames (s : State) (o : Out) : (emit s o).frames = s.frames := rfl
@[simp] theorem emit_sup (s : State) (o : Out) : (emit s o).sup = s.sup := rfl
@[simp] theorem emit_caps (s : State) (o : Out) : (emit s o).caps = s.caps := rfl
@[simp] theorem emit_slices (s : State) (o : Out) : (emit s o).slices = s.slices := rfl
@[simp] theorem emit_xlat (s : State) (o : Out) : (emit s o).xlat = s.xlat := rfl
@[simp] theorem emit_mem (s : State) (o : Out) : (emit s o).mem = s.mem := rfl
@[simp] theorem emit_engines (s : State) (o : Out) : (emit s o).engines = s.engines := rfl
@[simp] theorem emit_cores (s : State) (o : Out) : (emit s o).cores = s.cores := rfl
@[simp] theorem emit_hubs (s : State) (o : Out) : (emit s o).hubs = s.hubs := rfl
@[simp] theorem emit_regions (s : State) (o : Out) : (emit s o).regions = s.regions := rfl
@[simp] theorem emit_mesh (s : State) (o : Out) : (emit s o).mesh = s.mesh := rfl
@[simp] theorem emit_narrow (s : State) (o : Out) : (emit s o).narrow = s.narrow := rfl
@[simp] theorem emit_fabric (s : State) (o : Out) : (emit s o).fabric = s.fabric := rfl
@[simp] theorem emit_tiers (s : State) (o : Out) : (emit s o).tiers = s.tiers := rfl
@[simp] theorem emit_counts (s : State) (o : Out) : (emit s o).counts = s.counts := rfl
@[simp] theorem emit_free (s : State) (o : Out) : (emit s o).free = s.free := rfl

/-! ## `coreWrite` changes `mem` alone -/

@[simp] theorem coreWrite_pending (s : State) (c off : Nat) (l : List Byte) : (coreWrite s c off l).pending = s.pending := rfl
@[simp] theorem coreWrite_fuses (s : State) (c off : Nat) (l : List Byte) : (coreWrite s c off l).fuses = s.fuses := rfl
@[simp] theorem coreWrite_nv (s : State) (c off : Nat) (l : List Byte) : (coreWrite s c off l).nv = s.nv := rfl
@[simp] theorem coreWrite_power (s : State) (c off : Nat) (l : List Byte) : (coreWrite s c off l).power = s.power := rfl
@[simp] theorem coreWrite_clocks (s : State) (c off : Nat) (l : List Byte) : (coreWrite s c off l).clocks = s.clocks := rfl
@[simp] theorem coreWrite_pins (s : State) (c off : Nat) (l : List Byte) : (coreWrite s c off l).pins = s.pins := rfl
@[simp] theorem coreWrite_boot (s : State) (c off : Nat) (l : List Byte) : (coreWrite s c off l).boot = s.boot := rfl
@[simp] theorem coreWrite_hp (s : State) (c off : Nat) (l : List Byte) : (coreWrite s c off l).hp = s.hp := rfl
@[simp] theorem coreWrite_frames (s : State) (c off : Nat) (l : List Byte) : (coreWrite s c off l).frames = s.frames := rfl
@[simp] theorem coreWrite_sup (s : State) (c off : Nat) (l : List Byte) : (coreWrite s c off l).sup = s.sup := rfl
@[simp] theorem coreWrite_caps (s : State) (c off : Nat) (l : List Byte) : (coreWrite s c off l).caps = s.caps := rfl
@[simp] theorem coreWrite_slices (s : State) (c off : Nat) (l : List Byte) : (coreWrite s c off l).slices = s.slices := rfl
@[simp] theorem coreWrite_xlat (s : State) (c off : Nat) (l : List Byte) : (coreWrite s c off l).xlat = s.xlat := rfl
@[simp] theorem coreWrite_engines (s : State) (c off : Nat) (l : List Byte) : (coreWrite s c off l).engines = s.engines := rfl
@[simp] theorem coreWrite_cores (s : State) (c off : Nat) (l : List Byte) : (coreWrite s c off l).cores = s.cores := rfl
@[simp] theorem coreWrite_hubs (s : State) (c off : Nat) (l : List Byte) : (coreWrite s c off l).hubs = s.hubs := rfl
@[simp] theorem coreWrite_regions (s : State) (c off : Nat) (l : List Byte) : (coreWrite s c off l).regions = s.regions := rfl
@[simp] theorem coreWrite_mesh (s : State) (c off : Nat) (l : List Byte) : (coreWrite s c off l).mesh = s.mesh := rfl
@[simp] theorem coreWrite_narrow (s : State) (c off : Nat) (l : List Byte) : (coreWrite s c off l).narrow = s.narrow := rfl
@[simp] theorem coreWrite_fabric (s : State) (c off : Nat) (l : List Byte) : (coreWrite s c off l).fabric = s.fabric := rfl
@[simp] theorem coreWrite_tiers (s : State) (c off : Nat) (l : List Byte) : (coreWrite s c off l).tiers = s.tiers := rfl
@[simp] theorem coreWrite_counts (s : State) (c off : Nat) (l : List Byte) : (coreWrite s c off l).counts = s.counts := rfl
@[simp] theorem coreWrite_outbox (s : State) (c off : Nat) (l : List Byte) : (coreWrite s c off l).outbox = s.outbox := rfl
@[simp] theorem coreWrite_free (s : State) (c off : Nat) (l : List Byte) : (coreWrite s c off l).free = s.free := rfl

/-! ## `setWire` changes `mesh` alone -/

@[simp] theorem setWire_pending (s : State) (router port : Nat) (l : List Packet) : (setWire s router port l).pending = s.pending := rfl
@[simp] theorem setWire_fuses (s : State) (router port : Nat) (l : List Packet) : (setWire s router port l).fuses = s.fuses := rfl
@[simp] theorem setWire_nv (s : State) (router port : Nat) (l : List Packet) : (setWire s router port l).nv = s.nv := rfl
@[simp] theorem setWire_power (s : State) (router port : Nat) (l : List Packet) : (setWire s router port l).power = s.power := rfl
@[simp] theorem setWire_clocks (s : State) (router port : Nat) (l : List Packet) : (setWire s router port l).clocks = s.clocks := rfl
@[simp] theorem setWire_pins (s : State) (router port : Nat) (l : List Packet) : (setWire s router port l).pins = s.pins := rfl
@[simp] theorem setWire_boot (s : State) (router port : Nat) (l : List Packet) : (setWire s router port l).boot = s.boot := rfl
@[simp] theorem setWire_hp (s : State) (router port : Nat) (l : List Packet) : (setWire s router port l).hp = s.hp := rfl
@[simp] theorem setWire_frames (s : State) (router port : Nat) (l : List Packet) : (setWire s router port l).frames = s.frames := rfl
@[simp] theorem setWire_sup (s : State) (router port : Nat) (l : List Packet) : (setWire s router port l).sup = s.sup := rfl
@[simp] theorem setWire_caps (s : State) (router port : Nat) (l : List Packet) : (setWire s router port l).caps = s.caps := rfl
@[simp] theorem setWire_slices (s : State) (router port : Nat) (l : List Packet) : (setWire s router port l).slices = s.slices := rfl
@[simp] theorem setWire_xlat (s : State) (router port : Nat) (l : List Packet) : (setWire s router port l).xlat = s.xlat := rfl
@[simp] theorem setWire_mem (s : State) (router port : Nat) (l : List Packet) : (setWire s router port l).mem = s.mem := rfl
@[simp] theorem setWire_engines (s : State) (router port : Nat) (l : List Packet) : (setWire s router port l).engines = s.engines := rfl
@[simp] theorem setWire_cores (s : State) (router port : Nat) (l : List Packet) : (setWire s router port l).cores = s.cores := rfl
@[simp] theorem setWire_hubs (s : State) (router port : Nat) (l : List Packet) : (setWire s router port l).hubs = s.hubs := rfl
@[simp] theorem setWire_regions (s : State) (router port : Nat) (l : List Packet) : (setWire s router port l).regions = s.regions := rfl
@[simp] theorem setWire_narrow (s : State) (router port : Nat) (l : List Packet) : (setWire s router port l).narrow = s.narrow := rfl
@[simp] theorem setWire_fabric (s : State) (router port : Nat) (l : List Packet) : (setWire s router port l).fabric = s.fabric := rfl
@[simp] theorem setWire_tiers (s : State) (router port : Nat) (l : List Packet) : (setWire s router port l).tiers = s.tiers := rfl
@[simp] theorem setWire_counts (s : State) (router port : Nat) (l : List Packet) : (setWire s router port l).counts = s.counts := rfl
@[simp] theorem setWire_outbox (s : State) (router port : Nat) (l : List Packet) : (setWire s router port l).outbox = s.outbox := rfl
@[simp] theorem setWire_free (s : State) (router port : Nat) (l : List Packet) : (setWire s router port l).free = s.free := rfl

/-! ## `setArrivals` changes `mesh` alone -/

@[simp] theorem setArrivals_pending (s : State) (ep : Nat) (l : List Packet) : (setArrivals s ep l).pending = s.pending := rfl
@[simp] theorem setArrivals_fuses (s : State) (ep : Nat) (l : List Packet) : (setArrivals s ep l).fuses = s.fuses := rfl
@[simp] theorem setArrivals_nv (s : State) (ep : Nat) (l : List Packet) : (setArrivals s ep l).nv = s.nv := rfl
@[simp] theorem setArrivals_power (s : State) (ep : Nat) (l : List Packet) : (setArrivals s ep l).power = s.power := rfl
@[simp] theorem setArrivals_clocks (s : State) (ep : Nat) (l : List Packet) : (setArrivals s ep l).clocks = s.clocks := rfl
@[simp] theorem setArrivals_pins (s : State) (ep : Nat) (l : List Packet) : (setArrivals s ep l).pins = s.pins := rfl
@[simp] theorem setArrivals_boot (s : State) (ep : Nat) (l : List Packet) : (setArrivals s ep l).boot = s.boot := rfl
@[simp] theorem setArrivals_hp (s : State) (ep : Nat) (l : List Packet) : (setArrivals s ep l).hp = s.hp := rfl
@[simp] theorem setArrivals_frames (s : State) (ep : Nat) (l : List Packet) : (setArrivals s ep l).frames = s.frames := rfl
@[simp] theorem setArrivals_sup (s : State) (ep : Nat) (l : List Packet) : (setArrivals s ep l).sup = s.sup := rfl
@[simp] theorem setArrivals_caps (s : State) (ep : Nat) (l : List Packet) : (setArrivals s ep l).caps = s.caps := rfl
@[simp] theorem setArrivals_slices (s : State) (ep : Nat) (l : List Packet) : (setArrivals s ep l).slices = s.slices := rfl
@[simp] theorem setArrivals_xlat (s : State) (ep : Nat) (l : List Packet) : (setArrivals s ep l).xlat = s.xlat := rfl
@[simp] theorem setArrivals_mem (s : State) (ep : Nat) (l : List Packet) : (setArrivals s ep l).mem = s.mem := rfl
@[simp] theorem setArrivals_engines (s : State) (ep : Nat) (l : List Packet) : (setArrivals s ep l).engines = s.engines := rfl
@[simp] theorem setArrivals_cores (s : State) (ep : Nat) (l : List Packet) : (setArrivals s ep l).cores = s.cores := rfl
@[simp] theorem setArrivals_hubs (s : State) (ep : Nat) (l : List Packet) : (setArrivals s ep l).hubs = s.hubs := rfl
@[simp] theorem setArrivals_regions (s : State) (ep : Nat) (l : List Packet) : (setArrivals s ep l).regions = s.regions := rfl
@[simp] theorem setArrivals_narrow (s : State) (ep : Nat) (l : List Packet) : (setArrivals s ep l).narrow = s.narrow := rfl
@[simp] theorem setArrivals_fabric (s : State) (ep : Nat) (l : List Packet) : (setArrivals s ep l).fabric = s.fabric := rfl
@[simp] theorem setArrivals_tiers (s : State) (ep : Nat) (l : List Packet) : (setArrivals s ep l).tiers = s.tiers := rfl
@[simp] theorem setArrivals_counts (s : State) (ep : Nat) (l : List Packet) : (setArrivals s ep l).counts = s.counts := rfl
@[simp] theorem setArrivals_outbox (s : State) (ep : Nat) (l : List Packet) : (setArrivals s ep l).outbox = s.outbox := rfl
@[simp] theorem setArrivals_free (s : State) (ep : Nat) (l : List Packet) : (setArrivals s ep l).free = s.free := rfl

/-! ## Reading after replacing -/

@[simp] theorem coreOf_setCore (s : State) (c : Nat) (v : Core) : coreOf (setCore s c v) c = v := look_put_same _ _ _ _
theorem coreOf_setCore_ne (s : State) {c d : Nat} (v : Core) (h : d ≠ c) : coreOf (setCore s c v) d = coreOf s d := look_put_ne _ _ _ h
@[simp] theorem engOf_setEng (s : State) (e : Nat) (v : Engine) : engOf (setEng s e v) e = v := look_put_same _ _ _ _
theorem engOf_setEng_ne (s : State) {e d : Nat} (v : Engine) (h : d ≠ e) : engOf (setEng s e v) d = engOf s d := look_put_ne _ _ _ h
@[simp] theorem hubOf_setHub (s : State) (e : Nat) (v : Hub) : hubOf (setHub s e v) e = v := look_put_same _ _ _ _
theorem hubOf_setHub_ne (s : State) {e d : Nat} (v : Hub) (h : d ≠ e) : hubOf (setHub s e v) d = hubOf s d := look_put_ne _ _ _ h
@[simp] theorem regOf_setReg (s : State) (r : Nat) (v : Region) : regOf (setReg s r v) r = v := look_put_same _ _ _ _
theorem regOf_setReg_ne (s : State) {r d : Nat} (v : Region) (h : d ≠ r) : regOf (setReg s r v) d = regOf s d := look_put_ne _ _ _ h
@[simp] theorem portOf_setPort (s : State) (p : Nat) (v : RolPort) : portOf (setPort s p v) p = v := look_put_same _ _ _ _
theorem portOf_setPort_ne (s : State) {p d : Nat} (v : RolPort) (h : d ≠ p) : portOf (setPort s p v) d = portOf s d := look_put_ne _ _ _ h
@[simp] theorem tierOf_setTier (s : State) (p : Nat) (v : TierPort) : tierOf (setTier s p v) p = v := look_put_same _ _ _ _
theorem tierOf_setTier_ne (s : State) {p d : Nat} (v : TierPort) (h : d ≠ p) : tierOf (setTier s p v) d = tierOf s d := look_put_ne _ _ _ h
@[simp] theorem wire_setWire (s : State) (r p : Nat) (l : List Packet) : wire (setWire s r p l) r p = l := look_put_same _ _ _ _
@[simp] theorem arrivals_setArrivals (s : State) (e : Nat) (l : List Packet) : arrivals (setArrivals s e l) e = l := look_put_same _ _ _ _

@[simp] theorem slotOf_setSlot (s : State) (c k : Nat) (v : Slot) : slotOf (setSlot s c k v) c k = v := by
  simp [slotOf, setSlot, look_put_same]

theorem slotOf_setSlot_ne (s : State) {c k d j : Nat} (v : Slot) (h : (d, j) ≠ (c, k)) : slotOf (setSlot s c k v) d j = slotOf s d j := by
  by_cases e : d = c
  · subst e
    have : j ≠ k := fun x => h (by rw [x])
    simp [slotOf, setSlot, look_put_ne _ _ _ this]
  · simp [slotOf, setSlot, coreOf_setCore_ne _ _ e]

@[simp] theorem slotOf_onSlot (s : State) (c k : Nat) (f : Slot → Slot) : slotOf (onSlot s c k f) c k = f (slotOf s c k) := by simp [onSlot]

@[simp] theorem mbSlot_setMb (s : State) (f k : Nat) (m : MbSlot) : mbSlot (setMb s f k m) f k = m := by
  simp [mbSlot, setMb, frameOf, look_put_same]

theorem mbSlot_setMb_ne (s : State) {f k g j : Nat} (m : MbSlot) (h : (g, j) ≠ (f, k)) : mbSlot (setMb s f k m) g j = mbSlot s g j := by
  by_cases e : g = f
  · subst e
    have : j ≠ k := fun x => h (by rw [x])
    simp [mbSlot, setMb, frameOf, look_put_same, look_put_ne _ _ _ this]
  · simp [mbSlot, setMb, frameOf, look_put_ne _ _ _ e]

@[simp] theorem setRun_run (s : State) (f k : Nat) (r : Running) : (mbSlot (setRun s f k r) f k).run = some r := by simp [setRun]

/-- What settling a command can do: its code and response are set, in its own slot. -/
theorem settle_of_run {s : State} {f k : Nat} {r : Running} (h : (mbSlot s f k).run = some r) (code : Nat) (resp : List Byte) :
    settle s f k code resp = setRun s f k { r with wait := .nothing, code := code, resp := resp } := by simp [settle, h]

end Sys2Proof.Machine
end

