-- ==== Sys2Proof/Tests/Slice0.lean ====
section
/-! SUPPORT. Smoke tests of well-formedness, and for every statement with hypotheses a witness on a small state:
`hyp_<statement>` shows that its hypotheses can be met, clause by clause, at boundary values where a clause has a range. -/

namespace Sys2Proof.Machine.Tests

/- One test after another: a kernel evaluation waits for every proof before it, and run side by side each waiting test would
hold a thread. -/
set_option Elab.async false

open Sys2Proof.Claims

/-! ## Well-formedness: one ill-formed command for each kind of operand -/

theorem test_wf_core : wellFormed (.ctlHalt 3840) = false ∧ wellFormed (.ctlHalt 3839) = true := by decide
theorem test_wf_engine : wellFormed (.loadComplete 15360) = false ∧ wellFormed (.loadComplete 15359) = true := by decide
theorem test_wf_region : wellFormed (.plannedDark 48) = false ∧ wellFormed (.plannedDark 47) = true := by decide
theorem test_wf_controller : wellFormed (.firmwareMemoryError 49) = false ∧ wellFormed (.firmwareMemoryError 48) = true := by decide
theorem test_wf_stack : wellFormed (.patrolPassComplete 96 [] []) = false ∧ wellFormed (.patrolPassComplete 95 [] []) = true := by decide
theorem test_wf_router : wellFormed (.routerPacketReceive 3840 0 true .good) = false := by decide
theorem test_wf_link : wellFormed (.routerPacketReceive 0 8 true .good) = false ∧ wellFormed (.routerPacketReceive 3839 7 true .good) = true := by decide
theorem test_wf_endpoint : wellFormed (.readRequest ⟨16384, []⟩) = false ∧ wellFormed (.readRequest ⟨16383, []⟩) = true := by decide
theorem test_wf_rolben : wellFormed (.trainAssemble 16) = false ∧ wellFormed (.trainAssemble 15) = true := by decide
theorem test_wf_tier : wellFormed (.tierLinkDown 8) = false ∧ wellFormed (.tierLinkDown 7) = true := by decide
theorem test_wf_frame : wellFormed (.capsRead 49 0) = false ∧ wellFormed (.capsRead 48 15) = true := by decide
theorem test_wf_mailbox : wellFormed (.capsRead 0 16) = false := by decide
theorem test_wf_context : wellFormed (.contextReset 0 4) = false ∧ wellFormed (.contextReset 0 3) = true := by decide
theorem test_wf_stream : wellFormed (.streamChunkDeliver 0 0 ⟨18, .none⟩) = false ∧ wellFormed (.streamChunkDeliver 0 0 ⟨17, .none⟩) = true := by decide
theorem test_wf_vector : wellFormed (.msixUnmask 256) = false ∧ wellFormed (.msixUnmask 255) = true := by decide
theorem test_wf_member : wellFormed (.pairLost 0 32) = false ∧ wellFormed (.pairLost 0 31) = true := by decide
theorem test_wf_handle : wellFormed (.timeSliceEnd 65536) = false ∧ wellFormed (.timeSliceEnd 65535) = true := by decide
theorem test_wf_die : wellFormed (.ioDieGroupExcursion 4) = false ∧ wellFormed (.ioDieGroupExcursion 3) = true := by decide
theorem test_wf_bar : wellFormed (.registerWrite 1 0 ⟨[], []⟩) = false ∧ wellFormed (.registerWrite 2 0 ⟨[], []⟩) = true := by decide
theorem test_wf_decoder : wellFormed (.hdmDecoderCommit 2 0 0 0 0 true) = false ∧ wellFormed (.hdmDecoderCommit 1 0 0 0 0 true) = true := by decide
theorem test_wf_certSlot : wellFormed (.spdmGetCertificate 8 0 0) = false ∧ wellFormed (.spdmGetCertificate 7 0 0) = true := by decide
theorem test_wf_nonce : wellFormed (.spdmChallenge 0 (List.replicate 31 0)) = false ∧ wellFormed (.spdmChallenge 0 (List.replicate 32 0)) = true := by decide
theorem test_wf_line : wellFormed (.hostMemWrite 0 (List.replicate 65 0) false) = false ∧ wellFormed (.hostMemWrite 0 (List.replicate 64 0) false) = true := by decide

/-! ## Small states -/

/-- A ready module in M0, its host link up. -/
def up : State := { State.reset with power := { Power.atReset with state := .m0 }, boot := { Boot.atReset with phase := 6, tested := true }, hp := { HostPort.atReset with linkUp := true } }

/-- A command accepted and not begun. -/
def cmd (op : Nat) (l : List Byte) : Running :=
  { seq := 1, opcode := op, ring := true, irq := false, payload := l, since := 0, timeout := some 0, handle := 1, wait := .unstarted
    code := 0, resp := [], progress := 0, order := 0, at_ := 0 }

/-- The state `s` with a command running in slot k of frame f. -/
def withRun (s : State) (f k : Nat) (r : Running) : State := setMb s f k { MbSlot.fresh with run := some r }

/-- A slice of region 0, with one slot's configured region 7. -/
def slice0 : Slice :=
  { state := .active, frame := 1, regions := [0], ports := [], tiers := [], periodMs := 0, mode := 0, heal := .initial
    partResets := 0, confs := [], groups := [], saves := [], origin := .empty }

/-- `up` with slice 1. -/
def sliced : State := { up with slices := [(1, slice0)], frames := [(1, { Frame.fresh with owner := 1 })] }

/-- Core 0 of `s` runs a list of two steps, the first of them `d`, in slot 0. -/
def runs (s : State) (d : BitVec 512) : State :=
  { setSlot s 0 0 { Slot.fresh with state := .running, image := BitVec.ofNat 1536 (2 * 2 ^ 104) } with
    mem := writeMem s.mem (corePhys 0 0) (bytesOf 64 d.toNat) }

/-! ## Values known from outside the model -/

/-- The nine digits of the check values that CRC catalogues give (R352, R546). -/
def digits : List Byte := (List.range 9).map (fun i => BitVec.ofNat 8 (0x31 + i))
theorem test_crc32c : crc32c digits = 0xE3069283 := by decide +kernel
theorem test_crc32 : crc32 digits = 0xCBF43926 := by decide +kernel
/-- FIPS 180-4's example of three letters (R692). -/
theorem test_sha384 : (sha384 [0x61, 0x62, 0x63]).take 4 = [0xcb, 0x00, 0x75, 0x3f] := by decide +kernel
/-- R328: `add` is modulo 2^48. -/
theorem test_add_wraps : syncApply 2 (BitVec.ofNat 64 (2 ^ 48 - 1)) 1 0 = (0, 0) := by decide +kernel
/-- R328: the last arrival clears the count and advances the phase modulo 2^16. -/
theorem test_barrier_turns : syncApply 6 (barrierWord 65534 65535 65535) 0 0 = (barrierWord 0 65535 0, 0) := by decide +kernel
/-- R328: a `take` of more than the count answers status 1. -/
theorem test_take_short : (syncApply 5 (BitVec.ofNat 64 (2 ^ 62 + 3)) 4 0).2 = 1 := by decide +kernel

/-- The reset state meets the invariant. -/
theorem test_reset_sound : Sound State.reset := by unfold Sound; decide

/-! ## Hypotheses met -/

theorem hyp_StepKeepsSound : Sound State.reset ∧ ∃ t, step State.reset = .next t := ⟨by unfold Sound; decide, _, rfl⟩
theorem hyp_FusesOnlyBlow : ∃ t, step { State.reset with pending := [.supplyLoss] } = .next t := ⟨_, rfl⟩
theorem hyp_StepTakesOneCommand : ∃ t, step { State.reset with pending := [.supplyLoss, .referenceLoss] } = .next t := ⟨_, rfl⟩
theorem hyp_EmptyQueueTicks : State.reset.pending = [] ∧ State.reset.power.standby = true ∧ State.reset.sup.alive = true := by decide

theorem hyp_MemoryReadsWhatWasWritten :
    State.reset.mem.wf = true ∧ 8 % 8 = 0 ∧ (bytesOf 8 1).length % 8 = 0 ∧ 8 + (bytesOf 8 1).length ≤ 2 ^ 48 := by decide

/-- An unmasked entry, and vector 0 enabled with event 1 standing. -/
def armed : State := { up with hp := { up.hp with event := 2, msixOn := true, msix := [(0, { addr := 0, data := 0, masked := false })] } }

theorem hyp_EventEnableRaisesVector0 :
    up.hp.event &&& (2 : BitVec 64).setWidth 6 &&& ~~~up.hp.eventEn = 0 ∧
    armed.hp.event &&& (2 : BitVec 64).setWidth 6 &&& ~~~armed.hp.eventEn ≠ 0 ∧ armed.hp.msixOn = true ∧
    look? armed.hp.msix 0 = some { addr := 0, data := 0, masked := false } ∧ armed.hp.linkUp = true := by decide

theorem hyp_EventBitsClearByOne : up.hp.linkUp = true ∧ (1 : BitVec 64).getLsbD 0 = true ∧ (2 : BitVec 64).getLsbD 0 = false := by decide

theorem hyp_RingConfiguration : ringCfgGood (12 * 2) = true ∧ ringCfgGood (13 * 2) = false ∧ (1 : Nat) ≠ 0 := by decide

theorem hyp_UnmaskedVectorSends :
    255 < 256 ∧ { up with hp := { up.hp with msixPend := [255] } }.hp.msixPend.contains 255 = true := by decide

/-- A commit word with sequence number q for `caps.read`. -/
def word (q : Nat) : List Byte := bytesOf 8 (q + 0x0101 * 2 ^ 16)

theorem hyp_CommitsAreTaken :
    bar2Place up 0 = some (0, 0, 0) ∧ bar2Place up 0x7000 = some (0, 7, 0) ∧ bar2Place sliced 0x10000 = some (1, 0, 0) ∧
    8 ≤ (word 1).length ∧ (word 1).length ≤ 256 ∧
    (mbSlot (withRun up 0 0 (cmd 0x0101 [])) 0 0).run.isSome = true ∧
    (mbSlot up 0 0).run = none ∧ cwSeq (natOf ((word 0).take 8)) = (mbSlot up 0 0).last ∧
    cwSeq (natOf ((word 1).take 8)) = ((mbSlot up 0 0).last + 1) % 65536 ∧
    (∀ e ∈ [(word 1, true), (bytesOf 8 1, false)], let x := CommitRun up 0 0 ⟨e.1, []⟩
      decide (acceptCode (commitCode (CommitTaken up 0 0 ⟨e.1, []⟩) 0 (natOf (e.1.take 8)) x.payload) x = 0) = e.2) ∧
    cwSeq (natOf ((word 2).take 8)) ≠ ((mbSlot up 0 0).last + 1) % 65536 := by decide +kernel

/-- A command whose effects are complete. -/
def ended : Running := { cmd 0x0101 [] with wait := .nothing, resp := bytesOf 8 1 }

theorem hyp_CompletionWritesTheSlot :
    (mbSlot (withRun up 0 0 ended) 0 0).run = some ended ∧ ended.wait = .nothing ∧ ended.ring = true ∧
    (frameOf { up with frames := [(0, { Frame.fresh with ring := { base := 0, enable := true, logSize := 0, vector := 0, written := 0 } })] }
      0).ring.enable = true ∧ { ended with ring := false }.ring = false ∧ ended.irq = false := by decide +kernel

theorem hyp_TimeoutCompletes : let r := { cmd 0x0503 [] with wait := .stopped 7 }
    (mbSlot (withRun up 0 0 r) 0 0).run = some r ∧ r.wait ≠ .nothing ∧ r.timeout = some 0 ∧
    r.since + 0 ≤ (withRun up 0 0 r).clocks.sup := by decide +kernel

theorem hyp_QueriesAnswer : ∀ op ∈ [0x0101, 0x0102, 0x0802, 0x0103, 0x0104, 0x0106, 0x0403, 0x0506, 0x0902],
    due (withRun up 0 0 (cmd op [])) 0 0 op = some (cmd op []) := by decide +kernel

theorem hyp_PagedResponsesHoldTheirRecords :
    1 ≤ 8 ∧ 8 ≤ 4016 ∧ (∀ x ∈ [bytesOf 8 1, bytesOf 8 2], x.length = 8) ∧ [bytesOf 8 1, bytesOf 8 2].length < 2 ^ 32 ∧ 1 < 2 ^ 32 ∧
    1 + 0 < [bytesOf 8 1, bytesOf 8 2].length ∧ 0 < min ([bytesOf 8 1, bytesOf 8 2].length - 1) (4016 / 8) := by decide

theorem hyp_DiscardedBar2Access :
    up.hp.linkUp = true ∧ bar2Place up 0x8000 = none ∧ bar2Place up 0x10000 = none ∧ up.hp.errInfo = 0 ∧
    bar2Place up 0xFF8 = some (0, 0, 0xFF8) ∧ 0xFF8 % 8 = 0 := by decide

theorem hyp_HostLinkChanges : up.pins.perst = false ∧ up.hp.width ≠ 8 ∧ up.hp.backInv = [] ∧
    ¬((1 = 2 ∨ 1 = 4 ∨ 1 = 8) ∧ (3 = 3 ∨ 3 = 4)) ∧ { up.hp with width := 8, rate := 4 }.width = 8 := by decide

/-- `up` with line 5 held by the host. -/
def held : State := { up with hp := { up.hp with filter := [{ line := 5, exclusive := true }] } }

theorem hyp_PortResets : up.hp.filter = [] ∧ up.hp.backInv = [] ∧ held.hp.filter ≠ [] := by decide

theorem hyp_DecoderCommits : 2 ^ 28 % 2 ^ 28 = 0 ∧ 0 < 2 ^ 28 ∧ 0 + 2 ^ 28 ≤ 2 ^ 48 ∧ 0 + 2 ^ 28 ≤ 2 ^ 49 ∧
    (0 < 2 ^ 48 ∧ 2 ^ 48 < 0 + (2 ^ 48 + 2 ^ 28)) ∧ (2 ^ 48 + 2 ^ 28) % 2 ^ 28 = 0 ∧ 2 ≤ 2 := by decide

/-- `s` with the supervisor's counter at n. -/
def atTick (s : State) (n : Nat) : State := { s with clocks := { s.clocks with sup := n } }

/-- `s` where command `op` with payload l, and nothing else, is due in slot 0 of frame 0. -/
abbrev run0 (s : State) (op : Nat) (l : List Byte) : State := withRun s 0 0 (cmd op l)

/-- The command of `run0` is due, and its state and it satisfy p. -/
abbrev At (s : State) (op : Nat) (l : List Byte) (p : State → Running → Prop) : Prop :=
  due (run0 s op l) 0 0 op = some (cmd op l) ∧ p (run0 s op l) (cmd op l)

/-- The command of `run0` is due. -/
abbrev isDue (s : State) (op : Nat) (l : List Byte) : Prop := due (run0 s op l) 0 0 op = some (cmd op l)

/-- `up` with one committed decoder over 256 MiB and a writable page of stack 0 that the host port has cached. -/
def hosting (shared : Bool) : State :=
  { up with
    hp := { up.hp with decoder0 := { base := 0, skip := 0, size := 2 ^ 28, committed := true, error := false } }
    xlat := { Translation.atReset with
      cache := [{ unit := .hostPort, leaf := { space := 0, off := 0, size := 0, entry := mkLeaf true shared false false 0 0 } }] } }

theorem pair_of {α β : Type} {x : α × β} {b : β} (h : x.2 = b) : x = (x.1, b) := by rw [← h]

theorem hyp_HostMemoryAccesses :
    decoded (hosting false) (2 ^ 28 - 1) = true ∧ decoded (hosting false) (2 ^ 28) = false ∧
    (∃ t, touch (hosting false) .hostPort (gaOfDpa (hosting false) 0) 64 false = (t, .ok (hbmPhys 0 0) false)) ∧
    (∃ t, touch (hosting false) .hostPort (gaOfDpa (hosting false) (2 ^ 28 - 64)) 64 false = (t, .fault 0x81)) ∧
    (∃ t, touch (hosting false) .hostPort (gaOfDpa (hosting false) 63) 1 true = (t, .ok (hbmPhys 0 63) false)) ∧
    (∃ t, touch (hosting true) .hostPort (gaOfDpa (hosting true) 0) 1 true = (t, .reject 0x65)) ∧
    63 % 64 + 1 ≤ 64 ∧ bytesOf 1 0 ≠ [] :=
  ⟨by decide +kernel, by decide +kernel, ⟨_, pair_of (by decide +kernel)⟩, ⟨_, pair_of (by decide +kernel)⟩,
    ⟨_, pair_of (by decide +kernel)⟩, ⟨_, pair_of (by decide +kernel)⟩, by decide, by decide⟩

/-- The host is asked for line 5. -/
def asking : BackInval := { line := 5, data := true, since := 0, why := 0, units := [] }

theorem hyp_BackInvalidations : let s := { held with hp := { held.hp with backInv := [asking] }, clocks := { held.clocks with die := [(0, 10 * ticksPerMs)] } }
    s.hp.backInv.find? (fun x => x.line = 5) = some asking ∧ asking.units = [] ∧ s.hp.waitReads = [] ∧ s.fabric.waitRows = [] ∧
    s.hp.cxlReset = false ∧ asking.again = false ∧ { asking with again := true }.data = true ∧ s.hp.filter.any (fun e => e.line = 5) = true ∧ asking.since + 10 * ticksPerMs ≤ look s.clocks.die 0 0 ∧ s.hp.errInfo = 0 := by decide +kernel

/-- `s` in power state p. -/
def inPower (s : State) (p : PowerState) : State := { s with power := { s.power with state := p } }

/-- A row for module 5. -/
def row0 : Row := { kind := 0, hops := 1, origin := 0, final := 5, mask := 2, addr := 0, e2e := 0, aux := 0, payload := [], poison := []
                    flagged := false, strict := false, owners := [], source := none }

/-- `up` with port 15 joined, with nothing or one row left to send. -/
def ported (sent : Bool) : State := setPort up 15 { RolPort.fresh with joined := true, queue := if sent then [] else [row0] }

/-- A command of `run0` that has made progress n. -/
abbrev runAt (s : State) (op : Nat) (l : List Byte) (n : Nat) (p : State → Running → Prop) : Prop :=
  due (withRun s 0 0 { cmd op l with progress := n }) 0 0 op = some { cmd op l with progress := n } ∧
  p (withRun s 0 0 { cmd op l with progress := n }) { cmd op l with progress := n }

theorem hyp_PowerSetReachesItsTarget :
    At (inPower up .m1) 0x0105 (bytesOf 8 0) (fun s r => bitsOf (head8 r) 0 3 = 0 ∧ s.power.state = .m1 ∧ s.slices = [] ∧ s.cores = []) ∧
    At (inPower up .m2) 0x0105 (bytesOf 8 0) (fun s r => bitsOf (head8 r) 0 3 = 0 ∧ s.power.state = .m2) ∧
    At (inPower up .m3) 0x0105 (bytesOf 8 0) (fun s r => bitsOf (head8 r) 0 3 = 0 ∧ s.power.state = .m3) ∧
    At up 0x0105 (bytesOf 8 1) (fun s r => bitsOf (head8 r) 0 3 = 1 ∧ s.power.state = .m0 ∧ s.slices = [] ∧ s.cores = []) ∧
    At up 0x0105 (bytesOf 8 2) (fun s r => bitsOf (head8 r) 0 3 = 2 ∧ s.power.state = .m0 ∧ s.slices = []) ∧
    At (inPower up .m2) 0x0105 (bytesOf 8 3) (fun s r => bitsOf (head8 r) 0 3 = 3 ∧ s.power.state = .m2 ∧ s.slices = [] ∧
      s.boot.phase ≠ 7 ∧ r.progress ≠ 2 ∧ joinedPorts s = []) ∧
    At up 0x0105 (bytesOf 8 3) (fun s r =>
      bitsOf (head8 r) 0 3 = 3 ∧ s.power.state = .m0 ∧ s.slices = [] ∧ s.boot.phase ≠ 7 ∧ r.progress = 0) ∧
    (∀ b ∈ [true, false], runAt (ported b) 0x0105 (bytesOf 8 3) 2 (fun s r =>
      bitsOf (head8 r) 0 3 = 3 ∧ s.power.state = .m0 ∧ s.slices = [] ∧ s.boot.phase ≠ 7 ∧ r.progress = 2 ∧
      portsLeft s (joinedPorts s) = b)) := by decide +kernel

theorem hyp_PowerSetRefused :
    At sliced 0x0105 (bytesOf 8 2) (fun s r => bitsOf (head8 r) 0 3 = 2 ∧ s.slices ≠ []) ∧
    At sliced 0x0105 (bytesOf 8 3) (fun s r => bitsOf (head8 r) 0 3 = 3 ∧ s.slices ≠ []) ∧
    At (inPower up .m3) 0x0105 (bytesOf 8 2) (fun s r =>
      bitsOf (head8 r) 0 3 = 2 ∧ s.slices = [] ∧ s.power.state ≠ .m0 ∧ s.power.state ≠ .m1) := by decide +kernel

theorem accepted {s : State} {type : Nat} {l : List Byte}
    (h1 : l.length = 128 + (envelopeOf l).body.length + 384 + 16224) (h2 : headerGood l = true) (h3 : (envelopeOf l).type = type)
    (h4 : (envelopeOf l).target = moduleIdentity s) (h5 : s.fuses.revoked.getLsbD (envelopeOf l).key = false)
    (h6 : ∀ a b c, Config.envelopeVerifies (envelopeOf l).key a b c = true) (h7 : s.fuses.minSvn ≤ (envelopeOf l).svn) :
    envelopeCode s type l = 0 := by
  have h8 : ¬(envelopeOf l).svn < s.fuses.minSvn := by omega
  simp only [envelopeCode, h2, h3, h4, h5, h6]
  simp [← h1, h8]

/-- The part of an envelope before its signatures, of a type and with a body, for a module whose identity is 48 zero
bytes. -/
def letter (type count : Nat) (b : List Byte) : List Byte :=
  bytesOf 128 (0x59474532 + type * 2 ^ 32 + 2 ^ 40 + b.length * 2 ^ 64 + count * 2 ^ 128) ++ b

/-- Two signatures of zeros. -/
def signs : List Byte := List.replicate (384 + 16224) 0

theorem length_bytes (n v : Nat) : (bytesOf n v).length = n := by
  induction n generalizing v with
  | zero => rfl
  | succ n ih => simp [bytesOf, ih]

theorem sub_of_append (l m : List Byte) (i n : Nat) (h : i + n ≤ l.length) : sub (l ++ m) i n = sub l i n := by
  have e : i - l.length = 0 := by omega
  have f : n - (l.length - i) = 0 := by omega
  simp [sub, List.drop_append, List.take_append, e, f]

theorem letter_length (t c : Nat) (b : List Byte) : (letter t c b).length = 128 + b.length := by
  rw [letter, List.length_append, length_bytes]

theorem letter_fit (t c : Nat) (b : List Byte) : fit (letter t c b ++ signs) 128 = fit (letter t c b) 128 :=
  sub_of_append _ _ _ _ (by rw [letter_length]; omega)

theorem letter_sub (t c : Nat) (b : List Byte) (i n : Nat) (h : i + n ≤ 128 + b.length) :
    sub (letter t c b ++ signs) i n = sub (letter t c b) i n :=
  sub_of_append _ _ _ _ (by rw [letter_length]; exact h)

/-- The envelope a letter of given facts is. -/
theorem letter_of (t c : Nat) (b : List Byte) (h : bitsOf (natOf (fit (letter t c b) 128)) 64 32 = b.length) :
    envelopeOf (letter t c b ++ signs) = envelopeOf (letter t c b) := by
  simp only [envelopeOf, letter_fit, h]
  rw [letter_sub _ _ _ _ _ (by omega), letter_sub _ _ _ _ _ (by omega), letter_sub _ _ _ _ _ (by omega)]

theorem letter_good (t c : Nat) (b : List Byte) : headerGood (letter t c b ++ signs) = headerGood (letter t c b) := by
  simp only [headerGood, letter_fit]

/-- The gathered start of a letter. -/
def begun (s : State) (op : Nat) (l : List Byte) : State :=
  { s with sup := { s.sup with gathers := [(op, { bytes := l, challenge := none })] } }

/-- Its signatures but for the last 8 bytes, which come with the last chunk. -/
def most : List Byte := List.replicate 16600 0

/-- A last chunk: its first word, and 8 zero bytes. -/
def lastChunk (h : Nat) : List Byte := bytesOf 8 h ++ List.replicate 8 0

theorem letter_whole (t c : Nat) (b : List Byte) (h : Nat) :
    (letter t c b ++ most) ++ (lastChunk h).drop 8 = letter t c b ++ signs := by
  have e : (lastChunk h).drop 8 = List.replicate 8 0 := by
    rw [lastChunk, List.drop_append, length_bytes, List.drop_of_length_le (Nat.le_of_eq (length_bytes 8 h))]; rfl
  rw [e, List.append_assoc, most, signs, List.replicate_append_replicate]

theorem most_length (t c : Nat) (b : List Byte) : (letter t c b ++ most).length = 16728 + b.length := by
  rw [List.length_append, letter_length, most, List.length_replicate]; omega

/-- A letter is well-formed, of its type and with its body, for a module whose identity is 48 zero bytes. -/
def letterGood (t c : Nat) (b : List Byte) : Bool :=
  let e := envelopeOf (letter t c b)
  bitsOf (natOf (fit (letter t c b) 128)) 64 32 = b.length && e.body.length = b.length && headerGood (letter t c b) && e.type = t &&
  e.target = List.replicate 48 0 && e.key = 0

/-- R845: signatures are free values: for a module and keys under which the letter is genuine, it is accepted, and is the letter. -/
theorem genuine {s : State} {t c : Nat} {b : List Byte} (g : letterGood t c b = true) (hi : moduleIdentity s = List.replicate 48 0)
    (hf : s.fuses.revoked = 0) (hm : s.fuses.minSvn = 0) (hv : ∀ a b c, Config.envelopeVerifies 0 a b c = true) :
    envelopeCode s t (letter t c b ++ signs) = 0 ∧ envelopeOf (letter t c b ++ signs) = envelopeOf (letter t c b) := by
  simp only [letterGood, Bool.and_eq_true, decide_eq_true_eq] at g
  obtain ⟨⟨⟨⟨⟨h, h1⟩, h2⟩, h3⟩, h4⟩, h5⟩ := g
  have e := letter_of t c b h
  refine ⟨?_, e⟩
  apply accepted
  · have q := letter_length t c b
    rw [e, h1]
    simp only [List.length_append, signs, List.length_replicate]
    omega
  · rw [letter_good, h2]
  · rw [e, h3]
  · rw [e, h4, hi]
  · rw [e, h5, hf]; decide
  · rw [e, h5]; exact hv
  · rw [hm]; exact Nat.zero_le _

/-- A module in FACTORY. -/
def factory : State := { up with fuses := { up.fuses with life := .factory } }

/-- `s` with a `lifecycle` command whose last chunk completes a letter with a count and a target state. -/
def moving (s : State) (op count target : Nat) : State :=
  run0 (begun s op (letter 4 count [BitVec.ofNat 8 target] ++ most)) op (lastChunk (target + 2 ^ 8 + 16729 * 2 ^ 16))

theorem life_zero {s : State} {op n : Nat} {l m : List Byte} (h : envelopeCode s 4 l = 0 ∧ envelopeOf l = envelopeOf m)
    (hr : natAt (envelopeOf m).body 0 1 = n ∧ (envelopeOf m).lcCount = s.fuses.lcCount ∧ ((op = 0x0202) = (n = 3)) ∧
      transitions.any (fun t => t.1 = s.fuses.life && t.2.1 = n) = true ∧ s.fuses.lcCount < 15) : lifeCode_ s op n l = 0 := by
  obtain ⟨a, b, c, d, e⟩ := hr
  have e' : s.fuses.lcCount < 16 := by omega
  simp [lifeCode_, h.1, h.2, a, b, c, d, Nat.not_le.2 e, Nat.not_le.2 e']

theorem hyp_LifeCycleTransitions (h : moduleIdentity up = List.replicate 48 0)
    (hv : ∀ a b c, Config.envelopeVerifies 0 a b c = true) :
    ∀ e ∈ [(factory, 0x0201, 2), (ported true, 0x0202, 3), (ported false, 0x0202, 3)],
      let s := moving e.1 e.2.1 up.fuses.lcCount e.2.2
      lifeCode_ s e.2.1 e.2.2 ((gathered_ s e.2.1).bytes ++ (lastChunk (e.2.2 + 2 ^ 8 + 16729 * 2 ^ 16)).drop 8) = 0 := by
  intro e he
  simp only [List.mem_cons, List.not_mem_nil, or_false] at he
  rcases he with rfl | rfl | rfl
  all_goals
    refine Eq.trans (congrArg (lifeCode_ _ _ _) (letter_whole 4 up.fuses.lcCount _ _)) (life_zero (genuine ?_ h rfl rfl hv) ?_) <;>
      decide +kernel

theorem hyp_LifeCycleTransitions_chunks :
    ∀ e ∈ [(factory, 0x0201, 2), (ported true, 0x0202, 3), (ported false, 0x0202, 3)],
      let s := moving e.1 e.2.1 up.fuses.lcCount e.2.2
      let r := cmd e.2.1 (lastChunk (e.2.2 + 2 ^ 8 + 16729 * 2 ^ 16))
      due s 0 0 e.2.1 = some r ∧ r.progress = 0 ∧ s.slices = [] ∧ bitsOf (head8 r) 0 3 = e.2.2 ∧
      bitsOf (head8 r) 16 32 = (gathered_ s e.2.1).bytes.length ∧ bitAt (head8 r) 8 = true ∧
      (e.2.2 = 3 → portsLeft s (joinedPorts s) = portsLeft e.1 (joinedPorts e.1)) := by
  intro e he
  simp only [List.mem_cons, List.not_mem_nil, or_false] at he
  rcases he with rfl | rfl | rfl
  all_goals
    refine ⟨by decide +kernel, by decide +kernel, by decide +kernel, by decide +kernel, ?_, by decide +kernel, by decide +kernel⟩
    exact Eq.trans (by decide +kernel) (most_length _ _ _).symm

theorem hyp_LifeCycleTransitions_others :
    At sliced 0x0202 [] (fun s r => r.progress = 0 ∧ s.slices ≠ []) ∧
    At up 0x0201 (bytesOf 8 (2 + 2 ^ 8)) (fun s r => r.progress = 0 ∧ s.slices = [] ∧
      bitsOf (head8 r) 16 32 = (gathered_ s 0x0201).bytes.length ∧ bitAt (head8 r) 8 = true ∧
      lifeCode_ s 0x0201 2 ((gathered_ s 0x0201).bytes ++ r.payload.drop 8) ≠ 0) ∧
    (∀ n ∈ [1, 2], runAt up 0x0201 (bytesOf 8 3) n (fun _ r => r.progress = n)) := by decide +kernel

theorem hyp_DebugUnlock :
    At up 0x0203 (bytesOf 8 0) (fun s r => tokenStates s = true ∧ bitsOf (head8 r) 0 8 = 0) ∧
    At up 0x0203 (bytesOf 8 (1 + 2 ^ 8)) (fun s r => tokenStates s = true ∧ bitsOf (head8 r) 0 8 = 1 ∧
      look? s.sup.gathers 0x0203 = none ∧ bitsOf (head8 r) 16 32 = 0 ∧ bitAt (head8 r) 8 = true) ∧
    At up 0x0203 (bytesOf 8 2) (fun s r => tokenStates s = true ∧ bitsOf (head8 r) 0 8 = 2) ∧
    (∀ op ∈ [0, 1, 2], At { up with fuses := { up.fuses with life := .returned } } 0x0203 (bytesOf 8 op)
      (fun s r => tokenStates s = false ∧ bitsOf (head8 r) 0 8 = op)) := by decide +kernel

/-- `up` with an upload whose last chunk completes a letter of a type. -/
def uploading (op type : Nat) : State :=
  run0 (begun up op (letter type 0 [1] ++ most)) op (lastChunk (16729 + 2 ^ 32))

theorem hyp_FirmwareUploads (h : moduleIdentity up = List.replicate 48 0) (hv : ∀ a b c, Config.envelopeVerifies 0 a b c = true) :
    ∀ e ∈ [(0x0301, 1), (0x0303, 2)], envelopeCode (uploading e.1 e.2) e.2
      ((gathered_ (uploading e.1 e.2) e.1).bytes ++ (lastChunk (16729 + 2 ^ 32)).drop 8) = 0 := by
  intro e he
  simp only [List.mem_cons, List.not_mem_nil, or_false] at he
  rcases he with rfl | rfl
  all_goals
    exact Eq.trans (congrArg (envelopeCode _ _) (letter_whole _ 0 _ _)) (genuine (by decide +kernel) h rfl rfl hv).1

theorem hyp_FirmwareUploads_chunks :
    ∀ e ∈ [(0x0301, 1), (0x0303, 2)], let s := uploading e.1 e.2
      let r := cmd e.1 (lastChunk (16729 + 2 ^ 32))
      due s 0 0 e.1 = some r ∧ bitsOf (head8 r) 0 32 + (r.payload.length - 8) ≤ 2 ^ 24 ∧
      bitsOf (head8 r) 0 32 = (gathered_ s e.1).bytes.length ∧ bitAt (head8 r) 32 = true := by
  intro e he
  simp only [List.mem_cons, List.not_mem_nil, or_false] at he
  rcases he with rfl | rfl
  all_goals
    refine ⟨by decide +kernel, by decide +kernel, ?_, by decide +kernel⟩
    exact Eq.trans (by decide +kernel) (most_length _ _ _).symm

theorem hyp_FirmwareUploads_others :
    (∀ op ∈ [0x0301, 0x0303],
      At up op (bytesOf 16 1) (fun s r => bitsOf (head8 r) 0 32 ≠ (gathered_ s op).bytes.length) ∧
      At up op (bytesOf 16 0) (fun s r => bitsOf (head8 r) 0 32 + (r.payload.length - 8) ≤ 2 ^ 24 ∧
        bitsOf (head8 r) 0 32 = (gathered_ s op).bytes.length ∧ bitAt (head8 r) 32 = false) ∧
      At up op (bytesOf 16 (2 ^ 32)) (fun s r => bitsOf (head8 r) 0 32 = (gathered_ s op).bytes.length ∧ bitAt (head8 r) 32 = true ∧
        envelopeCode s 1 ((gathered_ s op).bytes ++ r.payload.drop 8) ≠ 0 ∧
        envelopeCode s 2 ((gathered_ s op).bytes ++ r.payload.drop 8) ≠ 0)) ∧
    isDue up 0x0302 [] ∧ up.nv.staged = none ∧
    isDue { up with nv := { up.nv with staged := some up.nv.bootImage } } 0x0302 [] := by decide +kernel

theorem hyp_ReferenceAndSupply : up.power.refLost = false ∧ up.power.standby = true ∧
    bandOf 58001 ≠ up.power.band ∧ bandOf 58001 = .marginal ∧ bandOf 60000 ≠ .lost ∧ bandOf 60001 = .lost ∧
    bandOf up.power.inputMv = .operating := by decide +kernel

theorem hyp_ReferenceHoldover : let s := atTick { up with power := { up.power with refLost := true } } (100 * ticksPerMs)
    s.power.refLost = true ∧ s.power.refParked = false ∧ s.power.refSince + 100 * ticksPerMs ≤ s.clocks.sup ∧
    (∀ r, r < 48 → (demandsOf s r).reference = false) ∧ joinedPorts s = [] := by decide +kernel

theorem hyp_EnvelopeFollowsItsConditions : let s := { up with sup := { up.sup with envelope := true, holds := true } };
    (∃ t, exec (.envelopeEvaluation 351 250) s = .next t ∧ insideEnvelope t = false ∧ t.sup.holds = false) ∧
    s.sup.lapses + 1 < 2 ^ 32 ∧ 599 < 600 ∧ 600 ≤ 600 ∧ s.power.trayMissed = false ∧
    (atTick s ticksPerS).power.trayAt + ticksPerS ≤ (atTick s ticksPerS).clocks.sup :=
  ⟨⟨_, rfl, by decide +kernel, by decide +kernel⟩, by decide +kernel, by decide, by decide, by decide +kernel, by decide +kernel⟩

/-- `up` with an open full-view session of one minute. -/
def session : State := { up with sup := { up.sup with session := some (true, 1, 0) } }

theorem hyp_PinsAndTray :
    up.pins.modReset = false ∧
    (let s := { up with pins := { up.pins with trayReqAt := some 0 } };
      s.pins.trayReqAt = some 0 ∧ s.clocks.sup < 0 + ticksPerMs ∧ 0 + ticksPerMs ≤ (atTick s ticksPerMs).clocks.sup) ∧
    session.sup.session = some (true, 1, 0) ∧ 0 + 1 * 60 * ticksPerS ≤ (atTick session (60 * ticksPerS)).clocks.sup ∧
    debugServed (probeSeen session) = true ∧ debugView session = 2 ∧ dapPowered session (2 ^ 40 + 95 * 2 ^ 37) 8 = true ∧
    debugServed (probeSeen up) = true ∧ debugView up = 0 ∧ 2 ≤ 2 := by decide +kernel

/-- What a start without any failure finds. -/
def calm : StartObs :=
  { mapOk := true, imageOk := true, prevOk := true, keyOk := true, fusedAnswer := false, failed := [], wrong := [], darkRegions := []
    deadStacks := [], tierDevices := [], tierBad := [] }

theorem hyp_StartsBegin :
    mayStart State.reset = true ∧ mayStart up = false ∧ { calm with imageOk := false, prevOk := false }.prevOk = false ∧
    State.reset.nv.keysHeld = true ∧ { calm with keyOk := false }.keyOk = false ∧ State.reset.nv.sealedAt = State.reset.fuses.lcCount ∧
    State.reset.nv.fenceBits = [] ∧ State.reset.nv.map = [] ∧ State.reset.fuses.life = .deployed := by decide +kernel

theorem hyp_StartsEnd :
    let s := { up with boot := { up.boot with running := true, tested := true }, nv := { up.nv with activated := true } };
    (s.boot.running = true ∧ s.boot.tested = true ∧ s.boot.march = [] ∧ (∀ r, r < 48 → shedOf s r = .lit)) ∧
    (∀ r, r < 48 → ∃ k ∈ regionStacks r, s.caps.stacksOut.contains k = false) ∧
    (let t := { s with boot := { s.boot with march := [(95, (3, 0))] }
                       clocks := { s.clocks with region := (List.range 48).map (fun r => (r, 30 * ticksPerS)) } };
      look? t.boot.march 95 = some (3, 0) ∧ 0 + 30 * ticksPerS ≤ regionNow t (regionOfStack 95)) ∧
    { s.nv with activated := false }.activated = false := by decide +kernel

theorem hyp_SelfTestAndAgeing :
    { up with nv := { up.nv with bist := { SelfTest.none with running := true } } }.nv.bist.running = true ∧ (199 : Int) < 200 ∧
    (350 : Int) < 351 ∧ (200 : Int) ≤ 200 ∧ up.power.state = .m0 ∧ State.reset.power.state = .m4 := by decide +kernel

theorem hyp_SliceCommands :
    At sliced 0x0401 (bytesOf 32 1) (fun s r => createCode s (wantedOf r.payload) ≠ 0) ∧
    At up 0x0401 (bytesOf 32 1) (fun s r => createCode s (wantedOf r.payload) = 0) ∧
    At sliced 0x0402 [] (fun s r => s.sup.destroys = [] ∧ (look? s.slices r.handle).isSome = true ∧
      (look? (destroyStep s r.handle).slices r.handle).isNone = true) ∧
    At sliced 0x0404 [] (fun s r => covering s 2 r.handle = none) ∧
    At up 0x0901 (bytesOf 8 5) (fun s r => targetGood s (bitsOf (head8 r) 0 3) (bitsOf (head8 r) 32 32) = false) ∧
    At up 0x0901 (bytesOf 8 4) (fun s r => bitsOf (head8 r) 0 3 = 4 ∧ bitsOf (head8 r) 32 32 = 0 ∧ s.sup.cycleAsked = false) ∧
    At up 0x0901 (bytesOf 8 3) (fun s r => bitsOf (head8 r) 0 3 ≤ 3 ∧ targetGood s (bitsOf (head8 r) 0 3) (bitsOf (head8 r) 32 32) = true ∧
      covering s (bitsOf (head8 r) 0 3) (bitsOf (head8 r) 32 32) = none) := by decide +kernel

/-- A partition reset of slice 1, decided. -/
def reset2 : Reset :=
  { id := 0, domain := 2, target := 1, trigger := 2, since := 0, holding := [], begun := false, cls := 0, config := 0, repair := none }

theorem hyp_SliceResetUnderWay : At { sliced with sup := { sliced.sup with resets := [reset2] } } 0x0404 []
    (fun s r => covering s 2 r.handle = some reset2) := by decide +kernel

/-- The 40 bytes of a `fence.set` for element kind e, number n, with operation o. -/
def fenceBytes (o e n : Nat) : List Byte := bytesOf 8 o ++ bytesOf 32 (e + 0x10 * 2 ^ 8 + n * 2 ^ 16)

theorem hyp_HealthCommands :
    At up 0x0801 (bytesOf 8 1) (fun _ _ => True) ∧ At up 0x0804 [] (fun _ _ => True) ∧
    (let s := withRun { runs sliced 0 with slices := sliced.slices } 1 0 (cmd 0x0801 []);
      due s 1 0 0x0801 = some (cmd 0x0801 []) ∧ sliceActive s 1 = true) ∧
    (let s := withRun sliced 1 0 (cmd 0x0801 []);
      due s 1 0 0x0801 = some (cmd 0x0801 []) ∧ sliceActive s 1 = false ∧ look? s.slices 1 = some slice0 ∧ slice0.mode ≠ 2) ∧
    (let s := withRun sliced 1 0 (cmd 0x0804 []); due s 1 0 0x0804 = some (cmd 0x0804 []) ∧ look? s.slices 1 = some slice0) ∧
    At up 0x0803 (fenceBytes 0 1 5) (fun _ r => bitsOf (head8 r) 0 8 = 0) ∧
    At up 0x0803 (fenceBytes 1 1 5) (fun s r => bitsOf (head8 r) 0 8 = 1 ∧ (elementOf (recordFrom (r.payload.drop 8))).kind ≠ 6 ∧
      r.payload.length = 40 ∧ look? s.sup.gathers 0x0803 = none) ∧
    At up 0x0803 (fenceBytes 1 6 7) (fun s r => bitsOf (head8 r) 0 8 = 1 ∧ (elementOf (recordFrom (r.payload.drop 8))).kind = 6 ∧
      (tierOf s (elementOf (recordFrom (r.payload.drop 8))).id).fenced = false) ∧
    At up 0x0805 (bytesOf 8 0) (fun s r => (plannedOf s r.payload).all (plannable s) = true) ∧
    At up 0x0805 (bytesOf 24 1) (fun s r => (plannedOf s r.payload).all (plannable s) = false) := by decide +kernel

/-! ### Memory, context and fabric commands -/

/-- `sliced` with window 0 of slice 1 empty. -/
def windowed : State := { sliced with xlat := { Translation.atReset with
  windows := [(0, { owner := 1, root0 := 0, root1 := 0, second := false, folded := [] })] } }

/-- A page of 64 KiB at its start. -/
def leaf0 : Leaf := { space := 0, off := 0, size := 0, entry := mkLeaf true false false false 0 0 }

/-- A `mem.map` payload: one 64 KiB page of stack k at offset `off`. -/
def mapBytes (k off : Nat) : List Byte := bytesOf 24 (off + 2 ^ 66 + k * 2 ^ 72 + 2 ^ 80)

/-- A global address in the memory of core 0. -/
def ga0 (off : Nat) : Nat := 2 ^ 48 + off

/-- A state with a page of slice 1 that Furelo has cached. -/
def paged1 : State := { windowed with xlat := { windowed.xlat with
  cache := [{ unit := .furelo, leaf := { space := 0, off := 0, size := 0, entry := mkLeaf true false false false 0 0 } }] } }

/-- A piece can be reached. -/
def reachable (s : State) (a n : Nat) (w : Bool) : Bool :=
  match (pieceAt s a n w).1 with
  | .done _ => true
  | _ => false

theorem piece_done {s : State} {a n : Nat} {w : Bool} (h : reachable s a n w = true) : ∃ t p, pieceAt s a n w = (.done t, p) := by
  unfold reachable at h
  split at h
  · rename_i t e
    exact ⟨t, _, Prod.ext e rfl⟩
  · cases h

theorem hyp_MemoryCommands_maps :
    At sliced 0x0601 (mapBytes 95 0) (fun s r => mapCode s r.handle (mapReqOf r.payload) ≠ 0) ∧
    At sliced 0x0601 (mapBytes 0 (2 ^ 48 - 2 ^ 16)) (fun s r => let m := mapReqOf r.payload;
      mapCode s r.handle m = 0 ∧ (rangeKeys m.space m.off (mapSpan m)).all (retired s) = true ∧
      (rebuildAll r.handle ((rangeKeys m.space m.off (mapSpan m)).map (fun w =>
        (w, ((newLeaves m).filter (fun l => keyOf l.space l.off = w)).map (fun l => (l.off, l.size, l.entry))))) s).isSome = true) ∧
    At sliced 0x0602 (bytesOf 16 (2 ^ 80)) (fun s r => unmapCode s r.handle 0 0 0 (natAt r.payload 8 8) = 0 ∧ s.xlat.leaves = []) ∧
    At { windowed with xlat := { windowed.xlat with leaves := [leaf0] } } 0x0602 (bytesOf 16 (2 ^ 80)) (fun s r =>
      unmapCode s r.handle 0 0 0 (natAt r.payload 8 8) = 0 ∧
      s.xlat.leaves.filter (fun l => l.space = 0 && overlaps l.off (pageBytes l.size) 0 (natAt r.payload 8 8)) = [leaf0] ∧
      [keyOf 0 0].all (retired s) = true ∧ (rebuildAll r.handle [(keyOf 0 0, [(0, 0, 0)])] s).isSome = true) ∧
    At sliced 0x0602 (bytesOf 16 (2 ^ 64)) (fun s r => unmapCode s r.handle 0 0 0 (natAt r.payload 8 8) ≠ 0) := by decide +kernel

theorem hyp_MemoryCommands_fills :
    At sliced 0x0603 (bytesOf 24 (ga0 65535 + 2 ^ 64)) (fun s r => r.progress = 0 ∧ natAt r.payload 8 8 = 1 ∧
      1 ≤ 2 ^ 16 - natAt r.payload 0 8 % 2 ^ 16 ∧ reachable s (natAt r.payload 0 8) 1 true = true) ∧
    At paged1 0x0606 (bytesOf 16 (8 * 2 ^ 64)) (fun s r => r.progress = 0 ∧ natAt r.payload 8 8 = 8 ∧
      8 ≤ 2 ^ 16 - natAt r.payload 0 8 % 2 ^ 16 ∧ ownRange s r.handle (natAt r.payload 0 8) 8 = true ∧
      reachable s (natAt r.payload 0 8) 8 true = true) ∧
    At sliced 0x0606 (bytesOf 16 (8 * 2 ^ 64)) (fun s r =>
      r.progress = 0 ∧ ownRange s r.handle (natAt r.payload 0 8) (natAt r.payload 8 8) = false) := by decide +kernel

/-- A `mem.copy` payload with the source or the destination in host memory. -/
def copyBytes (src dst n flags : Nat) : List Byte := bytesOf 32 (src + dst * 2 ^ 64 + n * 2 ^ 128 + flags * 2 ^ 192)

theorem hyp_MemoryCommands_copies :
    At up 0x0604 (copyBytes (ga0 0) (ga0 64) 8 0) (fun s r => r.progress = 0 ∧ copyReqOf r.payload = ⟨ga0 0, ga0 64, 8, false, false⟩ ∧
      8 ≤ 2 ^ 16 - (copyReqOf r.payload).src % 2 ^ 16 ∧ 8 ≤ 2 ^ 16 - (copyReqOf r.payload).dst % 2 ^ 16 ∧
      reachable s (ga0 0) 8 false = true ∧ reachable s (ga0 64) 8 true = true) ∧
    At up 0x0604 (copyBytes 0 (ga0 64) 8 1) (fun _ r =>
      r.progress = 0 ∧ r.resp = [] ∧ (copyReqOf r.payload).srcHost = true ∧ 0 < (copyReqOf r.payload).length) ∧
    At up 0x0605 (bytesOf 24 (ga0 0 + 2 ^ 128)) (fun s r => r.progress = 0 ∧ natAt r.payload 16 4 = 1 ∧
      (readRange (pageCuts (natAt r.payload 0 8) 32) s).2.2.any id = false ∧ reachable s (natAt r.payload 0 8) 32 false = true) ∧
    At up 0x0607 (bytesOf 24 (ga0 0 + 8 * 2 ^ 64)) (fun s r =>
      (poisonedWords 0 0 r (pageCuts (natAt r.payload 0 8) (natAt r.payload 8 8)) 0 s).2.1 = 8) ∧
    (let r := { cmd 0x0604 (copyBytes (ga0 0) 64 8 2) with wait := .host };
      let s := withRun { up with clocks := { up.clocks with die := [(0, 10 * ticksPerMs)] } } 0 0 r;
      runAs s 0 0 0x0604 = some r ∧ r.wait = .host ∧ (copyReqOf r.payload).srcHost = false ∧
      (copyReqOf r.payload).length ≤ r.progress + copyPiece (copyReqOf r.payload) r.progress ∧
      r.at_ + 10 * ticksPerMs ≤ look s.clocks.die 0 0) := by decide +kernel

/-- An image of configured region 7 with a rectangle of core 0 alone. -/
def image7 : BitVec 1536 := BitVec.ofNat 1536 (7 + 2 ^ 45 + 2 ^ 52 + 2 ^ 104)

/-- `sliced` with a slot of configured region 7 on core 0 and its group. -/
def config7 (st : SlotState) (g : Group) : State :=
  setSlot { sliced with slices := [(1, { slice0 with groups := [g] })]
                        xlat := { Translation.atReset with
                          windows := [(0, { owner := 1, root0 := 0, root1 := 0, second := false, folded := [] })]
                          leaves := [{ space := 0, off := 0, size := 2, entry := mkLeaf true false false false 0 0 }] } } 0 0
    { Slot.fresh with state := st, image := image7 }

/-- The group of configured region 7. -/
def group7 : Group := Group.fresh [7] [0] [(0, 0)] 0

/-- The same saved out by the host. No core is listed: the check over a core's 8 MiB image is not evaluated here. -/
def group7out : Group := { group7 with
  cores := [], resident := false, byHost := true, image := .saved
  saved := [(0, { Core.fresh with slots := [(0, { Slot.fresh with state := .stopped, image := image7 })] })] }

theorem hyp_ContextCommands_starts :
    At sliced 0x0501 (bytesOf 8 1 ++ List.replicate 224 0) (fun s r => groupMoving s r.handle [(entryOf r.payload 0).core] = false) ∧
    At sliced 0x0502 (bytesOf 8 7) (fun s r => confMoving s r.handle 7 = false ∧ startCode s r.handle 7 ≠ 0) ∧
    At (config7 .loaded group7) 0x0502 (bytesOf 8 7) (fun s r => bitsOf (head8 r) 0 32 = 7 ∧ confMoving s r.handle 7 = false ∧
      startCode s r.handle 7 = 0) ∧
    At sliced 0x0503 (bytesOf 8 7) (fun s r => confMoving s r.handle 7 = false ∧ carrying s r.handle 7 = []) ∧
    At (config7 .running group7) 0x0503 (bytesOf 8 7) (fun s r => confMoving s r.handle 7 = false ∧ carrying s r.handle 7 ≠ [] ∧
      (groupHolding s r.handle 7).any (fun g => !g.2.resident) = false) := by decide +kernel

theorem hyp_ContextCommands_saves :
    At sliced 0x0504 (bytesOf 16 7) (fun s r => confMoving s r.handle 7 = false ∧ saveCode s r.handle 7 0 ≠ 0) ∧
    At (config7 .running group7) 0x0504 (bytesOf 16 7) (fun s r => confMoving s r.handle 7 = false ∧ saveCode s r.handle 7 0 = 0 ∧
      (groupHolding s r.handle 7).any (fun g => g.2.halted) = false ∧ groupHolding s r.handle 7 = some (0, group7)) ∧
    At sliced 0x0505 (bytesOf 16 7) (fun s r => confMoving s r.handle 7 = false ∧ restoreCode s r.handle 7 0 ≠ 0) ∧
    At (config7 .empty group7out) 0x0505 (bytesOf 16 7) (fun s r => confMoving s r.handle 7 = false ∧ restoreCode s r.handle 7 0 = 0 ∧
      groupHolding s r.handle 7 = some (0, group7out)) := by decide +kernel

/-- `sliced` in a domain of one joined port, 15, which its slice holds. -/
def joined : State := setPort { sliced with slices := [(1, { slice0 with ports := [15] })] } 15
  { RolPort.fresh with joined := true, edgeSeen := true, table := [(0, 0)] }

/-- A `fab.join` of ports by mask, module 0, each as member 0 of a table of itself. -/
def joinPayload (mask : Nat) : List Byte := bytesOf 48 (mask * 2 ^ 16) ++ bytesOf 8 0 ++ bytesOf 2 (2 ^ 14) ++ bytesOf 62 0

theorem hyp_FabricCommands_ports :
    At joined 0x0701 (joinPayload 0x8000) (fun s r => joinCode s 0 (sub r.payload 16 32) (joiningOf r.payload [0]) ≠ 0) ∧
    At up 0x0701 (joinPayload 1) (fun s r => joinCode s 0 (sub r.payload 16 32) (joiningOf r.payload [1000]) = 0 ∧
      (joinAll (joiningOf r.payload [1000]) s).1 = 0) ∧
    At up 0x0702 (bytesOf 8 1) (fun s r => (maskPorts (bitsOf (head8 r) 0 16)).any (fun p => !(portOf s p).joined) = true) ∧
    At joined 0x0702 (bytesOf 8 0x8000) (fun s r => (maskPorts (bitsOf (head8 r) 0 16)).any (fun p => !(portOf s p).joined) = false) ∧
    At up 0x0703 (bytesOf 8 0) (fun s r => bitAt (head8 r) 8 = false ∧ membersCode s 0 r false ≠ 0) ∧
    At joined 0x0703 (bytesOf 8 15) (fun s r => bitAt (head8 r) 8 = false ∧ membersCode s 0 r false = 0) ∧
    At up 0x0703 (bytesOf 72 (2 ^ 8)) (fun s r => bitAt (head8 r) 8 = true ∧ membersCode s 0 r true ≠ 0) ∧
    At joined 0x0703 (bytesOf 72 (15 + 2 ^ 8 + 2 ^ 78)) (fun s r => bitAt (head8 r) 8 = true ∧ membersCode s 0 r true = 0) ∧
    At up 0x0704 (bytesOf 10 (2 ^ 16)) (fun _ r => bitAt (head8 r) 32 = false) := by decide +kernel

/-- `joined` with its slice prepared for admission, or loaded. -/
def staged (n : Nat) : State := { joined with sup := { joined.sup with admitted := [(1, n)] } }

/-- `config7` loaded for admission. -/
def staged2 : State := let s := config7 .loaded group7; { s with sup := { s.sup with admitted := [(1, 2)] } }

theorem hyp_FabricCommands_admission :
    At sliced 0x0A01 [] (fun s r => (look? s.slices r.handle).isSome = true ∧ stageOf s r.handle = 0 ∧ slotsUsed s r.handle = 0 ∧
      s.nv.drained = false) ∧
    At (staged 1) 0x0A02 (bytesOf 8 0) (fun s r => loadCode s r.handle (loadRanges r.payload) = 0 ∧ r.wait ≠ .fabric) ∧
    At sliced 0x0A02 (bytesOf 8 0) (fun s r => r.wait ≠ .fabric ∧ loadCode s r.handle (loadRanges r.payload) ≠ 0 ∧
      loadCode s r.handle (loadRanges r.payload) ≠ 0x7A) ∧
    At staged2 0x0A03 (bytesOf 16 (7 * 2 ^ 32)) (fun s r => commitStage s r.handle (bitsOf (head8 r) 32 32) = 0) ∧
    At sliced 0x0A03 (bytesOf 16 (7 * 2 ^ 32)) (fun s r => commitStage s r.handle (bitsOf (head8 r) 32 32) ≠ 0) ∧
    (let r := { cmd 0x0A03 (bytesOf 16 (7 * 2 ^ 32)) with wait := .barrier, progress := 99 };
      let s := withRun (atTick staged2 (100 * ticksPerUs)) 0 0 r;
      runAs s 0 0 0x0A03 = some r ∧ r.wait = .barrier ∧ 99 ≤ r.progress ∧ r.at_ + 100 * ticksPerUs ≤ s.clocks.sup ∧
      1 ≠ bitsOf (natAt r.payload 14 2) 0 16) := by decide +kernel

/-! ### Steps of a core -/

/-- `fetchStep` answers the step d of slot k. -/
def fetches (s : State) (c op k : Nat) (d : BitVec 512) : Bool :=
  match fetchStep s c op with
  | .step k' d' => k' = k && d' = d
  | _ => false

theorem fetched {s : State} {c op k : Nat} {d : BitVec 512} (h : fetches s c op k d = true) : fetchStep s c op = .step k d := by
  unfold fetches at h
  split at h
  · simp at h; simp_all
  · cases h

/-- `s` with slot 0 of core 0 changed. -/
def tweak (s : State) (f : Slot → Slot) : State := onSlot s 0 0 f

/-- Bits at a place of a step descriptor. -/
def stepOf (l : List (Nat × Nat)) : BitVec 512 := BitVec.ofNat 512 ((l.map (fun e => e.2 * 2 ^ e.1)).sum)

/-- Slot 0 of core 0 is not stopping, has no twin and moves nothing, and its signatures agree. -/
def steady (s : State) : Bool :=
  let v := slotOf s 0 0
  !v.stopping && !(signaturesDiffer s 0 v) && v.primary.isNone && v.twin.isNone && v.moving.isNone && v.twinWait.isEmpty

/-- Core 0 of `up` has `stepOf l` as its next step; p holds of that state and that step. -/
abbrev Next (s : State) (op : Nat) (l : List (Nat × Nat)) (p : State → BitVec 512 → Prop) : Prop :=
  fetches (runs s (stepOf ((0, op) :: l))) 0 op 0 (stepOf ((0, op) :: l)) = true ∧ steady (runs s (stepOf ((0, op) :: l))) = true ∧
  p (runs s (stepOf ((0, op) :: l))) (stepOf ((0, op) :: l))

/-- As `Next`, with the slot changed. -/
abbrev NextIn (f : Slot → Slot) (s : State) (op : Nat) (l : List (Nat × Nat)) (p : State → BitVec 512 → Prop) : Prop :=
  fetches (tweak (runs s (stepOf ((0, op) :: l))) f) 0 op 0 (stepOf ((0, op) :: l)) = true ∧
  steady (tweak (runs s (stepOf ((0, op) :: l))) f) = true ∧
  p (tweak (runs s (stepOf ((0, op) :: l))) f) (stepOf ((0, op) :: l))

theorem hyp_ControlStepsMove_targets :
    Next up 0x45 [(39, 1)] (fun s d => qReserved d = false ∧ qTarget d < imStepCount (slotOf s 0 0).image ∧ (slotOf s 0 0).stopping = false) ∧
    Next up 0x44 [(39, 1), (64, 2)] (fun s d => qReserved d = false ∧ qTarget d < imStepCount (slotOf s 0 0).image ∧ qCount d ≠ 0 ∧
      look (slotOf s 0 0).loops (qSel d) 0 + 1 < qCount d) ∧
    Next up 0x44 [(39, 1), (64, 1)] (fun s d => qCount d ≤ look (slotOf s 0 0).loops (qSel d) 0 + 1 ∧ qReserved d = false) := by
  decide +kernel

theorem hyp_ControlStepsMove_states :
    Next up 0x46 [] (fun s d => qReserved d = false ∧ (slotOf s 0 0).issued = []) ∧
    NextIn (fun v => { v with issued := [⟨0, 1, 0⟩] }) up 0x46 [] (fun s d => qReserved d = false ∧ (slotOf s 0 0).issued ≠ [] ∧
      (slotOf s 0 0).primary = none) ∧
    Next up 0x47 [] (fun _ d => qReserved d = false) ∧ Next up 0x48 [] (fun _ d => qReserved d = false) := by decide +kernel

/-- A RUNNING slot past its list. -/
def pastEnd : State := tweak (runs up 0) (fun v => { v with ip := 2, monIp := 2 })

theorem hyp_ControlStepsMove_past : fetchStep pastEnd 0 0x48 = .past 0 := by
  have h : (match fetchStep pastEnd 0 0x48 with
    | .past k => k = 0
    | _ => false) = true := by decide +kernel
  split at h
  · simp_all
  · cases h

/-- Slot 0 with a quantum of one cycle, over, and step d next. -/
def quantumOver (d : BitVec 512) (f : Slot → Slot) : State :=
  { tweak (runs up d) (fun v => f { v with image := v.image ||| BitVec.ofNat 1536 (2 ^ 136) }) with
    clocks := { up.clocks with compute := [(0, 1)] } }

theorem hyp_ControlStepsMove_quantum :
    (∀ s ∈ [quantumOver 0 id, setSlot (quantumOver 0 id) 0 3 { Slot.fresh with state := .ready },
        quantumOver (stepOf [(0, 0x46)]) (fun v => { v with issued := [⟨0, 1, 0⟩] })],
      runningSlot s 0 = some 0 ∧ coreRuns s 0 = true ∧ steady s = true ∧ imQuantum (slotOf s 0 0).image ≠ 0 ∧
      (slotOf s 0 0).since + imQuantum (slotOf s 0 0).image = computeNow s 0) ∧
    (∀ b ∈ [true, false], let s := if b then setSlot (quantumOver 0 id) 0 3 { Slot.fresh with state := .ready } else quantumOver 0 id
      wouldBlock s 0 0 = false ∧ (slotsIn s 0 .ready).any (fun j => !(slotOf s 0 j).stopping) = b) ∧
    wouldBlock (quantumOver (stepOf [(0, 0x46)]) (fun v => { v with issued := [⟨0, 1, 0⟩] })) 0 0 = true := by decide +kernel

/-- A tile header of 64 FP32 values in a row. -/
def head64 : List Byte := mkHeader 1 0xC false false false 1 64 0 0 0 0 256

/-- One of 8 values. -/
def tile8 : List Byte := mkHeader 1 0xC false false false 1 8 0 0 0 0 32

/-- `s` with bytes in the memory of core 0. -/
def withBytes (s : State) (a : Nat) (l : List Byte) : State := { s with mem := writeMem s.mem (corePhys 0 a) l }

/-- An image with output port 0 or input lane 0 on. -/
def wired (v : Slot) : Slot := { v with image := v.image ||| BitVec.ofNat 1536 (2 ^ (768 + 18) + 2 ^ 256) }

theorem hyp_QueueAndMessageSteps_sends : ∀ n ∈ [0, 127], let d := stepOf [(0, 0x40), (16, 256)]
    let s := withBytes (tweak (runs up d) (fun v => wired { v with ports := [(0, ⟨0, n, 0⟩)] })) 256 tile8
    let m := 32 + thBytes (coreNat s 0 (qAddr d) 32)
    fetches s 0 0x40 0 d = true ∧ steady s = true ∧ qReserved d = false ∧ qUseHq d = false ∧
    portOn (imPort (slotOf s 0 0).image (qSel d)) = true ∧ qAddr d + m ≤ coreBytes ∧ queueHeader (coreNat s 0 (qAddr d) 32) = true ∧
    m ≤ 256 ∧ (outOf (slotOf s 0 0) (qSel d)).credits = n ∧
    injectHeld s (epCore 0) (epCore (relocated (slotOf s 0 0) (portCore (imPort (slotOf s 0 0).image (qSel d))))) 5 (qFlagged d)
      (slotOf s 0 0).g1 = false := by decide +kernel

theorem hyp_QueueAndMessageSteps_receives : ∀ b ∈ [true, false], let d := stepOf [(0, 0x41), (16, 256), (64, 64)]
    let x : Token := { header := 0, data := tile8, poison := [] }
    let s := tweak (runs up d) (fun v => wired { v with lanes := [(0, { Lane.fresh 0 with tokens := [(0, x)], due := bn b })] })
    fetches s 0 0x41 0 d = true ∧ steady s = true ∧ qReserved d = false ∧ laneDepth (imLane (slotOf s 0 0).image (qSel d)) ≠ 0 ∧
    qUseHq d = false ∧ laneHead s 0 0 (qSel d) = (if b then some x else none) ∧ queueHeader (natOf (fit tile8 32)) = true ∧
    32 + thBytes (natOf (fit tile8 32)) ≤ qCount d ∧ qAddr d + 32 + thBytes (natOf (fit tile8 32)) ≤ coreBytes ∧
    32 + thBytes (natOf (fit tile8 32)) ≤ 256 ∧ bitAt x.header.toNat 8 = false ∧ x.poison.any id = false ∧ twinCore s 0 = none := by
  decide +kernel

/-- Core 0 with a ring of eight units at 2,048 for class 0 that holds w of them: the messages of two words in `l`. -/
def ringed (s : State) (w : Nat) (l : List Byte) : State :=
  withBytes (withBytes (tweak s (fun v => { v with ringOn := true, ringTab := 512 })) 528
    (bytesOf 16 (2048 + 2 ^ 23 + 8 * 2 ^ 24 + w * 2 ^ 64))) 2048 l

theorem hyp_QueueAndMessageSteps_messages :
    Next up 0x50 [(8, 4), (11, 1), (16, 3839)] (fun s d => msReserved d = false ∧ msInline d = true ∧ coreExists s (msDest d) = true ∧
      1 ≤ msWords d ∧ msWords d ≤ 4 ∧ coreReachable s (relocated (slotOf s 0 0) (msDest d)) = true) ∧
    (∀ w ∈ [(0, 0), (1, 0), (0, 3)], let d := stepOf [(0, 0x51), (12, w.1), (16, 1024)]
      let s := ringed (runs up d) w.2 (bytesOf 24 2)
      let e := ringEntry s 0 (slotOf s 0 0) (mrClass d + 1)
      let a := reBase e + 8 * reRd e
      fetches s 0 0x51 0 d = true ∧ steady s = true ∧ mrReserved d = false ∧ mrAddr d % 8 = 0 ∧
      corePoison s 0 (ringEntryAt (slotOf s 0 0) (mrClass d + 1)) 16 = false ∧ reOn e = true ∧ mrAddr d + 40 ≤ coreBytes ∧
      ringHas e = decide (w.2 ≠ 0) ∧ mrNowait d = decide (w.1 = 1) ∧ bitAt (coreNat s 0 a 8) 3 = false ∧
      bitAt (coreNat s 0 a 8) 4 = false ∧ corePoison s 0 a (8 + 8 * bitsOf (coreNat s 0 a 8) 0 3) = false) := by decide +kernel

theorem hyp_SyncOperations :
    swType (BitVec.ofNat 64 (2 ^ 48 - 1)) = 0 ∧ 2 ^ 32 - 1 < 2 ^ 32 ∧ 2 ^ 32 - 1 + (0 : Reg).toNat % 2 ^ 32 < 2 ^ 32 ∧
    2 ^ 32 ≤ 2 ^ 32 - 1 + (1 : Reg).toNat % 2 ^ 32 ∧ (1 : Reg).toNat % 2 ^ 32 ≤ 1 ∧ 0 < (1 : Reg).toNat % 2 ^ 32 ∧ 65534 < 65535 ∧
    65535 < 2 ^ 16 ∧ (syncApply 2 (barrierWord 0 1 0) 1 0).2 ≠ 0 ∧ opType 2 = some 0 ∧ swType (barrierWord 0 1 0) ≠ 0 ∧
    swValid 5 = true ∧ swValid (BitVec.ofNat 64 (3 * 2 ^ 62)) = false := by decide +kernel

theorem hyp_SyncWordsStayValid : swValid (barrierWord 65534 65535 65535) = true := by decide +kernel

/-- `SyncStep` but for the fetch, which `fetches` tells of. -/
def syncMeets (s : State) (op : Nat) (d : BitVec 512) : Bool :=
  fetches s 0 0x52 0 d && !(syReserved d) && syResult d % 8 = 0 && syOp d = op && !(syRemote d) && decide (syResult d + 16 ≤ coreBytes) &&
  (slotOf s 0 0).primary.isNone && (slotOf s 0 0).twin.isNone &&
  !((slotOf s 0 0).syncs.any (fun y => y.step = (slotOf s 0 0).ip && decide (7 ≤ y.op))) && !(signaturesDiffer s 0 (slotOf s 0 0))

theorem sync_step {s : State} {op : Nat} {d : BitVec 512} (h : syncMeets s op d = true) : SyncStep s 0 0 op d := by
  simp only [syncMeets, Bool.and_eq_true, Bool.not_eq_true', decide_eq_true_eq, Option.isNone_iff_eq_none] at h
  obtain ⟨⟨⟨⟨⟨⟨⟨⟨⟨a, b⟩, c⟩, e⟩, f⟩, g⟩, i⟩, j⟩, k⟩, l⟩ := h
  exact ⟨fetched a, b, c, e, f, g, i, j, k, l⟩

/-- A `sync.op` step on object 65,535 of region 47, operand a. -/
def syncD (op a : Nat) : BitVec 512 := stepOf [(0, 0x52), (8, op), (45, 47), (51, 65535), (87, 128), (128, a)]

/-- Core 0 about to run it, the object holding w. -/
def syncAt (op a : Nat) (w : Reg) : State := setReg (runs up (syncD op a)) 47 { Region.fresh with sync := [(65535, w)] }

theorem hyp_SyncStepsAnswer_rows : ∀ op ∈ [0, 1, 2, 3, 4, 5, 6, 7, 8, 9, 0xA], syncMeets (syncAt op 0 0) op (syncD op 0) = true ∧
    syncSent (syncAt op 0 0) 0 op = none ∧ steady (syncAt op 0 0) = true := by decide +kernel

/-- The request of such a step at the router of the die of its object. -/
def request (op a : Nat) : Msg := { src := 0, srcSlot := 0, dst := 47, dstSlot := 0, place := some (epMem 47 (objectPoint 65535) * 8)
                                    body := .syncReq 47 65535 op (BitVec.ofNat 64 a) 0 0 0 }

theorem hyp_SyncStepsAnswer_arrived : ∀ op ∈ [0, 1, 2, 3, 4, 5, 6, 7, 8, 9, 0xA],
    let s := { syncAt op 0 0 with narrow := [request op 0] }
    syncSent s 0 op = some 0 ∧ (takeMsg s 0).map (·.1) = some (request op 0) ∧ regionServes s 47 = true ∧
    (regOf s 47).waits = [] := by decide +kernel

theorem hyp_SyncStepsAnswer_waits :
    (∀ e ∈ [(7, 1, (0 : Reg)), (8, 0, barrierWord 0 2 0), (0xA, 1, BitVec.ofNat 64 (2 ^ 62))],
      let w := syncWord (syncAt e.1 e.2.1 e.2.2) 47 65535
      opType e.1 = some (swType w) ∧ waitMet e.1 w (syA (syncD e.1 e.2.1)) w = false) ∧
    (∀ e ∈ [(7, 1, (1 : Reg)), (8, 1, barrierWord 0 2 0), (0xA, 1, BitVec.ofNat 64 (2 ^ 62 + 1))],
      let w := syncWord (syncAt e.1 e.2.1 e.2.2) 47 65535
      opType e.1 = some (swType w) ∧ waitMet e.1 w (syA (syncD e.1 e.2.1)) w = true) ∧
    (let w := barrierWord 0 2 0;
      swType w = 2 ∧ bitsOf w.toNat 0 16 + 1 ≠ bitsOf w.toNat 16 16 ∧ swValid w = true) := by decide +kernel

/-- A message from core 1 to core 0, at the router of its destination. -/
def letter1 (b : Body) : Msg :=
  let m : Msg := { src := 1, srcSlot := 0, dst := 0, dstSlot := 0, body := b }
  { m with place := some (msgTo m * 8 + 4) }

/-- That message in flight. -/
def carrying1 (s : State) (b : Body) : State := { s with narrow := [letter1 b] }

theorem letter1_taken (s : State) (b : Body) : takeMsg (carrying1 s b) 0 = some (letter1 b, { s with narrow := [] }) := by
  have h : ∀ r : Nat, (r * 8 + 4) / 8 = r := fun r => by omega
  have e : msgHere (letter1 b) = true := by cases b <;> simp [msgHere, msgAt, msgTo, letter1, h]
  simp [takeMsg, carrying1, withoutMsg, e]

/-- A `sync.op` outstanding. -/
def outstanding (op : Nat) (remote retry : Bool) : SyncOut := { step := 0, tag := 0, op := op, remote := remote, result := 128, since := 0, retry := retry }

/-- One that waits parked at region 0. -/
def parked1 : Parked := { index := 0, op := 7, operand := 1, before := 0, core := 1, slot := 0, step := 0, tag := 9 }

theorem hyp_SyncOutcomes_messages :
    (∀ e ∈ [(0, 1), (7, 0)], let s := tweak (runs up 0) (fun v => { v with syncs := [outstanding e.1 false false] })
      takeMsg (carrying1 s (.syncResp 0 e.2 0)) 0 = some (letter1 (.syncResp 0 e.2 0), { s with narrow := [] }) ∧
      syncOf { s with narrow := [] } 0 0 0 = some (outstanding e.1 false false) ∧ twinCore s 0 = none) ∧
    (let s := setReg up 0 { Region.fresh with waits := [parked1] };
      takeMsg (carrying1 s (.cancel 0 0 9)) 0 = some (letter1 (.cancel 0 0 9), { s with narrow := [] }) ∧
      (regOf s 0).waits.any (fun p => p.core = 1 && p.slot = 0 && p.tag = 9) = true) :=
  ⟨fun e h => ⟨letter1_taken _ _, by
    simp only [List.mem_cons, List.not_mem_nil, or_false] at h
    rcases h with rfl | rfl <;> decide +kernel⟩, letter1_taken _ _, by decide +kernel⟩

theorem hyp_SyncOutcomes_timers :
    let s := { tweak (runs up 0) (fun v => { v with state := .blocked, syncs := [outstanding 7 false true] }) with
      clocks := { up.clocks with compute := [(0, 1700)], region := [(0, 10 * ticksPerMs)] } };
    ((slotOf s 0 0).syncs.find? (fun y => y.retry && windowOver (computeNow s 0) y.since (computeUs s 0))).isSome = true ∧
    (slotOf s 0 0).state = .blocked ∧ steady s = true ∧
    (let t := tweak s (fun v => { v with syncs := [outstanding 0 true false] });
      ((slotOf t 0 0).syncs.find? (fun y => y.remote && y.step = 0 && syncLate t 0 y)).isSome = true) := by decide +kernel

/-- An operand stream of one load of one block of MXINT8. -/
def operand : Stream := { Stream.fresh with
  bound := true, desc := BitVec.ofNat 1024 (0xA * 2 ^ 14 + 2 ^ 18 + 2 ^ 192 + 2 ^ 224 + 2 ^ 256 + 2 ^ 288) }

/-- Streams 0 and 1 bound to it. -/
def fed (v : Slot) : Slot := { v with strms := [(0, operand), (1, operand)] }

/-- The fields of an `mma` of one block, planned, its accumulator tile written at 4,096. -/
def mmaBits : List (Nat × Nat) :=
  [(10, 1), (11, 1), (16, 1), (20, 1), (64, 2 ^ 16 + 0xA * 2 ^ 21 + 0xA * 2 ^ 25 + 32 * 2 ^ 29), (160, 4096), (183, 1)]

/-- The fields of a `sumac` of one block, its class map written at 4,096, with ReLU. -/
def sumacBits : List (Nat × Nat) :=
  [(10, 1), (11, 1), (16, 1), (20, 1), (64, 2 ^ 16 + 0xA * 2 ^ 21 + 0xA * 2 ^ 25 + 32 * 2 ^ 29), (160, 4096), (384, 2 ^ 4)]

/-- The fields of an `epi` of the tile at 65,536 into FP32 at 131,072. -/
def epiBits : List (Nat × Nat) :=
  [(10, 1), (11, 1), (20, 1), (64, 2 ^ 16 + 0xA * 2 ^ 21 + 0xA * 2 ^ 25 + 32 * 2 ^ 29), (128, 65536), (160, 131072), (384, 0xC * 2 ^ 8)]

/-- The header of an accumulator tile at 65,536 of core 0. -/
def accHead (s : State) : State := withBytes s 65536 (mkHeader 2 0 false false false 64 64 0 0 0 0 33792)

theorem hyp_EngineSteps_taken :
    ∀ e ∈ [(1, mmaBits), (2, mmaBits), (3, sumacBits), (4, epiBits)], let d := stepOf ((0, e.1) :: e.2)
      let s := accHead (tweak (runs up d) fed)
      (if coreRuns s 0 then serveWaiting s 0 e.1 else none) = none ∧ fetches s 0 e.1 0 d = true ∧
      engBusy (engOf s (engineOf 0 (sdEngine d))) 0 0 d = false ∧ (engOf s (engineOf 0 (sdEngine d))).queue = [] ∧
      engCause s 0 0 d = none ∧ planFault d = false := by decide +kernel

theorem hyp_EngineSteps_refused :
    ∀ op ∈ [1, 2, 3, 4], let d := stepOf [(0, op)]
      let s := runs up d
      let busy := setEng s 0 { Engine.fresh with waiting := some { core := 0, slot := 0, step := 0, desc := d } }
      (if coreRuns s 0 then serveWaiting s 0 op else none) = none ∧ fetches s 0 op 0 d = true ∧ (engCause s 0 0 d).isSome = true ∧
      (if coreRuns busy 0 then serveWaiting busy 0 op else none) = none ∧ fetches busy 0 op 0 d = true ∧
      engBusy (engOf busy (engineOf 0 (sdEngine d))) 0 0 d = true := by decide +kernel

/-- An accumulation of one planned `mma` whose K-steps are done. -/
def accDone : OpenAcc := { newAcc { core := 0, slot := 0, step := 0, desc := stepOf ((0, 1) :: mmaBits) } 0 with
  more := false, used := [⟨1, 0, 1, 1⟩] }

theorem hyp_EngineSteps_ends :
    (let s := setEng (runs up 0) 0 { Engine.fresh with acc := some accDone, ended := true };
      coreRuns s (coreOfEngine 0) = true ∧ (engOf s 0).acc = some accDone ∧ (engOf s 0).ended = true ∧ accDone.again = false ∧
      checksPending s accDone = false ∧ kCountWrong accDone = false ∧ (engOf s 0).defect = 0 ∧ sdOpcode accDone.first.desc ≠ 3 ∧
      planReduce (sdPlan accDone.first.desc) = false ∧ sumsHold accDone (tileOf (engOf s 0) accDone.tile).words = true ∧
      (liveWords accDone (tileOf (engOf s 0) accDone.tile).words).any wordOver = false ∧ accDone.checked = false ∧
      (engOf s 0).replays = []) ∧
    (let s := setEng (runs up 0) 0 { Engine.fresh with tile0 := { words := [], done := some accDone } };
      coreRuns s (coreOfEngine 0) = true ∧ doneTile (engOf s 0) = some (0, accDone) ∧ plantedAt s 7 2 accDone.first.core = false ∧
      sdOutMode accDone.first.desc = 1 ∧ (slotOf s 0 0).primary = none ∧ (slotOf s 0 0).twin = none) := by decide +kernel

/-- An engine whose first load of a planned `mma` of one block is whole in half 0. -/
def loading : Engine :=
  let w : Accepted := { core := 0, slot := 0, step := 0, desc := stepOf ((0, 1) :: mmaBits) }
  { Engine.fresh with waiting := some w, acc := some (newAcc w 0), half0 := { Half.fresh with aDone := true, bDone := true } }

theorem hyp_EngineSteps_loads : let s := setEng (runs up 0) 0 loading
    coreRuns s (coreOfEngine 0) = true ∧ (engOf s 0).acc.isSome = true ∧ (wantedLoad (engOf s 0)).isSome = true ∧
    (let h := halfOf (engOf s 0) (engOf s 0).nextHalf; h.aDone = true ∧ h.bDone = true ∧ h.held = false ∧ h.poison = false) ∧
    ∀ u ∈ (wantedLoad (engOf s 0)).toList, ∀ a ∈ (engOf s 0).acc.toList, sdPreload a.first.desc = 0 ∧ a.pending = 0 ∧
      etOutside (accEt (withEt a (loadOf s 0 0 false (sdPlan a.first.desc) u.1.k))) = false := by decide +kernel

/-- A vector stream of one row of one FP32 element, of a form. -/
def rowStream (form : Nat) : Stream := { Stream.fresh with
  bound := true, desc := BitVec.ofNat 1024 (form + 0xC * 2 ^ 14 + 2 ^ 192 + 2 ^ 224 + 2 ^ 256 + 2 ^ 288) }

/-- The slot's streams 0 to 3 in, 4 to 7 out. -/
def rows (v : Slot) : Slot := { v with
  strms := (List.range 4).map (fun i => (i, rowStream 1)) ++ (List.range 4).map (fun i => (4 + i, rowStream 2)) }

theorem hyp_VectorCopyAndStreamSteps_vector :
    (∀ op ∈ [0x10, 0x11], let d := stepOf [(0, op), (192, 65536)]
      let s := runs up d
      fetches s 0 op 0 d = true ∧ corePoison s 0 (vkProg d) (64 + 4 * vkProgLen d) = false ∧ (vecCause s 0 0 d).isSome = true) ∧
    (let d := stepOf [(0, 0x10), (8, 1), (16, 0x3210), (32, 0x7654 % 256), (64, 1), (96, 1)];
      let s := tweak (runs up d) rows;
      fetches s 0 0x10 0 d = true ∧ vecCause s 0 0 d = none) ∧
    (let d := stepOf [(0, 0x11), (16, 0x3210), (32, 0x54), (64, 1), (96, 1), (192, 65536)];
      let s := withBytes (withBytes (tweak (runs up d) rows) 65536 head64) 65568 (bytesOf 4 (1 + 14 * 2 ^ 8));
      fetches s 0 0x11 0 d = true ∧ corePoison s 0 (vkProg d) (64 + 4 * vkProgLen d) = false ∧ vecCause s 0 0 d = none) := by decide +kernel

theorem hyp_VectorCopyAndStreamSteps_copies :
    (let d := stepOf [(0, 0x20), (13, 64), (192, 1024)];
      let s := withBytes (runs up d) 1024 (bytesOf 16 (2 ^ 64));
      fetches s 0 0x20 0 d = true ∧ mgBad s 0 d = false) ∧
    (∀ op ∈ [0x30, 0x31], let d := stepOf [(0, op), (16, 1024)]
      let s := withBytes (runs up d) 1024 (bytesOf 128 (2 ^ 5 + 2 ^ 9 + 8 * 2 ^ 192 + 2 ^ 224 + 2 ^ 256 + 2 ^ 288 + 2 ^ 320))
      let cd := recordOf 1024 (coreRead s 0 (csDesc d) 128)
      fetches s 0 op 0 d = true ∧ csReserved d = false ∧ csStream d = 0 ∧ csDesc d % 128 = 0 ∧ csDesc d + 128 ≤ coreBytes ∧
      corePoison s 0 (csDesc d) 128 = false ∧ (jobsOf s (.coreCopy 0)).length < 8 ∧ (jobsOf s (.hubCopy (clusterOf 0))).length < 8 ∧
      copyCause cd = none ∧ (copyCause 0).isSome = true) := by decide +kernel

theorem hyp_VectorCopyAndStreamSteps_streams :
    (let d := stepOf [(0, 0x34), (8, 15), (16, 1024)];
      let s := withBytes (runs up d) 1024 (bytesOf 128 (0xA * 2 ^ 14 + 2 ^ 18 + 2 ^ 192 + 2 ^ 224 + 2 ^ 256 + 2 ^ 288));
      let t := tweak s (fun v => { v with strms := [(15, { operand with marks := [(0, 0)] })] });
      fetches s 0 0x34 0 d = true ∧ csReserved d = false ∧ csDesc d % 128 = 0 ∧ stBad (recordOf 1024 (coreRead s 0 (csDesc d) 128)) = false ∧
      streamFree s 0 0 15 = true ∧ stForm operand.desc ≠ 2 ∧ fetches t 0 0x34 0 d = true ∧ streamFree t 0 0 15 = false) ∧
    (let d := stepOf [(0, 0x35), (8, 15)];
      fetches (runs up d) 0 0x35 0 d = true ∧ csReserved d = false ∧ csDesc d = 0 ∧ streamFree (runs up d) 0 0 15 = true) ∧
    (let s := tweak (runs up 0) (fun v => { v with strms := [(15, { operand with checks := [false] })] });
      15 < 16 ∧ (strmOf (slotOf s 0 0) 15).checks = [false] ∧ plantedAt s 5 6 0 = false) ∧
    (let l : Leaf := { space := 0, off := 0, size := 0, entry := mkLeaf true true false false 0 0 };
      let s := setReg { up with xlat := { up.xlat with leaves := [l] } } 0 { Region.fresh with fills := [{ line := leafPhys l 0 / 512, waiting := [] }] };
      (regOf s 0).fills.find? (fun f => f.line = leafPhys l 0 / 512) = some { line := leafPhys l 0 / 512, waiting := [] } ∧
      lineShared s (leafPhys l 0 / 512) = true) := by decide +kernel

/-! ### The mesh and the narrow network -/

/-- A packet of a kind. -/
def pkt (kind dest : Nat) : Packet := sealed
  { dest := dest, src := 1, vc := 0, flagged := false, kind := kind, tbl := false, pseq := 0, fepoch := false, fwait := 0, rtag := 0
    count := 8, phys := 0, ext := 0, payload := [], poison := [], unit := .furelo, cached := false, answers := 0, check := 0, seen := 0
    noted := false }

/-- A flagged packet that waits for n others. -/
def flaggedPkt (n : Nat) : Packet := sealed { pkt 5 0 with flagged := true, fwait := n }

/-- `up` with a packet in router 0's input port 4, and with the hold buffer of endpoint 0 full or not. -/
def routing (p : Packet) (full : Bool) : State :=
  setWire (if full then setHeld up 0 (List.replicate 4 (flaggedPkt 1)) else up) 0 4 [p]

theorem hyp_MeshHops_local : ∀ e ∈ [(pkt 0 0, false), (flaggedPkt 0, false), (flaggedPkt 1, true)], let s := routing e.1 e.2
    Alone s 0 4 e.1 ∧ 4 ≤ codeOf s 0 e.1 ∧ codeOf s 0 e.1 < 8 ∧ stallsAt s e.1 = e.2 ∧ e.1.noted = false := by
  unfold Alone; decide +kernel

theorem hyp_MeshHops_nowhere : ∀ n ∈ [0, 1, 4, 5, 7], let p := pkt n 3840
    Alone (routing p false) 0 4 p ∧ 8 ≤ codeOf (routing p false) 0 p ∧ p.dest < 2 ^ 14 := by unfold Alone; decide +kernel

/-- `routing` a packet to router 1, the link to it fenced, or its buffer full. -/
def onward (out full : Bool) : State :=
  let s := routing (pkt 0 1) false
  let c := codeOf s 0 (pkt 0 1)
  let s := if full then setWire s 1 (portFacing c) [pkt 7 1, pkt 0 1, pkt 0 1] else s
  if out then { s with caps := { s.caps with linksOut := [linkOf 0 c] } } else s

theorem hyp_MeshHops_onward : ∀ e ∈ [(false, false), (true, false), (false, true)], let s := onward e.1 e.2
    let c := codeOf s 0 (pkt 0 1)
    Alone s 0 4 (pkt 0 1) ∧ c < 4 ∧ neighbour 0 c = some 1 ∧ routerUp s 1 = true ∧ linkOut s (linkOf 0 c) = e.1 ∧
    vcRoom s 0 1 (portFacing c) 0 = !e.2 := by unfold Alone; decide +kernel

theorem hyp_MeshHops_checks : let s := setWire up 0 2 [pkt 0 0]
    routerUp s 0 = true ∧ wire s 0 2 = [pkt 0 0] ∧ neighbour 0 2 = some 80 ∧ arrivedWhole s 0 2 false (pkt 0 0) = false ∧
    arrivedWhole s 0 2 true (pkt 0 0) = true ∧ look s.mesh.tries (0 * 8 + 2) 0 + 1 < 8 := by decide +kernel

/-- `up` with a packet handed to endpoint 0. -/
def at0 (p : Packet) : State := setArrivals up 0 [p]

theorem hyp_MeshHops_arrivals :
    (∀ n ∈ [0, 1, 5], ∃ t, Arrived (at0 (pkt n 0)) 0 (fun x => x.kind = n && !x.flagged && x.vc ≠ 5) (pkt n 0) t) ∧
    (∀ n ∈ [2, 3, 6, 7], ∃ t, Arrived (at0 (pkt n 0)) 0 (fun x => x.kind = n) (pkt n 0) t) := by
  refine ⟨fun n h => ?_, fun n h => ?_⟩ <;> simp only [List.mem_cons, List.not_mem_nil, or_false] at h
  · rcases h with rfl | rfl | rfl <;> exact ⟨_, rfl⟩
  · rcases h with rfl | rfl | rfl | rfl <;> exact ⟨_, rfl⟩

/-- A packet of VC5 with a sequence number. -/
def ordered (n : Nat) : Packet := { pkt 5 0 with vc := 5, pseq := n }

theorem hyp_EndpointArrivals_packets :
    (∃ t, Arrived (at0 (flaggedPkt 0)) 0 (fun x => x.flagged) (flaggedPkt 0) t ∧ flaggedMet t (flaggedPkt 0) = true) ∧
    (∃ t, Arrived (at0 (flaggedPkt 1)) 0 (fun x => x.flagged) (flaggedPkt 1) t ∧ flaggedMet t (flaggedPkt 1) = false ∧ (heldAt t 0).length < 4) ∧
    (∃ t, Arrived (setHeld (at0 (flaggedPkt 1)) 0 (List.replicate 4 (flaggedPkt 1))) 0 (fun x => x.flagged) (flaggedPkt 1) t ∧
      flaggedMet t (flaggedPkt 1) = false ∧ 4 ≤ (heldAt t 0).length) ∧
    (heldAt (setHeld up 0 [flaggedPkt 0]) 0).find? (flaggedMet (setHeld up 0 [flaggedPkt 0])) = some (flaggedPkt 0) ∧
    (∃ t, Arrived (at0 (ordered 0)) 0 (fun x => x.vc = 5) (ordered 0) t ∧ (ordered 0).pseq = (pairDst t 1 0).pseq) ∧
    (∃ t, Arrived (at0 (ordered 1)) 0 (fun x => x.vc = 5) (ordered 1) t ∧ (ordered 1).pseq ≠ (pairDst t 1 0).pseq ∧
      (reorderAt t 0).length < 16) ∧
    (arrivals (at0 (pkt 4 0)) 0).find? (fun x => decide (x.kind = 4)) = some (pkt 4 0) :=
  ⟨⟨_, rfl, by decide +kernel⟩, ⟨_, rfl, by decide +kernel, by decide +kernel⟩, ⟨_, rfl, by decide +kernel, by decide +kernel⟩,
    by decide +kernel, ⟨_, rfl, by decide +kernel⟩, ⟨_, rfl, by decide +kernel, by decide +kernel⟩, by decide +kernel⟩

/-- The message of `carrying1` can be taken, and p holds of it and the state without it. -/
theorem taken (s : State) (b : Body) {p : Msg → State → Prop} (h : p (letter1 b) { s with narrow := [] }) :
    ∃ m t, takeMsg (carrying1 s b) 0 = some (m, t) ∧ m.body = b ∧ p m t := ⟨_, _, letter1_taken s b, rfl, h⟩

theorem hyp_EndpointArrivals_messages : ∀ b ∈ [Body.accept 0 0 0, .abort 0 0 0, .replayRequest 0 0 0 3],
    ∃ m t, takeMsg (carrying1 up b) 0 = some (m, t) ∧ m.body = b ∧ True := fun b _ => taken up b trivial

theorem hyp_EndpointArrivals_engines :
    (∃ m t, takeMsg (carrying1 (setEng up 0 { Engine.fresh with sent := [accDone] }) (.accept 0 0 0)) 0 = some (m, t) ∧
      m.body = .accept 0 0 0 ∧ (sentIn (engOf t 0) 0 0 = some accDone ∧ engineTwins t 0 = [0])) ∧
    (∃ m t, takeMsg (carrying1 (setEng up 0 { Engine.fresh with sent := [accDone], acc := some accDone }) (.replayRequest 0 0 0 3)) 0 =
        some (m, t) ∧ m.body = .replayRequest 0 0 0 3 ∧
      ((sentIn (engOf t 0) 0 0).isSome = true ∧ (engOf t 0).acc.isSome = true ∧ engineTwins t 0 = [0])) :=
  ⟨taken _ _ (by decide +kernel), taken _ _ (by decide +kernel)⟩

/-- The mesh in a stage of its rebuild. -/
def rebuilding (n : Nat) : State := { up with mesh := { up.mesh with rebuild := n } }

theorem hyp_RouteTablesSwitch : up.mesh.rebuild < 2 ∧ (rebuilding 1).mesh.rebuild < 2 ∧ (rebuilding 2).mesh.rebuild = 2 ∧
    (rebuilding 2).mesh.switched.contains 0 = false ∧ epServes (rebuilding 2) 0 = true ∧ (rebuilding 3).mesh.rebuild = 3 ∧
    copyGone (rebuilding 3) (rebuilding 3).mesh.active = true ∧ (rebuilding 3).mesh.restart = false ∧ up.mesh.rebuild ≠ 3 := by
  decide +kernel

/-- `up` with class 0 of core 0 open for slot 0 under epoch 1. -/
def opened : State := setCore up 0 { Core.fresh with
  slots := [(0, { Slot.fresh with state := .ready })], ends := [(0, { Endpoint.fresh with epoch := 1, isOpen := true })] }

theorem hyp_NarrowMessages_users :
    (∃ m t, takeMsg (carrying1 opened (.user 0xFFF 1 [] false)) 0 = some (m, t) ∧ m.body = .user 0xFFF 1 [] false ∧
      (let e := endOf t m.dst (0xFFF / 2 ^ 12); coreReachable t m.dst = true ∧ e.isOpen = true ∧ e.epoch = 1 ∧ e.parked = false)) ∧
    (∃ m t, takeMsg (carrying1 opened (.user 0xFFFF 1 [] false)) 0 = some (m, t) ∧ m.body = .user 0xFFFF 1 [] false ∧
      (let e := endOf t m.dst (0xFFFF / 2 ^ 12);
        coreReachable t m.dst = true ∧ (e.isOpen && e.epoch = 1) = false ∧
        savedSlot t m.dst (fun co k _ => let e := look co.ends (0xFFFF / 2 ^ 12) .fresh; e.isOpen && e.epoch = 1 && e.slot = k) = none)) :=
  ⟨taken _ _ (by decide +kernel), taken _ _ (by decide +kernel)⟩

theorem hyp_NarrowMessages_lanes :
    (∃ m t, takeMsg (carrying1 opened (.orphan 0 1 0)) 0 = some (m, t) ∧ m.body = .orphan 0 1 0 ∧
      ((slotOf t m.dst m.dstSlot).state ≠ .empty ∧ (slotOf t m.dst m.dstSlot).gen = 0)) ∧
    (∃ m t, takeMsg (carrying1 opened (.openGrant 15 15 127)) 0 = some (m, t) ∧ m.body = .openGrant 15 15 127 ∧ True) ∧
    (∃ m t, takeMsg (carrying1 opened (.credit 15 0 1)) 0 = some (m, t) ∧ m.body = .credit 15 0 1 ∧
      (outOf (slotOf t m.dst m.dstSlot) 15).gen = 0) ∧
    (∃ m t, takeMsg (carrying1 opened (.credit 15 1 1)) 0 = some (m, t) ∧ m.body = .credit 15 1 1 ∧
      (outOf (slotOf t m.dst m.dstSlot) 15).gen ≠ 1) ∧
    (∃ m t, takeMsg (carrying1 (tweak opened (fun v => { v with image := BitVec.ofNat 1536 ((1 + 2 ^ 7) * 2 ^ 256) })) (.openRequest 0 0)) 0 =
        some (m, t) ∧ m.body = .openRequest 0 0 ∧ isProducer (slotOf t m.dst m.dstSlot) 0 m.src m.srcSlot 0 = true) :=
  ⟨taken _ _ (by decide +kernel), taken _ _ trivial, taken _ _ (by decide +kernel), taken _ _ (by decide +kernel), taken _ _ (by decide +kernel)⟩

/-- Slot 0 with an extension reserve and a check of step 0 outstanding. -/
def checking (rerun : Bool) : State := tweak opened (fun v => { v with
  image := BitVec.ofNat 1536 (2 ^ 175), twinWait := [{ step := 0, crc := 9, since := 0, agreed := false, rerun := rerun }] })

theorem hyp_StallsTwinsAndWatchdogs_messages :
    (∀ b ∈ [Body.stall 1 7 [0], .progress 1 7], ∃ m t, takeMsg (carrying1 sliced b) 0 = some (m, t) ∧ m.body = b ∧ True) ∧
    (∃ m t, takeMsg (carrying1 (checking false) (.extend 15)) 0 = some (m, t) ∧ m.body = .extend 15 ∧
      ((slotOf t m.dst m.dstSlot).state ≠ .empty ∧ mayArm (slotOf t m.dst m.dstSlot) = true)) ∧
    (∀ crc ∈ [(9 : BitVec 32), 8], ∃ m t, takeMsg (carrying1 (checking false) (.twin 0 crc)) 0 = some (m, t) ∧ m.body = .twin 0 crc ∧
      ((slotOf t m.dst m.dstSlot).twinWait.find? (fun w => w.step = 0 && !w.agreed && !w.rerun)).isSome = true) ∧
    (∃ m t, takeMsg (carrying1 sliced (.watchdog 1 7 true false)) 0 = some (m, t) ∧ m.body = .watchdog 1 7 true false ∧
      (confOf t 1 7).counted < 8 * ticksPerMs) :=
  ⟨fun b _ => taken _ b trivial, taken _ _ (by decide +kernel), fun crc h => taken _ _ (by
      simp only [List.mem_cons, List.not_mem_nil, or_false] at h
      rcases h with rfl | rfl <;> decide +kernel), taken _ _ (by decide +kernel)⟩

/-- Configured region 7 with an open stall window and its watchdog at its limit. -/
def stalling : State :=
  let s := setConf (config7 .blocked group7) 1 7 { Conf.fresh with window := some 0, counted := 8 * ticksPerMs }
  { s with clocks := { s.clocks with mesh := 65536 } }

theorem hyp_StallsTwinsAndWatchdogs_timers :
    (confOf stalling 1 7).window = some 0 ∧ windowBarred stalling 1 7 = false ∧ confSlots stalling 1 7 ≠ [] ∧
    0 + 65536 ≤ stalling.clocks.mesh ∧ 8 * ticksPerMs ≤ (confOf stalling 1 7).counted ∧
    ((slotOf (checking true) 0 0).twinWait.find? (fun w => !w.agreed &&
      (w.rerun || windowOver (regionNow (checking true) (regionOf 0)) w.since (100 * ticksPerUs)))).any (·.rerun) = true ∧
    (let s := { opened with sup := { opened.sup with checkDefault := 1 } };
      checked s 0 = true ∧ activeState (slotOf s 0 0).state = true) := by decide +kernel

/-! ### Translation, time slices, re-placement -/

/-- A walk of a core's copy engine from a root table in stack 0. -/
def walk0 : Walk := { unit := .coreCopy 0, addr := 0, write := false, root := tableBase up 0, retried := false }

/-- It, where the table's first entry is e. -/
def walking (e : Reg) : State :=
  { sliced with
    xlat := { Translation.atReset with
      windows := [(0, { owner := 1, root0 := tableBase up 0, root1 := 0, second := false, folded := [] })]
      walks := [walk0] }
    mem := writeMem sliced.mem (tableBase up 0) (bytesOf 8 e.toNat) }

/-- `walking` once the walk has left the list. -/
def walked (e : Reg) : State := bump { walking e with xlat := { (walking e).xlat with walks := [] } } ctrRegionWalks 0 1

theorem hyp_TranslationAndTimeSlices_walks :
    tableBase up 0 ≠ 0 ∧ (walking 0).xlat.walks[0]? = some walk0 ∧ walk0.root ≠ 0 ∧ unitChecked (walking 0) walk0.unit = false ∧
    unitChecked { walking 0 with slices := [(1, { slice0 with mode := 1 })] } walk0.unit = true ∧
    walkFrom (walked (mkLeaf true false false false 0 0)) (tableBase up 0) 0 0 =
      .leaf { space := 0, off := 0, size := 2, entry := mkLeaf true false false false 0 0 } ∧
    (windowOf (walked (mkLeaf true false false false 0 0)) 0 0).any (fun x => activeRoot x = tableBase up 0) = true ∧
    walkFrom (walked 0) (tableBase up 0) 0 0 = .none_ := by decide +kernel

/-- A page of tier port 7 under migration to stack 0. -/
def moving1 : Migration :=
  { leaf := { space := 2, off := 0, size := 0, entry := mkLeaf true false true true 7 0 }
    target := { space := 2, off := 0, size := 0, entry := mkLeaf true false false false 0 0 }, waiting := [], owner := 1 }

theorem hyp_TranslationAndTimeSlices_migration :
    let s := setTier { sliced with xlat := { Translation.atReset with leaves := [moving1.leaf], migrating := [moving1] } } 7
      { TierPort.fresh with linkUp := true, devices := [(0, 1)] }
    s.xlat.migrating[0]? = some moving1 ∧ s.xlat.overrides.length < 64 ∧ s.xlat.leaves.contains moving1.leaf = true ∧
    tierHolds s (ptLoc moving1.leaf.entry.toNat % 8) (ptFrame moving1.leaf.entry.toNat) = true ∧ look? s.slices 1 = some slice0 := by
  decide +kernel

/-- The group of configured region 7 while it is being saved, to the slice's pool or to one nothing maps. -/
def saving7 (p : Option Nat) : Group := { group7 with image := .saving, pool := p }

theorem hyp_TranslationAndTimeSlices_saves :
    (∀ p ∈ [(none, true), (some (2 ^ 40), false)], let s := config7 .ready (saving7 p.1)
      (groupsOf s 1)[0]? = some (saving7 p.1) ∧ (saving7 p.1).image = .saving ∧ (saving7 p.1).cores.any (coreBusy s) = false ∧
      packetsWithin s (saving7 p.1) = false ∧ (saving7 p.1).cores.all (imageReachable s (saving7 p.1)) = p.2) ∧
    (let g := { group7out with image := .restoring };
      (groupsOf (config7 .empty g) 1)[0]? = some g ∧ g.image = .restoring ∧ g.cores.all (imageGood (config7 .empty g) g) = true) ∧
    (let g := { group7 with image := .restoring, resident := false, pool := some (2 ^ 40) };
      (groupsOf (config7 .empty g) 1)[0]? = some g ∧ g.cores.all (imageGood (config7 .empty g) g) = false) := by decide +kernel

/-- A group of configured region 8 saved out of core 0 by a time slice, its slot READY. -/
def group8out : Group := { Group.fresh [8] [0] [(0, 1)] 0 with
  resident := false, image := .saved, saved := [(0, { Core.fresh with slots := [(0, { Slot.fresh with state := .ready })] })] }

theorem hyp_TranslationAndTimeSlices_slices :
    look? up.slices 1 = none ∧ ∀ b ∈ [true, false], let l : Slice := { slice0 with periodMs := 1, groups := [group7, group8out] }
      let s := atTick { config7 .running group7 with slices := [(1, l)] } (if b then ticksPerMs else 0)
      look? s.slices 1 = some l ∧ sliceDue s l group7 = b ∧ sliceDue s l group8out = false := by decide +kernel

/-- A group saved out with core 0 fenced under a rehearsed class. -/
def hurt : Group := { group7 with resident := false, image := .saved, affected := [0], halted := true }

/-- Its slice, with the cores of a list out of service. -/
def hurting (out : List Nat) : State :=
  let s := config7 .empty hurt
  { s with caps := { s.caps with coresOut := out }
           nv := { s.nv with map := [{ element := 1, origin := 1, cause := 0x81, id := 0, stampRegion := 0, stamp := 0, sig := [] }] } }

/-- `hurting` with the clove record of the re-placement written. -/
def hurtClove (out : List Nat) : State := writeClove (hurting out) 0 7 5 0x81 0 0 false

theorem hyp_TranslationAndTimeSlices_replacement :
    (groupsOf (hurting [0]) 1)[0]? = some hurt ∧ hurt.affected ≠ [] ∧ hurt.resident = false ∧
    substitutes (hurtClove (regionCores 0)) 1 hurt.affected [] = none ∧
    (substitutes (hurtClove [0]) 1 hurt.affected []).isSome = true ∧ healForbids (hurtClove [0]) 1 hurt = false ∧
    rehearsed (hurtClove [0]) hurt = true ∧
    hurt.saved.all (fun c => c.2.slots.all (fun v => decide ((mapReloc [(0, 1)] v.2.reloc).length ≤ 80))) = true := by decide +kernel

/-! ### Fabric, DOE, tier ports -/

/-- A clean burst of member 1 of module 5, as five lanes show it. -/
def burst1 : List Nat := let b := 0xA5 + 2 ^ 8 + 5 * 2 ^ 16; List.replicate 5 (b + crc32c (bytesOf 60 b) * 2 ^ 480)

/-- `up` with port 15 joined as member 0 of a table of two, its counter at n. -/
def fabric1 (n : Nat) (p : RolPort → RolPort) : State :=
  setPort { up with clocks := { up.clocks with port := [(15, n)] } } 15
    (p { RolPort.fresh with joined := true, edgeSeen := true, table := [(0, 0), (1, 5)] })

theorem hyp_FabricSchedule_windows :
    (let s := fabric1 4450 id;
      portLive (portOf s 15) = true ∧ (portOf s 15).roster = false ∧ (portOf s 15).await = none ∧
      (portOf s 15).idleEdge + 4450 ≤ portNow s 15 ∧ cleanSenders (windowSeen s 15 32 [] 0 0).1 = [] ∧
      cleanSenders (windowSeen s 15 32 [burst1] 0 0).1 = [1] ∧ 1 ≠ (portOf (windowSeen s 15 32 [burst1] 0 0).2 15).member) ∧
    (let s := fabric1 1650 (fun p => { p with roster := true, named := some 1 });
      (portOf s 15).named = some 1 ∧ portLive (portOf s 15) = true ∧ (portOf s 15).roster = true ∧ (portOf s 15).await = none ∧
      (portOf s 15).idleEdge + 1650 ≤ portNow s 15) ∧
    (let s := fabric1 313 (fun p => { p with await := some (1, 0) });
      (portOf s 15).await = some (1, 0) ∧ 0 + 313 ≤ portNow s 15 ∧ (portOf s 15).joined = true ∧ (portOf s 15).edgeSeen = true) ∧
    (let s := fabric1 (100 * 1250) (fun p => { p with edgeSeen := false });
      (portOf s 15).joined = true ∧ (portOf s 15).edgeSeen = false ∧ (portOf s 15).sending = none ∧
      (portOf s 15).joinAt + 100 * 1250 ≤ portNow s 15) := by decide +kernel

/-- The header of a train of member 1 of module 5, for member 0 or for none, with its check. -/
def trainHead (m : Nat) : List Byte := let l := bytesOf 224 (1 + 2 ^ 8 + 5 * 2 ^ 16 + m * 2 ^ 64); l ++ bytesOf 4 (crc32c l)

theorem hyp_FabricSchedule_trains :
    (∀ e ∈ [(1, false), (1, true), (0, false)],
      let s := fabric1 0 id
      let s := if e.2 then { s with fabric := { s.fabric with waitRows := [(15, 1, 0, row0), (15, 1, 1, row0)] } } else s
      let head := natOf ((trainHead e.1).take 256)
      (portOf s 15).joined = true ∧ (portOf s 15).quiet = false ∧ headDecodes (trainHead e.1) head = true ∧
      stranger (countCodewords s 15 (trainHead e.1) [] 0) (portOf s 15) (bitsOf head 32 32) (bitsOf head 8 5) (bitsOf head 16 14) = false ∧
      bitsOf head 8 5 ≠ (portOf s 15).member ∧ bitAt (bitsOf head 64 32) (portOf s 15).member = decide (e.1 = 1) ∧
      receiverFull s 15 = e.2 ∧ s.sup.resetting = false) ∧
    (let s := fabric1 (250 * 1250) (fun p => { p with owed := [(1, 0)] });
      (portOf s 15).owed.any (fun o => decide (o.2 + 250 * 1250 ≤ portNow s 15)) = true) ∧
    (let s := fabric1 (2 * 1250) (fun p => { p with queue := [row0] });
      (portOf (dropLost s 15) 15).queue ≠ [] ∧ (portOf (dropLost s 15) 15).joined = true ∧
      (portOf (dropLost s 15) 15).queueAt + 2 * 1250 ≤ portNow (dropLost s 15) 15) ∧
    (let x : Train := { seqs := [(1, 0)], rows := [], flagged := false, strict := false, first := 0, last := [], tries := [], waiting := [1] };
      let s := fabric1 (4000 * 1250) (fun p => { p with retained := [x] });
      (∃ x ∈ (portOf s 15).retained, x.waiting.contains 1 = true ∧ x.first + 4000 * 1250 ≤ portNow s 15) ∧
      look x.last 1 0 + 500 * 1250 ≤ portNow s 15 ∧ look? x.seqs 1 = some 0) ∧
    (let s := fabric1 (100000 * 1250) (fun p => { p with cwAll := 10 ^ 6, cwBad := 2 }); portFails (portOf s 15) (portNow s 15) = true ∧
      portEnabled s.fuses.ordering 15 = true ∧ s.nv.fenceBits.contains ⟨5, 15⟩ = false) ∧
    (let s := { atTick up (50 * ticksPerUs) with fabric := { up.fabric with e2eIn := [(5, { applied := 1, unacked := 1, since := 0, via := 0 })] } };
      look? s.fabric.e2eIn 5 = some { applied := 1, unacked := 1, since := 0, via := 0 } ∧ windowOver s.clocks.sup 0 (50 * ticksPerUs) = true) := by
  decide +kernel

/-- An SPDM exchange past its negotiation. -/
def negotiated : State := { up with hp := { up.hp with doe := { up.hp.doe with vca := [0], negotiated := true, completed := some [1] } } }

theorem hyp_DoeResponses :
    (∀ n ∈ [0, 1, 2, 3], ((doeObjects up)[n]?).isSome = true) ∧
    (let s := { up with hp := { up.hp with doe := { up.hp.doe with vca := [0] } } }; s.hp.doe.vca.isEmpty = false ∧ s.hp.doe.negotiated = false) ∧
    negotiated.hp.doe.negotiated = true ∧ provisioned negotiated = true ∧ ((cdatHeader up :: cdatEntries up)[0]?).isSome = true ∧
    bitsOf (1 : BitVec 64).toNat 16 48 = 0 ∧ bitsOf (1 : BitVec 64).toNat 0 8 = 1 ∧ bitsOf (1 : BitVec 64).toNat 8 8 = 0 ∧
    negotiated.hp.doe.completed = some [1] ∧ up.hp.doe.completed = none :=
  ⟨fun n h => by simp only [List.mem_cons, List.not_mem_nil, or_false] at h; rcases h with rfl | rfl | rfl | rfl <;> rfl, by decide +kernel,
    by decide +kernel, by decide +kernel, rfl, by decide +kernel, by decide +kernel, by decide +kernel, by decide +kernel, by decide +kernel⟩

theorem hyp_DoeResponses_chain : 0 < (spdmChain negotiated).length := by
  unfold spdmChain
  simp only [List.length_append, length_bytes]
  omega

/-- A request of id 4, sent once or twice. -/
def req4 (again : Bool) : TierReq := { id := 4, since := 0, again := again, packet := pkt 0 0, data := [], poison := [] }

/-- `up` with a device of 1 GiB on tier port 7 and a request for it, sent once or twice. -/
def tiered (again : Bool) : State := setTier { up with clocks := { up.clocks with die := [(3, ticksPerMs)] } } 7
  { TierPort.fresh with linkUp := true, devices := [(0, 1)], reqs := [req4 again] }

theorem hyp_TierPortEvents :
    (tierOf (tiered false) 7).linkUp = true ∧ (tiered false).caps.tiersOut.contains 7 = false ∧
    tierEnabled (tiered false).fuses.ordering 7 = true ∧ (tierOf (tiered false) 7).fenced = false ∧
    (tiered false).nv.fenceBits.contains ⟨6, 7⟩ = false ∧
    ((tierOf (tiered false) 7).devices.filter (fun d => d.2 ≠ 0)).length < 8 ∧ 1 + 4095 ≤ 4096 ∧
    (tierOf (tiered false) 7).devices[0]? = some (0, 1) ∧
    (∀ b ∈ [true, false], (tierOf (tiered b) 7).reqs.find? (fun q => q.id = 4) = some (req4 b)) ∧
    windowOver (look (tiered true).clocks.die (dieOfTier 7) 0) 0 ticksPerMs = true := by decide +kernel

/-! ### Health, shedding, resets -/

theorem hyp_HealthEvents_beats :
    up.sup.alive = true ∧ regionExists up 47 = true ∧ shedOf up 47 ≠ .dark ∧ plantedAt up 0x10 9 47 = false ∧
    up.sup.ctrlHalted.contains 47 = false ∧
    (let s := atTick { up with sup := { up.sup with beat := [(47, 0)] } } (90 * ticksPerMs);
      s.nv.fenceBits.contains (elCtrl 47) = false ∧ look? s.sup.beat 47 = some 0 ∧ 0 + 90 * ticksPerMs ≤ s.clocks.sup) ∧
    (atTick up (100 * ticksPerMs)).sup.beatSent + 100 * ticksPerMs ≤ (atTick up (100 * ticksPerMs)).clocks.sup ∧
    (atTick up ticksPerS).sup.teleSent + ticksPerS ≤ (atTick up ticksPerS).clocks.sup := by decide +kernel

theorem hyp_HealthEvents_patrol :
    stackExists up 95 = true ∧ shedOf up (regionOfStack 95) ≠ .dark ∧ up.caps.stacksOut.contains 95 = false ∧
    (let s := { up with clocks := { up.clocks with region := [(47, 24 * ticksPerHour)] } };
      (regOf s 47).patrolAt + 24 * ticksPerHour ≤ regionNow s 47 ∧
      (regionStacks 47).any (fun k => !(s.caps.stacksOut.contains k) && !((regOf s 47).patrolOk.contains k)) = true) := by decide +kernel

/-- `up` with an anise pack, a pass of region 47 running or not, and a reset running or not. -/
def packed (run : Option Nat) (l : List Reset) : State :=
  { up with nv := { up.nv with packs := [(0, ([], 0))] }, sup := { up.sup with aniseRun := run, resets := l } }

theorem hyp_HealthEvents_anise :
    (∀ l ∈ [[], [reset2]], regionExists (packed none l) 47 = true ∧ regionsRun (packed none l) = true ∧ shedOf (packed none l) 47 ≠ .parked ∧
      shedOf (packed none l) 47 ≠ .dark ∧ (packed none l).nv.packs ≠ [] ∧ (packed none l).sup.aniseRun = none ∧
      recovering (packed none l) = decide (l ≠ [])) ∧
    (packed (some 47) []).sup.aniseRun = some 47 ∧ passWaits (packed (some 47) []) 47 = false ∧ (packed (some 47) []).sup.aniseHeld = [] := by
  decide +kernel

/-- One planned injection that is due. -/
def planned : Injection := { cls := 2, unit := 1, id := 0, delay := 0, left := 1, dueAt := 0, live := false }

theorem hyp_HealthEvents_rehearsal :
    (∀ b ∈ [true, false], let s := { up with sup := { up.sup with injections := [planned], holds := b } }
      s.sup.injections[0]? = some planned ∧ planned.left ≠ 0 ∧ planned.live = false ∧ planned.dueAt ≤ s.clocks.sup ∧
      s.sup.holds = b ∧ recovering s = false ∧ s.sup.injections.any (·.live) = false) ∧
    (let s := detect up (elCore 3839) 5 true 0; elementExists s ⟨1, 3839⟩ = true ∧ triggerMet s ⟨1, 3839⟩ 5 = true) := by decide +kernel

/-- `s` with a demand of region 47. -/
def wants (s : State) (f : Demands → Demands) : State := { s with power := { s.power with demands := [(47, f .fresh)] } }

theorem hyp_SheddingFollowsDemands_thermal :
    regionExists up 47 = true ∧ regionsRun up = true ∧ (demandsOf up 47).thermal < 3 ∧ threshold 2 ((demandsOf up 47).thermal + 1) ≤ 900 ∧
    up.power.tripped = false ∧
    (let s := atTick (wants up (fun d => { d with thermal := 1 })) (10 * ticksPerS);
      look s.power.coolSince 47 0 + 10 * ticksPerS ≤ s.clocks.sup ∧ (demandsOf s 47).thermal ≠ 0 ∧ cooled (noteSensor s 0 47 899) 47 = true) := by
  decide +kernel

theorem hyp_SheddingFollowsDemands_power :
    powerLimit up 50000 < 34001 ∧ 34000 ≤ powerLimit up 50000 ∧ regionsRun up = true ∧
    (let lit := (regionList up).filter (fun r => shedOf up r = .lit); hottest [0, 5, 5] lit = some 1) ∧
    (let s := { up with caps := { up.caps with shed := (List.range 48).map (fun r => (r, Shed.throttled)) } };
      hottest [0, 5, 5] ((regionList s).filter (fun r => shedOf s r = .lit)) = none ∧
      hottest [0, 5, 5] ((regionList s).filter (fun r => shedOf s r = .throttled)) = some 1) ∧
    (let s := atTick { up with power := { up.power with steps := [47] } } (10 * ticksPerS);
      s.power.steps = [47] ∧ s.power.releaseAt + 10 * ticksPerS ≤ s.clocks.sup) := by decide +kernel

/-- Region 47 in a step. -/
def stepped (s : State) (x : Shed) : State := { s with caps := { s.caps with shed := [(47, x)] } }

theorem hyp_SheddingFollowsDemands_steps :
    (let s := wants up (fun d => { d with mask := true });
      demandLevel (demandsOf s 47) = 2 ∧ shedOf s 47 = .lit ∧ stepWaits s 47 = false ∧ regionExists s 47 = true ∧ regionsRun s = true) ∧
    (demandLevel (demandsOf (stepped up .parked) 47) = 0 ∧ shedOf (stepped up .parked) 47 = .parked) ∧
    (let s := wants up (fun d => { d with thermal := 3 });
      demandLevel (demandsOf s 47) = 3 ∧ (demandsOf s 47).excursion = false ∧ stepWaits s 47 = false ∧ shedOf s 47 ≠ .dark ∧
      (allGroups s).filter (fun e => groupIn e.2.2 47) = []) ∧
    (shedOf (stepped up .dark) 47 = .dark ∧ demandLevel (demandsOf (stepped up .dark) 47) ≠ 3) ∧
    up.hp.backInv = [] ∧ up.power.standby = true ∧ 3 < 4 ∧ up.power.dieCut.contains 3 = false := by decide +kernel

/-- A reset of a domain and target. -/
def resetOn (domain target : Nat) (begun : Bool) : Reset := { reset2 with domain := domain, target := target, begun := begun }

/-- `sliced` with one reset. -/
def resetting (x : Reset) : State := { sliced with sup := { sliced.sup with resets := [x] } }

theorem hyp_ResetsRunAndClear_domains :
    contextOver (resetting (resetOn 0 3 false)) 0 3 = some (resetOn 0 3 false) ∧ contextOver sliced 0 3 = none ∧
    (let s := resetting (resetOn 1 15 false);
      s.sup.resets.find? (fun x => x.domain = 1 && x.target = 15 && !x.begun) = some (resetOn 1 15 false) ∧
      engineSlots (engOf (deferIn (bump (beginReset s (resetOn 1 15 false)) ctrRegionEngResets (regionOf (coreOfEngine 15)) 1)
        [regionOf (coreOfEngine 15)]) 15) = []) ∧
    (resetting reset2).sup.resets.find? (fun x => x.domain = 2 && x.target = 1 && !x.begun) = some reset2 ∧
    look? (resetting reset2).slices 1 = some slice0 ∧ slice0.state ≠ .destroying ∧
    look? { resetting reset2 with slices := [(1, { slice0 with state := .destroying })] }.slices 1 = some { slice0 with state := .destroying } ∧
    (resetting (resetOn 3 0 false)).sup.resets.find? (fun x => x.domain = 3 && !x.begun) = some (resetOn 3 0 false) ∧
    (resetOn 3 0 false).repair = none := by decide +kernel

theorem hyp_ResetsRunAndClear_ends :
    (∀ n ∈ [0, 1, 2, 3], let x := resetOn n 1 true
      resetOf (resetting x) 0 = some x ∧ resetReleased (releaseAll (resetting x) x) x = true ∧ x.domain = n) ∧
    resetOf sliced 0 = none ∧
    (∀ n ∈ [2, 3], let x := resetOn n (3 - n) true
      let s := atTick (resetting x) (20 * ticksPerS)
      resetOf s 0 = some x ∧ x.begun = true ∧ x.domain = n ∧ windowOver (resetNow s x) x.since (resetTicks n) = true ∧
      s.sup.cycleAsked = false) ∧
    look? { sliced with slices := [(1, { slice0 with state := .resetting })] }.slices 1 = some { slice0 with state := .resetting } := by
  decide +kernel

/-! ### Clauses on further forms -/

theorem hyp_HostLinkChanges_held : { up with pins := { up.pins with perst := true } }.pins.perst = true ∧
    (2 = 2 ∨ 2 = 4 ∨ 2 = 8) ∧ (4 = 3 ∨ 4 = 4) ∧ { up.hp with width := 2, rate := 4 }.rate = 4 := by decide

theorem hyp_PortResets_answers : let s := { up with hp := { up.hp with backInv := [asking] } }
    s.hp.filter = [] ∧ s.hp.backInv ≠ [] := by decide

/-- `up` with tier port 7 fenced. -/
def tierFenced : State := setTier up 7 { TierPort.fresh with fenced := true }

theorem hyp_HealthCommands_clears :
    At tierFenced 0x0803 (fenceBytes 1 6 7) (fun s r => bitsOf (head8 r) 0 8 = 1 ∧
      (elementOf (recordFrom (r.payload.drop 8))).kind = 6 ∧ (tierOf s (elementOf (recordFrom (r.payload.drop 8))).id).fenced = true) ∧
    tierLinkGood (16, 4) = true ∧
    (∀ b ∈ [false, true], At up 0x0803 (fenceBytes (1 + bn b * 2 ^ 8) 1 5 ++ bytesOf 8 9) (fun s r => bitsOf (head8 r) 0 8 = 1 ∧
      (elementOf (recordFrom (r.payload.drop 8))).kind ≠ 6 ∧ (gathered_ s 0x0803).bytes ++ r.payload.drop 40 ≠ [] ∧
      bitsOf (head8 r) 16 32 = (gathered_ s 0x0803).bytes.length ∧ bitAt (head8 r) 8 = b ∧
      updateCode s ((gathered_ s 0x0803).bytes ++ r.payload.drop 40) ≠ 0)) := by decide +kernel

/-- The last chunk of an update of no records, its letter gathered but for 8 bytes. -/
def updating : State :=
  run0 (begun up 0x0803 (letter 3 0 (List.replicate 8 0) ++ most)) 0x0803 (fenceBytes (1 + 2 ^ 8 + 16736 * 2 ^ 16) 1 5 ++ List.replicate 8 0)

theorem update_whole : (gathered_ updating 0x0803).bytes ++
    (fenceBytes (1 + 2 ^ 8 + 16736 * 2 ^ 16) 1 5 ++ List.replicate 8 0).drop 40 = letter 3 0 (List.replicate 8 0) ++ signs :=
  letter_whole 3 0 (List.replicate 8 0) 0

theorem hyp_HealthCommands_update (h : moduleIdentity up = List.replicate 48 0)
    (hv : ∀ a b c, Config.envelopeVerifies 0 a b c = true) : updateCode updating ((gathered_ updating 0x0803).bytes ++
      (fenceBytes (1 + 2 ^ 8 + 16736 * 2 ^ 16) 1 5 ++ List.replicate 8 0).drop 40) = 0 := by
  rw [update_whole]
  have g := genuine (s := updating) (t := 3) (c := 0) (b := List.replicate 8 0) (by decide +kernel) h rfl rfl hv
  have a : updateGood updating (envelopeOf (letter 3 0 (List.replicate 8 0))).body = true := by decide +kernel
  have b : natAt (envelopeOf (letter 3 0 (List.replicate 8 0))).body 0 8 = (allRecords updating).length := by decide +kernel
  simp only [updateCode, g.1, g.2, a, b]; rfl

theorem hyp_HealthCommands_update_chunk :
    let r := cmd 0x0803 (fenceBytes (1 + 2 ^ 8 + 16736 * 2 ^ 16) 1 5 ++ List.replicate 8 0)
    due updating 0 0 0x0803 = some r ∧ bitsOf (head8 r) 0 8 = 1 ∧ (elementOf (recordFrom (r.payload.drop 8))).kind ≠ 6 ∧
    bitsOf (head8 r) 16 32 = (gathered_ updating 0x0803).bytes.length ∧ bitAt (head8 r) 8 = true := by
  refine ⟨by decide +kernel, by decide +kernel, by decide +kernel, ?_, by decide +kernel⟩
  exact Eq.trans (by decide +kernel) (most_length _ _ _).symm

theorem hyp_ContextCommands_savedOut : At (config7 .empty group7out) 0x0503 (bytesOf 8 7) (fun s r =>
    confMoving s r.handle (bitsOf (head8 r) 0 32) = false ∧ carrying s r.handle (bitsOf (head8 r) 0 32) ≠ [] ∧
    (savedHolding s r.handle (bitsOf (head8 r) 0 32)).isSome = true) := by decide +kernel

theorem hyp_FabricCommands_routes :
    (let s := { ported false with fabric := { (ported false).fabric with
        relay := { (ported false).fabric.relay with users := [(15, 0)] } } };
      isDue s 0x0704 [] ∧ tabBusy s (routeTabOf s 0 1) = true) ∧
    (∀ e ∈ [(0, true), (2 ^ 16 - 1, false)], ∀ b ∈ [false, true],
      At up 0x0704 (bytesOf 10 (2 ^ 16 + bn b * 2 ^ 32 + e.1 * 2 ^ 64)) (fun s r => tabBusy s (routeTabOf s 0 r.handle) = false ∧
        (writeRoutes s 0 r.handle (bitsOf (head8 r) 0 14) (halves r.payload 8 (bitsOf (head8 r) 16 12)) []).1 = e.2 ∧
        bitAt (head8 r) 32 = b)) := by decide +kernel

theorem hyp_MemoryCommands_hosts :
    At up 0x0604 (copyBytes 64 (ga0 64) 8 1) (fun _ r => let c := copyReqOf r.payload
      r.progress < c.length ∧ c.srcHost = true ∧ r.data.length < copyPiece c r.progress) ∧
    (let r := { cmd 0x0604 (copyBytes (ga0 0) 64 8 2) with data := List.replicate 8 5 };
      let s := withRun up 0 0 r;
      due s 0 0 0x0604 = some r ∧ r.progress < (copyReqOf r.payload).length ∧ (copyReqOf r.payload).dstHost = true ∧
      copyPiece (copyReqOf r.payload) r.progress ≤ r.data.length) ∧
    (∀ e ∈ [(2, 8), (3, 0)], let r := { cmd 0x0604 (copyBytes 64 64 8 e.1) with wait := .host, data := List.replicate e.2 5 }
      let s := withRun up 0 0 r
      let c := copyReqOf r.payload
      runAs s 0 0 0x0604 = some r ∧ r.wait = .host ∧
      (if e.2 = 8 then copyPiece c r.progress ≤ r.data.length ∧ c.length ≤ r.progress + r.data.length
       else r.data.length < copyPiece c r.progress ∧ r.data.length + copyRead c r.progress r.data.length = copyPiece c r.progress ∧
         c.dstHost = true)) := by decide +kernel

theorem hyp_SyncOutcomes_hubs : let m : Msg := { letter1 (.syncResp 0 0 0) with dst := epHub 5, place := some (epHub 5 * 8 + 4) }
    (takeMsg { up with narrow := [m] } 0).map (·.1) = some m ∧ epKind m.dst = 1 := by decide +kernel

theorem hyp_SyncOutcomes_retry : let s := tweak (runs up 0) (fun v => { v with state := .blocked })
    coreRuns s 0 = true ∧ (slotOf s 0 0).stopping = false := by decide +kernel

theorem hyp_EngineSteps_runs : engineRuns (setEng (runs up 0) 0 { Engine.fresh with acc := some accDone, ended := true }) (coreOfEngine 0) = true ∧
    engineRuns (setEng (runs up 0) 0 { Engine.fresh with tile0 := { words := [], done := some accDone } }) (coreOfEngine 0) = true := by decide +kernel

theorem hyp_MeshHops_retries :
    (∀ e ∈ [(2, 0), (2, 7), (7, 0)], let s := setTries (setWire up 0 e.1 [pkt 0 0]) 0 e.1 e.2
      routerUp s 0 = true ∧ wire s 0 e.1 = [pkt 0 0] ∧ (inLink 0 e.1).isSome = true ∧ arrivedWhole s 0 e.1 false (pkt 0 0) = false ∧
      look s.mesh.tries (0 * 8 + e.1) 0 = e.2 ∧
      ((inLink 0 e.1).any (fun x => let u := linkRetry (setTries s 0 e.1 (e.2 + 1)) 0 x.2.1 x.1 (e.2 + 1)
        decide ((linkState u x.1).retries < 256) && !(linkOut u x.1)) || e.2 = 7) = true) ∧
    (let s := { up with caps := { up.caps with linksOut := [edgeLink 0] } }; linkOut s (edgeLink 0) = true ∧ linkOut up (edgeLink 0) = false) := by
  decide +kernel

/-- `up` with every endpoint switched, or with a packet of the old copy in flight. -/
def switchedAll (old : Bool) : State :=
  let s := rebuilding 2
  let s := { s with mesh := { s.mesh with switched := injectors s } }
  if old then setWire s 0 4 [{ pkt 0 1 with tbl := s.mesh.active }] else s

theorem epServes_mesh (s : State) (m : Mesh) (e : Nat) : epServes { s with mesh := m } e = epServes s e := rfl
theorem injectors_mesh (s : State) (m : Mesh) : injectors { s with mesh := m } = injectors s := by
  have h : epServes { s with mesh := m } = epServes s := funext (epServes_mesh s m)
  unfold injectors
  rw [h]

theorem hyp_RouteTablesSwitch_retire :
    (switchedAll false).mesh.rebuild = 2 ∧ allSwitched (switchedAll false) = true ∧
    copyGone (switchedAll false) (switchedAll false).mesh.active = true ∧
    copyGone (switchedAll true) (switchedAll true).mesh.active = false ∧ up.mesh.rebuild ≠ 2 ∧ allSwitched (rebuilding 2) = false := by
  refine ⟨rfl, ?_, by decide +kernel, by decide +kernel, by decide +kernel, by decide +kernel⟩
  have e : injectors (switchedAll false) = injectors (rebuilding 2) := by
    simp only [switchedAll, Bool.false_eq_true, if_false]
    exact injectors_mesh _ _
  have f : (switchedAll false).mesh.switched = injectors (rebuilding 2) := by simp only [switchedAll, Bool.false_eq_true, if_false]
  unfold allSwitched
  rw [e, f, List.all_eq_true]
  exact fun _ h => List.contains_iff_mem.2 h

/-- Slot 0 of `opened` parked while its group is being saved, or with no group. -/
def parkedEnd : State :=
  let s := config7 .running { group7 with image := .saving }
  setCore s 0 { coreOf s 0 with ends := [(0, { Endpoint.fresh with epoch := 1, isOpen := true, parked := true })] }

theorem hyp_NarrowMessages_further :
    (∃ m t, takeMsg (carrying1 { up with caps := { up.caps with coresOut := [0] } } (.user 0 1 [] false)) 0 = some (m, t) ∧
      m.body = .user 0 1 [] false ∧ coreReachable t m.dst = false) ∧
    (∃ m t, takeMsg (carrying1 parkedEnd (.user 0 1 [] false)) 0 = some (m, t) ∧ m.body = .user 0 1 [] false ∧
      (let e := endOf t m.dst 0; coreReachable t m.dst = true ∧ e.isOpen = true ∧ e.epoch = 1 ∧ e.parked = true ∧
        (groupOf t m.dst).any (fun g => parkedPlace g m.dst ≠ 1) = true)) ∧
    (∃ m t, takeMsg (carrying1 opened (.orphan 1 1 0)) 0 = some (m, t) ∧ m.body = .orphan 1 1 0 ∧
      ((slotOf t m.dst m.dstSlot).gen ≠ 1 ∧
        savedSlot t m.dst (fun _ j w => j = m.dstSlot && w.state ≠ .empty && w.gen = 1) = none)) ∧
    (∃ m t, takeMsg (carrying1 opened (.openRequest 0 0)) 0 = some (m, t) ∧ m.body = .openRequest 0 0 ∧
      isProducer (slotOf t m.dst m.dstSlot) 0 m.src m.srcSlot 0 = false) :=
  ⟨taken _ _ (by decide +kernel), taken _ _ (by decide +kernel), taken _ _ (by decide +kernel), taken _ _ (by decide +kernel)⟩

/-- The group of configured region 7 in the middle of its image. -/
def midway (i : ImageState) (n : Nat) : Group := { group7 with image := i, prog := [(0, (n, 0))] }

theorem hyp_TranslationAndTimeSlices_stages :
    (∀ n ∈ [0, 3], let g := midway .saving n
      let s := config7 .stopped g
      (groupsOf s 1)[0]? = some g ∧ g.image = .saving ∧ g.prog = [(0, (n, 0))] ∧ g.cores = [0] ∧ n < 4 ∧
      (putPieces g 0 n s.free (piecesFrom n 0) { s with free := s.free + 1 }).2 = none) ∧
    (∀ n ∈ [0, 3], let g := midway .restoring (n + 1)
      let s := config7 .empty g
      (groupsOf s 1)[0]? = some g ∧ g.image = .restoring ∧ g.prog = [(0, (n + 1, 0))] ∧ g.cores = [0] ∧ n < 4 ∧
      (takePieces g 0 n (piecesFrom n 0) s).2 = none) ∧
    (midway .saving 5).prog ≠ [] ∧ (midway .saving 5).prog.all (fun e => e.2.1 = 5) = true ∧
    (groupsOf (config7 .stopped (midway .saving 5)) 1)[0]? = some (midway .saving 5) ∧
    (midway .restoring 0).prog ≠ [] ∧ (midway .restoring 0).prog.all (fun e => e.2.1 = 0) = true ∧
    (groupsOf (config7 .empty (midway .restoring 0)) 1)[0]? = some (midway .restoring 0) := by decide +kernel

theorem hyp_TranslationAndTimeSlices_images :
    (let g := saving7 none; let s := config7 .ready g;
      g.prog = [] ∧ g.cores.any (coreBusy s) = false ∧ packetsWithin s g = false ∧
      g.cores.all (fun c => (imageAt s g c 0).isSome) = true) ∧
    (let g := saving7 (some (2 ^ 40)); let s := config7 .ready g;
      g.prog = [] ∧ g.cores.all (fun c => (imageAt s g c 0).isSome) = false ∧ g.cores.any (fun c => imageWaits s g c 0) = false) := by
  decide +kernel

theorem hyp_FabricSchedule_trains_further :
    (let s := { fabric1 0 id with sup := { up.sup with resetting := true } }; s.sup.resetting = true ∧ (portOf s 15).joined = true) ∧
    (let s := fabric1 (2 * 1250 + 7) (fun p => { p with queue := [{ row0 with queuedAt := 7 }, { row0 with strict := true, queuedAt := 8 }], queueAt := 7 });
      (portOf (dropLost s 15) 15).queue = [{ row0 with queuedAt := 7 }, { row0 with strict := true, queuedAt := 8 }] ∧
      (portOf (dropLost s 15) 15).joined = true ∧ 7 + 2 * 1250 ≤ portNow (dropLost s 15) 15) ∧
    (let e : E2e := { applied := 1, unacked := 1, since := 0, via := 0, clock := 15 };
      let s := { fabric1 (50 * 1250) id with fabric := { (fabric1 (50 * 1250) id).fabric with e2eIn := [(5, e)] } };
      look? s.fabric.e2eIn 5 = some e ∧ e.unacked ≠ 0 ∧ e.since + 50 * 1250 ≤ portNow s e.clock) ∧
    (fabric1 0 id).sup.resetting = false ∧ NoStream ([] : List Row) := by
  refine ⟨by decide +kernel, by decide +kernel, by decide +kernel, by decide +kernel, ?_⟩
  intro r h; cases h

theorem hyp_HealthEvents_fences :
    (let s := { up with nv := { up.nv with fenceBits := [⟨4, 5⟩] } }; s.nv.fenceBits.contains ⟨4, 5⟩ = true) ∧
    (let s := detect up (elCore 3839) 5 true 0; s.nv.fenceBits.contains ⟨1, 3839⟩ = false) ∧ supervisorPlace = 48 ∧
    (regionExists up 47 = true ∧ shedOf up 47 ≠ .dark) := by decide +kernel

end Sys2Proof.Machine.Tests
end

section
/-! A transition that waited for its ports is fused with no second look at the life-cycle count. `lifeCode_` holds the
count of R838 to its 16 bits when a transition is verified; `advanceLife` does not when the transition is fused, some
steps later (log entry 69). -/

namespace Sys2Proof.Machine

/-! ## What fusing a transition does to the count -/

@[simp] theorem settleHolds_fuses (s : State) : (settleHolds s).fuses = s.fuses := rfl

@[simp] theorem leaveDomain_fuses (s : State) : (leaveDomain s).fuses = s.fuses := by
  unfold leaveDomain
  split <;> rfl

@[simp] theorem blowCount_lcCount (s : State) (life : LifeCycle) :
    (blowCount s life).fuses.lcCount = s.fuses.lcCount + 1 := rfl

@[simp] theorem eraseSecrets_fuses (s : State) : (eraseSecrets s).fuses = s.fuses := rfl

theorem darkenPorts_nil (s : State) : darkenPorts s [] = leaveDomain s := rfl

/-- R841 step 4, with no Rolben port joined: one count bit, whatever the count was. -/
theorem fuseLife_lcCount_of_no_port {s : State} (target : Nat) (hports : joinedPorts s = []) :
    (fuseLife s target).fuses.lcCount = s.fuses.lcCount + 1 := by
  have hleft : (if target = 3 ∨ target = 4 then leaveDomain s else s).fuses = s.fuses := by
    split
    · exact leaveDomain_fuses s
    · rfl
  unfold fuseLife
  simp only [hports, darkenPorts_nil]
  split <;> simp [hleft]

theorem advanceLife_lcCount_of_no_port {s : State} (f k target : Nat) (r : Running) (hports : joinedPorts s = []) :
    (advanceLife s f k target r).fuses.lcCount = s.fuses.lcCount + 1 := by
  have hleft : portsLeft s (joinedPorts s) = true := by rw [hports]; rfl
  simp [advanceLife, hleft, fuseLife_lcCount_of_no_port target hports]

/-- A due `lifecycle` command that has waited for its ports goes straight on to the fusing. -/
theorem lifecycle_of_waited {s : State} {f k op : Nat} {r : Running} (hdue : due s f k op = some r)
    (hwaited : r.progress = 2) : lifecycle s f k op = advanceLife s f k (bitsOf (head8 r) 0 3) r := by
  simp [lifecycle, act, hdue, hwaited]

/-! ## The counterexample -/

/-- A `lifecycle.advance` to SCRAPPED that has waited for the Rolben ports to leave. -/
def waitedScrap : Running :=
  { seq := 1, opcode := 0x0201, ring := false, irq := false, payload := bytesOf 8 4, since := 0, timeout := none
    handle := 0, wait := .unstarted, code := 0, resp := [], progress := 2, order := 0, at_ := 0 }

/-- A module in M0 whose 16 count bits are all blown (R838), with `waitedScrap` in slot 0 of frame 0. -/
def spentModule : State :=
  setMb { State.reset with
    power := { Power.atReset with state := .m0 }
    boot := { Boot.atReset with phase := 6 }
    fuses := { Fuses.shipped with life := .scrapped, lcCount := 16 } } 0 0 { MbSlot.fresh with run := some waitedScrap }

theorem spentModule_lcCount : spentModule.fuses.lcCount = 16 := rfl

theorem spentModule_joinedPorts : joinedPorts spentModule = [] := by decide

theorem spentModule_due : due spentModule 0 0 0x0201 = some waitedScrap := by decide

/-- The model counts a seventeenth bit of the 16-bit field. -/
theorem spentModule_advances_past_sixteen : ∃ t,
    step { spentModule with pending := [.lifecycleAdvance 0 0] } = .next t ∧ t.fuses.lcCount = 17 := by
  refine ⟨lifecycle spentModule 0 0 0x0201, rfl, ?_⟩
  rw [lifecycle_of_waited spentModule_due rfl, advanceLife_lcCount_of_no_port _ _ _ _ spentModule_joinedPorts,
    spentModule_lcCount]

/-- Refutes O4, by its clause `countMax` alone: from a state with all 16 count bits blown, a `lifecycle.advance` that has
waited for its ports blows one more. A step keeps R838's bound only from states in which a waiting transition was
verified under the present count. -/
theorem not_fusesOnlyBlow : ¬ Obligations.FusesOnlyBlow := by
  unfold Obligations.FusesOnlyBlow
  intro h
  obtain ⟨t, hstep, hcount⟩ := spentModule_advances_past_sixteen
  have hmax : t.fuses.lcCount ≤ 16 := (h _ t hstep).countMax (Nat.le_of_eq spentModule_lcCount)
  omega

end Sys2Proof.Machine
end

section
/-! The commit of an HDM decoder, R601: one error condition decides between the commit and the error bit, and everything
else of the state stays as it was. -/

namespace Sys2Proof.Machine

/-! ## What a commit does -/

/-- R601: where the DPA range of decoder n begins with this skip; decoder 1 follows decoder 0 if that one is committed. -/
def commitStart (s : State) (n skip : Nat) : Nat :=
  if n = 0 then skip else (if s.hp.decoder0.committed then s.hp.decoder0.skip + s.hp.decoder0.size else 0) + skip

/-- R601 and log entry 59: a decoder whose DPA range begins at `start` does not commit. -/
def commitErrs (start base size skip ways : Nat) (biOn : Bool) : Bool :=
  ways ≠ 1 || !biOn || base % 2 ^ 28 ≠ 0 || size % 2 ^ 28 ≠ 0 || skip % 2 ^ 28 ≠ 0 || size = 0 ||
    decide (start < 2 ^ 48 ∧ 2 ^ 48 < start + size) || decide (2 ^ 49 < start + size)

/-- The state with `d` in decoder 0 (n = 0) or decoder 1, and back-invalidation on the link as the commit gives it. -/
def putDecoder (s : State) (n : Nat) (biOn : Bool) (d : HdmDecoder) : State :=
  { s with hp := if n = 0 then { s.hp with biOn := biOn, decoder0 := d } else { s.hp with biOn := biOn, decoder1 := d } }

/-- The state after a commit to decoder n whose outcome is `ok`: committed, or with its error bit. -/
def tryDecoder (s : State) (n base size skip : Nat) (biOn ok : Bool) : State :=
  putDecoder s n biOn { base := base, skip := skip, size := size, committed := ok, error := !ok }

theorem commitDecoder_eq_tryDecoder (s : State) {n : Nat} (base size skip ways : Nat) (biOn : Bool) (hn : n < 2) :
    commitDecoder s n base size skip ways biOn =
      tryDecoder s n base size skip biOn (!commitErrs (commitStart s n skip) base size skip ways biOn) := by
  obtain rfl | rfl : n = 0 ∨ n = 1 := by omega
  all_goals simp [commitDecoder, tryDecoder, putDecoder, commitErrs, commitStart]

/-- R601: the host port has two decoders. -/
theorem commitDecoder_of_two_le (s : State) {n : Nat} (base size skip ways : Nat) (biOn : Bool) (hn : 2 ≤ n) :
    commitDecoder s n base size skip ways biOn = s := by
  have h0 : n ≠ 0 := by omega
  have h1 : n ≠ 1 := by omega
  simp [commitDecoder, h0, h1]

/-! ## When a commit errs -/

section
variable {start base size skip ways : Nat} {biOn : Bool}

theorem commitErrs_of_rule (h : ways ≠ 1 ∨ biOn = false ∨ (start < 2 ^ 48 ∧ 2 ^ 48 < start + size)) :
    commitErrs start base size skip ways biOn = true := by
  obtain hways | hoff | hcross := h
  · simp [commitErrs, hways]
  · simp [commitErrs, hoff]
  · simp only [commitErrs, decide_eq_true hcross, Bool.or_true, Bool.true_or]

theorem commitErrs_eq_false (hbase : base % 2 ^ 28 = 0) (hsize : size % 2 ^ 28 = 0) (hskip : skip % 2 ^ 28 = 0)
    (hways : ways = 1) (hon : biOn = true) (hpos : 0 < size) (hhalf : start + size ≤ 2 ^ 48 ∨ 2 ^ 48 ≤ start)
    (hreach : start + size ≤ 2 ^ 49) : commitErrs start base size skip ways biOn = false := by
  have hnonempty : size ≠ 0 := by omega
  have hcross : ¬(start < 2 ^ 48 ∧ 2 ^ 48 < start + size) := by omega
  have hinReach : ¬2 ^ 49 < start + size := by omega
  rw [commitErrs, hways, hon, hbase, hsize, hskip, decide_eq_false hnonempty, decide_eq_false hcross,
    decide_eq_false hinReach]
  rfl

end

/-! ## The commit as the host port answers it -/

theorem exec_hdmDecoderCommit (s : State) (n base size skip ways : Nat) (biOn : Bool) :
    exec (.hdmDecoderCommit n base size skip ways biOn) s = .next (commitDecoder s n base size skip ways biOn) := rfl

/-- Settles O21: a commit to one of the two decoders writes that decoder with the outcome of `commitErrs`; any other
commit leaves the state as it was. -/
theorem decoderCommits : Obligations.DecoderCommits := by
  intro s n base size skip ways biOn hbase hsize hskip
  refine ⟨fun hn hways hon hpos hhalf hreach => ?commits, fun hn hrule => ?errs, fun hn => ?none⟩
  case commits =>
    have hok : commitErrs (commitStart s n skip) base size skip ways biOn = false :=
      commitErrs_eq_false hbase hsize hskip hways hon hpos hhalf hreach
    rw [exec_hdmDecoderCommit, commitDecoder_eq_tryDecoder s base size skip ways biOn hn, hok]
    rfl
  case errs =>
    have herr : commitErrs (commitStart s n skip) base size skip ways biOn = true := commitErrs_of_rule hrule
    rw [exec_hdmDecoderCommit, commitDecoder_eq_tryDecoder s base size skip ways biOn hn, herr]
    rfl
  case none =>
    rw [exec_hdmDecoderCommit, commitDecoder_of_two_le s base size skip ways biOn hn]

end Sys2Proof.Machine
end

section
/-! Little-endian numbers, R23: their length, their value, and their fields. -/

namespace Sys2Proof.Machine

@[simp] theorem length_bytesOf (n v : Nat) : (bytesOf n v).length = n := by
  induction n generalizing v with
  | zero => rfl
  | succ n ih => simp [bytesOf, ih]

theorem natOf_bytesOf (n v : Nat) : natOf (bytesOf n v) = v % 256 ^ n := by
  induction n generalizing v with
  | zero => simp [bytesOf, natOf, Nat.mod_one]
  | succ n ih =>
    have hbyte : (BitVec.ofNat 8 v).toNat = v % 256 := rfl
    rw [bytesOf, natOf, ih, hbyte, Nat.pow_succ' (m := 256), Nat.mod_mul]

theorem drop_bytesOf (n k v : Nat) : (bytesOf n v).drop k = bytesOf (n - k) (v / 256 ^ k) := by
  induction k generalizing n v with
  | zero => simp
  | succ k ih =>
    cases n with
    | zero => simp [bytesOf]
    | succ n => rw [bytesOf, List.drop_succ_cons, ih, Nat.add_sub_add_right, Nat.div_div_eq_div_mul, Nat.pow_succ']

theorem take_bytesOf {n k : Nat} (h : k ≤ n) (v : Nat) : (bytesOf n v).take k = bytesOf k v := by
  induction k generalizing n v with
  | zero => simp [bytesOf]
  | succ k ih =>
    obtain ⟨n, rfl⟩ : ∃ m, n = m + 1 := ⟨n - 1, by omega⟩
    rw [bytesOf, List.take_succ_cons, ih (by omega), bytesOf]

/-- A field of a number's bytes, with anything behind them. -/
theorem natAt_bytesOf_append {off n m : Nat} (h : off + n ≤ m) (v : Nat) (l : List Byte) :
    natAt (bytesOf m v ++ l) off n = v / 256 ^ off % 256 ^ n := by
  have hlen : (bytesOf m v).length = m := length_bytesOf m v
  have hfield : ((bytesOf m v ++ l).drop off).take n = bytesOf n (v / 256 ^ off) := by
    rw [List.drop_append_of_le_length (by omega), List.take_append_of_le_length (by rw [List.length_drop]; omega),
      drop_bytesOf, take_bytesOf (by omega)]
  rw [natAt, sub]
  simp only [hfield, length_bytesOf, Nat.sub_self, List.replicate_zero, List.append_nil, natOf_bytesOf]

end Sys2Proof.Machine
end

section
/-! The step itself, the state after reset, and the invariant of `StepKeepsSound`. -/

namespace Sys2Proof.Machine
open Sys2Proof.Claims

/-- Settles O1: `step` matches on the queue, whose front is the command given. -/
theorem stepRunsFront : Obligations.StepRunsFront := by
  intro c rest s
  rfl

theorem spentModule_sound : Sound { spentModule with pending := [.lifecycleAdvance 0 0] } := by
  refine ⟨rfl, ?_, ?_⟩ <;> decide

/-- Refutes O3, by its clause on the life-cycle count alone: `spentModule`, all of whose 16 count bits are blown, is sound,
and the `lifecycle.advance` that has waited there for its ports counts a seventeenth. -/
theorem not_stepKeepsSound : ¬ Obligations.StepKeepsSound := by
  intro h
  obtain ⟨t, hstep, hcount⟩ := spentModule_advances_past_sixteen
  obtain ⟨-, hmax, -⟩ := h _ t spentModule_sound hstep
  omega

/-- Settles O6. -/
theorem resetSound : Obligations.ResetSound := by
  refine ⟨⟨rfl, ?_, ?_⟩, rfl⟩ <;> decide

theorem syncWord_reset (r i : Nat) : syncWord State.reset r i = 0 := rfl

theorem slotOf_reset (c k : Nat) : slotOf State.reset c k = .fresh := rfl

/-- Settles O7: the registers of a state without binders compute; the tables of words and slots are empty. -/
theorem resetRegisters : Obligations.ResetRegisters := by
  refine ⟨rfl, rfl, rfl, rfl, ?_, ?_, ?_, ?_, ?_, ?_, syncWord_reset, fun c k => ?_⟩
  case refine_7 => rw [slotOf_reset]; rfl
  all_goals decide

end Sys2Proof.Machine
end

section
/-! The host port: MSI-X vectors and host events, the registers that software writes, BAR2 reads, and the host link. -/

namespace Sys2Proof.Machine

/-! ## Vectors and events: what they change -/

/-- Raising a vector marks it pending, or leaves a message or a count. -/
theorem raiseMsix_shape (s : State) (v : Nat) :
    raiseMsix s v = { s with hp := { s.hp with msixPend := (raiseMsix s v).hp.msixPend }
                             counts := (raiseMsix s v).counts, outbox := (raiseMsix s v).outbox } := by
  unfold raiseMsix
  split
  · split
    · split
      · rfl
      · split <;> rfl
    · rfl
  · rfl

theorem raiseMsix_of_unmasked {s : State} {v : Nat} {e : MsixEntry} (hon : s.hp.msixOn = true)
    (he : look? s.hp.msix v = some e) (hm : e.masked = false) :
    raiseMsix s v = if s.hp.linkUp then emit s (.msix v e.addr.toNat e.data.toNat) else bump s ctrHostMsixDiscarded 0 1 := by
  simp [raiseMsix, hon, he, hm]

/-- A host event sets its bit, and otherwise does what raising a vector does. -/
theorem hostEvent_shape (s : State) (b : Nat) :
    hostEvent s b = { s with hp := { s.hp with event := s.hp.event ||| BitVec.ofNat 6 (2 ^ b)
                                               msixPend := (hostEvent s b).hp.msixPend }
                             counts := (hostEvent s b).counts, outbox := (hostEvent s b).outbox } := by
  unfold hostEvent
  dsimp only
  split
  · rw [raiseMsix_shape]
  · rfl

/-- The counters other than the discarded vectors' are as before. -/
theorem raiseMsix_counts_ne (s : State) (v : Nat) {key : Nat} (h : key ≠ ctrKey ctrHostMsixDiscarded 0) :
    look (raiseMsix s v).counts key 0 = look s.counts key 0 := by
  unfold raiseMsix
  split
  · split
    · split
      · rfl
      · split
        · rfl
        · exact look_put_ne _ _ _ h
    · rfl
  · rfl

theorem hostEvent_counts_ne (s : State) (b : Nat) {key : Nat} (h : key ≠ ctrKey ctrHostMsixDiscarded 0) :
    look (hostEvent s b).counts key 0 = look s.counts key 0 := by
  unfold hostEvent
  dsimp only
  split
  · exact raiseMsix_counts_ne _ _ h
  · rfl

/-- Settles O9. -/
theorem eventEnableRaisesVector0 : Obligations.EventEnableRaisesVector0 := by
  intro s v
  refine ⟨fun hnone => ?_, fun e hset hon he hm hup => ?_⟩
  · simp [exec, execHpEventEnWrite, writeEventEn, hnone]
  · let t : State := { s with hp := { s.hp with eventEn := v.setWidth 6 } }
    have hraise : raiseMsix t 0 = emit t (.msix 0 e.addr.toNat e.data.toNat) := by
      rw [raiseMsix_of_unmasked (s := t) hon he hm, if_pos hup]
    exact congrArg Host.Outcome.next ((if_neg hset).trans hraise)

/-- Settles O12: an unmasked vector with a pending bit is raised. -/
theorem unmaskedVectorSends : Obligations.UnmaskedVectorSends := by
  intro s v hv hpend
  let t : State := { s with hp := { s.hp with msix := put s.hp.msix v { msixEntry s v with masked := false }
                                              msixOn := true, msixPend := dropFrom s.hp.msixPend v } }
  have hentry : look? t.hp.msix v = some { msixEntry s v with masked := false } := look?_put_same _ _ _
  have hraise : unmask s v = raiseMsix t v := by simp only [unmask, hpend, if_true]; rfl
  rw [raiseMsix_of_unmasked rfl hentry rfl] at hraise
  refine ⟨unmask s v, by simp [exec, execMsixUnmask, hv], ?_⟩
  rw [hraise]
  cases hup : s.hp.linkUp <;>
    simp [t, hup, emit, bump, msixEntry, look_put_same]

/-! ## The registers -/

theorem openBars_shape (s : State) : openBars s = { s with hp := { s.hp with config := (openBars s).hp.config } } := by
  unfold openBars
  dsimp only
  split <;> rfl

theorem openBars_linkUp (s : State) : (openBars s).hp.linkUp = s.hp.linkUp := by rw [openBars_shape]
theorem openBars_event (s : State) : (openBars s).hp.event = s.hp.event := by rw [openBars_shape]

/-- R596: an 8-byte write at the place of `HP_EVENT` writes that register alone. -/
theorem writeBar0_event (s : State) (n : Nat) : writeBar0 s 0x20010 (bytesOf 8 n) = hpWrite s 0x20010 0 (bytesOf 8 n) := by
  simp [writeBar0, bytesOf, each, List.range_succ]

/-- The eight bytes of a register, all replaced. -/
theorem mergeReg_whole (v n : Nat) (hn : n < 2 ^ 64) : mergeReg v 0 (bytesOf 8 n) = n := by
  have h : mergeReg v 0 (bytesOf 8 n) = natOf (bytesOf 8 n) := by simp [mergeReg, bytesOf, List.zipIdx]
  rw [h, natOf_bytesOf]
  exact Nat.mod_eq_of_lt hn

theorem registerWrite_event (s : State) (v : BitVec 64) (bad : List Nat) (hup : s.hp.linkUp = true) :
    registerWrite s 0 0x20010 ⟨bytesOf 8 v.toNat, bad⟩ =
      { openBars s with hp := { (openBars s).hp with event := s.hp.event &&& ~~~(v.setWidth 6) } } := by
  have hwidth : BitVec.ofNat 6 v.toNat = v.setWidth 6 := by simp [BitVec.ofNat_toNat]
  have hbar : bar0Write (openBars s) 0x20010 (bytesOf 8 v.toNat) = hpWrite (openBars s) 0x20010 0 (bytesOf 8 v.toNat) := by
    rw [bar0Write, openBars_linkUp, if_pos hup, writeBar0_event]
  show bar0Write (openBars s) 0x20010 (bytesOf 8 v.toNat) = _
  rw [hbar, hpWrite, mergeReg_whole 0 v.toNat v.isLt, hwidth, openBars_event]

/-- Settles O10. -/
theorem eventBitsClearByOne : Obligations.EventBitsClearByOne := by
  intro s v
  refine ⟨fun bad hup => ?_, fun hset => ?_, fun hclear => ?_⟩
  · exact congrArg Host.Outcome.next (registerWrite_event s v bad hup)
  · exact congrArg Host.Outcome.next (if_pos hset)
  · exact congrArg Host.Outcome.next (if_neg (by rw [hclear]; decide))

theorem frameOf_put_same (s : State) (f : Nat) (g : Frame) : frameOf { s with frames := put s.frames f g } f = g :=
  look_put_same _ _ _ _

theorem frameOf_put_ne (s : State) {f j : Nat} (g : Frame) (h : j ≠ f) :
    frameOf { s with frames := put s.frames f g } j = frameOf s j :=
  look_put_ne _ _ _ h

theorem bitAt_zero_toNat (v : BitVec 64) : bitAt v.toNat 0 = v.getLsbD 0 := by
  simp only [bitAt, BitVec.getLsbD, Nat.testBit_zero, Nat.pow_zero, Nat.div_one]

/-- Settles O11. -/
theorem ringConfiguration : Obligations.RingConfiguration := by
  intro s v
  refine ⟨fun hbad => ?_, fun hgood => ?_⟩
  · exact congrArg Host.Outcome.next (if_pos (by simp [hbad]))
  · refine ⟨_, congrArg Host.Outcome.next (if_neg (by simp [hgood])), rfl, fun f hf => frameOf_put_ne _ _ hf, ?_⟩
    rw [frameOf_put_same, bitAt_zero_toNat]

/-! ## BAR2 reads -/

/-- A BAR2 access that is discarded changes the host port, the counters and what leaves the module. -/
theorem discardBar2_shape (s : State) (off : Nat) (write : Bool) :
    discardBar2 s off write = { s with hp := (discardBar2 s off write).hp, counts := (discardBar2 s off write).counts
                                       outbox := (discardBar2 s off write).outbox } := by
  unfold discardBar2 hostRefusal
  dsimp only
  split <;> rw [hostEvent_shape] <;> rfl

/-- R596: the first refusal is recorded with its cause and its address. -/
theorem hostRefusal_first {s : State} (h : s.hp.errInfo = 0) (cause addr : Nat) :
    hostRefusal s cause addr false =
      { s with hp := { s.hp with errInfo := BitVec.ofNat 64 (1 + cause * 256), errAddr := BitVec.ofNat 64 addr } } := by
  simp [hostRefusal, h, bitAt, bn]

theorem hostRefusal_counts (s : State) (cause addr : Nat) (write : Bool) : (hostRefusal s cause addr write).counts = s.counts := by
  unfold hostRefusal
  dsimp only
  split <;> rfl

theorem discardBar2_event (s : State) (off : Nat) (write : Bool) : (discardBar2 s off write).hp.event.getLsbD 5 = true := by
  rw [discardBar2, hostEvent_shape, BitVec.getLsbD_or, Bool.or_eq_true]
  exact .inr rfl

theorem discardBar2_record {s : State} (off : Nat) (h : s.hp.errInfo = 0) :
    (discardBar2 s off false).hp.errInfo.toNat = 1 + 0x62 * 2 ^ 8 ∧ (discardBar2 s off false).hp.errAddr = BitVec.ofNat 64 off := by
  rw [discardBar2, hostRefusal_first (s := bump s ctrHostBar2Discarded 0 1) h, hostEvent_shape]
  exact ⟨rfl, rfl⟩

theorem discardBar2_count (s : State) (off : Nat) (write : Bool) :
    look (discardBar2 s off write).counts (ctrKey ctrHostBar2Discarded 0) 0 =
      ctrAdd ctrHostBar2Discarded (look s.counts (ctrKey ctrHostBar2Discarded 0) 0) 1 := by
  rw [discardBar2, hostEvent_counts_ne _ _ (by decide), hostRefusal_counts]
  exact look_put_same _ _ _ _

theorem bar2Place_openBars (s : State) (off : Nat) : bar2Place (openBars s) off = bar2Place s off := by
  rw [openBars_shape]
  rfl

theorem bar2Read_discarded {s : State} {off len : Nat}
    (h : bar2Place s off = none ∨ len ≠ 4 ∧ len ≠ 8 ∨ off % len ≠ 0) :
    bar2Read s off len = emit (discardBar2 s off false) (.barRead off 0) := by
  have hnone : (if (len = 4 || len = 8) && off % len = 0 then bar2Place s off else none) = none := by
    obtain h | ⟨h4, h8⟩ | h := h
    · simp [h]
    · simp [h4, h8]
    · simp [h]
  rw [bar2Read, hnone]

theorem bar2Read_served {s : State} {off len f k n : Nat} (hplace : bar2Place s off = some (f, k, n))
    (hlen : len = 4 ∨ len = 8) (halign : off % len = 0) :
    bar2Read s off len = emit s (.barRead off (natAt (slotBytesOf (mbSlot s f k)) n len)) := by
  simp [bar2Read, hlen, halign, hplace]

/-- Settles O18. -/
theorem discardedBar2Access : Obligations.DiscardedBar2Access := by
  intro s off len hup
  have hexec : exec (.bar2Discard off len) s = .next (bar2Read (openBars s) off len) := congrArg Host.Outcome.next (if_pos hup)
  rw [hexec]
  refine ⟨fun hbad => ?_, fun f k n hplace hlen halign => ?_⟩
  · rw [bar2Read_discarded (by rwa [bar2Place_openBars])]
    refine ⟨_, rfl, List.mem_cons_self, discardBar2_event _ _ _, fun hnone => ?_, ?_, ?_⟩
    · exact discardBar2_record off (by rwa [openBars_shape])
    · rw [emit, discardBar2_count, openBars_shape]
    · rw [emit, discardBar2_shape, openBars_shape]
  · rw [bar2Read_served (by rwa [bar2Place_openBars]) hlen halign, emit, openBars_shape]
    rfl

/-! ## The host link -/

theorem trainHost_of_legal {s : State} {width rate : Nat} (hpin : s.pins.perst = false) (hwidth : width = 2 ∨ width = 4 ∨ width = 8)
    (hrate : rate = 3 ∨ rate = 4) :
    trainHost s width rate =
      let s := if s.hp.width = 0 then s else bump s ctrHostRetrains 0 1
      let t := { s with hp := { s.hp with linkUp := true, width := width, rate := rate } }
      if s.hp.width = width && s.hp.rate = rate then t else hostEvent (bump t ctrHostRate 0 1) evLink := by
  have hw : (width = 2 || width = 4 || width = 8) = true := by simpa [or_assoc] using hwidth
  have hr : (rate = 3 || rate = 4) = true := by simpa using hrate
  simp [trainHost, hw, hr, hpin]

/-- The link that has trained, with `link_change` when its width or rate differs: what else the state holds is as it was. -/
theorem trainHost_up {s : State} {width rate : Nat} (hpin : s.pins.perst = false) (hwidth : width = 2 ∨ width = 4 ∨ width = 8)
    (hrate : rate = 3 ∨ rate = 4) :
    let t := trainHost s width rate
    t.hp.linkUp = true ∧ t.hp.width = width ∧ t.hp.rate = rate ∧ t.hp.config = s.hp.config ∧
      ((s.hp.width ≠ width ∨ s.hp.rate ≠ rate) → t.hp.event.getLsbD 0 = true) ∧
      ((s.hp.width = width ∧ s.hp.rate = rate) → t.hp = { s.hp with linkUp := true } ∧ t.outbox = s.outbox) ∧
      t = { s with hp := t.hp, counts := t.counts, outbox := t.outbox } := by
  rw [trainHost_of_legal hpin hwidth hrate]
  have hretrain : ∀ u : State, u = (if s.hp.width = 0 then s else bump s ctrHostRetrains 0 1) →
      u = { s with counts := u.counts } := by
    intro u hu
    rw [hu]
    split <;> rfl
  generalize hu : (if s.hp.width = 0 then s else bump s ctrHostRetrains 0 1) = u
  have hshape := hretrain u hu.symm
  have hport : u.hp = s.hp := by rw [hshape]
  have hout : u.outbox = s.outbox := by rw [hshape]
  dsimp only
  rw [hport]
  by_cases hsame : s.hp.width = width ∧ s.hp.rate = rate
  · obtain ⟨rfl, rfl⟩ := hsame
    rw [if_pos (by simp)]
    refine ⟨rfl, rfl, rfl, rfl, fun hne => ?_, fun _ => ⟨rfl, hout⟩, ?_⟩
    · simp at hne
    · rw [hshape]
  · have hne : (decide (s.hp.width = width) && decide (s.hp.rate = rate)) = false := by simpa using hsame
    rw [hne, if_neg Bool.false_ne_true, hostEvent_shape]
    refine ⟨rfl, rfl, rfl, rfl, fun _ => ?_, fun h => absurd h hsame, ?_⟩
    · simp [evLink]
    · rw [hshape]
      rfl

/-- Settles O19. -/
theorem hostLinkChanges : Obligations.HostLinkChanges := by
  intro s width x
  refine ⟨fun hpin hwidth hrate => ?_, fun hpin => ?_, fun hpin hbad => ?_, rfl, fun hnone => ?_, rfl⟩
  · obtain ⟨hup, hw, hr, hconf, hev, hsame, hshape⟩ := trainHost_up (s := noteLink s x) hpin hwidth hrate
    exact ⟨_, rfl, hup, hw, hr, hconf, hev, hsame, hshape⟩
  · simp [exec, execHostLinkTrain, trainHost, noteLink, bump, hpin]
  · have hnot : ((width = 2 || width = 4 || width = 8) && (x.rate = 3 || x.rate = 4)) = false := by
      simpa [or_assoc] using hbad
    simp [exec, execHostLinkTrain, trainHost, hnot, noteLink, bump, hpin]
  · simp [exec, execHostLinkDown, linkDies, abandonAll, hnone, each]

end Sys2Proof.Machine
end

section
/-! Memory, the synchronisation words, and paged responses: what the plain operations give. -/

namespace Sys2Proof.Machine

/-! ## Memory -/

theorem contains_dropFrom (l : List Nat) (k w : Nat) : (dropFrom l k).contains w = (l.contains w && decide (w ≠ k)) := by
  rw [Bool.eq_iff_iff]
  simp [dropFrom]

theorem mem_marksOf {a n w : Nat} (hsize : markSize a = 8) (ha : a % 8 = 0) (hn : n % 8 = 0) :
    w ∈ marksOf a n ↔ a ≤ 8 * w ∧ 8 * w < a + n := by
  unfold marksOf
  rw [hsize]
  by_cases h0 : n = 0
  · subst h0
    simp only [if_true, List.not_mem_nil, false_iff]
    omega
  · simp only [if_neg h0, List.mem_map, List.mem_range]
    constructor
    · rintro ⟨i, hi, rfl⟩
      omega
    · intro h
      exact ⟨w - a / 8, by omega, by omega⟩

/-- R512: a clean write of whole words drops each mark it touches. -/
theorem poisonAfter_clean {a n : Nat} (hsize : markSize a = 8) (ha : a % 8 = 0) (hn : n % 8 = 0) (p : List Nat) :
    poisonAfter p a n [] = (marksOf a n).foldl dropFrom p := by
  unfold poisonAfter
  dsimp only
  refine List.foldl_rel rfl fun k hk q r hqr => ?_
  subst hqr
  have hcover := (mem_marksOf hsize ha hn).mp hk
  have hwhole : (decide (a ≤ 8 * k) && decide (8 * k + markSize a ≤ a + n)) = true := by
    rw [hsize, Bool.and_eq_true, decide_eq_true_eq, decide_eq_true_eq]
    omega
  rw [hwhole]
  rfl

theorem contains_foldl_dropFrom (l p : List Nat) (w : Nat) :
    (l.foldl dropFrom p).contains w = (p.contains w && !(l.contains w)) := by
  induction l generalizing p with
  | nil => simp
  | cons k t ih =>
    rw [List.foldl_cons, ih, contains_dropFrom, List.contains_cons, Bool.and_assoc, Bool.not_or]
    congr 2
    rw [Bool.beq_eq_decide_eq, ← decide_not]

theorem contains_poison_writeMem {m : Memory} {a : Nat} {data : List Byte} (ha : a % 8 = 0) (hn : data.length % 8 = 0)
    (hlow : a + data.length ≤ 2 ^ 48) (w : Nat) :
    (writeMem m a data).poison.contains w =
      (m.poison.contains w && !(decide (a ≤ 8 * w ∧ 8 * w < a + data.length))) := by
  by_cases h0 : data.length = 0
  · have hcells : (writeMem m a data).poison = m.poison := by simp [writeMem, writePoison, poisonAfter, marksOf, h0]
    have hnone : ¬(a ≤ 8 * w ∧ 8 * w < a + data.length) := by omega
    simp [hcells, hnone]
  · have hsize : markSize a = 8 := by
      simp only [markSize, Bool.and_eq_true, decide_eq_true_eq]
      exact if_neg (by omega)
    have hmark : (marksOf a data.length).contains w = decide (a ≤ 8 * w ∧ 8 * w < a + data.length) := by
      rw [List.contains_eq_mem, decide_eq_decide]
      exact mem_marksOf hsize ha hn
    rw [writeMem, writePoison, poisonAfter_clean hsize ha hn, contains_foldl_dropFrom, hmark]

/-- Settles O8. -/
theorem memoryReadsWhatWasWritten : Obligations.MemoryReadsWhatWasWritten := by
  intro m a data
  refine ⟨fun i h => ?_, fun b hb => ?_, wf_writeMem a data, contains_poison_writeMem⟩
  · have hin : a ≤ a + i ∧ a + i < a + data.length := by omega
    rw [writeMem, writePoison, readByte_writeCells, if_pos hin, Nat.add_sub_cancel_left, List.getD_eq_getElem?_getD,
      List.getElem?_eq_getElem h, Option.getD_some]
  · have hout : ¬(a ≤ b ∧ b < a + data.length) := by omega
    rw [writeMem, writePoison, readByte_writeCells, if_neg hout]

/-! ## State words, R324 to R328 -/

theorem ofNat64_toNat {n : Nat} (h : n < 2 ^ 64) : (BitVec.ofNat 64 n).toNat = n := by
  rw [BitVec.toNat_ofNat, Nat.mod_eq_of_lt h]

theorem barrierWord_toNat {x y p : Nat} (hx : x < 2 ^ 16) (hy : y < 2 ^ 16) (hp : p < 2 ^ 16) :
    (barrierWord x y p).toNat = x + y * 2 ^ 16 + p * 2 ^ 32 + 2 * 2 ^ 62 :=
  ofNat64_toNat (by omega)

theorem barrierWord_fields {x y p : Nat} (hx : x < 2 ^ 16) (hy : y < 2 ^ 16) (hp : p < 2 ^ 16) :
    swType (barrierWord x y p) = 2 ∧ bitsOf (barrierWord x y p).toNat 0 16 = x ∧
      bitsOf (barrierWord x y p).toNat 16 16 = y ∧ bitsOf (barrierWord x y p).toNat 32 16 = p ∧
      bitsOf (barrierWord x y p).toNat 48 14 = 0 := by
  rw [swType, barrierWord_toNat hx hy hp]
  simp only [bitsOf]
  omega

theorem swValid_barrierWord {x y p : Nat} (hx : x < y) (hy : y < 2 ^ 16) (hp : p < 2 ^ 16) :
    swValid (barrierWord x y p) = true := by
  obtain ⟨htype, harr, htgt, -, hres⟩ := barrierWord_fields (Nat.lt_trans hx hy) hy hp
  simp [swValid, htype, harr, htgt, hres, hx]

/-- A counter of R324. -/
theorem swValid_counter {n : Nat} (h : n < 2 ^ 48) : swValid (BitVec.ofNat 64 n) = true := by
  have hn : (BitVec.ofNat 64 n).toNat = n := ofNat64_toNat (by omega)
  have htype : swType (BitVec.ofNat 64 n) = 0 := by
    rw [swType, hn, bitsOf]
    omega
  have hres : bitsOf n 48 14 = 0 := by
    rw [bitsOf]
    omega
  simp only [swValid, htype, hn, hres, decide_true]

/-- A semaphore of R324. -/
theorem semaphore_fields {n : Nat} (h : n < 2 ^ 32) : (BitVec.ofNat 64 (n + 2 ^ 62)).toNat = n + 2 ^ 62 ∧
    swType (BitVec.ofNat 64 (n + 2 ^ 62)) = 1 ∧ bitsOf (BitVec.ofNat 64 (n + 2 ^ 62)).toNat 32 30 = 0 ∧
    (BitVec.ofNat 64 (n + 2 ^ 62)).toNat % 2 ^ 32 = n := by
  have hn : (BitVec.ofNat 64 (n + 2 ^ 62)).toNat = n + 2 ^ 62 := ofNat64_toNat (by omega)
  refine ⟨hn, ?_, ?_, ?_⟩
  · rw [swType, hn, bitsOf]
    omega
  · rw [hn, bitsOf]
    omega
  · rw [hn]
    omega

theorem swValid_semaphore {n : Nat} (h : n < 2 ^ 32) : swValid (BitVec.ofNat 64 (n + 2 ^ 62)) = true := by
  obtain ⟨-, htype, hres, -⟩ := semaphore_fields h
  simp only [swValid, htype, hres, decide_true]

theorem arriveWord_barrierWord {x y p : Nat} (hx : x < y) (hy : y < 2 ^ 16) (hp : p < 2 ^ 16) :
    arriveWord (barrierWord x y p) = if x + 1 = y then barrierWord 0 y ((p + 1) % 2 ^ 16) else barrierWord (x + 1) y p := by
  obtain ⟨-, harr, htgt, hph, -⟩ := barrierWord_fields (Nat.lt_trans hx hy) hy hp
  simp only [arriveWord, harr, htgt, hph, Nat.reducePow]

/-- An arrival leaves a valid barrier valid. -/
theorem swValid_arriveWord {w : Reg} (hw : swValid w = true) (htype : swType w = 2) : swValid (arriveWord w) = true := by
  have hshort : bitsOf w.toNat 0 16 < bitsOf w.toNat 16 16 := by
    simp only [swValid, htype, Bool.and_eq_true, decide_eq_true_eq] at hw
    exact hw.2
  have htgt : bitsOf w.toNat 16 16 < 2 ^ 16 := Nat.mod_lt _ (by omega)
  have hph : bitsOf w.toNat 32 16 < 2 ^ 16 := Nat.mod_lt _ (by omega)
  unfold arriveWord
  dsimp only
  split
  · exact swValid_barrierWord (by omega) htgt (Nat.mod_lt _ (by omega))
  · exact swValid_barrierWord (by omega) htgt hph

/-- An operation on a word of another type than its own reports status 2. -/
theorem syncApply_of_type_ne {op n : Nat} {w : Reg} (a b : Reg) (hop : opType op = some n) (hne : swType w ≠ n) :
    syncApply op w a b = (w, 2) := by
  have hany : (opType op).any (· ≠ swType w) = true := by simpa [hop] using fun h : n = swType w => hne h.symm
  unfold syncApply
  exact if_pos hany

theorem opType_any_eq_false {op : Nat} {w : Reg} (h : ∀ n, opType op = some n → swType w = n) :
    (opType op).any (· ≠ swType w) = false := by
  cases hop : opType op with
  | none => rfl
  | some n => simp [h n hop]

/-- What an operation does to a word of its type, or of any. -/
theorem syncApply_of_type {op : Nat} {w : Reg} (a b : Reg) : (∀ n, opType op = some n → swType w = n) →
    syncApply op w a b =
      match op with
      | 0 => (w, 0)
      | 1 => if swValid a then (a, 0) else (w, 2)
      | 2 => (BitVec.ofNat 64 ((w.toNat % 2 ^ 48 + a.toNat % 2 ^ 48) % 2 ^ 48), 0)
      | 3 => (if w.toNat % 2 ^ 48 = a.toNat % 2 ^ 48 then BitVec.ofNat 64 (b.toNat % 2 ^ 48) else w, 0)
      | 4 => if w.toNat % 2 ^ 32 + a.toNat % 2 ^ 32 < 2 ^ 32 then
          (BitVec.ofNat 64 (w.toNat % 2 ^ 32 + a.toNat % 2 ^ 32 + 2 ^ 62), 0) else (w, 3)
      | 5 => if a.toNat % 2 ^ 32 ≤ w.toNat % 2 ^ 32 then
          (BitVec.ofNat 64 (w.toNat % 2 ^ 32 - a.toNat % 2 ^ 32 + 2 ^ 62), 0) else (w, 1)
      | 6 => (arriveWord w, 0)
      | _ => (w, 0) := by
  intro h
  unfold syncApply
  exact if_neg (Bool.eq_false_iff.mp (opType_any_eq_false h))

theorem syncApply_keeps_word (op : Nat) (w a b : Reg) : (syncApply op w a b).2 ≠ 0 → (syncApply op w a b).1 = w := by
  by_cases htype : ∀ n, opType op = some n → swType w = n
  · rw [syncApply_of_type a b htype]
    split
    case h_2 => split <;> simp
    case h_5 => split <;> simp
    case h_6 => split <;> simp
    all_goals simp
  · obtain ⟨n, hn⟩ := Classical.not_forall.mp htype
    obtain ⟨hop, hne⟩ := Classical.not_imp.mp hn
    simp [syncApply_of_type_ne a b hop hne]

/-- Settles O44, for an operation on a word of its type by the operation, and for any other because the word stays. -/
theorem syncWordsStayValid : Obligations.SyncWordsStayValid := by
  intro op w a b hw
  by_cases htype : ∀ n, opType op = some n → swType w = n
  · rw [syncApply_of_type a b htype]
    split
    case h_2 =>
      split
      · assumption
      · exact hw
    case h_3 => exact swValid_counter (Nat.mod_lt _ (by omega))
    case h_4 =>
      dsimp only
      split
      · exact swValid_counter (Nat.mod_lt _ (by omega))
      · exact hw
    case h_5 =>
      split
      · exact swValid_semaphore (by assumption)
      · exact hw
    case h_6 =>
      split
      · exact swValid_semaphore (by omega)
      · exact hw
    case h_7 => exact swValid_arriveWord hw (htype 2 rfl)
    all_goals exact hw
  · obtain ⟨n, hn⟩ := Classical.not_forall.mp htype
    obtain ⟨hop, hne⟩ := Classical.not_imp.mp hn
    rw [syncApply_of_type_ne a b hop hne]
    exact hw

/-- Settles O43. -/
theorem syncOperations : Obligations.SyncOperations := by
  refine ⟨fun w a b htype hw => ?counter, fun n a b hn => ?semaphore, fun x y p a b hx hy hp => ?barrier,
    syncApply_keeps_word, fun op n w a b hop hne => syncApply_of_type_ne a b hop hne, fun w a b => ?init⟩
  case counter =>
    have hadd := syncApply_of_type (op := 2) (w := w) a b (by rintro n ⟨⟩; exact htype)
    have hcas := syncApply_of_type (op := 3) (w := w) a b (by rintro n ⟨⟩; exact htype)
    have hval : w.toNat % 2 ^ 48 = w.toNat := Nat.mod_eq_of_lt hw
    rw [hadd, hcas, hval]
    refine ⟨rfl, ofNat64_toNat (by omega), rfl, ?_⟩
    change (if w.toNat = a.toNat % 2 ^ 48 then BitVec.ofNat 64 (b.toNat % 2 ^ 48) else w).toNat = _
    split
    · exact ofNat64_toNat (by omega)
    · rfl
  case semaphore =>
    obtain ⟨-, htype, -, hcount⟩ := semaphore_fields hn
    have hpost := syncApply_of_type (op := 4) a b (by rintro n ⟨⟩; exact htype)
    have htake := syncApply_of_type (op := 5) a b (by rintro n ⟨⟩; exact htype)
    intro w
    rw [hpost, htake, hcount]
    refine ⟨fun h => ?_, fun h => ?_, fun h => ?_, fun h => ?_⟩
    · exact if_pos h
    · exact if_neg (by omega)
    · exact if_pos h
    · exact if_neg (by omega)
  case barrier =>
    obtain ⟨htype, -⟩ := barrierWord_fields (Nat.lt_trans hx hy) hy hp
    rw [syncApply_of_type a b (by rintro n ⟨⟩; exact htype)]
    exact congrArg (·, 0) (arriveWord_barrierWord hx hy hp)
  case init =>
    rw [syncApply_of_type a b (by rintro n ⟨⟩)]
    exact ⟨fun h => if_pos h, fun h => if_neg (by simp [h])⟩

/-! ## Paged responses, R668 -/

theorem length_flatten_of_const {n : Nat} {l : List (List Byte)} (h : ∀ x ∈ l, x.length = n) : l.flatten.length = l.length * n := by
  induction l with
  | nil => simp
  | cons a t ih =>
    rw [List.flatten_cons, List.length_append, h a List.mem_cons_self, ih fun x hx => h x (List.mem_cons_of_mem a hx),
      List.length_cons, Nat.succ_mul, Nat.add_comm]

/-- Record i of a flat list of records of one size. -/
theorem take_drop_flatten {n : Nat} {l : List (List Byte)} (h : ∀ x ∈ l, x.length = n) {i : Nat} (hi : i < l.length) :
    (l.flatten.drop (i * n)).take n = l[i] := by
  induction l generalizing i with
  | nil => exact absurd hi (Nat.not_lt_zero i)
  | cons a t ih =>
    have ha : a.length = n := h a List.mem_cons_self
    cases i with
    | zero => simp [ha]
    | succ i =>
      have hoff : (i + 1) * n = a.length + i * n := by rw [ha, Nat.succ_mul, Nat.add_comm]
      rw [List.flatten_cons, hoff, List.drop_length_add_append, List.getElem_cons_succ]
      exact ih (fun x hx => h x (List.mem_cons_of_mem a hx)) (Nat.lt_of_succ_lt_succ hi)

/-- Settles O17. -/
theorem pagedResponsesHoldTheirRecords : Obligations.PagedResponsesHoldTheirRecords := by
  intro recs first n hn1 hn2 hsize hrecs hfirst
  generalize hl : (recs.drop first).take (4016 / n) = l
  have hpaged : paged recs first n =
      bytesOf 16 (recs.length + first * 2 ^ 32 + l.length * 2 ^ 64 + n * 2 ^ 80) ++ l.flatten := by rw [paged, hl]
  have hcount : l.length = min (recs.length - first) (4016 / n) := by
    rw [← hl, List.length_take, List.length_drop, Nat.min_comm]
  have hmem : ∀ x ∈ l, x.length = n := fun x hx => hsize x (by
    rw [← hl] at hx
    exact List.mem_of_mem_drop (List.mem_of_mem_take hx))
  have hflat : l.flatten.length = l.length * n := length_flatten_of_const hmem
  have hfits : l.length * n ≤ 4016 := by
    have hle : l.length ≤ 4016 / n := by omega
    exact Nat.le_trans (Nat.mul_le_mul_right n hle) (Nat.div_mul_le_self 4016 n)
  have hshort : l.length ≤ 4016 := Nat.le_trans (Nat.le_mul_of_pos_right _ hn1) hfits
  have hlen : (paged recs first n).length = 16 + l.length * n := by
    rw [hpaged, List.length_append, length_bytesOf, hflat]
  dsimp only
  rw [← hcount]
  refine ⟨?_, ?_, ?_, ?_, hlen, by omega, fun i h hi => ?_⟩
  · rw [hpaged, natAt_bytesOf_append (by omega)]
    omega
  · rw [hpaged, natAt_bytesOf_append (by omega)]
    omega
  · rw [hpaged, natAt_bytesOf_append (by omega)]
    omega
  · rw [hpaged, natAt_bytesOf_append (by omega)]
    omega
  · have hrec : l[i] = recs[first + i] := by simp [← hl]
    have hdrop : (bytesOf 16 (recs.length + first * 2 ^ 32 + l.length * 2 ^ 64 + n * 2 ^ 80) ++ l.flatten).drop (16 + i * n) =
        l.flatten.drop (i * n) := by
      rw [List.drop_append, length_bytesOf, Nat.add_sub_cancel_left, List.drop_of_length_le (by rw [length_bytesOf]; omega),
        List.nil_append]
    rw [hpaged, hdrop, take_drop_flatten hmem hi, hrec]

end Sys2Proof.Machine
end

section
/-! The mailbox: what due, settling, awaiting and completing a command say about its slot and leave unchanged elsewhere. -/

namespace Sys2Proof.Machine
open Sys2Proof.Claims

/-! ## Replacing a slot -/

theorem frameOf_setMb (s : State) (f k : Nat) (m : MbSlot) (f' : Nat) :
    (frameOf (setMb s f k m) f').owner = (frameOf s f').owner ∧ (frameOf (setMb s f k m) f').ring = (frameOf s f').ring := by
  by_cases h : f' = f
  · subst h
    rw [setMb, frameOf_put_same]
    exact ⟨rfl, rfl⟩
  · rw [setMb, frameOf_put_ne _ _ h]
    exact ⟨rfl, rfl⟩

theorem setMb_shape (s : State) (f k : Nat) (m : MbSlot) : setMb s f k m = { s with frames := (setMb s f k m).frames } := rfl

/-- R651 step 3: settling a command that runs. -/
theorem settled_settle {u : State} {f k : Nat} {r : Running} (h : (mbSlot u f k).run = some r) (code : Nat) (resp : List Byte) :
    Settled u (settle u f k code resp) f k code resp := by
  rw [settle_of_run h]
  exact ⟨⟨r, h, mbSlot_setMb _ _ _ _⟩, rfl, frameOf_setMb u f k _, fun f' k' hne => mbSlot_setMb_ne u _ hne⟩

/-- What a command that is due says of its slot. -/
theorem due_iff {s : State} {f k op : Nat} {r : Running} :
    due s f k op = some r ↔ (mbSlot s f k).run = some r ∧ r.opcode = op ∧ r.wait = .unstarted ∧ behind s r = false := by
  simp [due, runAs, Option.filter_eq_some_iff]

theorem run_of_due {s : State} {f k op : Nat} {r : Running} (h : due s f k op = some r) : (mbSlot s f k).run = some r :=
  (due_iff.mp h).1

theorem act_of_due {s : State} {f k op : Nat} {r : Running} (h : due s f k op = some r) (g : Running → State) :
    act s f k op g = g r := by
  simp [act, h]

/-- A row that settles its command over a state in which the command runs. -/
theorem settles_of_exec {c : Instr} {s u : State} {f k : Nat} {r : Running} {code : Nat} {resp : List Byte}
    (hexec : exec c s = .next (settle u f k code resp)) (hrun : (mbSlot u f k).run = some r) : Settles c s u f k code resp :=
  ⟨_, hexec, settled_settle hrun code resp⟩

theorem answer_of_due {s : State} {f k op : Nat} {r : Running} (h : due s f k op = some r) (g : Running → Nat × List Byte) :
    answer s f k op g = settle s f k (g r).1 (g r).2 := by
  simp [answer, h]

/-- A reading command answers from the state it finds. -/
theorem settles_of_answer {c : Instr} {s : State} {f k op : Nat} (g : Running → Nat × List Byte)
    (hexec : exec c s = .next (answer s f k op g)) {r : Running} (hdue : due s f k op = some r) :
    Settles c s s f k (g r).1 (g r).2 :=
  settles_of_exec (hexec.trans (congrArg Host.Outcome.next (answer_of_due hdue g))) (run_of_due hdue)

/-- Settles O16. -/
theorem queriesAnswer : Obligations.QueriesAnswer := by
  intro s f k r
  refine ⟨settles_of_answer (fun _ => (0, capsBytes s)) rfl, settles_of_answer (fun r => (0, paged _ (bitsOf (head8 r) 0 32) 32)) rfl,
    settles_of_answer (fun r => (0, paged _ (bitsOf (head8 r) 0 32) 32)) rfl, settles_of_answer (fun _ => (0, ageingBytes s)) rfl,
    settles_of_answer (fun _ => (0, bistBytes s.nv.bist)) rfl, settles_of_answer (logAnswer s f) rfl,
    settles_of_answer (fun r => (0, sliceBytes s r.handle)) rfl, settles_of_answer (statusAnswer s) rfl,
    settles_of_answer (recordAnswer s f) rfl⟩

/-! ## Completion, R648 -/

/-- The bytes `l` written one after another from place off + n of a table. -/
theorem look_foldl_put (l : List Byte) (t : Tab Byte) (off n x : Nat) :
    look ((l.zipIdx n).foldl (fun t e => put t (off + e.2) e.1) t) x 0 =
      if off + n ≤ x ∧ x < off + n + l.length then l.getD (x - (off + n)) 0 else look t x 0 := by
  induction l generalizing t n with
  | nil =>
    rw [if_neg (by simp only [List.length_nil]; omega)]
    rfl
  | cons b l ih =>
    rw [List.zipIdx_cons, List.foldl_cons, ih, List.length_cons]
    by_cases hx : x = off + n
    · subst hx
      rw [if_neg (by omega), if_pos (by omega), look_put_same, Nat.sub_self, List.getD_cons_zero]
    · rw [look_put_ne _ _ _ hx]
      by_cases hin : off + (n + 1) ≤ x ∧ x < off + (n + 1) + l.length
      · have hstep : x - (off + n) = x - (off + (n + 1)) + 1 := by omega
        rw [if_pos hin, if_pos (by omega), hstep, List.getD_cons_succ]
      · rw [if_neg hin, if_neg (by omega)]

theorem look_putPayload (t : Tab Byte) (l : List Byte) (x : Nat) :
    look (putPayload t 0 l) x 0 = if x < l.length then l.getD x 0 else look t x 0 := by
  have h := look_foldl_put l t 0 0 x
  simpa [putPayload, each] using h

/-- Two states that agree but for counters, the host port and what leaves the module have the same slots and frames. -/
theorem mbSlot_congr {s t : State} (h : t.frames = s.frames) (f k : Nat) : mbSlot t f k = mbSlot s f k := by
  rw [mbSlot, frameOf, h]
  rfl

/-- A record that is sent changes the ring of its frame, the counters and what leaves the module. -/
theorem sendRecord_shape (s : State) (f k : Nat) (r : Running) (code len : Nat) :
    sendRecord s f k r code len = { s with frames := (sendRecord s f k r code len).frames
                                           counts := (sendRecord s f k r code len).counts
                                           outbox := (sendRecord s f k r code len).outbox } := by
  unfold sendRecord
  dsimp only
  split
  · rfl
  · split
    · rfl
    · split <;> rfl

theorem sendRecord_mbSlot (s : State) (f k : Nat) (r : Running) (code len f' k' : Nat) :
    mbSlot (sendRecord s f k r code len) f' k' = mbSlot s f' k' := by
  have hring : ∀ g : FrameRing, mbSlot { s with frames := put s.frames f { frameOf s f with ring := g } } f' k' = mbSlot s f' k' := by
    intro g
    by_cases h : f' = f
    · subst h
      rw [mbSlot, frameOf_put_same, mbSlot]
    · rw [mbSlot, frameOf_put_ne _ _ h, mbSlot]
  unfold sendRecord
  dsimp only
  split
  · rfl
  · split
    · rfl
    · split <;> exact hring _

/-- R658: with the ring enabled and the link up, the record is sent and counted in the ring. -/
theorem sendRecord_sent {s : State} {f k : Nat} {r : Running} (hring : r.ring = true) (hon : (frameOf s f).ring.enable = true)
    (hup : s.hp.linkUp = true) (code len : Nat) :
    let g := (frameOf s f).ring
    let t := sendRecord s f k r code len
    Out.hostWrite (g.base + 32 * (g.written % ringRecords g))
      (completionRecord s f k r (g.written / ringRecords g % 2 = 0) code len) ∈ t.outbox ∧
    (frameOf t f).ring.written = g.written + 1 := by
  have hsend : sendRecord s f k r code len = bump (emit { s with frames := put s.frames f { frameOf s f with
      ring := { (frameOf s f).ring with written := (frameOf s f).ring.written + 1 } } }
      (.hostWrite ((frameOf s f).ring.base + 32 * ((frameOf s f).ring.written % ringRecords (frameOf s f).ring))
        (completionRecord s f k r ((frameOf s f).ring.written / ringRecords (frameOf s f).ring % 2 = 0) code len)))
      ctrFrameRecords f 1 := by
    simp [sendRecord, hring, hon, hup]
  dsimp only
  rw [hsend]
  refine ⟨List.mem_cons_self, ?_⟩
  change (frameOf { s with frames := put s.frames f _ } f).ring.written = _
  rw [frameOf_put_same]

theorem completionRecord_congr {s t : State} (h : t.clocks = s.clocks) (f k : Nat) (r : Running) (phase : Bool) (code len : Nat) :
    completionRecord t f k r phase code len = completionRecord s f k r phase code len := by
  rw [completionRecord, h, completionRecord]

/-- R648: the slot of a command that completes. -/
def completedSlot (m : MbSlot) (r : Running) (code : Nat) (resp : List Byte) : MbSlot :=
  { m with payload := putPayload m.payload 0 resp, poison := payloadPoison m.poison 0 resp.length []
           status := statusWord r.seq 2 code resp.length, run := none }

/-- R648 before the completion record: the slot is answered, what other modules still owe the command is dropped, its code
is counted. -/
def completeSlot (s : State) (f k : Nat) (r : Running) (code : Nat) (resp : List Byte) : State :=
  let t := setMb s f k (completedSlot (mbSlot s f k) r code resp)
  let t := { t with fabric := { t.fabric with far := t.fabric.far.filter (fun g => !(g.frame = f && g.slot = k)) } }
  if code ≤ 0x0C then bump t (ctrFrameCode.plus code) f 1 else t

theorem completeSlot_shape (s : State) (f k : Nat) (r : Running) (code : Nat) (resp : List Byte) :
    completeSlot s f k r code resp =
      { s with frames := (setMb s f k (completedSlot (mbSlot s f k) r code resp)).frames
               counts := (completeSlot s f k r code resp).counts
               fabric := { s.fabric with far := s.fabric.far.filter (fun g => !(g.frame = f && g.slot = k)) } } := by
  unfold completeSlot
  dsimp only
  split <;> rfl

/-- The vector of the frame's ring that a completion may raise. -/
theorem complete_eq (s : State) (f k : Nat) (r : Running) (code : Nat) (resp : List Byte) :
    complete s f k r code resp =
      let t := sendRecord (completeSlot s f k r code resp) f k r code resp.length
      if r.irq && (frameOf t f).ring.vector ≠ 0 then bump (raiseMsix t (frameOf t f).ring.vector) ctrFrameMsix f 1 else t := by
  unfold complete completeSlot completedSlot
  rfl

/-- A completion is the slot's, then its record's, and then changes the host port, the counters and what leaves the module. -/
theorem complete_shape (s : State) (f k : Nat) (r : Running) (code : Nat) (resp : List Byte) :
    let u := sendRecord (completeSlot s f k r code resp) f k r code resp.length
    let t := complete s f k r code resp
    t = { u with hp := t.hp, counts := t.counts, outbox := t.outbox } ∧ (∀ o ∈ u.outbox, o ∈ t.outbox) ∧
      (r.irq = false → t.outbox = u.outbox) := by
  have hout : ∀ (u : State) (v : Nat), ∀ o ∈ u.outbox, o ∈ (raiseMsix u v).outbox := by
    intro u v o ho
    unfold raiseMsix
    split
    · split
      · split
        · exact ho
        · split
          · exact List.mem_cons_of_mem _ ho
          · exact ho
      · exact ho
    · exact ho
  dsimp only
  rw [complete_eq]
  generalize sendRecord (completeSlot s f k r code resp) f k r code resp.length = u
  dsimp only
  split
  · rename_i hirq
    refine ⟨?_, hout u _, fun h => ?_⟩
    · rw [bump, raiseMsix_shape]
    · simp [h] at hirq
  · exact ⟨rfl, fun o ho => ho, fun _ => rfl⟩

/-- R648: what the completion of a command leaves. -/
theorem completed_complete (s : State) (f k : Nat) (r : Running) (code : Nat) (resp : List Byte) :
    Completed s (complete s f k r code resp) f k r code resp := by
  generalize hc : completeSlot s f k r code resp = c
  have hcs : c = _ := hc ▸ completeSlot_shape s f k r code resp
  generalize hu : sendRecord c f k r code resp.length = u
  have hus : u = _ := hu ▸ sendRecord_shape c f k r code resp.length
  obtain ⟨hts, hmem, hirq⟩ := complete_shape s f k r code resp
  rw [hc, hu] at hts hmem hirq
  generalize complete s f k r code resp = t at hts hmem hirq
  have hslots : ∀ f' k', mbSlot t f' k' = mbSlot (setMb s f k (completedSlot (mbSlot s f k) r code resp)) f' k' := by
    intro f' k'
    have h1 : mbSlot t f' k' = mbSlot u f' k' := mbSlot_congr (by rw [hts]) f' k'
    have h2 : mbSlot u f' k' = mbSlot c f' k' := by rw [← hu]; exact sendRecord_mbSlot ..
    rw [h1, h2]
    exact mbSlot_congr (by rw [hcs]) f' k'
  have hslot : mbSlot t f k = completedSlot (mbSlot s f k) r code resp := by rw [hslots, mbSlot_setMb]
  have hring : (frameOf c f).ring = (frameOf s f).ring := by
    rw [hcs]
    exact (frameOf_setMb s f k _ f).2
  refine ⟨by rw [hslot, completedSlot], by rw [hslot, completedSlot], by rw [hslot, completedSlot], fun i h => ?_, fun i h => ?_, fun f' k' hne => ?_,
    fun hr hon hup => ?_, fun hr hi => ?_, ?_⟩
  · rw [hslot, completedSlot, look_putPayload, if_pos h, List.getD_eq_getElem?_getD,
      List.getElem?_eq_getElem h, Option.getD_some]
  · rw [hslot, completedSlot, look_putPayload, if_neg (by omega)]
  · rw [hslots, mbSlot_setMb_ne s _ hne]
  · have hsent := sendRecord_sent (s := c) (k := k) hr (by rwa [hring]) (by rw [hcs]; exact hup) code resp.length
    dsimp only at hsent
    rw [hu, hring, completionRecord_congr (s := s) (by rw [hcs])] at hsent
    refine ⟨hmem _ hsent.1, ?_⟩
    rw [← hsent.2, frameOf, frameOf, hts]
  · have hquiet : u = c := by rw [← hu, sendRecord, hr]; rfl
    rw [hirq hi, hquiet, hcs]
  · rw [hts, hus, hcs]

/-- Settles O14. -/
theorem completionWritesTheSlot : Obligations.CompletionWritesTheSlot := by
  intro s f k r hrun hwait
  have hdone : completes s f k = complete s f k r r.code r.resp := by
    simp [completes, hrun, finish, hwait, completeNow]
  exact ⟨_, congrArg Host.Outcome.next hdone, completed_complete s f k r r.code r.resp⟩

/-- Settles O15. -/
theorem timeoutCompletes : Obligations.TimeoutCompletes := by
  intro s f k n r hrun hwait htime hlate
  have hstop : timeOut s f k = stopCommand s f k r 9 := by
    simp [timeOut, hrun, hwait, htime, windowOver, hlate]
  exact ⟨_, congrArg Host.Outcome.next hstop, completed_complete s f k r 9 (partResponse s r)⟩

end Sys2Proof.Machine
end

section
/-! What an operation of the machine leaves as it was. Nearly every operation keeps the queue; most keep more, in this order:
what is stored (the fuses and the non-volatile store), the frames of the mailbox, and the engines. One lemma per operation
says how much it keeps: `f_pending`, `f_stored`, `f_boxed` or `f_quiet`. -/

namespace Sys2Proof.Machine

/-- The queue and what survives a loss of power. -/
def stored (s : State) : List Instr × Fuses × NonVolatile := (s.pending, s.fuses, s.nv)

/-- What is stored, and the mailbox. -/
def boxed (s : State) : (List Instr × Fuses × NonVolatile) × Tab Frame := (stored s, s.frames)

/-- What is stored, the mailbox and the engines. -/
def quiet (s : State) : ((List Instr × Fuses × NonVolatile) × Tab Frame) × Tab Engine := (boxed s, s.engines)

theorem quiet_eq_iff {s t : State} : quiet s = quiet t ↔ boxed s = boxed t ∧ s.engines = t.engines :=
  Iff.of_eq (Prod.mk.injEq ..)

theorem boxed_eq_iff {s t : State} : boxed s = boxed t ↔ stored s = stored t ∧ s.frames = t.frames :=
  Iff.of_eq (Prod.mk.injEq ..)

theorem stored_eq_iff {s t : State} : stored s = stored t ↔ s.pending = t.pending ∧ s.fuses = t.fuses ∧ s.nv = t.nv := by
  simp [stored]

theorem boxed_of_quiet {s t : State} (h : quiet s = quiet t) : boxed s = boxed t := (quiet_eq_iff.mp h).1

theorem stored_of_boxed {s t : State} (h : boxed s = boxed t) : stored s = stored t := (boxed_eq_iff.mp h).1

theorem stored_of_quiet {s t : State} (h : quiet s = quiet t) : stored s = stored t := stored_of_boxed (boxed_of_quiet h)

theorem pending_of_stored {s t : State} (h : stored s = stored t) : s.pending = t.pending := (stored_eq_iff.mp h).1

theorem pending_of_boxed {s t : State} (h : boxed s = boxed t) : s.pending = t.pending := pending_of_stored (stored_of_boxed h)

theorem pending_of_quiet {s t : State} (h : quiet s = quiet t) : s.pending = t.pending := pending_of_stored (stored_of_quiet h)

theorem nv_of_quiet {s t : State} (h : quiet s = quiet t) : s.nv = t.nv := (stored_eq_iff.mp (stored_of_quiet h)).2.2

theorem fuses_of_quiet {s t : State} (h : quiet s = quiet t) : s.fuses = t.fuses := (stored_eq_iff.mp (stored_of_quiet h)).2.1

theorem frames_of_quiet {s t : State} (h : quiet s = quiet t) : s.frames = t.frames := (boxed_eq_iff.mp (boxed_of_quiet h)).2

theorem engines_of_quiet {s t : State} (h : quiet s = quiet t) : s.engines = t.engines := (quiet_eq_iff.mp h).2

/-! A state record over the kept parts of `a` keeps them. -/

variable {power_ : Power} {clocks_ : Clocks} {pins_ : Pins} {boot_ : Boot} {hp_ : HostPort} {frames_ : Tab Frame}
  {sup_ : Supervisor} {caps_ : Capability} {slices_ : Tab Slice} {xlat_ : Translation} {mem_ : Memory} {engines_ : Tab Engine}
  {cores_ : Tab Core} {hubs_ : Tab Hub} {regions_ : Tab Region} {mesh_ : Mesh} {narrow_ : List Msg} {fabric_ : Fabric}
  {tiers_ : Tab TierPort} {counts_ : Tab Nat} {outbox_ : List Out} {free_ : Nat}

@[simp] theorem quiet_mk (a : State) : quiet (State.mk a.pending a.fuses a.nv power_ clocks_ pins_ boot_ hp_ a.frames sup_ caps_
    slices_ xlat_ mem_ a.engines cores_ hubs_ regions_ mesh_ narrow_ fabric_ tiers_ counts_ outbox_ free_) = quiet a := rfl

@[simp] theorem boxed_mk (a : State) : boxed (State.mk a.pending a.fuses a.nv power_ clocks_ pins_ boot_ hp_ a.frames sup_ caps_
    slices_ xlat_ mem_ engines_ cores_ hubs_ regions_ mesh_ narrow_ fabric_ tiers_ counts_ outbox_ free_) = boxed a := rfl

@[simp] theorem stored_mk (a : State) : stored (State.mk a.pending a.fuses a.nv power_ clocks_ pins_ boot_ hp_ frames_ sup_ caps_
    slices_ xlat_ mem_ engines_ cores_ hubs_ regions_ mesh_ narrow_ fabric_ tiers_ counts_ outbox_ free_) = stored a := rfl

/-! The records of the parts that change most often. -/

theorem quiet_mem (s : State) (m : Memory) : quiet { s with mem := m } = quiet s := rfl

theorem quiet_xlat (s : State) (x : Translation) : quiet { s with xlat := x } = quiet s := rfl

theorem quiet_xlat_mem (s : State) (x : Translation) (m : Memory) : quiet { s with xlat := x, mem := m } = quiet s := rfl

theorem quiet_sup (s : State) (x : Supervisor) : quiet { s with sup := x } = quiet s := rfl

/-! ## A projection of the state through the operations that take a function

`P` is one of the projections above. What the combinator keeps is what its argument keeps; the second form of each says it as
a choice, for `grind`. -/

theorem each_leaves {σ α β : Type} (P : σ → β) {g : α → σ → σ} (h : ∀ a t, P (g a t) = P t) (l : List α) (s : σ) :
    P (each l s g) = P s := by
  induction l generalizing s with
  | nil => rfl
  | cons a l ih => exact (ih (g a s)).trans (h a s)

theorem each_keeps {α β : Type} (P : State → β) {g : α → State → State} (h : ∀ a t, P (g a t) = P t) (l : List α) (s : State) :
    P (each l s g) = P s :=
  each_leaves P h l s

theorem each_or {α β : Type} (P : State → β) (l : List α) (s : State) (g : α → State → State) :
    P (each l s g) = P s ∨ ∃ a t, P (g a t) ≠ P t := by
  by_cases h : ∀ a t, P (g a t) = P t
  · exact .inl (each_keeps P h l s)
  · obtain ⟨a, ha⟩ := Classical.not_forall.mp h
    exact .inr ⟨a, Classical.not_forall.mp ha⟩

theorem foldl_or {α β : Type} (P : State → β) (l : List α) (s : State) (g : State → α → State) :
    P (l.foldl g s) = P s ∨ ∃ a t, P (g t a) ≠ P t :=
  each_or P l s (fun a t => g t a)

theorem elim_keeps {α β : Type} (P : State → β) {g : α → State} {s : State} (h : ∀ a, P (g a) = P s) (x : Option α) :
    P (x.elim s g) = P s := by
  cases x with
  | none => rfl
  | some a => exact h a

theorem getD_keeps {β : Type} (P : State → β) {s t : State} {x : Option State} (h : ∀ a, x = some a → P a = P s) (ht : P t = P s) :
    P (x.getD t) = P s := by
  cases x with
  | none => exact ht
  | some a => exact h a rfl

theorem act_or {β : Type} (P : State → β) (s : State) (f k op : Nat) (g : Running → State) :
    P (act s f k op g) = P s ∨ ∃ r, P (g r) ≠ P s := by
  unfold act
  split
  · exact .inl rfl
  · next r _ => exact Classical.or_iff_not_imp_left.mpr (fun h => ⟨r, h⟩)

theorem act_keeps {β : Type} (P : State → β) {s : State} {f k op : Nat} {g : Running → State} (h : ∀ r, P (g r) = P s) :
    P (act s f k op g) = P s :=
  (act_or P s f k op g).resolve_right (fun ⟨r, hr⟩ => hr (h r))

end Sys2Proof.Machine
end

section
/-! What the operations of the model keep: Clock, Ops, Sequencer, Mesh, Access, Lanes. -/

namespace Sys2Proof.Machine

/-! ## Clock -/

@[simp] theorem tick_quiet (s : State) : quiet (tick s) = quiet s := by rfl

/-! ## Ops -/

@[simp] theorem bump_quiet (s : State) (c : Ctr) (unit n : Nat) : quiet (bump s c unit n) = quiet s := by rfl

@[simp] theorem bumpMax_quiet (s : State) (c : Ctr) (unit n : Nat) : quiet (bumpMax s c unit n) = quiet s := by rfl

@[simp] theorem freeNext_quiet (s : State) : quiet (freeNext s).2 = quiet s := by rfl

@[simp] theorem emit_quiet (s : State) (o : Out) : quiet (emit s o) = quiet s := by rfl

@[simp] theorem raiseMsix_quiet (s : State) (v : Nat) : quiet (raiseMsix s v) = quiet s := by
  grind [raiseMsix, bump_quiet, emit_quiet, stored, boxed, quiet]

@[simp] theorem hostEvent_quiet (s : State) (bit : Nat) : quiet (hostEvent s bit) = quiet s := by
  grind [hostEvent, raiseMsix_quiet, stored, boxed, quiet]

@[simp] theorem hostRefusal_quiet (s : State) (cause addr : Nat) (write : Bool) : quiet (hostRefusal s cause addr write) = quiet
    s := by
  grind [hostRefusal, stored, boxed, quiet]

@[simp] theorem mctp_quiet (s : State) (code : Nat) (payload : List Byte) : quiet (mctp s code payload) = quiet s := by rfl

@[simp] theorem trayEvent_quiet (s : State) (event : Nat) (detail : List Byte) : quiet (trayEvent s event detail) = quiet s := by rfl

@[simp] theorem setCore_quiet (s : State) (c : Nat) (v : Core) : quiet (setCore s c v) = quiet s := by rfl

@[simp] theorem setSlot_quiet (s : State) (c k : Nat) (v : Slot) : quiet (setSlot s c k v) = quiet s := by rfl

@[simp] theorem setEng_boxed (s : State) (e : Nat) (v : Engine) : boxed (setEng s e v) = boxed s := by rfl

@[simp] theorem setHub_quiet (s : State) (h : Nat) (v : Hub) : quiet (setHub s h v) = quiet s := by rfl

@[simp] theorem setReg_quiet (s : State) (r : Nat) (v : Region) : quiet (setReg s r v) = quiet s := by rfl

@[simp] theorem setSlice_quiet (s : State) (h : Nat) (v : Slice) : quiet (setSlice s h v) = quiet s := by rfl

@[simp] theorem setPort_quiet (s : State) (p : Nat) (v : RolPort) : quiet (setPort s p v) = quiet s := by rfl

@[simp] theorem leaveDomain_quiet (s : State) : quiet (leaveDomain s) = quiet s := by
  unfold leaveDomain; split <;> simp

@[simp] theorem setTier_quiet (s : State) (p : Nat) (v : TierPort) : quiet (setTier s p v) = quiet s := by rfl

@[simp] theorem coreWrite_quiet (s : State) (c off : Nat) (l : List Byte) : quiet (coreWrite s c off l) = quiet s := by rfl

@[simp] theorem detect_quiet (s : State) (el : Element) (code : Nat) (hard : Bool) (place : Nat) : quiet (detect s el code hard
    place) = quiet s := by rfl

@[simp] theorem injectionSeen_quiet (s : State) (unit id : Nat) : quiet (injectionSeen s unit id) = quiet s := by rfl

@[simp] theorem detectAt_quiet (s : State) (el : Element) (cls unit id : Nat) (hard : Bool) : quiet (detectAt s el cls unit id
    hard) = quiet s := by rfl

@[simp] theorem masked_quiet (s : State) (how : Nat) : quiet (masked s how) = quiet s := by rfl

/-! ## Sequencer -/

@[simp] theorem onSlot_quiet (s : State) (c k : Nat) (f : Slot → Slot) : quiet (onSlot s c k f) = quiet s := by rfl

@[simp] theorem setRingWr_quiet (s : State) (c : Nat) (v : Slot) (i wr : Nat) (ph : Bool) : quiet (setRingWr s c v i wr ph) =
    quiet s := by rfl

@[simp] theorem setRingRd_quiet (s : State) (c : Nat) (v : Slot) (i rd : Nat) (ph : Bool) : quiet (setRingRd s c v i rd ph) =
    quiet s := by rfl

@[simp] theorem writeRecord_quiet (s : State) (c k r : Nat) : quiet (writeRecord s c k r) = quiet s := by
  unfold writeRecord; split <;> simp

@[simp] theorem reportError_quiet (s : State) (c k kind cause unit step row col : Nat) (et : Int) (detail : Nat) : quiet
    (reportError s c k kind cause unit step row col et detail) = quiet s := by
  simp [reportError]

@[simp] theorem post_quiet (s : State) (m : Msg) : quiet (post s m) = quiet s := by rfl

@[simp] theorem closeEnds_quiet (s : State) (c k : Nat) : quiet (closeEnds s c k) = quiet s := by rfl

@[simp] theorem setConf_quiet (s : State) (h config : Nat) (v : Conf) : quiet (setConf s h config v) = quiet s := by
  unfold setConf; split <;> simp

@[simp] theorem dropWindow_quiet (s : State) (c k : Nat) : quiet (dropWindow s c k) = quiet s := by
  grind [dropWindow, setConf_quiet, stored, boxed, quiet]

@[simp] theorem faultSlot_quiet (s : State) (c k : Nat) : quiet (faultSlot s c k) = quiet s := by
  simp [faultSlot]

@[simp] theorem noteFault_quiet (s : State) (c k cause unit addr : Nat) : quiet (noteFault s c k cause unit addr) = quiet s := by rfl

@[simp] theorem rejectStep_quiet (s : State) (c k step cause unit row col : Nat) : quiet (rejectStep s c k step cause unit row
    col) = quiet s := by
  simp [rejectStep]

@[simp] theorem poisonStop_quiet (s : State) (c k step unit : Nat) : quiet (poisonStop s c k step unit) = quiet s := by
  simp [poisonStop]

@[simp] theorem consumePoison_quiet (s : State) (c k step cls : Nat) : quiet (consumePoison s c k step cls) = quiet s := by
  simp [consumePoison]

@[simp] theorem rejectQueue_quiet (s : State) (c k step cause : Nat) : quiet (rejectQueue s c k step cause) = quiet s := by
  simp [rejectQueue]

@[simp] theorem reportProgress_quiet (s : State) (c k : Nat) (moved : Bool) : quiet (reportProgress s c k moved) = quiet s := by
  grind [reportProgress, onSlot_quiet, post_quiet, stored, boxed, quiet]

@[simp] theorem liftBeacon_quiet (s : State) (c k : Nat) : quiet (liftBeacon s c k) = quiet s := by
  grind [liftBeacon, onSlot_quiet, post_quiet, stored, boxed, quiet]

@[simp] theorem progress_quiet (s : State) (c k : Nat) (flows : Bool) : quiet (progress s c k flows) = quiet s := by
  unfold progress; split <;> simp

@[simp] theorem controlFault_quiet (s : State) (c k : Nat) : quiet (controlFault s c k) = quiet s := by
  simp [controlFault]

theorem fetchStep_quiet (s : State) (c op : Nat) {t : State} (h : fetchStep s c op = .stops t) : quiet t = quiet s := by
  simp only [fetchStep] at h
  split at h
  · cases h
  · split at h
    · cases h
    · repeat' split at h
      all_goals cases h
      · simp
      · simp
      · simp

@[simp] theorem issueTo_quiet (s : State) (c k : Nat) (d : BitVec 512) : quiet (issueTo s c k d) = quiet s := by
  simp [issueTo]

@[simp] theorem passStep_quiet (s : State) (c k : Nat) (d : BitVec 512) (nxt : Nat) : quiet (passStep s c k d nxt) = quiet s := by
  simp [passStep]

@[simp] theorem selectSlot_quiet (s : State) (c : Nat) : quiet (selectSlot s c) = quiet s := by
  grind [selectSlot, bump_quiet, onSlot_quiet, setCore_quiet, stored, boxed, quiet]

@[simp] theorem settleStop_quiet (s : State) (c k : Nat) : quiet (settleStop s c k) = quiet s := by
  grind [settleStop, dropWindow_quiet, onSlot_quiet, stored, boxed, quiet]

@[simp] theorem settleBlock_quiet (s : State) (c k : Nat) : quiet (settleBlock s c k) = quiet s := by
  unfold settleBlock; split <;> simp

@[simp] theorem settleBeacon_quiet (s : State) (c k : Nat) : quiet (settleBeacon s c k) = quiet s := by
  grind [settleBeacon, onSlot_quiet, post_quiet, stored, boxed, quiet]

@[simp] theorem settleCore_quiet (s : State) (c : Nat) : quiet (settleCore s c) = quiet s := by
  simp [settleCore, each_keeps quiet]

@[simp] theorem giveUp_quiet (s : State) (c k : Nat) (st : SlotState) : quiet (giveUp s c k st) = quiet s := by
  unfold giveUp; split <;> simp

@[simp] theorem completeStep_quiet (s : State) (c k step : Nat) : quiet (completeStep s c k step) = quiet s := by
  simp [completeStep]

@[simp] theorem stepDone_quiet (s : State) (c k step n : Nat) : quiet (stepDone s c k step n) = quiet s := by
  simp [stepDone]

@[simp] theorem orphanTo_quiet (s : State) (fromCore core slot gen step kind detail : Nat) : quiet (orphanTo s fromCore core
    slot gen step kind detail) = quiet s := by rfl

@[simp] theorem putReady_quiet (s : State) (c k x : Nat) : quiet (putReady s c k x) = quiet s := by
  unfold putReady; split <;> simp

@[simp] theorem putFree_quiet (s : State) (c k x : Nat) : quiet (putFree s c k x) = quiet s := by
  unfold putFree; split <;> simp

theorem takeFree_quiet (s : State) (c k h : Nat) {y0 : Nat} {t : State} (h : takeFree s c k h = some (y0, t)) : quiet t = quiet
    s := by
  grind [takeFree, onSlot_quiet, stored, boxed, quiet]

theorem takeReady_quiet (s : State) (c k h : Nat) {y0 : Nat} {t : State} (h : takeReady s c k h = some (y0, t)) : quiet t =
    quiet s := by
  grind [takeReady, onSlot_quiet, stored, boxed, quiet]

@[simp] theorem outsideWrite_quiet (s : State) (c off : Nat) (l : List Byte) (mask : List Bool) : quiet (outsideWrite s c off l
    mask) = quiet s := by
  unfold outsideWrite; split <;> simp

/-- The state a gate leaves. -/
def gateState : Gate → State
  | .open_ s => s
  | .twin s => s
  | .shut s => s

@[simp] theorem gate_quiet (s : State) (c k step crc : Nat) : quiet (gateState (gate s c k step crc)) = quiet s := by
  grind [gate, onSlot_quiet, post_quiet, gateState, stored, boxed, quiet]

@[simp] theorem forwardStep_quiet (s : State) (c k step : Nat) : quiet (forwardStep s c k step) = quiet s := by
  grind [forwardStep, completeStep_quiet, onSlot_quiet, settleCore_quiet, stored, boxed, quiet]

@[simp] theorem issueTwin_quiet (s : State) (c k : Nat) (d : BitVec 512) : quiet (issueTwin s c k d) = quiet s := by
  grind [issueTwin, issueTo_quiet, onSlot_quiet, passStep_quiet, stored, boxed, quiet]

/-! ## Mesh -/

@[simp] theorem setPairSrc_quiet (s : State) (src dst : Nat) (v : PairSrc) : quiet (setPairSrc s src dst v) = quiet s := by rfl

@[simp] theorem setPairDst_quiet (s : State) (src dst : Nat) (v : PairDst) : quiet (setPairDst s src dst v) = quiet s := by rfl

@[simp] theorem setWire_quiet (s : State) (router port : Nat) (l : List Packet) : quiet (setWire s router port l) = quiet s := by rfl

@[simp] theorem setArrivals_quiet (s : State) (ep : Nat) (l : List Packet) : quiet (setArrivals s ep l) = quiet s := by rfl

@[simp] theorem arriveAt_quiet (s : State) (router port : Nat) (p : Packet) : quiet (arriveAt s router port p) = quiet s := by rfl

@[simp] theorem admitEach_quiet (router port : Nat) (x0 : List Nat) (x1 : List Packet) (s : State) : quiet (admitEach router
    port x0 x1 s).1 = quiet s := by
  fun_induction admitEach <;> grind [arriveAt_quiet, stored, boxed, quiet]

@[simp] theorem enterPort_quiet (s : State) (router port : Nat) : quiet (enterPort s router port) = quiet s := by
  unfold enterPort; split <;> simp

@[simp] theorem waitAtPort_quiet (s : State) (router port : Nat) (p : Packet) : quiet (waitAtPort s router port p) = quiet s := by
  simp [waitAtPort]

@[simp] theorem launch_quiet (s : State) (p : Packet) : quiet (launch s p) = quiet s := by
  simp [launch]

theorem inject_quiet (s : State) (p : Packet) (flagged g1 : Bool) {t : State} (h : inject s p flagged g1 = some t) : quiet t =
    quiet s := by
  grind [inject, bump_quiet, launch_quiet, setPairSrc_quiet, stored, boxed, quiet]

@[simp] theorem freeAnswered_quiet (s : State) (src dst answers : Nat) : quiet (freeAnswered s src dst answers) = quiet s := by
  grind [freeAnswered, setPairSrc_quiet, settleCore_quiet, stored, boxed, quiet]

@[simp] theorem discardPacket_quiet (s : State) (router : Nat) (p : Packet) : quiet (discardPacket s router p) = quiet s := by
  grind [discardPacket, bump_quiet, waitAtPort_quiet, stored, boxed, quiet]

@[simp] theorem handOver_quiet (s : State) (p : Packet) : quiet (handOver s p) = quiet s := by rfl

@[simp] theorem decideReset_quiet (s : State) (domain target trigger cls config : Nat) (holding : List Element) (repair : Option
    (Nat × Nat)) : quiet (decideReset s domain target trigger cls config holding repair) = quiet s := by rfl

@[simp] theorem escalate_quiet (s : State) (structure_ place : Nat) : quiet (escalate s structure_ place) = quiet s := by rfl

/-! ## Access -/

@[simp] theorem wordsLost_quiet (s : State) (a n : Nat) : quiet (wordsLost s a n) = quiet s := by
  unfold wordsLost; split <;> simp

@[simp] theorem startWalk_quiet (s : State) (unit : Unit) (a : Nat) (write : Bool) : quiet (startWalk s unit a write) = quiet s
    := by
  unfold startWalk; split <;> simp

@[simp] theorem lookedUp_quiet (s : State) (unit : Unit) (missed : Bool) : quiet (lookedUp s unit missed) = quiet s := by
  grind [lookedUp, bump_quiet, stored, boxed, quiet]

@[simp] theorem discardCached_quiet (s : State) (p : Leaf → Bool) : quiet (discardCached s p) = quiet s := by
  simp [discardCached, each_keeps quiet]

@[simp] theorem dropCovering_quiet (s : State) (unit : Unit) (a : Nat) : quiet (dropCovering s unit a) = quiet s := by
  unfold dropCovering; split <;> simp

@[simp] theorem snoopLine_quiet (s : State) (line : Nat) (data : Bool) (why : Nat) (unit : Option Unit) : quiet (snoopLine s
    line data why unit) = quiet s := by
  unfold snoopLine; split <;> simp

@[simp] theorem snoopAll_quiet (s : State) (lines : List Nat) (data : Bool) (why : Nat) (unit : Option Unit) : quiet (snoopAll s
    lines data why unit) = quiet s := by
  simp [snoopAll, each_keeps quiet]

@[simp] theorem cacheLeaf_quiet (s : State) (unit : Unit) (l : Leaf) : quiet (cacheLeaf s unit l) = quiet s := by
  unfold cacheLeaf; split <;> simp

@[simp] theorem physWrite_quiet (s : State) (a : Nat) (data : List Byte) (mask : List Bool) : quiet (physWrite s a data mask) =
    quiet s := by
  unfold physWrite; split <;> simp

@[simp] theorem queueRow_quiet (s : State) (port : Nat) (r : Row) : quiet (queueRow s port r) = quiet s := by rfl

@[simp] theorem queueTo_quiet (s : State) (port member hops : Nat) (r : Row) : quiet (queueTo s port member hops r) = quiet s := by
  unfold queueTo; split <;> simp

@[simp] theorem sendBy_quiet (s : State) (handle e : Nat) (r : Row) : quiet (sendBy s handle e r) = quiet s := by
  grind [sendBy, queueTo_quiet, stored, boxed, quiet]

@[simp] theorem sendRow_quiet (s : State) (handle : Nat) (r : Row) : quiet (sendRow s handle r) = quiet s := by
  simp [sendRow]

@[simp] theorem addRequest_quiet (s : State) (kind : Nat) (unit : Unit) (tag slot step : Nat) : quiet (addRequest s kind unit
    tag slot step).2 = quiet s := by rfl

/-! ## Lanes -/

@[simp] theorem withoutMsg_quiet (s : State) (i : Nat) : quiet (withoutMsg s i) = quiet s := by rfl

theorem takeMsg_quiet (s : State) (i : Nat) {y0 : Msg} {t : State} (h : takeMsg s i = some (y0, t)) : quiet t = quiet s := by
  grind [takeMsg, withoutMsg_quiet, stored, boxed, quiet]

@[simp] theorem moveMsg_quiet (s : State) (i place : Nat) (tbl : Bool) (m : Msg) : quiet (moveMsg s i place tbl m) = quiet s := by rfl

@[simp] theorem answerSync_quiet (s : State) (r index c k tag status : Nat) (word : Reg) : quiet (answerSync s r index c k tag
    status word) = quiet s := by rfl

@[simp] theorem dropMessage_quiet (s : State) (router : Nat) (m : Msg) (tag epoch endEpoch reason : Nat) : quiet (dropMessage s
    router m tag epoch endEpoch reason) = quiet s := by rfl

@[simp] theorem sendDone_quiet (s : State) (m : Msg) : quiet (sendDone s m) = quiet s := by
  grind [sendDone, completeStep_quiet, forwardStep_quiet, settleCore_quiet, stored, boxed, quiet]

@[simp] theorem departs_quiet (s : State) (m : Msg) : quiet (departs s m) = quiet s := by
  unfold departs; split <;> simp

@[simp] theorem unreachableMsg_quiet (s : State) (i router : Nat) (m : Msg) : quiet (unreachableMsg s i router m) = quiet s := by
  unfold unreachableMsg; split <;> simp

@[simp] theorem hopMsg_quiet (s : State) (i : Nat) (m : Msg) : quiet (hopMsg s i m) = quiet s := by
  grind [hopMsg, departs_quiet, moveMsg_quiet, unreachableMsg_quiet, stored, boxed, quiet]

theorem onMsg_or {β : Type} {P : State → β} (hP : ∀ {s t}, quiet s = quiet t → P s = P t) (s : State) (i : Nat) (f : Msg → State → Option State) :
    P (onMsg s i f) = P s ∨ ∃ m t u, quiet t = quiet s ∧ f m t = some u ∧ P u ≠ P t := by
  unfold onMsg
  split
  · next m t hm =>
    have ht : quiet t = quiet s := takeMsg_quiet s i hm
    cases hf : f m t with
    | none => exact .inl rfl
    | some u =>
      refine Classical.or_iff_not_imp_left.mpr (fun h => ⟨m, t, u, ht, hf, fun hu => h ?_⟩)
      exact (hP (departs_quiet u m)).trans (hu.trans (hP ht))
  · left
    split
    · exact hP (hopMsg_quiet ..)
    · rfl
  · exact .inl rfl

@[simp] theorem setLane_quiet (s : State) (c k n : Nat) (l : Lane) : quiet (setLane s c k n l) = quiet s := by rfl

@[simp] theorem setOut_quiet (s : State) (c k n : Nat) (p : Port) : quiet (setOut s c k n p) = quiet s := by rfl

@[simp] theorem returnCredits_quiet (s : State) (c k n : Nat) : quiet (returnCredits s c k n) = quiet s := by
  grind [returnCredits, post_quiet, setLane_quiet, stored, boxed, quiet]

theorem dequeue_quiet (s : State) (c k n : Nat) {y0 : Token} {t : State} (h : dequeue s c k n = some (y0, t)) : quiet t = quiet
    s := by
  obtain ⟨y, _, hy⟩ := Option.map_eq_some_iff.mp h
  dsimp only at hy
  obtain ⟨-, rfl⟩ := Prod.mk.inj hy
  split <;> simp

@[simp] theorem openLane_quiet (s : State) (c k n : Nat) : quiet (openLane s c k n) = quiet s := by rfl

@[simp] theorem requestOpen_quiet (s : State) (c k n : Nat) : quiet (requestOpen s c k n) = quiet s := by rfl

@[simp] theorem arriveToken_quiet (s : State) (c k n : Nat) (t : Token) : quiet (arriveToken s c k n t) = quiet s := by
  grind [arriveToken, bump_quiet, setLane_quiet, stored, boxed, quiet]

end Sys2Proof.Machine
end

section
/-! What the operations of the model keep: Moves, Streams, Engines, Vector, Copies. -/

namespace Sys2Proof.Machine

/-! ## Moves -/

@[simp] theorem freshTag_quiet (s : State) (unit : Unit) : quiet (freshTag s unit).2 = quiet s := by
  unfold freshTag; split <;> simp

@[simp] theorem remoteRead_quiet (s : State) (i : Issuer) (g : Seg) (a : Nat) : quiet (remoteRead s i g a).1 = quiet s := by
  unfold remoteRead; split <;> simp

@[simp] theorem remoteWrite_quiet (s : State) (i : Issuer) (g : Seg) (a : Nat) : quiet (remoteWrite s i g a).1 = quiet s := by
  unfold remoteWrite; split <;> simp

@[simp] theorem readAt_quiet (s : State) (i : Issuer) (g : Seg) (ga a : Nat) (shared : Bool) : quiet (readAt s i g ga a
    shared).1 = quiet s := by
  grind [readAt, freshTag_quiet, inject_quiet, stored, boxed, quiet]

@[simp] theorem writeAt_quiet (s : State) (i : Issuer) (g : Seg) (ga a : Nat) : quiet (writeAt s i g ga a).1 = quiet s := by
  grind [writeAt, freshTag_quiet, inject_quiet, physWrite_quiet, stored, boxed, quiet]

@[simp] theorem segRead_quiet (s : State) (i : Issuer) (g : Seg) : quiet (segRead s i g).1 = quiet s := by
  grind [segRead, lookedUp_quiet, readAt_quiet, remoteRead_quiet, snoopAll_quiet, startWalk_quiet, stored, boxed, quiet]

@[simp] theorem segWrite_quiet (s : State) (i : Issuer) (g : Seg) : quiet (segWrite s i g).1 = quiet s := by
  grind [segWrite, lookedUp_quiet, remoteWrite_quiet, snoopAll_quiet, startWalk_quiet, writeAt_quiet, stored, boxed, quiet]

@[simp] theorem segStep_quiet (s : State) (i : Issuer) (g : Seg) : quiet (segStep s i g).1 = quiet s := by
  grind [segStep, segRead_quiet, segWrite_quiet, stored, boxed, quiet]

@[simp] theorem segsStep_quiet (s : State) (i : Issuer) (x0 : List Seg) : quiet (segsStep s i x0).1 = quiet s := by
  fun_induction segsStep <;> grind [segStep_quiet, stored, boxed, quiet]

@[simp] theorem findSide_quiet (s : State) (i : Issuer) (l : Loc) (n : Nat) (write : Bool) : quiet (findSide s i l n write).1 =
    quiet s := by
  unfold findSide; grind [escalate_quiet, lookedUp_quiet, snoopAll_quiet, startWalk_quiet, stored, boxed, quiet]

@[simp] theorem findSides_quiet (s : State) (i : Issuer) (x0 : List Seg) : quiet (findSides s i x0).1 = quiet s := by
  fun_induction findSides <;> grind [findSide_quiet, stored, boxed, quiet]

@[simp] theorem mcopyRecord_quiet (s : State) (i : Issuer) (j : CopyJob) (n : Nat) : quiet (mcopyRecord s i j n).1 = quiet s := by
  grind [mcopyRecord, findSides_quiet, physWrite_quiet, each_or quiet, stored, boxed, quiet]

@[simp] theorem fillSegs_quiet (s : State) (i : Issuer) (x0 : List Seg) : quiet (fillSegs s i x0).1 = quiet s := by
  fun_induction fillSegs <;> grind [findSide_quiet, physWrite_quiet, stored, boxed, quiet]

@[simp] theorem localSegs_quiet (s : State) (i : Issuer) (j : CopyJob) : quiet (localSegs s i j).1 = quiet s := by
  unfold localSegs
  split
  · have hrec (n : Nat) (p : State × CopyJob × Option Stop) : quiet (if p.2.2.isSome || p.2.1.made ≤ n then p
      else
        let r := mcopyRecord p.1 i p.2.1 n
        match r.2.2 with
        | some x =>
          let z := stopAt r.2.1 n x
          (r.1, z.1, z.2)
        | none => r).1 = quiet p.1 := by
      split
      · rfl
      · dsimp only
        split <;> exact mcopyRecord_quiet ..
    exact each_leaves (fun p => quiet p.1) hrec _ (s, j, none)
  · split
    · dsimp only
      split <;> exact fillSegs_quiet ..
    · rfl

@[simp] theorem copySegs_quiet (s : State) (i : Issuer) (x0 : List Seg) : quiet (copySegs s i x0).1 = quiet s := by
  fun_induction copySegs <;> grind [segStep_quiet, stored, boxed, quiet]

@[simp] theorem writeDone_quiet (s : State) (j : CopyJob) : quiet (writeDone s j) = quiet s := by rfl

@[simp] theorem retire_quiet (s : State) (j : CopyJob) : quiet (retire s j).1 = quiet s := by
  unfold retire
  extract_lets n j' t u
  split
  · rfl
  · have hu : quiet u = quiet t := each_keeps quiet (fun a t => by simp only [elim_keeps quiet (fun a => bump_quiet _ _ _ _)]; split <;> simp) _ _
    simp [hu, t]

@[simp] theorem restartJob_quiet (s : State) (j : CopyJob) : quiet (restartJob s j).1 = quiet s := by rfl

@[simp] theorem copyPass_quiet (s : State) (i : Issuer) (j : CopyJob) : quiet (copyPass s i j).1 = quiet s := by
  grind [copyPass, copySegs_quiet, localSegs_quiet, retire_quiet, stored, boxed, quiet]

@[simp] theorem copyRun_quiet (i : Issuer) (x0 : Nat) (s : State) (x2 : CopyJob) : quiet (copyRun i x0 s x2).1 = quiet s := by
  fun_induction copyRun <;> grind [copyPass_quiet, stored, boxed, quiet]

@[simp] theorem setJobs_quiet (s : State) (unit : Unit) (l : List CopyJob) : quiet (setJobs s unit l) = quiet s := by
  unfold setJobs; split <;> simp

@[simp] theorem resolveStop_quiet (s : State) (unit : Unit) (x : Stop) : quiet (resolveStop s unit x).1 = quiet s := by
  unfold resolveStop; grind [bump_quiet, stored, boxed, quiet]

@[simp] theorem unitFault_quiet (s : State) (c k step cause addr cls : Nat) : quiet (unitFault s c k step cause addr cls) =
    quiet s := by
  simp [unitFault]

@[simp] theorem stopCopy_quiet (s : State) (unit : Unit) (j : CopyJob) (x : Stop) : quiet (stopCopy s unit j x) = quiet s := by
  grind [stopCopy, consumePoison_quiet, noteFault_quiet, rejectStep_quiet, reportProgress_quiet, resolveStop_quiet,
    setJobs_quiet, settleCore_quiet, unitFault_quiet, stored, boxed, quiet]

@[simp] theorem finishCopy_quiet (s : State) (unit : Unit) (j : CopyJob) : quiet (finishCopy s unit j) = quiet s := by
  unfold finishCopy; split <;> simp

@[simp] theorem pumpJob_quiet (s : State) (unit : Unit) (j : CopyJob) : quiet (pumpJob s unit j) = quiet s := by
  grind [pumpJob, copyRun_quiet, finishCopy_quiet, setJobs_quiet, stopCopy_quiet, stored, boxed, quiet]

@[simp] theorem addressFault_quiet (s : State) (unit : Unit) (hard : Bool) : quiet (addressFault s unit hard) = quiet s := by
  unfold addressFault; split <;> simp

theorem copyUpset_quiet (s : State) (unit : Unit) {t : State} (h : copyUpset s unit = some t) : quiet t = quiet s := by
  obtain ⟨j, _, rfl⟩ := Option.map_eq_some_iff.mp h
  simp

@[simp] theorem dropCached_quiet (s : State) (unit : Unit) (i : Nat) : quiet (dropCached s unit i) = quiet s := by
  unfold dropCached; split <;> simp

theorem onUpset_or {β : Type} {P : State → β} (hP : ∀ {s t}, quiet s = quiet t → P s = P t) (s : State) (unit : Unit) (u : Upset) (halt : State → Option State) (go : State → State) :
    P (onUpset s unit u halt go) = P s ∨ (∃ t, P (go t) ≠ P t) ∨ ∃ t, halt s = some t ∧ P t ≠ P s := by
  by_cases hgo : ∀ t, P (go t) = P t
  · cases u with
    | none => exact .inl (hgo s)
    | address =>
      cases hh : halt s with
      | none =>
        left
        simpa [onUpset, hh] using hgo s
      | some t =>
        by_cases ht : P t = P s
        · left
          simpa [onUpset, hh] using ht
        · exact .inr (.inr ⟨t, rfl, ht⟩)
    | cached i => exact .inl ((hgo _).trans (hP (dropCached_quiet ..)))
  · exact .inr (.inl (Classical.not_forall.mp hgo))

@[simp] theorem restartJobs_quiet (s : State) (unit : Unit) (p : CopyJob → Bool) : quiet (restartJobs s unit p) = quiet s := by
  simp [restartJobs, each_keeps quiet]

@[simp] theorem pumpCopies_quiet (s : State) (unit : Unit) : quiet (pumpCopies s unit) = quiet s := by
  grind [pumpCopies, pumpJob_quiet, each_or quiet, stored, boxed, quiet]

/-! ## Streams -/

@[simp] theorem setStrm_quiet (s : State) (c k n : Nat) (t : Stream) : quiet (setStrm s c k n t) = quiet s := by rfl

@[simp] theorem writeShare_boxed (s : State) (id i off : Nat) (l : Tainted) : boxed (writeShare s id i off l) = boxed s := by rfl

@[simp] theorem stageChunk_quiet (s : State) (c : Nat) (d : BitVec 1024) (ch : Chunk) (head data : Tainted) : quiet (stageChunk
    s c d ch head data).1 = quiet s := by
  grind [stageChunk, stored, boxed, quiet]

@[simp] theorem addDrawn_quiet (s : State) (c k n : Nat) (more : Tainted) : quiet (addDrawn s c k n more) = quiet s := by rfl

@[simp] theorem drawTokens_quiet (c k n pos : Nat) (x0 : Nat) (s : State) : quiet (drawTokens c k n pos x0 s) = quiet s := by
  fun_induction drawTokens <;> grind [addDrawn_quiet, dequeue_quiet, stored, boxed, quiet]

@[simp] theorem drawBuffer_quiet (s : State) (c k n i : Nat) : quiet (drawBuffer s c k n i) = quiet s := by rfl

@[simp] theorem drawHandles_quiet (c k n pos : Nat) (x0 : Nat) (s : State) : quiet (drawHandles c k n pos x0 s) = quiet s := by
  fun_induction drawHandles <;> grind [drawBuffer_quiet, setStrm_quiet, takeReady_quiet, stored, boxed, quiet]

@[simp] theorem drawFor_quiet (s : State) (c k n pos : Nat) : quiet (drawFor s c k n pos) = quiet s := by
  grind [drawFor, drawHandles_quiet, drawTokens_quiet, stored, boxed, quiet]

@[simp] theorem stepChunks_quiet (s : State) (i : Issuer) (v : Slot) (t : Stream) (x0 : List Chunk) : quiet (stepChunks s i v t
    x0).1 = quiet s := by
  fun_induction stepChunks <;> grind [segsStep_quiet, stored, boxed, quiet]

@[simp] theorem runChunks_quiet (i : Issuer) (v : Slot) (t : Stream) (x0 : Nat) (s : State) (x2 : List Chunk) : quiet (runChunks
    i v t x0 s x2).1 = quiet s := by
  fun_induction runChunks <;> grind [stepChunks_quiet, stored, boxed, quiet]

@[simp] theorem writeElems_quiet (s : State) (c k n : Nat) : quiet (writeElems s c k n) = quiet s := by rfl

@[simp] theorem stopStream_quiet (s : State) (c k n : Nat) (x : Stop) : quiet (stopStream s c k n x) = quiet s := by
  grind [stopStream, consumePoison_quiet, rejectStep_quiet, reportProgress_quiet, resolveStop_quiet, setStrm_quiet,
    settleCore_quiet, unitFault_quiet, writeElems_quiet, stored, boxed, quiet]

@[simp] theorem setChunk_quiet (s : State) (c k n : Nat) (ch : Chunk) : quiet (setChunk s c k n ch) = quiet s := by rfl

@[simp] theorem settleChunks_quiet (c k n : Nat) (x0 : Nat) (s : State) : quiet (settleChunks c k n x0 s) = quiet s := by
  fun_induction settleChunks
  case case5 ih =>
    rw [ih]
    split <;> grind [setChunk_quiet, drawFor_quiet, stageChunk_quiet, bump_quiet, setStrm_quiet]
  all_goals grind [setChunk_quiet, drawFor_quiet, stageChunk_quiet, bump_quiet, setStrm_quiet]

@[simp] theorem fetchStream_quiet (s : State) (c k n w : Nat) : quiet (fetchStream s c k n w) = quiet s := by
  grind [fetchStream, bump_quiet, runChunks_quiet, setStrm_quiet, settleChunks_quiet, stopStream_quiet, stored, boxed, quiet]

@[simp] theorem prefetch_quiet (s : State) (c k n : Nat) : quiet (prefetch s c k n) = quiet s := by
  grind [prefetch, fetchStream_quiet, stored, boxed, quiet]

@[simp] theorem returnHandles_quiet (s : State) (c k n : Nat) : quiet (returnHandles s c k n) = quiet s := by
  simp [returnHandles, each_keeps quiet]

@[simp] theorem rewindStream_quiet (s : State) (c k n tile : Nat) : quiet (rewindStream s c k n tile) = quiet s := by rfl

@[simp] theorem engReject_quiet (s : State) (c k step cause id : Nat) (d : BitVec 512) : quiet (engReject s c k step cause id d)
    = quiet s := by
  grind [engReject, bump_quiet, noteFault_quiet, rejectStep_quiet, settleCore_quiet, stored, boxed, quiet]

@[simp] theorem releaseMarks_quiet (s : State) (a : OpenAcc) : quiet (releaseMarks s a) = quiet s := by
  simp [releaseMarks, each_keeps quiet]

@[simp] theorem takeReplay_boxed (s : State) (id : Nat) : boxed (takeReplay s id) = boxed s := by
  grind [takeReplay, rewindStream_quiet, setEng_boxed, each_or boxed, stored, boxed, quiet]

@[simp] theorem discardAcc_boxed (s : State) (id : Nat) (a : OpenAcc) : boxed (discardAcc s id a) = boxed s := by
  grind [discardAcc, releaseMarks_quiet, setEng_boxed, takeReplay_boxed, stored, boxed, quiet]

@[simp] theorem fillHalf_boxed (s : State) (id role : Nat) (plan : Nat) (d : BitVec 1024) (gc : Bool) (data : Tainted) : boxed
    (fillHalf s id role plan d gc data) = boxed s := by
  simp [fillHalf, each_keeps boxed]

@[simp] theorem rejectLoad_boxed (s : State) (id : Nat) (w : Accepted) (x : Nat) : boxed (rejectLoad s id w x) = boxed s := by
  grind [rejectLoad, discardAcc_boxed, engReject_quiet, setEng_boxed, stored, boxed, quiet]

@[simp] theorem deliverLoad_boxed (s : State) (c k n : Nat) : boxed (deliverLoad s c k n).1 = boxed s := by
  grind [deliverLoad, bump_quiet, fillHalf_boxed, progress_quiet, rejectLoad_boxed, returnHandles_quiet, setEng_boxed,
    setStrm_quiet, writeElems_quiet, stored, boxed, quiet]

@[simp] theorem pumpOperand_boxed (s : State) (c k n : Nat) : boxed (pumpOperand s c k n).1 = boxed s := by
  grind [pumpOperand, deliverLoad_boxed, fetchStream_quiet, stored, boxed, quiet]

@[simp] theorem deliverRow_quiet (s : State) (c k n : Nat) : quiet (deliverRow s c k n).1 = quiet s := by
  grind [deliverRow, bump_quiet, consumePoison_quiet, rejectStep_quiet, returnHandles_quiet, setStrm_quiet, settleCore_quiet,
    writeElems_quiet, stored, boxed, quiet]

@[simp] theorem pumpIn_quiet (s : State) (c k n : Nat) : quiet (pumpIn s c k n).1 = quiet s := by
  grind [pumpIn, deliverRow_quiet, fetchStream_quiet, stored, boxed, quiet]

@[simp] theorem beginOut_quiet (c k n : Nat) (x0 : Nat) (s : State) : quiet (beginOut c k n x0 s) = quiet s := by
  fun_induction beginOut <;> grind [setStrm_quiet, stageChunk_quiet, stored, boxed, quiet]

@[simp] theorem stepOut_quiet (c k n : Nat) (x0 : List Chunk) (x1 : Bool) (s : State) : quiet (stepOut c k n x0 x1 s).1 = quiet
    s := by
  fun_induction stepOut <;> grind [segsStep_quiet, setChunk_quiet, setStrm_quiet, stored, boxed, quiet]

@[simp] theorem retireOut_quiet (c k n : Nat) (x0 : Nat) (s : State) : quiet (retireOut c k n x0 s) = quiet s := by
  fun_induction retireOut <;> grind [bump_quiet, progress_quiet, setStrm_quiet, writeElems_quiet, stored, boxed, quiet]

@[simp] theorem runOut_quiet (c k n : Nat) (x0 : Nat) (s : State) : quiet (runOut c k n x0 s).1 = quiet s := by
  fun_induction runOut <;> grind [beginOut_quiet, retireOut_quiet, stepOut_quiet, stored, boxed, quiet]

@[simp] theorem pumpOut_quiet (s : State) (c k n : Nat) : quiet (pumpOut s c k n).1 = quiet s := by
  grind [pumpOut, runOut_quiet, stopStream_quiet, stored, boxed, quiet]

theorem strmUpset_quiet (s : State) (c k n : Nat) {t : State} (h : strmUpset s c k n = some t) : quiet t = quiet s := by
  grind [strmUpset, addressFault_quiet, bump_quiet, setStrm_quiet, writeElems_quiet, stored, boxed, quiet]

@[simp] theorem pumpStream_boxed (s : State) (c k n : Nat) : boxed (pumpStream s c k n).1 = boxed s := by
  grind [pumpStream, pumpIn_quiet, pumpOperand_boxed, pumpOut_quiet, stored, boxed, quiet]

@[simp] theorem closeTiles_quiet (s : State) (c k n : Nat) : quiet (closeTiles s c k n) = quiet s := by
  grind [closeTiles, bump_quiet, pumpOut_quiet, setStrm_quiet, stored, boxed, quiet]

@[simp] theorem placeHeader_quiet (s : State) (c k n : Nat) (g : Seg) : quiet (placeHeader s c k n g) = quiet s := by
  grind [placeHeader, physWrite_quiet, remoteWrite_quiet, snoopAll_quiet, stored, boxed, quiet]

@[simp] theorem leavePartial_quiet (s : State) (c k n : Nat) : quiet (leavePartial s c k n) = quiet s := by
  grind [leavePartial, bump_quiet, placeHeader_quiet, each_or quiet, stored, boxed, quiet]

/-! ## Engines -/

@[simp] theorem engArith_quiet (s : State) (c k step cause id row col : Nat) (et : Int) : quiet (engArith s c k step cause id
    row col et) = quiet s := by
  simp [engArith]

@[simp] theorem countArmed_quiet (s : State) (id m : Nat) (cs live audited : List Nat) : quiet (countArmed s id m cs live
    audited) = quiet s := by
  fun_cases countArmed
  grind [bump_quiet, stored, boxed, quiet]

@[simp] theorem engPoison_boxed (s : State) (id : Nat) (w : Accepted) (cls : Nat) : boxed (engPoison s id w cls) = boxed s := by
  grind [engPoison, detectAt_quiet, noteFault_quiet, poisonStop_quiet, releaseMarks_quiet, setEng_boxed, settleCore_quiet,
    takeReplay_boxed, each_or boxed, stored, boxed, quiet]

@[simp] theorem attach_quiet (s : State) (c k n engine role : Nat) : quiet (attach s c k n engine role) = quiet s := by rfl

@[simp] theorem endRewind_quiet (s : State) (a : OpenAcc) : quiet (endRewind s a) = quiet s := by
  simp [endRewind, each_keeps quiet]

@[simp] theorem runLoad_boxed (s : State) (id : Nat) : boxed (runLoad s id) = boxed s := by
  grind [runLoad, bump_quiet, completeStep_quiet, discardAcc_boxed, endRewind_quiet, engArith_quiet, engPoison_boxed,
    prefetch_quiet, setEng_boxed, settleCore_quiet, stored, boxed, quiet]

@[simp] theorem armAcc_quiet (s : State) (id : Nat) (a : OpenAcc) : quiet (armAcc s id a).1 = quiet s := by
  grind [armAcc, countArmed_quiet, stored, boxed, quiet]

@[simp] theorem takeWords_boxed (s : State) (id : Nat) (a : OpenAcc) : boxed (takeWords s id a) = boxed s := by
  grind [takeWords, discardAcc_boxed, engArith_quiet, engPoison_boxed, setEng_boxed, stored, boxed, quiet]

@[simp] theorem engTake_boxed (s : State) (w : Accepted) : boxed (engTake s w) = boxed s := by
  have harm (id : Nat) (a : OpenAcc) : boxed (armAcc s id a).1 = boxed s := boxed_of_quiet (armAcc_quiet s id a)
  unfold engTake
  extract_lets c k d id e0 kept e t s' r u e'
  have ht : boxed t = boxed s := by
    unfold t
    split
    · exact boxed_of_quiet (detectAt_quiet ..)
    · rfl
  have hu : boxed u = boxed s := by
    unfold u r
    split
    · exact harm ..
    · rfl
  clear_value t u r
  split
  · rw [engPoison_boxed, setEng_boxed, ht]
  · split
    · split
      · rw [takeWords_boxed, setEng_boxed, hu]
      · exact hu
    · split
      · rw [setEng_boxed, hu]
      · rw [boxed_of_quiet (attach_quiet ..), boxed_of_quiet (attach_quiet ..), setEng_boxed, hu]

@[simp] theorem engAccept_boxed (s : State) (w : Accepted) : boxed (engAccept s w) = boxed s := by
  grind [engAccept, engArith_quiet, engReject_quiet, engTake_boxed, settleCore_quiet, stored, boxed, quiet]

theorem serveWaiting_boxed (s : State) (c op : Nat) {t : State} (h : serveWaiting s c op = some t) : boxed t = boxed s := by
  obtain ⟨g, _, hg⟩ := List.exists_of_findSome?_eq_some h
  obtain ⟨w, _, hw⟩ := Option.bind_eq_some_iff.mp hg
  split at hw
  · cases hw
    simp
  · cases hw

@[simp] theorem engStep_boxed (s : State) (c op : Nat) : boxed (engStep s c op) = boxed s := by
  have hset (t : State) : boxed (settleCore t c) = boxed t := boxed_of_quiet (settleCore_quiet t c)
  unfold engStep
  split
  · next t h =>
    split at h
    · exact serveWaiting_boxed s c op h
    · cases h
  · split
    · rfl
    · rfl
    · next t h => rw [hset, boxed_of_quiet (fetchStep_quiet s c op h)]
    · dsimp only
      have hissue : ∀ k d, boxed (issueTo s c k d) = boxed s := fun k d => boxed_of_quiet (issueTo_quiet ..)
      split
      · simp [hset, hissue]
      · split
        · exact boxed_of_quiet (engReject_quiet ..)
        · split
          · exact boxed_of_quiet (engArith_quiet ..)
          · simp [hset, hissue]

@[simp] theorem restart_boxed (s : State) (id : Nat) (a : OpenAcc) : boxed (restart s id a) = boxed s := by
  grind [restart, bump_quiet, rewindStream_quiet, setEng_boxed, each_or boxed, stored, boxed, quiet]

@[simp] theorem checkMismatch_boxed (s : State) (id : Nat) (a : OpenAcc) : boxed (checkMismatch s id a) = boxed s := by
  grind [checkMismatch, bump_quiet, detect_quiet, engPoison_boxed, injectionSeen_quiet, restart_boxed, setEng_boxed, stored,
    boxed, quiet]

@[simp] theorem finishPass_boxed (s : State) (id : Nat) (a : OpenAcc) : boxed (finishPass s id a) = boxed s := by
  grind [finishPass, completeStep_quiet, coreWrite_quiet, engPoison_boxed, masked_quiet, releaseMarks_quiet, setEng_boxed,
    takeReplay_boxed, stored, boxed, quiet]

@[simp] theorem sendPartial_boxed (s : State) (id : Nat) (a : OpenAcc) : boxed (sendPartial s id a) = boxed s := by
  grind [sendPartial, bump_quiet, completeStep_quiet, gate_quiet, launch_quiet, masked_quiet, setEng_boxed, takeReplay_boxed,
    each_or boxed, gateState, stored, boxed, quiet]

@[simp] theorem finishTile_boxed (s : State) (id : Nat) (a : OpenAcc) : boxed (finishTile s id a) = boxed s := by
  grind [finishTile, bump_quiet, discardAcc_boxed, engArith_quiet, engPoison_boxed, masked_quiet, releaseMarks_quiet,
    restart_boxed, setEng_boxed, takeReplay_boxed, stored, boxed, quiet]

@[simp] theorem finalise_boxed (s : State) (id : Nat) (mismatch : Bool) : boxed (finalise s id mismatch) = boxed s := by
  grind [finalise, checkMismatch_boxed, discardAcc_boxed, engReject_quiet, finishPass_boxed, finishTile_boxed,
    sendPartial_boxed, settleCore_quiet, stored, boxed, quiet]

@[simp] theorem epiMismatch_boxed (s : State) (id tile : Nat) (a : OpenAcc) : boxed (epiMismatch s id tile a) = boxed s := by
  grind [epiMismatch, bump_quiet, detectAt_quiet, setEng_boxed, takeReplay_boxed, stored, boxed, quiet]

@[simp] theorem drainTile_boxed (s : State) (id tile : Nat) (a : OpenAcc) : boxed (drainTile s id tile a) = boxed s := by
  grind [drainTile, completeStep_quiet, masked_quiet, setEng_boxed, takeReplay_boxed, stored, boxed, quiet]

@[simp] theorem epilogueOut_boxed (s : State) (id : Nat) (mismatch : Bool) : boxed (epilogueOut s id mismatch) = boxed s := by
  fun_cases epilogueOut <;> grind [bump_quiet, coreWrite_quiet, detectAt_quiet, drainTile_boxed, engPoison_boxed,
    epiMismatch_boxed, gate_quiet, putReady_quiet, settleCore_quiet, takeFree_quiet, each_or boxed, gateState, stored, boxed,
    quiet]

@[simp] theorem verifyStream_boxed (s : State) (c k n : Nat) : boxed (verifyStream s c k n) = boxed s := by
  grind [verifyStream, bump_quiet, detectAt_quiet, engPoison_boxed, poisonStop_quiet, setStrm_quiet, settleCore_quiet, stored,
    boxed, quiet]

@[simp] theorem verifyCopy_quiet (s : State) (unit : Unit) : quiet (verifyCopy s unit) = quiet s := by
  grind [verifyCopy, bump_quiet, detectAt_quiet, pumpCopies_quiet, setJobs_quiet, stored, boxed, quiet]

/-! ## Vector -/

@[simp] theorem padRow_quiet (s : State) (len : Nat) (l : List Nat) : quiet (padRow s len l).1 = quiet s := by rfl

theorem formPart_quiet (s : State) (c key : Nat) (partners : List Nat) (own : List Nat) {t : State} (h : formPart s c key
    partners own = some t) : quiet t = quiet s := by
  grind [formPart, setCore_quiet, stored, boxed, quiet]

@[simp] theorem foldedPart_quiet (s : State) (c p key : Nat) : quiet (foldedPart s c p key) = quiet s := by rfl

@[simp] theorem vecFolds_quiet (c : Nat) (v : Slot) (d : BitVec 512) (row : Nat) (x y : List Nat) (x0 : Nat) (x1 : Nat) (s :
    State) (x3 : List (List Nat)) : quiet (vecFolds c v d row x y x0 x1 s x3).1 = quiet s := by
  fun_induction vecFolds <;> grind [formPart_quiet, stored, boxed, quiet]

@[simp] theorem vecResult_quiet (s : State) (c k : Nat) (d : BitVec 512) (row : Nat) : quiet (vecResult s c k d row).1 = quiet s
    := by
  unfold vecResult; split <;> simp

@[simp] theorem settleVector_quiet (s : State) (c : Nat) : quiet (settleVector s c) = quiet s := by
  grind [settleVector, completeStep_quiet, setCore_quiet, settleCore_quiet, stored, boxed, quiet]

@[simp] theorem vecMismatch_quiet (s : State) (c : Nat) : quiet (vecMismatch s c) = quiet s := by
  simp [vecMismatch]

@[simp] theorem runRow_quiet (s : State) (c : Nat) (mismatch : Bool) : quiet (runRow s c mismatch) = quiet s := by
  unfold runRow; (repeat' split) <;> grind [consumePoison_quiet, foldedPart_quiet, masked_quiet, padRow_quiet, prefetch_quiet,
    rejectStep_quiet, setCore_quiet, setStrm_quiet, settleCore_quiet, settleVector_quiet, stepDone_quiet, vecMismatch_quiet,
    vecResult_quiet, each_or quiet, stored, boxed, quiet]

@[simp] theorem vectorRow_quiet (s : State) (c op : Nat) (mismatch : Bool) : quiet (vectorRow s c op mismatch) = quiet s := by
  grind [vectorRow, consumePoison_quiet, fetchStep_quiet, issueTo_quiet, rejectStep_quiet, runRow_quiet, setCore_quiet,
    settleCore_quiet, stored, boxed, quiet]

/-! ## Copies -/

@[simp] theorem setMerge_quiet (s : State) (h : Nat) (j : MergeJob) : quiet (setMerge s h j) = quiet s := by rfl

@[simp] theorem dropMerge_quiet (s : State) (h : Nat) (j : MergeJob) : quiet (dropMerge s h j) = quiet s := by rfl

@[simp] theorem stopMerge_quiet (s : State) (h : Nat) (j : MergeJob) (cause : Nat) : quiet (stopMerge s h j cause) = quiet s := by
  unfold stopMerge; split <;> simp

@[simp] theorem mgCommit_quiet (s : State) (h : Nat) (j : MergeJob) : quiet (mgCommit s h j).1 = quiet s := by
  simp [mgCommit, each_keeps quiet]

@[simp] theorem mergePass_quiet (s : State) (h : Nat) (j : MergeJob) : quiet (mergePass s h j).1 = quiet s := by
  grind [mergePass, mgCommit_quiet, segsStep_quiet, each_or quiet, stored, boxed, quiet]

@[simp] theorem runMerge_quiet (h : Nat) (x0 : Nat) (s : State) : quiet (runMerge h x0 s) = quiet s := by
  fun_induction runMerge <;> grind [bump_quiet, completeStep_quiet, dropMerge_quiet, forwardStep_quiet, mergePass_quiet,
    reportProgress_quiet, resolveStop_quiet, setMerge_quiet, settleCore_quiet, stopMerge_quiet, unitFault_quiet, stored, boxed,
    quiet]

@[simp] theorem pumpMerge_quiet (s : State) (h : Nat) : quiet (pumpMerge s h) = quiet s := by
  simp [pumpMerge]

theorem mergeUpset_quiet (s : State) (n : Nat) {t : State} (h : mergeUpset s n = some t) : quiet t = quiet s := by
  obtain ⟨j, _, rfl⟩ := Option.map_eq_some_iff.mp h
  simp

@[simp] theorem pumpUnit_quiet (s : State) (unit : Unit) : quiet (pumpUnit s unit) = quiet s := by
  unfold pumpUnit; grind [prefetch_quiet, pumpCopies_quiet, pumpMerge_quiet, pumpOut_quiet, stored, boxed, quiet]

@[simp] theorem mergeRow_quiet (s : State) (c : Nat) (upset : Upset) : quiet (mergeRow s c upset) = quiet s := by
  grind [mergeRow, bump_quiet, faultSlot_quiet, fetchStep_quiet, gate_quiet, issueTo_quiet, issueTwin_quiet, mergeUpset_quiet,
    noteFault_quiet, pumpMerge_quiet, reportError_quiet, setHub_quiet, settleCore_quiet, onUpset_or (P := quiet) id, gateState,
    stored, boxed, quiet]

@[simp] theorem takeCopy_quiet (s : State) (c k : Nat) (unit : Unit) (d : BitVec 512) (cd : BitVec 1024) : quiet (takeCopy s c k
    unit d cd) = quiet s := by
  simp [takeCopy]

@[simp] theorem goCopies_quiet (s : State) (unit : Unit) (upset : Upset) : quiet (goCopies s unit upset) = quiet s := by
  grind [goCopies, copyUpset_quiet, pumpCopies_quiet, onUpset_or (P := quiet) id, stored, boxed, quiet]

@[simp] theorem copyRow_quiet (s : State) (c op : Nat) (unit : Unit) (upset : Upset) : quiet (copyRow s c op unit upset) = quiet
    s := by
  fun_cases copyRow <;> grind [consumePoison_quiet, fetchStep_quiet, gate_quiet, goCopies_quiet, issueTwin_quiet,
    rejectStep_quiet, settleCore_quiet, takeCopy_quiet, gateState, stored, boxed, quiet]

@[simp] theorem recheckStream_boxed (s : State) (c k n : Nat) : boxed (recheckStream s c k n) = boxed s := by
  grind [recheckStream, attach_quiet, engReject_quiet, setEng_boxed, each_or boxed, stored, boxed, quiet]

@[simp] theorem strmRelease_quiet (s : State) (c k n : Nat) : quiet (strmRelease s c k n).1 = quiet s := by
  simp [strmRelease]

@[simp] theorem bindRow_boxed (s : State) (c : Nat) : boxed (bindRow s c) = boxed s := by
  have hset (t : State) : boxed (settleCore t c) = boxed t := boxed_of_quiet (settleCore_quiet t c)
  unfold bindRow
  split
  · next t h => rw [hset, boxed_of_quiet (fetchStep_quiet s c _ h)]
  · next k d h =>
    have hrel := boxed_of_quiet (strmRelease_quiet s c k (csStream d))
    dsimp only
    split
    · simp [hset, boxed_of_quiet (rejectStep_quiet ..)]
    · split
      · simp [hset, boxed_of_quiet (rejectStep_quiet ..)]
      · split
        · simp [hset, boxed_of_quiet (consumePoison_quiet ..)]
        · split
          · simp [hset, boxed_of_quiet (rejectStep_quiet ..)]
          · split
            · next hm => rw [hm] at hrel; rw [hset]; exact hrel
            · next hm => rw [hm] at hrel; rw [hset, boxed_of_quiet (giveUp_quiet ..)]; exact hrel
            · next hm =>
              rw [hm] at hrel
              rw [boxed_of_quiet (prefetch_quiet ..), recheckStream_boxed, hset, boxed_of_quiet (passStep_quiet ..), boxed_of_quiet (setStrm_quiet ..)]
              exact hrel
  · rfl

@[simp] theorem unbindRow_boxed (s : State) (c : Nat) : boxed (unbindRow s c) = boxed s := by
  have hset (t : State) : boxed (settleCore t c) = boxed t := boxed_of_quiet (settleCore_quiet t c)
  unfold unbindRow
  split
  · next t h => rw [hset, boxed_of_quiet (fetchStep_quiet s c _ h)]
  · next k d h =>
    have hrel := boxed_of_quiet (strmRelease_quiet s c k (csStream d))
    dsimp only
    split
    · simp [hset, boxed_of_quiet (rejectStep_quiet ..)]
    · split
      · next hm => rw [hm] at hrel; rw [hset]; exact hrel
      · next hm => rw [hm] at hrel; rw [hset, boxed_of_quiet (giveUp_quiet ..)]; exact hrel
      · next hm =>
        rw [hm] at hrel
        rw [recheckStream_boxed, hset, boxed_of_quiet (passStep_quiet ..), boxed_of_quiet (setStrm_quiet ..)]
        exact hrel
  · rfl

end Sys2Proof.Machine
end

section
/-! What the operations of the model keep: Flags, Sync, Steps, Contexts, Messages, Landing. -/

namespace Sys2Proof.Machine

/-! ## Flags -/

@[simp] theorem lapsed_quiet (s : State) (code : Nat) : quiet (lapsed s code) = quiet s := by rfl

@[simp] theorem settleHolds_quiet (s : State) : quiet (settleHolds s) = quiet s := by rfl

@[simp] theorem conditionFell_quiet (s : State) (was now : Bool) (code : Nat) : quiet (conditionFell s was now code) = quiet s
    := by
  unfold conditionFell; split <;> simp

@[simp] theorem setEnvelope_quiet (s : State) (b : Bool) : quiet (setEnvelope s b) = quiet s := by
  simp [setEnvelope]

@[simp] theorem setScrub_quiet (s : State) (b : Bool) : quiet (setScrub s b) = quiet s := by
  simp [setScrub]

@[simp] theorem setSelfTest_quiet (s : State) (b : Bool) : quiet (setSelfTest s b) = quiet s := by
  simp [setSelfTest]

@[simp] theorem setFirmware_quiet (s : State) (b : Bool) : quiet (setFirmware s b) = quiet s := by
  simp [setFirmware]

@[simp] theorem settleAlert_quiet (s : State) : quiet (settleAlert s) = quiet s := by
  grind [settleAlert, trayEvent_quiet, stored, boxed, quiet]

@[simp] theorem capsChanged_quiet (s : State) : quiet (capsChanged s) = quiet s := by
  simp [capsChanged]

/-! ## Sync -/

@[simp] theorem setWord_quiet (s : State) (r i : Nat) (w : Reg) : quiet (setWord s r i w) = quiet s := by
  simp [setWord, each_keeps quiet]

@[simp] theorem applyAt_quiet (s : State) (r i op : Nat) (a b : Reg) : quiet (applyAt s r i op a b).2.2 = quiet s := by
  grind [applyAt, bump_quiet, setWord_quiet, stored, boxed, quiet]

@[simp] theorem postUnit_quiet (s : State) (r i : Nat) : quiet (postUnit s r i).2 = quiet s := by
  simp [postUnit]

@[simp] theorem park_quiet (s : State) (r : Nat) (p : Parked) : quiet (park s r p) = quiet s := by rfl

theorem waitAt_quiet (s : State) (r : Nat) (p : Parked) {t : State} (h : waitAt s r p = some t) : quiet t = quiet s := by
  grind [waitAt, answerSync_quiet, bump_quiet, park_quiet, setWord_quiet, stored, boxed, quiet]

@[simp] theorem addSync_quiet (s : State) (c k : Nat) (y : SyncOut) : quiet (addSync s c k y) = quiet s := by rfl

@[simp] theorem sendSync_quiet (s : State) (c k tag : Nat) (d : BitVec 512) : quiet (sendSync s c k tag d) = quiet s := by rfl

@[simp] theorem issueSync_quiet (s : State) (c k : Nat) (d : BitVec 512) : quiet (issueSync s c k d) = quiet s := by
  grind [issueSync, addRequest_quiet, addSync_quiet, answerSync_quiet, freshTag_quiet, issueTo_quiet, sendRow_quiet,
    sendSync_quiet, stored, boxed, quiet]

@[simp] theorem issueWait_quiet (s : State) (c k : Nat) (d : BitVec 512) : quiet (issueWait s c k d) = quiet s := by
  simp [issueWait]

@[simp] theorem refuseWait_quiet (s : State) (c k tag : Nat) : quiet (refuseWait s c k tag) = quiet s := by
  simp [refuseWait]

@[simp] theorem applySync_quiet (s : State) (m : Msg) (r i op : Nat) (a b : Reg) (step tag : Nat) (mismatch : Bool) : quiet
    (applySync s m r i op a b step tag mismatch) = quiet s := by
  unfold applySync
  split
  · split
    · simp
    · simp
  · exact getD_keeps quiet (fun t h => waitAt_quiet _ _ _ h) (by simp)

@[simp] theorem syncArrives_quiet (s : State) (i : Nat) (mismatch : Bool) : quiet (syncArrives s i mismatch) = quiet s := by
  grind [syncArrives, applySync_quiet, onMsg_or (P := quiet) id, stored, boxed, quiet]

@[simp] theorem twinWaits_quiet (s : State) (c k : Nat) (d : BitVec 512) (crc : Nat) : quiet (twinWaits s c k d crc) = quiet s
    := by
  grind [twinWaits, gate_quiet, giveUp_quiet, onSlot_quiet, passStep_quiet, gateState, stored, boxed, quiet]

@[simp] theorem syncIssue_quiet (s : State) (c op : Nat) : quiet (syncIssue s c op) = quiet s := by
  unfold syncIssue
  split
  · next t h => simp [fetchStep_quiet s c _ h]
  · next k d h =>
    have hgate := gate_quiet s c k (slotOf s c k).ip (crc32c (bytesOf 64 d.toNat))
    dsimp only
    repeat' split
    all_goals simp_all [gateState]
  · rfl

@[simp] theorem syncRow_quiet (s : State) (c op : Nat) (mismatch : Bool) : quiet (syncRow s c op mismatch) = quiet s := by
  grind [syncRow, syncArrives_quiet, syncIssue_quiet, stored, boxed, quiet]

@[simp] theorem syncError_quiet (s : State) (c k : Nat) (y : SyncOut) (d : BitVec 512) (status : Nat) : quiet (syncError s c k y
    d status) = quiet s := by
  simp [syncError]

@[simp] theorem finishSync_quiet (s : State) (c k : Nat) (y : SyncOut) (status : Nat) (word : Reg) : quiet (finishSync s c k y
    status word) = quiet s := by
  grind [finishSync, completeStep_quiet, forwardStep_quiet, onSlot_quiet, outsideWrite_quiet, progress_quiet, settleCore_quiet,
    syncError_quiet, stored, boxed, quiet]

@[simp] theorem postAnswered_quiet (s : State) (hub tag status : Nat) : quiet (postAnswered s hub tag status) = quiet s := by
  grind [postAnswered, reportError_quiet, setHub_quiet, stored, boxed, quiet]

@[simp] theorem responseArrives_quiet (s : State) (m : Msg) : quiet (responseArrives s m) = quiet s := by
  grind [responseArrives, finishSync_quiet, postAnswered_quiet, stored, boxed, quiet]

@[simp] theorem cancelArrives_quiet (s : State) (m : Msg) : quiet (cancelArrives s m) = quiet s := by
  grind [cancelArrives, onSlot_quiet, setReg_quiet, settleCore_quiet, stored, boxed, quiet]

@[simp] theorem hubPost_quiet (s : State) (c k r i : Nat) : quiet (hubPost s c k r i) = quiet s := by rfl

@[simp] theorem retryWait_quiet (s : State) (c k : Nat) : quiet (retryWait s c k) = quiet s := by
  grind [retryWait, bump_quiet, issueWait_quiet, onSlot_quiet, settleCore_quiet, stored, boxed, quiet]

@[simp] theorem forgetSyncs_quiet (s : State) (c k : Nat) (p : Nat → Bool) : quiet (forgetSyncs s c k p) = quiet s := by rfl

@[simp] theorem remoteTimeout_quiet (s : State) (c k step : Nat) : quiet (remoteTimeout s c k step) = quiet s := by
  unfold remoteTimeout; split <;> simp

/-! ## Steps -/

theorem seqRow_or {β : Type} {P : State → β} (hP : ∀ {s t}, quiet s = quiet t → P s = P t) (s : State) (c op : Nat) (f : Nat → BitVec 512 → State) :
    P (seqRow s c op f) = P s ∨ ∃ k d, P (f k d) ≠ P s := by
  by_cases hf : ∀ k d, P (f k d) = P s
  · left
    unfold seqRow
    split
    · next t h => exact (hP (settleCore_quiet ..)).trans (hP (fetchStep_quiet _ _ _ h))
    · exact (hP (settleCore_quiet ..)).trans (hf ..)
    · rfl
  · obtain ⟨k, hk⟩ := Classical.not_forall.mp hf
    exact .inr ⟨k, Classical.not_forall.mp hk⟩

@[simp] theorem forwardOut_quiet (s : State) (c k : Nat) (d : BitVec 512) (step : Nat) : quiet (forwardOut s c k d step) = quiet
    s := by
  unfold forwardOut; split <;> simp

@[simp] theorem sendTokens_quiet (c k : Nat) (d : BitVec 512) (x0 : Nat) (s : State) : quiet (sendTokens c k d x0 s) = quiet s
    := by
  fun_induction sendTokens <;> grind [bump_quiet, inject_quiet, onSlot_quiet, setOut_quiet, stored, boxed, quiet]

@[simp] theorem freeHandle_quiet (s : State) (c k : Nat) (x : Option Nat) : quiet (freeHandle s c k x) = quiet s :=
  elim_keeps quiet (fun a => putFree_quiet s c k a) x

@[simp] theorem goOnSending_quiet (s : State) (c k : Nat) (d : BitVec 512) : quiet (goOnSending s c k d) = quiet s := by
  grind [goOnSending, forwardOut_quiet, freeHandle_quiet, giveUp_quiet, passStep_quiet, sendTokens_quiet, stored, boxed, quiet]

@[simp] theorem twinSends_quiet (s : State) (c k : Nat) (d : BitVec 512) (crc : Nat) : quiet (twinSends s c k d crc) = quiet s
    := by
  grind [twinSends, putFree_quiet, takeReady_quiet, twinWaits_quiet, stored, boxed, quiet]

@[simp] theorem rejectFor_quiet (s : State) (c k cause : Nat) : quiet (rejectFor s c k cause) = quiet s := by
  unfold rejectFor; split <;> simp

@[simp] theorem sendStep_quiet (s : State) (c k : Nat) (d : BitVec 512) : quiet (sendStep s c k d) = quiet s := by
  unfold sendStep
  extract_lets v from_ a n crc m begin_
  have hbegin (t : State) : quiet (begin_ t) = quiet t := by
    unfold begin_
    extract_lets u
    have hu : quiet u = quiet t := by
      unfold u
      split
      · refine getD_keeps quiet (fun x h => ?_) rfl
        obtain ⟨p, hp, rfl⟩ := Option.map_eq_some_iff.mp h
        exact takeReady_quiet _ _ _ _ hp
      · rfl
    rw [goOnSending_quiet, onSlot_quiet, hu]
  have hgate := gate_quiet s c k v.ip crc
  clear_value begin_
  split
  · simp
  · split
    · simp
    · split
      · simp
      · split
        · exact hbegin s
        · split
          · simp
          · split <;> simp_all [gateState]

@[simp] theorem recvWrite_quiet (s : State) (c a : Nat) (l : List Byte) (mask : List Bool) (outside : Bool) : quiet (recvWrite s
    c a l mask outside) = quiet s := by
  unfold recvWrite; split <;> simp

@[simp] theorem recvTokens_quiet (c k : Nat) (d : BitVec 512) (x0 : Nat) (s : State) : quiet (recvTokens c k d x0 s) = quiet s
    := by
  fun_induction recvTokens <;> grind [dequeue_quiet, onSlot_quiet, recvWrite_quiet, stored, boxed, quiet]

@[simp] theorem goOnReceiving_quiet (s : State) (c k : Nat) (d : BitVec 512) : quiet (goOnReceiving s c k d) = quiet s := by
  unfold goOnReceiving
  split
  · rfl
  · extract_lets t w
    have ht : quiet t = quiet s := recvTokens_quiet ..
    clear_value t
    split
    · exact ht
    · split
      · extract_lets u u'
        have hu : quiet u = quiet s := by
          unfold u
          split
          · rw [recvWrite_quiet, ht]
          · exact ht
        have hu' : quiet u' = quiet s := (elim_keeps quiet (fun _ => putReady_quiet ..) _).trans hu
        rw [forwardOut_quiet, passStep_quiet, hu']
      · rw [giveUp_quiet, ht]

@[simp] theorem twinReceives_quiet (s : State) (c k : Nat) (d : BitVec 512) : quiet (twinReceives s c k d) = quiet s := by
  grind [twinReceives, giveUp_quiet, putReady_quiet, takeFree_quiet, twinWaits_quiet, stored, boxed, quiet]

@[simp] theorem recvStep_quiet (s : State) (c k : Nat) (d : BitVec 512) : quiet (recvStep s c k d) = quiet s := by
  grind [recvStep, giveUp_quiet, goOnReceiving_quiet, onSlot_quiet, rejectFor_quiet, takeFree_quiet, twinReceives_quiet, stored,
    boxed, quiet]

@[simp] theorem loopStep_quiet (s : State) (c k : Nat) (d : BitVec 512) : quiet (loopStep s c k d) = quiet s := by
  grind [loopStep, onSlot_quiet, passStep_quiet, rejectQueue_quiet, rejectStep_quiet, stored, boxed, quiet]

@[simp] theorem jumpStep_quiet (s : State) (c k : Nat) (d : BitVec 512) : quiet (jumpStep s c k d) = quiet s := by
  grind [jumpStep, passStep_quiet, rejectQueue_quiet, rejectStep_quiet, stored, boxed, quiet]

@[simp] theorem waitStep_quiet (s : State) (c k : Nat) (d : BitVec 512) : quiet (waitStep s c k d) = quiet s := by
  grind [waitStep, controlFault_quiet, giveUp_quiet, passStep_quiet, rejectStep_quiet, stored, boxed, quiet]

@[simp] theorem yieldStep_quiet (s : State) (c k : Nat) (d : BitVec 512) : quiet (yieldStep s c k d) = quiet s := by
  unfold yieldStep; split <;> simp

@[simp] theorem haltStep_quiet (s : State) (c k : Nat) (d : BitVec 512) : quiet (haltStep s c k d) = quiet s := by
  unfold haltStep; split <;> simp

@[simp] theorem haltRow_quiet (s : State) (c : Nat) : quiet (haltRow s c) = quiet s := by
  grind [haltRow, fetchStep_quiet, giveUp_quiet, haltStep_quiet, settleCore_quiet, stored, boxed, quiet]

@[simp] theorem quantumOver_quiet (s : State) (c : Nat) : quiet (quantumOver s c) = quiet s := by
  grind [quantumOver, giveUp_quiet, onSlot_quiet, settleCore_quiet, stored, boxed, quiet]

@[simp] theorem sendMessage_quiet (s : State) (c k : Nat) (d : BitVec 512) : quiet (sendMessage s c k d) = quiet s := by
  grind [sendMessage, bump_quiet, dropMessage_quiet, issueTo_quiet, post_quiet, sendDone_quiet, stored, boxed, quiet]

@[simp] theorem msgSendStep_quiet (s : State) (c k : Nat) (d : BitVec 512) : quiet (msgSendStep s c k d) = quiet s := by
  fun_cases msgSendStep <;> grind [gate_quiet, issueTwin_quiet, rejectStep_quiet, sendMessage_quiet, gateState, stored, boxed,
    quiet]

@[simp] theorem pastPad_quiet (s : State) (c : Nat) (v : Slot) (i : Nat) : quiet (pastPad s c v i).2 = quiet s := by
  grind [pastPad, setRingRd_quiet, stored, boxed, quiet]

@[simp] theorem msgRecvStep_quiet (s : State) (c k : Nat) (d : BitVec 512) : quiet (msgRecvStep s c k d) = quiet s := by
  fun_cases msgRecvStep <;> grind [consumePoison_quiet, coreWrite_quiet, giveUp_quiet, passStep_quiet, pastPad_quiet,
    rejectStep_quiet, setRingRd_quiet, stored, boxed, quiet]

/-! ## Contexts -/

@[simp] theorem cancelWaits_quiet (s : State) (c k : Nat) : quiet (cancelWaits s c k) = quiet s := by
  simp [cancelWaits, each_keeps quiet]

@[simp] theorem stopSlot_quiet (s : State) (c k : Nat) : quiet (stopSlot s c k) = quiet s := by
  grind [stopSlot, cancelWaits_quiet, onSlot_quiet, settleCore_quiet, stored, boxed, quiet]

@[simp] theorem stopAll_quiet (s : State) (l : List (Nat × Nat)) : quiet (stopAll s l) = quiet s := by
  simp [stopAll, each_keeps quiet]

@[simp] theorem drain_pending (s : State) (cls : Nat) : (drain s cls).pending = s.pending := by
  grind [drain, bump_quiet, lapsed_quiet, settleAlert_quiet, settleHolds_quiet, stopAll_quiet, stored, boxed, quiet]

@[simp] theorem onGroups_quiet (s : State) (h : Nat) (f : Group → Group) : quiet (onGroups s h f) = quiet s := by
  unfold onGroups; split <;> simp

@[simp] theorem setGroup_quiet (s : State) (h i : Nat) (g : Group) : quiet (setGroup s h i g) = quiet s := by
  unfold setGroup; split <;> simp

@[simp] theorem intoImage_quiet (s : State) (g : Group) (c : Nat) (l : List (Nat × List Byte)) : quiet (intoImage s g c l) =
    quiet s := by
  grind [intoImage, each_or quiet, stored, boxed, quiet]

@[simp] theorem intoCore_quiet (s : State) (c : Nat) (l : List (Nat × List Byte)) : quiet (intoCore s c l) = quiet s := by
  simp [intoCore, each_keeps quiet]

/-! ## Messages -/

@[simp] theorem ringWritten_quiet (s : State) (c : Nat) : quiet (ringWritten s c) = quiet s := by
  grind [ringWritten, settleCore_quiet, stored, boxed, quiet]

@[simp] theorem placeMessage_quiet (s : State) (m : Msg) (v : Slot) (tag epoch : Nat) (words : List Reg) (poison : Bool)
    (endEpoch : Nat) : quiet (placeMessage s m v tag epoch words poison endEpoch) = quiet s := by
  unfold placeMessage; split <;> simp

@[simp] theorem placeInImage_quiet (s : State) (m : Msg) (g : Group) (v : Slot) (tag epoch : Nat) (words : List Reg) (poison :
    Bool) : quiet (placeInImage s m g v tag epoch words poison) = quiet s := by
  unfold placeInImage; split <;> simp

theorem parkAny_quiet (s : State) (m : Msg) {t : State} (h : parkAny s m = some t) : quiet t = quiet s := by
  grind [parkAny, bump_quiet, setReg_quiet, stored, boxed, quiet]

@[simp] theorem parkMessage_quiet (s : State) (m : Msg) (tag epoch : Nat) : quiet (parkMessage s m tag epoch) = quiet s :=
  getD_keeps quiet (fun _ h => parkAny_quiet s m h) (by simp)

@[simp] theorem deliverUser_quiet (s : State) (m : Msg) (tag epoch : Nat) (words : List Reg) (poison : Bool) : quiet
    (deliverUser s m tag epoch words poison) = quiet s := by
  grind [deliverUser, dropMessage_quiet, parkMessage_quiet, placeInImage_quiet, placeMessage_quiet, stored, boxed, quiet]

@[simp] theorem messageDeliver_quiet (s : State) (i : Nat) (crcOk : Bool) (lookup : Lookup) : quiet (messageDeliver s i crcOk
    lookup) = quiet s := by
  grind [messageDeliver, deliverUser_quiet, detect_quiet, escalate_quiet, onMsg_or (P := quiet) id, stored, boxed, quiet]

@[simp] theorem recordInImage_quiet (s : State) (h i : Nat) (g : Group) (c k : Nat) (record : Bool → Nat) : quiet (recordInImage
    s h i g c k record).1 = quiet s := by
  fun_cases recordInImage <;> grind [bump_quiet, intoImage_quiet, setGroup_quiet, stored, boxed, quiet]

@[simp] theorem parkNotice_quiet (s : State) (m : Msg) : quiet (parkNotice s m) = quiet s :=
  getD_keeps quiet (fun _ h => parkAny_quiet s m h) (by simp)

@[simp] theorem deliverNotice_quiet (s : State) (m : Msg) (gen kind : Nat) (detail : Reg) : quiet (deliverNotice s m gen kind
    detail) = quiet s := by
  unfold deliverNotice
  extract_lets c k v record
  clear_value record
  split
  · split
    · simp
    · split
      · simp
      · split <;> simp
  · split
    · split
      · simp
      · split
        · extract_lets w
          split <;> simp
        · extract_lets r
          split <;> simp [r]
    · simp

@[simp] theorem orphanNotice_quiet (s : State) (i : Nat) : quiet (orphanNotice s i) = quiet s := by
  grind [orphanNotice, deliverNotice_quiet, onMsg_or (P := quiet) id, stored, boxed, quiet]

@[simp] theorem orphanLane_quiet (s : State) (c k n core slot gen port sentGen : Nat) (request : Bool) : quiet (orphanLane s c k
    n core slot gen port sentGen request) = quiet s := by rfl

@[simp] theorem openGrant_quiet (s : State) (i : Nat) : quiet (openGrant s i) = quiet s := by
  grind [openGrant, progress_quiet, setOut_quiet, settleCore_quiet, onMsg_or (P := quiet) id, stored, boxed, quiet]

@[simp] theorem openRequest_quiet (s : State) (i : Nat) : quiet (openRequest s i) = quiet s := by
  grind [openRequest, openLane_quiet, orphanLane_quiet, setLane_quiet, onMsg_or (P := quiet) id, stored, boxed, quiet]

@[simp] theorem creditReturn_quiet (s : State) (i : Nat) : quiet (creditReturn s i) = quiet s := by
  grind [creditReturn, progress_quiet, setOut_quiet, settleCore_quiet, onMsg_or (P := quiet) id, stored, boxed, quiet]

@[simp] theorem watchStall_quiet (s : State) (h config : Nat) : quiet (watchStall s h config) = quiet s := by
  grind [watchStall, bump_quiet, setConf_quiet, stored, boxed, quiet]

@[simp] theorem stallBeacon_quiet (s : State) (i : Nat) : quiet (stallBeacon s i) = quiet s := by
  grind [stallBeacon, setConf_quiet, watchStall_quiet, onMsg_or (P := quiet) id, stored, boxed, quiet]

@[simp] theorem progressBeacon_quiet (s : State) (i : Nat) : quiet (progressBeacon s i) = quiet s := by
  grind [progressBeacon, setConf_quiet, onMsg_or (P := quiet) id, stored, boxed, quiet]

@[simp] theorem stallWindowEnd_quiet (s : State) (h config : Nat) : quiet (stallWindowEnd s h config) = quiet s := by
  grind [stallWindowEnd, bump_quiet, post_quiet, setConf_quiet, each_or quiet, stored, boxed, quiet]

@[simp] theorem extendCommand_quiet (s : State) (i : Nat) : quiet (extendCommand s i) = quiet s := by
  grind [extendCommand, bump_quiet, onSlot_quiet, openLane_quiet, setLane_quiet, onMsg_or (P := quiet) id, stored, boxed, quiet]

@[simp] theorem setTwinWait_quiet (s : State) (c k step : Nat) (f : TwinWait → TwinWait) : quiet (setTwinWait s c k step f) =
    quiet s := by rfl

@[simp] theorem twinValue_quiet (s : State) (i : Nat) : quiet (twinValue s i) = quiet s := by
  refine (onMsg_or (P := quiet) id s i _).resolve_right ?_
  rintro ⟨m, t, u, ht, hu, hne⟩
  refine hne ?_
  dsimp only at hu
  split at hu
  · split at hu
    · cases hu
      exact ht.symm
    · split at hu
      · cases hu
        rw [settleCore_quiet, setTwinWait_quiet]
      · cases hu
        rw [setTwinWait_quiet, bump_quiet, detect_quiet]
  · cases hu

@[simp] theorem twinRerun_pending (s : State) (c k : Nat) (again primaryFails twinFails : Bool) : (twinRerun s c k again
    primaryFails twinFails).pending = s.pending := by
  grind [twinRerun, bump_quiet, detect_quiet, drain_pending, masked_quiet, setTwinWait_quiet, settleCore_quiet, stored, boxed,
    quiet]

@[simp] theorem signatureCheck_quiet (s : State) (c k : Nat) (differs : Bool) : quiet (signatureCheck s c k differs) = quiet s
    := by
  grind [signatureCheck, controlFault_quiet, settleCore_quiet, stored, boxed, quiet]

@[simp] theorem watchTick_quiet (s : State) : quiet (watchTick s) = quiet s := by rfl

@[simp] theorem watchReport_quiet (s : State) (i : Nat) : quiet (watchReport s i) = quiet s := by
  grind [watchReport, bump_quiet, setConf_quiet, onMsg_or (P := quiet) id, stored, boxed, quiet]

@[simp] theorem watchExpiry_quiet (s : State) (h config : Nat) : quiet (watchExpiry s h config) = quiet s := by
  grind [watchExpiry, bump_quiet, decideReset_quiet, detect_quiet, rejectStep_quiet, setConf_quiet, settleCore_quiet, each_or
    quiet, stored, boxed, quiet]

/-! ## Landing -/

@[simp] theorem setArea_quiet (s : State) (c k i a : Nat) (r : Area) : quiet (setArea s c k i a r) = quiet s := by rfl

@[simp] theorem landFault_quiet (s : State) (c k row col : Nat) : quiet (landFault s c k row col) = quiet s := by
  simp [landFault]

@[simp] theorem tellContributors_quiet (s : State) (c k e : Nat) (body : Nat → Body) : quiet (tellContributors s c k e body) =
    quiet s := by
  simp [tellContributors, each_keeps quiet]

@[simp] theorem landArith_quiet (s : State) (c k i a cause : Nat) (et : Int) : quiet (landArith s c k i a cause et) = quiet s := by
  simp [landArith]

@[simp] theorem landReplay_quiet (s : State) (c k i a : Nat) : quiet (landReplay s c k i a) = quiet s := by
  simp [landReplay]

@[simp] theorem landAccept_quiet (s : State) (c k i a : Nat) (et : Int) (replay kSum : Nat) (preload poison : Bool) (ws : List
    AccWord) : quiet (landAccept s c k i a et replay kSum preload poison ws) = quiet s := by
  simp [landAccept]

@[simp] theorem landComplete_quiet (s : State) (c k i a : Nat) : quiet (landComplete s c k i a) = quiet s := by
  grind [landComplete, bump_quiet, detect_quiet, landAccept_quiet, landArith_quiet, landFault_quiet, landReplay_quiet, stored,
    boxed, quiet]

@[simp] theorem landInto_quiet (s : State) (c k i a : Nat) (p : Packet) (ch : Nat) : quiet (landInto s c k i a p ch) = quiet s
    := by
  grind [landInto, bump_quiet, detect_quiet, landComplete_quiet, landFault_quiet, outsideWrite_quiet, setArea_quiet, stored,
    boxed, quiet]

@[simp] theorem landPacket_quiet (s : State) (c : Nat) (p : Packet) : quiet (landPacket s c p) = quiet s := by
  fun_cases landPacket <;> grind [bump_quiet, consumePoison_quiet, detect_quiet, landFault_quiet, landInto_quiet,
    noteFault_quiet, setArea_quiet, settleCore_quiet, stored, boxed, quiet]

theorem landUpset_quiet (s : State) (c : Nat) (p : Packet) {t : State} (h : landUpset s c p = some t) : quiet t = quiet s := by
  unfold landUpset at h
  split at h
  · cases h
  · obtain ⟨e, _, he⟩ := Option.bind_eq_some_iff.mp h
    obtain ⟨a, _, rfl⟩ := Option.map_eq_some_iff.mp he
    simp

@[simp] theorem releaseSent_boxed (s : State) (g row col : Nat) : boxed (releaseSent s g row col) = boxed s := by
  grind [releaseSent, releaseMarks_quiet, setEng_boxed, setGroup_quiet, settleCore_quiet, stored, boxed, quiet]

@[simp] theorem noteReplay_boxed (s : State) (g row col replay : Nat) : boxed (noteReplay s g row col replay) = boxed s := by
  grind [noteReplay, setEng_boxed, setGroup_quiet, takeReplay_boxed, stored, boxed, quiet]

end Sys2Proof.Machine
end

section
/-! What the operations of the model keep: Endpoints, Translate, TimeSlice, Trains. -/

namespace Sys2Proof.Machine

/-! ## Endpoints -/

@[simp] theorem respondRead_quiet (s : State) (p : Packet) (data : List Byte) (mask : List Bool) : quiet (respondRead s p data
    mask) = quiet s := by
  simp [respondRead]

@[simp] theorem respondWrite_quiet (s : State) (p : Packet) : quiet (respondWrite s p) = quiet s := by
  simp [respondWrite]

@[simp] theorem respondOrder_quiet (s : State) (p : Packet) : quiet (respondOrder s p) = quiet s := by
  unfold respondOrder; split <;> simp

@[simp] theorem answerRead_quiet (p : Packet) (s : State) : quiet (answerRead p s) = quiet s := by
  unfold answerRead; split <;> simp

@[simp] theorem cacheInstall_quiet (s : State) (r line : Nat) : quiet (cacheInstall s r line) = quiet s := by rfl

@[simp] theorem dropLines_quiet (s : State) (r : Nat) (p : Nat → Bool) : quiet (dropLines s r p) = quiet s := by
  grind [dropLines, bump_quiet, setHub_quiet, each_or quiet, stored, boxed, quiet]

@[simp] theorem dropPages_quiet (s : State) (gone : List Leaf) : quiet (dropPages s gone) = quiet s := by
  unfold dropPages; split <;> simp [each_keeps quiet]

@[simp] theorem cacheRead_quiet (s : State) (r : Nat) (p : Packet) : quiet (cacheRead s r p) = quiet s := by
  grind [cacheRead, answerRead_quiet, bump_quiet, setReg_quiet, stored, boxed, quiet]

@[simp] theorem fillReturns_quiet (s : State) (r line : Nat) (bad : Bool) : quiet (fillReturns s r line bad) = quiet s := by
  grind [fillReturns, answerRead_quiet, cacheInstall_quiet, setReg_quiet, wordsLost_quiet, each_or quiet, stored, boxed, quiet]

@[simp] theorem toTier_quiet (s : State) (port : Nat) (p : Packet) : quiet (toTier s port p) = quiet s := by
  grind [toTier, emit_quiet, launch_quiet, setTier_quiet, stored, boxed, quiet]

@[simp] theorem applyRead_quiet (s : State) (p : Packet) : quiet (applyRead s p) = quiet s := by
  grind [applyRead, answerRead_quiet, cacheRead_quiet, toTier_quiet, stored, boxed, quiet]

@[simp] theorem applyWrite_quiet (s : State) (p : Packet) : quiet (applyWrite s p) = quiet s := by
  unfold applyWrite; split <;> simp

@[simp] theorem applyToken_quiet (s : State) (p : Packet) : quiet (applyToken s p) = quiet s := by
  grind [applyToken, arriveToken_quiet, orphanLane_quiet, respondOrder_quiet, settleCore_quiet, stored, boxed, quiet]

@[simp] theorem applyPacket_quiet (s : State) (p : Packet) : quiet (applyPacket s p) = quiet s := by
  unfold applyPacket; split <;> simp

theorem takeArrived_quiet (s : State) (ep : Nat) (p : Packet → Bool) {y0 : Packet} {t : State} (h : takeArrived s ep p = some
    (y0, t)) : quiet t = quiet s := by
  grind [takeArrived, setArrivals_quiet, stored, boxed, quiet]

@[simp] theorem countArrival_quiet (s : State) (p : Packet) : quiet (countArrival s p) = quiet s := by rfl

@[simp] theorem plainArrival_quiet (s : State) (ep kind : Nat) : quiet (plainArrival s ep kind) = quiet s := by
  grind [plainArrival, applyPacket_quiet, countArrival_quiet, takeArrived_quiet, stored, boxed, quiet]

@[simp] theorem meetErrors_quiet (s : State) (ep : Nat) (bad : List Nat) : quiet (meetErrors s ep bad) = quiet s := by
  grind [meetErrors, wordsLost_quiet, each_or quiet, stored, boxed, quiet]

@[simp] theorem applyFlagged_quiet (s : State) (p : Packet) : quiet (applyFlagged s p) = quiet s := by
  simp [applyFlagged]

@[simp] theorem setHeld_quiet (s : State) (ep : Nat) (l : List Packet) : quiet (setHeld s ep l) = quiet s := by rfl

@[simp] theorem flaggedArrival_quiet (s : State) (ep : Nat) : quiet (flaggedArrival s ep) = quiet s := by
  grind [flaggedArrival, applyFlagged_quiet, bump_quiet, setHeld_quiet, takeArrived_quiet, stored, boxed, quiet]

@[simp] theorem flaggedRelease_quiet (s : State) (ep : Nat) : quiet (flaggedRelease s ep) = quiet s := by
  unfold flaggedRelease; split <;> simp

@[simp] theorem setReorder_quiet (s : State) (ep : Nat) (l : List Packet) : quiet (setReorder s ep l) = quiet s := by rfl

@[simp] theorem applyVc5_quiet  (x0 : Nat) (s : State) (x2 : Packet) : quiet (applyVc5 x0 s x2) = quiet s := by
  fun_induction applyVc5 <;> grind [applyPacket_quiet, setPairDst_quiet, setReorder_quiet, stored, boxed, quiet]

@[simp] theorem vc5Arrival_quiet (s : State) (ep : Nat) : quiet (vc5Arrival s ep) = quiet s := by
  grind [vc5Arrival, applyVc5_quiet, bump_quiet, setReorder_quiet, takeArrived_quiet, stored, boxed, quiet]

@[simp] theorem onSegs_quiet (s : State) (unit : Unit) (f : Seg → Seg) : quiet (onSegs s unit f) = quiet s := by
  unfold onSegs; split <;> simp

@[simp] theorem haltUnit_quiet (s : State) (unit : Unit) (tag : Nat) (h : Halt) : quiet (haltUnit s unit tag h) = quiet s := by
  unfold haltUnit; grind [setHub_quiet, setJobs_quiet, setStrm_quiet, writeElems_quiet, stored, boxed, quiet]

@[simp] theorem readArrives_quiet (s : State) (ep : Nat) : quiet (readArrives s ep) = quiet s := by
  grind [readArrives, freeAnswered_quiet, onSegs_quiet, pumpUnit_quiet, takeArrived_quiet, stored, boxed, quiet]

@[simp] theorem ackArrives_quiet (s : State) (ep : Nat) : quiet (ackArrives s ep) = quiet s := by
  grind [ackArrives, freeAnswered_quiet, onSegs_quiet, pumpUnit_quiet, takeArrived_quiet, stored, boxed, quiet]

@[simp] theorem dropArrives_quiet (s : State) (ep : Nat) : quiet (dropArrives s ep) = quiet s := by
  grind [dropArrives, freeAnswered_quiet, haltUnit_quiet, takeArrived_quiet, stored, boxed, quiet]

@[simp] theorem orderArrives_quiet (s : State) (ep : Nat) : quiet (orderArrives s ep) = quiet s := by
  grind [orderArrives, freeAnswered_quiet, takeArrived_quiet, stored, boxed, quiet]

@[simp] theorem setLink_quiet (s : State) (id : Nat) (v : LinkState) : quiet (setLink s id v) = quiet s := by rfl

@[simp] theorem linkRetry_quiet (s : State) (a b id tries : Nat) : quiet (linkRetry s a b id tries) = quiet s := by
  grind [linkRetry, bump_quiet, detectAt_quiet, injectionSeen_quiet, setLink_quiet, stored, boxed, quiet]

@[simp] theorem setTries_quiet (s : State) (router port n : Nat) : quiet (setTries s router port n) = quiet s := by rfl

@[simp] theorem packetRetry_quiet (s : State) (router port : Nat) (p : Packet) : quiet (packetRetry s router port p) = quiet s
    := by
  grind [packetRetry, enterPort_quiet, linkRetry_quiet, setTries_quiet, setWire_quiet, stored, boxed, quiet]

@[simp] theorem onWire_quiet (s : State) (router port : Nat) (f : List Packet → List Packet) : quiet (onWire s router port f) =
    quiet s := by rfl

@[simp] theorem noteMismatch_quiet (s : State) (router : Nat) : quiet (noteMismatch s router) = quiet s := by rfl

@[simp] theorem replaceIn_quiet (s : State) (router port : Nat) (p q : Packet) : quiet (replaceIn s router port p q) = quiet s
    := by rfl

@[simp] theorem markBad_quiet (s : State) (router port : Nat) (p : Packet) : quiet (markBad s router port p) = quiet s := by
  simp [markBad]

@[simp] theorem takeOff_quiet (s : State) (router port : Nat) (p : Packet) : quiet (takeOff s router port p) = quiet s := by
  simp [takeOff]

theorem combineOnce_quiet (s : State) (router port : Nat) (p : Packet) {t : State} {y1 : Nat} {y2 : Packet} (h : combineOnce s
    router port p = some (t, y1, y2)) : quiet t = quiet s := by
  obtain ⟨b, _, hb⟩ := Option.map_eq_some_iff.mp h
  extract_lets u v at hb
  have hu : quiet u = quiet s := by
    unfold u
    split
    · rfl
    · exact markBad_quiet ..
  have hv : quiet v = quiet s := by rw [← hu]; exact bump_quiet ..
  clear_value u v
  repeat' split at hb
  all_goals obtain ⟨rfl, -, -⟩ := hb
  · rw [markBad_quiet, hu]
  · exact hu
  · rw [replaceIn_quiet, takeOff_quiet, hv]
  · rw [replaceIn_quiet, takeOff_quiet, hv]

@[simp] theorem combineAll_quiet (router : Nat) (x0 : Nat) (s : State) (x2 : Nat) (x3 : Packet) : quiet (combineAll router x0 s
    x2 x3).1 = quiet s := by
  fun_induction combineAll <;> grind [combineOnce_quiet, stored, boxed, quiet]

theorem movePacket_quiet (s : State) (router port : Nat) (p : Packet) {t : State} (h : movePacket s router port p = some t) :
    quiet t = quiet s := by
  unfold movePacket at h
  extract_lets code _ r v _ u at h
  have hv : quiet v = quiet s := (takeOff_quiet ..).trans (combineAll_quiet ..)
  have hu : quiet u = quiet s := hv
  clear_value u
  split at h
  · cases h; simp
  · split at h
    · cases h
      rw [replaceIn_quiet]
      rfl
    · split at h
      · obtain ⟨_, _, rfl⟩ := Option.map_eq_some_iff.mp h
        simp
      · split at h
        · cases h; rw [handOver_quiet, hu]
        · split at h
          · cases h; rw [discardPacket_quiet, hu]
          · split at h
            · cases h; rw [discardPacket_quiet, hu]
            · cases h; rw [bump_quiet, arriveAt_quiet, hu]

@[simp] theorem moveFirst_quiet (s : State) (router port : Nat) (x0 : List Packet) : quiet (moveFirst s router port x0) = quiet
    s := by
  fun_induction moveFirst <;> grind [movePacket_quiet, stored, boxed, quiet]

@[simp] theorem forwardPort_quiet (s : State) (router port : Nat) : quiet (forwardPort s router port) = quiet s := by
  simp [forwardPort]

@[simp] theorem routerStep_quiet (s : State) (router port : Nat) (crcOk : Bool) (lookup : Lookup) : quiet (routerStep s router
    port crcOk lookup) = quiet s := by
  grind [routerStep, escalate_quiet, forwardPort_quiet, packetRetry_quiet, setTries_quiet, stored, boxed, quiet]

@[simp] theorem closeRoutes_quiet (s : State) : quiet (closeRoutes s) = quiet s := by rfl

@[simp] theorem writeShadow_quiet (s : State) (writes narrow : List (Nat × Nat × Nat)) : quiet (writeShadow s writes narrow) =
    quiet s := by rfl

@[simp] theorem buildRoutes_quiet (s : State) (writes narrow : List (Nat × Nat × Nat)) : quiet (buildRoutes s writes narrow) =
    quiet s := by
  grind [buildRoutes, writeShadow_quiet, stored, boxed, quiet]

@[simp] theorem clearShadow_quiet (s : State) : quiet (clearShadow s) = quiet s := by rfl

@[simp] theorem takeSwitch_quiet (s : State) (ep : Nat) : quiet (takeSwitch s ep) = quiet s := by
  unfold takeSwitch; split <;> simp

@[simp] theorem retireNow_quiet (s : State) : quiet (retireNow s) = quiet s := by rfl

@[simp] theorem retireRoutes_quiet (s : State) : quiet (retireRoutes s) = quiet s := by
  unfold retireRoutes; split <;> simp

/-! ## Translate -/

@[simp] theorem onHalts_quiet (s : State) (unit : Unit) (f : Halt → Option Halt) : quiet (onHalts s unit f) = quiet s := by
  unfold onHalts; split <;> simp

@[simp] theorem restartUnit_quiet (s : State) (unit : Unit) (p : Option Halt → Bool) : quiet (restartUnit s unit p) = quiet s := by
  unfold restartUnit; split <;> simp

@[simp] theorem resumeUnit_quiet (s : State) (unit : Unit) (p : Halt → Bool) : quiet (resumeUnit s unit p) = quiet s := by
  simp [resumeUnit]

@[simp] theorem resumeFenced_quiet (s : State) : quiet (resumeFenced s) = quiet s := by
  simp [resumeFenced, each_keeps quiet]

theorem newTable_quiet (s : State) (x key level src : Nat) {y0 : Nat} {t : State} (h : newTable s x key level src = some (y0,
    t)) : quiet t = quiet s := by
  obtain ⟨a, _, ha⟩ := Option.map_eq_some_iff.mp h
  obtain ⟨-, rfl⟩ := Prod.mk.inj ha
  rfl

theorem setEntry_quiet (x key : Nat) (old : List Nat) (off size : Nat) (entry : Reg) (x0 : Nat) (x1 : Nat) (s : State) {y0 :
    Nat} {t : State} (h : setEntry x key old off size entry x0 x1 s = some (y0, t)) : quiet t = quiet s := by
  induction x0 generalizing x1 s y0 t with
  | zero => cases h
  | succ n ih =>
    unfold setEntry at h
    dsimp only at h
    split at h
    · cases h
    · next a u hu =>
      have hq : quiet u = quiet s := by
        split at hu
        · cases hu; rfl
        · exact newTable_quiet _ _ _ _ _ hu
      split at h
      · obtain ⟨-, rfl⟩ := Prod.mk.inj (Option.some.inj h)
        exact (quiet_mk u).trans hq
      · split at h
        · cases h
        · next c v hv =>
          split at h
          · obtain ⟨-, rfl⟩ := Prod.mk.inj (Option.some.inj h)
            exact (quiet_mk v).trans ((ih _ _ hv).trans hq)
          · cases h

theorem setEntries_quiet (h key : Nat) (old : List Nat) (x0 : List (Nat × Nat × Reg)) (x1 : Nat) (s : State) {y0 : Nat} {t :
    State} (h : setEntries h key old x0 x1 s = some (y0, t)) : quiet t = quiet s := by
  fun_induction setEntries <;> grind [setEntry_quiet, stored, boxed, quiet]

theorem rebuildWindow_quiet (s : State) (x key : Nat) (changes : List (Nat × Nat × Reg)) {t : State} (h : rebuildWindow s x key
    changes = some t) : quiet t = quiet s := by
  unfold rebuildWindow at h
  extract_lets w folds at h
  split at h
  · cases h; simp
  · split at h
    · cases h
    · next root t' hset =>
      have ht := setEntries_quiet _ _ _ _ _ _ hset
      extract_lets w' _ u v at h
      cases h
      rw [discardCached_quiet, show quiet v = quiet u from each_keeps quiet (fun _ _ => bump_quiet ..) _ _, ← ht]
      rfl

@[simp] theorem retireWindow_quiet (s : State) (key : Nat) : quiet (retireWindow s key) = quiet s := by
  grind [retireWindow, bump_quiet, each_or quiet, stored, boxed, quiet]

@[simp] theorem retireWindows_quiet (s : State) : quiet (retireWindows s) = quiet s := by
  simp [retireWindows, each_keeps quiet]

@[simp] theorem useOnce_quiet (s : State) (unit : Unit) (l : Leaf) : quiet (useOnce s unit l) = quiet s := by
  simp [useOnce]

@[simp] theorem endWalk_quiet (s : State) (i : Nat) (uncorrectable upset : Bool) : quiet (endWalk s i uncorrectable upset) =
    quiet s := by
  unfold endWalk; grind [addressFault_quiet, bump_quiet, cacheLeaf_quiet, escalate_quiet, pumpUnit_quiet, retireWindows_quiet,
    useOnce_quiet, stored, boxed, quiet]

@[simp] theorem touch_quiet (s : State) (unit : Unit) (a n : Nat) (write : Bool) : quiet (touch s unit a n write).1 = quiet s := by
  unfold touch; grind [bump_quiet, cacheLeaf_quiet, escalate_quiet, lookedUp_quiet, stored, boxed, quiet]

@[simp] theorem touchAll_quiet (unit : Unit) (write : Bool) (x0 : List (Nat × Nat)) (s : State) : quiet (touchAll unit write x0
    s).1 = quiet s := by
  fun_induction touchAll <;> grind [touch_quiet, stored, boxed, quiet]

@[simp] theorem writePieces_quiet  (x0 : List (Nat × Nat)) (x1 : List Byte) (x2 : List Bool) (s : State) : quiet (writePieces x0
    x1 x2 s) = quiet s := by
  fun_induction writePieces <;> grind [physWrite_quiet, stored, boxed, quiet]

@[simp] theorem markOverrides_quiet (s : State) : quiet (markOverrides s) = quiet s := by
  simp [markOverrides, each_keeps quiet]

@[simp] theorem foldOldest_quiet (s : State) : quiet (foldOldest s) = quiet s := by
  grind [foldOldest, rebuildWindow_quiet, retireWindows_quiet, stored, boxed, quiet]

@[simp] theorem movePage_quiet (s : State) (m : Migration) : quiet (movePage s m) = quiet s := by
  simp [movePage]

@[simp] theorem endMigration_quiet (s : State) (i : Nat) : quiet (endMigration s i) = quiet s := by
  grind [endMigration, foldOldest_quiet, movePage_quiet, resumeUnit_quiet, each_or quiet, stored, boxed, quiet]

/-! ## TimeSlice -/

@[simp] theorem fromImage_quiet (s : State) (g : Group) (c a off n : Nat) : quiet (fromImage s g c a off n) = quiet s := by
  grind [fromImage, each_or quiet, stored, boxed, quiet]

@[simp] theorem imagePut_quiet (s : State) (g : Group) (c off : Nat) (l : List Byte) : quiet (imagePut s g c off l) = quiet s := by
  grind [imagePut, each_or quiet, stored, boxed, quiet]

@[simp] theorem countSave_quiet (s : State) (g : Group) (c : Nat) : quiet (countSave s g c) = quiet s := by
  unfold countSave; split <;> simp

@[simp] theorem putHead_quiet (s : State) (g : Group) (c h : Nat) : quiet (putHead s g c h) = quiet s := by
  simp [putHead]

@[simp] theorem headAt_quiet (s : State) (g : Group) (c n done : Nat) : quiet (headAt s g c n done) = quiet s := by
  simp [headAt]

@[simp] theorem headState_quiet (s : State) (g : Group) (c st n : Nat) : quiet (headState s g c st n) = quiet s := by
  grind [headState, putHead_quiet, stored, boxed, quiet]

theorem putPiece_quiet (s : State) (g : Group) (c n free i : Nat) {t : State} (h : putPiece s g c n free i = some t) : quiet t =
    quiet s := by
  obtain ⟨p, _, rfl⟩ := Option.map_eq_some_iff.mp h
  dsimp only
  split
  · exact quiet_mem ..
  · exact quiet_mem ..
  · exact quiet_mem ..
  · split
    · exact quiet_mem ..
    · exact quiet_mem ..
  · exact quiet_mem ..

@[simp] theorem putPieces_quiet (g : Group) (c n free : Nat) (x0 : List Nat) (s : State) : quiet (putPieces g c n free x0 s).1 =
    quiet s := by
  fun_induction putPieces <;> grind [putPiece_quiet, stored, boxed, quiet]

theorem takePiece_quiet (s : State) (g : Group) (c n i : Nat) {t : State} (h : takePiece s g c n i = some t) : quiet t = quiet s
    := by
  obtain ⟨p, _, rfl⟩ := Option.map_eq_some_iff.mp h
  dsimp only
  split
  · rfl
  · rfl
  · rfl
  · split <;> rfl
  · rfl

@[simp] theorem takePieces_quiet (g : Group) (c n : Nat) (x0 : List Nat) (s : State) : quiet (takePieces g c n x0 s).1 = quiet s
    := by
  fun_induction takePieces <;> grind [takePiece_quiet, stored, boxed, quiet]

@[simp] theorem saveWhole_quiet (s : State) (g : Group) (c : Nat) : quiet (saveWhole s g c) = quiet s := by
  simp [saveWhole, each_keeps quiet]

@[simp] theorem quietCores_quiet (s : State) (cores : List Nat) : quiet (quietCores s cores) = quiet s := by
  grind [quietCores, cancelWaits_quiet, onSlot_quiet, writeElems_quiet, each_or quiet, stored, boxed, quiet]

@[simp] theorem beginSave_quiet (s : State) (h i : Nat) (pool : Option Nat) (byHost : Bool) : quiet (beginSave s h i pool
    byHost) = quiet s := by
  unfold beginSave; split <;> simp

@[simp] theorem startRestores_quiet (s : State) (h i : Nat) : quiet (startRestores s h i) = quiet s := by
  grind [startRestores, setGroup_quiet, each_or quiet, stored, boxed, quiet]

@[simp] theorem releaseCores_boxed (s : State) (g : Group) : boxed (releaseCores s g) = boxed s := by
  grind [releaseCores, setCore_quiet, setEng_boxed, setHub_quiet, each_or boxed, stored, boxed, quiet]

@[simp] theorem failImages_quiet (s : State) (h : Nat) (g : Group) (cores : List Nat) : quiet (failImages s h g cores) = quiet s
    := by
  simp [failImages, each_keeps quiet]

@[simp] theorem parkEnds_quiet (s : State) (g : Group) (on : Bool) : quiet (parkEnds s g on) = quiet s := by
  simp [parkEnds, each_keeps quiet]

@[simp] theorem unpark_quiet (s : State) (cores : List Nat) : quiet (unpark s cores) = quiet s := by
  grind [unpark, deliverNotice_quiet, deliverUser_quiet, setReg_quiet, each_or quiet, stored, boxed, quiet]

@[simp] theorem dropWindows_quiet (s : State) (h : Nat) (g : Group) : quiet (dropWindows s h g) = quiet s := by
  simp [dropWindows, each_keeps quiet]

@[simp] theorem beginImages_quiet (s : State) (h i : Nat) (g : Group) : quiet (beginImages s h i g) = quiet s := by
  simp [beginImages, each_keeps quiet]

@[simp] theorem failSave_quiet (s : State) (h i : Nat) (g : Group) : quiet (failSave s h i g) = quiet s := by
  simp [failSave, each_keeps quiet]

@[simp] theorem setProg_quiet (s : State) (h i c : Nat) (at_ : Nat × Nat) : quiet (setProg s h i c at_) = quiet s := by
  unfold setProg; split <;> simp

@[simp] theorem saveSection_quiet (s : State) (h i c : Nat) : quiet (saveSection s h i c) = quiet s := by
  grind [saveSection, headAt_quiet, putPieces_quiet, setProg_quiet, unpark_quiet, stored, boxed, quiet]

@[simp] theorem endImages_boxed (s : State) (h i : Nat) (g : Group) : boxed (endImages s h i g) = boxed s := by
  grind [endImages, bump_quiet, countSave_quiet, imagePut_quiet, releaseCores_boxed, setGroup_quiet, startRestores_quiet,
    unpark_quiet, each_or boxed, stored, boxed, quiet]

@[simp] theorem endSave_boxed (s : State) (h i : Nat) : boxed (endSave s h i) = boxed s := by
  fun_cases endSave <;> grind [beginImages_quiet, endImages_boxed, failSave_quiet, saveSection_quiet, each_or boxed, stored,
    boxed, quiet]

@[simp] theorem restoreCore_boxed (s : State) (g : Group) (stopped : Bool) (c : Nat) : boxed (restoreCore s g stopped c) = boxed
    s := by
  fun_cases restoreCore
  grind [setCore_quiet, setEng_boxed, each_or boxed, stored, boxed, quiet]

@[simp] theorem wakeJobs_quiet (s : State) (c : Nat) : quiet (wakeJobs s c) = quiet s := by
  simp [wakeJobs, each_keeps quiet]

@[simp] theorem wakeCore_boxed (s : State) (c : Nat) : boxed (wakeCore s c) = boxed s := by
  fun_cases wakeCore
  grind [pumpUnit_quiet, resumeUnit_quiet, settleCore_quiet, takeReplay_boxed, wakeJobs_quiet, each_or boxed, stored, boxed, quiet]

@[simp] theorem dropRestore_quiet (s : State) (h i : Nat) : quiet (dropRestore s h i) = quiet s := by
  grind [dropRestore, headState_quiet, setGroup_quiet, unpark_quiet, each_or quiet, stored, boxed, quiet]

@[simp] theorem beginRestore_quiet (s : State) (h i : Nat) (g : Group) : quiet (beginRestore s h i g) = quiet s := by
  simp [beginRestore, each_keeps quiet]

@[simp] theorem restoreSection_quiet (s : State) (h i c : Nat) : quiet (restoreSection s h i c) = quiet s := by
  grind [restoreSection, headAt_quiet, setProg_quiet, takePieces_quiet, unpark_quiet, stored, boxed, quiet]

@[simp] theorem finishRestore_boxed (s : State) (h i : Nat) (g : Group) : boxed (finishRestore s h i g) = boxed s := by
  grind [finishRestore, bump_quiet, headState_quiet, restoreCore_boxed, setConf_quiet, setGroup_quiet, setHub_quiet,
    unpark_quiet, wakeCore_boxed, watchStall_quiet, each_or boxed, stored, boxed, quiet]

@[simp] theorem endRestore_boxed (s : State) (h i : Nat) : boxed (endRestore s h i) = boxed s := by
  unfold endRestore
  split
  · rfl
  · next g hg =>
    have hread : boxed (each g.cores s (fun c s => restoreSection s h i c)) = boxed s :=
      boxed_of_quiet (each_keeps quiet (fun c s => restoreSection_quiet ..) _ s)
    split
    · rfl
    · split
      · split
        · exact boxed_of_quiet (beginRestore_quiet ..)
        · exact boxed_of_quiet (dropRestore_quiet ..)
      · split
        · exact finishRestore_boxed ..
        · dsimp only
          split
          · split
            · rw [boxed_of_quiet (dropRestore_quiet ..), hread]
            · exact hread
          · exact hread

@[simp] theorem endPeriods_quiet (s : State) (h : Nat) : quiet (endPeriods s h) = quiet s := by
  grind [endPeriods, beginSave_quiet, each_or quiet, stored, boxed, quiet]

/-! ## Trains -/

@[simp] theorem haltOwners_quiet (s : State) (l : List (Unit × Nat × Nat)) : quiet (haltOwners s l) = quiet s := by
  grind [haltOwners, haltUnit_quiet, each_or quiet, stored, boxed, quiet]

@[simp] theorem dropLost_quiet (s : State) (port : Nat) : quiet (dropLost s port) = quiet s := by
  simp [dropLost]

@[simp] theorem assemble_quiet (s : State) (port : Nat) : quiet (assemble s port) = quiet s := by
  grind [assemble, bump_quiet, dropLost_quiet, setPort_quiet, stored, boxed, quiet]

@[simp] theorem speak_quiet (s : State) (port at_ : Nat) (p : RolPort) (seqs : Tab Nat) (again flagged strict : Bool) (rows :
    List Row) : quiet (speak s port at_ p seqs again flagged strict rows) = quiet s := by rfl

@[simp] theorem transmit_quiet (s : State) (port at_ : Nat) : quiet (transmit s port at_) = quiet s := by
  grind [transmit, bump_quiet, setPort_quiet, speak_quiet, stored, boxed, quiet]

@[simp] theorem windowStrangers_quiet (s : State) (port : Nat) (slots : List (List Nat)) : quiet (windowStrangers s port slots)
    = quiet s := by
  grind [windowStrangers, bump_quiet, setPort_quiet, each_or quiet, stored, boxed, quiet]

@[simp] theorem backoff_quiet (s : State) (port rand : Nat) : quiet (backoff s port rand) = quiet s := by rfl

@[simp] theorem ownBurst_quiet (s : State) (port : Nat) (mine : Option SlotClass) (rand : Nat) : quiet (ownBurst s port mine
    rand) = quiet s := by
  unfold ownBurst
  dsimp only
  split
  · exact setPort_quiet ..
  · rw [backoff_quiet, bump_quiet]
  · split
    · rfl
    · rw [bump_quiet, setPort_quiet]

@[simp] theorem countSlots_quiet (s : State) (port : Nat) (cls : List SlotClass) : quiet (countSlots s port cls) = quiet s := by
  simp [countSlots, each_keeps quiet]

@[simp] theorem windowSeen_quiet (s : State) (port n : Nat) (slots : List (List Nat)) (mine rand : Nat) : quiet (windowSeen s
    port n slots mine rand).2 = quiet s := by
  grind [windowSeen, countSlots_quiet, emit_quiet, ownBurst_quiet, windowStrangers_quiet, stored, boxed, quiet]

@[simp] theorem contentionEnd_quiet (s : State) (port : Nat) (slots : List (List Nat)) (mine rand : Nat) : quiet (contentionEnd
    s port slots mine rand) = quiet s := by
  grind [contentionEnd, setPort_quiet, transmit_quiet, windowSeen_quiet, stored, boxed, quiet]

@[simp] theorem entryEnd_quiet (s : State) (port : Nat) (slots : List (List Nat)) (mine rand : Nat) : quiet (entryEnd s port
    slots mine rand) = quiet s := by
  grind [entryEnd, setPort_quiet, transmit_quiet, windowSeen_quiet, stored, boxed, quiet]

@[simp] theorem startSilent_quiet (s : State) (port : Nat) : quiet (startSilent s port) = quiet s := by
  grind [startSilent, bump_quiet, setPort_quiet, stored, boxed, quiet]

@[simp] theorem trainCollides_quiet (s : State) (port : Nat) (own : Bool) (rand : Nat) : quiet (trainCollides s port own rand) =
    quiet s := by
  grind [trainCollides, backoff_quiet, bump_quiet, setPort_quiet, stored, boxed, quiet]

@[simp] theorem joinSilence_quiet (s : State) (port : Nat) : quiet (joinSilence s port) = quiet s := by
  grind [joinSilence, bump_quiet, speak_quiet, stored, boxed, quiet]

@[simp] theorem ackHold_quiet (s : State) (port : Nat) : quiet (ackHold s port) = quiet s := by
  grind [ackHold, setPort_quiet, stored, boxed, quiet]

@[simp] theorem resendLate_quiet (s : State) (port member : Nat) : quiet (resendLate s port member) = quiet s := by rfl

@[simp] theorem measure_quiet (s : State) (port delay : Nat) : quiet (measure s port delay) = quiet s := by
  grind [measure, setPort_quiet, stored, boxed, quiet]

@[simp] theorem losePair_quiet (s : State) (port member : Nat) : quiet (losePair s port member) = quiet s := by
  grind [losePair, bump_quiet, detect_quiet, haltOwners_quiet, setPort_quiet, stored, boxed, quiet]

end Sys2Proof.Machine
end

section
/-! What the operations of the model keep: Fabric, HostPort, Fences, Cloves, Replace, Tiers. -/

namespace Sys2Proof.Machine

/-! ## Fabric -/

@[simp] theorem answerRow_quiet (s : State) (port member hops : Nat) (r : Row) : quiet (answerRow s port member hops r) = quiet
    s := by
  simp [answerRow]

@[simp] theorem sendStatus_quiet (s : State) (port member origin code value : Nat) : quiet (sendStatus s port member origin code
    value) = quiet s := by rfl

@[simp] theorem sendE2e_quiet (s : State) (origin : Nat) : quiet (sendE2e s origin) = quiet s := by
  unfold sendE2e; split <;> simp

@[simp] theorem noteE2e_quiet (s : State) (port member : Nat) (r : Row) (ok : Bool) : quiet (noteE2e s port member r ok) = quiet
    s := by
  grind [noteE2e, sendE2e_quiet, stored, boxed, quiet]

@[simp] theorem refuseRow_quiet (s : State) (port member : Nat) (r : Row) (code value : Nat) : quiet (refuseRow s port member r
    code value) = quiet s := by
  unfold refuseRow; split <;> simp

theorem slotComplete_quiet {put_ : Nat → List Byte → List Bool → State → State} (hput : ∀ a l p s, quiet (put_ a l p s) = quiet s)
    (s : State) (die a h : Nat) (sum : List AccWord) (bad : List Bool) : quiet (slotComplete s die a h sum bad put_) = quiet s := by
  unfold slotComplete
  extract_lets r t u v w p
  have ht : quiet t = quiet s := by
    unfold t
    split
    · exact hput ..
    · rfl
  have hv : quiet v = quiet s := (bump_quiet ..).trans ((hput ..).trans ht)
  have hw : quiet w = quiet s := by
    rw [← hv]
    unfold w
    split
    · rfl
    · exact bump_quiet ..
  have hp : quiet p.2 = quiet s := (postUnit_quiet ..).trans hw
  split
  · exact hp
  · exact (bump_quiet ..).trans hp

@[simp] theorem reduceArrives_quiet (s : State) (port member : Nat) (r : Row) : quiet (reduceArrives s port member r).1 = quiet
    s := by
  unfold reduceArrives
  extract_lets die q refuse t tile put_ ws
  have hq : quiet q.1 = quiet s := touchAll_quiet ..
  have ht : quiet t = quiet s := hq
  have hrefuse (t : State) (code : Nat) : quiet (refuse t code).1 = quiet t := refuseRow_quiet ..
  have hput (a : Nat) (l : List Byte) (p : List Bool) (t : State) : quiet (put_ a l p t) = quiet t := by
    unfold put_
    dsimp only
    split
    · exact (writePieces_quiet ..).trans (touchAll_quiet ..)
    · exact touchAll_quiet ..
  clear_value q refuse put_ t
  split
  · exact (hrefuse ..).trans hq
  · extract_lets read whole h done u bad n v w x
    have hu : quiet u = quiet s := by
      unfold u
      split
      · exact (hput ..).trans ((bump_quiet ..).trans ht)
      · exact ht
    have hv : quiet v = quiet s := (hput ..).trans ht
    have hw : quiet w = quiet s := by
      rw [← hv]
      unfold w
      split
      · exact bump_quiet ..
      · rfl
    have hx : quiet x = quiet s := (hput ..).trans hw
    clear_value u v w x
    split
    · exact (hrefuse ..).trans ht
    · split
      · exact (hrefuse ..).trans hu
      · dsimp only
        split
        · exact (slotComplete_quiet hput ..).trans hx
        · exact hx

@[simp] theorem farAnswers_quiet (s : State) (tag code : Nat) (data : List Byte) (poison : List Bool) : quiet (farAnswers s tag
    code data poison) = quiet s := by rfl

@[simp] theorem ownersDone_quiet (s : State) (l : List (Unit × Nat × Nat)) : quiet (ownersDone s l) = quiet s := by
  grind [ownersDone, farAnswers_quiet, onSegs_quiet, pumpUnit_quiet, each_or quiet, stored, boxed, quiet]

@[simp] theorem refusedStep_quiet (s : State) (unit : Unit) (code : Nat) (e : Nat × Nat × Nat) : quiet (refusedStep s unit code
    e) = quiet s := by
  simp [refusedStep]

@[simp] theorem refusedUnit_quiet (s : State) (unit : Unit) (tag code : Nat) : quiet (refusedUnit s unit tag code) = quiet s := by
  grind [refusedUnit, farAnswers_quiet, haltUnit_quiet, refusedStep_quiet, stored, boxed, quiet]

@[simp] theorem releaseHeld_quiet (s : State) : quiet (releaseHeld s) = quiet s := by
  simp [releaseHeld, each_keeps quiet]

@[simp] theorem statusArrives_quiet (s : State) (r : Row) : quiet (statusArrives s r) = quiet s := by
  grind [statusArrives, ownersDone_quiet, refusedStep_quiet, refusedUnit_quiet, releaseHeld_quiet, stored, boxed, quiet]

@[simp] theorem writeArrives_quiet (s : State) (port member : Nat) (r : Row) : quiet (writeArrives s port member r).1 = quiet s
    := by
  grind [writeArrives, refuseRow_quiet, touchAll_quiet, writePieces_quiet, stored, boxed, quiet]

@[simp] theorem readRow_quiet (s : State) (port member : Nat) (r : Row) : quiet (readRow s port member r).1 = quiet s := by
  grind [readRow, answerRow_quiet, refuseRow_quiet, touchAll_quiet, stored, boxed, quiet]

@[simp] theorem syncRowArrives_quiet (s : State) (port member : Nat) (r : Row) : quiet (syncRowArrives s port member r) = quiet
    s := by
  grind [syncRowArrives, answerRow_quiet, applyAt_quiet, stored, boxed, quiet]

@[simp] theorem setAdmit_quiet (s : State) (a : AdmitLoad) : quiet (setAdmit s a) = quiet s := by rfl

@[simp] theorem admitSend_quiet (s : State) (h : Nat) : quiet (admitSend s h) = quiet s := by
  grind [admitSend, addRequest_quiet, queueTo_quiet, setAdmit_quiet, stored, boxed, quiet]

@[simp] theorem admitArrives_quiet (s : State) (q : FabReq) (r : Row) : quiet (admitArrives s q r) = quiet s := by
  grind [admitArrives, admitSend_quiet, setAdmit_quiet, touchAll_quiet, writePieces_quiet, stored, boxed, quiet]

@[simp] theorem readBackRow_quiet (s : State) (r : Row) : quiet (readBackRow s r) = quiet s := by
  grind [readBackRow, admitArrives_quiet, farAnswers_quiet, onSegs_quiet, pumpUnit_quiet, stored, boxed, quiet]

@[simp] theorem syncBackRow_quiet (s : State) (r : Row) : quiet (syncBackRow s r) = quiet s := by
  fun_cases syncBackRow <;> grind [bump_quiet, finishSync_quiet, stored, boxed, quiet]

@[simp] theorem resendRow_quiet (s : State) (port member : Nat) (r : Row) : quiet (resendRow s port member r) = quiet s := by rfl

@[simp] theorem relayRow_quiet (s : State) (port : Nat) (r : Row) : quiet (relayRow s port r) = quiet s := by
  grind [relayRow, bump_quiet, queueRow_quiet, stored, boxed, quiet]

@[simp] theorem rowEffect_quiet (s : State) (port member : Nat) (r : Row) : quiet (rowEffect s port member r).1 = quiet s := by
  unfold rowEffect; split <;> simp

@[simp] theorem applyRow_quiet (s : State) (port member seq : Nat) (r : Row) : quiet (applyRow s port member seq r) = quiet s := by
  grind [applyRow, bump_quiet, noteE2e_quiet, relayRow_quiet, rowEffect_quiet, snoopAll_quiet, stored, boxed, quiet]

@[simp] theorem releaseRows_quiet (s : State) : quiet (releaseRows s) = quiet s := by
  simp [releaseRows, each_keeps quiet]

@[simp] theorem takeAck_quiet (s : State) (port from_ : Nat) (head : Nat) : quiet (takeAck s port from_ head) = quiet s := by
  grind [takeAck, ownersDone_quiet, releaseHeld_quiet, setPort_quiet, stored, boxed, quiet]

@[simp] theorem askAgain_quiet (s : State) (port from_ : Nat) : quiet (askAgain s port from_) = quiet s := by
  grind [askAgain, bump_quiet, queueTo_quiet, stored, boxed, quiet]

@[simp] theorem applyRows_quiet (s : State) (port from_ own seq : Nat) (rows : List Row) : quiet (applyRows s port from_ own seq
    rows) = quiet s := by
  simp [applyRows, each_keeps quiet]

@[simp] theorem nextExpected_quiet (s : State) (port from_ seq : Nat) : quiet (nextExpected s port from_ seq) = quiet s := by rfl

@[simp] theorem takeTrain_quiet (s : State) (port from_ : Nat) (head : Nat) (data : List Byte) (bad : List Nat) : quiet
    (takeTrain s port from_ head data bad) = quiet s := by
  fun_cases takeTrain <;> grind [applyRows_quiet, askAgain_quiet, bump_quiet, nextExpected_quiet, setPort_quiet, stored, boxed,
    quiet]

@[simp] theorem countCodewords_quiet (s : State) (port : Nat) (data : List Byte) (bad : List Nat) (corrected : Nat) : quiet
    (countCodewords s port data bad corrected) = quiet s := by rfl

@[simp] theorem endOfTrain_quiet (s : State) (port from_ : Nat) (tail : Nat) : quiet (endOfTrain s port from_ tail) = quiet s := by rfl

@[simp] theorem dropFirst_quiet (s : State) (head : Nat) (data : List Byte) : quiet (dropFirst s head data) = quiet s := by
  unfold dropFirst; split <;> simp

@[simp] theorem trainArrives_quiet (s : State) (port : Nat) (data : List Byte) (bad : List Nat) (corrected : Nat) (lookup :
    Lookup) : quiet (trainArrives s port data bad corrected lookup) = quiet s := by
  grind [trainArrives, bump_quiet, countCodewords_quiet, dropFirst_quiet, endOfTrain_quiet, escalate_quiet, freeNext_quiet,
    setPort_quiet, takeAck_quiet, takeTrain_quiet, trainCollides_quiet, stored, boxed, quiet]

@[simp] theorem e2eDue_quiet (s : State) (origin : Nat) : quiet (e2eDue s origin) = quiet s := by
  grind [e2eDue, sendE2e_quiet, stored, boxed, quiet]

/-! ## HostPort -/

@[simp] theorem writeEventEn_quiet (s : State) (v : BitVec 64) : quiet (writeEventEn s v) = quiet s := by
  grind [writeEventEn, raiseMsix_quiet, stored, boxed, quiet]

@[simp] theorem writeErrInfo_quiet (s : State) (v : BitVec 64) : quiet (writeErrInfo s v) = quiet s := by
  unfold writeErrInfo; split <;> simp

@[simp] theorem writeRingCfg_stored (s : State) (v : BitVec 64) : stored (writeRingCfg s v) = stored s := by
  grind [writeRingCfg, stored]

@[simp] theorem writeRing_stored (s : State) (v : BitVec 64) : stored (writeRing s v) = stored s := by
  grind [writeRing, stored]

@[simp] theorem unmask_quiet (s : State) (v : Nat) : quiet (unmask s v) = quiet s := by
  unfold unmask; split <;> simp

@[simp] theorem openBars_quiet (s : State) : quiet (openBars s) = quiet s := by
  grind [openBars, stored, boxed, quiet]

@[simp] theorem writeComponent_quiet (s : State) (off : Nat) (b : Byte) : quiet (writeComponent s off b) = quiet s := by
  grind [writeComponent, stored, boxed, quiet]

@[simp] theorem noteLink_quiet (s : State) (t : Trained) : quiet (noteLink s t) = quiet s := by rfl

@[simp] theorem refuseHost_quiet (s : State) (cause dpa : Nat) (write : Bool) : quiet (refuseHost s cause dpa write) = quiet s
    := by
  simp [refuseHost]

@[simp] theorem recordLine_quiet (s : State) (line : Nat) (hold : Nat) : quiet (recordLine s line hold) = quiet s := by
  unfold recordLine; split <;> simp

@[simp] theorem serveRead_quiet (s : State) (line hold : Nat) : quiet (serveRead s line hold) = quiet s := by
  grind [serveRead, bump_quiet, emit_quiet, recordLine_quiet, refuseHost_quiet, touch_quiet, stored, boxed, quiet]

@[simp] theorem hostRead_quiet (s : State) (line hold : Nat) : quiet (hostRead s line hold) = quiet s := by
  grind [hostRead, bump_quiet, serveRead_quiet, snoopLine_quiet, stored, boxed, quiet]

@[simp] theorem retryReads_quiet (s : State) : quiet (retryReads s) = quiet s := by
  simp [retryReads, each_keeps quiet]

@[simp] theorem finishCxlReset_quiet (s : State) : quiet (finishCxlReset s) = quiet s := by
  unfold finishCxlReset; split <;> simp

@[simp] theorem endSnoop_quiet (s : State) (b : BackInval) : quiet (endSnoop s b) = quiet s := by
  grind [endSnoop, finishCxlReset_quiet, pumpUnit_quiet, releaseRows_quiet, retryReads_quiet, snoopLine_quiet, each_or quiet,
    stored, boxed, quiet]

@[simp] theorem hostStore_quiet (s : State) (dpa : Nat) (data : List Byte) (mask : List Bool) : quiet (hostStore s dpa data
    mask) = quiet s := by
  grind [hostStore, bump_quiet, physWrite_quiet, refuseHost_quiet, touch_quiet, stored, boxed, quiet]

@[simp] theorem birspArrives_quiet (s : State) (line : Nat) (writeback : List Byte) : quiet (birspArrives s line writeback) =
    quiet s := by
  grind [birspArrives, endSnoop_quiet, hostStore_quiet, stored, boxed, quiet]

@[simp] theorem poisonLine_quiet (s : State) (line : Nat) : quiet (poisonLine s line) = quiet s := by
  unfold poisonLine; split <;> simp

@[simp] theorem abandonSnoop_quiet (s : State) (b : BackInval) : quiet (abandonSnoop s b) = quiet s := by
  simp [abandonSnoop]

@[simp] theorem abandonAll_quiet (s : State) : quiet (abandonAll s) = quiet s := by
  simp [abandonAll, each_keeps quiet]

@[simp] theorem linkDies_quiet (s : State) : quiet (linkDies s) = quiet s := by
  simp [linkDies]

@[simp] theorem trainHost_quiet (s : State) (width rate : Nat) : quiet (trainHost s width rate) = quiet s := by
  grind [trainHost, bump_quiet, hostEvent_quiet, linkDies_quiet, trayEvent_quiet, stored, boxed, quiet]

@[simp] theorem clearIo_quiet (s : State) : quiet (clearIo s) = quiet s := by rfl

@[simp] theorem hotResetPort_quiet (s : State) : quiet (hotResetPort s) = quiet s := by
  simp [hotResetPort, each_keeps quiet]

@[simp] theorem commitDecoder_quiet (s : State) (decoder base size skip ways : Nat) (biOn : Bool) : quiet (commitDecoder s
    decoder base size skip ways biOn) = quiet s := by
  grind [commitDecoder, stored, boxed, quiet]

/-! ## Fences -/

@[simp] theorem addRecord_pending (s : State) (d : DefectRec) : (addRecord s d).pending = s.pending := by
  unfold addRecord; split <;> simp

@[simp] theorem appendRecord_pending (s : State) (el : Element) (origin cause : Nat) : (appendRecord s el origin cause).pending
    = s.pending := by
  simp [appendRecord]

@[simp] theorem takeOut_pending (s : State) (el : Element) (origin cause : Nat) : (takeOut s el origin cause).pending =
    s.pending := by
  grind [takeOut, appendRecord_pending, bump_quiet, capsChanged_quiet, stored, boxed, quiet]

@[simp] theorem clearDefects_boxed (s : State) (c : Nat) : boxed (clearDefects s c) = boxed s := by
  grind [clearDefects, injectionSeen_quiet, setEng_boxed, each_or boxed, stored, boxed, quiet]

@[simp] theorem backInService_pending (s : State) (el : Element) : (backInService s el).pending = s.pending := by
  grind [backInService, capsChanged_quiet, clearDefects_boxed, stored, boxed, quiet]

@[simp] theorem restoreElement_pending (s : State) (el : Element) (cause : Nat) : (restoreElement s el cause).pending =
    s.pending := by
  simp [restoreElement]

@[simp] theorem unsave_quiet (s : State) (g : Group) : quiet (unsave s g) = quiet s := by
  simp [unsave, each_keeps quiet]

@[simp] theorem affectCores_quiet (s : State) (cores : List Nat) : quiet (affectCores s cores) = quiet s := by
  grind [affectCores, dropRestore_quiet, failImages_quiet, quietCores_quiet, setGroup_quiet, unpark_quiet, unsave_quiet, each_or
    quiet, stored, boxed, quiet]

@[simp] theorem movePages_quiet (s : State) (stack page : Nat) : quiet (movePages s stack page) = quiet s := by
  refine each_keeps quiet (fun l s => ?_) _ _
  extract_lets t e n u key over_ _
  have ht : quiet t = quiet s := by
    unfold t
    split
    · exact foldOldest_quiet ..
    · rfl
  clear_value t
  split
  · exact ht
  · extract_lets target v _ w
    have hv : quiet v = quiet s := (quiet_xlat_mem ..).trans ((dropPages_quiet ..).trans ht)
    have hw : quiet w = quiet v := by
      unfold w
      split
      · exact quiet_xlat ..
      · split
        · next x h => exact (retireWindows_quiet ..).trans (rebuildWindow_quiet _ _ _ _ h)
        · rfl
    rw [bump_quiet, discardCached_quiet, markOverrides_quiet, hw, hv]

@[simp] theorem withDetour_quiet (s : State) (table : Nat) (o : Override) : quiet (withDetour s table o) = quiet s := by rfl

@[simp] theorem addDetours_quiet (s : State) (detours : List (Nat × Nat × Nat × Nat)) : quiet (addDetours s detours) = quiet s
    := by
  grind [addDetours, bumpMax_quiet, withDetour_quiet, each_or quiet, stored, boxed, quiet]

@[simp] theorem fenceElement_pending (s : State) (el : Element) (origin cause : Nat) (detours : List (Nat × Nat × Nat × Nat)) :
    (fenceElement s el origin cause detours).pending = s.pending := by
  grind [fenceElement, addDetours_quiet, affectCores_quiet, bump_quiet, movePages_quiet, restoreElement_pending,
    takeOut_pending, stored, boxed, quiet]

@[simp] theorem detourFence_quiet (s : State) (el : Element) (detours : List (Nat × Nat × Nat × Nat)) : quiet (detourFence s el
    detours) = quiet s := by
  unfold detourFence; split <;> simp

@[simp] theorem rebuildRoutes_quiet (s : State) (writes narrow : List (Nat × Nat × Nat)) (done : Bool) : quiet (rebuildRoutes s
    writes narrow done) = quiet s := by
  grind [rebuildRoutes, affectCores_quiet, bump_quiet, clearShadow_quiet, writeShadow_quiet, stored, boxed, quiet]

/-! ## Cloves -/

@[simp] theorem writeClove_quiet (s : State) (r domain trigger cls target config : Nat) (computeGone : Bool) : quiet (writeClove
    s r domain trigger cls target config computeGone) = quiet s := by
  unfold writeClove; split <;> simp

/-! ## Replace -/

@[simp] theorem stepBack_quiet (s : State) (e : Engine) (c k n : Nat) : quiet (stepBack s e c k n) = quiet s := by
  unfold stepBack; split <;> simp

@[simp] theorem rewindEngine_boxed (s : State) (id : Nat) : boxed (rewindEngine s id) = boxed s := by
  grind [rewindEngine, restart_boxed, setEng_boxed, stepBack_quiet, stored, boxed, quiet]

@[simp] theorem moveCore_boxed (s : State) (moves : List (Nat × Nat)) (a b : Nat) : boxed (moveCore s moves a b) = boxed s := by
  fun_cases moveCore
  grind [setCore_quiet, setEng_boxed, setHub_quiet, each_or boxed, stored, boxed, quiet]

@[simp] theorem relandSlot_quiet (s : State) (moves : List (Nat × Nat)) (c k : Nat) : quiet (relandSlot s moves c k) = quiet s
    := by
  grind [relandSlot, setArea_quiet, tellContributors_quiet, each_or quiet, stored, boxed, quiet]

@[simp] theorem mapElsewhere_quiet (s : State) (moves : List (Nat × Nat)) (own : List Nat) : quiet (mapElsewhere s moves own) =
    quiet s := by rfl

@[simp] theorem clearInjected_pending (s : State) : (clearInjected s).pending = s.pending := by
  grind [clearInjected, restoreElement_pending, each_or State.pending]

@[simp] theorem failReplace_quiet (s : State) (h i cause : Nat) (g : Group) : quiet (failReplace s h i cause g) = quiet s := by
  grind [failReplace, bump_quiet, recordInImage_quiet, rejectStep_quiet, setGroup_quiet, each_or quiet, stored, boxed, quiet]

@[simp] theorem restartGroup_boxed (s : State) (h i : Nat) (g : Group) (hold : Bool) : boxed (restartGroup s h i g hold) = boxed
    s := by
  grind [restartGroup, dropWindows_quiet, onSlot_quiet, setGroup_quiet, wakeCore_boxed, watchStall_quiet, each_or boxed, stored,
    boxed, quiet]

@[simp] theorem moveGroup_boxed (s : State) (h i : Nat) (g : Group) (moves : List (Nat × Nat)) (hold : Bool) : boxed (moveGroup
    s h i g moves hold) = boxed s := by
  grind [moveGroup, mapElsewhere_quiet, moveCore_boxed, onSlot_quiet, relandSlot_quiet, restartGroup_boxed, rewindEngine_boxed,
    each_or boxed, stored, boxed, quiet]

@[simp] theorem moveSaved_quiet (s : State) (h i : Nat) (g : Group) (moves : List (Nat × Nat)) : quiet (moveSaved s h i g moves)
    = quiet s := by
  grind [moveSaved, imagePut_quiet, mapElsewhere_quiet, setGroup_quiet, each_or quiet, stored, boxed, quiet]

@[simp] theorem replaceGroup_pending (s : State) (h i : Nat) (unreadable : Bool) : (replaceGroup s h i unreadable).pending =
    s.pending := by
  unfold replaceGroup
  split
  · rfl
  · next g hg =>
    split
    · rfl
    · extract_lets t counts policy held done
      have ht : t.pending = s.pending :=
        each_keeps State.pending (fun r t => pending_of_quiet (writeClove_quiet ..)) _ _
      have hfail (cause : Nat) : (failReplace t h i cause g).pending = t.pending := pending_of_quiet (failReplace_quiet ..)
      rw [clearInjected_pending, ← ht]
      unfold done
      split
      · split <;> exact hfail _
      · extract_lets relocs u w
        have hu : u.pending = t.pending := by
          unfold u
          split
          · exact pending_of_boxed (moveGroup_boxed ..)
          · exact pending_of_quiet (moveSaved_quiet ..)
        have hw : w.pending = t.pending := by
          rw [← hu]
          exact pending_of_quiet ((bump_quiet ..).trans (bump_quiet ..))
        clear_value w
        split
        · exact hfail _
        · split
          · exact hfail _
          · split
            · exact hfail _
            · split <;> exact hw

/-! ## Tiers -/

@[simp] theorem tierFault_quiet (s : State) (p : Packet) : quiet (tierFault s p) = quiet s := by
  grind [tierFault, freeAnswered_quiet, haltUnit_quiet, unitFault_quiet, stored, boxed, quiet]

@[simp] theorem dropRequests_quiet (s : State) (port : Nat) (gone : TierReq → Bool) : quiet (dropRequests s port gone) = quiet s
    := by
  simp [dropRequests, each_keeps quiet]

theorem tierChanged_quiet (old s : State) (port : Nat) : quiet (tierChanged old s port) = quiet s := by
  unfold tierChanged
  split
  · rfl
  · split <;> simp

theorem tierChanged_pending (old s : State) (port : Nat) : (tierChanged old s port).pending = s.pending :=
  pending_of_quiet (tierChanged_quiet ..)

@[simp] theorem tiersDown_quiet (s : State) : quiet (tiersDown s) = quiet s :=
  each_keeps quiet (fun p s => by rw [tierChanged_quiet, setTier_quiet]) _ _

@[simp] theorem dropTierLeaves_quiet (s : State) (port : Nat) : quiet (dropTierLeaves s port) = quiet s := by
  simp [dropTierLeaves]

@[simp] theorem fenceTier_pending (s : State) (port origin cause : Nat) : (fenceTier s port origin cause).pending = s.pending :=
    by
  unfold fenceTier
  extract_lets el t u
  split
  · rfl
  · rw [tierChanged_pending, pending_of_quiet (dropTierLeaves_quiet ..), pending_of_quiet (dropRequests_quiet ..),
      pending_of_quiet (bump_quiet ..), pending_of_quiet (setTier_quiet ..)]
    exact takeOut_pending ..

@[simp] theorem tierFails_pending (s : State) (port : Nat) : (tierFails s port).pending = s.pending := by
  grind [tierFails, detect_quiet, fenceTier_pending, stored, boxed, quiet]

@[simp] theorem tierLinkDown_pending (s : State) (port : Nat) : (Sys2Proof.Machine.tierLinkDown s port).pending = s.pending :=
    by
  unfold Sys2Proof.Machine.tierLinkDown
  split
  · rfl
  · extract_lets _ t
    have ht : t.pending = s.pending := pending_of_quiet (setTier_quiet ..)
    split
    · rw [tierChanged_pending, ht]
    · rw [tierFails_pending, ht]

@[simp] theorem hotAdd_quiet (s : State) (port gib : Nat) : quiet (hotAdd s port gib) = quiet s := by
  unfold hotAdd
  dsimp only
  split
  · rfl
  · rw [tierChanged_quiet]
    simp

@[simp] theorem removeDevice_quiet (s : State) (port device : Nat) : quiet (removeDevice s port device) = quiet s := by
  unfold removeDevice
  extract_lets p
  split
  · rfl
  · split
    · rfl
    · rw [tierChanged_quiet, dropTierLeaves_quiet, dropRequests_quiet, quiet_mem, bump_quiet, setTier_quiet]

@[simp] theorem requestTimeout_pending (s : State) (port request : Nat) : (requestTimeout s port request).pending = s.pending := by
  grind [requestTimeout, bump_quiet, detect_quiet, emit_quiet, setTier_quiet, tierFails_pending, stored, boxed, quiet]

@[simp] theorem devicePoison_quiet (s : State) (port : Nat) (p : Packet) : quiet (devicePoison s port p) = quiet s := by rfl

@[simp] theorem requestDone_quiet (s : State) (port request : Nat) (poison : Bool) : quiet (requestDone s port request poison) =
    quiet s := by
  grind [requestDone, bump_quiet, devicePoison_quiet, respondRead_quiet, respondWrite_quiet, setTier_quiet, stored, boxed,
    quiet]

@[simp] theorem fencePort_pending (s : State) (port origin cause : Nat) (routes : List (Nat × Nat × Nat)) : (fencePort s port
    origin cause routes).pending = s.pending := by
  grind [fencePort, haltOwners_quiet, leaveDomain_quiet, setPort_quiet, takeOut_pending, stored, boxed, quiet]

@[simp] theorem fenceAny_pending (s : State) (el : Element) (origin cause : Nat) : (fenceAny s el origin cause).pending =
    s.pending := by
  unfold fenceAny; split <;> simp

end Sys2Proof.Machine
end

section
/-! What the operations of the model keep: Shed, Secure, Supply, Health, Mailbox. -/

namespace Sys2Proof.Machine

/-! ## Shed -/

@[simp] theorem onDemands_quiet (s : State) (r : Nat) (f : Demands → Demands) : quiet (onDemands s r f) = quiet s := by rfl

@[simp] theorem setShed_quiet (s : State) (r : Nat) (step : Shed) : quiet (setShed s r step) = quiet s := by
  grind [setShed, bump_quiet, capsChanged_quiet, stored, boxed, quiet]

@[simp] theorem parkRegion_quiet (s : State) (r : Nat) : quiet (parkRegion s r) = quiet s := by
  simp [parkRegion, each_keeps quiet]

@[simp] theorem unparkRegion_boxed (s : State) (r : Nat) (step : Shed) : boxed (unparkRegion s r step) = boxed s := by
  grind [unparkRegion, setShed_quiet, wakeCore_boxed, each_or boxed, stored, boxed, quiet]

@[simp] theorem noteWait_quiet (s : State) (r : Nat) : quiet (noteWait s r) = quiet s := by
  unfold noteWait; split <;> simp

@[simp] theorem endWait_quiet (s : State) (r : Nat) : quiet (endWait s r) = quiet s := by rfl

@[simp] theorem settleShed_boxed (s : State) (r : Nat) : boxed (settleShed s r) = boxed s := by
  grind [settleShed, endWait_quiet, noteWait_quiet, parkRegion_quiet, unparkRegion_boxed, stored, boxed, quiet]

@[simp] theorem demand_boxed (s : State) (r : Nat) (f : Demands → Demands) : boxed (demand s r f) = boxed s := by
  grind [demand, onDemands_quiet, settleShed_boxed, stored, boxed, quiet]

@[simp] theorem haltAtDark_quiet (s : State) (r : Nat) (p : Packet) : quiet (haltAtDark s r p) = quiet s := by
  grind [haltAtDark, freeAnswered_quiet, haltUnit_quiet, stored, boxed, quiet]

@[simp] theorem dropMesh_quiet (s : State) (r : Nat) : quiet (dropMesh s r) = quiet s := by rfl

@[simp] theorem loseCompute_boxed (s : State) (r : Nat) : boxed (loseCompute s r) = boxed s := by rfl

@[simp] theorem sendAhead_quiet (s : State) : quiet (sendAhead s) = quiet s := by
  unfold sendAhead; split <;> simp

@[simp] theorem answerWaits_quiet (s : State) (r status : Nat) : quiet (answerWaits s r status) = quiet s := by
  simp [answerWaits, each_keeps quiet]

@[simp] theorem darken_boxed (s : State) (r : Nat) : boxed (darken s r) = boxed s := by
  grind [darken, answerWaits_quiet, dropLines_quiet, haltAtDark_quiet, loseCompute_boxed, setReg_quiet, setShed_quiet, each_or
    boxed, stored, boxed, quiet]

@[simp] theorem moveImages_quiet (s : State) (g now : Group) (r : Nat) : quiet (moveImages s g now r) = quiet s := by
  grind [moveImages, each_or quiet, stored, boxed, quiet]

@[simp] theorem saveForDark_quiet (s : State) (h i r : Nat) (g : Group) : quiet (saveForDark s h i r g) = quiet s := by
  simp [saveForDark]

@[simp] theorem loseGroup_quiet (s : State) (h i : Nat) (g : Group) : quiet (loseGroup s h i g) = quiet s := by
  simp [loseGroup, each_keeps quiet]

@[simp] theorem rehome_quiet (s : State) (h i r : Nat) (fenced : Bool) : quiet (rehome s h i r fenced) = quiet s := by
  fun_cases rehome <;> grind [bump_quiet, moveSaved_quiet, setGroup_quiet, stored, boxed, quiet]

@[simp] theorem lodgeGroup_quiet (s : State) (h i r : Nat) (g : Group) : quiet (lodgeGroup s h i r g) = quiet s := by
  unfold lodgeGroup; split <;> simp

@[simp] theorem clearDarkFence_pending (s : State) (r : Nat) : (clearDarkFence s r).pending = s.pending := by
  grind [clearDarkFence, restoreElement_pending]

@[simp] theorem goDark_pending (s : State) (r : Nat) : (goDark s r).pending = s.pending := by
  unfold goDark
  extract_lets mine running t u v
  have ht : t.pending = s.pending := each_keeps State.pending (fun e s => pending_of_quiet (loseGroup_quiet ..)) _ s
  have hu : u.pending = s.pending := (each_keeps State.pending (fun e s => pending_of_quiet (lodgeGroup_quiet ..)) _ t).trans ht
  have hv : v.pending = s.pending := (pending_of_boxed (darken_boxed ..)).trans hu
  split
  · rfl
  · split
    · exact pending_of_quiet (noteWait_quiet ..)
    · split
      · exact each_keeps State.pending (fun e s => pending_of_quiet (saveForDark_quiet ..)) _ _
      · rw [clearDarkFence_pending]
        exact (each_keeps State.pending (fun e s => pending_of_quiet (rehome_quiet ..)) _ v).trans hv

@[simp] theorem strikeGroup_quiet (s : State) (h i r : Nat) (lost : Bool) (g : Group) : quiet (strikeGroup s h i r lost g) =
    quiet s := by
  grind [strikeGroup, dropRestore_quiet, rejectStep_quiet, setGroup_quiet, unsave_quiet, each_or quiet, stored, boxed, quiet]

@[simp] theorem unplannedDark_boxed (s : State) (r : Nat) (lost : Bool) : boxed (unplannedDark s r lost) = boxed s := by
  grind [unplannedDark, darken_boxed, detect_quiet, escalate_quiet, onDemands_quiet, setReg_quiet, strikeGroup_quiet,
    writeClove_quiet, each_or boxed, stored, boxed, quiet]

@[simp] theorem poisonRegion_quiet (s : State) (r : Nat) : quiet (poisonRegion s r) = quiet s := by rfl

@[simp] theorem resumeDark_quiet (s : State) (r : Nat) : quiet (resumeDark s r) = quiet s := by
  simp [resumeDark, each_keeps quiet]

@[simp] theorem bringBack_quiet (s : State) (h i r : Nat) (g : Group) : quiet (bringBack s h i r g) = quiet s := by
  grind [bringBack, moveImages_quiet, setGroup_quiet, stored, boxed, quiet]

@[simp] theorem wipeRegion_quiet (s : State) (r : Nat) : quiet (wipeRegion s r) = quiet s := by
  fun_cases wipeRegion
  grind [dropLines_quiet, setReg_quiet, each_or quiet, stored, boxed, quiet]

@[simp] theorem relightRegion_pending (s : State) (r : Nat) (failed : List Element) (badPages : List Nat) (anisePassed : Bool) :
    (relightRegion s r failed badPages anisePassed).pending = s.pending := by
  unfold relightRegion
  extract_lets _ s1 s2 s3 _ s4 s5 s6 _ s7 s8 s9 s10 s11
  have h2 : s2.pending = s.pending := each_keeps State.pending (fun el t => (fenceElement_pending ..).trans (pending_of_quiet (detect_quiet ..))) _ s1
  have h3 : s3.pending = s.pending := by
    rw [← h2]
    unfold s3
    split
    · exact each_keeps State.pending (fun id t => fenceElement_pending ..) _ s2
    · rfl
  have h4 : s4.pending = s.pending := (pending_of_quiet (setReg_quiet ..)).trans h3
  have h5 : s5.pending = s.pending := by
    rw [← h4]
    unfold s5
    split
    · exact pending_of_quiet (wipeRegion_quiet ..)
    · rfl
  have h6 : s6.pending = s.pending := by
    rw [← h5]
    unfold s6
    split
    · exact pending_of_quiet (poisonRegion_quiet ..)
    · rfl
  have h8 : s8.pending = s.pending := (pending_of_quiet ((setShed_quiet ..).trans (bump_quiet ..))).trans h6
  have h9 : s9.pending = s.pending := (pending_of_quiet (setScrub_quiet ..)).trans h8
  have h10 : s10.pending = s.pending := by
    rw [← h9]
    unfold s10
    split
    · exact pending_of_quiet (bump_quiet ..)
    · exact (drain_pending ..).trans (pending_of_quiet ((setSelfTest_quiet ..).trans ((bump_quiet ..).trans (detect_quiet ..))))
  have h11 : s11.pending = s.pending :=
    (each_keeps State.pending (fun e t => pending_of_quiet (bringBack_quiet ..)) _ s10).trans h10
  exact (pending_of_quiet (resumeDark_quiet ..)).trans h11

@[simp] theorem noteSensor_quiet (s : State) (kind unit : Nat) (reading : Int) : quiet (noteSensor s kind unit reading) = quiet
    s := by rfl

@[simp] theorem thermalUp_boxed (s : State) (r kind : Nat) (reading : Int) : boxed (thermalUp s r kind reading) = boxed s := by
  grind [thermalUp, bump_quiet, demand_boxed, noteSensor_quiet, stored, boxed, quiet]

@[simp] theorem release_boxed (s : State) (r kind : Nat) (reading : Int) : boxed (release s r kind reading) = boxed s := by
  fun_cases release <;> grind [demand_boxed, noteSensor_quiet, stored, boxed, quiet]

@[simp] theorem powerStep_boxed (s : State) (r level : Nat) : boxed (powerStep s r level) = boxed s := by
  grind [powerStep, bump_quiet, demand_boxed, stored, boxed, quiet]

@[simp] theorem powerWindow_boxed (s : State) (watts vmv : Nat) (draw : List Nat) : boxed (powerWindow s watts vmv draw) = boxed
    s := by
  grind [powerWindow, powerStep_boxed, stored, boxed]

@[simp] theorem powerRelease_boxed (s : State) : boxed (powerRelease s) = boxed s := by
  fun_cases powerRelease <;> grind [demand_boxed, stored, boxed]

@[simp] theorem overcurrent_boxed (s : State) : boxed (overcurrent s) = boxed s := by
  grind [overcurrent, bump_quiet, demand_boxed, each_or boxed, stored, boxed, quiet]

/-! ## Secure -/

@[simp] theorem countEnvelope_quiet (s : State) (code : Nat) : quiet (countEnvelope s code) = quiet s := by
  unfold countEnvelope; split <;> simp

@[simp] theorem journal_pending (s : State) (kind addr count : Nat) (write : Bool) : (journal s kind addr count write).pending =
    s.pending := by rfl

@[simp] theorem sessionEvent_pending (s : State) (kind minutes : Nat) : (sessionEvent s kind minutes).pending = s.pending := by rfl

@[simp] theorem openSession_pending (s : State) (full : Bool) (minutes : Nat) : (openSession s full minutes).pending = s.pending
    := by rfl

@[simp] theorem endSession_pending (s : State) : (endSession s).pending = s.pending := by
  unfold endSession; split <;> simp

@[simp] theorem wipeAll_stored (s : State) : stored (wipeAll s) = stored s := by
  unfold wipeAll
  extract_lets powered dark t u ports m
  have ht : stored t = stored s := each_keeps stored (fun r s => by rw [stored_of_quiet (wipeRegion_quiet ..), stored_of_quiet (quiet_mem ..)]) _ _
  have hu : stored u = stored t := each_keeps stored (fun r s => stored_of_quiet (setReg_quiet ..)) _ _
  rw [← ht, ← hu]
  rfl

@[simp] theorem eraseSecrets_pending (s : State) : (eraseSecrets s).pending = s.pending := by rfl

@[simp] theorem blowCount_pending (s : State) (life : LifeCycle) : (blowCount s life).pending = s.pending := by rfl

theorem powerGone_pending (s : State) : (powerGone s).pending = s.pending := rfl

theorem supplyLoss_pending (s : State) : (Sys2Proof.Machine.supplyLoss s).pending = s.pending := by
  unfold Sys2Proof.Machine.supplyLoss
  extract_lets t _ u v
  have ht : t.pending = s.pending := by
    unfold t
    rw [pending_of_quiet (bump_quiet ..), pending_of_quiet (detect_quiet ..)]
  exact (powerGone_pending u).trans ht

/-! ## Supply -/

@[simp] theorem loseReference_quiet (s : State) : quiet (loseReference s) = quiet s := by
  unfold loseReference; split <;> simp

@[simp] theorem holdoverEnds_boxed (s : State) : boxed (holdoverEnds s) = boxed s := by
  grind [holdoverEnds, bump_quiet, demand_boxed, setPort_quiet, each_or boxed, stored, boxed, quiet]

@[simp] theorem referenceBack_boxed (s : State) : boxed (referenceBack s) = boxed s := by
  grind [referenceBack, demand_boxed, setPort_quiet, trayEvent_quiet, each_or boxed, stored, boxed, quiet]

@[simp] theorem changeBand_quiet (s : State) (mv : Nat) : quiet (changeBand s mv) = quiet s := by
  grind [changeBand, bump_quiet, setEnvelope_quiet, trayEvent_quiet, stored, boxed, quiet]

@[simp] theorem supplyGood_quiet (s : State) : quiet (supplyGood s) = quiet s := by
  unfold supplyGood; split <;> simp

@[simp] theorem cutDie_pending (s : State) (die : Nat) : (cutDie s die).pending = s.pending := by
  unfold cutDie
  split
  · rfl
  · extract_lets _ t u v
    have ht : t.pending = s.pending := (pending_of_quiet (detect_quiet ..)).trans rfl
    have hu : u.pending = t.pending := each_keeps State.pending (fun p s => fencePort_pending ..) _ _
    have hv : v.pending = u.pending := by
      refine each_keeps State.pending (fun p s => ?_) _ _
      extract_lets _ w
      have hw : w.pending = s.pending := by
        unfold w
        split
        · exact pending_of_quiet (setTier_quiet ..)
        · rfl
      split
      · rw [tierChanged_pending, hw]
      · rw [fenceTier_pending, hw]
    split
    · rw [pending_of_quiet (linkDies_quiet ..), hv, hu, ht]
    · rw [hv, hu, ht]

@[simp] theorem bareAfterTrip_quiet (s : State) : quiet (bareAfterTrip s) = quiet s := by
  simp [bareAfterTrip]

@[simp] theorem thermalTrip_boxed (s : State) (kind index : Nat) : boxed (thermalTrip s kind index) = boxed s := by
  fun_cases thermalTrip <;> grind [bareAfterTrip_quiet, bump_quiet, darken_boxed, detect_quiet, linkDies_quiet, onDemands_quiet,
    setEnvelope_quiet, settleAlert_quiet, strikeGroup_quiet, trayEvent_quiet, writeClove_quiet, each_or boxed, stored, boxed,
    quiet]

/-! ## Health -/

@[simp] theorem controllerBeat_boxed (s : State) (r : Nat) : boxed (controllerBeat s r) = boxed s := by
  grind [controllerBeat, wakeCore_boxed, each_or boxed, stored, boxed]

@[simp] theorem controllerFails_pending (s : State) (r : Nat) : (controllerFails s r).pending = s.pending := by
  grind [controllerFails, detectAt_quiet, fenceElement_pending, quietCores_quiet, each_or State.pending, stored, boxed, quiet]

@[simp] theorem superBeat_quiet (s : State) : quiet (superBeat s) = quiet s := by
  unfold superBeat; split <;> simp

@[simp] theorem sendTelemetry_quiet (s : State) (vmv ma10 watts : Nat) (temps : List Int) : quiet (sendTelemetry s vmv ma10
    watts temps) = quiet s := by
  unfold sendTelemetry; split <;> simp

@[simp] theorem notePage_quiet (s : State) (stack off : Nat) (bad : Bool) : quiet (notePage s stack off bad) = quiet s := by rfl

@[simp] theorem patrolPass_quiet (s : State) (stack : Nat) (corrected uncorrectable : List Nat) : quiet (patrolPass s stack
    corrected uncorrectable) = quiet s := by
  grind [patrolPass, bump_quiet, notePage_quiet, setReg_quiet, setScrub_quiet, wordsLost_quiet, each_or quiet, stored, boxed,
    quiet]

@[simp] theorem patrolWindow_quiet (s : State) (r : Nat) : quiet (patrolWindow s r) = quiet s := by
  grind [patrolWindow, setReg_quiet, setScrub_quiet, stored, boxed, quiet]

@[simp] theorem deferAnise_quiet (s : State) : quiet (deferAnise s) = quiet s := by rfl

@[simp] theorem saveForPass_quiet (s : State) (h i : Nat) (g : Group) : quiet (saveForPass s h i g) = quiet s := by
  grind [saveForPass, beginSave_quiet, dropRestore_quiet, setGroup_quiet, stored, boxed, quiet]

@[simp] theorem aniseDue_quiet (s : State) (r : Nat) : quiet (aniseDue s r) = quiet s := by
  grind [aniseDue, deferAnise_quiet, saveForPass_quiet, each_or quiet, stored, boxed, quiet]

@[simp] theorem leavePass_boxed (s : State) : boxed (leavePass s) = boxed s := by
  fun_cases leavePass
  grind [setGroup_quiet, startRestores_quiet, wakeCore_boxed, each_or boxed, stored, boxed, quiet]

@[simp] theorem aniseEnds_pending (s : State) (r : Nat) (passed : Bool) : (aniseEnds s r passed).pending = s.pending := by
  grind [aniseEnds, bump_quiet, deferAnise_quiet, detect_quiet, drain_pending, leavePass_boxed, setSelfTest_quiet, stored,
    boxed, quiet]

@[simp] theorem flipTwice_quiet (s : State) (c : Nat) : quiet (flipTwice s c) = quiet s := by
  grind [flipTwice, detect_quiet, freeNext_quiet, setReg_quiet, wordsLost_quiet, stored, boxed, quiet]

@[simp] theorem plant_boxed (s : State) (j : Injection) : boxed (plant s j).1 = boxed s := by
  grind [plant, flipTwice_quiet, onSlot_quiet, setEng_boxed, setLink_quiet, stored, boxed, quiet]

@[simp] theorem injectionDue_boxed (s : State) (i : Nat) : boxed (injectionDue s i) = boxed s := by
  grind [injectionDue, bump_quiet, plant_boxed, stored, boxed, quiet]

@[simp] theorem shedTime_quiet (s : State) : quiet (shedTime s) = quiet s := by
  grind [shedTime, bump_quiet, each_or quiet, stored, boxed, quiet]

@[simp] theorem idle_quiet (s : State) : quiet (idle s) = quiet s := by
  simp [idle]

/-! ## Mailbox -/

@[simp] theorem setMb_stored (s : State) (f k : Nat) (m : MbSlot) : stored (setMb s f k m) = stored s := by rfl

@[simp] theorem sendRecord_stored (s : State) (f k : Nat) (r : Running) (code len : Nat) : stored (sendRecord s f k r code len)
    = stored s := by
  grind [sendRecord, bump_quiet, emit_quiet, stored, boxed, quiet]

@[simp] theorem complete_stored (s : State) (f k : Nat) (r : Running) (code : Nat) (resp : List Byte) : stored (complete s f k r
    code resp) = stored s := by
  grind [complete, bump_quiet, raiseMsix_quiet, sendRecord_stored, setMb_stored, stored, boxed, quiet]

@[simp] theorem noteDestroy_quiet (s : State) (r : Running) : quiet (noteDestroy s r) = quiet s := by
  grind [noteDestroy, setSlice_quiet, stored, boxed, quiet]

@[simp] theorem commitSlot_stored (s : State) (f k : Nat) : stored (commitSlot s f k) = stored s := by
  grind [commitSlot, bump_quiet, complete_stored, noteDestroy_quiet, setMb_stored, stored, boxed, quiet]

@[simp] theorem discardBar2_quiet (s : State) (off : Nat) (write : Bool) : quiet (discardBar2 s off write) = quiet s := by
  simp [discardBar2]

@[simp] theorem bar2Write_stored (s : State) (off : Nat) (data : HostBytes) : stored (bar2Write s off data) = stored s := by
  grind [bar2Write, bump_quiet, commitSlot_stored, discardBar2_quiet, setMb_stored, stored, boxed, quiet]

@[simp] theorem setRun_stored (s : State) (f k : Nat) (r : Running) : stored (setRun s f k r) = stored s := by rfl

@[simp] theorem settle_stored (s : State) (f k code : Nat) (resp : List Byte) : stored (settle s f k code resp) = stored s := by
  unfold settle; split <;> simp

@[simp] theorem await_stored (s : State) (f k : Nat) (w : Wait) : stored (await s f k w) = stored s := by
  unfold await; split <;> simp

@[simp] theorem stopCommand_stored (s : State) (f k : Nat) (r : Running) (code : Nat) : stored (stopCommand s f k r code) =
    stored s := by
  simp [stopCommand]

@[simp] theorem interrupt_stored (s : State) (code : Nat) (p : Running → Bool) : stored (interrupt s code p) = stored s := by
  simp [interrupt, each_keeps stored]

@[simp] theorem interruptReset_stored (s : State) (h : Nat) : stored (interruptReset s h) = stored s := by
  simp [interruptReset]

@[simp] theorem interruptDestroy_stored (s : State) (h : Nat) : stored (interruptDestroy s h) = stored s := by
  simp [interruptDestroy]

@[simp] theorem interruptModule_stored (s : State) : stored (interruptModule s) = stored s := by
  simp [interruptModule]

@[simp] theorem timeOut_stored (s : State) (f k : Nat) : stored (timeOut s f k) = stored s := by
  grind [timeOut, stopCommand_stored, stored]

@[simp] theorem completeNow_stored (s : State) (f k : Nat) : stored (completeNow s f k) = stored s := by
  grind [completeNow, complete_stored, stored]

@[simp] theorem bar2Read_quiet (s : State) (off length : Nat) : quiet (bar2Read s off length) = quiet s := by
  unfold bar2Read; split <;> simp

end Sys2Proof.Machine
end

section
/-! What the operations of the model keep: Resets, Boot, Commands. -/

namespace Sys2Proof.Machine

/-! ## Resets -/

@[simp] theorem regroup_quiet (s : State) (h : Nat) : quiet (regroup s h) = quiet s := by
  unfold regroup; split <;> simp

@[simp] theorem engineRelease_boxed (s : State) (c k : Nat) : boxed (engineRelease s c k) = boxed s := by
  grind [engineRelease, setEng_boxed, takeReplay_boxed, each_or boxed, stored, boxed]

@[simp] theorem releaseCopies_quiet (s : State) (unit : Unit) : quiet (releaseCopies s unit) = quiet s := by
  simp [releaseCopies, each_keeps quiet]

@[simp] theorem stopCopies_quiet (s : State) (unit : Unit) (c k : Nat) : quiet (stopCopies s unit c k) = quiet s := by
  simp [stopCopies]

@[simp] theorem stopStreams_quiet (s : State) (c k : Nat) : quiet (stopStreams s c k) = quiet s := by
  simp [stopStreams, each_keeps quiet]

@[simp] theorem dropWaits_quiet (s : State) (c k : Nat) : quiet (dropWaits s c k) = quiet s := by
  simp [dropWaits]

@[simp] theorem freeAreas_quiet (s : State) (c k : Nat) : quiet (freeAreas s c k) = quiet s := by
  grind [freeAreas, setArea_quiet, tellContributors_quiet, each_or quiet, stored, boxed, quiet]

@[simp] theorem countReset_quiet (s : State) (c k : Nat) (v : Slot) : quiet (countReset s c k v) = quiet s := by rfl

@[simp] theorem resetOne_boxed (s : State) (c k : Nat) : boxed (resetOne s c k) = boxed s := by
  fun_cases resetOne
  grind [closeEnds_quiet, countReset_quiet, dropWaits_quiet, dropWindow_quiet, engineRelease_boxed, forgetSyncs_quiet, freeAreas_quiet, onSlot_quiet, setCore_quiet, setHub_quiet, settleCore_quiet, stopCopies_quiet, stopStreams_quiet, stored, boxed, quiet]

@[simp] theorem breakSave_quiet (s : State) (h i : Nat) (g : Group) (cores : List Nat) : quiet (breakSave s h i g cores) = quiet
    s := by
  grind [breakSave, dropRestore_quiet, failImages_quiet, setGroup_quiet, unpark_quiet, unsave_quiet, stored, boxed, quiet]

@[simp] theorem resetSlot_boxed (s : State) (c k : Nat) : boxed (resetSlot s c k) = boxed s := by
  grind [resetSlot, breakSave_quiet, bump_quiet, regroup_quiet, resetOne_boxed, each_or boxed, stored, boxed, quiet]

@[simp] theorem resetSaved_quiet (s : State) (h i c k : Nat) : quiet (resetSaved s h i c k) = quiet s := by
  unfold resetSaved; split <;> simp

@[simp] theorem onReset_quiet (s : State) (id : Nat) (f : Reset → Reset) : quiet (onReset s id f) = quiet s := by rfl

@[simp] theorem endReset_quiet (s : State) (id : Nat) : quiet (endReset s id) = quiet s := by rfl

@[simp] theorem noteWord_quiet (s : State) (r index : Nat) : quiet (noteWord s r index) = quiet s := by
  unfold noteWord; split <;> simp

@[simp] theorem beginReset_quiet (s : State) (x : Reset) : quiet (beginReset s x) = quiet s := by
  unfold beginReset; split <;> simp [each_keeps quiet]

@[simp] theorem supersede_stored (s : State) (id : Nat) (p : Reset → Bool) : stored (supersede s id p) = stored s := by
  unfold supersede
  extract_lets gone t
  have ht : stored t = stored s := by
    refine each_keeps stored (fun e s => ?_) _ _
    split
    · split
      · exact setRun_stored ..
      · rfl
    · rfl
  exact ht

@[simp] theorem deferIn_boxed (s : State) (regions : List Nat) : boxed (deferIn s regions) = boxed s := by
  grind [deferIn, deferAnise_quiet, leavePass_boxed, stored, boxed, quiet]

@[simp] theorem contextReset_boxed (s : State) (c k : Nat) : boxed (contextReset s c k) = boxed s := by
  grind [contextReset, beginReset_quiet, deferIn_boxed, onReset_quiet, resetSlot_boxed, stored, boxed, quiet]

@[simp] theorem engineReset_boxed (s : State) (g : Nat) : boxed (engineReset s g) = boxed s := by
  unfold engineReset
  split
  · rfl
  · extract_lets c t hit u v
    have ht : boxed t = boxed s := (deferIn_boxed ..).trans (boxed_of_quiet ((bump_quiet ..).trans (beginReset_quiet ..)))
    have hu : boxed u = boxed t := each_keeps boxed (fun e s => boxed_of_quiet ((noteFault_quiet ..).trans (rejectStep_quiet ..))) _ _
    have hv : boxed v = boxed u := each_keeps boxed (fun e s => resetSlot_boxed ..) _ _
    rw [boxed_of_quiet (onReset_quiet ..), setEng_boxed, boxed_of_quiet (quiet_mem ..), hv, hu, ht]

@[simp] theorem clearRegion_quiet (s : State) (r : Nat) : quiet (clearRegion s r) = quiet s := by
  fun_cases clearRegion
  grind [dropLines_quiet, setReg_quiet, stored, boxed, quiet]

@[simp] theorem dropGroups_quiet (s : State) (h : Nat) : quiet (dropGroups s h) = quiet s := by
  grind [dropGroups, failImages_quiet, setSlice_quiet, each_or quiet, stored, boxed, quiet]

@[simp] theorem clearEngine_boxed (s : State) (g : Nat) : boxed (clearEngine s g) = boxed s := by rfl

@[simp] theorem clearCore_boxed (s : State) (c : Nat) : boxed (clearCore s c) = boxed s := by
  grind [clearCore, clearEngine_boxed, setCore_quiet, each_or boxed, stored, boxed, quiet]

@[simp] theorem clearSlice_boxed (s : State) (h : Nat) : boxed (clearSlice s h) = boxed s := by
  fun_cases clearSlice
  grind [clearCore_boxed, clearRegion_quiet, dropGroups_quiet, resetOne_boxed, setHub_quiet, each_or boxed, stored, boxed, quiet]

@[simp] theorem tellReset_quiet (s : State) (x : Reset) (handle : Nat) : quiet (tellReset s x handle) = quiet s := by rfl

@[simp] theorem partitionReset_stored (s : State) (h : Nat) : stored (partitionReset s h) = stored s := by
  grind [partitionReset, beginReset_quiet, bump_quiet, clearSlice_boxed, deferIn_boxed, endReset_quiet, interruptReset_stored,
    setSlice_quiet, supersede_stored, tellReset_quiet, stored, boxed, quiet]

@[simp] theorem clearWafer_boxed (s : State) : boxed (clearWafer s) = boxed s := by rfl

@[simp] theorem settleRoutes_quiet (s : State) : quiet (settleRoutes s) = quiet s := by
  unfold settleRoutes; split <;> simp

@[simp] theorem rewriteWindow_quiet (s : State) (key : Nat) : quiet (rewriteWindow s key) = quiet s := by
  unfold rewriteWindow
  split
  · rfl
  · extract_lets mine bare
    split
    · next t h => exact (rebuildWindow_quiet _ _ _ _ h).trans rfl
    · rfl

@[simp] theorem repair_quiet (s : State) (structure_ place : Nat) : quiet (repair s structure_ place) = quiet s := by
  unfold repair; split <;> simp [each_keeps quiet]

@[simp] theorem moduleReset_pending (s : State) (failed : List Element) : (moduleReset s failed).pending = s.pending := by
  unfold moduleReset
  split
  · rfl
  · extract_lets _ s1 s2 s3 s4 s5 s6 s7 s8
    have h1 : s1.pending = s.pending := (pending_of_quiet (settleAlert_quiet ..)).trans rfl
    have h2 : s2.pending = s.pending := by
      rw [← h1]
      exact (pending_of_quiet (bump_quiet ..)).trans (pending_of_stored (interruptModule_stored ..))
    have h3 : s3.pending = s.pending := by
      rw [← h2]
      exact (pending_of_stored (supersede_stored ..)).trans (pending_of_quiet (beginReset_quiet ..))
    have h4 : s4.pending = s.pending := (pending_of_boxed (deferIn_boxed ..)).trans h3
    have h5 : s5.pending = s.pending := (each_keeps State.pending (fun h s => pending_of_quiet (dropGroups_quiet ..)) _ s4).trans h4
    have h6 : s6.pending = s.pending := by
      rw [← h5]
      exact (each_keeps State.pending (fun r s => pending_of_quiet (clearRegion_quiet ..)) _ _).trans
        ((pending_of_quiet (settleRoutes_quiet ..)).trans (pending_of_boxed (clearWafer_boxed ..)))
    have h7 : s7.pending = s.pending :=
      (each_keeps State.pending (fun el t => (fenceElement_pending ..).trans (pending_of_quiet (detect_quiet ..))) _ s6).trans h6
    have h8 : s8.pending = s.pending := by
      rw [← h7]
      unfold s8
      split
      · exact pending_of_quiet (repair_quiet ..)
      · rfl
    exact (pending_of_quiet (tellReset_quiet ..)).trans h8

@[simp] theorem leaveReset_quiet (s : State) (h : Nat) (to_ : SliceState) : quiet (leaveReset s h to_) = quiet s := by
  grind [leaveReset, setSlice_quiet, stored, boxed, quiet]

@[simp] theorem injectionOver_quiet (s : State) (x : Reset) : quiet (injectionOver s x) = quiet s := by
  unfold injectionOver; split <;> simp

@[simp] theorem releaseAll_quiet (s : State) (x : Reset) : quiet (releaseAll s x) = quiet s := by
  simp [releaseAll, each_keeps quiet]

@[simp] theorem clearReset_quiet (s : State) (id : Nat) : quiet (clearReset s id) = quiet s := by
  unfold clearReset
  split
  · rfl
  · extract_lets t u v
    have ht : quiet t = quiet s := releaseAll_quiet ..
    have hu : quiet u = quiet s := (injectionOver_quiet ..).trans ((endReset_quiet ..).trans ht)
    have hv : quiet v = quiet u := by
      refine each_keeps quiet (fun h s => ?_) _ u
      split
      · split
        · exact setSlice_quiet ..
        · rfl
      · rfl
    clear_value t u v
    split
    · exact ht
    · split
      · rw [leaveReset_quiet, hu]
      · rw [settleAlert_quiet, quiet_sup, hv, hu]
      · exact hu

@[simp] theorem takeNext_stored (s : State) (x : Reset) (domain target : Nat) : stored (takeNext s x domain target) = stored s
    := by
  grind [takeNext, decideReset_quiet, supersede_stored, stored, boxed, quiet]

@[simp] theorem askCycle_quiet (s : State) (trigger : Nat) : quiet (askCycle s trigger) = quiet s := by
  unfold askCycle; split <;> simp

@[simp] theorem contextStuck_stored (s : State) (x : Reset) (engine : Option Nat) : stored (contextStuck s x engine) = stored s
    := by
  fun_cases contextStuck <;> grind [bump_quiet, endReset_quiet, injectionOver_quiet, takeNext_stored, stored, boxed, quiet]

@[simp] theorem resetTimeout_pending (s : State) (id : Nat) (engine : Option Nat) (router : Bool) : (resetTimeout s id engine
    router).pending = s.pending := by
  fun_cases resetTimeout <;> grind [askCycle_quiet, bump_quiet, contextStuck_stored, endReset_quiet, fenceAny_pending,
    leaveReset_quiet, takeNext_stored, stored, boxed, quiet]

/-! ## Boot -/

@[simp] theorem tellAgeing_quiet (s : State) (kind : Nat) (t : Tab AgeEntry) : quiet (tellAgeing s kind t) = quiet s := by
  simp [tellAgeing, each_keeps quiet]

@[simp] theorem predict_pending (s : State) (n : Nat) (obs : AgeingObs) : (predict s n obs).pending = s.pending := by
  grind [predict, tellAgeing_quiet, stored, boxed, quiet]

@[simp] theorem ageHour_pending (s : State) (obs : AgeingObs) : (ageHour s obs).pending = s.pending := by
  unfold ageHour; split <;> simp

@[simp] theorem settleTestMark_pending (s : State) : (settleTestMark s).pending = s.pending := by
  unfold settleTestMark; split <;> simp

@[simp] theorem beginStart_pending (s : State) : (beginStart s).pending = s.pending := by
  grind [beginStart, bump_quiet, settleTestMark_pending, stored, boxed, quiet]

@[simp] theorem fallBackImage_pending (s : State) : (fallBackImage s).pending = s.pending := by
  simp [fallBackImage]

@[simp] theorem startFails_pending (s : State) (code : Nat) : (startFails s code).pending = s.pending := by
  grind [startFails, bump_quiet, settleAlert_quiet, trayEvent_quiet, stored, boxed, quiet]

@[simp] theorem giveUpStart_pending (s : State) (code : Nat) : (giveUpStart s code).pending = s.pending := by
  unfold giveUpStart; split <;> simp

theorem pickImage_pending (s : State) (obs : StartObs) {t : State} (h : pickImage s obs = some t) : t.pending = s.pending := by
  grind [pickImage, bump_quiet, fallBackImage_pending, stored, boxed, quiet]

@[simp] theorem applyFences_quiet (s : State) : quiet (applyFences s) = quiet s := by
  grind [applyFences, capsChanged_quiet, each_or quiet, stored, boxed, quiet]

@[simp] theorem nameFences_pending (s : State) : (nameFences s).pending = s.pending := by
  grind [nameFences, appendRecord_pending, each_or State.pending]

@[simp] theorem powerUnits_boxed (s : State) : boxed (powerUnits s) = boxed s := by rfl

@[simp] theorem zeroMemories_quiet (s : State) (warm : Bool) : quiet (zeroMemories s warm) = quiet s := by rfl

@[simp] theorem withdrawStack_pending (s : State) (stack : Nat) : (withdrawStack s stack).pending = s.pending := by
  grind [withdrawStack, appendRecord_pending, capsChanged_quiet, stored, boxed, quiet]

@[simp] theorem startTier_quiet (s : State) (port : Nat) (link : Nat × Nat) (devices bad : List Nat) (warm : Bool) : quiet
    (startTier s port link devices bad warm) = quiet s := by rfl

@[simp] theorem startTiers_quiet (s : State) (obs : StartObs) (warm : Bool) : quiet (startTiers s obs warm) = quiet s :=
  each_keeps quiet (fun p s => by rw [tierChanged_quiet, startTier_quiet, setTier_quiet]) _ _

@[simp] theorem testFences_pending (s : State) (l : List Element) (cause : Nat) : (testFences s l cause).pending = s.pending := by
  grind [testFences, detect_quiet, takeOut_pending, each_or State.pending, stored, boxed, quiet]

@[simp] theorem startFences_pending (s : State) (l : List Element) (cause : Nat) : (startFences s l cause).pending = s.pending
    := by
  simp [startFences]

@[simp] theorem marchPages_pending (s : State) (stack : Nat) (bad : List Nat) : (marchPages s stack bad).pending = s.pending := by
  grind [marchPages, bump_quiet, takeOut_pending, withdrawStack_pending, each_or State.pending, stored, boxed, quiet]

@[simp] theorem warmPages_pending (s : State) (bad : List Nat) : (warmPages s bad).pending = s.pending := by
  simp [warmPages, each_keeps State.pending]

@[simp] theorem shutRegion_quiet (s : State) (r : Nat) : quiet (shutRegion s r) = quiet s := by
  simp [shutRegion]

@[simp] theorem holdDark_pending (s : State) (r cause : Nat) : (holdDark s r cause).pending = s.pending := by
  grind [holdDark, appendRecord_pending, shutRegion_quiet, stored, boxed, quiet]

@[simp] theorem holdFenced_quiet (s : State) : quiet (holdFenced s) = quiet s := by
  simp [holdFenced, each_keeps quiet]

@[simp] theorem holdRegions_pending (s : State) (dark : List Nat) : (holdRegions s dark).pending = s.pending := by
  grind [holdRegions, holdDark_pending, each_or State.pending]

@[simp] theorem beginMarch_quiet (s : State) : quiet (beginMarch s) = quiet s := by rfl

@[simp] theorem startUnits_pending (s : State) (obs : StartObs) : (startUnits s obs).pending = s.pending := by
  grind [startUnits, beginMarch_quiet, buildRoutes_quiet, closeRoutes_quiet, giveUpStart_pending, holdFenced_quiet,
    holdRegions_pending, powerUnits_boxed, predict_pending, startFences_pending, startTiers_quiet, warmPages_pending,
    withdrawStack_pending, zeroMemories_quiet, each_or State.pending, stored, boxed, quiet]

@[simp] theorem scrappedStart_pending (s : State) : (scrappedStart s).pending = s.pending := by rfl

@[simp] theorem start_pending (s : State) (obs : StartObs) : (start s obs).pending = s.pending := by
  grind [start, applyFences_quiet, beginStart_pending, nameFences_pending, pickImage_pending, scrappedStart_pending,
    startFails_pending, startUnits_pending, stored, boxed, quiet]

@[simp] theorem marchGoesOn_pending (s : State) (stack : Nat) (bad : List Nat) (corrected : Nat) : (marchGoesOn s stack bad
    corrected).pending = s.pending := by
  grind [marchGoesOn, bump_quiet, marchPages_pending, stored, boxed, quiet]

@[simp] theorem fuseImage_pending (s : State) : (fuseImage s).pending = s.pending := by
  unfold fuseImage; split <;> simp

@[simp] theorem holdShed_quiet (s : State) : quiet (holdShed s) = quiet s := by
  simp [holdShed, each_keeps quiet]

@[simp] theorem setReady_pending (s : State) : (setReady s).pending = s.pending := by
  grind [setReady, hostEvent_quiet, setEnvelope_quiet, setFirmware_quiet, setScrub_quiet, setSelfTest_quiet, stored, boxed,
    quiet]

@[simp] theorem startReady_pending (s : State) : (startReady s).pending = s.pending := by
  grind [startReady, fuseImage_pending, giveUpStart_pending, holdRegions_pending, holdShed_quiet, setReady_pending, stored,
    boxed, quiet]

theorem resetPinLow_pending (s : State) : (resetPinLow s).pending = s.pending := by
  unfold resetPinLow
  split
  · rfl
  · rfl

@[simp] theorem resetPinHigh_quiet (s : State) : quiet (resetPinHigh s) = quiet s := by rfl

@[simp] theorem trayRequest_quiet (s : State) : quiet (trayRequest s) = quiet s := by
  grind [trayRequest, bump_quiet, stored, boxed, quiet]

@[simp] theorem trayStatus_quiet (s : State) (flow : Nat) (valid : Bool) (cap : Nat) : quiet (trayStatus s flow valid cap) =
    quiet s := by
  grind [trayStatus, setEnvelope_quiet, stored, boxed, quiet]

@[simp] theorem trayMissing_quiet (s : State) : quiet (trayMissing s) = quiet s := by
  unfold trayMissing; split <;> simp

@[simp] theorem sampleTest_pending (s : State) (voltageOk clockOk : Bool) (inlet : Int) : (sampleTest s voltageOk clockOk
    inlet).pending = s.pending := by
  grind [sampleTest, bump_quiet, stored, boxed, quiet]

/-! ## Commands -/

@[simp] theorem msixWrite_quiet (s : State) (off : Nat) (b : Byte) : quiet (msixWrite s off b) = quiet s := by
  grind [msixWrite, unmask_quiet, stored, boxed, quiet]

@[simp] theorem hpWrite_stored (s : State) (base off : Nat) (l : List Byte) : stored (hpWrite s base off l) = stored s := by
  fun_cases hpWrite <;> grind [writeErrInfo_quiet, writeEventEn_quiet, writeRing_stored, writeRingCfg_stored, stored, boxed,
    quiet]

@[simp] theorem writeBar0_stored (s : State) (off : Nat) (l : List Byte) : stored (writeBar0 s off l) = stored s := by
  grind [writeBar0, hpWrite_stored, msixWrite_quiet, writeComponent_quiet, each_or stored, stored, boxed, quiet]

@[simp] theorem bar0Write_stored (s : State) (off : Nat) (l : List Byte) : stored (bar0Write s off l) = stored s := by
  unfold bar0Write; split <;> simp

@[simp] theorem registerWrite_stored (s : State) (bar off : Nat) (data : HostBytes) : stored (registerWrite s bar off data) =
    stored s := by
  fun_cases registerWrite <;> grind [bar0Write_stored, bar2Write_stored, openBars_quiet, stored, boxed, quiet]

@[simp] theorem answer_stored (s : State) (f k op : Nat) (g : Running → Nat × List Byte) : stored (answer s f k op g) = stored s
    := by
  unfold answer; split <;> simp

@[simp] theorem applyMask_boxed (s : State) (mask : BitVec 48) : boxed (applyMask s mask) = boxed s := by
  simp [applyMask, each_keeps boxed]

@[simp] theorem countPower_quiet (s : State) (target : Nat) : quiet (countPower s target) = quiet s := by rfl

@[simp] theorem enterRunning_boxed (s : State) (st : PowerState) (mask : BitVec 48) : boxed (enterRunning s st mask) = boxed s
    := by
  grind [enterRunning, applyMask_boxed, countPower_quiet, stored, boxed, quiet]

@[simp] theorem enterM2_boxed (s : State) : boxed (enterM2 s) = boxed s := by
  grind [enterM2, countPower_quiet, darken_boxed, each_or boxed, stored, boxed, quiet]

@[simp] theorem dropPort_quiet (s : State) (p : Nat) : quiet (dropPort s p) = quiet s := by
  simp [dropPort]

@[simp] theorem leavePorts_quiet (s : State) (ports : List Nat) : quiet (leavePorts s ports) = quiet s := by
  simp [leavePorts, each_keeps quiet]

@[simp] theorem darkenPorts_quiet (s : State) (ports : List Nat) : quiet (darkenPorts s ports) = quiet s := by
  simp [darkenPorts, each_keeps quiet]

@[simp] theorem enterM3_boxed (s : State) : boxed (enterM3 s) = boxed s := by
  grind [enterM3, countPower_quiet, darken_boxed, darkenPorts_quiet, tiersDown_quiet, each_or boxed, stored, boxed, quiet]

theorem powerTo_or {β : Type} {P : State → β} (hP : ∀ {s t}, stored s = stored t → P s = P t) (s : State) (f k target : Nat) (legal : Bool) (go : Running → State) :
    P (powerTo s f k target legal go) = P s ∨ ∃ r, P (go r) ≠ P s := by
  by_cases hgo : ∀ r, P (go r) = P s
  · left
    refine act_keeps P (fun r => ?_)
    split
    · rfl
    · split
      · exact hP (settle_stored ..)
      · split
        · exact hP (settle_stored ..)
        · exact hgo r
  · exact .inr (Classical.not_forall.mp hgo)

theorem powerTo_stored {s : State} {f k target : Nat} {legal : Bool} {go : Running → State} (h : ∀ r, stored (go r) = stored s) :
    stored (powerTo s f k target legal go) = stored s :=
  (powerTo_or (P := stored) id s f k target legal go).resolve_right (fun ⟨r, hr⟩ => hr (h r))

@[simp] theorem powerM0_stored (s : State) (f k : Nat) : stored (powerM0 s f k) = stored s := by
  refine powerTo_stored (fun r => ?_)
  split
  · rw [settle_stored, stored_of_boxed (enterRunning_boxed ..)]
  · rw [await_stored]
    split
    · exact (stored_of_quiet (countPower_quiet ..)).trans rfl
    · rfl

@[simp] theorem powerM1_stored (s : State) (f k : Nat) : stored (powerM1 s f k) = stored s :=
  powerTo_stored (fun _ => (settle_stored ..).trans (stored_of_boxed (enterRunning_boxed ..)))

@[simp] theorem powerM2_stored (s : State) (f k : Nat) : stored (powerM2 s f k) = stored s :=
  powerTo_stored (fun _ => (settle_stored ..).trans (stored_of_boxed (enterM2_boxed ..)))

@[simp] theorem beginTest_pending (s : State) : (beginTest s).pending = s.pending := by rfl

@[simp] theorem coverage_quiet (s : State) : quiet (coverage s).2 = quiet s := by rfl

@[simp] theorem testRegions_quiet (failed : List Element) (common : Bool) (x0 : List Nat) (s : State) : quiet (testRegions
    failed common x0 s).2 = quiet s := by
  fun_induction testRegions <;> grind [coverage_quiet, stored, boxed, quiet]

@[simp] theorem endTest_pending (s : State) (failed : List Element) (common : Bool) (vmin : List Nat) : (endTest s failed common
    vmin).pending = s.pending := by
  grind [endTest, bump_quiet, testFences_pending, testRegions_quiet, each_or State.pending, stored, boxed, quiet]

@[simp] theorem noteDown_pending (s : State) : (noteDown s).pending = s.pending := by rfl

@[simp] theorem powerM3_pending (s : State) (f k : Nat) (failed : List Element) (common : Bool) (vmin : List Nat) : (powerM3 s f
    k failed common vmin).pending = s.pending := by
  refine (powerTo_or (P := State.pending) pending_of_stored s f k _ _ _).resolve_right ?_
  rintro ⟨r, hr⟩
  refine hr ?_
  extract_lets leave begin_
  have hleave (t : State) : (leave t).pending = t.pending := by
    unfold leave
    rw [pending_of_stored (settle_stored ..), pending_of_boxed (enterM3_boxed ..), noteDown_pending]
  have hbegin (t : State) : (begin_ t).pending = t.pending := by
    unfold begin_
    extract_lets _ u
    have hu : u.pending = t.pending := (pending_of_quiet (leavePorts_quiet ..)).trans rfl
    split
    · rw [hleave, hu]
    · rw [pending_of_stored (setRun_stored ..), hu]
  clear_value begin_ leave
  split
  · exact hleave s
  · split
    · split
      · exact hleave s
      · rfl
    · split
      · exact hbegin _
      · split
        · rw [pending_of_stored (setRun_stored ..), beginTest_pending]
        · rw [hbegin, endTest_pending]

@[simp] theorem setGather_quiet (s : State) (op : Nat) (g : Option Gather) : quiet (setGather s op g) = quiet s := by rfl

theorem takeChunk_quiet (s : State) (op off : Nat) (l : List Byte) {y0 : Gather} {t : State} (h : takeChunk s op off l = some
    (y0, t)) : quiet t = quiet s := by
  grind [takeChunk, setGather_quiet, stored, boxed, quiet]

theorem takeChunk_pending {s t : State} {op off : Nat} {l : List Byte} {g : Gather} (h : takeChunk s op off l = some (g, t)) :
    t.pending = s.pending :=
  pending_of_quiet (takeChunk_quiet _ _ _ _ h)

@[simp] theorem beginLife_pending (s : State) (target : Nat) : (beginLife s target).pending = s.pending := by
  grind [beginLife, endSession_pending, leavePorts_quiet, stored, boxed, quiet]

@[simp] theorem fuseLife_pending (s : State) (target : Nat) : (fuseLife s target).pending = s.pending := by
  grind [fuseLife, blowCount_pending, darkenPorts_quiet, eraseSecrets_pending, stored, boxed, quiet]

@[simp] theorem advanceLife_pending (s : State) (f k target : Nat) (r : Running) : (advanceLife s f k target r).pending =
    s.pending := by
  unfold advanceLife; split <;> simp

@[simp] theorem finishLife_pending (s : State) (target : Nat) (body : List Byte) : (finishLife s target body).pending =
    s.pending := by
  fun_cases finishLife <;> grind [bump_quiet, enterM3_boxed, onDemands_quiet, settleAlert_quiet, settleHolds_quiet,
    wipeAll_stored, each_or State.pending, stored, boxed, quiet]

@[simp] theorem lifecycle_pending (s : State) (f k op : Nat) : (lifecycle s f k op).pending = s.pending := by
  refine act_keeps State.pending (fun r => ?_)
  extract_lets w target
  split
  · rw [pending_of_stored (settle_stored ..), finishLife_pending]
  · split
    · exact advanceLife_pending ..
    · split
      · exact pending_of_stored (settle_stored ..)
      · split
        · rw [pending_of_stored (settle_stored ..), pending_of_quiet (setGather_quiet ..)]
        · next g t h =>
          have ht : t.pending = s.pending := pending_of_quiet (takeChunk_quiet _ _ _ _ h)
          split
          · rw [pending_of_stored (settle_stored ..), ht]
          · extract_lets code u v
            have hv : v.pending = s.pending := by
              rw [← ht]
              exact pending_of_quiet ((setGather_quiet ..).trans (countEnvelope_quiet ..))
            split
            · rw [pending_of_stored (settle_stored ..), hv]
            · rw [advanceLife_pending, beginLife_pending, hv]

@[simp] theorem debugChallenge_pending (s : State) (f k : Nat) : (debugChallenge s f k).pending = s.pending := by
  grind [debugChallenge, bump_quiet, journal_pending, settle_stored, act_or State.pending, stored, boxed, quiet]

@[simp] theorem consumeChallenge_quiet (s : State) : quiet (consumeChallenge s) = quiet s := by rfl

@[simp] theorem debugToken_pending (s : State) (f k : Nat) : (debugToken s f k).pending = s.pending := by
  refine act_keeps State.pending (fun r => ?_)
  extract_lets w t
  have ht : t.pending = s.pending := by
    unfold t
    split
    · exact pending_of_quiet (consumeChallenge_quiet ..)
    · rfl
  clear_value t
  split
  · rfl
  · split
    · exact pending_of_stored (settle_stored ..)
    · split
      · rw [pending_of_stored (settle_stored ..), pending_of_quiet (setGather_quiet ..), ht]
      · next g u h =>
        have hu : u.pending = s.pending := (takeChunk_pending h).trans ht
        split
        · rw [pending_of_stored (settle_stored ..), hu]
        · extract_lets code v x b
          have hx : x.pending = s.pending := by
            rw [← hu]
            exact pending_of_quiet ((countEnvelope_quiet ..).trans (setGather_quiet ..))
          split
          · rw [pending_of_stored (settle_stored ..), hx]
          · rw [pending_of_stored (settle_stored ..), openSession_pending, hx]

@[simp] theorem debugRelock_pending (s : State) (f k : Nat) : (debugRelock s f k).pending = s.pending := by
  grind [debugRelock, endSession_pending, settle_stored, act_or State.pending, stored]

theorem upload_pending (s : State) (f k op type limit : Nat) {keep_ : Running → Envelope → State → State}
    (h : ∀ r e t, (keep_ r e t).pending = t.pending) : (upload s f k op type limit keep_).pending = s.pending := by
  refine act_keeps State.pending (fun r => ?_)
  extract_lets w
  split
  · rw [pending_of_stored (settle_stored ..), pending_of_quiet (setGather_quiet ..)]
  · next g t ht =>
    have ht : t.pending = s.pending := by
      split at ht
      · exact takeChunk_pending ht
      · cases ht
    split
    · rw [pending_of_stored (settle_stored ..), ht]
    · extract_lets code u
      have hu : u.pending = s.pending := (pending_of_quiet ((countEnvelope_quiet ..).trans (setGather_quiet ..))).trans ht
      split
      · rw [pending_of_stored (settle_stored ..), hu]
      · rw [pending_of_stored (settle_stored ..), h, hu]

@[simp] theorem keepImage_pending (x_ : Running) (e : Envelope) (s : State) : (keepImage x_ e s).pending = s.pending := by rfl

@[simp] theorem keepPack_pending (r : Running) (e : Envelope) (s : State) : (keepPack r e s).pending = s.pending := by rfl

@[simp] theorem activateImage_pending (s : State) (f k : Nat) : (activateImage s f k).pending = s.pending := by
  grind [activateImage, settle_stored, act_or State.pending, stored]

end Sys2Proof.Machine
end

section
/-! What the operations of the model keep: Slices, CtxCmds, MemCmds, FabCmds, HealthCmds, Completion, Debug, Doe. -/

namespace Sys2Proof.Machine

/-! ## Slices -/

@[simp] theorem readyRegion_boxed (s : State) (r : Nat) : boxed (readyRegion s r) = boxed s := by
  grind [readyRegion, closeEnds_quiet, resetOne_boxed, setReg_quiet, each_or boxed, stored, boxed, quiet]

@[simp] theorem createSlice_stored (s : State) (f k : Nat) : stored (createSlice s f k) = stored s := by
  grind [createSlice, bump_quiet, readyRegion_boxed, setRun_stored, setSlice_quiet, settle_stored, each_or stored, act_or
    stored, stored, boxed, quiet]

@[simp] theorem unmapSlice_quiet (s : State) (h : Nat) : quiet (unmapSlice s h) = quiet s := by
  simp [unmapSlice]

@[simp] theorem emptySlice_stored (s : State) (h : Nat) : stored (emptySlice s h) = stored s := by
  unfold emptySlice
  extract_lets t cores u v w
  have ht : stored t = stored s := interruptDestroy_stored ..
  have hu : stored u = stored t := each_keeps stored (fun c s => each_keeps stored (fun k s => by
    split
    · rfl
    · exact stored_of_boxed (resetOne_boxed ..)) _ _) _ _
  have hv : stored v = stored u := by
    unfold v
    split
    · exact stored_of_quiet (setSlice_quiet ..)
    · rfl
  rw [stored_of_quiet (unmapSlice_quiet ..), ← ht, ← hu, ← hv]
  rfl

@[simp] theorem scrubSlice_quiet (s : State) (h : Nat) : quiet (scrubSlice s h) = quiet s := by
  fun_cases scrubSlice <;> grind [bump_quiet, dropLines_quiet, each_or quiet, stored, boxed, quiet]

@[simp] theorem releaseSlice_stored (s : State) (h : Nat) : stored (releaseSlice s h) = stored s := by
  grind [releaseSlice, bump_quiet, stored, boxed, quiet]

@[simp] theorem destroyStep_stored (s : State) (h : Nat) : stored (destroyStep s h) = stored s := by
  grind [destroyStep, emptySlice_stored, releaseSlice_stored, scrubSlice_quiet, setSlice_quiet, stored, boxed, quiet]

@[simp] theorem destroySlice_stored (s : State) (f k : Nat) : stored (destroySlice s f k) = stored s := by
  grind [destroySlice, await_stored, destroyStep_stored, settle_stored, each_or stored, act_or stored, stored]

@[simp] theorem askReset_stored (s : State) (f k domain target : Nat) : stored (askReset s f k domain target) = stored s := by
  grind [askReset, await_stored, decideReset_quiet, stored, boxed, quiet]

@[simp] theorem sliceReset_stored (s : State) (f k : Nat) : stored (sliceReset s f k) = stored s := by
  grind [sliceReset, askReset_stored, act_or stored, stored]

@[simp] theorem escalateReset_stored (s : State) (f k : Nat) : stored (escalateReset s f k) = stored s := by
  grind [escalateReset, askCycle_quiet, askReset_stored, settle_stored, act_or stored, stored, boxed, quiet]

/-! ## CtxCmds -/

@[simp] theorem openRing_quiet (s : State) (c k tab i : Nat) : quiet (openRing s c k tab i) = quiet s := by
  grind [openRing, coreWrite_quiet, setCore_quiet, stored, boxed, quiet]

@[simp] theorem openLanding_quiet (s : State) (c : Nat) (e : Entry) : quiet (openLanding s c e) = quiet s := by
  grind [openLanding, coreWrite_quiet, each_or quiet, stored, boxed, quiet]

@[simp] theorem placeTwin_quiet (s : State) (c k tc : Nat) (e : Entry) : quiet (placeTwin s c k tc e) = quiet s := by rfl

@[simp] theorem openQueues_quiet (s : State) (c k : Nat) : quiet (openQueues s c k) = quiet s := by
  simp [openQueues, each_keeps quiet]

@[simp] theorem joinConf_quiet (s : State) (h config u : Nat) : quiet (joinConf s h config u) = quiet s := by
  unfold joinConf; split <;> simp

@[simp] theorem placeEntry_boxed (s : State) (e : Entry) (twin : Option Nat) : boxed (placeEntry s e twin) = boxed s := by
  fun_cases placeEntry <;> grind [closeEnds_quiet, freeAreas_quiet, joinConf_quiet, openLanding_quiet, openQueues_quiet,
    openRing_quiet, placeTwin_quiet, putFree_quiet, resetOne_boxed, setSlot_quiet, each_or boxed, stored, boxed, quiet]

@[simp] theorem swapIn_boxed (s : State) (g : Group) (c : Nat) : boxed (swapIn s g c) = boxed s := by
  grind [swapIn, fromImage_quiet, setCore_quiet, setEng_boxed, each_or boxed, stored, boxed, quiet]

theorem swapBack_boxed (s before : State) (c : Nat) : boxed (swapBack s before c) = boxed s := by
  unfold swapBack
  extract_lets t u
  have hu : boxed u = boxed t := each_keeps boxed (fun n s => by rw [setEng_boxed]; rfl) _ _
  rw [boxed_of_quiet (setCore_quiet ..), hu]
  rfl

theorem lodge_boxed (s before : State) (h i c : Nat) : boxed (lodge s before h i c) = boxed s := by
  unfold lodge
  split
  · rfl
  · extract_lets t engines g'
    rw [swapBack_boxed, boxed_of_quiet (setGroup_quiet ..)]
    exact boxed_of_quiet (saveWhole_quiet ..)

@[simp] theorem setSaved_quiet (s : State) (h i c k : Nat) (v : Slot) : quiet (setSaved s h i c k v) = quiet s := by
  unfold setSaved; split <;> simp

@[simp] theorem grantInImage_quiet (s : State) (h i c k n gen credits : Nat) : quiet (grantInImage s h i c k n gen credits) =
    quiet s := by
  grind [grantInImage, setSaved_quiet, stored, boxed, quiet]

@[simp] theorem grantSaved_quiet (s : State) (h i c k : Nat) : quiet (grantSaved s h i c k) = quiet s := by
  grind [grantSaved, bump_quiet, grantInImage_quiet, orphanTo_quiet, setSaved_quiet, each_or quiet, stored, boxed, quiet]

@[simp] theorem deferGroup_quiet (s : State) (h c config : Nat) : quiet (deferGroup s h c config).2 = quiet s := by
  grind [deferGroup, setSlice_quiet, stored, boxed, quiet]

@[simp] theorem takeCore_quiet (s : State) (h i c : Nat) : quiet (takeCore s h i c) = quiet s := by
  unfold takeCore; split <;> simp

@[simp] theorem placeDeferred_boxed (s : State) (h : Nat) (e : Entry) (twin : Option Nat) : boxed (placeDeferred s h e twin) =
    boxed s := by
  unfold placeDeferred
  extract_lets p cores t g v v' v''
  have ht : boxed t = boxed s :=
    (each_keeps boxed (fun c t => boxed_of_quiet (takeCore_quiet ..)) _ p.2).trans (boxed_of_quiet (deferGroup_quiet ..))
  have hv : boxed v = boxed s :=
    (placeEntry_boxed ..).trans ((each_keeps boxed (fun c v => swapIn_boxed ..) _ t).trans ht)
  have hv' : boxed v' = boxed s := (each_keeps boxed (fun c v => lodge_boxed ..) _ _).trans hv
  exact (each_keeps boxed (fun c v => boxed_of_quiet (grantSaved_quiet ..)) _ v').trans hv'

@[simp] theorem loadEntry_boxed (s : State) (h : Nat) (e : Entry) : boxed (loadEntry s h e).2 = boxed s := by
  fun_cases loadEntry <;> grind [detect_quiet, placeDeferred_boxed, placeEntry_boxed, regroup_quiet, resetSaved_quiet,
    resetSlot_boxed, setCore_quiet, swapIn_boxed, stored, boxed, quiet]

@[simp] theorem loadEntries_boxed (h : Nat) (x0 : List Entry) (x1 : Nat) (s : State) : boxed (loadEntries h x0 x1 s).2.2 = boxed
    s := by
  fun_induction loadEntries <;> grind [loadEntry_boxed, stored, boxed]

@[simp] theorem loadContexts_stored (s : State) (f k : Nat) : stored (loadContexts s f k) = stored s := by
  grind [loadContexts, loadEntries_boxed, settle_stored, act_or stored, stored, boxed]

@[simp] theorem startLive_quiet (s : State) (h config : Nat) : quiet (startLive s h config) = quiet s := by
  grind [startLive, onSlot_quiet, setConf_quiet, settleCore_quiet, each_or quiet, stored, boxed, quiet]

@[simp] theorem startSaved_quiet (s : State) (h i config : Nat) (g : Group) : quiet (startSaved s h i config g) = quiet s := by
  simp [startSaved]

@[simp] theorem startConf_quiet (s : State) (h config : Nat) : quiet (startConf s h config) = quiet s := by
  grind [startConf, startLive_quiet, startSaved_quiet, watchStall_quiet, stored, boxed, quiet]

@[simp] theorem startContexts_stored (s : State) (f k : Nat) : stored (startContexts s f k) = stored s := by
  grind [startContexts, freeNext_quiet, settle_stored, startConf_quiet, act_or stored, stored, boxed, quiet]

@[simp] theorem stopContexts_stored (s : State) (f k : Nat) : stored (stopContexts s f k) = stored s := by
  grind [stopContexts, setRun_stored, settle_stored, stopAll_quiet, act_or stored, stored, boxed, quiet]

@[simp] theorem saveContexts_stored (s : State) (f k : Nat) : stored (saveContexts s f k) = stored s := by
  grind [saveContexts, beginSave_quiet, setRun_stored, settle_stored, act_or stored, stored, boxed, quiet]

@[simp] theorem restoreContexts_stored (s : State) (f k : Nat) : stored (restoreContexts s f k) = stored s := by
  grind [restoreContexts, setGroup_quiet, setRun_stored, settle_stored, act_or stored, stored, boxed, quiet]

/-! ## MemCmds -/

theorem rebuildAll_quiet (h : Nat) (x0 : List (Nat × List (Nat × Nat × Reg))) (s : State) {t : State} (h : rebuildAll h x0 s =
    some t) : quiet t = quiet s := by
  fun_induction rebuildAll <;> grind [rebuildWindow_quiet, stored, boxed, quiet]

@[simp] theorem settleMaps_stored (s : State) (f k : Nat) (windows : List Nat) (gone : List Leaf) : stored (settleMaps s f k
    windows gone) = stored s := by
  grind [settleMaps, await_stored, dropPages_quiet, retireWindow_quiet, snoopAll_quiet, each_or stored, stored, boxed, quiet]

@[simp] theorem mapPages_stored (s : State) (f k : Nat) : stored (mapPages s f k) = stored s := by
  refine act_keeps stored (fun r => ?_)
  extract_lets m code windows made gone changes
  split
  · exact settle_stored ..
  · split
    · rfl
    · split
      · exact settle_stored ..
      · next t h =>
        rw [settleMaps_stored]
        exact (stored_of_quiet (quiet_xlat ..)).trans (stored_of_quiet (rebuildAll_quiet _ _ _ h))

@[simp] theorem unmapPages_stored (s : State) (f k : Nat) : stored (unmapPages s f k) = stored s := by
  refine act_keeps stored (fun r => ?_)
  extract_lets a length code gone windows changes
  split
  · exact settle_stored ..
  · split
    · rfl
    · split
      · rfl
      · next t h =>
        rw [settleMaps_stored]
        exact (stored_of_quiet (quiet_xlat ..)).trans (stored_of_quiet (rebuildAll_quiet _ _ _ h))

/-- The state a piece of a memory command leaves. -/
def pieceState : Piece → State
  | .done s => s
  | .wait s => s
  | .fail s _ => s

@[simp] theorem pieceAt_quiet (s : State) (a n : Nat) (write : Bool) : quiet (pieceState (pieceAt s a n write).1) = quiet s := by
  grind [pieceAt, snoopAll_quiet, touch_quiet, pieceState, stored, boxed, quiet]

@[simp] theorem farPiece_quiet (s : State) (f k : Nat) (r : Running) (a n : Nat) (write : Bool) (data : List Byte) (pois : List
    Bool) : quiet (pieceState (farPiece s f k r a n write data pois).1) = quiet s := by
  grind [farPiece, addRequest_quiet, sendRow_quiet, pieceState, stored, boxed, quiet]

@[simp] theorem readPiece_quiet (s : State) (f k : Nat) (r : Running) (a n : Nat) : quiet (pieceState (readPiece s f k r a n).1)
    = quiet s := by
  grind [readPiece, farPiece_quiet, pieceAt_quiet, pieceState, stored, boxed, quiet]

@[simp] theorem writePiece_quiet (s : State) (f k : Nat) (r : Running) (a : Nat) (data : List Byte) (pois : List Bool) (whole :
    Bool) : quiet (pieceState (writePiece s f k r a data pois whole)) = quiet s := by
  grind [writePiece, farPiece_quiet, pieceAt_quiet, writePieces_quiet, pieceState, stored, boxed, quiet]

@[simp] theorem fillFrom_quiet (f k : Nat) (r : Running) (a total pattern : Nat) (x0 : Nat) (x1 : Nat) (s : State) : quiet
    (pieceState (fillFrom f k r a total pattern x0 x1 s).2) = quiet s := by
  fun_induction fillFrom <;> grind [writePiece_quiet, pieceState, stored, boxed, quiet]

theorem reportPieces_stored (f k : Nat) (r : Running) (done : Nat) (x : Piece) :
    stored (reportPieces f k r done x) = stored (pieceState x) := by
  cases x <;> simp [reportPieces, pieceState]

@[simp] theorem fillMemory_stored (s : State) (f k : Nat) : stored (fillMemory s f k) = stored s := by
  refine act_keeps stored (fun r => ?_)
  rw [reportPieces_stored]
  exact stored_of_quiet (fillFrom_quiet ..)

@[simp] theorem scrubMemory_stored (s : State) (f k : Nat) : stored (scrubMemory s f k) = stored s := by
  refine act_keeps stored (fun r => ?_)
  dsimp only
  split
  · exact settle_stored ..
  · rw [reportPieces_stored]
    exact stored_of_quiet (fillFrom_quiet ..)

@[simp] theorem askHost_stored (s : State) (f k : Nat) (r : Running) (o : Out) : stored (askHost s f k r o) = stored s := by rfl

@[simp] theorem copyFrom_stored (f k : Nat) (q : CopyReq) (x0 : Nat) (x1 : Running) (s : State) : stored (copyFrom f k q x0 x1
    s) = stored s := by
  fun_induction copyFrom <;> grind [askHost_stored, readPiece_quiet, setRun_stored, settle_stored, writePiece_quiet, pieceState,
    stored, boxed, quiet]

@[simp] theorem copyMemory_stored (s : State) (f k : Nat) : stored (copyMemory s f k) = stored s := by
  grind [copyMemory, copyFrom_stored, act_or stored, stored]

@[simp] theorem hostAnswers_stored (s : State) (f k : Nat) (data : List Byte) (poison : List Nat) : stored (hostAnswers s f k
    data poison) = stored s := by
  grind [hostAnswers, copyFrom_stored, stored]

@[simp] theorem hostTimesOut_stored (s : State) (f k : Nat) : stored (hostTimesOut s f k) = stored s := by
  grind [hostTimesOut, settle_stored, stored]

@[simp] theorem readRange_quiet  (x0 : List (Nat × Nat)) (s : State) : quiet (pieceState (readRange x0 s).1) = quiet s := by
  fun_induction readRange <;> grind [pieceAt_quiet, pieceState, stored, boxed, quiet]

@[simp] theorem readHeader_quiet (s : State) (f k : Nat) (r : Running) (a : Nat) : quiet (pieceState (readHeader s f k r a).1) =
    quiet s := by
  grind [readHeader, farPiece_quiet, readRange_quiet, pieceState, stored, boxed, quiet]

@[simp] theorem digestFrom_quiet (f k : Nat) (r : Running) (first stride : Nat) (x0 : Nat) (x1 : Nat) (s : State) : quiet
    (pieceState (digestFrom f k r first stride x0 x1 s).2.2) = quiet s := by
  fun_induction digestFrom <;> grind [readHeader_quiet, pieceState, stored, boxed, quiet]

@[simp] theorem digestTiles_stored (s : State) (f k : Nat) : stored (digestTiles s f k) = stored s := by
  grind [digestTiles, digestFrom_quiet, setRun_stored, settle_stored, act_or stored, pieceState, stored, boxed, quiet]

@[simp] theorem poisonPiece_quiet (s : State) (f k : Nat) (r : Running) (a n : Nat) : quiet (pieceState (poisonPiece s f k r a
    n).1) = quiet s := by
  grind [poisonPiece, farPiece_quiet, touch_quiet, pieceState, stored, boxed, quiet]

@[simp] theorem poisonedWords_quiet (f k : Nat) (r : Running) (x0 : List (Nat × Nat)) (x1 : Nat) (s : State) : quiet (pieceState
    (poisonedWords f k r x0 x1 s).2.2) = quiet s := by
  fun_induction poisonedWords <;> grind [poisonPiece_quiet, pieceState, stored, boxed, quiet]

@[simp] theorem queryPoison_stored (s : State) (f k : Nat) : stored (queryPoison s f k) = stored s := by
  grind [queryPoison, poisonedWords_quiet, setRun_stored, settle_stored, act_or stored, pieceState, stored, boxed, quiet]

/-! ## FabCmds -/

@[simp] theorem joinPort_quiet (s : State) (j : Joining) : quiet (joinPort s j) = quiet s := by rfl

@[simp] theorem joinAll_quiet  (x0 : List Joining) (s : State) : quiet (joinAll x0 s).2 = quiet s := by
  fun_induction joinAll <;> grind [joinPort_quiet, stored, boxed, quiet]

@[simp] theorem joinFabric_stored (s : State) (f k : Nat) (loopback : List Nat) : stored (joinFabric s f k loopback) = stored s
    := by
  grind [joinFabric, joinAll_quiet, leaveDomain_quiet, setRun_stored, settle_stored, act_or stored, stored, boxed, quiet]

@[simp] theorem leaveFabric_stored (s : State) (f k : Nat) : stored (leaveFabric s f k) = stored s := by
  grind [leaveFabric, await_stored, leavePorts_quiet, settle_stored, act_or stored, stored, boxed, quiet]

@[simp] theorem portMembers_stored (s : State) (f k : Nat) (replace : Bool) : stored (portMembers s f k replace) = stored s := by
  grind [portMembers, await_stored, setPort_quiet, settle_stored, act_or stored, stored, boxed, quiet]

@[simp] theorem setRouteTab_quiet (s : State) (f h : Nat) (t : RouteTab) : quiet (setRouteTab s f h t) = quiet s := by
  grind [setRouteTab, setSlice_quiet, stored, boxed, quiet]

@[simp] theorem findAgain_quiet (s : State) (old new : RouteTab) : quiet (findAgain s old new) = quiet s := by rfl

@[simp] theorem setRoutes_stored (s : State) (f k : Nat) : stored (setRoutes s f k) = stored s := by
  grind [setRoutes, await_stored, findAgain_quiet, resumeFenced_quiet, setRouteTab_quiet, settle_stored, act_or stored, stored,
    boxed, quiet]

@[simp] theorem afterSwap_stored (s : State) (f k : Nat) (r : Running) : stored (afterSwap s f k r) = stored s := by
  grind [afterSwap, setRouteTab_quiet, settle_stored, stored, boxed, quiet]

@[simp] theorem setStage_quiet (s : State) (h n : Nat) : quiet (setStage s h n) = quiet s := by rfl

@[simp] theorem prepareFails_pending (s : State) (h : Nat) : (prepareFails s h).pending = s.pending := by
  grind [prepareFails, detect_quiet, drain_pending, setSelfTest_quiet, stored, boxed, quiet]

@[simp] theorem admitPrepare_pending (s : State) (f k : Nat) (passed : Bool) (seconds : Nat) : (admitPrepare s f k passed
    seconds).pending = s.pending := by
  grind [admitPrepare, prepareFails_pending, setSelfTest_quiet, setStage_quiet, settle_stored, act_or State.pending, stored,
    boxed, quiet]

@[simp] theorem admitLoad_stored (s : State) (f k : Nat) : stored (admitLoad s f k) = stored s := by
  grind [admitLoad, admitSend_quiet, await_stored, setAdmit_quiet, settle_stored, stored, boxed, quiet]

@[simp] theorem loadEnds_stored (s : State) (f k : Nat) (r : Running) : stored (loadEnds s f k r) = stored s := by
  grind [loadEnds, setStage_quiet, settle_stored, stored, boxed, quiet]

@[simp] theorem admitCommit_stored (s : State) (f k : Nat) : stored (admitCommit s f k) = stored s := by
  grind [admitCommit, setRun_stored, settle_stored, act_or stored, stored]

@[simp] theorem admitStart_stored (s : State) (f k : Nat) (r : Running) : stored (admitStart s f k r) = stored s := by
  grind [admitStart, setStage_quiet, settle_stored, startConf_quiet, stored, boxed, quiet]

@[simp] theorem pollBarrier_stored (s : State) (f k : Nat) (status phase : Nat) : stored (pollBarrier s f k status phase) =
    stored s := by
  grind [pollBarrier, admitStart_stored, setRun_stored, settle_stored, stored]

/-! ## HealthCmds -/

@[simp] theorem releaseTwins_boxed (s : State) (h : Nat) : boxed (releaseTwins s h) = boxed s := by
  grind [releaseTwins, onGroups_quiet, onSlot_quiet, regroup_quiet, resetOne_boxed, each_or boxed, stored, boxed, quiet]

@[simp] theorem setMode_boxed (s : State) (h mode : Nat) : boxed (setMode s h mode) = boxed s := by
  grind [setMode, releaseTwins_boxed, setSlice_quiet, stored, boxed, quiet]

@[simp] theorem checkMode_stored (s : State) (f k : Nat) : stored (checkMode s f k) = stored s := by
  grind [checkMode, setMode_boxed, settle_stored, act_or stored, stored, boxed]

@[simp] theorem healPolicy_stored (s : State) (f k : Nat) : stored (healPolicy s f k) = stored s := by
  grind [healPolicy, setSlice_quiet, settle_stored, act_or stored, stored, boxed, quiet]

@[simp] theorem noteHostFence_pending (s : State) (el : Element) : (noteHostFence s el).pending = s.pending := by
  unfold noteHostFence; split <;> simp

@[simp] theorem fenceByHost_pending (s : State) (f k : Nat) : (fenceByHost s f k).pending = s.pending := by
  grind [fenceByHost, fenceAny_pending, noteHostFence_pending, settle_stored, act_or State.pending, stored]

@[simp] theorem clearTier_pending (s : State) (port : Nat) (link : Option (Nat × Nat)) (devices : List Nat) : (clearTier s port
    link devices).pending = s.pending := by
  unfold clearTier
  split
  · rfl
  · extract_lets t _ u up v
    have ht : t.pending = s.pending := backInService_pending ..
    have hu : u.pending = s.pending := (pending_of_quiet (setTier_quiet ..)).trans ht
    have hv : v.pending = s.pending := (pending_of_quiet (startTier_quiet ..)).trans hu
    rw [tierChanged_pending]
    split
    · exact hv
    · rw [tierFails_pending, hv]

@[simp] theorem applyRecord_pending (s : State) (d : DefectRec) : (applyRecord s d).pending = s.pending := by
  unfold applyRecord
  extract_lets el t _ u
  have ht : t.pending = s.pending := addRecord_pending ..
  split
  · rw [fenceAny_pending, noteHostFence_pending, ht]
  · split
    · rw [tierChanged_pending, pending_of_quiet (setTier_quiet ..)]
      exact (backInService_pending ..).trans ht
    · rw [backInService_pending, ht]

@[simp] theorem applyUpdate_pending (s : State) (body : List Byte) : (applyUpdate s body).pending = s.pending := by
  simp [applyUpdate, each_keeps State.pending]

@[simp] theorem clearByHost_pending (s : State) (f k : Nat) (link : Option (Nat × Nat)) (devices : List Nat) : (clearByHost s f
    k link devices).pending = s.pending := by
  refine act_keeps State.pending (fun r => ?_)
  extract_lets w _ chunk
  split
  · rfl
  · split
    · rw [pending_of_stored (settle_stored ..), clearTier_pending]
    · split
      · exact pending_of_stored (settle_stored ..)
      · split
        · rw [pending_of_stored (settle_stored ..), pending_of_quiet (setGather_quiet ..)]
        · next g u h =>
          have hu : u.pending = s.pending := takeChunk_pending h
          split
          · rw [pending_of_stored (settle_stored ..), hu]
          · extract_lets code v
            have hv : v.pending = s.pending := (pending_of_quiet ((countEnvelope_quiet ..).trans (setGather_quiet ..))).trans hu
            split
            · rw [pending_of_stored (settle_stored ..), pending_of_quiet (bump_quiet ..), hv]
            · rw [pending_of_stored (settle_stored ..), pending_of_quiet (bump_quiet ..), applyUpdate_pending, hv]

@[simp] theorem planInjections_stored (s : State) (f k : Nat) : stored (planInjections s f k) = stored s := by
  grind [planInjections, settle_stored, act_or stored, stored]

/-! ## Completion -/

@[simp] theorem afterStop_stored (s : State) (f k config : Nat) (r : Running) : stored (afterStop s f k config r) = stored s := by
  unfold afterStop; split <;> simp

@[simp] theorem afterSave_stored (s : State) (f k config : Nat) (r : Running) : stored (afterSave s f k config r) = stored s := by
  grind [afterSave, settle_stored, stored]

@[simp] theorem afterRestore_stored (s : State) (f k config : Nat) (r : Running) : stored (afterRestore s f k config r) = stored
    s := by
  grind [afterRestore, settle_stored, stored]

@[simp] theorem afterIdle_stored (s : State) (f k : Nat) (ports : List Nat) (r : Running) : stored (afterIdle s f k ports r) =
    stored s := by
  grind [afterIdle, resumeFenced_quiet, settle_stored, stored, boxed, quiet]

@[simp] theorem afterLeave_stored (s : State) (f k : Nat) (ports : List Nat) : stored (afterLeave s f k ports) = stored s := by
  grind [afterLeave, darkenPorts_quiet, settle_stored, stored, boxed, quiet]

@[simp] theorem afterReset_stored (s : State) (f k id : Nat) (r : Running) : stored (afterReset s f k id r) = stored s := by
  unfold afterReset; split <;> simp

@[simp] theorem afterMaps_stored (s : State) (f k : Nat) (windows ls : List Nat) (gone : List Leaf) : stored (afterMaps s f k
    windows ls gone) = stored s := by
  grind [afterMaps, dropPages_quiet, settle_stored, stored, boxed, quiet]

@[simp] theorem afterPower_stored (s : State) (f k : Nat) : stored (afterPower s f k) = stored s := by
  grind [afterPower, settle_stored, stored]

@[simp] theorem afterDestroy_stored (s : State) (f k h : Nat) : stored (afterDestroy s f k h) = stored s := by
  grind [afterDestroy, destroyStep_stored, settle_stored, stored]

@[simp] theorem finish_stored (s : State) (f k : Nat) (r : Running) : stored (finish s f k r) = stored s := by
  unfold finish; split <;> simp

@[simp] theorem completes_stored (s : State) (f k : Nat) : stored (completes s f k) = stored s := by
  unfold completes; split <;> simp

/-! ## Debug -/

@[simp] theorem probeSeen_quiet (s : State) : quiet (probeSeen s) = quiet s := by rfl

@[simp] theorem sessionOver_pending (s : State) : (sessionOver s).pending = s.pending := by
  fun_cases sessionOver <;> grind [bump_quiet, endSession_pending, stored, boxed, quiet]

@[simp] theorem noteDebugWrite_quiet (s : State) : quiet (noteDebugWrite s) = quiet s := by
  unfold noteDebugWrite; split <;> simp

@[simp] theorem dapBurst_pending (s : State) (write : Bool) (a : Nat) (data : List Byte) (count : Nat) : (dapBurst s write a
    data count).pending = s.pending := by
  grind [dapBurst, emit_quiet, journal_pending, noteDebugWrite_quiet, writeBar0_stored, stored, boxed, quiet]

@[simp] theorem loadTap_quiet (s : State) (code : Nat) : quiet (loadTap s code) = quiet s := by
  grind [loadTap, emit_quiet, noteDebugWrite_quiet, stored, boxed, quiet]

/-! ## Doe -/

@[simp] theorem sendObject_quiet (s : State) (vendor type : Nat) (body : List Byte) : quiet (sendObject s vendor type body) =
    quiet s := by rfl

@[simp] theorem discover_quiet (s : State) (index : Nat) : quiet (discover s index) = quiet s := by
  unfold discover; split <;> simp

@[simp] theorem sendSpdm_quiet (s : State) (msg : List Byte) : quiet (sendSpdm s msg) = quiet s := by rfl

@[simp] theorem spdmError_quiet (s : State) (code : Nat) : quiet (spdmError s code) = quiet s := by rfl

@[simp] theorem setDoe_quiet (s : State) (f : Doe → Doe) : quiet (setDoe s f) = quiet s := by rfl

@[simp] theorem freshNonce_quiet (s : State) : quiet (freshNonce s).2 = quiet s := by
  fun_cases freshNonce
  grind [freeNext_quiet, stored, boxed, quiet]

@[simp] theorem spdmVersion_quiet (s : State) : quiet (spdmVersion s) = quiet s := by rfl

@[simp] theorem spdmCapabilities_quiet (s : State) : quiet (spdmCapabilities s) = quiet s := by
  unfold spdmCapabilities; split <;> simp

@[simp] theorem spdmAlgorithms_quiet (s : State) (asym hash : BitVec 32) : quiet (spdmAlgorithms s asym hash) = quiet s := by
  unfold spdmAlgorithms; split <;> simp

@[simp] theorem spdmDigests_quiet (s : State) : quiet (spdmDigests s) = quiet s := by
  unfold spdmDigests; split <;> simp

@[simp] theorem spdmCertificate_quiet (s : State) (slot offset length : Nat) : quiet (spdmCertificate s slot offset length) =
    quiet s := by
  grind [spdmCertificate, sendSpdm_quiet, setDoe_quiet, spdmError_quiet, stored, boxed, quiet]

@[simp] theorem spdmChallenge_quiet (s : State) (slot : Nat) (nonce : List Byte) : quiet (spdmChallenge s slot nonce) = quiet s
    := by
  grind [spdmChallenge, freshNonce_quiet, sendSpdm_quiet, setDoe_quiet, spdmError_quiet, stored, boxed, quiet]

@[simp] theorem spdmMeasurements_quiet (s : State) (index slot : Nat) (sign : Bool) (nonce : List Byte) : quiet
    (spdmMeasurements s index slot sign nonce) = quiet s := by
  grind [spdmMeasurements, freshNonce_quiet, sendSpdm_quiet, setDoe_quiet, spdmError_quiet, stored, boxed, quiet]

@[simp] theorem cdatAccess_quiet (s : State) (entry : Nat) : quiet (cdatAccess s entry) = quiet s := by
  grind [cdatAccess, sendObject_quiet, stored, boxed, quiet]

@[simp] theorem attest_quiet (s : State) (request : BitVec 64) : quiet (attest s request) = quiet s := by
  grind [attest, sendObject_quiet, stored, boxed, quiet]

end Sys2Proof.Machine
end

section
/-! O5: a step takes the front command and changes nothing else in the queue. -/

namespace Sys2Proof.Machine
open Sys2Proof.Claims

/-- A row that goes on to a state with the queue as it was. -/
def GoesOn (r : Host.Outcome State Fault Refusal) (s : State) : Prop := ∃ t, r = .next t ∧ t.pending = s.pending

theorem goesOn {s t : State} (h : t.pending = s.pending) : GoesOn (.next t) s := ⟨t, rfl, h⟩

theorem goesOn_of_stored {s t : State} (h : stored t = stored s) : GoesOn (.next t) s := goesOn (pending_of_stored h)

theorem goesOn_of_boxed {s t : State} (h : boxed t = boxed s) : GoesOn (.next t) s := goesOn (pending_of_boxed h)

theorem goesOn_of_quiet {s t : State} (h : quiet t = quiet s) : GoesOn (.next t) s := goesOn (pending_of_quiet h)

theorem onUpset_keeps {β : Type} {P : State → β} (hP : ∀ {s t}, quiet s = quiet t → P s = P t) {s : State} {unit : Unit}
    {u : Upset} {halt : State → Option State} {go : State → State} (hhalt : ∀ t, halt s = some t → P t = P s)
    (hgo : ∀ t, P (go t) = P t) : P (onUpset s unit u halt go) = P s := by
  refine (onUpset_or hP s unit u halt go).resolve_right ?_
  rintro (⟨t, ht⟩ | ⟨t, ht, hne⟩)
  · exact ht (hgo t)
  · exact hne (hhalt t ht)

theorem exec_goesOn (c : Instr) (s : State) : GoesOn (exec c s) s := by
  cases c with
  | registerWrite => exact goesOn_of_stored (registerWrite_stored ..)
  | hpEventEnWrite => exact goesOn_of_quiet (writeEventEn_quiet ..)
  | hpErrInfoClear => exact goesOn_of_quiet (writeErrInfo_quiet ..)
  | hpMbRingCfgWrite => exact goesOn_of_stored (writeRingCfg_stored ..)
  | msixUnmask =>
    refine goesOn ?_
    grind [unmask_quiet, stored, boxed, quiet]
  | commandCompletion => exact goesOn_of_stored (completes_stored ..)
  | commandTimeout => exact goesOn_of_stored (timeOut_stored ..)
  | capsRead => exact goesOn_of_stored (answer_stored ..)
  | defectRead => exact goesOn_of_stored (answer_stored ..)
  | fenceQuery => exact goesOn_of_stored (answer_stored ..)
  | ageingRead => exact goesOn_of_stored (answer_stored ..)
  | bistRead => exact goesOn_of_stored (answer_stored ..)
  | powerSetM0 => exact goesOn_of_stored (powerM0_stored ..)
  | powerSetM1 => exact goesOn_of_stored (powerM1_stored ..)
  | powerSetM2 => exact goesOn_of_stored (powerM2_stored ..)
  | powerSetM3 => exact goesOn (powerM3_pending ..)
  | logRead => exact goesOn_of_stored (answer_stored ..)
  | lifecycleAdvance => exact goesOn (lifecycle_pending ..)
  | lifecycleReturn => exact goesOn (lifecycle_pending ..)
  | debugUnlockChallenge => exact goesOn (debugChallenge_pending ..)
  | debugUnlockToken => exact goesOn (debugToken_pending ..)
  | debugUnlockRelock => exact goesOn (debugRelock_pending ..)
  | fwStage => exact goesOn (upload_pending _ _ _ _ _ _ keepImage_pending)
  | fwActivate => exact goesOn (activateImage_pending ..)
  | packInstall => exact goesOn (upload_pending _ _ _ _ _ _ keepPack_pending)
  | sliceCreate => exact goesOn_of_stored (createSlice_stored ..)
  | sliceDestroy => exact goesOn_of_stored (destroySlice_stored ..)
  | sliceQuery => exact goesOn_of_stored (answer_stored ..)
  | sliceReset => exact goesOn_of_stored (sliceReset_stored ..)
  | ctxLoad => exact goesOn_of_stored (loadContexts_stored ..)
  | ctxStart => exact goesOn_of_stored (startContexts_stored ..)
  | ctxStop => exact goesOn_of_stored (stopContexts_stored ..)
  | ctxSave => exact goesOn_of_stored (saveContexts_stored ..)
  | ctxRestore => exact goesOn_of_stored (restoreContexts_stored ..)
  | ctxStatus => exact goesOn_of_stored (answer_stored ..)
  | memMap => exact goesOn_of_stored (mapPages_stored ..)
  | memUnmap => exact goesOn_of_stored (unmapPages_stored ..)
  | memFill => exact goesOn_of_stored (fillMemory_stored ..)
  | memCopy => exact goesOn_of_stored (copyMemory_stored ..)
  | memDigest => exact goesOn_of_stored (digestTiles_stored ..)
  | memScrub => exact goesOn_of_stored (scrubMemory_stored ..)
  | memPoisonQuery => exact goesOn_of_stored (queryPoison_stored ..)
  | fabJoin => exact goesOn_of_stored (joinFabric_stored ..)
  | fabLeave => exact goesOn_of_stored (leaveFabric_stored ..)
  | fabMembersRead => exact goesOn_of_stored (portMembers_stored ..)
  | fabMembersReplace => exact goesOn_of_stored (portMembers_stored ..)
  | fabRouteSet => exact goesOn_of_stored (setRoutes_stored ..)
  | checkMode => exact goesOn_of_stored (checkMode_stored ..)
  | fenceSet => exact goesOn (fenceByHost_pending ..)
  | fenceClear => exact goesOn (clearByHost_pending ..)
  | healPolicy => exact goesOn_of_stored (healPolicy_stored ..)
  | injectPlan => exact goesOn_of_stored (planInjections_stored ..)
  | resetEscalate => exact goesOn_of_stored (escalateReset_stored ..)
  | recordRead => exact goesOn_of_stored (answer_stored ..)
  | admitPrepare => exact goesOn (admitPrepare_pending ..)
  | admitLoad => exact goesOn_of_stored (admitLoad_stored ..)
  | admitCommit => exact goesOn_of_stored (admitCommit_stored ..)
  | admitBarrierPoll => exact goesOn_of_stored (pollBarrier_stored ..)
  | mma => exact goesOn_of_boxed (engStep_boxed ..)
  | mmaGc => exact goesOn_of_boxed (engStep_boxed ..)
  | sumac => exact goesOn_of_boxed (engStep_boxed ..)
  | epi => exact goesOn_of_boxed (engStep_boxed ..)
  | loadComplete =>
    refine goesOn ?_
    grind [runLoad_boxed, stored, boxed, quiet]
  | accumulationFinalisation =>
    refine goesOn ?_
    grind [finalise_boxed, stored, boxed, quiet]
  | epilogueOutput =>
    refine goesOn ?_
    grind [epilogueOut_boxed, stored, boxed, quiet]
  | operandCheckVerify =>
    refine goesOn ?_
    grind [verifyCopy_quiet, verifyStream_boxed, stored, boxed, quiet]
  | streamChunkDeliver core slot turn =>
    have hturn := onUpset_keeps (P := boxed) boxed_of_quiet (unit := .stream core slot turn.place) (u := turn.upset)
      (halt := fun t => strmUpset t core slot turn.place) (go := fun t => (pumpStream t core slot turn.place).1)
      (fun t h => boxed_of_quiet (strmUpset_quiet s core slot turn.place h)) (fun t => pumpStream_boxed t core slot turn.place)
    exact goesOn_of_boxed ((boxed_of_quiet ((settleVector_quiet ..).trans (settleCore_quiet ..))).trans hturn)
  | stackCacheFill => exact goesOn_of_quiet (fillReturns_quiet ..)
  | vectorKernel => exact goesOn_of_quiet (vectorRow_quiet ..)
  | expressionProgram => exact goesOn_of_quiet (vectorRow_quiet ..)
  | merge => exact goesOn_of_quiet (mergeRow_quiet ..)
  | copy =>
    refine goesOn ?_
    grind [copyRow_quiet, stored, boxed, quiet]
  | copyHub =>
    refine goesOn ?_
    grind [copyRow_quiet, stored, boxed, quiet]
  | strmBind => exact goesOn_of_boxed (bindRow_boxed ..)
  | strmUnbind => exact goesOn_of_boxed (unbindRow_boxed ..)
  | qSend =>
    refine goesOn ?_
    grind [sendStep_quiet, seqRow_or (P := State.pending) pending_of_quiet, stored, boxed, quiet]
  | qRecv =>
    refine goesOn ?_
    grind [recvStep_quiet, seqRow_or (P := State.pending) pending_of_quiet, stored, boxed, quiet]
  | ctlLoop =>
    refine goesOn ?_
    grind [loopStep_quiet, seqRow_or (P := State.pending) pending_of_quiet, stored, boxed, quiet]
  | ctlJump =>
    refine goesOn ?_
    grind [jumpStep_quiet, seqRow_or (P := State.pending) pending_of_quiet, stored, boxed, quiet]
  | ctlWait =>
    refine goesOn ?_
    grind [waitStep_quiet, seqRow_or (P := State.pending) pending_of_quiet, stored, boxed, quiet]
  | ctlYield =>
    refine goesOn ?_
    grind [yieldStep_quiet, seqRow_or (P := State.pending) pending_of_quiet, stored, boxed, quiet]
  | ctlHalt => exact goesOn_of_quiet (haltRow_quiet ..)
  | msgSend =>
    refine goesOn ?_
    grind [msgSendStep_quiet, seqRow_or (P := State.pending) pending_of_quiet, stored, boxed, quiet]
  | msgRecv =>
    refine goesOn ?_
    grind [msgRecvStep_quiet, seqRow_or (P := State.pending) pending_of_quiet, stored, boxed, quiet]
  | syncOpRead => exact goesOn_of_quiet (syncRow_quiet ..)
  | syncOpInit => exact goesOn_of_quiet (syncRow_quiet ..)
  | syncOpAdd => exact goesOn_of_quiet (syncRow_quiet ..)
  | syncOpCas => exact goesOn_of_quiet (syncRow_quiet ..)
  | syncOpPost => exact goesOn_of_quiet (syncRow_quiet ..)
  | syncOpTake => exact goesOn_of_quiet (syncRow_quiet ..)
  | syncOpArrive => exact goesOn_of_quiet (syncRow_quiet ..)
  | syncOpWaitGe => exact goesOn_of_quiet (syncRow_quiet ..)
  | syncOpWaitPhase => exact goesOn_of_quiet (syncRow_quiet ..)
  | syncOpArriveWait => exact goesOn_of_quiet (syncRow_quiet ..)
  | syncOpTakeWait => exact goesOn_of_quiet (syncRow_quiet ..)
  | syncResponse =>
    refine goesOn ?_
    grind [responseArrives_quiet, onMsg_or (P := State.pending) pending_of_quiet, stored, boxed, quiet]
  | syncCancel =>
    refine goesOn ?_
    grind [cancelArrives_quiet, onMsg_or (P := State.pending) pending_of_quiet, stored, boxed, quiet]
  | syncWaitRetry => exact goesOn_of_quiet (retryWait_quiet ..)
  | syncRemoteTimeout => exact goesOn_of_quiet (remoteTimeout_quiet ..)
  | quantumEnd => exact goesOn_of_quiet (quantumOver_quiet ..)
  | routerPacketReceive => exact goesOn_of_quiet (routerStep_quiet ..)
  | readRequest =>
    refine goesOn ?_
    grind [meetErrors_quiet, plainArrival_quiet, stored, boxed, quiet]
  | writePacket => exact goesOn_of_quiet (plainArrival_quiet ..)
  | readResponse => exact goesOn_of_quiet (readArrives_quiet ..)
  | writeAck => exact goesOn_of_quiet (ackArrives_quiet ..)
  | dropResponse => exact goesOn_of_quiet (dropArrives_quiet ..)
  | orderAck => exact goesOn_of_quiet (orderArrives_quiet ..)
  | tokenArrive => exact goesOn_of_quiet (plainArrival_quiet ..)
  | flaggedPacket => exact goesOn_of_quiet (flaggedArrival_quiet ..)
  | flaggedPacketRelease => exact goesOn_of_quiet (flaggedRelease_quiet ..)
  | vc5Packet => exact goesOn_of_quiet (vc5Arrival_quiet ..)
  | reductionPacketLand turn =>
    refine goesOn_of_quiet ?_
    split
    · rfl
    · split
      · next t h =>
        split at h
        · exact landUpset_quiet _ _ _ h
        · cases h
      · exact (landPacket_quiet ..).trans (setArrivals_quiet ..)
  | reductionAccept =>
    refine goesOn ?_
    grind [releaseSent_boxed, each_or State.pending, onMsg_or (P := State.pending) pending_of_quiet, stored, boxed, quiet]
  | reductionReplayRequest =>
    refine goesOn ?_
    grind [noteReplay_boxed, each_or State.pending, onMsg_or (P := State.pending) pending_of_quiet, stored, boxed, quiet]
  | reductionAbort =>
    refine goesOn ?_
    grind [releaseSent_boxed, each_or State.pending, onMsg_or (P := State.pending) pending_of_quiet, stored, boxed, quiet]
  | routeRebuild => exact goesOn_of_quiet (rebuildRoutes_quiet ..)
  | switchOrder => exact goesOn_of_quiet (takeSwitch_quiet ..)
  | routeRetire =>
    refine goesOn ?_
    grind [resumeFenced_quiet, retireRoutes_quiet, stored, boxed, quiet]
  | messageDeliver => exact goesOn_of_quiet (messageDeliver_quiet ..)
  | orphanNotice => exact goesOn_of_quiet (orphanNotice_quiet ..)
  | openGrant => exact goesOn_of_quiet (openGrant_quiet ..)
  | openRequest => exact goesOn_of_quiet (openRequest_quiet ..)
  | creditReturn => exact goesOn_of_quiet (creditReturn_quiet ..)
  | stallBeacon => exact goesOn_of_quiet (stallBeacon_quiet ..)
  | progressBeacon => exact goesOn_of_quiet (progressBeacon_quiet ..)
  | stallWindowEnd => exact goesOn_of_quiet (stallWindowEnd_quiet ..)
  | extendCommand => exact goesOn_of_quiet (extendCommand_quiet ..)
  | twinCheckValue => exact goesOn_of_quiet (twinValue_quiet ..)
  | twinTimeout => exact goesOn (twinRerun_pending ..)
  | watchdogProgressReport => exact goesOn_of_quiet (watchReport_quiet ..)
  | watchdogExpiry => exact goesOn_of_quiet (watchExpiry_quiet ..)
  | signatureCheck => exact goesOn_of_quiet (signatureCheck_quiet ..)
  | translationWalk =>
    refine goesOn ?_
    grind [endWalk_quiet, stored, boxed, quiet]
  | migrationComplete => exact goesOn_of_quiet (endMigration_quiet ..)
  | timeSliceEnd => exact goesOn_of_quiet (endPeriods_quiet ..)
  | saveComplete => exact goesOn_of_boxed (endSave_boxed ..)
  | restoreComplete => exact goesOn_of_boxed (endRestore_boxed ..)
  | contentionWindowEnd => exact goesOn_of_quiet (contentionEnd_quiet ..)
  | entryWindowEnd => exact goesOn_of_quiet (entryEnd_quiet ..)
  | startToleranceExpire => exact goesOn_of_quiet (startSilent_quiet ..)
  | trainCollision => exact goesOn_of_quiet (trainCollides_quiet ..)
  | trainReceive => exact goesOn_of_quiet (trainArrives_quiet ..)
  | trainAssemble => exact goesOn_of_quiet (assemble_quiet ..)
  | retransmitTimeout => exact goesOn_of_quiet (resendLate_quiet ..)
  | pairLost => exact goesOn_of_quiet (losePair_quiet ..)
  | portFence =>
    refine goesOn ?_
    grind [detect_quiet, fencePort_pending, stored, boxed, quiet]
  | loopbackMeasure => exact goesOn_of_quiet (measure_quiet ..)
  | joinSilenceExpire => exact goesOn_of_quiet (joinSilence_quiet ..)
  | ackHoldExpire => exact goesOn_of_quiet (ackHold_quiet ..)
  | e2eAckDue => exact goesOn_of_quiet (e2eDue_quiet ..)
  | hostLinkTrain =>
    refine goesOn ?_
    grind [noteLink_quiet, trainHost_quiet, stored, boxed, quiet]
  | hostLinkDown => exact goesOn_of_quiet (linkDies_quiet ..)
  | functionLevelReset =>
    refine goesOn ?_
    grind [stored, boxed, quiet]
  | cxlReset =>
    refine goesOn ?_
    grind [finishCxlReset_quiet, snoopAll_quiet, stored, boxed, quiet]
  | hotReset => exact goesOn_of_quiet (hotResetPort_quiet ..)
  | hdmDecoderCommit => exact goesOn_of_quiet (commitDecoder_quiet ..)
  | hostMemRead =>
    refine goesOn ?_
    grind [dropCovering_quiet, escalate_quiet, hostRead_quiet, stored, boxed, quiet]
  | hostMemWrite =>
    refine goesOn ?_
    grind [hostStore_quiet, stored, boxed, quiet]
  | birsp => exact goesOn_of_quiet (birspArrives_quiet ..)
  | biTimeout =>
    refine goesOn_of_quiet ?_
    split
    · split
      · exact abandonSnoop_quiet ..
      · rfl
    · rfl
  | h2dSnoop =>
    refine goesOn ?_
    grind [emit_quiet, stored, boxed, quiet]
  | hostRequestTimeout => exact goesOn_of_stored (hostTimesOut_stored ..)
  | doeDiscovery => exact goesOn_of_quiet (discover_quiet ..)
  | spdmGetVersion => exact goesOn_of_quiet (spdmVersion_quiet ..)
  | spdmGetCapabilities => exact goesOn_of_quiet (spdmCapabilities_quiet ..)
  | spdmNegotiateAlgorithms => exact goesOn_of_quiet (spdmAlgorithms_quiet ..)
  | spdmGetDigests => exact goesOn_of_quiet (spdmDigests_quiet ..)
  | spdmGetCertificate => exact goesOn_of_quiet (spdmCertificate_quiet ..)
  | spdmChallenge => exact goesOn_of_quiet (spdmChallenge_quiet ..)
  | spdmGetMeasurements => exact goesOn_of_quiet (spdmMeasurements_quiet ..)
  | cdatTableAccess => exact goesOn_of_quiet (cdatAccess_quiet ..)
  | attestationExtension => exact goesOn_of_quiet (attest_quiet ..)
  | tierLinkDown => exact goesOn (tierLinkDown_pending ..)
  | tierDeviceHotAdd => exact goesOn_of_quiet (hotAdd_quiet ..)
  | tierDeviceRemoval => exact goesOn_of_quiet (removeDevice_quiet ..)
  | tierDeviceFatal =>
    refine goesOn ?_
    grind [tierFails_pending, stored, boxed, quiet]
  | tierRequestTimeout => exact goesOn (requestTimeout_pending ..)
  | controllerHeartbeat => exact goesOn_of_boxed (controllerBeat_boxed ..)
  | heartbeatTimeout => exact goesOn (controllerFails_pending ..)
  | supervisorHeartbeat => exact goesOn_of_quiet (superBeat_quiet ..)
  | telemetry => exact goesOn_of_quiet (sendTelemetry_quiet ..)
  | regulatorExcursion =>
    refine goesOn ?_
    grind [unplannedDark_boxed, stored, boxed, quiet]
  | pllLossOfLock =>
    refine goesOn ?_
    grind [unplannedDark_boxed, stored, boxed, quiet]
  | patrolPassComplete => exact goesOn_of_quiet (patrolPass_quiet ..)
  | patrolWindowEnd => exact goesOn_of_quiet (patrolWindow_quiet ..)
  | anisePassDue => exact goesOn_of_quiet (aniseDue_quiet ..)
  | anisePassComplete => exact goesOn (aniseEnds_pending ..)
  | injectionDue => exact goesOn_of_boxed (injectionDue_boxed ..)
  | fence =>
    refine goesOn ?_
    grind [detourFence_quiet, fenceElement_pending, stored, boxed, quiet]
  | replacement => exact goesOn (replaceGroup_pending ..)
  | thermalStep => exact goesOn_of_boxed (thermalUp_boxed ..)
  | shedRelease => exact goesOn_of_boxed (release_boxed ..)
  | powerWindowEnd => exact goesOn_of_boxed (powerWindow_boxed ..)
  | powerRelease => exact goesOn_of_boxed (powerRelease_boxed ..)
  | overcurrentThrottle => exact goesOn_of_boxed (overcurrent_boxed ..)
  | regionPark =>
    refine goesOn ?_
    grind [settleShed_boxed, stored, boxed, quiet]
  | plannedDark =>
    refine goesOn ?_
    grind [goDark_pending, stored, boxed, quiet]
  | relight =>
    refine goesOn ?_
    grind [relightRegion_pending, stored, boxed, quiet]
  | thermalTrip => exact goesOn_of_boxed (thermalTrip_boxed ..)
  | referenceLoss => exact goesOn_of_quiet (loseReference_quiet ..)
  | referenceHoldoverExpire => exact goesOn_of_boxed (holdoverEnds_boxed ..)
  | referenceReturn => exact goesOn_of_boxed (referenceBack_boxed ..)
  | supplyBandChange => exact goesOn_of_quiet (changeBand_quiet ..)
  | supplyLoss =>
    refine goesOn ?_
    grind [supplyLoss_pending, stored, boxed, quiet]
  | supplyWithinLimits => exact goesOn_of_quiet (supplyGood_quiet ..)
  | contextReset => exact goesOn_of_boxed (contextReset_boxed ..)
  | engineReset => exact goesOn_of_boxed (engineReset_boxed ..)
  | partitionReset => exact goesOn_of_stored (partitionReset_stored ..)
  | moduleComputeReset => exact goesOn (moduleReset_pending ..)
  | resetClear => exact goesOn_of_quiet (clearReset_quiet ..)
  | resetTimeout => exact goesOn (resetTimeout_pending ..)
  | modResetNAssert =>
    refine goesOn ?_
    grind [resetPinLow_pending, stored, boxed, quiet]
  | modResetNRelease => exact goesOn_of_quiet (resetPinHigh_quiet ..)
  | start => exact goesOn (start_pending ..)
  | hbmMarchPauseEnd => exact goesOn (marchGoesOn_pending ..)
  | startReady => exact goesOn (startReady_pending ..)
  | startFailed =>
    refine goesOn ?_
    grind [giveUpStart_pending, stored, boxed, quiet]
  | selfTestSample => exact goesOn (sampleTest_pending ..)
  | ageingHour => exact goesOn (ageHour_pending ..)
  | debugSessionEnd => exact goesOn (sessionOver_pending ..)
  | dapTransfer =>
    refine goesOn ?_
    grind [dapBurst_pending, probeSeen_quiet, stored, boxed, quiet]
  | tapInstruction =>
    refine goesOn ?_
    grind [loadTap_quiet, probeSeen_quiet, stored, boxed, quiet]
  | trayStatus => exact goesOn_of_quiet (trayStatus_quiet ..)
  | trayStatusMissing => exact goesOn_of_quiet (trayMissing_quiet ..)
  | trayReqN => exact goesOn_of_quiet (trayRequest_quiet ..)
  | commit =>
    refine goesOn ?_
    grind [bar2Write_stored, openBars_quiet, stored, boxed, quiet]
  | bar2Discard =>
    refine goesOn ?_
    grind [bar2Read_quiet, openBars_quiet, stored, boxed, quiet]
  | hostRequestCompletion => exact goesOn_of_stored (hostAnswers_stored ..)
  | tierRequestCompletion => exact goesOn_of_quiet (requestDone_quiet ..)
  | ioDieGroupExcursion => exact goesOn (cutDie_pending ..)
  | envelopeEvaluation =>
    refine goesOn ?_
    grind [setEnvelope_quiet, stored, boxed, quiet]
  | firmwareMemoryError =>
    refine goesOn ?_
    grind [escalate_quiet, stored, boxed, quiet]

/-- Settles O5. -/
theorem stepTakesOneCommand : Obligations.StepTakesOneCommand := by
  refine ⟨fun s t h => ?_, fun c s => exec_goesOn c s⟩
  unfold step at h
  split at h
  · next hq =>
    cases h
    rw [pending_of_quiet (idle_quiet s), hq]
    rfl
  · next c rest hq =>
    obtain ⟨u, hu, hpend⟩ := exec_goesOn c { s with pending := rest }
    obtain rfl : u = t := Host.Outcome.next.inj (hu.symm.trans h)
    rw [hpend, hq]
    rfl

end Sys2Proof.Machine
end

section
/-! The commands that change power, life cycle, debug access and firmware. -/

namespace Sys2Proof.Machine
open Sys2Proof.Claims

/-! ## What settling a command leaves -/

theorem settle_shape (s : State) (f k code : Nat) (resp : List Byte) :
    settle s f k code resp = { s with frames := (settle s f k code resp).frames } := by
  unfold settle
  split <;> rfl

@[simp] theorem settle_mem (s : State) (f k code : Nat) (resp : List Byte) : (settle s f k code resp).mem = s.mem := by
  rw [settle_shape]

@[simp] theorem settle_nv (s : State) (f k code : Nat) (resp : List Byte) : (settle s f k code resp).nv = s.nv := by
  rw [settle_shape]

@[simp] theorem settle_fuses (s : State) (f k code : Nat) (resp : List Byte) : (settle s f k code resp).fuses = s.fuses := by
  rw [settle_shape]

@[simp] theorem settle_sup (s : State) (f k code : Nat) (resp : List Byte) : (settle s f k code resp).sup = s.sup := by
  rw [settle_shape]

@[simp] theorem settle_power (s : State) (f k code : Nat) (resp : List Byte) : (settle s f k code resp).power = s.power := by
  rw [settle_shape]

/-- A command that runs in `u` is answered when it settles there. -/
theorem answered_settle {u : State} {f k : Nat} {r : Running} (h : (mbSlot u f k).run = some r) (code : Nat) (resp : List Byte) :
    Answered (settle u f k code resp) f k r code resp := by
  rw [Answered, settle_of_run h, setRun, mbSlot_setMb]

/-- The command that runs where the frames are as before runs still. -/
theorem run_congr {s t : State} {f k : Nat} {r : Running} (ht : t.frames = s.frames) (h : (mbSlot s f k).run = some r) :
    (mbSlot t f k).run = some r := by
  rw [mbSlot_congr ht, h]

theorem mbSlot_setRun (s : State) (f k : Nat) (r : Running) : (mbSlot (setRun s f k r) f k).run = some r := by
  rw [setRun, mbSlot_setMb]

/-! ## power.set, R669 and R865 -/

theorem powerTo_of_due {s : State} {f k target : Nat} {r : Running} (hdue : due s f k 0x0105 = some r)
    (htarget : bitsOf (head8 r) 0 3 = target) (legal : Bool) (go : Running → State) :
    powerTo s f k target legal go = if (target = 2 || target = 3) && !s.slices.isEmpty then settle s f k 0x22 []
      else if !legal then settle s f k 0x26 [] else go r :=
  (act_of_due hdue _).trans (if_neg (not_not_intro htarget))

/-- R669: a power state without compute is refused while a slice exists. -/
theorem powerTo_sliced {s : State} {f k target : Nat} {r : Running} (hdue : due s f k 0x0105 = some r)
    (htarget : bitsOf (head8 r) 0 3 = target) (hdeep : target = 2 ∨ target = 3) (hslices : s.slices ≠ []) (legal : Bool)
    (go : Running → State) : powerTo s f k target legal go = settle s f k 0x22 [] := by
  rw [powerTo_of_due hdue htarget, if_pos]
  simp [hslices, hdeep]

theorem powerTo_unlisted {s : State} {f k target : Nat} {r : Running} (hdue : due s f k 0x0105 = some r)
    (htarget : bitsOf (head8 r) 0 3 = target) (hslices : s.slices = []) (go : Running → State) :
    powerTo s f k target false go = settle s f k 0x26 [] := by
  rw [powerTo_of_due hdue htarget, if_neg (by simp [hslices])]
  rfl

/-- A target that R865 allows from here is gone to, over no slice. -/
theorem powerTo_legal {s : State} {f k target : Nat} {r : Running} (hdue : due s f k 0x0105 = some r)
    (htarget : bitsOf (head8 r) 0 3 = target) (hslices : s.slices = [] ∨ target < 2) {legal : Bool} (hlegal : legal = true)
    (go : Running → State) : powerTo s f k target legal go = go r := by
  rw [hlegal, powerTo_of_due hdue htarget, if_neg]
  · rfl
  · rcases hslices with h | h
    · simp [h]
    · have h2 : target ≠ 2 := by omega
      have h3 : target ≠ 3 := by omega
      simp [h2, h3]

/-- Settles O25. -/
theorem powerSetRefused : Obligations.PowerSetRefused := by
  intro s f k r failed common vmin hdue
  refine ⟨fun htarget hslices => ?_, fun htarget hslices => ?_, fun htarget hslices h0 h1 => ?_⟩
  · exact settles_of_exec (congrArg Host.Outcome.next (powerTo_sliced hdue htarget (.inl rfl) hslices _ _)) (run_of_due hdue)
  · exact settles_of_exec (congrArg Host.Outcome.next (powerTo_sliced hdue htarget (.inr rfl) hslices _ _)) (run_of_due hdue)
  · have hlegal : (decide (s.power.state = .m0) || decide (s.power.state = .m1)) = false := by simp [h0, h1]
    refine settles_of_exec (congrArg Host.Outcome.next (?_ : powerM2 s f k = _)) (run_of_due hdue)
    rw [powerM2, hlegal, powerTo_unlisted hdue htarget hslices]

/-! ## Gathered chunks, R676 -/

theorem look_put_gathers (s : State) (op : Nat) (g : Gather) : gathered_ (setGather s op (some g)) op = g := look_put_same ..

theorem gathered_setGather_none (s : State) (op : Nat) : gathered_ (setGather s op none) op = { bytes := [], challenge := none } :=
  congrArg (Option.getD · _) (look?_cut_same _ _)

/-- A chunk that continues what was gathered. -/
theorem takeChunk_continues {s : State} {op off : Nat} (h : off = (gathered_ s op).bytes.length) (l : List Byte) :
    takeChunk s op off l =
      let g := { gathered_ s op with bytes := (gathered_ s op).bytes ++ l }
      some (g, setGather s op (some g)) :=
  if_neg (not_not_intro h)

theorem takeChunk_gap {s : State} {op off : Nat} (h : off ≠ (gathered_ s op).bytes.length) (l : List Byte) :
    takeChunk s op off l = none :=
  if_pos h

theorem setGather_frames (s : State) (op : Nat) (g : Option Gather) : (setGather s op g).frames = s.frames := rfl

theorem countEnvelope_shape (s : State) (code : Nat) : countEnvelope s code = { s with counts := (countEnvelope s code).counts } := by
  unfold countEnvelope
  split <;> rfl

/-! ## debug.unlock, R672 -/

theorem endSession_shape (s : State) : endSession s = { s with
    nv := (endSession s).nv, sup := (endSession s).sup, counts := (endSession s).counts, outbox := (endSession s).outbox } := by
  unfold endSession
  split <;> rfl

theorem endSession_session (s : State) : (endSession s).sup.session = none := by
  unfold endSession
  split
  · rfl
  · next h => simpa using h

theorem length_fit (l : List Byte) (n : Nat) : (fit l n).length = n := by
  rw [fit, sub]
  simp only [List.length_append, List.length_take, List.length_drop, List.length_replicate]
  omega

theorem debugChallenge_of_due {s : State} {f k : Nat} {r : Running} (hdue : due s f k 0x0203 = some r)
    (hop : bitsOf (head8 r) 0 8 = 0) : debugChallenge s f k = if !(tokenStates s) then settle s f k 0x26 [] else
      let c := fit (Config.challenge s.sup.challengeN) 32
      let t := { s with sup := { s.sup with challenge := some (c, s.clocks.sup), challengeN := s.sup.challengeN + 1 } }
      settle (bump (journal t 3 0 0 false) ctrModChallenges 0 1) f k 0 c :=
  (act_of_due hdue _).trans (if_neg (not_not_intro hop))

theorem debugRelock_of_due {s : State} {f k : Nat} {r : Running} (hdue : due s f k 0x0203 = some r)
    (hop : bitsOf (head8 r) 0 8 = 2) : debugRelock s f k =
      if !(tokenStates s) then settle s f k 0x26 [] else settle (endSession s) f k 0 [] :=
  (act_of_due hdue _).trans (if_neg (not_not_intro hop))

theorem debugToken_unlisted {s : State} {f k : Nat} {r : Running} (hdue : due s f k 0x0203 = some r)
    (hop : bitsOf (head8 r) 0 8 = 1) (hstates : tokenStates s = false) : debugToken s f k = settle s f k 0x26 [] := by
  refine (act_of_due hdue _).trans ((if_neg (not_not_intro hop)).trans (if_pos ?_))
  rw [hstates]
  rfl

/-- The state in which a token gathered whole has been checked, with its code. -/
def tokenTaken (s : State) (g : Gather) (code : Nat) : State :=
  countEnvelope (setGather (setGather (consumeChallenge s) 0x0203 (some g)) 0x0203 none) (if code = 0x23 then 0x23 else 0)

theorem tokenTaken_quiet (s : State) (g : Gather) (code : Nat) : quiet (tokenTaken s g code) = quiet s := by
  rw [tokenTaken, countEnvelope_quiet, setGather_quiet, setGather_quiet, consumeChallenge_quiet]

theorem tokenTaken_challenge (s : State) (g : Gather) (code : Nat) : (tokenTaken s g code).sup.challenge = none := by
  rw [tokenTaken, countEnvelope_shape]
  rfl

theorem tokenTaken_session (s : State) (g : Gather) (code : Nat) : (tokenTaken s g code).sup.session = s.sup.session := by
  rw [tokenTaken, countEnvelope_shape]
  rfl

theorem tokenTaken_clocks (s : State) (g : Gather) (code : Nat) : (tokenTaken s g code).clocks = s.clocks := by
  rw [tokenTaken, countEnvelope_shape]
  rfl

theorem openSession_frames (s : State) (full : Bool) (minutes : Nat) : (openSession s full minutes).frames = s.frames := rfl

theorem openSession_challenge (s : State) (full : Bool) (minutes : Nat) :
    (openSession s full minutes).sup.challenge = s.sup.challenge := rfl

theorem openSession_session (s : State) (full : Bool) (minutes : Nat) :
    (openSession s full minutes).sup.session = some (full, minutes, s.clocks.sup) := rfl

/-- R672: a token that is whole in its first chunk meets the challenge that it consumes. -/
theorem debugToken_whole {s : State} {f k : Nat} {r : Running} (hdue : due s f k 0x0203 = some r)
    (hop : bitsOf (head8 r) 0 8 = 1) (hstates : tokenStates s = true) (hfirst : look? s.sup.gathers 0x0203 = none)
    (hoff : bitsOf (head8 r) 16 32 = 0) (hlast : bitAt (head8 r) 8 = true) :
    let g : Gather := { bytes := r.payload.drop 8, challenge := s.sup.challenge }
    let code := tokenCode s g
    let b := natOf (envelopeOf g.bytes).body
    debugToken s f k = if code ≠ 0 then settle (tokenTaken s g code) f k code []
      else settle (openSession (tokenTaken s g code) (bitAt b 2 || bitAt b 3) (bitsOf b 16 16)) f k 0 [] := by
  intro g code b
  have hempty : (gathered_ s 0x0203).bytes.isEmpty = true := by simp [gathered_, look, hfirst]
  have hgather : gathered_ (consumeChallenge s) 0x0203 = { bytes := [], challenge := s.sup.challenge } := look_put_same ..
  have htake : takeChunk (consumeChallenge s) 0x0203 (bitsOf (head8 r) 16 32) (r.payload.drop 8) =
      some (g, setGather (consumeChallenge s) 0x0203 (some g)) := by
    rw [takeChunk_continues (by rw [hgather, hoff]; rfl), hgather]
    rfl
  refine (act_of_due hdue _).trans ((if_neg (not_not_intro hop)).trans ?_)
  dsimp only
  rw [hstates, if_neg (by simp), if_pos hempty, htake]
  dsimp only
  rw [hlast]
  rfl

/-- Settles O27. -/
theorem debugUnlock : Obligations.DebugUnlock := by
  intro s f k r hdue
  have hrun := run_of_due hdue
  refine ⟨fun hstates hop => ⟨fit (Config.challenge s.sup.challengeN) 32, length_fit .., settles_of_exec
      (congrArg Host.Outcome.next (?_ : debugChallenge s f k = _)) hrun⟩,
    fun hstates hop hfirst hoff hlast => ?_, fun hstates hop => ?_, fun hstates => ⟨fun hop => ?_, fun hop => ?_, fun hop => ?_⟩⟩
  · rw [debugChallenge_of_due hdue hop, hstates]
    rfl
  · intro g b
    have hwhole := debugToken_whole hdue hop hstates hfirst hoff hlast
    dsimp only at hwhole
    have hframes := frames_of_quiet (tokenTaken_quiet s g (tokenCode s g))
    by_cases hcode : tokenCode s g = 0
    · rw [if_neg (not_not_intro hcode)] at hwhole
      refine ⟨_, congrArg Host.Outcome.next hwhole, ?_, ?_, fun _ => ?_, fun h => absurd hcode h⟩
      · rw [settle_sup, openSession_challenge, tokenTaken_challenge]
      · rw [hcode]
        exact answered_settle (run_congr ((openSession_frames ..).trans (tokenTaken_quiet s g _ |> frames_of_quiet)) hrun) ..
      · rw [settle_sup, openSession_session, tokenTaken_clocks]
    · rw [if_pos hcode] at hwhole
      refine ⟨_, congrArg Host.Outcome.next hwhole, ?_, answered_settle (run_congr hframes hrun) .., fun h => absurd h hcode, fun _ => ?_⟩
      · rw [settle_sup, tokenTaken_challenge]
      · rw [settle_sup, tokenTaken_session]
  · have hrelock : debugRelock s f k = settle (endSession s) f k 0 [] := by
      rw [debugRelock_of_due hdue hop, hstates]
      rfl
    refine ⟨_, congrArg Host.Outcome.next hrelock, ?_, answered_settle ?_ _ _, ?_⟩
    · rw [settle_sup, endSession_session]
    · exact run_congr (by rw [endSession_shape]) hrun
    · rw [settle_sup]
      unfold endSession
      split <;> rfl
  · refine settles_of_exec (congrArg Host.Outcome.next (?_ : debugChallenge s f k = _)) hrun
    rw [debugChallenge_of_due hdue hop, hstates]
    rfl
  · exact settles_of_exec (congrArg Host.Outcome.next (debugToken_unlisted hdue hop hstates)) hrun
  · refine settles_of_exec (congrArg Host.Outcome.next (?_ : debugRelock s f k = _)) hrun
    rw [debugRelock_of_due hdue hop, hstates]
    rfl

end Sys2Proof.Machine
end

section
/-! Firmware uploads, R673 and R676. -/

namespace Sys2Proof.Machine
open Sys2Proof.Claims

section
variable {s : State} {f k op type limit : Nat} {r : Running} {keep_ : Running → Envelope → State → State}

/-- The chunk of an upload fits and continues what was gathered. -/
def chunkFits (s : State) (op limit : Nat) (r : Running) : Prop :=
  bitsOf (head8 r) 0 32 + (r.payload.length - 8) ≤ limit ∧ bitsOf (head8 r) 0 32 = (gathered_ s op).bytes.length

/-- What is gathered with the chunk of `r`. -/
def gatheredWith (s : State) (op : Nat) (r : Running) : Gather :=
  { gathered_ s op with bytes := (gathered_ s op).bytes ++ r.payload.drop 8 }

/-- The state in which an upload gathered whole has been checked, with its code. -/
def uploadChecked (s : State) (op : Nat) (r : Running) (code : Nat) : State :=
  countEnvelope (setGather (setGather s op (some (gatheredWith s op r))) op none) code

theorem uploadChecked_quiet (s : State) (op : Nat) (r : Running) (code : Nat) : quiet (uploadChecked s op r code) = quiet s := by
  rw [uploadChecked, countEnvelope_quiet, setGather_quiet, setGather_quiet]

theorem uploadChecked_mem (s : State) (op : Nat) (r : Running) (code : Nat) : (uploadChecked s op r code).mem = s.mem := by
  rw [uploadChecked, countEnvelope_shape]
  rfl

theorem uploadChecked_sup (s : State) (op : Nat) (r : Running) (code : Nat) :
    (uploadChecked s op r code).sup = (setGather (setGather s op (some (gatheredWith s op r))) op none).sup := by
  rw [uploadChecked, countEnvelope_shape]

theorem gathered_congr {s t : State} (h : t.sup = s.sup) (op : Nat) : gathered_ t op = gathered_ s op := by
  rw [gathered_, h, gathered_]

theorem uploadChecked_gathered (s : State) (op : Nat) (r : Running) (code : Nat) :
    (gathered_ (uploadChecked s op r code) op).bytes = [] := by
  rw [gathered_congr (uploadChecked_sup s op r code), gathered_setGather_none]

theorem upload_refused (hdue : due s f k op = some r) (h : ¬chunkFits s op limit r) :
    upload s f k op type limit keep_ = settle (setGather s op none) f k 0x25 [] := by
  refine (act_of_due hdue _).trans ?_
  by_cases hlen : bitsOf (head8 r) 0 32 + (r.payload.length - 8) ≤ limit
  · have hgap : bitsOf (head8 r) 0 32 ≠ (gathered_ s op).bytes.length := fun he => h ⟨hlen, he⟩
    simp only [if_pos hlen, takeChunk_gap hgap]
  · simp only [if_neg hlen]

theorem upload_taken (hdue : due s f k op = some r) (h : chunkFits s op limit r) :
    upload s f k op type limit keep_ =
      if !(bitAt (head8 r) 32) then
        settle (setGather s op (some (gatheredWith s op r))) f k 0 (bytesOf 8 (gatheredWith s op r).bytes.length)
      else
        let code := envelopeCode s type (gatheredWith s op r).bytes
        if code ≠ 0 then settle (uploadChecked s op r code) f k code []
        else settle (keep_ r (envelopeOf (gatheredWith s op r).bytes) (uploadChecked s op r code)) f k 0
          (bytesOf 8 (gatheredWith s op r).bytes.length) := by
  refine (act_of_due hdue _).trans ?_
  simp only [if_pos h.1, takeChunk_continues h.2]
  rfl

/-- R676: what each chunk of an upload does, where what is kept is kept in the non-volatile store alone. -/
theorem upload_outcomes (hdue : due s f k op = some r) {c : Instr} (hexec : exec c s = .next (upload s f k op type limit keep_))
    {keeps : NonVolatile} (hkeep : ∀ t, (keep_ r (envelopeOf (gatheredWith s op r).bytes) t) =
      { t with nv := (keep_ r (envelopeOf (gatheredWith s op r).bytes) t).nv })
    (hnv : ∀ t, t.nv = s.nv → (keep_ r (envelopeOf (gatheredWith s op r).bytes) t).nv = keeps) :
    let b := (gathered_ s op).bytes ++ r.payload.drop 8
    let fits := chunkFits s op limit r
    (¬fits → ∃ u, exec c s = .next u ∧ Answered u f k r 0x25 [] ∧ u.nv = s.nv ∧ (gathered_ u op).bytes = []) ∧
    (fits → bitAt (head8 r) 32 = false → ∃ u, exec c s = .next u ∧ Answered u f k r 0 (bytesOf 8 b.length) ∧
      u.nv = s.nv ∧ (gathered_ u op).bytes = b) ∧
    (fits → bitAt (head8 r) 32 = true → envelopeCode s type b = 0 → ∃ u, exec c s = .next u ∧
      Answered u f k r 0 (bytesOf 8 b.length) ∧ u.nv = keeps ∧ u.fuses = s.fuses ∧
      u.mem = s.mem ∧ (gathered_ u op).bytes = []) ∧
    (fits → bitAt (head8 r) 32 = true → envelopeCode s type b ≠ 0 → ∃ u, exec c s = .next u ∧
      Answered u f k r (envelopeCode s type b) [] ∧ u.nv = s.nv ∧ (gathered_ u op).bytes = []) := by
  have hrun := run_of_due hdue
  refine ⟨fun h => ?_, fun h hmore => ?_, fun h hlast hcode => ?_, fun h hlast hcode => ?_⟩
  · rw [upload_refused hdue h] at hexec
    refine ⟨_, hexec, answered_settle (run_congr (setGather_frames ..) hrun) .., settle_nv .., ?_⟩
    rw [gathered_congr (settle_sup ..), gathered_setGather_none]
  · rw [upload_taken hdue h, hmore, if_pos Bool.not_false] at hexec
    refine ⟨_, hexec, answered_settle (run_congr (setGather_frames ..) hrun) .., settle_nv .., ?_⟩
    rw [gathered_congr (settle_sup ..), look_put_gathers]
    rfl
  · have hcode' : envelopeCode s type (gatheredWith s op r).bytes = 0 := hcode
    rw [upload_taken hdue h, hlast, if_neg (by simp)] at hexec
    dsimp only at hexec
    rw [hcode', if_neg (by simp)] at hexec
    have hq := uploadChecked_quiet s op r 0
    refine ⟨_, hexec, answered_settle (run_congr ?_ hrun) .., ?_, ?_, ?_, ?_⟩
    · rw [hkeep, frames_of_quiet hq]
    · rw [settle_nv, hnv _ (nv_of_quiet hq)]
    · rw [settle_fuses, hkeep, fuses_of_quiet hq]
    · rw [settle_mem, hkeep, uploadChecked_mem]
    · have hsup : (keep_ r (envelopeOf (gatheredWith s op r).bytes) (uploadChecked s op r 0)).sup = (uploadChecked s op r 0).sup := by
        rw [hkeep]
      rw [gathered_congr ((settle_sup ..).trans hsup), uploadChecked_gathered]
  · rw [upload_taken hdue h, hlast, if_neg (by simp)] at hexec
    dsimp only at hexec
    have hcode' : envelopeCode s type (gatheredWith s op r).bytes ≠ 0 := hcode
    rw [if_pos hcode'] at hexec
    have hq := uploadChecked_quiet s op r (envelopeCode s type (gatheredWith s op r).bytes)
    refine ⟨_, hexec, answered_settle (run_congr (frames_of_quiet hq) hrun) .., ?_, ?_⟩
    · rw [settle_nv, nv_of_quiet hq]
    · rw [gathered_congr (settle_sup ..), uploadChecked_gathered]
end

/-- Settles O28. -/
theorem firmwareUploads : Obligations.FirmwareUploads := by
  intro s f k r
  refine ⟨fun hdue => ?_, fun hdue => ?_, fun hdue => ⟨fun im him => ?_, fun hnone => ?_⟩⟩
  · exact upload_outcomes (c := .fwStage f k) (keep_ := keepImage) hdue rfl (fun _ => rfl) (fun t ht => by rw [keepImage, ht]; rfl)
  · exact upload_outcomes (c := .packInstall f k) (keep_ := keepPack) hdue rfl (fun _ => rfl) (fun t ht => by rw [keepPack, ht]; rfl)
  · have hact : activateImage s f k = settle { s with nv := { s.nv with nextImage := some im, staged := none } } f k 0 [] := by
      rw [activateImage, act_of_due hdue, him]
    exact settles_of_exec (congrArg Host.Outcome.next hact) (run_of_due hdue)
  · have hact : activateImage s f k = settle s f k 0x25 [] := by
      rw [activateImage, act_of_due hdue, hnone]
    exact settles_of_exec (congrArg Host.Outcome.next hact) (run_of_due hdue)

end Sys2Proof.Machine
end

section
/-! Further parts of the state that operations leave as they were. -/

namespace Sys2Proof.Machine

@[simp] theorem leaveDomain_sup (s : State) : (leaveDomain s).sup = s.sup := by
  unfold leaveDomain; split <;> simp

@[simp] theorem setJobs_sup (s : State) (unit : Unit) (l : List CopyJob) : (setJobs s unit l).sup = s.sup := by
  unfold setJobs; split <;> simp

@[simp] theorem setStrm_sup (s : State) (c k n : Nat) (t : Stream) : (setStrm s c k n t).sup = s.sup := by rfl

@[simp] theorem writeElems_sup (s : State) (c k n : Nat) : (writeElems s c k n).sup = s.sup := by rfl

@[simp] theorem haltUnit_sup (s : State) (unit : Unit) (tag : Nat) (h : Halt) : (haltUnit s unit tag h).sup = s.sup := by
  fun_cases haltUnit <;> grind [setHub_sup, setJobs_sup, setStrm_sup, writeElems_sup]

@[simp] theorem haltOwners_sup (s : State) (l : List (Unit × Nat × Nat)) : (haltOwners s l).sup = s.sup := by
  grind [haltOwners, haltUnit_sup, each_or State.sup]

@[simp] theorem dropPort_sup (s : State) (p : Nat) : (dropPort s p).sup = s.sup := by
  simp [dropPort]

@[simp] theorem darkenPorts_sup (s : State) (ports : List Nat) : (darkenPorts s ports).sup = s.sup := by
  simp [darkenPorts, each_keeps State.sup]

end Sys2Proof.Machine
end

section
/-! Life-cycle transitions, R677, R841 and R848. -/

namespace Sys2Proof.Machine
open Sys2Proof.Claims

/-! ## Ports that leave -/

theorem portOf_leavePorts (l : List Nat) (s : State) (q : Nat) :
    portOf (leavePorts s l) q = if q ∈ l then { portOf s q with leaving := true } else portOf s q := by
  induction l generalizing s with
  | nil => rfl
  | cons p l ih =>
    refine (ih (setPort s p { portOf s p with leaving := true })).trans ?_
    by_cases hq : q = p
    · subst hq
      rw [portOf_setPort, if_pos List.mem_cons_self]
      split <;> rfl
    · rw [portOf_setPort_ne _ _ hq]
      simp only [List.mem_cons, hq, false_or]

theorem leavePorts_shape (s : State) (l : List Nat) : leavePorts s l = { s with fabric := (leavePorts s l).fabric } := by
  induction l generalizing s with
  | nil => rfl
  | cons p l ih => exact ih _

/-- A port that is told to leave has the same things left to send, and is as joined as before. -/
theorem leavePorts_sends (s : State) (l : List Nat) (q : Nat) :
    (portOf (leavePorts s l) q).joined = (portOf s q).joined ∧ sentAll (portOf (leavePorts s l) q) = sentAll (portOf s q) := by
  rw [portOf_leavePorts]
  split <;> exact ⟨rfl, rfl⟩

theorem joinedPorts_congr {s t : State} (h : ∀ q, (portOf t q).joined = (portOf s q).joined) : joinedPorts t = joinedPorts s := by
  simp [joinedPorts, h]

theorem portsLeft_congr {s t : State} (h : ∀ q, sentAll (portOf t q) = sentAll (portOf s q)) (l : List Nat) :
    portsLeft t l = portsLeft s l := by
  simp [portsLeft, h]

/-! ## The beginning of a transition, and its fuses -/

theorem endSession_mem (s : State) : (endSession s).mem = s.mem := by rw [endSession_shape]

theorem endSession_fuses (s : State) : (endSession s).fuses = s.fuses := by rw [endSession_shape]

theorem endSession_frames (s : State) : (endSession s).frames = s.frames := by rw [endSession_shape]

theorem endSession_fabric (s : State) : (endSession s).fabric = s.fabric := by rw [endSession_shape]

theorem endSession_lifeMove (s : State) : (endSession s).sup.lifeMove = s.sup.lifeMove := by
  unfold endSession
  split <;> rfl

theorem beginLife_session (s : State) (target : Nat) : (beginLife s target).sup.session = none := by
  unfold beginLife
  dsimp only
  split
  · rw [leavePorts_shape, endSession_session]
  · exact endSession_session _

theorem beginLife_lifeMove (s : State) (target : Nat) : (beginLife s target).sup.lifeMove = some target := by
  unfold beginLife
  dsimp only
  split
  · rw [leavePorts_shape, endSession_lifeMove]
  · rw [endSession_lifeMove]

theorem beginLife_mem (s : State) (target : Nat) : (beginLife s target).mem = s.mem := by
  unfold beginLife
  dsimp only
  split
  · rw [leavePorts_shape, endSession_mem]
  · rw [endSession_mem]

theorem beginLife_fuses (s : State) (target : Nat) : (beginLife s target).fuses = s.fuses := by
  unfold beginLife
  dsimp only
  split
  · rw [leavePorts_shape, endSession_fuses]
  · rw [endSession_fuses]

theorem beginLife_frames (s : State) (target : Nat) : (beginLife s target).frames = s.frames := by
  unfold beginLife
  dsimp only
  split
  · rw [leavePorts_shape, endSession_frames]
  · rw [endSession_frames]

/-- R841: no port has more to send, and none has left, when a transition begins. -/
theorem beginLife_sends (s : State) (target q : Nat) :
    (portOf (beginLife s target) q).joined = (portOf s q).joined ∧ sentAll (portOf (beginLife s target) q) = sentAll (portOf s q) := by
  have hport : ∀ l, portOf (endSession { s with sup := { s.sup with lifeMove := some target } }) l = portOf s l := by
    intro l
    rw [portOf, endSession_fabric, portOf]
  unfold beginLife
  dsimp only
  split
  · rw [← hport q]
    exact leavePorts_sends ..
  · rw [hport]
    exact ⟨rfl, rfl⟩

theorem portsLeft_beginLife (s : State) (target : Nat) :
    portsLeft (beginLife s target) (joinedPorts (beginLife s target)) = portsLeft s (joinedPorts s) := by
  rw [joinedPorts_congr (fun q => (beginLife_sends s target q).1), portsLeft_congr (fun q => (beginLife_sends s target q).2)]

/-- R841: the joined ports leave before a module is returned or scrapped. -/
theorem leaving_beginLife {s : State} {target p : Nat} (htarget : target = 3 ∨ target = 4) (hp : p ∈ joinedPorts s) :
    (portOf (beginLife s target) p).leaving = true := by
  have hjoined : p ∈ joinedPorts (endSession { s with sup := { s.sup with lifeMove := some target } }) := by
    rwa [joinedPorts_congr (s := s) (fun q => by rw [portOf, endSession_fabric, portOf])]
  rw [beginLife]
  dsimp only
  rw [if_pos (by simpa using htarget), portOf_leavePorts, if_pos hjoined]

/-- R848: one count bit is blown with the state it reaches. -/
theorem fuseLife_fuses (s : State) (target : Nat) :
    (fuseLife s target).fuses = { s.fuses with life := lifeOf target, lcCount := s.fuses.lcCount + 1 } := by
  have hports : (if target = 3 || target = 4 then darkenPorts s (joinedPorts s) else s).fuses = s.fuses := by
    split
    · exact fuses_of_quiet (darkenPorts_quiet ..)
    · rfl
  unfold fuseLife
  extract_lets t u v _ w
  have hv : v.fuses = { s.fuses with life := lifeOf target, lcCount := s.fuses.lcCount + 1 } := by
    rw [← hports]
    rfl
  rw [← hv]
  unfold w
  split <;> rfl

theorem fuseLife_sup (s : State) (target : Nat) :
    (fuseLife s target).sup.session = s.sup.session ∧ (fuseLife s target).sup.lifeMove = s.sup.lifeMove := by
  have hports : (if target = 3 || target = 4 then darkenPorts s (joinedPorts s) else s).sup = s.sup := by
    split
    · exact darkenPorts_sup ..
    · rfl
  unfold fuseLife
  extract_lets t u v _ w
  have hw : w.sup = v.sup := by
    unfold w
    split <;> rfl
  have hu : u.sup = s.sup := hports
  have hv : v.sup.session = u.sup.session ∧ v.sup.lifeMove = u.sup.lifeMove := ⟨rfl, rfl⟩
  dsimp only
  rw [hw, ← hu]
  exact hv

/-- The transitions without leaving ports change no memory. -/
theorem fuseLife_mem {s : State} {target : Nat} (h3 : target ≠ 3) (h4 : target ≠ 4) : (fuseLife s target).mem = s.mem := by
  unfold fuseLife
  simp only [h3, h4, decide_false, Bool.or_self]
  split <;> rfl

/-! ## The command -/

/-- The gathered authorisation has been checked, with its code. -/
def lifeChecked (s : State) (op : Nat) (g : Gather) (code : Nat) : State :=
  setGather (countEnvelope (setGather s op (some g)) (if code = 0 then 0 else if code = 0x23 then 0x23 else 0)) op none

theorem lifeChecked_quiet (s : State) (op : Nat) (g : Gather) (code : Nat) : quiet (lifeChecked s op g code) = quiet s := by
  rw [lifeChecked, setGather_quiet, countEnvelope_quiet, setGather_quiet]

theorem lifeChecked_shape (s : State) (op : Nat) (g : Gather) (code : Nat) :
    lifeChecked s op g code = { s with sup := (lifeChecked s op g code).sup, counts := (lifeChecked s op g code).counts } := by
  rw [lifeChecked, countEnvelope_shape]
  rfl

theorem lifeChecked_session (s : State) (op : Nat) (g : Gather) (code : Nat) :
    (lifeChecked s op g code).sup.session = s.sup.session := by
  rw [lifeChecked, countEnvelope_shape]
  rfl

section
variable {s : State} {f k op : Nat} {r : Running}

theorem lifecycle_sliced (hdue : due s f k op = some r) (hfirst : r.progress = 0) (hslices : s.slices ≠ []) :
    lifecycle s f k op = settle s f k 0x22 [] := by
  refine (act_of_due hdue _).trans ?_
  dsimp only
  rw [hfirst, if_neg (by decide), if_neg (by decide), if_pos (by simp [hslices])]

/-- R677: the last chunk, without a slice. -/
theorem lifecycle_last (hdue : due s f k op = some r) (hfirst : r.progress = 0) (hslices : s.slices = [])
    (hoff : bitsOf (head8 r) 16 32 = (gathered_ s op).bytes.length) (hlast : bitAt (head8 r) 8 = true) :
    let target := bitsOf (head8 r) 0 3
    let g := gatheredWith s op r
    let code := lifeCode_ s op target g.bytes
    lifecycle s f k op = if code ≠ 0 then settle (lifeChecked s op g code) f k code []
      else advanceLife (beginLife (lifeChecked s op g code) target) f k target { r with resp := (envelopeOf g.bytes).body } := by
  intro target g code
  refine (act_of_due hdue _).trans ?_
  dsimp only
  rw [hfirst, if_neg (by decide), if_neg (by decide), if_neg (by simp [hslices]), takeChunk_continues hoff]
  dsimp only
  rw [hlast, if_neg (by decide)]
  rfl

/-- R677: an accepted authorisation begins its transition. -/
theorem lifecycle_begun (hdue : due s f k op = some r)
    (hlast : r.progress = 0 ∧ s.slices = [] ∧ bitsOf (head8 r) 16 32 = (gathered_ s op).bytes.length ∧ bitAt (head8 r) 8 = true)
    (hcode : lifeCode_ s op (bitsOf (head8 r) 0 3) ((gathered_ s op).bytes ++ r.payload.drop 8) = 0) :
    lifecycle s f k op = advanceLife (beginLife (lifeChecked s op (gatheredWith s op r) 0) (bitsOf (head8 r) 0 3)) f k
      (bitsOf (head8 r) 0 3) { r with resp := (envelopeOf ((gathered_ s op).bytes ++ r.payload.drop 8)).body } := by
  obtain ⟨hfirst, hslices, hoff, hend⟩ := hlast
  have hlife := lifecycle_last hdue hfirst hslices hoff hend
  dsimp only at hlife
  rwa [show lifeCode_ s op (bitsOf (head8 r) 0 3) (gatheredWith s op r).bytes = 0 from hcode, if_neg (by decide)] at hlife

theorem lifecycle_waits (hdue : due s f k op = some r) (h : r.progress = 2) :
    lifecycle s f k op = advanceLife s f k (bitsOf (head8 r) 0 3) r := by
  refine (act_of_due hdue _).trans ?_
  dsimp only
  rw [h, if_neg (by decide), if_pos rfl]

theorem lifecycle_finishes (hdue : due s f k op = some r) (h : r.progress = 1) :
    lifecycle s f k op = settle (finishLife s (bitsOf (head8 r) 0 3) r.resp) f k 0 [] := by
  refine (act_of_due hdue _).trans ?_
  dsimp only
  rw [h, if_pos rfl]
end

/-- R848: with no port left to wait for, a transition is fused at once. -/
theorem advanceLife_fuses {s : State} {f k target : Nat} {r : Running}
    (h : (target ≠ 3 ∧ target ≠ 4) ∨ portsLeft s (joinedPorts s) = true) :
    advanceLife s f k target r = setRun (fuseLife s target) f k { r with progress := 1 } := by
  refine if_neg ?_
  rcases h with ⟨h3, h4⟩ | h
  · simp [h3, h4]
  · simp [h]

theorem advanceLife_waits {s : State} {f k target : Nat} {r : Running} (htarget : target = 3 ∨ target = 4)
    (h : portsLeft s (joinedPorts s) = false) : advanceLife s f k target r = setRun s f k { r with progress := 2 } :=
  if_pos (by simp [htarget, h])

/-- Settles O26. -/
theorem lifeCycleTransitions : Obligations.LifeCycleTransitions := by
  intro s f k op c r hop hdue target l last
  have hexec : exec c s = .next (lifecycle s f k op) := by
    rcases hop with ⟨rfl, rfl⟩ | ⟨rfl, rfl⟩ <;> rfl
  have hrun := run_of_due hdue
  have hports : ∀ code, portsLeft (beginLife (lifeChecked s op (gatheredWith s op r) code) target)
      (joinedPorts (beginLife (lifeChecked s op (gatheredWith s op r) code) target)) = portsLeft s (joinedPorts s) := by
    intro code
    rw [portsLeft_beginLife, lifeChecked_shape]
    rfl
  refine ⟨fun hfirst hslices => ?_, fun hlast hcode => ?_, fun hlast hcode hgo => ?_, fun hlast hcode htarget hwait => ?_,
    fun h => ?_, fun h => ?_⟩
  · exact settles_of_exec (hexec.trans (congrArg Host.Outcome.next (lifecycle_sliced hdue hfirst hslices))) hrun
  · obtain ⟨hfirst, hslices, hoff, hend⟩ := hlast
    have hlife := lifecycle_last hdue hfirst hslices hoff hend
    dsimp only at hlife
    rw [if_pos (show lifeCode_ s op target (gatheredWith s op r).bytes ≠ 0 from hcode)] at hlife
    have hq := lifeChecked_quiet s op (gatheredWith s op r) (lifeCode_ s op target (gatheredWith s op r).bytes)
    refine ⟨_, hexec.trans (congrArg Host.Outcome.next hlife), answered_settle (run_congr (frames_of_quiet hq) hrun) .., ?_, ?_, ?_, ?_⟩
    · rw [settle_fuses, fuses_of_quiet hq]
    · rw [settle_nv, nv_of_quiet hq]
    · rw [settle_mem, lifeChecked_shape]
    · rw [settle_sup, lifeChecked_session]
  · have hbegun := lifecycle_begun hdue hlast hcode
    have hgone : (target ≠ 3 ∧ target ≠ 4) ∨ portsLeft s (joinedPorts s) = true := by
      rcases hgo with h | h | h
      · left; omega
      · left; omega
      · exact .inr h
    rw [advanceLife_fuses (by rwa [hports])] at hbegun
    refine ⟨_, hexec.trans (congrArg Host.Outcome.next hbegun), ?_, ?_, ?_, fun htarget => ⟨?_, mbSlot_setRun ..⟩⟩
    · exact (fuseLife_fuses ..).trans (by rw [beginLife_fuses, lifeChecked_shape])
    · exact (fuseLife_sup ..).1.trans (beginLife_session ..)
    · exact (fuseLife_sup ..).2.trans (beginLife_lifeMove ..)
    · exact (fuseLife_mem (by omega) (by omega)).trans (by rw [beginLife_mem, lifeChecked_shape])
  · have hbegun := lifecycle_begun hdue hlast hcode
    rw [advanceLife_waits htarget (by rw [hports, hwait])] at hbegun
    refine ⟨_, hexec.trans (congrArg Host.Outcome.next hbegun), ?_, ?_, ?_, ?_, fun p hp => ?_, mbSlot_setRun ..⟩
    · exact (beginLife_fuses ..).trans (by rw [lifeChecked_shape])
    · exact beginLife_session ..
    · exact beginLife_lifeMove ..
    · exact (beginLife_mem ..).trans (by rw [lifeChecked_shape])
    · refine leaving_beginLife htarget ?_
      rw [lifeChecked_shape]
      exact hp
  · exact hexec.trans (congrArg Host.Outcome.next (lifecycle_waits hdue h))
  · exact hexec.trans (congrArg Host.Outcome.next (lifecycle_finishes hdue h))

end Sys2Proof.Machine
end

section
namespace Sys2Proof.Machine
/-- What a power state command sets: the state, the mask and the demands. -/
def powerSet (s : State) : PowerState × BitVec 48 × Tab Demands := (s.power.state, s.power.mask, s.power.demands)
end Sys2Proof.Machine
end

section
/-! Further parts of the state that operations leave as they were. -/

namespace Sys2Proof.Machine

@[simp] theorem raiseMsix_power (s : State) (v : Nat) : (raiseMsix s v).power = s.power := by
  grind [raiseMsix, bump_power, emit_power]

@[simp] theorem hostEvent_power (s : State) (bit : Nat) : (hostEvent s bit).power = s.power := by
  grind [hostEvent, raiseMsix_power]

@[simp] theorem detect_power (s : State) (el : Element) (code : Nat) (hard : Bool) (place : Nat) : (detect s el code hard
    place).power = s.power := by rfl

@[simp] theorem injectionSeen_power (s : State) (unit id : Nat) : (injectionSeen s unit id).power = s.power := by rfl

@[simp] theorem detectAt_power (s : State) (el : Element) (cls unit id : Nat) (hard : Bool) : (detectAt s el cls unit id
    hard).power = s.power := by rfl

@[simp] theorem setRingWr_power (s : State) (c : Nat) (v : Slot) (i wr : Nat) (ph : Bool) : (setRingWr s c v i wr ph).power =
    s.power := by rfl

@[simp] theorem writeRecord_power (s : State) (c k r : Nat) : (writeRecord s c k r).power = s.power := by
  unfold writeRecord; split <;> simp

@[simp] theorem reportError_power (s : State) (c k kind cause unit step row col : Nat) (et : Int) (detail : Nat) : (reportError
    s c k kind cause unit step row col et detail).power = s.power := by
  simp [reportError]

@[simp] theorem post_power (s : State) (m : Msg) : (post s m).power = s.power := by rfl

@[simp] theorem closeEnds_power (s : State) (c k : Nat) : (closeEnds s c k).power = s.power := by rfl

@[simp] theorem setConf_power (s : State) (h config : Nat) (v : Conf) : (setConf s h config v).power = s.power := by
  unfold setConf; split <;> simp

@[simp] theorem dropWindow_power (s : State) (c k : Nat) : (dropWindow s c k).power = s.power := by
  grind [dropWindow, setConf_power]

@[simp] theorem faultSlot_power (s : State) (c k : Nat) : (faultSlot s c k).power = s.power := by
  simp [faultSlot]

@[simp] theorem noteFault_power (s : State) (c k cause unit addr : Nat) : (noteFault s c k cause unit addr).power = s.power := by rfl

@[simp] theorem rejectStep_power (s : State) (c k step cause unit row col : Nat) : (rejectStep s c k step cause unit row
    col).power = s.power := by
  simp [rejectStep]

@[simp] theorem poisonStop_power (s : State) (c k step unit : Nat) : (poisonStop s c k step unit).power = s.power := by
  simp [poisonStop]

@[simp] theorem consumePoison_power (s : State) (c k step cls : Nat) : (consumePoison s c k step cls).power = s.power := by
  simp [consumePoison]

@[simp] theorem reportProgress_power (s : State) (c k : Nat) (moved : Bool) : (reportProgress s c k moved).power = s.power := by
  grind [reportProgress, onSlot_power, post_power]

@[simp] theorem liftBeacon_power (s : State) (c k : Nat) : (liftBeacon s c k).power = s.power := by
  grind [liftBeacon, onSlot_power, post_power]

@[simp] theorem progress_power (s : State) (c k : Nat) (flows : Bool) : (progress s c k flows).power = s.power := by
  unfold progress; split <;> simp

@[simp] theorem selectSlot_power (s : State) (c : Nat) : (selectSlot s c).power = s.power := by
  grind [selectSlot, bump_power, onSlot_power, setCore_power]

@[simp] theorem settleStop_power (s : State) (c k : Nat) : (settleStop s c k).power = s.power := by
  grind [settleStop, dropWindow_power, onSlot_power]

@[simp] theorem settleBlock_power (s : State) (c k : Nat) : (settleBlock s c k).power = s.power := by
  unfold settleBlock; split <;> simp

@[simp] theorem settleBeacon_power (s : State) (c k : Nat) : (settleBeacon s c k).power = s.power := by
  grind [settleBeacon, onSlot_power, post_power]

@[simp] theorem settleCore_power (s : State) (c : Nat) : (settleCore s c).power = s.power := by
  simp [settleCore, each_keeps State.power]

@[simp] theorem completeStep_power (s : State) (c k step : Nat) : (completeStep s c k step).power = s.power := by
  simp [completeStep]

theorem takeReady_power (s : State) (c k h : Nat) {y0 : Nat} {t : State} (h : takeReady s c k h = some (y0, t)) : t.power =
    s.power := by
  grind [takeReady, onSlot_power]

@[simp] theorem outsideWrite_power (s : State) (c off : Nat) (l : List Byte) (mask : List Bool) : (outsideWrite s c off l
    mask).power = s.power := by
  unfold outsideWrite; split <;> simp

@[simp] theorem forwardStep_power (s : State) (c k step : Nat) : (forwardStep s c k step).power = s.power := by
  grind [forwardStep, completeStep_power, onSlot_power, settleCore_power]

@[simp] theorem setPairSrc_power (s : State) (src dst : Nat) (v : PairSrc) : (setPairSrc s src dst v).power = s.power := by rfl

@[simp] theorem arriveAt_power (s : State) (router port : Nat) (p : Packet) : (arriveAt s router port p).power = s.power := by rfl

@[simp] theorem admitEach_power (router port : Nat) (x0 : List Nat) (x1 : List Packet) (s : State) : (admitEach router port x0
    x1 s).1.power = s.power := by
  fun_induction admitEach <;> grind [arriveAt_power]

@[simp] theorem enterPort_power (s : State) (router port : Nat) : (enterPort s router port).power = s.power := by
  unfold enterPort; split <;> simp

@[simp] theorem waitAtPort_power (s : State) (router port : Nat) (p : Packet) : (waitAtPort s router port p).power = s.power :=
    by
  simp [waitAtPort]

@[simp] theorem launch_power (s : State) (p : Packet) : (launch s p).power = s.power := by
  simp [launch]

theorem inject_power (s : State) (p : Packet) (flagged g1 : Bool) {t : State} (h : inject s p flagged g1 = some t) : t.power =
    s.power := by
  grind [inject, bump_power, launch_power, setPairSrc_power]

@[simp] theorem decideReset_power (s : State) (domain target trigger cls config : Nat) (holding : List Element) (repair : Option
    (Nat × Nat)) : (decideReset s domain target trigger cls config holding repair).power = s.power := by rfl

@[simp] theorem escalate_power (s : State) (structure_ place : Nat) : (escalate s structure_ place).power = s.power := by rfl

@[simp] theorem startWalk_power (s : State) (unit : Unit) (a : Nat) (write : Bool) : (startWalk s unit a write).power = s.power
    := by
  unfold startWalk; split <;> simp

@[simp] theorem lookedUp_power (s : State) (unit : Unit) (missed : Bool) : (lookedUp s unit missed).power = s.power := by
  grind [lookedUp, bump_power]

@[simp] theorem snoopLine_power (s : State) (line : Nat) (data : Bool) (why : Nat) (unit : Option Unit) : (snoopLine s line data
    why unit).power = s.power := by
  unfold snoopLine; split <;> simp

@[simp] theorem snoopAll_power (s : State) (lines : List Nat) (data : Bool) (why : Nat) (unit : Option Unit) : (snoopAll s lines
    data why unit).power = s.power := by
  simp [snoopAll, each_keeps State.power]

@[simp] theorem physWrite_power (s : State) (a : Nat) (data : List Byte) (mask : List Bool) : (physWrite s a data mask).power =
    s.power := by
  unfold physWrite; split <;> simp

@[simp] theorem queueRow_power (s : State) (port : Nat) (r : Row) : (queueRow s port r).power = s.power := by rfl

@[simp] theorem queueTo_power (s : State) (port member hops : Nat) (r : Row) : (queueTo s port member hops r).power = s.power :=
    by
  unfold queueTo; split <;> simp

@[simp] theorem sendBy_power (s : State) (handle e : Nat) (r : Row) : (sendBy s handle e r).power = s.power := by
  grind [sendBy, queueTo_power]

@[simp] theorem sendRow_power (s : State) (handle : Nat) (r : Row) : (sendRow s handle r).power = s.power := by
  simp [sendRow]

@[simp] theorem addRequest_power (s : State) (kind : Nat) (unit : Unit) (tag slot step : Nat) : (addRequest s kind unit tag slot
    step).2.power = s.power := by rfl

@[simp] theorem setLane_power (s : State) (c k n : Nat) (l : Lane) : (setLane s c k n l).power = s.power := by rfl

@[simp] theorem returnCredits_power (s : State) (c k n : Nat) : (returnCredits s c k n).power = s.power := by
  grind [returnCredits, post_power, setLane_power]

theorem dequeue_power (s : State) (c k n : Nat) {y0 : Token} {t : State} (h : dequeue s c k n = some (y0, t)) : t.power =
    s.power := by
  obtain ⟨y, _, hy⟩ := Option.map_eq_some_iff.mp h
  dsimp only at hy
  obtain ⟨-, rfl⟩ := Prod.mk.inj hy
  split <;> simp

@[simp] theorem freshTag_power (s : State) (unit : Unit) : (freshTag s unit).2.power = s.power := by
  unfold freshTag; split <;> simp

@[simp] theorem remoteRead_power (s : State) (i : Issuer) (g : Seg) (a : Nat) : (remoteRead s i g a).1.power = s.power := by
  unfold remoteRead; split <;> simp

@[simp] theorem remoteWrite_power (s : State) (i : Issuer) (g : Seg) (a : Nat) : (remoteWrite s i g a).1.power = s.power := by
  unfold remoteWrite; split <;> simp

@[simp] theorem readAt_power (s : State) (i : Issuer) (g : Seg) (ga a : Nat) (shared : Bool) : (readAt s i g ga a
    shared).1.power = s.power := by
  grind [readAt, freshTag_power, inject_power]

@[simp] theorem writeAt_power (s : State) (i : Issuer) (g : Seg) (ga a : Nat) : (writeAt s i g ga a).1.power = s.power := by
  grind [writeAt, freshTag_power, inject_power, physWrite_power]

@[simp] theorem segRead_power (s : State) (i : Issuer) (g : Seg) : (segRead s i g).1.power = s.power := by
  grind [segRead, lookedUp_power, readAt_power, remoteRead_power, snoopAll_power, startWalk_power]

@[simp] theorem segWrite_power (s : State) (i : Issuer) (g : Seg) : (segWrite s i g).1.power = s.power := by
  grind [segWrite, lookedUp_power, remoteWrite_power, snoopAll_power, startWalk_power, writeAt_power]

@[simp] theorem segStep_power (s : State) (i : Issuer) (g : Seg) : (segStep s i g).1.power = s.power := by
  grind [segStep, segRead_power, segWrite_power]

@[simp] theorem segsStep_power (s : State) (i : Issuer) (x0 : List Seg) : (segsStep s i x0).1.power = s.power := by
  fun_induction segsStep <;> grind [segStep_power]

@[simp] theorem findSide_power (s : State) (i : Issuer) (l : Loc) (n : Nat) (write : Bool) : (findSide s i l n write).1.power =
    s.power := by
  fun_cases findSide <;> grind [escalate_power, lookedUp_power, snoopAll_power, startWalk_power]

@[simp] theorem findSides_power (s : State) (i : Issuer) (x0 : List Seg) : (findSides s i x0).1.power = s.power := by
  fun_induction findSides <;> grind [findSide_power]

@[simp] theorem mcopyRecord_power (s : State) (i : Issuer) (j : CopyJob) (n : Nat) : (mcopyRecord s i j n).1.power = s.power :=
    by
  grind [mcopyRecord, findSides_power, physWrite_power, each_or State.power]

@[simp] theorem fillSegs_power (s : State) (i : Issuer) (x0 : List Seg) : (fillSegs s i x0).1.power = s.power := by
  fun_induction fillSegs <;> grind [findSide_power, physWrite_power]

@[simp] theorem localSegs_power (s : State) (i : Issuer) (j : CopyJob) : (localSegs s i j).1.power = s.power := by
  unfold localSegs
  split
  · have hrec (n : Nat) (p : State × CopyJob × Option Stop) : State.power (if p.2.2.isSome || p.2.1.made ≤ n then p
      else
        let r := mcopyRecord p.1 i p.2.1 n
        match r.2.2 with
        | some x =>
          let z := stopAt r.2.1 n x
          (r.1, z.1, z.2)
        | none => r).1 = State.power p.1 := by
      split
      · rfl
      · dsimp only
        split <;> exact mcopyRecord_power ..
    exact each_leaves (fun p => (State.power p.1)) hrec _ (s, j, none)
  · split
    · dsimp only
      split <;> exact fillSegs_power ..
    · rfl

@[simp] theorem copySegs_power (s : State) (i : Issuer) (x0 : List Seg) : (copySegs s i x0).1.power = s.power := by
  fun_induction copySegs <;> grind [segStep_power]

@[simp] theorem writeDone_power (s : State) (j : CopyJob) : (writeDone s j).power = s.power := by rfl

@[simp] theorem retire_power (s : State) (j : CopyJob) : (retire s j).1.power = s.power := by
  unfold retire
  extract_lets n j' t u
  split
  · rfl
  · have hu : State.power u = State.power t := each_keeps State.power (fun a t => by simp only [elim_keeps State.power (fun a => bump_power _ _ _ _)]; split <;> simp) _ _
    simp [hu, t]

@[simp] theorem restartJob_power (s : State) (j : CopyJob) : (restartJob s j).1.power = s.power := by rfl

@[simp] theorem copyPass_power (s : State) (i : Issuer) (j : CopyJob) : (copyPass s i j).1.power = s.power := by
  grind [copyPass, copySegs_power, localSegs_power, retire_power]

@[simp] theorem copyRun_power (i : Issuer) (x0 : Nat) (s : State) (x2 : CopyJob) : (copyRun i x0 s x2).1.power = s.power := by
  fun_induction copyRun <;> grind [copyPass_power]

@[simp] theorem setJobs_power (s : State) (unit : Unit) (l : List CopyJob) : (setJobs s unit l).power = s.power := by
  unfold setJobs; split <;> simp

@[simp] theorem resolveStop_power (s : State) (unit : Unit) (x : Stop) : (resolveStop s unit x).1.power = s.power := by
  fun_cases resolveStop <;> grind [bump_power]

@[simp] theorem unitFault_power (s : State) (c k step cause addr cls : Nat) : (unitFault s c k step cause addr cls).power =
    s.power := by
  simp [unitFault]

@[simp] theorem stopCopy_power (s : State) (unit : Unit) (j : CopyJob) (x : Stop) : (stopCopy s unit j x).power = s.power := by
  grind [stopCopy, consumePoison_power, noteFault_power, rejectStep_power, reportProgress_power, resolveStop_power,
    setJobs_power, settleCore_power, unitFault_power]

@[simp] theorem finishCopy_power (s : State) (unit : Unit) (j : CopyJob) : (finishCopy s unit j).power = s.power := by
  unfold finishCopy; split <;> simp

@[simp] theorem pumpJob_power (s : State) (unit : Unit) (j : CopyJob) : (pumpJob s unit j).power = s.power := by
  grind [pumpJob, copyRun_power, finishCopy_power, setJobs_power, stopCopy_power]

@[simp] theorem restartJobs_power (s : State) (unit : Unit) (p : CopyJob → Bool) : (restartJobs s unit p).power = s.power := by
  simp [restartJobs, each_keeps State.power]

@[simp] theorem pumpCopies_power (s : State) (unit : Unit) : (pumpCopies s unit).power = s.power := by
  grind [pumpCopies, pumpJob_power, each_or State.power]

@[simp] theorem setStrm_power (s : State) (c k n : Nat) (t : Stream) : (setStrm s c k n t).power = s.power := by rfl

@[simp] theorem stageChunk_power (s : State) (c : Nat) (d : BitVec 1024) (ch : Chunk) (head data : Tainted) : (stageChunk s c d
    ch head data).1.power = s.power := by
  grind [stageChunk]

@[simp] theorem addDrawn_power (s : State) (c k n : Nat) (more : Tainted) : (addDrawn s c k n more).power = s.power := by rfl

@[simp] theorem drawTokens_power (c k n pos : Nat) (x0 : Nat) (s : State) : (drawTokens c k n pos x0 s).power = s.power := by
  fun_induction drawTokens <;> grind [addDrawn_power, dequeue_power]

@[simp] theorem drawBuffer_power (s : State) (c k n i : Nat) : (drawBuffer s c k n i).power = s.power := by rfl

@[simp] theorem drawHandles_power (c k n pos : Nat) (x0 : Nat) (s : State) : (drawHandles c k n pos x0 s).power = s.power := by
  fun_induction drawHandles <;> grind [drawBuffer_power, setStrm_power, takeReady_power]

@[simp] theorem drawFor_power (s : State) (c k n pos : Nat) : (drawFor s c k n pos).power = s.power := by
  grind [drawFor, drawHandles_power, drawTokens_power]

@[simp] theorem stepChunks_power (s : State) (i : Issuer) (v : Slot) (t : Stream) (x0 : List Chunk) : (stepChunks s i v t
    x0).1.power = s.power := by
  fun_induction stepChunks <;> grind [segsStep_power]

@[simp] theorem runChunks_power (i : Issuer) (v : Slot) (t : Stream) (x0 : Nat) (s : State) (x2 : List Chunk) : (runChunks i v t
    x0 s x2).1.power = s.power := by
  fun_induction runChunks <;> grind [stepChunks_power]

@[simp] theorem writeElems_power (s : State) (c k n : Nat) : (writeElems s c k n).power = s.power := by rfl

@[simp] theorem stopStream_power (s : State) (c k n : Nat) (x : Stop) : (stopStream s c k n x).power = s.power := by
  grind [stopStream, consumePoison_power, rejectStep_power, reportProgress_power, resolveStop_power, setStrm_power,
    settleCore_power, unitFault_power, writeElems_power]

@[simp] theorem setChunk_power (s : State) (c k n : Nat) (ch : Chunk) : (setChunk s c k n ch).power = s.power := by rfl

@[simp] theorem settleChunks_power (c k n : Nat) (x0 : Nat) (s : State) : (settleChunks c k n x0 s).power = s.power := by
  fun_induction settleChunks
  case case5 ih =>
    rw [ih]
    split <;> grind [setChunk_power, drawFor_power, stageChunk_power, bump_power, setStrm_power]
  all_goals grind [setChunk_power, drawFor_power, stageChunk_power, bump_power, setStrm_power]

@[simp] theorem fetchStream_power (s : State) (c k n w : Nat) : (fetchStream s c k n w).power = s.power := by
  grind [fetchStream, bump_power, runChunks_power, setStrm_power, settleChunks_power, stopStream_power]

@[simp] theorem prefetch_power (s : State) (c k n : Nat) : (prefetch s c k n).power = s.power := by
  grind [prefetch, fetchStream_power]

@[simp] theorem rewindStream_power (s : State) (c k n tile : Nat) : (rewindStream s c k n tile).power = s.power := by rfl

@[simp] theorem takeReplay_power (s : State) (id : Nat) : (takeReplay s id).power = s.power := by
  grind [takeReplay, rewindStream_power, setEng_power, each_or State.power]

@[simp] theorem beginOut_power (c k n : Nat) (x0 : Nat) (s : State) : (beginOut c k n x0 s).power = s.power := by
  fun_induction beginOut <;> grind [setStrm_power, stageChunk_power]

@[simp] theorem stepOut_power (c k n : Nat) (x0 : List Chunk) (x1 : Bool) (s : State) : (stepOut c k n x0 x1 s).1.power =
    s.power := by
  fun_induction stepOut <;> grind [segsStep_power, setChunk_power, setStrm_power]

@[simp] theorem retireOut_power (c k n : Nat) (x0 : Nat) (s : State) : (retireOut c k n x0 s).power = s.power := by
  fun_induction retireOut <;> grind [bump_power, progress_power, setStrm_power, writeElems_power]

@[simp] theorem runOut_power (c k n : Nat) (x0 : Nat) (s : State) : (runOut c k n x0 s).1.power = s.power := by
  fun_induction runOut <;> grind [beginOut_power, retireOut_power, stepOut_power]

@[simp] theorem pumpOut_power (s : State) (c k n : Nat) : (pumpOut s c k n).1.power = s.power := by
  grind [pumpOut, runOut_power, stopStream_power]

@[simp] theorem setMerge_power (s : State) (h : Nat) (j : MergeJob) : (setMerge s h j).power = s.power := by rfl

@[simp] theorem dropMerge_power (s : State) (h : Nat) (j : MergeJob) : (dropMerge s h j).power = s.power := by rfl

@[simp] theorem stopMerge_power (s : State) (h : Nat) (j : MergeJob) (cause : Nat) : (stopMerge s h j cause).power = s.power :=
    by
  unfold stopMerge; split <;> simp

@[simp] theorem mgCommit_power (s : State) (h : Nat) (j : MergeJob) : (mgCommit s h j).1.power = s.power := by
  simp [mgCommit, each_keeps State.power]

@[simp] theorem mergePass_power (s : State) (h : Nat) (j : MergeJob) : (mergePass s h j).1.power = s.power := by
  grind [mergePass, mgCommit_power, segsStep_power, each_or State.power]

@[simp] theorem runMerge_power (h : Nat) (x0 : Nat) (s : State) : (runMerge h x0 s).power = s.power := by
  fun_induction runMerge <;> grind [bump_power, completeStep_power, dropMerge_power, forwardStep_power, mergePass_power,
    reportProgress_power, resolveStop_power, setMerge_power, settleCore_power, stopMerge_power, unitFault_power]

@[simp] theorem pumpMerge_power (s : State) (h : Nat) : (pumpMerge s h).power = s.power := by
  simp [pumpMerge]

@[simp] theorem pumpUnit_power (s : State) (unit : Unit) : (pumpUnit s unit).power = s.power := by
  fun_cases pumpUnit <;> grind [prefetch_power, pumpCopies_power, pumpMerge_power, pumpOut_power]

@[simp] theorem capsChanged_power (s : State) : (capsChanged s).power = s.power := by
  simp [capsChanged]

@[simp] theorem cancelWaits_power (s : State) (c k : Nat) : (cancelWaits s c k).power = s.power := by
  simp [cancelWaits, each_keeps State.power]

@[simp] theorem onHalts_power (s : State) (unit : Unit) (f : Halt → Option Halt) : (onHalts s unit f).power = s.power := by
  unfold onHalts; split <;> simp

@[simp] theorem restartUnit_power (s : State) (unit : Unit) (p : Option Halt → Bool) : (restartUnit s unit p).power = s.power :=
    by
  unfold restartUnit; split <;> simp

@[simp] theorem resumeUnit_power (s : State) (unit : Unit) (p : Halt → Bool) : (resumeUnit s unit p).power = s.power := by
  simp [resumeUnit]

@[simp] theorem quietCores_power (s : State) (cores : List Nat) : (quietCores s cores).power = s.power := by
  grind [quietCores, cancelWaits_power, onSlot_power, writeElems_power, each_or State.power]

@[simp] theorem wakeJobs_power (s : State) (c : Nat) : (wakeJobs s c).power = s.power := by
  simp [wakeJobs, each_keeps State.power]

@[simp] theorem wakeCore_power (s : State) (c : Nat) : (wakeCore s c).power = s.power := by
  grind [wakeCore, pumpUnit_power, resumeUnit_power, settleCore_power, takeReplay_power, wakeJobs_power, each_or State.power]

@[simp] theorem setShed_powerSet (s : State) (r : Nat) (step : Shed) : powerSet (setShed s r step) = powerSet s := by
  grind [setShed, bump_power, capsChanged_power, powerSet]

@[simp] theorem parkRegion_powerSet (s : State) (r : Nat) : powerSet (parkRegion s r) = powerSet s := by
  grind [parkRegion, setShed_powerSet, quietCores_power, each_or powerSet, powerSet]

@[simp] theorem unparkRegion_powerSet (s : State) (r : Nat) (step : Shed) : powerSet (unparkRegion s r step) = powerSet s := by
  grind [unparkRegion, setShed_powerSet, wakeCore_power, each_or powerSet, powerSet]

@[simp] theorem noteWait_powerSet (s : State) (r : Nat) : powerSet (noteWait s r) = powerSet s := by
  unfold noteWait; split <;> simp [powerSet]

@[simp] theorem endWait_powerSet (s : State) (r : Nat) : powerSet (endWait s r) = powerSet s := by rfl

@[simp] theorem settleShed_powerSet (s : State) (r : Nat) : powerSet (settleShed s r) = powerSet s := by
  grind [settleShed, endWait_powerSet, noteWait_powerSet, parkRegion_powerSet, unparkRegion_powerSet, powerSet]

@[simp] theorem countPower_power (s : State) (target : Nat) : (countPower s target).power = s.power := by rfl

end Sys2Proof.Machine
end

section
/-! power.set, R669 and R865: what each of its rows reaches. -/

namespace Sys2Proof.Machine
open Sys2Proof.Claims

@[simp] theorem settle_regions (s : State) (f k code : Nat) (resp : List Byte) : (settle s f k code resp).regions = s.regions := by
  rw [settle_shape]

@[simp] theorem settle_fabric (s : State) (f k code : Nat) (resp : List Byte) : (settle s f k code resp).fabric = s.fabric := by
  rw [settle_shape]

theorem await_of_run {s : State} {f k : Nat} {r : Running} (h : (mbSlot s f k).run = some r) (w : Wait) :
    await s f k w = setRun s f k { r with wait := w } := by
  rw [await, h]

/-! ## The mask, R862 -/

theorem powerSet_demand (s : State) (r : Nat) (f : Demands → Demands) :
    powerSet (demand s r f) = powerSet (onDemands s r f) := settleShed_powerSet ..

/-- What a run of mask demands over the regions of a list leaves. -/
theorem powerSet_demands (mask : BitVec 48) (l : List Nat) (s : State) :
    let t := each l s (fun r s => demand s r (fun d => { d with mask := mask.getLsbD r }))
    t.power.state = s.power.state ∧ t.power.mask = s.power.mask ∧
      ∀ x, (demandsOf t x).mask = if x ∈ l then mask.getLsbD x else (demandsOf s x).mask := by
  induction l generalizing s with
  | nil => exact ⟨rfl, rfl, fun x => rfl⟩
  | cons r l ih =>
    obtain ⟨hstate, hmask, hdem⟩ := ih (demand s r (fun d => { d with mask := mask.getLsbD r }))
    have hset := powerSet_demand s r (fun d => { d with mask := mask.getLsbD r })
    simp only [powerSet, Prod.mk.injEq] at hset
    obtain ⟨hstate', hmask', hdem'⟩ := hset
    refine ⟨hstate.trans hstate', hmask.trans hmask', fun x => (hdem x).trans ?_⟩
    have hone : (demandsOf (demand s r (fun d => { d with mask := mask.getLsbD r })) x).mask =
        if x = r then mask.getLsbD x else (demandsOf s x).mask := by
      rw [demandsOf, hdem', onDemands]
      by_cases hx : x = r
      · subst hx
        rw [look_put_same, if_pos rfl]
      · rw [look_put_ne _ _ _ hx, if_neg hx, demandsOf]
    rw [hone]
    grind

theorem regionList_congr {s t : State} (h : t.fuses = s.fuses) : regionList t = regionList s := by
  rw [regionList, h, regionList]

/-- R862: the mask is every region's demand. -/
theorem enterRunning_power (s : State) (st : PowerState) (mask : BitVec 48) :
    let t := enterRunning s st mask
    t.power.state = st ∧ t.power.mask = mask ∧ ∀ x ∈ regionList s, (demandsOf t x).mask = mask.getLsbD x := by
  obtain ⟨hstate, hmask, hdem⟩ := powerSet_demands mask (regionList s) { countPower { s with power := { s.power with state := st } }
    (powerCode st) with power := { (countPower { s with power := { s.power with state := st } } (powerCode st)).power with mask := mask } }
  exact ⟨hstate, hmask, fun x hx => (hdem x).trans (if_pos hx)⟩

theorem enterRunning_frames (s : State) (st : PowerState) (mask : BitVec 48) : (enterRunning s st mask).frames = s.frames :=
  (boxed_eq_iff.mp (enterRunning_boxed ..)).2

/-- A power command that runs the module with a mask. -/
theorem settles_enterRunning {s : State} {f k : Nat} {r : Running} (hrun : (mbSlot s f k).run = some r) (st : PowerState)
    (mask : BitVec 48) :
    let t := settle (enterRunning s st mask) f k 0 []
    t.power.state = st ∧ t.power.mask = mask ∧ Answered t f k r 0 [] ∧ ∀ x ∈ regionList s, (demandsOf t x).mask = mask.getLsbD x := by
  obtain ⟨hstate, hmask, hdem⟩ := enterRunning_power s st mask
  refine ⟨by rw [settle_power, hstate], by rw [settle_power, hmask], answered_settle (run_congr (enterRunning_frames ..) hrun) .., ?_⟩
  intro x hx
  rw [demandsOf, settle_power]
  exact hdem x hx

theorem joinedPorts_of_fabric {s t : State} (h : t.fabric = s.fabric) : joinedPorts t = joinedPorts s :=
  joinedPorts_congr (fun q => by rw [portOf, h, portOf])

section
variable {s : State} {f k : Nat} {r : Running} (hdue : due s f k 0x0105 = some r)
include hdue

theorem powerM0_of_m1 (htarget : bitsOf (head8 r) 0 3 = 0) (hst : s.power.state = .m1) :
    powerM0 s f k = settle (enterRunning s .m0 0) f k 0 [] :=
  (powerTo_legal hdue htarget (.inr (by decide)) (by simp [hst]) _).trans (if_pos hst)

theorem powerM0_of_m2 (htarget : bitsOf (head8 r) 0 3 = 0) (hst : s.power.state = .m2) :
    powerM0 s f k = setRun (countPower { s with sup := { s.sup with powerMove := some 0 }, power := { s.power with state := .m0 } } 0)
      f k { r with wait := .power 0 } := by
  refine (powerTo_legal hdue htarget (.inr (by decide)) (by simp [hst]) _).trans ((if_neg (by simp [hst])).trans ?_)
  dsimp only
  rw [if_pos hst]
  refine await_of_run ?_ _
  exact run_of_due hdue

theorem powerM0_of_m3 (htarget : bitsOf (head8 r) 0 3 = 0) (hst : s.power.state = .m3) :
    powerM0 s f k = setRun { s with sup := { s.sup with powerMove := some 0 } } f k { r with wait := .power 0 } := by
  refine (powerTo_legal hdue htarget (.inr (by decide)) (by simp [hst]) _).trans ((if_neg (by simp [hst])).trans ?_)
  dsimp only
  rw [if_neg (by simp [hst])]
  refine await_of_run ?_ _
  exact run_of_due hdue

theorem powerM1_legal (htarget : bitsOf (head8 r) 0 3 = 1) (hst : s.power.state = .m0 ∨ s.power.state = .m1) :
    powerM1 s f k = settle (enterRunning s .m1 (BitVec.ofNat 48 (bitsOf (head8 r) 8 48))) f k 0 [] :=
  powerTo_legal hdue htarget (.inr (by decide)) (by simpa using hst) _

theorem powerM2_legal (htarget : bitsOf (head8 r) 0 3 = 2) (hst : s.power.state = .m0 ∨ s.power.state = .m1) (hslices : s.slices = []) :
    powerM2 s f k = settle (enterM2 s) f k 0 [] :=
  powerTo_legal hdue htarget (.inl hslices) (by simpa using hst) _

section
variable (failed : List Element) (common : Bool) (vmin : List Nat) (htarget : bitsOf (head8 r) 0 3 = 3) (hslices : s.slices = [])
  (hphase : s.boot.phase ≠ 7)
include htarget hslices hphase

theorem powerM3_begins (hst : s.power.state = .m0 ∨ s.power.state = .m1) (hprog : r.progress = 0) :
    powerM3 s f k failed common vmin = setRun (beginTest s) f k { r with progress := 1 } := by
  have hm2 : s.power.state ≠ .m2 := by rcases hst with h | h <;> simp [h]
  refine (powerTo_legal hdue htarget (.inl hslices) (by rcases hst with h | h <;> simp [h]) _).trans ?_
  dsimp only
  rw [if_neg hphase, if_neg (by omega), if_neg hm2, if_pos hprog]

/-- R865: from M2 nothing is tested, and with no joined port nothing is waited for. -/
theorem powerM3_of_m2 (hst : s.power.state = .m2) (hprog : r.progress ≠ 2) (hjoined : joinedPorts s = []) :
    powerM3 s f k failed common vmin = settle (enterM3 (noteDown { s with
      nv := { s.nv with bist := { SelfTest.none with stamp := s.clocks.sup } }, sup := { s.sup with powerMove := none } })) f k 0 [] := by
  refine (powerTo_legal hdue htarget (.inl hslices) (by simp [hst]) _).trans ?_
  extract_lets leave begin_
  have hbegin (t : State) (ht : t.fabric = s.fabric) : begin_ t = leave { t with sup := { t.sup with powerMove := some 3 } } := by
    have hnone (w : State) (hw : w.fabric = s.fabric) : joinedPorts w = [] := (joinedPorts_of_fabric hw).trans hjoined
    have hleft := hnone (leavePorts { t with sup := { t.sup with powerMove := some 3 } } []) ht
    unfold begin_
    rw [hnone t ht]
    refine (if_pos ?_).trans rfl
    rw [hleft]
    rfl
  rw [if_neg hphase, if_neg hprog, if_pos hst]
  exact hbegin _ (by rfl)

theorem powerM3_waits (hst : s.power.state = .m0 ∨ s.power.state = .m1 ∨ s.power.state = .m2) (hprog : r.progress = 2) :
    powerM3 s f k failed common vmin = if portsLeft s (joinedPorts s) then
      settle (enterM3 (noteDown { s with sup := { s.sup with powerMove := none } })) f k 0 [] else s := by
  refine (powerTo_legal hdue htarget (.inl hslices) (by rcases hst with h | h | h <;> simp [h]) _).trans ?_
  dsimp only
  rw [if_neg hphase, if_pos hprog]
end
end

theorem enterM2_power (s : State) : (enterM2 s).power.state = .m2 ∧ (enterM2 s).power.mask = 0 := ⟨rfl, rfl⟩

theorem enterM3_power (s : State) : (enterM3 s).power.state = .m3 ∧ (enterM3 s).power.mask = 0 ∧ (enterM3 s).regions = [] ∧
    (enterM3 s).fabric.moduleId = 0 := ⟨rfl, rfl, rfl, rfl⟩

/-- Settles O24. -/
theorem powerSetReachesItsTarget : Obligations.PowerSetReachesItsTarget := by
  intro s f k r failed common vmin hdue
  have hrun := run_of_due hdue
  refine ⟨fun htarget hst => ?_, fun htarget hst => ?_, fun htarget hst => ?_, fun htarget hst => ?_, fun htarget hst hslices => ?_,
    fun htarget hst hslices hphase hprog => ?_, fun htarget hst hslices hphase hprog hjoined => ?_,
    fun htarget hst hslices hphase hprog => ⟨fun hleft => ?_, fun hleft => ?_⟩⟩
  · have hm0 := powerM0_of_m1 hdue htarget hst
    obtain ⟨hstate, hmask, hans, hdem⟩ := settles_enterRunning hrun .m0 0
    refine ⟨congrArg Host.Outcome.next hm0, fun _ _ => ⟨_, congrArg Host.Outcome.next hm0, hstate, hmask, hans, fun x hx => ?_⟩⟩
    rw [hdem x hx]
    exact BitVec.getLsbD_zero
  · exact ⟨_, congrArg Host.Outcome.next (powerM0_of_m2 hdue htarget hst), rfl, rfl, mbSlot_setRun .., rfl⟩
  · exact ⟨_, congrArg Host.Outcome.next (powerM0_of_m3 hdue htarget hst), rfl, rfl, mbSlot_setRun .., rfl⟩
  · have hm1 := powerM1_legal hdue htarget hst
    obtain ⟨hstate, hmask, hans, hdem⟩ := settles_enterRunning hrun .m1 (BitVec.ofNat 48 (bitsOf (head8 r) 8 48))
    exact ⟨congrArg Host.Outcome.next hm1, fun _ _ => ⟨_, congrArg Host.Outcome.next hm1, hstate, hmask, hans, hdem⟩⟩
  · have hm2 := powerM2_legal hdue htarget hst hslices
    refine ⟨congrArg Host.Outcome.next hm2, _, congrArg Host.Outcome.next hm2, ?_, ?_⟩
    · rw [settle_power, (enterM2_power s).1]
    · rw [settle_power, (enterM2_power s).2]
  · exact ⟨_, congrArg Host.Outcome.next (powerM3_begins hdue failed common vmin htarget hslices hphase hst hprog), rfl, rfl, rfl,
      mbSlot_setRun .., rfl⟩
  · exact congrArg Host.Outcome.next (powerM3_of_m2 hdue failed common vmin htarget hslices hphase hst hprog hjoined)
  · have hm3 := (powerM3_waits hdue failed common vmin htarget hslices hphase hst hprog).trans (if_pos hleft)
    obtain ⟨hstate, hmask, hregions, hmodule⟩ := enterM3_power (noteDown { s with sup := { s.sup with powerMove := none } })
    refine ⟨congrArg Host.Outcome.next hm3, _, congrArg Host.Outcome.next hm3, ?_, ?_, ?_, ?_⟩
    · rw [settle_power, hstate]
    · rw [settle_power, hmask]
    · rw [settle_regions, hregions]
    · rw [settle_fabric, hmodule]
  · have hwait : ¬portsLeft s (joinedPorts s) = true := by rw [hleft]; decide
    exact congrArg Host.Outcome.next ((powerM3_waits hdue failed common vmin htarget hslices hphase hst hprog).trans (if_neg hwait))

end Sys2Proof.Machine
end

section
/-! Supply, reference, envelope, tray, pins and the debug port. -/

namespace Sys2Proof.Machine
open Sys2Proof.Claims

/-! ## Tray messages, R941 -/

theorem natAt_append_right (l m : List Byte) (off n : Nat) : natAt (l ++ m) (l.length + off) n = natAt m off n := by
  have hdrop : (l ++ m).drop (l.length + off) = m.drop off := by rw [← List.drop_drop, List.drop_left]
  rw [natAt, sub, hdrop]
  rfl

theorem fit_cons (b : Byte) (l : List Byte) (n : Nat) : fit (b :: l) (n + 1) = b :: fit l n := by
  simp [fit, sub]

theorem natAt_head (b : Byte) (l : List Byte) : natAt (b :: l) 0 1 = b.toNat := by
  simp [natAt, sub, natOf]

theorem bytesOf_one (v : Nat) : bytesOf 1 v = [BitVec.ofNat 8 v] := rfl

/-- R941: an event message carries its number and the first byte of its detail. -/
theorem trayEvent_outbox (s : State) {event code : Nat} (hevent : event < 256) (hcode : code < 256) (rest : List Byte) :
    ∃ n l, (trayEvent s event (bytesOf 1 code ++ rest)).outbox = .mctp 3 n l :: s.outbox ∧ natAt l 8 1 = event ∧ natAt l 12 1 = code := by
  have hbyte : ∀ v, v < 256 → (BitVec.ofNat 8 v).toNat = v := fun v h => Nat.mod_eq_of_lt h
  refine ⟨s.sup.mctpSeq, bytesOf 8 s.clocks.sup ++ bytesOf 1 event ++ bytesOf 3 0 ++ fit (bytesOf 1 code ++ rest) 12, rfl, ?_, ?_⟩
  · have hplace := natAt_append_right (bytesOf 8 s.clocks.sup) (bytesOf 1 event ++ (bytesOf 3 0 ++ fit (bytesOf 1 code ++ rest) 12)) 0 1
    rw [List.append_assoc, List.append_assoc]
    refine Eq.trans (by simpa using hplace) ?_
    rw [bytesOf_one event, List.singleton_append, natAt_head, hbyte event hevent]
  · have hplace := natAt_append_right (bytesOf 8 s.clocks.sup ++ bytesOf 1 event ++ bytesOf 3 0) (fit (bytesOf 1 code ++ rest) 12) 0 1
    refine Eq.trans (by simpa using hplace) ?_
    rw [bytesOf_one code, List.singleton_append, fit_cons, natAt_head, hbyte code hcode]

/-! ## The envelope, R932 and R716 -/

theorem conditionFell_shape (s : State) (was now : Bool) (code : Nat) :
    conditionFell s was now code = { s with sup := (conditionFell s was now code).sup, counts := (conditionFell s was now code).counts } := by
  unfold conditionFell
  split <;> rfl

theorem setEnvelope_shape (s : State) (b : Bool) :
    setEnvelope s b = { s with sup := (setEnvelope s b).sup, counts := (setEnvelope s b).counts } := by
  rw [setEnvelope, conditionFell_shape]
  rfl

theorem setEnvelope_envelope (s : State) (b : Bool) : (setEnvelope s b).sup.envelope = b := by
  rw [setEnvelope, conditionFell]
  split <;> rfl

/-- R716: the envelope's lapse is the first. -/
theorem setEnvelope_lapse {s : State} (h : s.sup.envelope = true) : (setEnvelope s false).sup.lapse = 1 := by
  rw [setEnvelope, conditionFell, h]
  rfl

/-- The condition that falls, and what holds, count on from the lapses of the state. -/
theorem setEnvelope_lapses (s : State) (b : Bool) : (setEnvelope s b).sup.lapses =
    if s.sup.holds && !(setEnvelope s b).sup.holds then min (s.sup.lapses + 1) (2 ^ 32 - 1) else s.sup.lapses := by
  rw [setEnvelope, conditionFell]
  split <;> rfl

theorem setEnvelope_holds (s : State) (b : Bool) : (setEnvelope s b).sup.holds = assureHolds (setEnvelope s b) := by
  rw [setEnvelope, conditionFell]
  split <;> rfl

theorem insideEnvelope_congr {s t : State} (hp : t.power = s.power) (hc : t.clocks = s.clocks) : insideEnvelope t = insideEnvelope s := by
  simp only [insideEnvelope, flowGood, hp, hc]

theorem insideEnvelope_setEnvelope (s : State) (b : Bool) : insideEnvelope (setEnvelope s b) = insideEnvelope s :=
  insideEnvelope_congr (by rw [setEnvelope_shape]) (by rw [setEnvelope_shape])

/-- R942: the state that has noted a tray status. -/
def trayNoted (s : State) (flow : Nat) (valid : Bool) (cap : Nat) : State :=
  { s with
    power := { s.power with
      flow := flow, flowValid := valid, trayAt := s.clocks.sup, trayMissed := false
      trayCap := if cap = 0 then 34000 else max 20000 (min cap 34000) }
    pins := { s.pins with trayBusy := false } }

/-- Settles O31. -/
theorem envelopeFollowsItsConditions : Obligations.EnvelopeFollowsItsConditions := by
  intro s inlet die flow cap valid
  refine ⟨?_, fun hbad => ?_, fun hvalid hflow => ?_, fun hmissed hover => ?_⟩
  · generalize ht : ({ s with power := { s.power with inlet := inlet, ioDie := die } } : State) = t
    have hexec : exec (.envelopeEvaluation inlet die) s = .next (setEnvelope t (insideEnvelope t)) := by
      rw [← ht]
      rfl
    refine ⟨_, hexec, ?_, ?_, setEnvelope_holds .., fun hwas hfell => ?_, fun hwas hfell hlow => ?_, ?_⟩
    · rw [setEnvelope_shape, ← ht]
    · rw [setEnvelope_envelope, insideEnvelope_setEnvelope]
    · rw [insideEnvelope_setEnvelope] at hfell
      rw [hfell]
      exact setEnvelope_lapse (by rw [← ht]; exact hwas)
    · rw [setEnvelope_lapses, hfell, ← ht]
      simp only [hwas, Bool.not_false, Bool.and_self, if_true]
      omega
    · rw [setEnvelope_shape, ← ht]
  · have hflow : flowGood (trayNoted s flow valid cap) = false := by
      rcases hbad with h | h
      · simp [flowGood, trayNoted, h]
      · simp [flowGood, trayNoted, show ¬600 ≤ flow by omega]
    have hexec : trayStatus s flow valid cap = setEnvelope (trayNoted s flow valid cap) false := by
      have hlow : ¬flowGood (trayNoted s flow valid cap) = true := by rw [hflow]; decide
      exact if_neg hlow
    refine ⟨_, congrArg Host.Outcome.next hexec, setEnvelope_envelope .., ?_, ?_⟩
    · rw [setEnvelope_shape]
      rfl
    · rw [setEnvelope_shape]
      rfl
  · have hgood : flowGood (trayNoted s flow valid cap) = true := by
      simp [flowGood, trayNoted, windowOver, hvalid, hflow, ticksPerS]
    exact ⟨_, congrArg Host.Outcome.next (if_pos hgood), rfl, rfl, rfl⟩
  · have hexec : trayMissing s =
        setEnvelope (bump { s with power := { s.power with trayMissed := true } } ctrModTrayMissed 0 1) false :=
      if_neg (by simp [hmissed, windowOver, hover])
    refine ⟨_, congrArg Host.Outcome.next hexec, setEnvelope_envelope .., ?_, ?_⟩
    · rw [setEnvelope_shape]
      rfl
    · rw [setEnvelope_shape]
      rfl

/-! ## Reference and supply, R910 to R926 -/

theorem trayEvent_shape (s : State) (event : Nat) (detail : List Byte) : trayEvent s event detail =
    { s with sup := (trayEvent s event detail).sup, outbox := (trayEvent s event detail).outbox } := rfl

theorem trayEvent_envelope (s : State) (event : Nat) (detail : List Byte) :
    (trayEvent s event detail).sup.envelope = s.sup.envelope := rfl

theorem setEnvelope_outbox (s : State) (b : Bool) : (setEnvelope s b).outbox = s.outbox := by rw [setEnvelope_shape]

theorem bandCode_lt (b : Band) : bandCode b < 256 := by cases b <;> decide

theorem endSession_map (s : State) : (endSession s).nv.map = s.nv.map := by
  unfold endSession
  split <;> rfl

/-- Settles O29. -/
theorem referenceAndSupply : Obligations.ReferenceAndSupply := by
  intro s mv
  refine ⟨fun hlost => ?_, fun hstandby hband hup => ?_, ?_, fun hband => ?_⟩
  · generalize ht : ({ s with power := { s.power with refLost := true, refSince := s.clocks.sup, refParked := false } } : State) = t
    have hexec : loseReference s = trayEvent (bump (setEnvelope t false) ctrModRefLosses 0 1) 9 (bytesOf 1 0 ++ []) := by
      rw [← ht]
      exact if_neg (by rw [hlost]; decide)
    obtain ⟨n, l, hout, hevent, hcode⟩ := trayEvent_outbox (bump (setEnvelope t false) ctrModRefLosses 0 1) (event := 9) (code := 0)
      (by decide) (by decide) []
    refine ⟨_, congrArg Host.Outcome.next hexec, ?_, ?_, ?_, ?_, ?_, n, l, hout.trans ?_, hevent, hcode⟩
    · rw [trayEvent_shape, bump_power, setEnvelope_shape, ← ht]
    · rw [trayEvent_shape, bump_power, setEnvelope_shape, ← ht]
    · rw [trayEvent_envelope, bump_sup, setEnvelope_envelope]
    · rw [trayEvent_shape, bump_mem, setEnvelope_shape, ← ht]
    · rw [trayEvent_shape, bump_cores, setEnvelope_shape, ← ht]
    · rw [bump_outbox, setEnvelope_outbox, ← ht]
  · generalize ht : ({ s with power := { s.power with inputMv := mv, within := s.power.within && decide (bandOf mv = .operating) } } : State) = t
    generalize hu : bump { t with power := { t.power with band := bandOf mv } } (ctrModBands.plus (bandCode (bandOf mv))) 0 1 = u
    obtain ⟨n, l, hout, hevent, hcode⟩ := trayEvent_outbox u (event := 8) (by decide) (bandCode_lt (bandOf mv)) (bytesOf 4 mv)
    have hchange : changeBand s mv = if bandOf mv = .operating then trayEvent u 8 (bytesOf 1 (bandCode (bandOf mv)) ++ bytesOf 4 mv)
        else setEnvelope (trayEvent u 8 (bytesOf 1 (bandCode (bandOf mv)) ++ bytesOf 4 mv)) false := by
      rw [← hu, ← ht]
      exact if_neg (by simp [hband, hup, hstandby])
    have hpower : u.power = { s.power with inputMv := mv, within := s.power.within && decide (bandOf mv = .operating), band := bandOf mv } := by
      rw [← hu, ← ht]
      rfl
    have hold : u.outbox = s.outbox ∧ u.mem = s.mem := by
      rw [← hu, ← ht]
      exact ⟨rfl, rfl⟩
    by_cases hop : bandOf mv = .operating
    · rw [if_pos hop] at hchange
      refine ⟨_, congrArg Host.Outcome.next hchange, ?_, ?_, fun h => ?_, ⟨n, l, ?_, hevent, hcode⟩, ?_⟩
      · rw [trayEvent_shape, hpower]
      · rw [trayEvent_shape, hpower]
      · rw [hop] at h
        cases h
      · rw [hout, hold.1]
      · rw [trayEvent_shape, hold.2]
    · rw [if_neg hop] at hchange
      refine ⟨_, congrArg Host.Outcome.next hchange, ?_, ?_, fun _ => ⟨setEnvelope_envelope .., ?_⟩, ⟨n, l, ?_, hevent, hcode⟩, ?_⟩
      · rw [setEnvelope_shape, trayEvent_shape, hpower]
      · rw [setEnvelope_shape, trayEvent_shape, hpower]
      · rw [setEnvelope_shape, trayEvent_shape, hpower]
        simp [hop]
      · rw [setEnvelope_outbox, hout, hold.1]
      · rw [setEnvelope_shape, trayEvent_shape, hold.2]
  · exact ⟨_, rfl, rfl, endSession_map _, supplyLoss_pending s, rfl, rfl, rfl, rfl, rfl, rfl, rfl⟩
  · exact congrArg Host.Outcome.next (if_neg (not_not_intro hband))

/-! ## The self-test and the operating hours, R900 and R903 -/

theorem tellAgeing_shape (s : State) (kind : Nat) (t : Tab AgeEntry) :
    tellAgeing s kind t = { s with sup := (tellAgeing s kind t).sup, outbox := (tellAgeing s kind t).outbox } := by
  have hkeep : ∀ (l : List (Nat × AgeEntry)) (u : State), each l u (fun e s =>
      trayEvent s 5 (bytesOf 1 kind ++ bytesOf 2 e.1 ++ bytesOf 2 (ageDays e.2))) = { u with
        sup := (each l u (fun e s => trayEvent s 5 (bytesOf 1 kind ++ bytesOf 2 e.1 ++ bytesOf 2 (ageDays e.2)))).sup
        outbox := (each l u (fun e s => trayEvent s 5 (bytesOf 1 kind ++ bytesOf 2 e.1 ++ bytesOf 2 (ageDays e.2)))).outbox } := by
    intro l
    induction l with
    | nil => exact fun u => rfl
    | cons e l ih => exact fun u => ih _
  exact hkeep _ s

/-- R900: the reason that a sample gives, and 0 within limits. -/
def sampleReason (v c : Bool) (inlet : Int) : Nat :=
  if !v then 1 else if !c then 2 else if inlet < 200 || 350 < inlet then 3 else 0

theorem sampleReason_out {v c : Bool} {inlet : Int} (h : v = false ∨ c = false ∨ inlet < 200 ∨ 350 < inlet) :
    sampleReason v c inlet = if v = false then 1 else if c = false then 2 else 3 := by
  cases v <;> cases c <;> simp_all [sampleReason]

theorem sampleTest_out {s : State} {v c : Bool} {inlet : Int} (hrunning : s.nv.bist.running = true) (h : sampleReason v c inlet ≠ 0) :
    sampleTest s v c inlet = bump { s with nv := { s.nv with
      testMark := false
      bist := { SelfTest.none with result := 3, abort := sampleReason v c inlet, stamp := s.clocks.sup, began := s.nv.bist.began } } }
      (ctrModBistAbort.plus (sampleReason v c inlet - 1)) 0 1 := by
  have hgo : ¬(!s.nv.bist.running || decide (sampleReason v c inlet = 0)) = true := by simp [hrunning, h]
  exact if_neg hgo

theorem sampleTest_within {s : State} {v c : Bool} {inlet : Int} (h : sampleReason v c inlet = 0) : sampleTest s v c inlet = s := by
  have hstop : (!s.nv.bist.running || decide (sampleReason v c inlet = 0)) = true := by simp [h]
  exact if_pos hstop

theorem tellAgeing_nv (s : State) (kind : Nat) (t : Tab AgeEntry) : (tellAgeing s kind t).nv = s.nv := by rw [tellAgeing_shape]

theorem tellAgeing_mem (s : State) (kind : Nat) (t : Tab AgeEntry) : (tellAgeing s kind t).mem = s.mem := by rw [tellAgeing_shape]

/-- R903: an hour's samples change only what has aged, and what the tray is told. -/
theorem predict_effect (s : State) (n : Nat) (obs : AgeingObs) :
    (predict s n obs).nv.hours = s.nv.hours ∧ (predict s n obs).nv.ageCommon.sampled = s.nv.ageCommon.sampled + n ∧
      (predict s n obs).nv.ageCommon.hours = obs.common.1 ∧ (predict s n obs).mem = s.mem ∧ (predict s n obs).nv.map = s.nv.map := by
  unfold predict
  simp only [tellAgeing_nv, tellAgeing_mem, and_self]

/-- Settles O35. -/
theorem selfTestAndAgeing : Obligations.SelfTestAndAgeing := by
  intro s v c inlet obs
  refine ⟨fun hrunning hout => ?_, fun hv hc hlow hhigh => ?_, fun hstate => ?_, fun hstate => ?_⟩
  · have hreason := sampleReason_out hout
    have hne : sampleReason v c inlet ≠ 0 := by
      rw [hreason]
      split
      · decide
      · split <;> decide
    exact ⟨_, congrArg Host.Outcome.next (sampleTest_out hrunning hne), rfl, rfl, rfl, rfl, hreason⟩
  · have hreason : sampleReason v c inlet = 0 := by
      simp [sampleReason, hv, hc, Int.not_lt.mpr hlow, Int.not_lt.mpr hhigh]
    exact congrArg Host.Outcome.next (sampleTest_within hreason)
  · have hrun : ageHour s obs = predict { s with nv := { s.nv with hours := s.nv.hours + 1 } } 1 obs :=
      if_neg (by rcases hstate with h | h | h <;> simp [h])
    exact ⟨_, congrArg Host.Outcome.next hrun, predict_effect _ 1 obs⟩
  · have hstop : ageHour s obs = s := if_pos (by rcases hstate with h | h <;> simp [h])
    exact congrArg Host.Outcome.next hstop

end Sys2Proof.Machine
end

section
/-! Pins, debug sessions and the debug port. -/

namespace Sys2Proof.Machine
open Sys2Proof.Claims

theorem setFirmware_mem (s : State) (b : Bool) : (setFirmware s b).mem = s.mem := by
  rw [setFirmware, conditionFell_shape]
  rfl

theorem noteDebugWrite_mem (s : State) : (noteDebugWrite s).mem = s.mem := by
  unfold noteDebugWrite
  split
  · rfl
  · exact setFirmware_mem ..

theorem dapRegisters_low {a : Nat} (h : a < 2 ^ 63) : dapRegisters a = false := by
  simp only [dapRegisters, Bool.and_eq_false_iff, decide_eq_false_iff_not]
  omega

section
variable {s : State} {a : Nat} (hserved : debugServed s = true) (hview : debugView s = 2) (ha : a < 2 ^ 63)
include hserved hview ha

theorem dapBurst_write {data : List Byte} (n : Nat) (hpowered : dapPowered s a data.length = true) :
    dapBurst s true a data n =
      noteDebugWrite { journal s 4 a data.length true with mem := writeMem s.mem a data } := by
  have hlow : decide (2 ^ 63 ≤ a) = false := decide_eq_false (by omega)
  have hpow : dapPowered (journal s 4 a data.length true) a data.length = true := hpowered
  unfold dapBurst
  dsimp only
  rw [if_neg (by simp [hserved, hview]), if_pos rfl, if_neg (by simp [dapRegisters_low ha]), hlow, if_pos (by simp [hview, hpow])]
  rfl

theorem dapBurst_read (data : List Byte) {n : Nat} (hpowered : dapPowered s a n = true) :
    dapBurst s false a data n = emit (journal s 4 a n false) (.dap a (readMem s.mem a n)) := by
  have hlow : decide (2 ^ 63 ≤ a) = false := decide_eq_false (by omega)
  have hpow : dapPowered (journal s 4 a n false) a n = true := hpowered
  unfold dapBurst
  dsimp only
  rw [if_neg (by simp [hserved, hview]), if_neg (by decide), if_neg (by simp [dapRegisters_low ha]), hlow, if_neg (by decide),
    if_pos (by simp [hview, hpow])]
  rfl
end

theorem dapBurst_closed {s : State} (h : debugView s = 0) (w : Bool) (a : Nat) (data : List Byte) (n : Nat) :
    dapBurst s w a data n = s :=
  if_pos (by simp [h])

/-- Settles O32. -/
theorem pinsAndTray : Obligations.PinsAndTray := by
  intro s a n code data
  refine ⟨fun hpin => ?_, rfl, fun at_ hat hover => ?_, fun at_ hat hsoon => ?_, fun full minutes at_ hsession hover => ?_,
    fun hserved hview ha => ⟨fun hpowered => ?_, fun hpowered => ?_⟩, fun hview w => ?_, fun hserved hview hcode => ?_⟩
  · generalize hu : ({ s with pins := { s.pins with modReset := true } } : State) = u
    have hexec : resetPinLow s = { powerGone u with sup := { (powerGone u).sup with alive := false } } := by
      rw [← hu]
      exact if_neg (by rw [hpin]; decide)
    refine ⟨_, congrArg Host.Outcome.next hexec, ?_, ?_, ?_, ?_, rfl, rfl, rfl⟩
    · rw [← hu]; rfl
    · rw [← hu]; rfl
    · exact (endSession_map u).trans (by rw [← hu])
    · rw [← hu]; rfl
  · have hexec : trayRequest s = { s with pins := { s.pins with trayReqAt := some s.clocks.sup, trayBusy := true } } := by
      simp only [trayRequest, hat, windowOver, hover, decide_true, if_true]
    exact congrArg Host.Outcome.next hexec
  · have hexec : trayRequest s = bump s ctrModTrayRefused 0 1 := by
      have hclosed : windowOver s.clocks.sup at_ ticksPerMs = false := decide_eq_false (Nat.not_le.mpr hsoon)
      rw [trayRequest, hat]
      exact if_neg (by rw [hclosed]; decide)
    exact congrArg Host.Outcome.next hexec
  · have hexec : sessionOver s = bump (endSession s) ctrModExpired 0 1 := by
      simp only [sessionOver, hsession, windowOver, hover, decide_true, if_true]
    exact ⟨_, congrArg Host.Outcome.next hexec, endSession_session s, endSession_mem s, endSession_map s⟩
  · exact ⟨_, congrArg Host.Outcome.next (dapBurst_write (s := probeSeen s) hserved hview ha n hpowered), noteDebugWrite_mem _⟩
  · exact ⟨_, congrArg Host.Outcome.next (dapBurst_read (s := probeSeen s) hserved hview ha data hpowered), rfl, List.mem_cons_self⟩
  · exact congrArg Host.Outcome.next (dapBurst_closed (s := probeSeen s) hview w a data n)
  · have htap : tapPermitted (debugView (probeSeen s)) code = 0 := by
      rw [show debugView (probeSeen s) = 0 from hview]
      exact if_neg (by simp; omega)
    have hexec : loadTap (probeSeen s) code = emit { probeSeen s with pins := { (probeSeen s).pins with tap := 0 } } (.tdo 0) := by
      unfold loadTap
      rw [if_neg (by simp [hserved]), htap]
      rfl
    exact congrArg Host.Outcome.next hexec

end Sys2Proof.Machine
end

section
/-! The end of a start, R879, R891 and R893. -/

namespace Sys2Proof.Machine
open Sys2Proof.Claims

/-! ## The conditions of HP_ASSURE, R716 -/

theorem setScrub_shape (s : State) (b : Bool) : setScrub s b = { s with
    sup := { s.sup with scrub := b, lapse := (setScrub s b).sup.lapse, holds := (setScrub s b).sup.holds, lapses := (setScrub s b).sup.lapses }
    counts := (setScrub s b).counts } := by
  unfold setScrub conditionFell
  split <;> rfl

theorem setSelfTest_shape (s : State) (b : Bool) : setSelfTest s b = { s with
    sup := { s.sup with
      selftest := b, lapse := (setSelfTest s b).sup.lapse, holds := (setSelfTest s b).sup.holds, lapses := (setSelfTest s b).sup.lapses }
    counts := (setSelfTest s b).counts } := by
  unfold setSelfTest conditionFell
  split <;> rfl

theorem setFirmware_shape (s : State) (b : Bool) : setFirmware s b = { s with
    sup := { s.sup with
      firmware := b, lapse := (setFirmware s b).sup.lapse, holds := (setFirmware s b).sup.holds, lapses := (setFirmware s b).sup.lapses }
    counts := (setFirmware s b).counts } := by
  unfold setFirmware conditionFell
  split <;> rfl

theorem setEnvelope_full (s : State) (b : Bool) : setEnvelope s b = { s with
    sup := { s.sup with
      envelope := b, lapse := (setEnvelope s b).sup.lapse, holds := (setEnvelope s b).sup.holds, lapses := (setEnvelope s b).sup.lapses }
    counts := (setEnvelope s b).counts } := by
  unfold setEnvelope conditionFell
  split <;> rfl

/-! ## Ready, R891 -/

/-- R891: the state that ready makes, before the four conditions are set. -/
def readied (s : State) : State :=
  let lit := (regionList s).filter (fun r => shedOf s r ≠ .dark)
  let now : Tab Nat := lit.map (fun r => (r, s.clocks.sup))
  { s with
    boot := { s.boot with phase := 6, running := false, elapsed := bootElapsed s }
    nv := { s.nv with startMark := false, wipePending := if s.boot.warm then s.nv.wipePending else false }
    caps := { s.caps with gen := 1 }
    sup := { s.sup with dapWrote := false, powerMove := none, checkDefault := 1, beat := now, aniseAt := now } }

/-- The four conditions of a state that is ready. -/
def assured (s : State) : State :=
  setEnvelope (setFirmware (setSelfTest (setScrub s true) true) true) (insideEnvelope s)

theorem setReady_eq (s : State) : setReady s =
    if s.caps.gen = 1 then assured (readied s) else hostEvent (assured (readied s)) evCaps := rfl

theorem assured_shape (s : State) : assured s = { s with
    sup := { s.sup with
      scrub := true, selftest := true, firmware := true, envelope := insideEnvelope s
      lapse := (assured s).sup.lapse, holds := (assured s).sup.holds, lapses := (assured s).sup.lapses }
    counts := (assured s).counts } := by
  rw [assured, setEnvelope_full, setFirmware_shape, setSelfTest_shape, setScrub_shape]

/-- A run over places at which nothing is done. -/
theorem each_idle {α σ : Type} {g : α → σ → σ} {l : List α} {s : σ} (h : ∀ a ∈ l, g a s = s) : each l s g = s := by
  induction l with
  | nil => rfl
  | cons a l ih =>
    have hstep : each (a :: l) s g = each l (g a s) g := rfl
    rw [hstep, h a List.mem_cons_self, ih (fun b hb => h b (List.mem_cons_of_mem _ hb))]

theorem regionCount_pos (o : Ordering) : 0 < regionCount o ∧ regionCount o ≤ 48 := by
  cases o <;> decide

theorem mem_regionList {s : State} {r : Nat} (h : r ∈ regionList s) : r < 48 :=
  Nat.lt_of_lt_of_le (List.mem_range.mp h) (regionCount_pos _).2

theorem holdShed_lit {s : State} (h : ∀ r, r < 48 → shedOf s r = .lit) : holdShed s = s := by
  have hnone : (regionList s).filter (fun r => shedOf s r = .dark && !(demandsOf s r).held) = [] := by
    refine List.filter_eq_nil_iff.mpr (fun r hr => ?_)
    simp [h r (mem_regionList hr)]
  rw [holdShed, hnone]
  rfl

theorem holdRegions_in {s : State} (h : ∀ r, r < 48 → ∃ k ∈ regionStacks r, s.caps.stacksOut.contains k = false) :
    holdRegions s [] = s := by
  refine each_idle (s := s) (fun r hr => if_neg ?_)
  obtain ⟨k, hk, hin⟩ := h r (mem_regionList hr)
  intro hall
  have hout := List.all_eq_true.mp hall k hk
  rw [hin] at hout
  cases hout

theorem not_all_dark {s : State} (h : ∀ r, r < 48 → shedOf s r = .lit) :
    ¬(regionList s).all (fun r => shedOf s r = .dark) = true := by
  intro hall
  have hdark := List.all_eq_true.mp hall 0 (List.mem_range.mpr (regionCount_pos _).1)
  rw [h 0 (by decide)] at hdark
  cases hdark

/-- R891: a start whose self-test is over, with every region lit and every march done, is ready. -/
theorem startReady_lit {s : State} (hrunning : s.boot.running = true) (htested : s.boot.tested = true) (hmarch : s.boot.march = [])
    (hlit : ∀ r, r < 48 → shedOf s r = .lit) (hin : ∀ r, r < 48 → ∃ k ∈ regionStacks r, s.caps.stacksOut.contains k = false) :
    Machine.startReady s = setReady (fuseImage s) := by
  unfold Machine.startReady
  rw [if_neg (by simp [hrunning, htested, hmarch]), holdShed_lit hlit, holdRegions_in hin]
  exact if_neg (not_all_dark hlit)

/-- R891: what ready leaves. -/
theorem setReady_effect (s : State) :
    let t := setReady s
    t.boot.phase = 6 ∧ t.boot.running = false ∧ t.caps.gen = 1 ∧ t.nv.startMark = false ∧ t.sup.scrub = true ∧
      t.sup.selftest = true ∧ t.sup.firmware = true ∧ t.sup.envelope = insideEnvelope t ∧ t.fuses = s.fuses := by
  intro t
  have hshape : t = { assured (readied s) with hp := t.hp, counts := t.counts, outbox := t.outbox } := by
    unfold t
    rw [setReady_eq]
    split
    · rfl
    · rw [hostEvent_shape]
  have hin : insideEnvelope t = insideEnvelope (readied s) := by
    refine insideEnvelope_congr ?_ ?_
    · rw [hshape, assured_shape]
    · rw [hshape, assured_shape]
  rw [hin, hshape, assured_shape]
  exact ⟨rfl, rfl, rfl, rfl, rfl, rfl, rfl, rfl, rfl⟩

theorem fuseImage_fuses (s : State) : (fuseImage s).fuses.lcCount = s.fuses.lcCount ∧ (fuseImage s).fuses.minSvn =
    if s.nv.activated then max s.fuses.minSvn (min s.nv.bootImage.svn 64) else s.fuses.minSvn := by
  unfold fuseImage
  cases s.nv.activated <;> exact ⟨rfl, rfl⟩

/-! ## A failed start, R893 -/

theorem settleAlert_shape (s : State) : settleAlert s =
    { s with pins := (settleAlert s).pins, sup := (settleAlert s).sup, outbox := (settleAlert s).outbox } := by
  unfold settleAlert
  dsimp only
  split <;> rfl

theorem startFails_effect (s : State) (code : Nat) :
    let t := startFails s code
    t.boot.phase = 7 ∧ t.boot.fail = code ∧ t.boot.running = false ∧ t.nv.startMark = false ∧ t.power = s.power ∧ t.fuses = s.fuses := by
  unfold startFails
  dsimp only
  rw [trayEvent_shape, settleAlert_shape]
  exact ⟨rfl, rfl, rfl, rfl, rfl, rfl⟩

/-- R879: a pause of 30 s moves the march of its stack on to its fifth element. -/
theorem marchGoesOn_third {s : State} {stack since : Nat} (hrunning : s.boot.running = true)
    (hmarch : look? s.boot.march stack = some (3, since)) (hover : since + 30 * ticksPerS ≤ regionNow s (regionOfStack stack)) :
    look? (marchGoesOn s stack [] 0).boot.march stack = some (5, regionNow s (regionOfStack stack)) := by
  unfold marchGoesOn
  rw [hmarch]
  dsimp only
  rw [if_neg (by simp [hrunning, windowOver, hover])]
  exact look?_put_same ..

/-- Settles O34. -/
theorem startsEnd : Obligations.StartsEnd := by
  intro s stack since code
  refine ⟨fun hrunning htested hmarch hlit hin => ?_, fun hrunning hmarch hover => ?_, fun hrunning hlow hhigh hact => ?_⟩
  · obtain ⟨hphase, hrun, hgen, hmark, hscrub, htest, hfirm, henv, hfuses⟩ := setReady_effect (fuseImage s)
    obtain ⟨hcount, hsvn⟩ := fuseImage_fuses s
    refine ⟨_, congrArg Host.Outcome.next (startReady_lit hrunning htested hmarch hlit hin), hphase, hrun, hgen, hmark, hscrub, htest,
      hfirm, henv, ?_, ?_⟩
    · rw [hfuses, hsvn]
    · rw [hfuses, hcount]
  · exact ⟨_, rfl, marchGoesOn_third hrunning hmarch hover⟩
  · have hfail : (if s.boot.running && decide (1 ≤ code ∧ code ≤ 6) then giveUpStart s code else s) = startFails s code := by
      rw [if_pos (by simp [hrunning, hlow, hhigh]), giveUpStart, hact]
      rfl
    obtain ⟨hphase, hcode, hrun, hmark, hpower, -⟩ := startFails_effect s code
    exact ⟨_, congrArg Host.Outcome.next hfail, hphase, hcode, hrun, hmark, congrArg Power.state hpower⟩

end Sys2Proof.Machine
end

section
namespace Sys2Proof.Machine
/-- What a start has fixed before its phase 5 and no later step of it moves, its memory among it. -/
def midStart (s : State) : PowerState × Bool × Boot × Tab Core × Memory :=
  (s.power.state, s.nv.startMark, s.boot, s.cores, s.mem)
end Sys2Proof.Machine
end

section
/-! Further parts of the state that operations leave as they were. -/

namespace Sys2Proof.Machine

@[simp] theorem raiseMsix_boot (s : State) (v : Nat) : (raiseMsix s v).boot = s.boot := by
  grind [raiseMsix, bump_boot, emit_boot]

@[simp] theorem raiseMsix_cores (s : State) (v : Nat) : (raiseMsix s v).cores = s.cores := by
  grind [raiseMsix, bump_cores, emit_cores]

@[simp] theorem raiseMsix_mem (s : State) (v : Nat) : (raiseMsix s v).mem = s.mem := by
  grind [raiseMsix, bump_mem, emit_mem]

@[simp] theorem raiseMsix_nv (s : State) (v : Nat) : (raiseMsix s v).nv = s.nv := by
  grind [raiseMsix, bump_nv, emit_nv]

@[simp] theorem hostEvent_boot (s : State) (bit : Nat) : (hostEvent s bit).boot = s.boot := by
  grind [hostEvent, raiseMsix_boot]

@[simp] theorem hostEvent_cores (s : State) (bit : Nat) : (hostEvent s bit).cores = s.cores := by
  grind [hostEvent, raiseMsix_cores]

@[simp] theorem hostEvent_mem (s : State) (bit : Nat) : (hostEvent s bit).mem = s.mem := by
  grind [hostEvent, raiseMsix_mem]

@[simp] theorem hostEvent_nv (s : State) (bit : Nat) : (hostEvent s bit).nv = s.nv := by
  grind [hostEvent, raiseMsix_nv]

@[simp] theorem mctp_boot (s : State) (code : Nat) (payload : List Byte) : (mctp s code payload).boot = s.boot := by rfl

@[simp] theorem mctp_cores (s : State) (code : Nat) (payload : List Byte) : (mctp s code payload).cores = s.cores := by rfl

@[simp] theorem mctp_power (s : State) (code : Nat) (payload : List Byte) : (mctp s code payload).power = s.power := by rfl

@[simp] theorem trayEvent_boot (s : State) (event : Nat) (detail : List Byte) : (trayEvent s event detail).boot = s.boot := by rfl

@[simp] theorem trayEvent_cores (s : State) (event : Nat) (detail : List Byte) : (trayEvent s event detail).cores = s.cores := by rfl

@[simp] theorem trayEvent_power (s : State) (event : Nat) (detail : List Byte) : (trayEvent s event detail).power = s.power := by rfl

@[simp] theorem detect_boot (s : State) (el : Element) (code : Nat) (hard : Bool) (place : Nat) : (detect s el code hard
    place).boot = s.boot := by rfl

@[simp] theorem detect_cores (s : State) (el : Element) (code : Nat) (hard : Bool) (place : Nat) : (detect s el code hard
    place).cores = s.cores := by rfl

@[simp] theorem detect_mem (s : State) (el : Element) (code : Nat) (hard : Bool) (place : Nat) : (detect s el code hard
    place).mem = s.mem := by rfl

@[simp] theorem detect_nv (s : State) (el : Element) (code : Nat) (hard : Bool) (place : Nat) : (detect s el code hard place).nv
    = s.nv := by rfl

@[simp] theorem capsChanged_boot (s : State) : (capsChanged s).boot = s.boot := by
  simp [capsChanged]

@[simp] theorem capsChanged_cores (s : State) : (capsChanged s).cores = s.cores := by
  simp [capsChanged]

@[simp] theorem capsChanged_mem (s : State) : (capsChanged s).mem = s.mem := by
  simp [capsChanged]

@[simp] theorem capsChanged_nv (s : State) : (capsChanged s).nv = s.nv := by
  simp [capsChanged]

@[simp] theorem closeRoutes_boot (s : State) : (closeRoutes s).boot = s.boot := by rfl

@[simp] theorem closeRoutes_cores (s : State) : (closeRoutes s).cores = s.cores := by rfl

@[simp] theorem closeRoutes_mem (s : State) : (closeRoutes s).mem = s.mem := by rfl

@[simp] theorem closeRoutes_nv (s : State) : (closeRoutes s).nv = s.nv := by rfl

@[simp] theorem closeRoutes_power (s : State) : (closeRoutes s).power = s.power := by rfl

@[simp] theorem writeShadow_boot (s : State) (writes narrow : List (Nat × Nat × Nat)) : (writeShadow s writes narrow).boot =
    s.boot := by rfl

@[simp] theorem writeShadow_cores (s : State) (writes narrow : List (Nat × Nat × Nat)) : (writeShadow s writes narrow).cores =
    s.cores := by rfl

@[simp] theorem writeShadow_mem (s : State) (writes narrow : List (Nat × Nat × Nat)) : (writeShadow s writes narrow).mem = s.mem
    := by rfl

@[simp] theorem writeShadow_nv (s : State) (writes narrow : List (Nat × Nat × Nat)) : (writeShadow s writes narrow).nv = s.nv := by rfl

@[simp] theorem writeShadow_power (s : State) (writes narrow : List (Nat × Nat × Nat)) : (writeShadow s writes narrow).power =
    s.power := by rfl

@[simp] theorem buildRoutes_boot (s : State) (writes narrow : List (Nat × Nat × Nat)) : (buildRoutes s writes narrow).boot =
    s.boot := by
  grind [buildRoutes, writeShadow_boot]

@[simp] theorem buildRoutes_cores (s : State) (writes narrow : List (Nat × Nat × Nat)) : (buildRoutes s writes narrow).cores =
    s.cores := by
  grind [buildRoutes, writeShadow_cores]

@[simp] theorem buildRoutes_mem (s : State) (writes narrow : List (Nat × Nat × Nat)) : (buildRoutes s writes narrow).mem = s.mem
    := by
  grind [buildRoutes, writeShadow_mem]

@[simp] theorem buildRoutes_nv (s : State) (writes narrow : List (Nat × Nat × Nat)) : (buildRoutes s writes narrow).nv = s.nv :=
    by
  grind [buildRoutes, writeShadow_nv]

@[simp] theorem buildRoutes_power (s : State) (writes narrow : List (Nat × Nat × Nat)) : (buildRoutes s writes narrow).power =
    s.power := by
  grind [buildRoutes, writeShadow_power]

@[simp] theorem addRecord_midStart (s : State) (d : DefectRec) : midStart (addRecord s d) = midStart s := by
  unfold addRecord; split <;> simp [midStart]

@[simp] theorem appendRecord_midStart (s : State) (el : Element) (origin cause : Nat) : midStart (appendRecord s el origin
    cause) = midStart s := by
  grind [appendRecord, addRecord_midStart, midStart]

@[simp] theorem takeOut_midStart (s : State) (el : Element) (origin cause : Nat) : midStart (takeOut s el origin cause) =
    midStart s := by
  grind [takeOut, appendRecord_midStart, bump_power, capsChanged_power, bump_nv, capsChanged_nv, bump_boot, capsChanged_boot,
    bump_cores, capsChanged_cores, bump_mem, capsChanged_mem, midStart]

@[simp] theorem onDemands_midStart (s : State) (r : Nat) (f : Demands → Demands) : midStart (onDemands s r f) = midStart s := by rfl

@[simp] theorem setShed_midStart (s : State) (r : Nat) (step : Shed) : midStart (setShed s r step) = midStart s := by
  grind [setShed, bump_power, capsChanged_power, bump_nv, capsChanged_nv, bump_boot, capsChanged_boot, bump_cores,
    capsChanged_cores, bump_mem, capsChanged_mem, midStart]

@[simp] theorem tellAgeing_boot (s : State) (kind : Nat) (t : Tab AgeEntry) : (tellAgeing s kind t).boot = s.boot := by
  simp [tellAgeing, each_keeps State.boot]

@[simp] theorem tellAgeing_cores (s : State) (kind : Nat) (t : Tab AgeEntry) : (tellAgeing s kind t).cores = s.cores := by
  simp [tellAgeing, each_keeps State.cores]

@[simp] theorem tellAgeing_power (s : State) (kind : Nat) (t : Tab AgeEntry) : (tellAgeing s kind t).power = s.power := by
  simp [tellAgeing, each_keeps State.power]

@[simp] theorem predict_midStart (s : State) (n : Nat) (obs : AgeingObs) : midStart (predict s n obs) = midStart s := by
  grind [predict, tellAgeing_power, tellAgeing_nv, tellAgeing_boot, tellAgeing_cores, tellAgeing_mem, midStart]

@[simp] theorem applyFences_boot (s : State) : (applyFences s).boot = s.boot := by
  grind [applyFences, capsChanged_boot, each_or State.boot]

@[simp] theorem applyFences_cores (s : State) : (applyFences s).cores = s.cores := by
  grind [applyFences, capsChanged_cores, each_or State.cores]

@[simp] theorem applyFences_mem (s : State) : (applyFences s).mem = s.mem := by
  grind [applyFences, capsChanged_mem, each_or State.mem]

@[simp] theorem applyFences_nv (s : State) : (applyFences s).nv = s.nv := by
  grind [applyFences, capsChanged_nv, each_or State.nv]

@[simp] theorem applyFences_power (s : State) : (applyFences s).power = s.power := by
  grind [applyFences, capsChanged_power, each_or State.power]

@[simp] theorem withdrawStack_midStart (s : State) (stack : Nat) : midStart (withdrawStack s stack) = midStart s := by
  grind [withdrawStack, appendRecord_midStart, capsChanged_power, capsChanged_nv, capsChanged_boot, capsChanged_cores,
    capsChanged_mem, midStart]

@[simp] theorem testFences_midStart (s : State) (l : List Element) (cause : Nat) : midStart (testFences s l cause) = midStart s
    := by
  grind [testFences, takeOut_midStart, detect_power, detect_nv, detect_boot, detect_cores, detect_mem, each_or midStart,
    midStart]

@[simp] theorem startFences_midStart (s : State) (l : List Element) (cause : Nat) : midStart (startFences s l cause) = midStart
    s := by
  grind [startFences, testFences_midStart, bump_power, bump_nv, bump_boot, bump_cores, bump_mem, midStart]

@[simp] theorem marchPages_midStart (s : State) (stack : Nat) (bad : List Nat) : midStart (marchPages s stack bad) = midStart s
    := by
  grind [marchPages, takeOut_midStart, withdrawStack_midStart, bump_power, bump_nv, bump_boot, bump_cores, bump_mem, each_or
    midStart, midStart]

@[simp] theorem warmPages_midStart (s : State) (bad : List Nat) : midStart (warmPages s bad) = midStart s := by
  grind [warmPages, marchPages_midStart, each_or midStart, midStart]

@[simp] theorem shutRegion_midStart (s : State) (r : Nat) : midStart (shutRegion s r) = midStart s := by
  grind [shutRegion, onDemands_midStart, setShed_midStart, midStart]

@[simp] theorem holdDark_midStart (s : State) (r cause : Nat) : midStart (holdDark s r cause) = midStart s := by
  grind [holdDark, appendRecord_midStart, shutRegion_midStart, midStart]

@[simp] theorem holdFenced_midStart (s : State) : midStart (holdFenced s) = midStart s := by
  grind [holdFenced, shutRegion_midStart, each_or midStart, midStart]

@[simp] theorem holdRegions_midStart (s : State) (dark : List Nat) : midStart (holdRegions s dark) = midStart s := by
  grind [holdRegions, holdDark_midStart, each_or midStart, midStart]

end Sys2Proof.Machine
end

section
/-! O33: a start that may not begin, one that fails, and one that goes on to phase 5. -/
namespace Sys2Proof.Machine
open Sys2Proof.Claims

theorem look?_filter_none {α : Type} {p : Nat × α → Bool} {a : Nat} (h : ∀ v, p (a, v) = false) (t : Tab α) :
    look? (t.filter p) a = none := by
  induction t with
  | nil => rfl
  | cons e t ih =>
    obtain ⟨x, v⟩ := e
    by_cases hx : x = a
    · subst hx
      rw [List.filter_cons_of_neg (by simp [h v])]
      exact ih
    · cases hp : p (x, v) <;> simp [hp, look?, hx, ih]

/-- A start leaves memory below the tier addresses zero (R881). -/
theorem zeroMemories_low (s : State) (warm : Bool) {a : Nat} (ha : a < 2 ^ 48) :
    readByte (zeroMemories s warm).mem.cells a = 0 := by
  have hn : ¬ 2 ^ 48 ≤ a := Nat.not_le.mpr ha
  have h := look?_filter_none (p := fun c : Nat × Byte => warm && decide (2 ^ 48 ≤ c.1) && decide (c.1 < 2 ^ 52)) (a := a)
    (fun v => by simp only [decide_eq_false hn, Bool.and_false, Bool.false_and]) s.mem.cells
  unfold readByte look
  exact congrArg (fun o => o.getD 0) h

theorem startTier_mem (s : State) (port : Nat) (link : Nat × Nat) (devices : List Nat) (warm : Bool) :
    (startTier s port link devices [] warm).mem = s.mem := by
  unfold startTier
  extract_lets t all_ linesOf good dropped placed_ lines u v
  have hlines : lines = [] := by
    have hl : linesOf = fun _ => [] := rfl
    cases warm <;> simp [lines, hl]
  rw [bump_mem, bump_mem]
  change each lines u.mem _ = _
  rw [hlines]
  rfl

theorem startTier_midStart (s : State) (port : Nat) (link : Nat × Nat) (devices : List Nat) (warm : Bool) :
    midStart (startTier s port link devices [] warm) = midStart s := by
  have hmem := startTier_mem s port link devices warm
  unfold midStart
  rw [hmem]
  rfl

theorem tierChanged_midStart (old s : State) (port : Nat) : midStart (tierChanged old s port) = midStart s := by
  unfold tierChanged capsChanged midStart
  grind [hostEvent_power, hostEvent_nv, hostEvent_boot, hostEvent_cores, hostEvent_mem]

theorem startTiers_midStart (s : State) (obs : StartObs) (warm : Bool) (h : obs.tierBad = []) :
    midStart (startTiers s obs warm) = midStart s := by
  unfold startTiers
  refine each_keeps midStart (fun p t => ?_) _ s
  rw [h, List.filter_nil, List.map_nil, tierChanged_midStart, startTier_midStart]
  rfl

theorem beginMarch_midStart (s : State) :
    ∃ march, midStart (beginMarch s) = (s.power.state, s.nv.startMark, { s.boot with march := march }, s.cores, s.mem) :=
  ⟨_, rfl⟩

/-- With no stack dead, no fused answer and no tier line bad a start goes on to phase 5, over the memory it has cleared (R881, R886). -/
theorem startUnits_effect (s : State) (obs : StartObs) (hstacks : obs.deadStacks = []) 
    (hbad : obs.tierBad = [])
    (hfused : obs.fusedAnswer = false) :
    let t := startUnits s obs
    t.boot.phase = 5 ∧ t.boot.tested = true ∧ t.boot.running = s.boot.running ∧ t.nv.startMark = s.nv.startMark ∧
      t.power.state = s.power.state ∧ t.cores = [] ∧ t.mem = (zeroMemories (powerUnits s) s.boot.warm).mem := by
  unfold startUnits
  rw [hstacks, hfused, if_neg Bool.false_ne_true]
  extract_lets pages fenced routed told aged marched _ t
  have hcleared : midStart (zeroMemories (powerUnits s) s.boot.warm) =
    (s.power.state, s.nv.startMark, s.boot, [], (zeroMemories (powerUnits s) s.boot.warm).mem) := rfl
  have hpages : midStart pages = midStart (zeroMemories (powerUnits s) s.boot.warm) := by
    have htiers := startTiers_midStart (zeroMemories (powerUnits s) s.boot.warm) obs s.boot.warm hbad
    unfold pages
    split
    · exact (warmPages_midStart _ _).trans htiers
    · exact htiers
  have hfenced : midStart fenced = midStart pages := by simp only [fenced, startFences_midStart, holdRegions_midStart, holdFenced_midStart]
  have hrouted : midStart routed = midStart fenced := by
    simp only [routed, midStart, closeRoutes_power, closeRoutes_nv, closeRoutes_boot, closeRoutes_cores, closeRoutes_mem,
      buildRoutes_power, buildRoutes_nv, buildRoutes_boot, buildRoutes_cores, buildRoutes_mem]
  have htold : midStart told = midStart routed := startFences_midStart routed obs.wrong 0x14
  have haged : midStart aged = midStart told := by
    unfold aged
    split
    · exact predict_midStart _ _ _
    · rfl
  have hmarched : ∃ march, midStart marched = (aged.power.state, aged.nv.startMark, { aged.boot with march := march }, aged.cores, aged.mem) := by
    unfold marched
    split
    · exact ⟨aged.boot.march, rfl⟩
    · exact beginMarch_midStart aged
  have hall := haged.trans (htold.trans (hrouted.trans (hfenced.trans (hpages.trans hcleared))))
  clear_value marched aged
  obtain ⟨march, hmarch⟩ := hmarched
  simp only [midStart, Prod.mk.injEq] at hmarch hall
  obtain ⟨hp, hn, hb, hc, hm⟩ := hall
  obtain ⟨hp', hn', hb', hc', hm'⟩ := hmarch
  have hran : marched.boot.running = aged.boot.running := by rw [hb']
  exact ⟨rfl, rfl, hran.trans (by rw [hb]), hn'.trans hn, hp'.trans hp, hc'.trans hc, hm'.trans hm⟩

/-- What a start looks at beyond the state it began in. -/
def lookedAt (s : State) : Boot × PowerState × Fuses × Bool × Bool × Nat × List Element × List DefectRec :=
  (s.boot, s.power.state, s.fuses, s.nv.startMark, s.nv.keysHeld, s.nv.sealedAt, s.nv.fenceBits, s.nv.map)

theorem settleTestMark_lookedAt (s : State) : lookedAt (settleTestMark s) = lookedAt s := by
  unfold settleTestMark
  split <;> rfl

/-- R886: what a start that may begin leaves before it looks for an image. -/
theorem beginStart_effect (s : State) :
    let t := beginStart s
    t.boot.running = true ∧ t.power.state = .m0 ∧ t.fuses = s.fuses ∧ t.nv.startMark = true ∧ t.nv.keysHeld = s.nv.keysHeld ∧
      t.nv.sealedAt = s.nv.sealedAt ∧ t.nv.fenceBits = s.nv.fenceBits ∧ t.nv.map = s.nv.map := by
  have h := settleTestMark_lookedAt s
  unfold beginStart
  extract_lets reason marked counted fallen wiped
  have hcounted : lookedAt counted = lookedAt s := h
  have hfallen : lookedAt fallen = lookedAt s := by
    rw [← hcounted]
    unfold fallen
    split <;> rfl
  have hwiped : lookedAt wiped = lookedAt s := by
    rw [← hfallen]
    unfold wiped
    split <;> rfl
  clear_value wiped
  simp only [lookedAt, Prod.mk.injEq] at hwiped
  obtain ⟨_, _, hf, _, hk, hs, hb, hm⟩ := hwiped
  exact ⟨rfl, rfl, hf, rfl, hk, hs, hb, hm⟩

/-- R847: an image that verifies is picked, and nothing but the boot images moves. -/
theorem pickImage_good (s : State) (obs : StartObs) (h : obs.imageOk = true) :
    ∃ t, pickImage s obs = some t ∧ lookedAt t = lookedAt s := by
  unfold pickImage
  rw [if_pos h]
  cases s.nv.nextImage <;> exact ⟨_, rfl, rfl⟩

theorem pickImage_none (s : State) (obs : StartObs) (h : obs.imageOk = false) (hprev : obs.prevOk = false) :
    pickImage s obs = none := by
  unfold pickImage
  rw [h, hprev]
  rfl

theorem nameFences_none (s : State) (h : s.nv.fenceBits = []) : nameFences s = s := by
  unfold nameFences
  rw [h]
  rfl

theorem applyFences_lookedAt (s : State) : lookedAt (applyFences s) = lookedAt s := by
  have hnv := applyFences_quiet s
  unfold lookedAt
  rw [applyFences_power, applyFences_boot, nv_of_quiet hnv, fuses_of_quiet hnv]

theorem start_of_may {s : State} (h : mayStart s = true) (obs : StartObs) :
    start s obs = match pickImage (beginStart s) obs with
      | none => startFails (beginStart s) 1
      | some t =>
        if t.nv.keysHeld && !(obs.keyOk && t.nv.sealedAt = t.fuses.lcCount) then startFails t 2
        else if !obs.mapOk then startFails t 3
        else if (applyFences (nameFences t)).fuses.life = .scrapped then scrappedStart (applyFences (nameFences t))
        else startUnits (applyFences (nameFences t)) obs := by
  unfold start
  rw [h]
  rfl

theorem slotOf_of_no_cores {s : State} (h : s.cores = []) (c k : Nat) : (slotOf s c k).state = .empty := by
  unfold slotOf coreOf
  rw [h]
  rfl

/-- Settles O33: each clause follows the start to the row that ends it, phase 5 over the units it has begun. -/
theorem startsBegin : Obligations.StartsBegin := by
  intro s obs
  obtain ⟨hrun, hm0, hfuses, hmark, hkeys, hsealed, hbits, hmap⟩ := beginStart_effect s
  refine ⟨fun h => ?_, fun h himage hprev => ⟨start s obs, rfl, ?_⟩, fun h himage hheld hkey => ⟨start s obs, rfl, ?_⟩,
    fun h himage hkey hs hmapOk hfused hstacks _ _ _ _ hbad _ hnofence _ hlife => ⟨start s obs, rfl, ?_⟩⟩
  · have hs : start s obs = s := by
      unfold start
      rw [h]
      rfl
    exact congrArg Host.Outcome.next hs
  · rw [start_of_may h, pickImage_none _ _ himage hprev]
    obtain ⟨hphase, hfail, hoff, hclear, _, hf⟩ := startFails_effect (beginStart s) 1
    exact ⟨hphase, hfail, hoff, hclear, hf.trans hfuses⟩
  · obtain ⟨t, ht, hl⟩ := pickImage_good (beginStart s) obs himage
    simp only [lookedAt, Prod.mk.injEq] at hl
    obtain ⟨_, _, hlf, _, hlk, _, _, _⟩ := hl
    rw [start_of_may h, ht]
    dsimp only
    rw [if_pos (by rw [hlk, hkeys, hheld, hkey]; rfl)]
    obtain ⟨hphase, hfail, hoff, _, _, hf⟩ := startFails_effect t 2
    exact ⟨hphase, hfail, hoff, hf.trans (hlf.trans hfuses)⟩
  · obtain ⟨t, ht, hl⟩ := pickImage_good (beginStart s) obs himage
    have ha := (applyFences_lookedAt t).trans hl
    simp only [lookedAt, Prod.mk.injEq] at hl ha
    obtain ⟨_, _, hlf, _, _, hls, hlb, _⟩ := hl
    obtain ⟨hab, hap, haf, ham, _, _, _, _⟩ := ha
    rw [start_of_may h, ht]
    dsimp only
    rw [if_neg (by rw [hls, hsealed, hlf, hfuses, hkey]; simp [hs]), if_neg (by rw [hmapOk]; decide),
      nameFences_none t (by rw [hlb, hbits, hnofence]), if_neg (by rw [haf, hfuses, hlife]; decide)]
    obtain ⟨hphase, htested, hrunning, hstart, hstate, hcores, hmem⟩ := startUnits_effect (applyFences t) obs hstacks hbad hfused
    refine ⟨hphase, htested, ?_, hstart.trans (ham.trans hmark), hstate.trans (hap.trans hm0), fun a ha => ?_,
      slotOf_of_no_cores hcores⟩
    · rw [hrunning, hab, hrun]
    · rw [hmem]
      exact zeroMemories_low _ _ ha

end Sys2Proof.Machine
end

section
/-! O36: slice.create, slice.destroy, slice.reset and reset.escalate. -/
namespace Sys2Proof.Machine
open Sys2Proof.Claims

theorem setRun_shape (s : State) (f k : Nat) (r : Running) : setRun s f k r = { s with frames := (setRun s f k r).frames } := rfl

theorem settle_setRun (s : State) (f k : Nat) (r : Running) (code : Nat) (resp : List Byte) :
    (mbSlot (settle (setRun s f k r) f k code resp) f k).run = some { r with wait := .nothing, code := code, resp := resp } := by
  rw [settle_of_run (mbSlot_setRun s f k r), mbSlot_setRun]

theorem await_run {s : State} {f k : Nat} {r : Running} (h : (mbSlot s f k).run = some r) (w : Wait) :
    (mbSlot (await s f k w) f k).run = some { r with wait := w } := by
  rw [await_of_run h, mbSlot_setRun]

theorem await_shape {s : State} {f k : Nat} {r : Running} (h : (mbSlot s f k).run = some r) (w : Wait) :
    await s f k w = { s with frames := (await s f k w).frames } := by
  rw [await_of_run h]
  rfl

@[simp] theorem settle_slices (s : State) (f k code : Nat) (resp : List Byte) : (settle s f k code resp).slices = s.slices := by
  rw [settle_shape]

@[simp] theorem settle_pins (s : State) (f k code : Nat) (resp : List Byte) : (settle s f k code resp).pins = s.pins := by
  rw [settle_shape]

/-! ## Asking the tray for a power cycle, R940 and R941 -/

theorem settleAlert_alert (s : State) : (settleAlert s).pins.alert = decide (alertCauses s ≠ 0) := by
  unfold settleAlert
  dsimp only
  split
  · rename_i h
    exact h.symm
  · rfl

theorem alertCauses_of_cycle {s : State} (h : s.sup.cycleAsked = true) : alertCauses s ≠ 0 := by
  rw [alertCauses, h]
  have hbn : bn true = 1 := rfl
  omega

/-- The alert is raised while a power cycle is asked for. -/
theorem settleAlert_asked {s : State} (h : s.sup.cycleAsked = true) :
    let t := settleAlert s
    t.sup.cycleAsked = true ∧ t.pins.alert = true ∧ t.frames = s.frames ∧ t.mem = s.mem ∧ t.slices = s.slices := by
  have hsup : (settleAlert s).sup.cycleAsked = s.sup.cycleAsked := by
    unfold settleAlert
    dsimp only
    split <;> rfl
  refine ⟨hsup.trans h, (settleAlert_alert s).trans (decide_eq_true (alertCauses_of_cycle h)), ?_⟩
  rw [settleAlert_shape]
  exact ⟨rfl, rfl, rfl⟩

/-- A power cycle asked for raises TRAY_ALERT_N and touches neither memory, slices nor frames. -/
theorem askCycle_effect {s : State} (h : s.sup.cycleAsked = false) (trigger : Nat) :
    let t := askCycle s trigger
    t.sup.cycleAsked = true ∧ t.pins.alert = true ∧ t.frames = s.frames ∧ t.mem = s.mem ∧ t.slices = s.slices := by
  unfold askCycle
  rw [h, if_neg Bool.false_ne_true]
  extract_lets _ t out
  have ht : t.sup.cycleAsked = true ∧ t.frames = s.frames ∧ t.mem = s.mem ∧ t.slices = s.slices := ⟨rfl, rfl, rfl, rfl⟩
  obtain ⟨hcycle, hf, hm, hs⟩ := ht
  obtain ⟨hasked, halert, hf', hm', hs'⟩ := settleAlert_asked (s := trayEvent t 1 (bytesOf 1 4 ++ bytesOf 1 trigger ++ bytesOf 4 0)) hcycle
  exact ⟨hasked, halert, hf'.trans hf, hm'.trans hm, hs'.trans hs⟩

/-! ## A reset that is asked for, R702 and R826 -/

theorem askReset_covered {s : State} {f k domain target : Nat} {x : Reset} (h : covering s domain target = some x) :
    askReset s f k domain target = await s f k (.reset x.id) := by
  rw [askReset, h]

/-- The reset that a command asks for. -/
def resetAsked (s : State) (domain target : Nat) : Reset :=
  { id := s.sup.nextReset, domain := domain, target := target, trigger := 2, since := s.clocks.sup, holding := [], begun := false,
    cls := 0, config := 0, repair := none }

/-- A reset that none covers is decided and waited for. -/
theorem askReset_effect {s : State} {f k domain target : Nat} {r : Running} (hrun : (mbSlot s f k).run = some r)
    (h : covering s domain target = none) :
    let t := askReset s f k domain target
    t.sup.resets = s.sup.resets ++ [resetAsked s domain target] ∧ t.sup.nextReset = s.sup.nextReset + 1 ∧
      (mbSlot t f k).run = some { r with wait := .reset s.sup.nextReset } ∧ t = { s with sup := t.sup, frames := t.frames } := by
  have hask : askReset s f k domain target = await (decideReset s domain target 2 0 0 [] none) f k (.reset s.sup.nextReset) := by
    rw [askReset, h]
  have hrun' : (mbSlot (decideReset s domain target 2 0 0 [] none) f k).run = some r := hrun
  dsimp only
  rw [hask, await_of_run hrun']
  exact ⟨rfl, rfl, mbSlot_setRun .., rfl⟩

/-- With no other slice being destroyed the row looks at its own. -/
theorem destroySlice_idle {s : State} (h : s.sup.destroys = []) (f k : Nat) :
    destroySlice s f k = act s f k 0x0402 (fun r =>
      match look? s.slices r.handle with
      | none => settle s f k 5 []
      | some _ =>
        let s := destroyStep s r.handle
        if (look? s.slices r.handle).isNone then settle s f k 0 []
        else if (look? s.slices r.handle).any (fun l => l.state = .resetting) then s
        else await s f k (.destroy r.handle)) := by
  unfold destroySlice
  rw [h]
  rfl

/-- Settles O36. -/
theorem sliceCommands : Obligations.SliceCommands := by
  intro s f k r
  refine ⟨fun hdue hcode => ?_, fun hdue hcode => ?_, fun hdue hnone hsome hgone => ?_, fun hdue hcov => ?_,
    fun hdue x hcov => ?_, fun hdue hbad => ?_, fun hdue hdomain htarget hasked => ?_, fun hdue hdomain hgood hcov => ?_⟩
  · have hact : createSlice s f k = settle s f k (createCode s (wantedOf r.payload)) [] :=
      (act_of_due hdue _).trans (if_pos hcode)
    exact settles_of_exec (congrArg Host.Outcome.next hact) (run_of_due hdue)
  · refine ⟨createSlice s f k, rfl, ?_⟩
    have hact : createSlice s f k = _ := (act_of_due hdue _).trans (if_neg (not_not_intro hcode))
    rw [hact]
    refine ⟨?_, settle_setRun _ _ _ _ _ _⟩
    rw [settle_slices, setRun_slices, bump_slices]
    exact look?_put_same _ _ _
  · have hact : destroySlice s f k = settle (destroyStep s r.handle) f k 0 [] := by
      obtain ⟨l, hl⟩ := Option.isSome_iff_exists.mp hsome
      rw [destroySlice_idle hnone, act_of_due hdue, hl]
      exact if_pos hgone
    exact congrArg Host.Outcome.next hact
  · obtain ⟨hresets, hnext, hrun, hshape⟩ := askReset_effect (run_of_due hdue) hcov
    have hact : sliceReset s f k = askReset s f k 2 r.handle := act_of_due hdue _
    rw [← hact] at hresets hnext hrun hshape
    exact ⟨sliceReset s f k, resetAsked s 2 r.handle, rfl, hresets, rfl, rfl, rfl, rfl, hnext, hrun, hshape⟩
  · have hact : sliceReset s f k = await s f k (.reset x.id) := (act_of_due hdue _).trans (askReset_covered hcov)
    refine ⟨_, congrArg Host.Outcome.next hact, await_run (run_of_due hdue) _, await_shape (run_of_due hdue) _⟩
  · have hact : escalateReset s f k = settle s f k 0x20 [] := (act_of_due hdue _).trans (if_pos (by rw [hbad]; rfl))
    exact settles_of_exec (congrArg Host.Outcome.next hact) (run_of_due hdue)
  · have hgood : targetGood s (bitsOf (head8 r) 0 3) (bitsOf (head8 r) 32 32) = true := by
      rw [hdomain, htarget]
      rfl
    have hact : escalateReset s f k = settle (askCycle s 2) f k 0 [] :=
      (act_of_due hdue _).trans ((if_neg (by rw [hgood]; decide)).trans (if_pos hdomain))
    obtain ⟨hcycle, halert, hframes, hmem, hslices⟩ := askCycle_effect hasked 2
    refine ⟨_, congrArg Host.Outcome.next hact, ?_, ?_, answered_settle (run_congr hframes (run_of_due hdue)) 0 [], ?_, ?_⟩
    · rw [settle_sup, hcycle]
    · rw [settle_pins, halert]
    · rw [settle_mem, hmem]
    · rw [settle_slices, hslices]
  · obtain ⟨hresets, _, hrun, hshape⟩ := askReset_effect (run_of_due hdue) hcov
    have hact : escalateReset s f k = askReset s f k (bitsOf (head8 r) 0 3) (bitsOf (head8 r) 32 32) :=
      (act_of_due hdue _).trans ((if_neg (by rw [hgood]; decide)).trans (if_neg (by omega)))
    rw [← hact] at hresets hrun hshape
    exact ⟨escalateReset s f k, resetAsked s _ _, rfl, hresets, rfl, rfl, hrun, hshape⟩

end Sys2Proof.Machine
end

section
namespace Sys2Proof.Machine
theorem nv_of_stored {s t : State} (h : stored s = stored t) : s.nv = t.nv := (stored_eq_iff.mp h).2.2

theorem fuses_of_stored {s t : State} (h : stored s = stored t) : s.fuses = t.fuses := (stored_eq_iff.mp h).2.1

theorem nv_of_boxed {s t : State} (h : boxed s = boxed t) : s.nv = t.nv := nv_of_stored (stored_of_boxed h)

theorem fuses_of_boxed {s t : State} (h : boxed s = boxed t) : s.fuses = t.fuses := fuses_of_stored (stored_of_boxed h)

theorem frames_of_boxed {s t : State} (h : boxed s = boxed t) : s.frames = t.frames := (boxed_eq_iff.mp h).2
end Sys2Proof.Machine
end

section
/-! Further parts of the state that operations leave as they were. -/

namespace Sys2Proof.Machine

@[simp] theorem leaveDomain_frames (s : State) : (leaveDomain s).frames = s.frames :=
  frames_of_quiet (leaveDomain_quiet ..)

@[simp] theorem haltOwners_frames (s : State) (l : List (Unit × Nat × Nat)) : (haltOwners s l).frames = s.frames :=
  frames_of_quiet (haltOwners_quiet ..)

@[simp] theorem capsChanged_frames (s : State) : (capsChanged s).frames = s.frames :=
  frames_of_quiet (capsChanged_quiet ..)

@[simp] theorem movePages_frames (s : State) (stack page : Nat) : (movePages s stack page).frames = s.frames :=
  frames_of_quiet (movePages_quiet ..)

@[simp] theorem clearDefects_frames (s : State) (c : Nat) : (clearDefects s c).frames = s.frames :=
  frames_of_boxed (clearDefects_boxed ..)

@[simp] theorem affectCores_frames (s : State) (cores : List Nat) : (affectCores s cores).frames = s.frames :=
  frames_of_quiet (affectCores_quiet ..)

@[simp] theorem addDetours_frames (s : State) (detours : List (Nat × Nat × Nat × Nat)) : (addDetours s detours).frames =
    s.frames :=
  frames_of_quiet (addDetours_quiet ..)

@[simp] theorem dropRequests_frames (s : State) (port : Nat) (gone : TierReq → Bool) : (dropRequests s port gone).frames =
    s.frames :=
  frames_of_quiet (dropRequests_quiet ..)

@[simp] theorem dropTierLeaves_frames (s : State) (port : Nat) : (dropTierLeaves s port).frames = s.frames :=
  frames_of_quiet (dropTierLeaves_quiet ..)

theorem tierChanged_frames (old s : State) (port : Nat) : (tierChanged old s port).frames = s.frames :=
  frames_of_quiet (tierChanged_quiet ..)

@[simp] theorem raiseMsix_tiers (s : State) (v : Nat) : (raiseMsix s v).tiers = s.tiers := by
  grind [raiseMsix, bump_tiers, emit_tiers]

@[simp] theorem hostEvent_tiers (s : State) (bit : Nat) : (hostEvent s bit).tiers = s.tiers := by
  grind [hostEvent, raiseMsix_tiers]

@[simp] theorem capsChanged_tiers (s : State) : (capsChanged s).tiers = s.tiers := by
  simp [capsChanged]

@[simp] theorem addRecord_frames (s : State) (d : DefectRec) : (addRecord s d).frames = s.frames := by
  unfold addRecord; split <;> simp

@[simp] theorem appendRecord_frames (s : State) (el : Element) (origin cause : Nat) : (appendRecord s el origin cause).frames =
    s.frames := by
  simp [appendRecord]

@[simp] theorem takeOut_frames (s : State) (el : Element) (origin cause : Nat) : (takeOut s el origin cause).frames = s.frames
    := by
  unfold takeOut; split <;> simp

@[simp] theorem backInService_frames (s : State) (el : Element) : (backInService s el).frames = s.frames := by
  grind [backInService, capsChanged_frames, clearDefects_frames]

@[simp] theorem restoreElement_frames (s : State) (el : Element) (cause : Nat) : (restoreElement s el cause).frames = s.frames
    := by
  simp [restoreElement]

@[simp] theorem fenceElement_frames (s : State) (el : Element) (origin cause : Nat) (detours : List (Nat × Nat × Nat × Nat)) :
    (fenceElement s el origin cause detours).frames = s.frames := by
  grind [fenceElement, addDetours_frames, affectCores_frames, bump_frames, movePages_frames, restoreElement_frames,
    takeOut_frames]

@[simp] theorem fenceTier_frames (s : State) (port origin cause : Nat) : (fenceTier s port origin cause).frames = s.frames := by
  grind [fenceTier, bump_frames, dropRequests_frames, dropTierLeaves_frames, setTier_frames, takeOut_frames, tierChanged_frames]

@[simp] theorem fencePort_frames (s : State) (port origin cause : Nat) (routes : List (Nat × Nat × Nat)) : (fencePort s port
    origin cause routes).frames = s.frames := by
  grind [fencePort, haltOwners_frames, leaveDomain_frames, setPort_frames, takeOut_frames]

@[simp] theorem fenceAny_frames (s : State) (el : Element) (origin cause : Nat) : (fenceAny s el origin cause).frames = s.frames
    := by
  unfold fenceAny; split <;> simp

@[simp] theorem noteHostFence_frames (s : State) (el : Element) : (noteHostFence s el).frames = s.frames := by
  unfold noteHostFence; split <;> simp

@[simp] theorem applyRecord_frames (s : State) (d : DefectRec) : (applyRecord s d).frames = s.frames := by
  grind [applyRecord, addRecord_frames, backInService_frames, fenceAny_frames, noteHostFence_frames, setTier_frames,
    tierChanged_frames]

@[simp] theorem applyUpdate_frames (s : State) (body : List Byte) : (applyUpdate s body).frames = s.frames := by
  simp [applyUpdate, each_keeps State.frames]

end Sys2Proof.Machine
end

section
/-! O37: check.mode, heal.policy, fence.set with both operations, and inject.plan. -/
namespace Sys2Proof.Machine
open Sys2Proof.Claims

theorem setMode_of_one {s : State} {h mode : Nat} {l : Slice} (hl : look? s.slices h = some l) (hmode : l.mode ≠ 2) :
    setMode s h mode = setSlice s h { l with mode := mode } := by
  simp [setMode, hl, hmode]

/-! ## A tier port that returns to service, R775 -/

@[simp] theorem tierChanged_mem (old s : State) (port : Nat) : (tierChanged old s port).mem = s.mem := by
  unfold tierChanged
  split
  · rfl
  · split <;> simp

@[simp] theorem tierChanged_tiers (old s : State) (port : Nat) : (tierChanged old s port).tiers = s.tiers := by
  unfold tierChanged
  split
  · rfl
  · split <;> simp

theorem tierOf_congr {s t : State} (h : t.tiers = s.tiers) (p : Nat) : tierOf t p = tierOf s p := by
  rw [tierOf, h, tierOf]

theorem addDevice_fenced (t : TierPort) (gib : Nat) : (addDevice t gib).fenced = t.fenced := by
  unfold addDevice
  dsimp only
  split <;> rfl

theorem addDevices_fenced (l : List Nat) (t : TierPort) : (l.foldl addDevice t).fenced = t.fenced := by
  induction l generalizing t with
  | nil => rfl
  | cons d l ih => exact (ih _).trans (addDevice_fenced t d)

/-- A port that starts with devices is linked unless it is fenced, which a start leaves as it is. -/
theorem startTier_port (s : State) (port : Nat) (link : Nat × Nat) (devices bad : List Nat) (warm : Bool) :
    (tierOf (startTier s port link devices bad warm) port).fenced = (tierOf s port).fenced ∧
      (tierOf (startTier s port link devices bad warm) port).linkUp = (!devices.isEmpty && !(tierOf s port).fenced) := by
  unfold startTier
  extract_lets t all_ linesOf good dropped placed_ lines u v
  have hport : tierOf (bump (bump v ctrTierLinesPoisoned port lines.length) ctrTierUnmapped port dropped) port = tierOf u port := rfl
  rw [hport]
  unfold u
  rw [tierOf_setTier]
  exact ⟨(addDevices_fenced _ _).trans (addDevices_fenced _ _), rfl⟩

theorem backInService_of_tier (s : State) (port : Nat) :
    let el : Element := { kind := 6, id := port }
    backInService s el = capsChanged { s with
      nv := { s.nv with fenceBits := s.nv.fenceBits.filter (· ≠ el), hostFences := s.nv.hostFences.filter (· ≠ el) }
      caps := serviceOf s.caps el false
      sup := { s.sup with detections := s.sup.detections.filter (fun d => d.element ≠ el) } } := by
  rfl

/-- A tier port returned to service is in no fence, and nothing but its element moves. -/
theorem backInService_tier (s : State) (port : Nat) :
    let t := backInService s { kind := 6, id := port }
    t.nv.fenceBits.contains { kind := 6, id := port } = false ∧ t.mem = s.mem ∧ t.engines = s.engines := by
  rw [backInService_of_tier]
  refine ⟨?_, ?_, ?_⟩
  · rw [nv_of_quiet (capsChanged_quiet _)]
    simp
  · rw [capsChanged_mem]
  · rw [engines_of_quiet (capsChanged_quiet _)]

/-- The tier port of a fence that is cleared, its link trained again. -/
def tierReturned (s : State) (port : Nat) (x : Nat × Nat) (devices : List Nat) : State :=
  let u := backInService s { kind := 6, id := port }
  startTier (setTier u port { tierOf u port with fenced := false }) port x devices [] true

theorem tierReturned_effect (s : State) (port : Nat) (x : Nat × Nat) (devices : List Nat) :
    let t := tierReturned s port x devices
    (tierOf t port).fenced = false ∧ t.nv.fenceBits.contains { kind := 6, id := port } = false ∧
      (tierOf t port).linkUp = !devices.isEmpty ∧ t.mem = s.mem ∧ t.engines = s.engines ∧ t.frames = s.frames := by
  unfold tierReturned
  extract_lets u _ t
  obtain ⟨hbits, hmem, heng⟩ := backInService_tier s port
  have hframes : u.frames = s.frames := backInService_frames ..
  obtain ⟨hfenced, hlink⟩ := startTier_port (setTier u port { tierOf u port with fenced := false }) port x devices [] true
  have hq : quiet t = quiet u := by rw [startTier_quiet, setTier_quiet]
  rw [tierOf_setTier] at hfenced hlink
  refine ⟨hfenced, ?_, ?_, ?_, (engines_of_quiet hq).trans heng, (frames_of_quiet hq).trans hframes⟩
  · rw [nv_of_quiet hq]
    exact hbits
  · rw [hlink]
    exact Bool.and_true _
  · rw [startTier_mem, setTier_mem]
    exact hmem

theorem clearTier_up {s : State} {port : Nat} {x : Nat × Nat} (hfenced : (tierOf s port).fenced = true)
    (hx : tierLinkGood x = true) (devices : List Nat) :
    clearTier s port (some x) devices = tierChanged s (tierReturned s port x devices) port := by
  unfold clearTier
  rw [hfenced, if_neg (by decide)]
  dsimp only [Option.any, Option.getD]
  rw [hx]
  rfl

/-! ## The signed update of a fence.set, R773 -/

theorem updateCode_setGather (s : State) (op : Nat) (g : Option Gather) (l : List Byte) :
    updateCode (setGather s op g) l = updateCode s l := by
  rfl

section
variable {s : State} {f k : Nat} {r : Running}

theorem clearByHost_of_tier (hdue : due s f k 0x0803 = some r) (hop : bitsOf (head8 r) 0 8 = 1)
    (hkind : (elementOf (recordFrom (r.payload.drop 8))).kind = 6) (link : Option (Nat × Nat)) (devices : List Nat) :
    clearByHost s f k link devices = settle (clearTier s (elementOf (recordFrom (r.payload.drop 8))).id link devices) f k 0 [] :=
  (act_of_due hdue _).trans ((if_neg (not_not_intro hop)).trans (if_pos hkind))

theorem clearByHost_of_other (hdue : due s f k 0x0803 = some r) (hop : bitsOf (head8 r) 0 8 = 1)
    (hkind : (elementOf (recordFrom (r.payload.drop 8))).kind ≠ 6) (link : Option (Nat × Nat)) (devices : List Nat) :
    clearByHost s f k link devices =
      let chunk := r.payload.drop 40
      if chunk.isEmpty && (gathered_ s 0x0803).bytes.isEmpty then settle s f k 0x72 []
      else match takeChunk s 0x0803 (bitsOf (head8 r) 16 32) chunk with
        | none => settle (setGather s 0x0803 none) f k 3 []
        | some (g, t) =>
          if !(bitAt (head8 r) 8) then settle t f k 0 []
          else
            let code := updateCode t g.bytes
            let t := countEnvelope (setGather t 0x0803 none) (if code = 0x23 then 0x23 else 0)
            if code ≠ 0 then settle (bump t ctrModUpdatesRefused 0 1) f k code []
            else settle (bump (applyUpdate t (envelopeOf g.bytes).body) ctrModUpdates 0 1) f k 0 [] :=
  (act_of_due hdue _).trans ((if_neg (not_not_intro hop)).trans (if_neg hkind))

/-- A chunk of an update that continues what was gathered. -/
theorem clearByHost_of_chunk (hdue : due s f k 0x0803 = some r) (hop : bitsOf (head8 r) 0 8 = 1)
    (hkind : (elementOf (recordFrom (r.payload.drop 8))).kind ≠ 6) (hsome : (gathered_ s 0x0803).bytes ++ r.payload.drop 40 ≠ [])
    (hoff : bitsOf (head8 r) 16 32 = (gathered_ s 0x0803).bytes.length) (link : Option (Nat × Nat)) (devices : List Nat) :
    let g := { gathered_ s 0x0803 with bytes := (gathered_ s 0x0803).bytes ++ r.payload.drop 40 }
    clearByHost s f k link devices =
      if !(bitAt (head8 r) 8) then settle (setGather s 0x0803 (some g)) f k 0 []
      else
        let t := countEnvelope (setGather (setGather s 0x0803 (some g)) 0x0803 none) (if updateCode s g.bytes = 0x23 then 0x23 else 0)
        if updateCode s g.bytes ≠ 0 then settle (bump t ctrModUpdatesRefused 0 1) f k (updateCode s g.bytes) []
        else settle (bump (applyUpdate t (envelopeOf g.bytes).body) ctrModUpdates 0 1) f k 0 [] := by
  intro g
  have hne : ¬((r.payload.drop 40).isEmpty && (gathered_ s 0x0803).bytes.isEmpty) = true := by
    simp only [Bool.and_eq_true, List.isEmpty_iff]
    rintro ⟨hchunk, hbytes⟩
    exact hsome (by rw [hchunk, hbytes]; rfl)
  rw [clearByHost_of_other hdue hop hkind]
  dsimp only
  rw [if_neg hne, takeChunk_continues hoff]
  rfl

theorem updateRefused_shape (s : State) (g : Option Gather) (code : Nat) (f k c : Nat) :
    let t := settle (bump (countEnvelope (setGather s 0x0803 g) code) ctrModUpdatesRefused 0 1) f k c []
    t = { s with sup := t.sup, frames := t.frames, counts := t.counts } := by
  dsimp only
  rw [settle_shape, countEnvelope_shape]
  rfl

end

/-- Settles O37. -/
theorem healthCommands : Obligations.HealthCommands := by
  intro s f k r retrained devices
  refine ⟨fun hdue => ?_, fun hf hdue hactive => ?_, fun hf hdue hactive l hl hmode => ?_, fun hdue => ?_, fun hf hdue l hl => ?_,
    fun hdue hop => ?_, fun hdue hop hkind hlen hnone => ?_, fun hdue hop hkind hfenced => ?_, fun hdue hop hkind => ?_,
    fun hdue hop hkind => ?_, fun hdue hall => ?_, fun hdue hall => ?_⟩
  · have hact : checkMode s 0 k = settle { s with sup := { s.sup with checkDefault := bitsOf (head8 r) 0 2 } } 0 k 0 [] :=
      (act_of_due hdue _).trans (if_pos rfl)
    exact settles_of_exec (congrArg Host.Outcome.next hact) (run_of_due hdue)
  · have hact : checkMode s f k = settle s f k 0x70 [] := (act_of_due hdue _).trans ((if_neg hf).trans (if_pos hactive))
    exact settles_of_exec (congrArg Host.Outcome.next hact) (run_of_due hdue)
  · have hact : checkMode s f k = settle (setMode s r.handle (bitsOf (head8 r) 0 2)) f k 0 [] :=
      (act_of_due hdue _).trans ((if_neg hf).trans (if_neg (by rw [hactive]; decide)))
    rw [setMode_of_one hl hmode] at hact
    exact settles_of_exec (congrArg Host.Outcome.next hact) (run_congr (s := s) rfl (run_of_due hdue))
  · have hact : healPolicy s 0 k = settle { s with sup := { s.sup with healDefault := policyOf (head8 r) } } 0 k 0 [] :=
      (act_of_due hdue _).trans (if_pos rfl)
    exact settles_of_exec (congrArg Host.Outcome.next hact) (run_of_due hdue)
  · have hact : healPolicy s f k = settle (setSlice s r.handle { l with heal := policyOf (head8 r) }) f k 0 [] := by
      refine (act_of_due hdue _).trans ((if_neg hf).trans ?_)
      rw [hl]
    exact settles_of_exec (congrArg Host.Outcome.next hact) (run_congr (s := s) rfl (run_of_due hdue))
  · exact congrArg Host.Outcome.next ((act_of_due hdue _).trans (if_neg (not_not_intro hop)))
  · have hact : clearByHost s f k retrained devices = settle s f k 0x72 [] := by
      rw [clearByHost_of_other hdue hop hkind]
      have hchunk : r.payload.drop 40 = [] := List.drop_eq_nil_of_le (Nat.le_of_eq hlen)
      have hbytes : (gathered_ s 0x0803).bytes = [] := by rw [gathered_, look, hnone]; rfl
      rw [hchunk, hbytes]
      rfl
    exact settles_of_exec (congrArg Host.Outcome.next hact) (run_of_due hdue)
  · have hact : clearByHost s f k retrained devices = settle s f k 0 [] := by
      rw [clearByHost_of_tier hdue hop hkind, clearTier, hfenced]
      rfl
    exact settles_of_exec (congrArg Host.Outcome.next hact) (run_of_due hdue)
  · intro port hfenced x hx hgood
    have hact : clearByHost s f k retrained devices = settle (tierChanged s (tierReturned s port x devices) port) f k 0 [] := by
      rw [clearByHost_of_tier hdue hop hkind, hx, clearTier_up hfenced hgood]
    obtain ⟨hport, hbits, hlink, hmem, heng, hframes⟩ := tierReturned_effect s port x devices
    have htiers : (settle (tierChanged s (tierReturned s port x devices) port) f k 0 []).tiers = (tierReturned s port x devices).tiers := by
      rw [settle_shape]
      exact tierChanged_tiers ..
    refine ⟨congrArg Host.Outcome.next hact, _, congrArg Host.Outcome.next hact, ?_, ?_, ?_, ?_, ?_, ?_⟩
    · exact answered_settle (run_congr ((tierChanged_frames ..).trans hframes) (run_of_due hdue)) 0 []
    · exact (congrArg TierPort.fenced (tierOf_congr htiers port)).trans hport
    · rw [settle_nv, nv_of_quiet (tierChanged_quiet ..), hbits]
    · exact (congrArg TierPort.linkUp (tierOf_congr htiers port)).trans hlink
    · rw [settle_mem, tierChanged_mem, hmem]
    · rw [settle_shape]
      exact (engines_of_quiet (tierChanged_quiet ..)).trans heng
  · intro chunk b hsome hoff
    have hact := clearByHost_of_chunk hdue hop hkind hsome hoff retrained devices
    dsimp only at hact
    refine ⟨fun hmore => ?_, fun hlast hcode => ?_, fun hlast hcode => ?_⟩
    · rw [hmore, if_pos Bool.not_false] at hact
      refine ⟨_, congrArg Host.Outcome.next hact, answered_settle (run_congr (setGather_frames ..) (run_of_due hdue)) 0 [], ?_, ?_⟩
      · rw [gathered_congr (settle_sup ..), look_put_gathers]
      · rw [settle_shape]
        rfl
    · have hcode' : updateCode s ((gathered_ s 0x0803).bytes ++ r.payload.drop 40) = 0 := hcode
      rw [hlast, if_neg (by decide)] at hact
      rw [hcode', if_neg (by decide), if_neg (by decide)] at hact
      refine ⟨congrArg Host.Outcome.next hact, _, congrArg Host.Outcome.next hact, answered_settle (run_congr ?_ (run_of_due hdue)) 0 []⟩
      rw [bump_frames, applyUpdate_frames, countEnvelope_shape]
      rfl
    · have hcode' : updateCode s ((gathered_ s 0x0803).bytes ++ r.payload.drop 40) ≠ 0 := hcode
      rw [hlast, if_neg (by decide)] at hact
      rw [if_pos hcode'] at hact
      refine ⟨_, congrArg Host.Outcome.next hact, answered_settle (run_congr ?_ (run_of_due hdue)) _ [], ?_⟩
      · rw [bump_frames, countEnvelope_shape]
        rfl
      · exact updateRefused_shape (setGather s 0x0803 (some { gathered_ s 0x0803 with bytes := b })) none _ f k _
  · have hact : planInjections s f k =
        settle { s with sup := { s.sup with injections := s.sup.injections ++ plannedOf s r.payload } } f k 0 [] :=
      (act_of_due hdue _).trans (if_neg (by rw [hall]; decide))
    exact settles_of_exec (congrArg Host.Outcome.next hact) (run_of_due hdue)
  · have hact : planInjections s f k = settle s f k 0x71 [] := (act_of_due hdue _).trans (if_pos (by rw [hall]; rfl))
    exact settles_of_exec (congrArg Host.Outcome.next hact) (run_of_due hdue)

end Sys2Proof.Machine
end

section
/-! O40: fab.join, fab.leave, fab.members, fab.route.set and the admission commands. -/
namespace Sys2Proof.Machine
open Sys2Proof.Claims

/-! ## Ports that join, R694 -/

theorem leaveDomain_shape (s : State) : leaveDomain s = { s with fabric := (leaveDomain s).fabric } := by
  unfold leaveDomain
  split <;> rfl

theorem portOf_leaveDomain (s : State) (p : Nat) : portOf (leaveDomain s) p = portOf s p := by
  unfold leaveDomain
  split <;> rfl

theorem joinAll_shape (l : List Joining) (s : State) : (joinAll l s).2 = { s with fabric := (joinAll l s).2.fabric } := by
  induction l generalizing s with
  | nil => rfl
  | cons j l ih =>
    rw [joinAll]
    split
    · rfl
    · exact ih _

/-- A port that has joined stays joined while further ports join. -/
theorem joinAll_keeps_joined (l : List Joining) (s : State) {p : Nat} (h : (portOf s p).joined = true) :
    (portOf (joinAll l s).2 p).joined = true := by
  induction l generalizing s with
  | nil => exact h
  | cons j l ih =>
    rw [joinAll]
    split
    · exact h
    · refine ih _ ?_
      unfold joinPort
      by_cases hp : p = j.port
      · rw [hp, portOf_setPort]
      · rw [portOf_setPort_ne _ _ hp, h]

theorem joinAll_joined {l : List Joining} {s : State} (h : (joinAll l s).1 = 0) :
    ∀ j ∈ l, (portOf (joinAll l s).2 j.port).joined = true := by
  induction l generalizing s with
  | nil => exact fun _ hj => nomatch hj
  | cons j l ih =>
    rw [joinAll] at h ⊢
    split at h
    · rename_i hcode
      exact absurd h hcode
    · rename_i hcode
      rw [if_neg hcode]
      intro i hi
      rcases List.mem_cons.mp hi with rfl | hi
      · refine joinAll_keeps_joined l _ ?_
        rw [joinPort, portOf_setPort]
      · exact ih h i hi

/-! ## The fabric commands -/

section
variable {s : State} {f k : Nat} {r : Running}

theorem fabJoin_outcomes (hdue : due s f k 0x0701 = some r) (loop : List Nat) :
    let l := joiningOf r.payload loop
    let code := joinCode s (bitsOf (head8 r) 0 14) (sub r.payload 16 32) l
    (code ≠ 0 → Settles (.fabJoin f k loop) s s f k code []) ∧
    let fab := { s.fabric with moduleId := bitsOf (head8 r) 0 14, key := sub r.payload 16 32, domain := domainTag (sub r.payload 16 32) }
    (code = 0 → (joinAll l { s with fabric := fab }).1 = 0 →
      ∃ t, exec (.fabJoin f k loop) s = .next t ∧ ∃ resp,
        (mbSlot t f k).run = some { r with wait := .idle (l.map (·.port)), resp := resp } ∧
        (∀ j ∈ l, (portOf t j.port).joined = true) ∧ t = { s with fabric := t.fabric, frames := t.frames }) := by
  intro l code
  refine ⟨fun hcode => ?_, fun hcode hall => ?_⟩
  · exact settles_of_exec (congrArg Host.Outcome.next ((act_of_due hdue _).trans (if_pos hcode))) (run_of_due hdue)
  · have hact : joinFabric s f k loop = _ := (act_of_due hdue _).trans ((if_neg (not_not_intro hcode)).trans (if_neg (not_not_intro hall)))
    refine ⟨_, congrArg Host.Outcome.next hact, _, mbSlot_setRun .., fun j hj => ?_, ?_⟩
    · exact (congrArg RolPort.joined (portOf_leaveDomain _ _)).trans (joinAll_joined hall j hj)
    · rw [setRun_shape, leaveDomain_shape, joinAll_shape]

theorem fabLeave_outcomes (hdue : due s f k 0x0702 = some r) :
    let ports := maskPorts (bitsOf (head8 r) 0 16)
    (ports.any (fun p => !(portOf s p).joined) = true → Settles (.fabLeave f k) s s f k 0x64 []) ∧
    (ports.any (fun p => !(portOf s p).joined) = false → ∃ t, exec (.fabLeave f k) s = .next t ∧
      (∀ p ∈ ports, (portOf t p).leaving = true) ∧ (mbSlot t f k).run = some { r with wait := .left ports } ∧
      t = { s with fabric := t.fabric, frames := t.frames }) := by
  intro ports
  refine ⟨fun hany => ?_, fun hnone => ?_⟩
  · exact settles_of_exec (congrArg Host.Outcome.next ((act_of_due hdue _).trans (if_pos hany))) (run_of_due hdue)
  · have hact : leaveFabric s f k = await (leavePorts s ports) f k (.left ports) :=
      (act_of_due hdue _).trans (if_neg (by rw [hnone]; decide))
    have hrun : (mbSlot (leavePorts s ports) f k).run = some r := by
      rw [leavePorts_shape]
      exact run_of_due hdue
    have hshape : await (leavePorts s ports) f k (.left ports) = { s with
        fabric := (leavePorts s ports).fabric, frames := (await (leavePorts s ports) f k (.left ports)).frames } := by
      rw [await_shape hrun, leavePorts_shape]
    refine ⟨_, congrArg Host.Outcome.next hact, fun p hp => ?_, await_run hrun _, ?_⟩
    · have hport : portOf (await (leavePorts s ports) f k (.left ports)) p = portOf (leavePorts s ports) p := by
        rw [await_shape hrun]
        rfl
      rw [hport, portOf_leavePorts, if_pos hp]
    · rw [hshape]

theorem await_setPort (hrun : (mbSlot s f k).run = some r) (p : Nat) (v : RolPort) (w : Wait) :
    let t := await (setPort s p v) f k w
    portOf t p = v ∧ (mbSlot t f k).run = some { r with wait := w } ∧ t = { s with fabric := t.fabric, frames := t.frames } := by
  intro t
  have hrun' : (mbSlot (setPort s p v) f k).run = some r := run_congr (s := s) rfl hrun
  have ht : t = setRun (setPort s p v) f k { r with wait := w } := await_of_run hrun' w
  have hport : portOf t p = portOf (setPort s p v) p := by
    rw [ht]
    rfl
  refine ⟨hport.trans (portOf_setPort ..), await_run hrun' w, ?_⟩
  rw [ht]
  rfl

theorem fabMembers_outcomes (hdue : due s f k 0x0703 = some r) :
    (bitAt (head8 r) 8 = false →
      (membersCode s f r false ≠ 0 → Settles (.fabMembersRead f k) s s f k (membersCode s f r false) []) ∧
      (membersCode s f r false = 0 →
        Settles (.fabMembersRead f k) s s f k 0 (membersBytes (portOf s (bitsOf (head8 r) 0 4))))) ∧
    (bitAt (head8 r) 8 = true →
      (membersCode s f r true ≠ 0 → Settles (.fabMembersReplace f k) s s f k (membersCode s f r true) []) ∧
      (membersCode s f r true = 0 → ∃ t, exec (.fabMembersReplace f k) s = .next t ∧
        portOf t (bitsOf (head8 r) 0 4) = { portOf s (bitsOf (head8 r) 0 4) with nextTable := some (memberTable (halves r.payload 8 32)) } ∧
        (mbSlot t f k).run = some { r with wait := .idle [bitsOf (head8 r) 0 4] } ∧
        t = { s with fabric := t.fabric, frames := t.frames })) := by
  have hact (replace : Bool) : portMembers s f k replace = _ := act_of_due hdue _
  refine ⟨fun hread => ⟨fun hcode => ?_, fun hcode => ?_⟩, fun hreplace => ⟨fun hcode => ?_, fun hcode => ?_⟩⟩
  · exact settles_of_exec (congrArg Host.Outcome.next
      ((hact false).trans ((if_neg (by rw [hread]; decide)).trans (if_pos hcode)))) (run_of_due hdue)
  · exact settles_of_exec (congrArg Host.Outcome.next
      ((hact false).trans ((if_neg (by rw [hread]; decide)).trans (if_neg (not_not_intro hcode))))) (run_of_due hdue)
  · exact settles_of_exec (congrArg Host.Outcome.next
      ((hact true).trans ((if_neg (by rw [hreplace]; decide)).trans (if_pos hcode)))) (run_of_due hdue)
  · have hset := (hact true).trans ((if_neg (by rw [hreplace]; decide)).trans (if_neg (not_not_intro hcode)))
    exact ⟨_, congrArg Host.Outcome.next hset, await_setPort (run_of_due hdue) ..⟩

/-! ## fab.route.set, R697 -/

theorem setRouteTab_frames (s : State) (f h : Nat) (t : RouteTab) : (setRouteTab s f h t).frames = s.frames :=
  frames_of_quiet (setRouteTab_quiet ..)

theorem resumeAgain_quiet (s : State) (old new : RouteTab) : quiet (resumeFenced (findAgain s old new)) = quiet s := by
  rw [resumeFenced_quiet, findAgain_quiet]

theorem fabRouteSet_outcomes (hdue : due s f k 0x0704 = some r) :
    let was := routeTabOf s f r.handle
    let old := if was.users.isEmpty then was else retireTab s was
    let q := writeRoutes s f r.handle (bitsOf (head8 r) 0 14) (halves r.payload 8 (bitsOf (head8 r) 16 12))
      (if old.fresh then old.shadow else old.active)
    let wrote := { old with shadow := q.2, fresh := true }
    let new_ := swapRoutes s wrote
    (tabBusy s was = true → exec (.fabRouteSet f k) s = .next s) ∧
    (tabBusy s was = false → q.1 = false → Settles (.fabRouteSet f k) s (setRouteTab s f r.handle wrote) f k 0x66 []) ∧
    (tabBusy s was = false → q.1 = true → bitAt (head8 r) 32 = false →
      Settles (.fabRouteSet f k) s (setRouteTab s f r.handle wrote) f k 0 []) ∧
    (tabBusy s was = false → q.1 = true → bitAt (head8 r) 32 = true → exec (.fabRouteSet f k) s =
        .next (await (resumeFenced (findAgain (setRouteTab s f r.handle new_) old new_)) f k .routes) ∧
      ∃ t, exec (.fabRouteSet f k) s = .next t ∧ Awaits t f k r .routes ∧ t.nv = s.nv) := by
  intro was old q wrote new_
  have hact : setRoutes s f k = if tabBusy s was then s
      else if !q.1 then settle (setRouteTab s f r.handle wrote) f k 0x66 []
      else if !(bitAt (head8 r) 32) then settle (setRouteTab s f r.handle wrote) f k 0 []
      else await (resumeFenced (findAgain (setRouteTab s f r.handle new_) old new_)) f k .routes := act_of_due hdue _
  have hrun (t : RouteTab) : (mbSlot (setRouteTab s f r.handle t) f k).run = some r :=
    run_congr (setRouteTab_frames ..) (run_of_due hdue)
  refine ⟨fun hbusy => ?_, fun hbusy hbad => ?_, fun hbusy hgood hswap => ?_, fun hbusy hgood hswap => ?_⟩
  · exact congrArg Host.Outcome.next (hact.trans (if_pos hbusy))
  · rw [hbusy, if_neg (by decide), hbad, if_pos (by decide)] at hact
    exact settles_of_exec (congrArg Host.Outcome.next hact) (hrun _)
  · rw [hbusy, if_neg (by decide), hgood, if_neg (by decide), hswap, if_pos (by decide)] at hact
    exact settles_of_exec (congrArg Host.Outcome.next hact) (hrun _)
  · rw [hbusy, if_neg (by decide), hgood, if_neg (by decide), hswap, if_neg (by decide)] at hact
    have hq := resumeAgain_quiet (setRouteTab s f r.handle new_) old new_
    have hwait := run_congr (frames_of_quiet hq) (hrun new_)
    refine ⟨congrArg Host.Outcome.next hact, _, congrArg Host.Outcome.next hact, await_run hwait .routes, ?_⟩
    rw [await_shape hwait]
    exact (nv_of_quiet hq).trans (nv_of_quiet (setRouteTab_quiet ..))

/-! ## Admission, R705 to R707 -/

theorem admitPrepare_passes (hdue : due s f k 0x0A01 = some r) (hslice : (look? s.slices r.handle).isSome = true)
    (hstage : stageOf s r.handle = 0) (hslots : slotsUsed s r.handle = 0) (hdrained : s.nv.drained = false) (sec : Nat) :
    Settles (.admitPrepare f k true sec) s (setStage (setSelfTest s true) r.handle 1) f k 0 (bytesOf 8 sec) := by
  have hact : admitPrepare s f k true sec = settle (setStage (setSelfTest s true) r.handle 1) f k 0 (bytesOf 8 sec) :=
    (act_of_due hdue _).trans ((if_neg (by rw [Option.isNone_eq_false_iff.mpr hslice]; decide)).trans
      ((if_neg (by rw [hstage, hslots]; decide)).trans ((if_neg (by rw [hdrained]; decide)).trans (if_pos rfl))))
  have hq : quiet (setStage (setSelfTest s true) r.handle 1) = quiet s := by rw [setStage_quiet, setSelfTest_quiet]
  exact settles_of_exec (congrArg Host.Outcome.next hact) (run_congr (frames_of_quiet hq) (run_of_due hdue))

/-- An admit.load in its first row. -/
theorem admitLoad_of_due (hdue : due s f k 0x0A02 = some r) (hfirst : r.wait ≠ .fabric) :
    admitLoad s f k =
      let a := loadFor s r.handle (loadRanges r.payload)
      let code := loadCode s r.handle (loadRanges r.payload)
      if code = 0x7A then settle (setAdmit s a) f k code (bytesOf 8 a.done)
      else if code ≠ 0 then settle s f k code []
      else await (admitSend (setAdmit s a) r.handle) f k .fabric := by
  obtain ⟨hrun, hop, _, _⟩ := due_iff.mp hdue
  have hkeep : (runAs s f k 0x0A02).filter (fun r => r.wait = .fabric || (due s f k 0x0A02).isSome) = some r := by
    rw [runAs, hrun, hdue]
    simp [hop]
  unfold admitLoad
  rw [hkeep]
  exact if_neg hfirst

/-- A poll of the partner's barrier once its window has ended. -/
theorem pollBarrier_of_wait (h : runAs s f k 0x0A03 = some r) (hwait : r.wait = .barrier)
    (hover : r.at_ + 100 * ticksPerUs ≤ s.clocks.sup) (status phase : Nat) :
    pollBarrier s f k status phase =
      let n := if status = 5 then r.progress + 1 else 0
      let t := setRun s f k { r with progress := n, at_ := s.clocks.sup }
      if 100 ≤ n then settle t f k 0x7A []
      else if status = 0 && phase ≠ bitsOf (natAt r.payload 14 2) 0 16 then admitStart t f k r
      else t := by
  have hkeep : (runAs s f k 0x0A03).filter (fun r => r.wait = .barrier && windowOver s.clocks.sup r.at_ (100 * ticksPerUs)) = some r := by
    rw [h]
    simp [hwait, windowOver, hover]
  unfold pollBarrier
  rw [hkeep]

end

/-- Settles O40. -/
theorem fabricCommands : Obligations.FabricCommands := by
  intro s f k r loop sec status phase
  refine ⟨fun hdue => fabJoin_outcomes hdue loop, fun hdue => fabLeave_outcomes hdue, fun hdue => (fabMembers_outcomes hdue).1,
    fun hdue => (fabMembers_outcomes hdue).2, fun hdue => fabRouteSet_outcomes hdue,
    fun hdue hslice hstage hslots hdrained => admitPrepare_passes hdue hslice hstage hslots hdrained sec,
    fun hdue hcode hfirst => ?_, fun hdue hfirst hcode hcut => ?_, fun hdue hcode => ?_, fun hdue hcode => ?_,
    fun h hwait hover => ⟨fun hstatus hmany => ?_, fun hstatus hphase => ?_⟩⟩
  · have hact := admitLoad_of_due hdue hfirst
    dsimp only at hact
    rw [hcode, if_neg (by decide), if_neg (by decide)] at hact
    exact congrArg Host.Outcome.next hact
  · have hact : admitLoad s f k = settle s f k (loadCode s r.handle (loadRanges r.payload)) [] :=
      (admitLoad_of_due hdue hfirst).trans ((if_neg hcut).trans (if_pos hcode))
    exact settles_of_exec (congrArg Host.Outcome.next hact) (run_of_due hdue)
  · have hact : admitCommit s f k = setRun s f k { r with wait := .barrier, progress := 0, at_ := s.clocks.sup } :=
      (act_of_due hdue _).trans (if_neg (not_not_intro hcode))
    exact ⟨_, congrArg Host.Outcome.next hact, mbSlot_setRun .., rfl⟩
  · have hact : admitCommit s f k = settle s f k (commitStage s r.handle (bitsOf (head8 r) 32 32)) [] :=
      (act_of_due hdue _).trans (if_pos hcode)
    exact settles_of_exec (congrArg Host.Outcome.next hact) (run_of_due hdue)
  · have hact := pollBarrier_of_wait h hwait hover status phase
    dsimp only at hact
    rw [if_pos hstatus, if_pos (by omega)] at hact
    refine ⟨_, congrArg Host.Outcome.next hact, settle_setRun .., ?_⟩
    rw [settle_shape]
    rfl
  · have hact := pollBarrier_of_wait h hwait hover status phase
    dsimp only at hact
    rw [if_neg (by omega : ¬status = 5), if_neg (by decide), if_pos (by simp [hstatus, hphase])] at hact
    exact congrArg Host.Outcome.next hact

end Sys2Proof.Machine
end

section
namespace Sys2Proof.Machine
/-- The state but for what the core sequencers change by themselves: cores, the anchors' records, messages and counters. -/
def coresRest (s : State) : State := { s with cores := [], slices := [], narrow := [], counts := [] }
end Sys2Proof.Machine
end

section
/-! Further parts of the state that operations leave as they were. -/

namespace Sys2Proof.Machine

@[simp] theorem bump_coresRest (s : State) (c : Ctr) (unit n : Nat) : coresRest (bump s c unit n) = coresRest s := by rfl

@[simp] theorem setCore_coresRest (s : State) (c : Nat) (v : Core) : coresRest (setCore s c v) = coresRest s := by rfl

@[simp] theorem setSlot_coresRest (s : State) (c k : Nat) (v : Slot) : coresRest (setSlot s c k v) = coresRest s := by rfl

@[simp] theorem setSlice_coresRest (s : State) (h : Nat) (v : Slice) : coresRest (setSlice s h v) = coresRest s := by rfl

@[simp] theorem onSlot_coresRest (s : State) (c k : Nat) (f : Slot → Slot) : coresRest (onSlot s c k f) = coresRest s := by rfl

@[simp] theorem post_coresRest (s : State) (m : Msg) : coresRest (post s m) = coresRest s := by rfl

@[simp] theorem setConf_coresRest (s : State) (h config : Nat) (v : Conf) : coresRest (setConf s h config v) = coresRest s := by
  unfold setConf; split <;> simp

@[simp] theorem dropWindow_coresRest (s : State) (c k : Nat) : coresRest (dropWindow s c k) = coresRest s := by
  grind [dropWindow, setConf_coresRest]

@[simp] theorem reportProgress_coresRest (s : State) (c k : Nat) (moved : Bool) : coresRest (reportProgress s c k moved) =
    coresRest s := by
  grind [reportProgress, onSlot_coresRest, post_coresRest]

@[simp] theorem liftBeacon_coresRest (s : State) (c k : Nat) : coresRest (liftBeacon s c k) = coresRest s := by
  grind [liftBeacon, onSlot_coresRest, post_coresRest]

@[simp] theorem progress_coresRest (s : State) (c k : Nat) (flows : Bool) : coresRest (progress s c k flows) = coresRest s := by
  unfold progress; split <;> simp

@[simp] theorem issueTo_coresRest (s : State) (c k : Nat) (d : BitVec 512) : coresRest (issueTo s c k d) = coresRest s := by
  simp [issueTo]

@[simp] theorem passStep_coresRest (s : State) (c k : Nat) (d : BitVec 512) (nxt : Nat) : coresRest (passStep s c k d nxt) =
    coresRest s := by
  simp [passStep]

@[simp] theorem selectSlot_coresRest (s : State) (c : Nat) : coresRest (selectSlot s c) = coresRest s := by
  grind [selectSlot, bump_coresRest, onSlot_coresRest, setCore_coresRest]

@[simp] theorem settleStop_coresRest (s : State) (c k : Nat) : coresRest (settleStop s c k) = coresRest s := by
  grind [settleStop, dropWindow_coresRest, onSlot_coresRest]

@[simp] theorem settleBlock_coresRest (s : State) (c k : Nat) : coresRest (settleBlock s c k) = coresRest s := by
  unfold settleBlock; split <;> simp

@[simp] theorem settleBeacon_coresRest (s : State) (c k : Nat) : coresRest (settleBeacon s c k) = coresRest s := by
  grind [settleBeacon, onSlot_coresRest, post_coresRest]

@[simp] theorem settleCore_coresRest (s : State) (c : Nat) : coresRest (settleCore s c) = coresRest s := by
  simp [settleCore, each_keeps coresRest]

@[simp] theorem completeStep_coresRest (s : State) (c k step : Nat) : coresRest (completeStep s c k step) = coresRest s := by
  simp [completeStep]

@[simp] theorem stepDone_coresRest (s : State) (c k step n : Nat) : coresRest (stepDone s c k step n) = coresRest s := by
  simp [stepDone]

@[simp] theorem forwardStep_coresRest (s : State) (c k step : Nat) : coresRest (forwardStep s c k step) = coresRest s := by
  grind [forwardStep, completeStep_coresRest, onSlot_coresRest, settleCore_coresRest]

@[simp] theorem sendDone_coresRest (s : State) (m : Msg) : coresRest (sendDone s m) = coresRest s := by
  grind [sendDone, completeStep_coresRest, forwardStep_coresRest, settleCore_coresRest]

@[simp] theorem addSync_coresRest (s : State) (c k : Nat) (y : SyncOut) : coresRest (addSync s c k y) = coresRest s := by rfl

@[simp] theorem sendSync_coresRest (s : State) (c k tag : Nat) (d : BitVec 512) : coresRest (sendSync s c k tag d) = coresRest s
    := by rfl

end Sys2Proof.Machine
end

section
/-! What settling a core can do to its slots, R253, R254 and R280. -/
namespace Sys2Proof.Machine
open Sys2Proof.Claims

theorem coresOnly_iff {s t : State} : CoresOnly s t ↔ coresRest t = coresRest s := by
  cases s
  cases t
  simp only [CoresOnly, coresRest, State.mk.injEq, true_and]

theorem mem_of_coresRest {s t : State} (h : coresRest t = coresRest s) : t.mem = s.mem :=
  (coresOnly_iff.mpr h ▸ rfl : t.mem = s.mem)

/-- A slot but for what settling its core can change. -/
def lasting (v : Slot) : Slot :=
  { v with state := .empty, since := 0, stopping := false, syncs := [], beacon := false, told := [], waits := false, progAt := none }

theorem lasting_onSlot {f : Slot → Slot} (hf : ∀ v, lasting (f v) = lasting v) (s : State) (c k c' k' : Nat) :
    lasting (slotOf (onSlot s c k f) c' k') = lasting (slotOf s c' k') := by
  by_cases h : (c', k') = (c, k)
  · obtain ⟨rfl, rfl⟩ := Prod.mk.inj h
    rw [slotOf_onSlot, hf]
  · rw [onSlot, slotOf_setSlot_ne _ _ h]

theorem slotOf_onSlot_ne (s : State) (c k : Nat) (f : Slot → Slot) {c' k' : Nat} (h : (c', k') ≠ (c, k)) :
    slotOf (onSlot s c k f) c' k' = slotOf s c' k' := by
  rw [onSlot, slotOf_setSlot_ne _ _ h]

theorem slotOf_congr {s t : State} (h : t.cores = s.cores) (c k : Nat) : slotOf t c k = slotOf s c k := by
  rw [slotOf, coreOf, h, slotOf, coreOf]

@[simp] theorem post_cores (s : State) (m : Msg) : (post s m).cores = s.cores := by rfl

theorem dropWindow_cores (s : State) (c k : Nat) : (dropWindow s c k).cores = s.cores := by
  grind [dropWindow, setConf, setSlice_cores]

/-! ## Each of its steps, for one slot -/

theorem settleBlock_slot (s : State) (c j c' k : Nat) :
    slotOf (settleBlock s c j) c' k = slotOf s c' k ∨
      (slotOf s c' k).state = .blocked ∧ unblocked s c' k = true ∧
        slotOf (settleBlock s c j) c' k = { slotOf s c' k with state := .ready } := by
  unfold settleBlock
  split
  · rename_i h
    by_cases hk : (c', k) = (c, j)
    · obtain ⟨rfl, rfl⟩ := Prod.mk.inj hk
      rw [Bool.and_eq_true, decide_eq_true_eq] at h
      exact .inr ⟨h.1, h.2, slotOf_onSlot ..⟩
    · exact .inl (slotOf_onSlot_ne _ _ _ _ hk)
  · exact .inl rfl

theorem settleStop_slot (s : State) (c j c' k : Nat) :
    slotOf (settleStop s c j) c' k = slotOf s c' k ∨
      (slotOf s c' k).stopping = true ∧
        slotOf (settleStop s c j) c' k = { slotOf s c' k with state := .stopped, stopping := false, syncs := [] } := by
  unfold settleStop
  dsimp only
  split
  · rename_i h
    by_cases hk : (c', k) = (c, j)
    · obtain ⟨rfl, rfl⟩ := Prod.mk.inj hk
      simp only [Bool.and_eq_true] at h
      refine .inr ⟨h.1.1, ?_⟩
      rw [slotOf_onSlot, slotOf_congr (dropWindow_cores ..)]
    · refine .inl ?_
      rw [slotOf_onSlot_ne _ _ _ _ hk, slotOf_congr (dropWindow_cores ..)]
  · exact .inl rfl

theorem selectSlot_slot (s : State) (c c' k : Nat) :
    slotOf (selectSlot s c) c' k = slotOf s c' k ∨
      (slotOf s c' k).state = .ready ∧ (slotOf s c' k).stopping = false ∧
        slotOf (selectSlot s c) c' k = { slotOf s c' k with state := .running, since := computeNow s c } := by
  unfold selectSlot
  split
  · exact .inl rfl
  · split
    · exact .inl rfl
    · rename_i j hj
      have hready := List.find?_some hj
      simp only [Bool.and_eq_true, decide_eq_true_eq, Bool.not_eq_true'] at hready
      extract_lets t _ u
      have hcount : t.cores = s.cores := by
        unfold t
        split <;> rfl
      have hu : ∀ d i, slotOf u d i = slotOf s d i := by
        intro d i
        refine Eq.trans ?_ (slotOf_congr hcount d i)
        by_cases hd : d = c
        · subst hd
          rw [slotOf, coreOf_setCore]
          rfl
        · rw [slotOf, coreOf_setCore_ne _ _ hd, slotOf]
      by_cases hk : (c', k) = (c, j)
      · obtain ⟨rfl, rfl⟩ := Prod.mk.inj hk
        refine .inr ⟨hready.1, hready.2, ?_⟩
        rw [slotOf_onSlot, hu]
      · refine .inl ?_
        rw [slotOf_onSlot_ne _ _ _ _ hk, hu]

/-- A beacon or a report moves nothing of a slot but its own notes. -/
theorem settleBeacon_slot (s : State) (c j c' k : Nat) :
    ∃ b told, slotOf (settleBeacon s c j) c' k = { slotOf s c' k with beacon := b, told := told } := by
  unfold settleBeacon
  dsimp only
  split
  · exact ⟨_, _, rfl⟩
  · by_cases hk : (c', k) = (c, j)
    · obtain ⟨rfl, rfl⟩ := Prod.mk.inj hk
      exact ⟨_, _, (slotOf_congr (post_cores ..) _ _).trans (slotOf_onSlot ..)⟩
    · exact ⟨_, _, (slotOf_congr (post_cores ..) _ _).trans (slotOf_onSlot_ne _ _ _ _ hk)⟩

theorem reportProgress_slot (s : State) (c j : Nat) (moved : Bool) (c' k : Nat) :
    ∃ w p, slotOf (reportProgress s c j moved) c' k = { slotOf s c' k with waits := w, progAt := p } := by
  unfold reportProgress
  dsimp only
  split
  · exact ⟨_, _, rfl⟩
  · split
    · by_cases hk : (c', k) = (c, j)
      · obtain ⟨rfl, rfl⟩ := Prod.mk.inj hk
        exact ⟨_, _, (slotOf_congr (post_cores ..) _ _).trans (slotOf_onSlot ..)⟩
      · exact ⟨_, _, (slotOf_congr (post_cores ..) _ _).trans (slotOf_onSlot_ne _ _ _ _ hk)⟩
    · exact ⟨_, _, rfl⟩

theorem liftBeacon_slot (s : State) (c j c' k : Nat) :
    ∃ b told, slotOf (liftBeacon s c j) c' k = { slotOf s c' k with beacon := b, told := told } := by
  unfold liftBeacon
  dsimp only
  split
  · by_cases hk : (c', k) = (c, j)
    · obtain ⟨rfl, rfl⟩ := Prod.mk.inj hk
      exact ⟨_, _, (slotOf_congr (post_cores ..) _ _).trans (slotOf_onSlot ..)⟩
    · exact ⟨_, _, (slotOf_congr (post_cores ..) _ _).trans (slotOf_onSlot_ne _ _ _ _ hk)⟩
  · exact ⟨_, _, rfl⟩

/-! ## The whole of it -/

/-- What each step of the settling of a core keeps, its settling keeps. -/
theorem settleCore_induct {Q : State → Prop} {c : Nat} (hblock : ∀ t j, Q t → Q (settleBlock t c j))
    (hstop : ∀ t j, Q t → Q (settleStop t c j)) (hselect : ∀ t, Q t → Q (selectSlot t c))
    (hbeacon : ∀ t j, Q t → Q (settleBeacon t c j)) (hreport : ∀ t j, Q t → Q (reportProgress t c j false)) {s : State} (h : Q s) :
    Q (settleCore s c) := by
  have heach {g : Nat → State → State} (hg : ∀ j t, Q t → Q (g j t)) (l : List Nat) (t : State) (ht : Q t) : Q (each l t g) := by
    induction l generalizing t with
    | nil => exact ht
    | cons j l ih => exact ih _ (hg j t ht)
  unfold settleCore
  exact heach (fun j t ht => hreport _ _ (hbeacon _ _ ht)) _ _ (hselect _ (heach (fun j t ht => hstop _ _ (hblock _ _ ht)) _ _ h))

@[simp] theorem settleCore_lasting (s : State) (c c' k : Nat) : lasting (slotOf (settleCore s c) c' k) = lasting (slotOf s c' k) := by
  refine settleCore_induct (Q := fun t => lasting (slotOf t c' k) = lasting (slotOf s c' k)) ?_ ?_ ?_ ?_ ?_ rfl
  · intro t j ht
    obtain h | ⟨_, _, h⟩ := settleBlock_slot t c j c' k <;> rw [h] <;> exact ht
  · intro t j ht
    obtain h | ⟨_, h⟩ := settleStop_slot t c j c' k <;> rw [h] <;> exact ht
  · intro t ht
    obtain h | ⟨_, _, h⟩ := selectSlot_slot t c c' k <;> rw [h] <;> exact ht
  · intro t j ht
    obtain ⟨_, _, h⟩ := settleBeacon_slot t c j c' k
    rw [h]
    exact ht
  · intro t j ht
    obtain ⟨_, _, h⟩ := reportProgress_slot t c j false c' k
    rw [h]
    exact ht

/-- Of a slot that is not stopping, settling moves only a BLOCKED one that can go on, and a READY one that is selected. -/
theorem settleCore_state {s : State} {c c' k : Nat} {P : SlotState → Prop} (hstopping : (slotOf s c' k).stopping = false)
    (hP : P (slotOf s c' k).state) (hrun : P .ready → P .running)
    (hgo : ∀ t, coresRest t = coresRest s → lasting (slotOf t c' k) = lasting (slotOf s c' k) → (slotOf t c' k).state = .blocked →
      P .blocked → unblocked t c' k = true → P .ready) :
    P (slotOf (settleCore s c) c' k).state ∧ (slotOf (settleCore s c) c' k).stopping = false := by
  have hall := settleCore_induct (c := c) (Q := fun t => coresRest t = coresRest s ∧ lasting (slotOf t c' k) = lasting (slotOf s c' k) ∧
    (slotOf t c' k).stopping = false ∧ P (slotOf t c' k).state) ?_ ?_ ?_ ?_ ?_ ⟨rfl, rfl, hstopping, hP⟩
  · obtain ⟨_, _, hs, hp⟩ := hall
    exact ⟨hp, hs⟩
  · rintro t j ⟨hrest, hlast, hs, hp⟩
    have hrest' : coresRest (settleBlock t c j) = coresRest s := (settleBlock_coresRest ..).trans hrest
    obtain h | ⟨hb, hu, h⟩ := settleBlock_slot t c j c' k
    · rw [h]
      exact ⟨hrest', hlast, hs, hp⟩
    · rw [h]
      rw [hb] at hp
      exact ⟨hrest', hlast, hs, hgo t hrest hlast hb hp hu⟩
  · rintro t j ⟨hrest, hlast, hs, hp⟩
    have hrest' : coresRest (settleStop t c j) = coresRest s := (settleStop_coresRest ..).trans hrest
    obtain h | ⟨hs', h⟩ := settleStop_slot t c j c' k
    · rw [h]
      exact ⟨hrest', hlast, hs, hp⟩
    · rw [hs] at hs'
      exact nomatch hs'
  · rintro t ⟨hrest, hlast, hs, hp⟩
    have hrest' : coresRest (selectSlot t c) = coresRest s := (selectSlot_coresRest ..).trans hrest
    obtain h | ⟨hr, _, h⟩ := selectSlot_slot t c c' k
    · rw [h]
      exact ⟨hrest', hlast, hs, hp⟩
    · rw [h]
      rw [hr] at hp
      exact ⟨hrest', hlast, hs, hrun hp⟩
  · rintro t j ⟨hrest, hlast, hs, hp⟩
    obtain ⟨_, _, h⟩ := settleBeacon_slot t c j c' k
    rw [h]
    exact ⟨(settleBeacon_coresRest ..).trans hrest, hlast, hs, hp⟩
  · rintro t j ⟨hrest, hlast, hs, hp⟩
    obtain ⟨_, _, h⟩ := reportProgress_slot t c j false c' k
    rw [h]
    exact ⟨(reportProgress_coresRest ..).trans hrest, hlast, hs, hp⟩

/-- A slot in a state that no sequencer leaves stays in it. -/
theorem settleCore_stays {s : State} {c c' k : Nat} {st : SlotState} (hstopping : (slotOf s c' k).stopping = false)
    (hst : (slotOf s c' k).state = st) (hready : st ≠ .ready) (hblocked : st ≠ .blocked) :
    (slotOf (settleCore s c) c' k).state = st :=
  (settleCore_state (P := fun x => x = st) hstopping hst (fun h => absurd h.symm hready) (fun _ _ _ _ h _ => absurd h.symm hblocked)).1

/-- A BLOCKED slot whose step still waits stays BLOCKED. -/
theorem settleCore_blocked {s : State} {c c' k : Nat} (hstopping : (slotOf s c' k).stopping = false)
    (hst : (slotOf s c' k).state = .blocked)
    (hwaits : ∀ t, coresRest t = coresRest s → lasting (slotOf t c' k) = lasting (slotOf s c' k) → unblocked t c' k = false) :
    (slotOf (settleCore s c) c' k).state = .blocked :=
  (settleCore_state (P := fun x => x = .blocked) hstopping hst (fun h => nomatch h)
    (fun t hrest hlast _ _ hu => absurd hu (by rw [hwaits t hrest hlast]; decide))).1

end Sys2Proof.Machine
end

section
/-! Further parts of the state that operations leave as they were. -/

namespace Sys2Proof.Machine

@[simp] theorem post_slices (s : State) (m : Msg) : (post s m).slices = s.slices := by rfl

@[simp] theorem post_sup (s : State) (m : Msg) : (post s m).sup = s.sup := by rfl

@[simp] theorem reportProgress_slices (s : State) (c k : Nat) (moved : Bool) : (reportProgress s c k moved).slices = s.slices :=
    by
  grind [reportProgress, onSlot_slices, post_slices]

@[simp] theorem reportProgress_sup (s : State) (c k : Nat) (moved : Bool) : (reportProgress s c k moved).sup = s.sup := by
  grind [reportProgress, onSlot_sup, post_sup]

@[simp] theorem liftBeacon_slices (s : State) (c k : Nat) : (liftBeacon s c k).slices = s.slices := by
  grind [liftBeacon, onSlot_slices, post_slices]

@[simp] theorem liftBeacon_sup (s : State) (c k : Nat) : (liftBeacon s c k).sup = s.sup := by
  grind [liftBeacon, onSlot_sup, post_sup]

@[simp] theorem progress_slices (s : State) (c k : Nat) (flows : Bool) : (progress s c k flows).slices = s.slices := by
  unfold progress; split <;> simp

@[simp] theorem progress_sup (s : State) (c k : Nat) (flows : Bool) : (progress s c k flows).sup = s.sup := by
  unfold progress; split <;> simp

@[simp] theorem passStep_slices (s : State) (c k : Nat) (d : BitVec 512) (nxt : Nat) : (passStep s c k d nxt).slices = s.slices
    := by
  simp [passStep]

@[simp] theorem passStep_sup (s : State) (c k : Nat) (d : BitVec 512) (nxt : Nat) : (passStep s c k d nxt).sup = s.sup := by
  simp [passStep]

end Sys2Proof.Machine
end

section
/-! O41: the control steps and the end of a quantum. -/
namespace Sys2Proof.Machine
open Sys2Proof.Claims

/-- What a step to issue says of its core and slot. -/
theorem fetchStep_step {s : State} {c op k : Nat} {d : BitVec 512} (h : fetchStep s c op = .step k d) :
    coreRuns s c = true ∧ runningSlot s c = some k ∧ (slotOf s c k).ip < imStepCount (slotOf s c k).image ∧
      d = nextStep s c (slotOf s c k) ∧ fld d 0 8 = op := by
  unfold fetchStep at h
  dsimp only at h
  split at h
  · cases h
  · rename_i hruns
    split at h
    · cases h
    · rename_i j hj
      split at h
      · cases h
      · rename_i hip
        split at h
        · cases h
        · split at h
          · cases h
          · split at h
            · cases h
            · split at h
              · rename_i hop
                cases h
                exact ⟨by simpa using hruns, hj, Nat.lt_of_not_le hip, rfl, hop⟩
              · cases h

theorem running_of_runningSlot {s : State} {c k : Nat} (h : runningSlot s c = some k) : (slotOf s c k).state = .running := by
  have hk := List.mem_of_mem_head? h
  rw [slotsIn, List.mem_filter, decide_eq_true_eq] at hk
  exact hk.2

theorem seqRow_of_step {s : State} {c op k : Nat} {d : BitVec 512} (h : fetchStep s c op = .step k d) (f : Nat → BitVec 512 → State) :
    seqRow s c op f = settleCore (f k d) c := by
  rw [seqRow, h]

/-! ## The place of a slot in its steps -/

theorem of_lasting {β : Type} (P : Slot → β) (hP : ∀ v, P (lasting v) = P v) {v w : Slot} (h : lasting v = lasting w) : P v = P w :=
  (hP v).symm.trans ((congrArg P h).trans (hP w))

theorem nextStep_of_lasting {s t : State} {c k : Nat} (hrest : coresRest t = coresRest s)
    (h : lasting (slotOf t c k) = lasting (slotOf s c k)) : nextStep t c (slotOf t c k) = nextStep s c (slotOf s c k) := by
  have himage : (slotOf t c k).image = (slotOf s c k).image := of_lasting Slot.image (fun _ => rfl) h
  have hplace : (slotOf t c k).ip = (slotOf s c k).ip := of_lasting Slot.ip (fun _ => rfl) h
  rw [nextStep, coreRead, himage, hplace, mem_of_coresRest hrest, nextStep, coreRead]

@[simp] theorem settleCore_ip (s : State) (c c' k : Nat) : (slotOf (settleCore s c) c' k).ip = (slotOf s c' k).ip :=
  of_lasting Slot.ip (fun _ => rfl) (settleCore_lasting s c c' k)

@[simp] theorem settleCore_loops (s : State) (c c' k : Nat) : (slotOf (settleCore s c) c' k).loops = (slotOf s c' k).loops :=
  of_lasting Slot.loops (fun _ => rfl) (settleCore_lasting s c c' k)

theorem progress_slot (s : State) (c j : Nat) (flows : Bool) (c' k : Nat) :
    ∃ b told w p, slotOf (progress s c j flows) c' k = { slotOf s c' k with beacon := b, told := told, waits := w, progAt := p } := by
  obtain ⟨w, p, h⟩ := reportProgress_slot (if flows then liftBeacon s c j else s) c j true c' k
  obtain ⟨b, told, hb⟩ : ∃ b told, slotOf (if flows then liftBeacon s c j else s) c' k = { slotOf s c' k with beacon := b, told := told } := by
    split
    · exact liftBeacon_slot s c j c' k
    · exact ⟨_, _, rfl⟩
  refine ⟨b, told, w, p, h.trans ?_⟩
  rw [hb]

/-- A step that is passed folds into both signatures and goes to the next one (R734, R735). -/
theorem passStep_slot (s : State) (c k : Nat) (d : BitVec 512) (nxt : Nat) :
    ∃ b told w p, slotOf (passStep s c k d nxt) c k =
      { goTo (foldStep (slotOf s c k) d) nxt with beacon := b, told := told, waits := w, progAt := p } := by
  obtain ⟨b, told, w, p, h⟩ := progress_slot (onSlot s c k (fun v => goTo (foldStep v d) nxt)) c k true c k
  refine ⟨b, told, w, p, h.trans ?_⟩
  rw [slotOf_onSlot]

theorem passStep_state (s : State) (c k : Nat) (d : BitVec 512) (nxt : Nat) :
    let v := slotOf (passStep s c k d nxt) c k
    v.ip = nxt ∧ v.state = (slotOf s c k).state ∧ v.stopping = (slotOf s c k).stopping ∧ v.loops = (slotOf s c k).loops := by
  obtain ⟨_, _, _, _, h⟩ := passStep_slot s c k d nxt
  dsimp only
  rw [h]
  exact ⟨rfl, rfl, rfl, rfl⟩

/-- Passing a step keeps signatures that agree (R735). -/
theorem signaturesDiffer_passStep {s : State} {c k : Nat} (h : signaturesDiffer s c (slotOf s c k) = false) (d : BitVec 512) (nxt : Nat) :
    signaturesDiffer (passStep s c k d nxt) c (slotOf (passStep s c k d nxt) c k) = false := by
  have hchecked : checked (passStep s c k d nxt) c = checked s c := by
    rw [checked, modeOfCore, sliceOfCore, sliceOfRegion, passStep_slices, passStep_sup, checked, modeOfCore, sliceOfCore, sliceOfRegion]
  obtain ⟨_, _, _, _, hslot⟩ := passStep_slot s c k d nxt
  rw [signaturesDiffer, hchecked, hslot]
  rw [signaturesDiffer, Bool.and_eq_false_iff] at h
  rcases h with h | h
  · rw [h, Bool.false_and]
  · rw [decide_eq_false_iff_not, ne_eq, Classical.not_not] at h
    have hfold : (foldStep (slotOf s c k) d).sigSeq = (foldStep (slotOf s c k) d).sigMon := by
      simp only [foldStep, h]
    rw [Bool.and_eq_false_iff]
    exact .inr (decide_eq_false (not_not_intro hfold))

theorem giveUp_of_signed {s : State} {c k : Nat} (h : signaturesDiffer s c (slotOf s c k) = false) (st : SlotState) :
    giveUp s c k st = onSlot s c k (fun v => { v with state := st }) := by
  rw [giveUp, h]
  rfl

/-- The row of a step that ends with its core settled, over a state in which only cores, messages and counters moved. -/
theorem coresOnly_settle {s t : State} (h : coresRest t = coresRest s) (c : Nat) : CoresOnly s (settleCore t c) :=
  coresOnly_iff.mpr ((settleCore_coresRest t c).trans h)

section
variable {s : State} {c k : Nat} {d : BitVec 512}

/-- A row that passes its step. -/
theorem passRow_effect (nxt : Nat) :
    let t := settleCore (passStep s c k d nxt) c
    CoresOnly s t ∧ (slotOf t c k).ip = nxt ∧ (slotOf t c k).loops = (slotOf s c k).loops := by
  obtain ⟨hip, _, _, hloops⟩ := passStep_state s c k d nxt
  exact ⟨coresOnly_settle (passStep_coresRest ..) c, (settleCore_ip ..).trans hip, (settleCore_loops ..).trans hloops⟩

/-- A row that passes its step and gives up the core. -/
theorem passGiveUp (hsigned : signaturesDiffer s c (slotOf s c k) = false) (hstopping : (slotOf s c k).stopping = false)
    (nxt : Nat) (st : SlotState) :
    let t := giveUp (passStep s c k d nxt) c k st
    coresRest t = coresRest s ∧ (slotOf t c k).ip = nxt ∧ (slotOf t c k).state = st ∧ (slotOf t c k).stopping = false := by
  obtain ⟨hip, _, hstop, _⟩ := passStep_state s c k d nxt
  dsimp only
  rw [giveUp_of_signed (signaturesDiffer_passStep hsigned d nxt), onSlot_coresRest, slotOf_onSlot]
  exact ⟨passStep_coresRest .., hip, rfl, hstop.trans hstopping⟩

/-- A READY slot that its core settles is READY or selected. -/
theorem settleCore_ready {s : State} {c k : Nat} (hstopping : (slotOf s c k).stopping = false) (h : (slotOf s c k).state = .ready) :
    (slotOf (settleCore s c) c k).state = .ready ∨ (slotOf (settleCore s c) c k).state = .running :=
  (settleCore_state (P := fun x => x = .ready ∨ x = .running) hstopping (.inl h) (fun _ => .inr rfl)
    (fun _ _ _ hb h _ => by rcases h with h | h <;> exact nomatch h)).1

/-- A wait for what is issued stays while something is. -/
theorem unblocked_of_wait (hop : fld (nextStep s c (slotOf s c k)) 0 8 = 0x46) (hprimary : (slotOf s c k).primary = none)
    (hissued : (slotOf s c k).issued ≠ []) : unblocked s c k = false := by
  unfold unblocked
  dsimp only
  rw [hprimary, hop]
  cases hi : (slotOf s c k).issued with
  | nil => exact absurd hi hissued
  | cons i l =>
    rw [allDone, hi]
    simp

/-- A slot that gives up its core for a step that waits is BLOCKED at its place. -/
theorem settleCore_waits (hstopping : (slotOf s c k).stopping = false)
    (hwaits : ∀ t, coresRest t = coresRest s → lasting (slotOf t c k) = lasting (slotOf s c k) → unblocked t c k = false) :
    let t := settleCore (onSlot s c k (fun v => { v with state := .blocked })) c
    CoresOnly s t ∧ (slotOf t c k).ip = (slotOf s c k).ip ∧ (slotOf t c k).state = .blocked := by
  have hset : lasting (slotOf (onSlot s c k (fun v => { v with state := .blocked })) c k) = lasting (slotOf s c k) :=
    lasting_onSlot (f := fun v => { v with state := .blocked }) (fun _ => rfl) s c k c k
  have hstop : (slotOf (onSlot s c k (fun v => { v with state := .blocked })) c k).stopping = false := by
    rw [slotOf_onSlot]
    exact hstopping
  refine ⟨coresOnly_settle (onSlot_coresRest ..) c, ?_, settleCore_blocked hstop ?_ fun t hrest hlast =>
    hwaits t (hrest.trans (onSlot_coresRest ..)) (hlast.trans hset)⟩
  · rw [settleCore_ip, slotOf_onSlot]
  · rw [slotOf_onSlot]

/-- R254: the end of a quantum on a core that runs. -/
theorem quantumOver_of_end (hrunning : runningSlot s c = some k) (hruns : coreRuns s c = true)
    (hquantum : imQuantum (slotOf s c k).image ≠ 0) (hover : (slotOf s c k).since + imQuantum (slotOf s c k).image ≤ computeNow s c) :
    quantumOver s c =
      if computeNow s c = (slotOf s c k).since + imQuantum (slotOf s c k).image && wouldBlock s c k then settleCore (giveUp s c k .blocked) c
      else if (slotsIn s c .ready).any (fun j => !(slotOf s c j).stopping) then settleCore (giveUp s c k .ready) c
      else onSlot s c k (fun v => { v with since := v.since + imQuantum (slotOf s c k).image }) := by
  unfold quantumOver
  rw [hrunning]
  dsimp only
  rw [if_neg (by simp [hquantum, hruns, windowOver, hover])]

end

/-- Settles O41. -/
theorem controlStepsMove : Obligations.ControlStepsMove := by
  intro s c k d hstopping hsigned
  refine ⟨fun hfetch hgood htarget => ?_, fun hfetch hgood htarget hcount => ?_, fun hfetch hgood => ⟨fun hnone => ?_, fun hsome hprimary => ?_⟩,
    fun hfetch hgood => ?_, fun hfetch hgood => ?_, fun hpast => ?_, fun hrunning hruns hquantum hover =>
      ⟨fun hblock hother => ?_, fun hblock hother => ?_, fun hblock hnow => ?_⟩⟩
  · have hrow : seqRow s c 0x45 (jumpStep s c) = settleCore (passStep s c k d (qTarget d)) c := by
      rw [seqRow_of_step hfetch, jumpStep]
      rw [hgood, if_neg (by decide), if_neg (by omega)]
    exact ⟨_, congrArg Host.Outcome.next hrow, passRow_effect _⟩
  · have hrow : seqRow s c 0x44 (loopStep s c) = settleCore (passStep (onSlot s c k (fun v => { v with
        loops := put v.loops (qSel d) (loopNext (slotOf s c k) d).1
        monLoops := put v.monLoops (qSel d) (loopNext (slotOf s c k) d).1 })) c k d (loopNext (slotOf s c k) d).2) c := by
      rw [seqRow_of_step hfetch, loopStep]
      dsimp only
      rw [hgood, if_neg (by decide), if_neg (by simp; omega)]
    obtain ⟨honly, hip, hloops⟩ := passRow_effect (s := onSlot s c k (fun v => { v with
        loops := put v.loops (qSel d) (loopNext (slotOf s c k) d).1
        monLoops := put v.monLoops (qSel d) (loopNext (slotOf s c k) d).1 })) (c := c) (k := k) (d := d) (loopNext (slotOf s c k) d).2
    rw [slotOf_onSlot] at hloops
    refine ⟨_, congrArg Host.Outcome.next hrow, honly, fun hless => ?_, fun hmore => ?_⟩
    · rw [hip, hloops, loopNext, if_pos hless]
      exact ⟨rfl, look_put_same ..⟩
    · rw [hip, hloops, loopNext, if_neg (by omega)]
      exact ⟨rfl, look_put_same ..⟩
  · have hrow : seqRow s c 0x46 (waitStep s c) = settleCore (passStep s c k d ((slotOf s c k).ip + 1)) c := by
      rw [seqRow_of_step hfetch, waitStep]
      rw [hgood, if_neg (by decide), hsigned, if_neg (by decide), allDone, hnone]
      rfl
    obtain ⟨honly, hip, _⟩ := passRow_effect (s := s) (c := c) (k := k) (d := d) ((slotOf s c k).ip + 1)
    exact ⟨_, congrArg Host.Outcome.next hrow, honly, hip⟩
  · obtain ⟨_, _, _, hd, hop⟩ := fetchStep_step hfetch
    have hrow : seqRow s c 0x46 (waitStep s c) = settleCore (onSlot s c k (fun v => { v with state := .blocked })) c := by
      rw [seqRow_of_step hfetch, waitStep]
      rw [hgood, if_neg (by decide), hsigned, if_neg (by decide), if_neg (by rw [allDone, List.isEmpty_iff]; exact hsome),
        giveUp_of_signed hsigned]
    refine ⟨_, congrArg Host.Outcome.next hrow, settleCore_waits hstopping fun t hrest hlast => ?_⟩
    have hissued : (slotOf t c k).issued = (slotOf s c k).issued := of_lasting Slot.issued (fun _ => rfl) hlast
    refine unblocked_of_wait ?_ ((of_lasting Slot.primary (fun _ => rfl) hlast).trans hprimary) (by rw [hissued]; exact hsome)
    rw [nextStep_of_lasting hrest hlast, ← hd, hop]
  · have hrow : seqRow s c 0x47 (yieldStep s c) = settleCore (giveUp (passStep s c k d ((slotOf s c k).ip + 1)) c k .ready) c := by
      rw [seqRow_of_step hfetch, yieldStep]
      rw [hgood, if_neg (by decide)]
    obtain ⟨hrest, hip, hstate, hstop⟩ := passGiveUp (d := d) hsigned hstopping ((slotOf s c k).ip + 1) .ready
    exact ⟨_, congrArg Host.Outcome.next hrow, coresOnly_settle hrest c, (settleCore_ip ..).trans hip, settleCore_ready hstop hstate⟩
  · have hrow : haltRow s c = settleCore (giveUp (passStep s c k d ((slotOf s c k).ip + 1)) c k .halted) c := by
      rw [haltRow, hfetch]
      dsimp only
      rw [haltStep]
      rw [hgood, if_neg (by decide)]
    obtain ⟨hrest, hip, hstate, hstop⟩ := passGiveUp (d := d) hsigned hstopping ((slotOf s c k).ip + 1) .halted
    exact ⟨_, congrArg Host.Outcome.next hrow, coresOnly_settle hrest c, (settleCore_ip ..).trans hip,
      settleCore_stays hstop hstate (by decide) (by decide)⟩
  · have hrow : haltRow s c = settleCore (onSlot s c k (fun v => { v with state := .halted })) c := by
      rw [haltRow, hpast]
      dsimp only
      rw [giveUp_of_signed hsigned]
    refine ⟨_, congrArg Host.Outcome.next hrow, coresOnly_settle (onSlot_coresRest ..) c,
      settleCore_stays ?_ ?_ (by decide) (by decide)⟩
    · rw [slotOf_onSlot]
      exact hstopping
    · rw [slotOf_onSlot]
  · have hact : quantumOver s c = settleCore (onSlot s c k (fun v => { v with state := .ready })) c := by
      rw [quantumOver_of_end hrunning hruns hquantum hover, hblock, Bool.and_false, if_neg (by decide), if_pos hother,
        giveUp_of_signed hsigned]
    have hstop : (slotOf (onSlot s c k (fun v => { v with state := .ready })) c k).stopping = false := by
      rw [slotOf_onSlot]
      exact hstopping
    refine ⟨_, congrArg Host.Outcome.next hact, coresOnly_settle (onSlot_coresRest ..) c, ?_, settleCore_ready hstop ?_, rfl⟩
    · rw [settleCore_ip, slotOf_onSlot]
    · rw [slotOf_onSlot]
  · have hact : quantumOver s c = onSlot s c k (fun v => { v with since := v.since + imQuantum (slotOf s c k).image }) := by
      rw [quantumOver_of_end hrunning hruns hquantum hover, hblock, Bool.and_false, if_neg (by decide), hother, if_neg (by decide)]
    exact ⟨_, congrArg Host.Outcome.next hact, slotOf_onSlot .., rfl⟩
  · have hact : quantumOver s c = settleCore (onSlot s c k (fun v => { v with state := .blocked })) c := by
      rw [quantumOver_of_end hrunning hruns hquantum hover, hblock, Bool.and_true, if_pos (decide_eq_true hnow), giveUp_of_signed hsigned]
    exact congrArg Host.Outcome.next hact

end Sys2Proof.Machine
end

section
/-! Further parts of the state that operations leave as they were. -/

namespace Sys2Proof.Machine

@[simp] theorem post_regions (s : State) (m : Msg) : (post s m).regions = s.regions := by rfl

@[simp] theorem setConf_regions (s : State) (h config : Nat) (v : Conf) : (setConf s h config v).regions = s.regions := by
  unfold setConf; split <;> simp

@[simp] theorem dropWindow_regions (s : State) (c k : Nat) : (dropWindow s c k).regions = s.regions := by
  grind [dropWindow, setConf_regions]

@[simp] theorem reportProgress_regions (s : State) (c k : Nat) (moved : Bool) : (reportProgress s c k moved).regions = s.regions
    := by
  grind [reportProgress, onSlot_regions, post_regions]

@[simp] theorem selectSlot_regions (s : State) (c : Nat) : (selectSlot s c).regions = s.regions := by
  grind [selectSlot, bump_regions, onSlot_regions, setCore_regions]

@[simp] theorem settleStop_regions (s : State) (c k : Nat) : (settleStop s c k).regions = s.regions := by
  grind [settleStop, dropWindow_regions, onSlot_regions]

@[simp] theorem settleBlock_regions (s : State) (c k : Nat) : (settleBlock s c k).regions = s.regions := by
  unfold settleBlock; split <;> simp

@[simp] theorem settleBeacon_regions (s : State) (c k : Nat) : (settleBeacon s c k).regions = s.regions := by
  grind [settleBeacon, onSlot_regions, post_regions]

@[simp] theorem settleCore_regions (s : State) (c : Nat) : (settleCore s c).regions = s.regions := by
  simp [settleCore, each_keeps State.regions]

end Sys2Proof.Machine
end

section
/-! O46: what ends a synchronisation operation, with the rules of narrow messages and of a slot that faults. -/
namespace Sys2Proof.Machine
open Sys2Proof.Claims

/-! ## A message that has arrived -/

theorem takeMsg_eq {s t : State} {i : Nat} {m : Msg} (h : takeMsg s i = some (m, t)) : s.narrow[i]? = some m ∧ t = withoutMsg s i := by
  unfold takeMsg at h
  split at h
  · cases h
  · rename_i x hx
    split at h
    · cases h
    · cases h
      exact ⟨hx, rfl⟩

theorem onMsg_of_take {s t u : State} {i : Nat} {m : Msg} {f : Msg → State → Option State} (h : takeMsg s i = some (m, t))
    (hf : f m t = some u) : onMsg s i f = departs u m := by
  unfold onMsg
  rw [h]
  dsimp only
  rw [hf]
  rfl

/-- Only a user message has a sender that waits for it to leave. -/
theorem departs_of_untagged {m : Msg} (h : tagOfBody m.body = none) (s : State) : departs s m = s := by
  unfold departs
  split
  · unfold sendDone
    rw [h]
    rfl
  · rfl

theorem onMsg_untagged {s t u : State} {i : Nat} {m : Msg} {f : Msg → State → Option State} (h : takeMsg s i = some (m, t))
    (hf : f m t = some u) (htag : tagOfBody m.body = none) : onMsg s i f = u :=
  (onMsg_of_take h hf).trans (departs_of_untagged htag u)

/-- The row of a message that has no waiting sender. -/
theorem exec_of_take {x : Instr} {s t u : State} {i : Nat} {m : Msg} {f : Msg → State → Option State}
    (hexec : exec x s = .next (onMsg s i f)) (h : takeMsg s i = some (m, t)) (hf : f m t = some u) (htag : tagOfBody m.body = none) :
    exec x s = .next u :=
  hexec.trans (congrArg Host.Outcome.next (onMsg_untagged h hf htag))

theorem slotOf_withoutMsg (s : State) (i c k : Nat) : slotOf (withoutMsg s i) c k = slotOf s c k := rfl

/-! ## Messages that stay under way -/

theorem post_narrow (s : State) (x : Msg) {m : Msg} (hm : m ∈ s.narrow) : m ∈ (post s x).narrow := List.mem_append_left _ hm

theorem reportProgress_narrow (s : State) (c k : Nat) (moved : Bool) {m : Msg} (hm : m ∈ s.narrow) :
    m ∈ (reportProgress s c k moved).narrow := by
  unfold reportProgress
  dsimp only
  split
  · exact hm
  · split
    · exact post_narrow _ _ hm
    · exact hm

theorem settleCore_narrow (s : State) (c : Nat) {m : Msg} (hm : m ∈ s.narrow) : m ∈ (settleCore s c).narrow := by
  refine settleCore_induct (Q := fun t => m ∈ t.narrow) ?_ ?_ ?_ ?_ ?_ hm
  · intro t j ht
    unfold settleBlock
    split <;> exact ht
  · intro t j ht
    have hdrop : (dropWindow t c j).narrow = t.narrow := by
      unfold dropWindow setConf
      grind [setSlice_narrow]
    unfold settleStop
    dsimp only
    split
    · rw [onSlot_narrow, hdrop]
      exact ht
    · exact ht
  · intro t ht
    unfold selectSlot
    split
    · exact ht
    · split
      · exact ht
      · dsimp only
        rw [onSlot_narrow, setCore_narrow]
        split <;> exact ht
  · intro t j ht
    unfold settleBeacon
    dsimp only
    split
    · exact ht
    · exact post_narrow _ _ ht
  · exact fun t j ht => reportProgress_narrow _ _ _ _ ht

/-! ## A slot that faults, R323 and R688 -/

theorem closeEnds_slot (s : State) (c j c' k : Nat) : slotOf (closeEnds s c j) c' k = slotOf s c' k := by
  unfold closeEnds
  by_cases h : c' = c
  · subst h
    rw [slotOf, coreOf_setCore]
    rfl
  · rw [slotOf, coreOf_setCore_ne _ _ h, slotOf]

theorem faultSlot_slot (s : State) (c k : Nat) :
    slotOf (faultSlot s c k) c k = { slotOf s c k with state := .faulted, stopping := false, twinWait := [] } := by
  rw [faultSlot, slotOf_onSlot, closeEnds_slot, slotOf_congr (dropWindow_cores ..)]

/-- A record notes nothing in a slot but itself. -/
theorem writeRecord_slot (s : State) (c j r c' k : Nat) :
    ∃ lost last, slotOf (writeRecord s c j r) c' k = { slotOf s c' k with errLost := lost, lastErr := last } := by
  have hon (t : State) (ht : t.cores = s.cores) (f : Slot → Slot)
      (hf : ∀ v, ∃ lost last, f v = { v with errLost := lost, lastErr := last }) :
      ∃ lost last, slotOf (onSlot t c j f) c' k = { slotOf s c' k with errLost := lost, lastErr := last } := by
    by_cases hk : (c', k) = (c, j)
    · obtain ⟨rfl, rfl⟩ := Prod.mk.inj hk
      obtain ⟨lost, last, h⟩ := hf (slotOf t c' k)
      refine ⟨lost, last, (slotOf_onSlot ..).trans (h.trans ?_)⟩
      rw [slotOf_congr ht]
    · exact ⟨_, _, (slotOf_onSlot_ne _ _ _ _ hk).trans (slotOf_congr ht _ _)⟩
  unfold writeRecord
  dsimp only
  split
  · exact hon _ (bump_cores ..) _ fun v => ⟨true, BitVec.ofNat 256 r, rfl⟩
  · exact hon _ ((coreWrite_cores ..).trans (coreWrite_cores ..)) _ fun v => ⟨false, BitVec.ofNat 256 r, rfl⟩

theorem reportError_slot (s : State) (c j kind cause unit step row col : Nat) (et : Int) (detail c' k : Nat) :
    ∃ lost last, slotOf (reportError s c j kind cause unit step row col et detail) c' k =
      { slotOf s c' k with errLost := lost, lastErr := last } :=
  writeRecord_slot ..

/-- A slot that is faulted with a record. -/
theorem faultRecord_slot (s : State) (c k cause unit' addr kind cause' unit step row col : Nat) (et : Int) (detail : Nat) :
    let v := slotOf (reportError (faultSlot (noteFault s c k cause unit' addr) c k) c k kind cause' unit step row col et detail) c k
    v.state = .faulted ∧ v.stopping = false ∧ v.ip = (slotOf s c k).ip ∧ v.twin = (slotOf s c k).twin := by
  obtain ⟨_, _, h⟩ := reportError_slot (faultSlot (noteFault s c k cause unit' addr) c k) c k kind cause' unit step row col et detail c k
  dsimp only
  rw [h, faultSlot_slot, noteFault, slotOf_onSlot]
  exact ⟨rfl, rfl, rfl, rfl⟩

/-! ## Results, R329 -/

@[simp] theorem settleCore_issued (s : State) (c c' k : Nat) : (slotOf (settleCore s c) c' k).issued = (slotOf s c' k).issued :=
  of_lasting Slot.issued (fun _ => rfl) (settleCore_lasting s c c' k)

theorem forwardStep_of_single {s : State} {c k : Nat} (h : (slotOf s c k).twin = none) (step : Nat) : forwardStep s c k step = s := by
  rw [forwardStep, h]

theorem mem_of_look? {α : Type} {t : Tab α} {k : Nat} {v : α} (h : look? t k = some v) : (k, v) ∈ t := by
  induction t with
  | nil => cases h
  | cons e t ih =>
    obtain ⟨x, w⟩ := e
    unfold look? at h
    split at h
    · rename_i hx
      cases h
      rw [hx]
      exact List.mem_cons_self
    · exact List.mem_cons_of_mem _ (ih h)

/-- A core without a twin has no slot with one. -/
theorem twin_of_twinCore {s : State} {c : Nat} (h : twinCore s c = none) (k : Nat) : (slotOf s c k).twin = none := by
  have hall : ∀ e ∈ (coreOf s c).slots, e.2.twin = none := by
    have hnil := List.head?_eq_none_iff.mp h
    intro e he
    have hmap := List.filterMap_eq_nil_iff.mp hnil e he
    simpa using hmap
  unfold slotOf look
  cases hv : look? (coreOf s c).slots k with
  | none => rfl
  | some v => exact hall _ (mem_of_look? hv)

theorem outsideWrite_single {s : State} {c : Nat} (h : twinCore s c = none) (off : Nat) (l : List Byte) (mask : List Bool) :
    outsideWrite s c off l mask = { s with mem := writePoison s.mem (corePhys c off) l mask } := by
  rw [outsideWrite, h]

/-- The state in which the result of an operation is written and the operation no longer outstanding. -/
def syncWritten (s : State) (c k : Nat) (y : SyncOut) (status : Nat) (word : Reg) : State :=
  onSlot (outsideWrite s c y.result (resultRecord status word) []) c k (fun v => { v with syncs := v.syncs.eraseP (· = y) })

/-- The step a slot issued an operation with. -/
def stepOfSync (s : State) (c k : Nat) (y : SyncOut) : BitVec 512 :=
  recordOf 512 (coreRead s c (imStepBase (slotOf s c k).image + 64 * y.step) 64)

/-- A step that has waited is passed by a slot that is READY for it. -/
def waited (v : Slot) (d : BitVec 512) (nxt : Nat) : Slot :=
  { goTo (foldStep v d) nxt with state := if v.state = .blocked then .ready else v.state }

theorem finishSync_eq (s : State) (c k : Nat) (y : SyncOut) (status : Nat) (word : Reg) :
    finishSync s c k y status word =
      let w := syncWritten s c k y status word
      settleCore (forwardStep (if 2 ≤ status then syncError w c k y (stepOfSync s c k y) status
        else if 7 ≤ y.op then progress (onSlot w c k (fun v => waited v (stepOfSync s c k y) (y.step + 1))) c k true
        else completeStep w c k y.step) c k y.step) c := by
  rfl

theorem syncWritten_slot (s : State) (c k : Nat) (y : SyncOut) (status : Nat) (word : Reg) :
    slotOf (syncWritten s c k y status word) c k = { slotOf s c k with syncs := (slotOf s c k).syncs.eraseP (· = y) } := by
  have hcores : (outsideWrite s c y.result (resultRecord status word) []).cores = s.cores := by
    unfold outsideWrite
    dsimp only
    split <;> rfl
  rw [syncWritten, slotOf_onSlot, slotOf_congr hcores]

theorem syncWritten_mem {s : State} {c : Nat} (hsingle : twinCore s c = none) (k : Nat) (y : SyncOut) (status : Nat) (word : Reg) :
    (syncWritten s c k y status word).mem = writePoison s.mem (corePhys c y.result) (resultRecord status word) [] := by
  rw [syncWritten, outsideWrite_single hsingle, onSlot_mem]

/-- A step that completes leaves its slot without it. -/
theorem completeStep_slot (s : State) (c k step : Nat) :
    ∃ b told w p, slotOf (completeStep s c k step) c k = { slotOf s c k with
      issued := (slotOf s c k).issued.eraseP (fun i => i.step = step), beacon := b, told := told, waits := w, progAt := p } := by
  obtain ⟨b, told, w, p, h⟩ := progress_slot (onSlot s c k (fun v => { v with
    issued := v.issued.eraseP (fun i => i.step = step) })) c k false c k
  refine ⟨b, told, w, p, h.trans ?_⟩
  rw [slotOf_onSlot]

/-- An operation that ends with status 0 or 1 writes its result; one that does not wait is over, and one that waits goes on. -/
theorem finishSync_low {s : State} {c : Nat} (hsingle : twinCore s c = none) (k : Nat) (y : SyncOut) {status : Nat} (hstatus : status < 2)
    (word : Reg) :
    let u := finishSync s c k y status word
    u.mem = writePoison s.mem (corePhys c y.result) (resultRecord status word) [] ∧
      (y.op < 7 → (slotOf u c k).ip = (slotOf s c k).ip ∧
        (slotOf u c k).issued = (slotOf s c k).issued.eraseP (fun x => x.step = y.step)) ∧
      (7 ≤ y.op → (slotOf u c k).ip = y.step + 1 ∧ (slotOf u c k).issued = (slotOf s c k).issued) := by
  have hmem := syncWritten_mem hsingle k y status word
  have hslot := syncWritten_slot s c k y status word
  have htwin := twin_of_twinCore hsingle k
  rw [finishSync_eq]
  dsimp only
  generalize syncWritten s c k y status word = w at *
  rw [if_neg (by omega)]
  by_cases hop : 7 ≤ y.op
  · rw [if_pos hop]
    obtain ⟨_, _, _, _, h⟩ := progress_slot (onSlot w c k (fun v => waited v (stepOfSync s c k y) (y.step + 1))) c k true c k
    rw [slotOf_onSlot] at h
    have hone : (slotOf (progress (onSlot w c k (fun v => waited v (stepOfSync s c k y) (y.step + 1))) c k true) c k).twin = none := by
      rw [h, hslot]
      exact htwin
    rw [forwardStep_of_single hone, settleCore_ip, settleCore_issued, h, hslot]
    refine ⟨?_, fun hlow => absurd hop (by omega), fun _ => ⟨rfl, rfl⟩⟩
    rw [mem_of_coresRest (settleCore_coresRest ..), mem_of_coresRest (progress_coresRest ..), onSlot_mem, hmem]
  · rw [if_neg hop]
    obtain ⟨_, _, _, _, h⟩ := completeStep_slot w c k y.step
    have hone : (slotOf (completeStep w c k y.step) c k).twin = none := by
      rw [h, hslot]
      exact htwin
    rw [forwardStep_of_single hone, settleCore_ip, settleCore_issued, h, hslot]
    refine ⟨?_, fun _ => ⟨rfl, rfl⟩, fun hhigh => absurd hhigh hop⟩
    rw [mem_of_coresRest (settleCore_coresRest ..), mem_of_coresRest (completeStep_coresRest ..), hmem]

/-- An operation that ends with another status stops its slot. -/
theorem finishSync_high {s : State} {c k : Nat} (hsingle : (slotOf s c k).twin = none) (y : SyncOut) {status : Nat} (hstatus : 2 ≤ status)
    (word : Reg) : (slotOf (finishSync s c k y status word) c k).state = .faulted := by
  have hslot := syncWritten_slot s c k y status word
  rw [finishSync_eq]
  dsimp only
  generalize syncWritten s c k y status word = w at *
  rw [if_pos hstatus, syncError]
  generalize hdetail : status + bn y.remote * 2 ^ 8 + syModule (stepOfSync s c k y) * 2 ^ 9 + syRegion (stepOfSync s c k y) * 2 ^ 23 +
    syIndex (stepOfSync s c k y) * 2 ^ 29 = detail
  obtain ⟨hstate, hstop, _, htwin⟩ := faultRecord_slot w c k 0x54 2 0 6 0x54 c y.step 0 0 0 detail
  rw [hslot] at htwin
  rw [forwardStep_of_single (htwin.trans hsingle)]
  exact settleCore_stays hstop hstate (by decide) (by decide)

/-! ## A wait that is issued again, R336 -/

theorem signaturesDiffer_congr {s t : State} (hslices : t.slices = s.slices) (hsup : t.sup = s.sup) {c k : Nat}
    (hlast : lasting (slotOf t c k) = lasting (slotOf s c k)) :
    signaturesDiffer t c (slotOf t c k) = signaturesDiffer s c (slotOf s c k) := by
  have hseq : (slotOf t c k).sigSeq = (slotOf s c k).sigSeq := of_lasting Slot.sigSeq (fun _ => rfl) hlast
  have hmon : (slotOf t c k).sigMon = (slotOf s c k).sigMon := of_lasting Slot.sigMon (fun _ => rfl) hlast
  rw [signaturesDiffer, checked, modeOfCore, sliceOfCore, sliceOfRegion, hslices, hsup, hseq, hmon, signaturesDiffer, checked, modeOfCore,
    sliceOfCore, sliceOfRegion]

theorem freshTag_core (s : State) (c : Nat) : freshTag s (.coreCopy c) =
    ((coreOf s c).nextTag, setCore s c { coreOf s c with nextTag := ((coreOf s c).nextTag + 1) % 2 ^ 20 }) := rfl

theorem freshTag_slot (s : State) (c c' k : Nat) : slotOf (freshTag s (.coreCopy c)).2 c' k = slotOf s c' k := by
  rw [freshTag_core]
  by_cases h : c' = c
  · subst h
    rw [slotOf, coreOf_setCore, slotOf]
  · rw [slotOf, coreOf_setCore_ne _ _ h, slotOf]

/-- The request that a synchronisation step sends (R328). -/
def syncRequest (s : State) (c k : Nat) (d : BitVec 512) (m : Msg) : Prop :=
  m.src = c ∧ m.srcSlot = k ∧
    m.body = .syncReq (syRegion d) (syIndex d) (syOp d) (syA d) (syB d) (slotOf s c k).ip (coreOf s c).nextTag

/-- The state in which a synchronisation step has sent its request and is outstanding. -/
def syncIssued (s : State) (c k : Nat) (d : BitVec 512) : State :=
  sendSync (addSync (freshTag s (.coreCopy c)).2 c k (newSync s c (slotOf s c k) d (coreOf s c).nextTag)) c k (coreOf s c).nextTag d

theorem syncIssued_slot (s : State) (c k : Nat) (d : BitVec 512) :
    ∃ syncs, slotOf (syncIssued s c k d) c k = { slotOf s c k with syncs := syncs } := by
  rw [syncIssued, sendSync, slotOf_congr (post_cores _ _), addSync, slotOf_onSlot, freshTag_slot]
  exact ⟨_, rfl⟩

theorem syncIssued_coresRest (s : State) (c k : Nat) (d : BitVec 512) : coresRest (syncIssued s c k d) = coresRest s := by
  rw [syncIssued, sendSync_coresRest, addSync_coresRest, freshTag_core, setCore_coresRest]

theorem syncIssued_sends (s : State) (c k : Nat) (d : BitVec 512) : ∃ m ∈ (syncIssued s c k d).narrow, syncRequest s c k d m := by
  have hip : (slotOf (addSync (freshTag s (.coreCopy c)).2 c k (newSync s c (slotOf s c k) d (coreOf s c).nextTag)) c k).ip =
      (slotOf s c k).ip := by
    rw [addSync, slotOf_onSlot, freshTag_slot]
  refine ⟨_, List.mem_append_right _ (List.mem_singleton_self _), rfl, rfl, ?_⟩
  rw [hip]

theorem issueWait_eq (s : State) (c k : Nat) (d : BitVec 512) :
    issueWait s c k d = giveUp (progress (syncIssued s c k d) c k true) c k .blocked := by
  rfl

theorem sup_of_coresRest {s t : State} (h : coresRest t = coresRest s) : t.sup = s.sup :=
  (coresOnly_iff.mpr h ▸ rfl : t.sup = s.sup)

/-- What a synchronisation step moves on its way is its slot's notes. -/
theorem syncProgress_slot (s : State) (c k : Nat) (d : BitVec 512) :
    ∃ syncs b told w p, slotOf (progress (syncIssued s c k d) c k true) c k =
      { slotOf s c k with syncs := syncs, beacon := b, told := told, waits := w, progAt := p } := by
  obtain ⟨syncs, h⟩ := syncIssued_slot s c k d
  obtain ⟨b, told, w, p, hp⟩ := progress_slot (syncIssued s c k d) c k true c k
  refine ⟨syncs, b, told, w, p, hp.trans ?_⟩
  rw [h]

theorem progress_narrow (s : State) (c k : Nat) (flows : Bool) {m : Msg} (hm : m ∈ s.narrow) : m ∈ (progress s c k flows).narrow := by
  refine reportProgress_narrow _ _ _ _ ?_
  split
  · unfold liftBeacon
    dsimp only
    split
    · exact post_narrow _ _ hm
    · exact hm
  · exact hm

/-- A wait that is issued leaves its slot BLOCKED, with its request under way. -/
theorem issueWait_effect {s : State} {c k : Nat} (hsigned : signaturesDiffer s c (slotOf s c k) = false) (d : BitVec 512) :
    let t := issueWait s c k d
    coresRest t = coresRest s ∧ lasting (slotOf t c k) = lasting (slotOf s c k) ∧ (slotOf t c k).state = .blocked ∧
      (slotOf t c k).stopping = (slotOf s c k).stopping ∧ ∃ m ∈ t.narrow, syncRequest s c k d m := by
  have hrest := (progress_coresRest (syncIssued s c k d) c k true).trans (syncIssued_coresRest s c k d)
  obtain ⟨m, hm, hreq⟩ := syncIssued_sends s c k d
  have hnarrow := progress_narrow (syncIssued s c k d) c k true hm
  have hslices : (progress (syncIssued s c k d) c k true).slices = s.slices := progress_slices ..
  obtain ⟨_, _, _, _, _, hslot⟩ := syncProgress_slot s c k d
  rw [issueWait_eq]
  dsimp only
  generalize progress (syncIssued s c k d) c k true = t at *
  have hlast : lasting (slotOf t c k) = lasting (slotOf s c k) := by
    rw [hslot]
    rfl
  have hsup : t.sup = s.sup := sup_of_coresRest hrest
  rw [giveUp_of_signed ((signaturesDiffer_congr hslices hsup hlast).trans hsigned), onSlot_coresRest, slotOf_onSlot]
  refine ⟨hrest, hlast, rfl, ?_, m, hnarrow, hreq⟩
  rw [hslot]

/-! ## A cancel, R333 -/

theorem cancelArrives_effect {t : State} {m : Msg} {r x tag : Nat} (hbody : m.body = .cancel r x tag)
    (hany : (regOf t r).waits.any (fun p => p.core = m.src && p.slot = m.srcSlot && p.tag = tag) = true) :
    ∃ u, cancelArrives t m = u ∧ (regOf u r).waits =
      (regOf t r).waits.filter (fun p => !(p.core = m.src && p.slot = m.srcSlot && p.tag = tag)) ∧ u.mem = t.mem := by
  refine ⟨_, rfl, ?_⟩
  unfold cancelArrives
  rw [hbody]
  dsimp only
  rw [hany, if_pos rfl, Bool.true_and]
  generalize hv : setReg t r { regOf t r with
    waits := (regOf t r).waits.filter (fun p => !(p.core = m.src && p.slot = m.srcSlot && p.tag = tag)) } = v
  have hwaits : (regOf v r).waits = (regOf t r).waits.filter (fun p => !(p.core = m.src && p.slot = m.srcSlot && p.tag = tag)) := by
    rw [← hv, regOf_setReg]
  have hmem : v.mem = t.mem := by rw [← hv]; rfl
  generalize hw : (if (slotOf v m.src m.srcSlot).syncs.any (fun y => y.tag = tag) = true then onSlot v m.src m.srcSlot (fun w => { w with
      syncs := w.syncs.filter (fun y => y.tag ≠ tag), state := if w.state = .blocked then .ready else w.state }) else v) = w
  have hrest : coresRest w = coresRest v := by
    rw [← hw]
    split <;> rfl
  rw [mem_of_coresRest ((settleCore_coresRest ..).trans hrest), hmem, regOf, settleCore_regions]
  refine ⟨?_, rfl⟩
  have hregs : w.regions = v.regions := (coresOnly_iff.mpr hrest ▸ rfl : w.regions = v.regions)
  rw [hregs]
  exact hwaits

theorem retryWait_of_late {s : State} {c k : Nat} {y : SyncOut}
    (hy : (slotOf s c k).syncs.find? (fun y => y.retry && windowOver (computeNow s c) y.since (computeUs s c)) = some y)
    (hblocked : (slotOf s c k).state = .blocked) (hstopping : (slotOf s c k).stopping = false) (hruns : coreRuns s c = true) :
    retryWait s c k = settleCore (issueWait (onSlot (bump s ctrRegionRetries (syRegion (nextStep s c (slotOf s c k))) 1) c k
      (fun v => { v with syncs := v.syncs.eraseP (· = y) })) c k (nextStep s c (slotOf s c k))) c := by
  rw [retryWait, hy]
  dsimp only
  rw [if_neg (by simp [hblocked, hstopping, hruns])]

theorem remoteTimeout_of_late {s : State} {c k step : Nat} {y : SyncOut}
    (hy : (slotOf s c k).syncs.find? (fun y => y.remote && y.step = step && syncLate s c y) = some y) :
    remoteTimeout s c k step = finishSync (forgetSyncs (bump s ctrRegionRemoteTimeouts (regionOf c) 1) c k
      (fun n => n = y.tag)) c k y 5 0 := by
  rw [remoteTimeout, hy]

/-- Settles O46. -/
theorem syncOutcomes : Obligations.SyncOutcomes := by
  intro s t i c k step m
  refine ⟨fun htake tag status word hbody hkind => ?_, fun htake tag status word y hbody hkind hy => ⟨?_, fun hlow hsingle => ?_⟩,
    fun htake r x tag hbody hany => ?_, fun y hy hblocked hstopping hruns => ⟨?_, fun hsigned => ?_⟩, fun y hy => ⟨?_, fun hsingle => ?_⟩⟩
  · have harrives : responseArrives t m = postAnswered t (m.dst % 2 ^ 12) tag status := by
      rw [responseArrives, hbody]
      exact if_pos hkind
    exact exec_of_take rfl htake (by rw [hbody, harrives]) (by rw [hbody]; rfl)
  · have harrives : responseArrives t m = finishSync t m.dst m.dstSlot y status word := by
      rw [responseArrives, hbody]
      dsimp only
      rw [if_neg hkind, hy]
    exact exec_of_take rfl htake (by rw [hbody, harrives]) (by rw [hbody]; rfl)
  · have harrives : responseArrives t m = finishSync t m.dst m.dstSlot y status word := by
      rw [responseArrives, hbody]
      dsimp only
      rw [if_neg hkind, hy]
    have hsame : t = withoutMsg s i := (takeMsg_eq htake).2
    have hsingle' : twinCore t m.dst = none := by
      rw [hsame]
      exact hsingle
    obtain ⟨hmem, hless, hmore⟩ := finishSync_low hsingle' m.dstSlot y hlow word
    have hmem' : t.mem = s.mem := by rw [hsame]; rfl
    rw [hmem'] at hmem
    rw [show slotOf t m.dst m.dstSlot = slotOf s m.dst m.dstSlot by rw [hsame]; rfl] at hless hmore
    exact ⟨_, exec_of_take rfl htake (by rw [hbody, harrives]) (by rw [hbody]; rfl), hmem, hless, hmore⟩
  · have hsame : t = withoutMsg s i := (takeMsg_eq htake).2
    have hregs : t.regions = s.regions := by rw [hsame]; rfl
    have hmem : t.mem = s.mem := by rw [hsame]; rfl
    obtain ⟨u, hu, hwaits, hmem'⟩ := cancelArrives_effect hbody hany
    refine ⟨u, exec_of_take rfl htake (by rw [hbody, hu]) (by rw [hbody]; rfl), ?_, hmem'.trans hmem⟩
    rw [hwaits, regOf, hregs, regOf]
  · exact congrArg Host.Outcome.next (retryWait_of_late hy hblocked hstopping hruns)
  · have hact := retryWait_of_late hy hblocked hstopping hruns
    generalize hu : onSlot (bump s ctrRegionRetries (syRegion (nextStep s c (slotOf s c k))) 1) c k
        (fun v => { v with syncs := v.syncs.eraseP (· = y) }) = u at hact
    have hrest : coresRest u = coresRest s := by rw [← hu]; rfl
    have hslot : slotOf u c k = { slotOf s c k with syncs := (slotOf s c k).syncs.eraseP (· = y) } := by
      rw [← hu, slotOf_onSlot]
      rfl
    have htag : (coreOf u c).nextTag = (coreOf s c).nextTag := by
      rw [← hu, onSlot, setSlot, coreOf_setCore]
      rfl
    have hlast : lasting (slotOf u c k) = lasting (slotOf s c k) := by rw [hslot]; rfl
    have hsigned' : signaturesDiffer u c (slotOf u c k) = false :=
      (signaturesDiffer_congr (by rw [← hu]; rfl) (by rw [← hu]; rfl) hlast).trans hsigned
    obtain ⟨hrest', _, _, _, x, hx, hsrc, hsrcSlot, hbody⟩ := issueWait_effect hsigned' (nextStep s c (slotOf s c k))
    refine ⟨_, congrArg Host.Outcome.next hact, coresOnly_settle (hrest'.trans hrest) c, x, settleCore_narrow _ _ hx, hsrc, hsrcSlot, ?_⟩
    rw [hbody, hslot, htag]
  · exact congrArg Host.Outcome.next (remoteTimeout_of_late hy)
  · have hact := remoteTimeout_of_late hy
    have hq : quiet (finishSync (forgetSyncs (bump s ctrRegionRemoteTimeouts (regionOf c) 1) c k (fun n => n = y.tag)) c k y 5 0) =
        quiet s := by rw [finishSync_quiet, forgetSyncs_quiet, bump_quiet]
    exact ⟨_, congrArg Host.Outcome.next hact, finishSync_high (s := forgetSyncs (bump s ctrRegionRemoteTimeouts (regionOf c) 1) c k
      (fun n => n = y.tag)) hsingle y (by decide) 0, nv_of_quiet hq, frames_of_quiet hq⟩

end Sys2Proof.Machine
end

section
/-! O45: the sync.op rows send their request, and the die applies it and answers. -/
namespace Sys2Proof.Machine
open Sys2Proof.Claims

/-! ## Sending -/

section
variable {s : State} {c k op : Nat} {d : BitVec 512}

/-- A well-formed step of a slot without a twin sends its request: a wait gives up its core, any other goes on. -/
theorem syncIssue_of_step (h : SyncStep s c k op d) (hop : op < 0xB) :
    syncIssue s c op = settleCore (if 7 ≤ op then issueWait s c k d else issueSync s c k d) c := by
  obtain ⟨hfetch, hgood, hresult, hsame, hlocal, hfits, hprimary, htwin, hnone, _⟩ := h
  have hclear : ¬((slotOf s c k).syncs.any (fun y => y.step = (slotOf s c k).ip && 7 ≤ y.op && !y.retry)) = true := by
    intro hany
    obtain ⟨y, hy, hyp⟩ := List.any_eq_true.mp hany
    have hall := List.any_eq_false.mp hnone y hy
    simp only [Bool.and_eq_true] at hyp hall
    exact hall hyp.1
  unfold syncIssue
  rw [hfetch]
  dsimp only
  rw [hgood, hresult, if_neg (by decide), hsame, hlocal, if_neg (by simp; omega), if_neg (by simp; omega), if_neg (by simp), if_neg hclear,
    hprimary, if_neg (by simp), gate, hprimary, htwin]

theorem issueTo_slot (s : State) (c k : Nat) (d : BitVec 512) :
    ∃ b told w p, slotOf (issueTo s c k d) c k = { goTo (foldStep { slotOf s c k with
      issued := (slotOf s c k).issued ++ [{ step := (slotOf s c k).ip, op := fld d 0 8, done := 0 }] } d) ((slotOf s c k).ip + 1) with
      beacon := b, told := told, waits := w, progAt := p } := by
  obtain ⟨b, told, w, p, h⟩ := progress_slot (onSlot s c k (fun v => goTo (foldStep { v with
    issued := v.issued ++ [{ step := v.ip, op := fld d 0 8, done := 0 }] } d) (v.ip + 1))) c k true c k
  refine ⟨b, told, w, p, h.trans ?_⟩
  rw [slotOf_onSlot]

theorem issueTo_narrow (s : State) (c k : Nat) (d : BitVec 512) {m : Msg} (hm : m ∈ s.narrow) : m ∈ (issueTo s c k d).narrow :=
  progress_narrow _ _ _ _ hm

/-- A request of an object of the own module. -/
theorem issueSync_local (hlocal : syRemote d = false) : issueSync s c k d = issueTo (syncIssued s c k d) c k d := by
  unfold issueSync
  rw [hlocal]
  rfl

theorem syncRow_unsent (hunsent : syncSent s c op = none) (mismatch : Bool) : syncRow s c op mismatch = syncIssue s c op := by
  rw [syncRow, hunsent]

/-- An operation that does not wait goes on. -/
theorem syncRow_goes_on (h : SyncStep s c k op d) (hunsent : syncSent s c op = none) (hop : op < 7) :
    let t := syncRow s c op false
    CoresOnly s t ∧ (slotOf t c k).ip = (slotOf s c k).ip + 1 ∧ ∃ m ∈ t.narrow, syncRequest s c k d m := by
  obtain ⟨m, hm, hreq⟩ := syncIssued_sends s c k d
  have hrow : syncRow s c op false = settleCore (issueTo (syncIssued s c k d) c k d) c := by
    rw [syncRow_unsent hunsent, syncIssue_of_step h (by omega), if_neg (by omega), issueSync_local h.2.2.2.2.1]
  obtain ⟨_, _, _, _, hslot⟩ := issueTo_slot (syncIssued s c k d) c k d
  obtain ⟨_, hbefore⟩ := syncIssued_slot s c k d
  dsimp only
  rw [hrow]
  refine ⟨coresOnly_settle ((issueTo_coresRest ..).trans (syncIssued_coresRest ..)) c, ?_, m,
    settleCore_narrow _ _ (issueTo_narrow _ _ _ _ hm), hreq⟩
  rw [settleCore_ip, hslot, hbefore]
  rfl

/-- An operation that waits leaves its slot BLOCKED. -/
theorem syncRow_waits (h : SyncStep s c k op d) (hunsent : syncSent s c op = none) (hop : 7 ≤ op) (hlast : op < 0xB)
    (hstopping : (slotOf s c k).stopping = false) (htwins : (slotOf s c k).twinWait = []) :
    let t := syncRow s c op false
    CoresOnly s t ∧ (slotOf t c k).ip = (slotOf s c k).ip ∧ (slotOf t c k).state = .blocked ∧ ∃ m ∈ t.narrow, syncRequest s c k d m := by
  have hrow : syncRow s c op false = settleCore (issueWait s c k d) c := by
    rw [syncRow_unsent hunsent, syncIssue_of_step h hlast, if_pos hop]
  obtain ⟨hfetch, _, _, _, _, _, hprimary, _, _, hsigned⟩ := h
  obtain ⟨_, _, _, hd, hfld⟩ := fetchStep_step hfetch
  obtain ⟨hrest, hkept, hblocked, hstop, m, hm, hreq⟩ := issueWait_effect hsigned d
  dsimp only
  rw [hrow]
  refine ⟨coresOnly_settle hrest c, ?_, settleCore_blocked (hstop.trans hstopping) hblocked fun t hrest' hlast' => ?_, m,
    settleCore_narrow _ _ hm, hreq⟩
  · rw [settleCore_ip]
    exact of_lasting Slot.ip (fun _ => rfl) hkept
  · have hsame := hlast'.trans hkept
    have hone : (slotOf t c k).primary = none := (of_lasting Slot.primary (fun _ => rfl) hsame).trans hprimary
    have htw : (slotOf t c k).twinWait = [] := (of_lasting Slot.twinWait (fun _ => rfl) hsame).trans htwins
    have hop52 : fld (nextStep t c (slotOf t c k)) 0 8 = 0x52 := by
      rw [nextStep_of_lasting (hrest'.trans hrest) hsame, ← hd, hfld]
    unfold unblocked
    dsimp only
    rw [hone, hop52, twinLags, htw, twinAgrees, htw]
    rfl

end

/-! ## The arrival of a request -/

theorem arrived_ne {l : List Msg} {i : Nat} {m : Msg} (h : l[i]? = some m) {x : List Msg} (hx : m ∉ x) : l.eraseIdx i ++ x ≠ l := by
  intro he
  obtain ⟨hi, hm⟩ := List.getElem?_eq_some_iff.mp h
  have hperm : (l.eraseIdx i ++ x).Perm (l[i] :: l.eraseIdx i) := by
    rw [he]
    have hmid : (l.take i ++ l[i] :: l.drop (i + 1)).Perm (l[i] :: (l.take i ++ l.drop (i + 1))) := List.perm_middle
    rwa [List.getElem_cons_drop, List.take_append_drop, ← List.eraseIdx_eq_take_drop_succ] at hmid
  have hperm' : (l.eraseIdx i ++ x).Perm (l.eraseIdx i ++ [m]) := by
    rw [hm] at hperm
    exact hperm.trans (List.perm_append_singleton m _).symm
  exact hx ((List.perm_append_left_iff _).mp hperm' |>.symm.subset (List.mem_singleton_self m))

theorem syncSent_src {s t : State} {c op i : Nat} {m : Msg} (h : syncSent s c op = some i) (htake : takeMsg s i = some (m, t)) :
    m.src = c := by
  obtain ⟨hi, hp, _⟩ := List.findIdx?_eq_some_iff_getElem.mp h
  have hm : s.narrow[i] = m := List.getElem_eq_iff hi |>.mpr (takeMsg_eq htake).1
  rw [hm] at hp
  simp only [Bool.and_eq_true, decide_eq_true_eq] at hp
  exact hp.1

/-- A row whose request has arrived applies it. -/
theorem syncRow_applies {s u v : State} {c op i r j step tag : Nat} {a b : Reg} {m : Msg} (hsent : syncSent s c op = some i)
    (htake : takeMsg s i = some (m, u)) (hbody : m.body = .syncReq r j op a b step tag)
    (hv : applySync u m r j op a b step tag false = v) (hnarrow : ∃ l, v.narrow = u.narrow ++ l ∧ m ∉ l) :
    syncRow s c op false = v := by
  have harrives : syncArrives s i false = v := by
    refine onMsg_untagged htake ?_ (by rw [hbody]; rfl)
    rw [hbody]
    exact congrArg some hv
  obtain ⟨hm, hu⟩ := takeMsg_eq htake
  obtain ⟨l, hl, hml⟩ := hnarrow
  have hne : v.narrow ≠ s.narrow := by
    rw [hl, hu]
    exact arrived_ne hm hml
  rw [syncRow, hsent]
  dsimp only
  rw [harrives, if_neg hne]

/-! ## What it does to the word -/

/-- Word `j` of region `r` is `w` now, and every other word, memory and every core are as before. -/
def wordNow (s t : State) (r j : Nat) (w : Reg) : Prop :=
  syncWord t r j = w ∧ (∀ x, x ≠ j → syncWord t r x = syncWord s r x) ∧ t.mem = s.mem ∧ t.cores = s.cores

theorem setWord_unwatched {s : State} {r : Nat} (h : (regOf s r).waits = []) (j : Nat) (w : Reg) :
    setWord s r j w = setReg s r { regOf s r with sync := put (regOf s r).sync j w, waits := [] } := by
  simp only [setWord, h, wakeList]
  rfl

theorem setWord_effect {s : State} {r : Nat} (h : (regOf s r).waits = []) (j : Nat) (w : Reg) :
    wordNow s (setWord s r j w) r j w ∧ (regOf (setWord s r j w) r).waits = [] ∧ (setWord s r j w).narrow = s.narrow := by
  rw [setWord_unwatched h]
  refine ⟨⟨?_, fun x hx => ?_, rfl, rfl⟩, ?_, rfl⟩
  · rw [syncWord, regOf_setReg]
    exact look_put_same ..
  · rw [syncWord, regOf_setReg]
    exact look_put_ne _ _ _ hx
  · rw [regOf_setReg]

/-- The answer of an operation, as it goes out. -/
def answerSent (s : State) (r j c k tag status : Nat) (w : Reg) : Msg :=
  { src := r, srcSlot := objectPoint j, dst := c, dstSlot := k, body := .syncResp tag status w, gen := (slotOf s r (objectPoint j)).gen,
    place := none }

theorem answerSync_narrow (s : State) (r j c k tag status : Nat) (w : Reg) :
    (answerSync s r j c k tag status w).narrow = s.narrow ++ [answerSent s r j c k tag status w] := rfl

theorem answerSync_sends {s t : State} (h : t.narrow = s.narrow) (r j c k tag status : Nat) (w : Reg) :
    ∃ x, (answerSync t r j c k tag status w).narrow = s.narrow ++ [x] ∧ x.dst = c ∧ x.dstSlot = k ∧ x.body = .syncResp tag status w :=
  ⟨answerSent t r j c k tag status w, by rw [answerSync_narrow, h], rfl, rfl, rfl⟩

theorem syncApply_refused {op : Nat} {w a b : Reg} (h : (syncApply op w a b).2 ≠ 0) : (syncApply op w a b).1 = w := by
  revert h
  unfold syncApply
  dsimp only
  split
  · exact fun _ => rfl
  · split <;> grind

/-- An operation that does not wait, applied to a word that nobody waits for. -/
theorem applyAt_effect {s : State} {r : Nat} (hserves : regionServes s r = true) (hwaits : (regOf s r).waits = []) (j op : Nat) (a b : Reg) :
    let w := syncWord s r j
    let q := applyAt s r j op a b
    q.1 = w ∧ q.2.1 = (syncApply op w a b).2 ∧ wordNow s q.2.2 r j (syncApply op w a b).1 ∧ q.2.2.narrow = s.narrow := by
  have hcount : (regOf (bump s ctrRegionOps r 1) r).waits = [] := hwaits
  obtain ⟨⟨hword, hother, hmem, hcores⟩, _, hnarrow⟩ := setWord_effect hcount j (syncApply op (syncWord s r j) a b).1
  unfold applyAt
  rw [hserves, if_neg (by decide)]
  refine ⟨rfl, rfl, ?_, ?_⟩
  · dsimp only
    split
    · exact ⟨hword, hother, hmem, hcores⟩
    · rename_i hq
      have hsame : (syncApply op (syncWord s r j) a b).1 = syncWord s r j := by
        by_cases hstatus : (syncApply op (syncWord s r j) a b).2 = 0
        · have hop : op = 0 := by simpa [hstatus] using hq
          subst hop
          rfl
        · exact syncApply_refused hstatus
      exact ⟨hsame.symm, fun _ _ => rfl, rfl, rfl⟩
  · dsimp only
    split
    · exact hnarrow
    · rfl

/-- Every row of a synchronisation operation is the row of its number. -/
theorem exec_syncRow (c : Nat) (s : State) : ∀ e ∈ SyncRows c ++ WaitRows c ++ [(.syncOpArriveWait c, 9)],
    exec e.1 s = .next (syncRow s c e.2 false) ∧ e.2 < 0xB := by
  simp only [SyncRows, WaitRows, List.cons_append, List.nil_append, List.forall_mem_cons, List.not_mem_nil, false_imp_iff, implies_true,
    and_true]
  refine ⟨⟨rfl, ?_⟩, ⟨rfl, ?_⟩, ⟨rfl, ?_⟩, ⟨rfl, ?_⟩, ⟨rfl, ?_⟩, ⟨rfl, ?_⟩, ⟨rfl, ?_⟩, ⟨rfl, ?_⟩, ⟨rfl, ?_⟩, ⟨rfl, ?_⟩, rfl, ?_⟩ <;> decide

theorem syncRows_low {c : Nat} {e : Instr × Nat} (h : e ∈ SyncRows c) : e.2 < 7 := by
  simp only [SyncRows, List.mem_cons, List.not_mem_nil, or_false] at h
  rcases h with rfl | rfl | rfl | rfl | rfl | rfl | rfl <;> simp

theorem waitRows_high {c : Nat} {e : Instr × Nat} (h : e ∈ WaitRows c) : 7 ≤ e.2 ∧ e.2 ≠ 9 := by
  simp only [WaitRows, List.mem_cons, List.not_mem_nil, or_false] at h
  rcases h with rfl | rfl | rfl <;> simp

/-! ## Waits, R329 -/

theorem waitRoom_of_none {s : State} {r : Nat} (h : (regOf s r).waits = []) : waitRoom s r = true := by
  rw [waitRoom, h]
  rfl

theorem park_effect {s : State} {r : Nat} (h : (regOf s r).waits = []) (p : Parked) :
    let t := park s r p
    (regOf t r).waits = [p] ∧ (∀ x, syncWord t r x = syncWord s r x) ∧ t.mem = s.mem ∧ t.cores = s.cores ∧ t.narrow = s.narrow := by
  unfold park
  refine ⟨?_, fun x => ?_, rfl, rfl, rfl⟩
  · rw [regOf_setReg, h]
    rfl
  · rw [syncWord, regOf_setReg]
    rfl

/-- A wait on a word of its type: met, it is answered with the word found; else it parks with it. -/
theorem waitAt_effect {s : State} {r : Nat} (hserves : regionServes s r = true) (hwaits : (regOf s r).waits = []) (p : Parked)
    (hop : p.op ≠ 9) (htype : opType p.op = some (swType (syncWord s r p.index))) :
    let w := syncWord s r p.index
    (waitMet p.op w p.operand w = false → ∃ t, waitAt s r p = some t ∧ syncWord t r p.index = w ∧ (regOf t r).waits = [{ p with before := w }] ∧
      t.mem = s.mem ∧ t.cores = s.cores ∧ t.narrow = s.narrow) ∧
    (waitMet p.op w p.operand w = true → ∃ t, waitAt s r p = some t ∧ (regOf t r).waits = [] ∧ t.mem = s.mem ∧ t.cores = s.cores ∧
      syncWord t r p.index = (if p.op = 0xA then (syncApply 5 w p.operand 0).1 else w) ∧
      ∃ x, t.narrow = s.narrow ++ [x] ∧ x.dst = p.core ∧ x.dstSlot = p.slot ∧ x.body = .syncResp p.tag 0 w) := by
  have hcount : (regOf (bump s ctrRegionOps r 1) r).waits = [] := hwaits
  have hkind : ¬(opType p.op).any (· ≠ swType (syncWord s r p.index)) = true := by
    rw [htype]
    simp
  unfold waitAt
  dsimp only
  rw [hserves, if_neg (by decide), if_neg hkind, if_neg hop]
  refine ⟨fun hmet => ?_, fun hmet => ?_⟩
  · rw [hmet, if_neg (by decide), waitRoom_of_none hwaits, if_pos rfl]
    obtain ⟨hparked, hword, hmem, hcores, hnarrow⟩ := park_effect hcount { p with before := syncWord s r p.index }
    exact ⟨_, rfl, hword p.index, hparked, hmem, hcores, hnarrow⟩
  · rw [hmet, if_pos rfl]
    obtain ⟨⟨hword, _, hmem, hcores⟩, hnone, hnarrow⟩ := setWord_effect hcount p.index (syncApply 5 (syncWord s r p.index) p.operand 0).1
    refine ⟨_, rfl, ?_⟩
    by_cases htake : p.op = 0xA
    · rw [if_pos htake, if_pos htake]
      exact ⟨hnone, hmem, hcores, hword, answerSync_sends hnarrow ..⟩
    · rw [if_neg htake, if_neg htake]
      exact ⟨hcount, rfl, rfl, rfl, answerSync_sends rfl ..⟩

/-- An arrival turns the phase exactly when it is the last one. -/
theorem waitMet_arrive {w : Reg} (hw : swValid w = true) (htype : swType w = 2) :
    waitMet 9 (arriveWord w) 0 w = decide (bitsOf w.toNat 0 16 + 1 = bitsOf w.toNat 16 16) := by
  have hshort : bitsOf w.toNat 0 16 < bitsOf w.toNat 16 16 := by
    simp only [swValid, htype, Bool.and_eq_true, decide_eq_true_eq] at hw
    exact hw.2
  have htarget : bitsOf w.toNat 16 16 < 2 ^ 16 := Nat.mod_lt _ (by omega)
  have hphase : bitsOf w.toNat 32 16 < 2 ^ 16 := Nat.mod_lt _ (by omega)
  have hturn : (bitsOf w.toNat 32 16 + 1) % 65536 < 2 ^ 16 := Nat.mod_lt _ (by omega)
  have hmet : waitMet 9 (arriveWord w) 0 w = decide (bitsOf (arriveWord w).toNat 32 16 ≠ bitsOf w.toNat 32 16) := rfl
  rw [hmet, arriveWord]
  by_cases hlast : bitsOf w.toNat 0 16 + 1 = bitsOf w.toNat 16 16
  · rw [if_pos hlast, (barrierWord_fields (by omega) htarget hturn).2.2.2.1, decide_eq_true hlast, decide_eq_true_eq]
    omega
  · rw [if_neg hlast, (barrierWord_fields (by omega) htarget hphase).2.2.2.1, decide_eq_false hlast, decide_eq_false_iff_not, Classical.not_not]

/-- An arrive_wait arrives, and parks unless it turns the phase. -/
theorem waitAt_arrive {s : State} {r : Nat} (hserves : regionServes s r = true) (hwaits : (regOf s r).waits = []) (p : Parked)
    (hop : p.op = 9) (htype : swType (syncWord s r p.index) = 2) (hvalid : swValid (syncWord s r p.index) = true) :
    let w := syncWord s r p.index
    (bitsOf w.toNat 0 16 + 1 ≠ bitsOf w.toNat 16 16 → ∃ t, waitAt s r p = some t ∧ syncWord t r p.index = arriveWord w ∧
      (regOf t r).waits = [{ p with before := w }] ∧ t.mem = s.mem ∧ t.cores = s.cores ∧ t.narrow = s.narrow) ∧
    (bitsOf w.toNat 0 16 + 1 = bitsOf w.toNat 16 16 → ∃ t, waitAt s r p = some t ∧ syncWord t r p.index = arriveWord w ∧
      (regOf t r).waits = [] ∧ t.mem = s.mem ∧ t.cores = s.cores ∧
      ∃ x, t.narrow = s.narrow ++ [x] ∧ x.dst = p.core ∧ x.dstSlot = p.slot ∧ x.body = .syncResp p.tag 0 w) := by
  have hcount : (regOf (bump s ctrRegionOps r 1) r).waits = [] := hwaits
  have hkind : ¬(opType p.op).any (· ≠ swType (syncWord s r p.index)) = true := by
    rw [hop, htype]
    decide
  obtain ⟨⟨hword, _, hmem, hcores⟩, hnone, hnarrow⟩ := setWord_effect hcount p.index (arriveWord (syncWord s r p.index))
  unfold waitAt
  dsimp only
  rw [hserves, if_neg (by decide), if_neg hkind, if_pos hop, waitMet_arrive hvalid htype]
  refine ⟨fun hmore => ?_, fun hlast => ?_⟩
  · rw [if_neg (by rw [decide_eq_true_eq]; exact hmore), waitRoom_of_none hwaits, if_pos rfl]
    obtain ⟨hparked, hkept, hmem', hcores', hnarrow'⟩ := park_effect hnone { p with before := syncWord s r p.index }
    exact ⟨_, rfl, (hkept p.index).trans hword, hparked, hmem'.trans hmem, hcores'.trans hcores, hnarrow'.trans hnarrow⟩
  · rw [if_pos (decide_eq_true hlast)]
    exact ⟨_, rfl, hword, hnone, hmem, hcores, answerSync_sends hnarrow ..⟩

/-! ## The rows -/

section
variable {s u : State} {c op i r j step tag : Nat} {a b : Reg} {m : Msg}

/-- Where a request that has arrived finds its region. -/
theorem regOf_of_take (htake : takeMsg s i = some (m, u)) : regOf u r = regOf s r ∧ syncWord u r j = syncWord s r j ∧
    regionServes u r = regionServes s r ∧ u.mem = s.mem ∧ u.cores = s.cores := by
  rw [(takeMsg_eq htake).2]
  exact ⟨rfl, rfl, rfl, rfl, rfl⟩

theorem answer_ne_request {x : Msg} {tag' status : Nat} {w : Reg} (hbody : m.body = .syncReq r j op a b step tag)
    (hx : x.body = .syncResp tag' status w) : m ∉ [x] := by
  rw [List.mem_singleton]
  rintro rfl
  rw [hbody] at hx
  exact nomatch hx

theorem applySync_low (hop : op < 7) : applySync u m r j op a b step tag false =
    let q := applyAt u r j op a b
    answerSync q.2.2 r j m.src m.srcSlot tag q.2.1 q.1 := by
  rw [applySync, if_pos hop]
  rfl

theorem applySync_high (hop : 7 ≤ op) : applySync u m r j op a b step tag false =
    (waitAt u r { index := j, op := op, operand := a, before := 0, core := m.src, slot := m.srcSlot, step := step, tag := tag }).getD
      (refuseWait u m.src m.srcSlot tag) := by
  rw [applySync, if_neg (by omega)]

/-- The row of an operation that does not wait, once its request has arrived. -/
theorem syncRow_applied (hsent : syncSent s c op = some i) (htake : takeMsg s i = some (m, u))
    (hbody : m.body = .syncReq r j op a b step tag) (hserves : regionServes s r = true) (hwaits : (regOf s r).waits = []) (hop : op < 7) :
    let t := syncRow s c op false
    wordNow s t r j (syncApply op (syncWord s r j) a b).1 ∧
      ∃ x ∈ t.narrow, x.dst = c ∧ x.dstSlot = m.srcSlot ∧ x.body = .syncResp tag (syncApply op (syncWord s r j) a b).2 (syncWord s r j) := by
  obtain ⟨hreg, hword, hserve, hmem, hcores⟩ := regOf_of_take (r := r) (j := j) htake
  obtain ⟨hfound, hstatus, ⟨hnow, hother, hm, hc⟩, hnarrow⟩ := applyAt_effect (hserve.trans hserves) (by rw [hreg]; exact hwaits) j op a b
  obtain ⟨x, hx, hdst, hslot, hxbody⟩ := answerSync_sends hnarrow r j m.src m.srcSlot tag (applyAt u r j op a b).2.1 (applyAt u r j op a b).1
  have hrow := syncRow_applies hsent htake hbody (applySync_low hop) ⟨[x], hx, answer_ne_request hbody hxbody⟩
  rw [hword] at hnow hstatus hfound
  dsimp only
  rw [hrow]
  refine ⟨⟨hnow, fun y hy => ?_, hm.trans hmem, hc.trans hcores⟩, x, ?_, hdst.trans (syncSent_src hsent htake), hslot, ?_⟩
  · refine (hother y hy).trans ?_
    rw [syncWord, hreg, syncWord]
  · dsimp only
    rw [hx]
    exact List.mem_append_right _ (List.mem_singleton_self x)
  · rw [hxbody, hstatus, hfound]

/-- The row of an operation that waits, once its request has arrived. -/
theorem syncRow_waited {t : State} {l : List Msg} (hsent : syncSent s c op = some i) (htake : takeMsg s i = some (m, u))
    (hbody : m.body = .syncReq r j op a b step tag) (hop : 7 ≤ op)
    (hwait : waitAt u r { index := j, op := op, operand := a, before := 0, core := c, slot := m.srcSlot, step := step, tag := tag } = some t)
    (hnarrow : t.narrow = u.narrow ++ l) (hl : m ∉ l) : syncRow s c op false = t := by
  refine syncRow_applies hsent htake hbody ?_ ⟨l, hnarrow, hl⟩
  rw [applySync_high hop, syncSent_src hsent htake, hwait]
  rfl

end

/-- Settles O45. -/
theorem syncStepsAnswer : Obligations.SyncStepsAnswer := by
  intro s c op
  refine ⟨fun k d hstep hunsent hstopping htwins => ⟨fun e he hop => ?_, fun e he hop => ?_⟩,
    fun i r j step tag a b m u hsent htake hbody hserves hwaits => ⟨fun e he hop => ?_, fun e he hop htype => ⟨fun hmet => ?_, fun hmet => ?_⟩,
      fun hop htype hvalid => ⟨fun hmore => ?_, fun hlast => ?_⟩⟩⟩
  · obtain ⟨hexec, _⟩ := exec_syncRow c s e (List.mem_append_left _ (List.mem_append_left _ he))
    have hlow := syncRows_low he
    rw [hop] at hexec hlow
    obtain ⟨honly, hip, x, hx, hsrc, hslot, hreq⟩ := syncRow_goes_on hstep hunsent hlow
    refine ⟨_, hexec, honly, hip, x, hx, hsrc, hslot, ?_⟩
    rw [hreq, hstep.2.2.2.1]
  · have he' : e ∈ SyncRows c ++ WaitRows c ++ [(.syncOpArriveWait c, 9)] := by
      rw [List.append_assoc]
      exact List.mem_append_right _ he
    obtain ⟨hexec, hlast⟩ := exec_syncRow c s e he'
    have hhigh : 7 ≤ e.2 := by
      rcases List.mem_append.mp he with hw | hw
      · exact (waitRows_high hw).1
      · rw [List.mem_singleton.mp hw]
        exact (by decide : 7 ≤ 9)
    rw [hop] at hexec hhigh hlast
    obtain ⟨honly, hip, hblocked, x, hx, hsrc, hslot, hreq⟩ := syncRow_waits hstep hunsent hhigh hlast hstopping htwins
    refine ⟨_, hexec, honly, hip, hblocked, x, hx, hsrc, hslot, ?_⟩
    rw [hreq, hstep.2.2.2.1]
  · obtain ⟨hexec, _⟩ := exec_syncRow c s e (List.mem_append_left _ (List.mem_append_left _ he))
    have hlow := syncRows_low he
    rw [hop] at hexec hlow
    obtain ⟨⟨hword, hother, hmem, hcores⟩, hanswer⟩ := syncRow_applied hsent htake hbody hserves hwaits hlow
    exact ⟨_, hexec, hword, hother, hmem, hcores, hanswer⟩
  · obtain ⟨hexec, _⟩ := exec_syncRow c s e (List.mem_append_left _ (List.mem_append_right _ he))
    obtain ⟨hhigh, hnine⟩ := waitRows_high he
    rw [hop] at hexec hhigh hnine
    obtain ⟨hreg, hword, hserve, hmem, hcores⟩ := regOf_of_take (r := r) (j := j) htake
    rw [← hword] at hmet htype ⊢
    obtain ⟨t, hwait, hkept, hparked, hm, hc, hnarrow⟩ := (waitAt_effect (hserve.trans hserves) (by rw [hreg]; exact hwaits)
      { index := j, op := op, operand := a, before := 0, core := c, slot := m.srcSlot, step := step, tag := tag } hnine htype).1 hmet
    have hrow := syncRow_waited (l := []) hsent htake hbody hhigh hwait (by rw [hnarrow, List.append_nil]) List.not_mem_nil
    exact ⟨t, hexec.trans (congrArg Host.Outcome.next hrow), hkept, hparked, hm.trans hmem, hc.trans hcores⟩
  · obtain ⟨hexec, _⟩ := exec_syncRow c s e (List.mem_append_left _ (List.mem_append_right _ he))
    obtain ⟨hhigh, hnine⟩ := waitRows_high he
    rw [hop] at hexec hhigh hnine
    obtain ⟨hreg, hword, hserve, hmem, hcores⟩ := regOf_of_take (r := r) (j := j) htake
    rw [← hword] at hmet htype ⊢
    obtain ⟨t, hwait, hnone, hm, hc, hnow, x, hx, hdst, hslot, hxbody⟩ := (waitAt_effect (hserve.trans hserves) (by rw [hreg]; exact hwaits)
      { index := j, op := op, operand := a, before := 0, core := c, slot := m.srcSlot, step := step, tag := tag } hnine htype).2 hmet
    have hrow := syncRow_waited hsent htake hbody hhigh hwait hx (answer_ne_request hbody hxbody)
    exact ⟨t, hexec.trans (congrArg Host.Outcome.next hrow), hnone, hm.trans hmem, hc.trans hcores, hnow, x,
      by rw [hx]; exact List.mem_append_right _ (List.mem_singleton_self x), hdst, hslot, hxbody⟩
  · subst hop
    obtain ⟨hreg, hword, hserve, hmem, hcores⟩ := regOf_of_take (r := r) (j := j) htake
    rw [← hword] at hmore htype hvalid ⊢
    obtain ⟨t, hwait, hnow, hparked, hm, hc, hnarrow⟩ := (waitAt_arrive (hserve.trans hserves) (by rw [hreg]; exact hwaits)
      { index := j, op := 9, operand := a, before := 0, core := c, slot := m.srcSlot, step := step, tag := tag } rfl htype hvalid).1 hmore
    have hrow := syncRow_waited (l := []) hsent htake hbody (by decide) hwait (by rw [hnarrow, List.append_nil]) List.not_mem_nil
    exact ⟨t, congrArg Host.Outcome.next hrow, hnow, hparked, hm.trans hmem, hc.trans hcores⟩
  · subst hop
    obtain ⟨hreg, hword, hserve, hmem, hcores⟩ := regOf_of_take (r := r) (j := j) htake
    rw [← hword] at hlast htype hvalid ⊢
    obtain ⟨t, hwait, hnow, hnone, hm, hc, x, hx, hdst, hslot, hxbody⟩ := (waitAt_arrive (hserve.trans hserves) (by rw [hreg]; exact hwaits)
      { index := j, op := 9, operand := a, before := 0, core := c, slot := m.srcSlot, step := step, tag := tag } rfl htype hvalid).2 hlast
    have hrow := syncRow_waited hsent htake hbody (by decide) hwait hx (answer_ne_request hbody hxbody)
    exact ⟨t, congrArg Host.Outcome.next hrow, hnow, hnone, hm.trans hmem, hc.trans hcores, x,
      by rw [hx]; exact List.mem_append_right _ (List.mem_singleton_self x), hdst, hslot, hxbody⟩

end Sys2Proof.Machine
end

section
/-! Further parts of the state that operations leave as they were. -/

namespace Sys2Proof.Machine

@[simp] theorem post_mem (s : State) (m : Msg) : (post s m).mem = s.mem := by rfl

@[simp] theorem reportProgress_mem (s : State) (c k : Nat) (moved : Bool) : (reportProgress s c k moved).mem = s.mem := by
  grind [reportProgress, onSlot_mem, post_mem]

@[simp] theorem liftBeacon_mem (s : State) (c k : Nat) : (liftBeacon s c k).mem = s.mem := by
  grind [liftBeacon, onSlot_mem, post_mem]

@[simp] theorem progress_mem (s : State) (c k : Nat) (flows : Bool) : (progress s c k flows).mem = s.mem := by
  unfold progress; split <;> simp

@[simp] theorem setPairSrc_cores (s : State) (src dst : Nat) (v : PairSrc) : (setPairSrc s src dst v).cores = s.cores := by rfl

@[simp] theorem setPairSrc_mem (s : State) (src dst : Nat) (v : PairSrc) : (setPairSrc s src dst v).mem = s.mem := by rfl

@[simp] theorem setPairSrc_slices (s : State) (src dst : Nat) (v : PairSrc) : (setPairSrc s src dst v).slices = s.slices := by rfl

@[simp] theorem setPairSrc_sup (s : State) (src dst : Nat) (v : PairSrc) : (setPairSrc s src dst v).sup = s.sup := by rfl

@[simp] theorem arriveAt_cores (s : State) (router port : Nat) (p : Packet) : (arriveAt s router port p).cores = s.cores := by rfl

@[simp] theorem arriveAt_mem (s : State) (router port : Nat) (p : Packet) : (arriveAt s router port p).mem = s.mem := by rfl

@[simp] theorem arriveAt_slices (s : State) (router port : Nat) (p : Packet) : (arriveAt s router port p).slices = s.slices := by rfl

@[simp] theorem arriveAt_sup (s : State) (router port : Nat) (p : Packet) : (arriveAt s router port p).sup = s.sup := by rfl

@[simp] theorem admitEach_cores (router port : Nat) (x0 : List Nat) (x1 : List Packet) (s : State) : (admitEach router port x0
    x1 s).1.cores = s.cores := by
  fun_induction admitEach <;> grind [arriveAt_cores]

@[simp] theorem admitEach_mem (router port : Nat) (x0 : List Nat) (x1 : List Packet) (s : State) : (admitEach router port x0 x1
    s).1.mem = s.mem := by
  fun_induction admitEach <;> grind [arriveAt_mem]

@[simp] theorem admitEach_slices (router port : Nat) (x0 : List Nat) (x1 : List Packet) (s : State) : (admitEach router port x0
    x1 s).1.slices = s.slices := by
  fun_induction admitEach <;> grind [arriveAt_slices]

@[simp] theorem admitEach_sup (router port : Nat) (x0 : List Nat) (x1 : List Packet) (s : State) : (admitEach router port x0 x1
    s).1.sup = s.sup := by
  fun_induction admitEach <;> grind [arriveAt_sup]

@[simp] theorem enterPort_cores (s : State) (router port : Nat) : (enterPort s router port).cores = s.cores := by
  unfold enterPort; split <;> simp

@[simp] theorem enterPort_mem (s : State) (router port : Nat) : (enterPort s router port).mem = s.mem := by
  unfold enterPort; split <;> simp

@[simp] theorem enterPort_slices (s : State) (router port : Nat) : (enterPort s router port).slices = s.slices := by
  unfold enterPort; split <;> simp

@[simp] theorem enterPort_sup (s : State) (router port : Nat) : (enterPort s router port).sup = s.sup := by
  unfold enterPort; split <;> simp

@[simp] theorem waitAtPort_cores (s : State) (router port : Nat) (p : Packet) : (waitAtPort s router port p).cores = s.cores :=
    by
  simp [waitAtPort]

@[simp] theorem waitAtPort_mem (s : State) (router port : Nat) (p : Packet) : (waitAtPort s router port p).mem = s.mem := by
  simp [waitAtPort]

@[simp] theorem waitAtPort_slices (s : State) (router port : Nat) (p : Packet) : (waitAtPort s router port p).slices = s.slices
    := by
  simp [waitAtPort]

@[simp] theorem waitAtPort_sup (s : State) (router port : Nat) (p : Packet) : (waitAtPort s router port p).sup = s.sup := by
  simp [waitAtPort]

@[simp] theorem launch_cores (s : State) (p : Packet) : (launch s p).cores = s.cores := by
  simp [launch]

@[simp] theorem launch_mem (s : State) (p : Packet) : (launch s p).mem = s.mem := by
  simp [launch]

@[simp] theorem launch_slices (s : State) (p : Packet) : (launch s p).slices = s.slices := by
  simp [launch]

@[simp] theorem launch_sup (s : State) (p : Packet) : (launch s p).sup = s.sup := by
  simp [launch]

theorem inject_cores (s : State) (p : Packet) (flagged g1 : Bool) {t : State} (h : inject s p flagged g1 = some t) : t.cores =
    s.cores := by
  grind [inject, bump_cores, launch_cores, setPairSrc_cores]

theorem inject_mem (s : State) (p : Packet) (flagged g1 : Bool) {t : State} (h : inject s p flagged g1 = some t) : t.mem = s.mem
    := by
  grind [inject, bump_mem, launch_mem, setPairSrc_mem]

theorem inject_slices (s : State) (p : Packet) (flagged g1 : Bool) {t : State} (h : inject s p flagged g1 = some t) : t.slices =
    s.slices := by
  grind [inject, bump_slices, launch_slices, setPairSrc_slices]

theorem inject_sup (s : State) (p : Packet) (flagged g1 : Bool) {t : State} (h : inject s p flagged g1 = some t) : t.sup = s.sup
    := by
  grind [inject, bump_sup, launch_sup, setPairSrc_sup]

@[simp] theorem setLane_mem (s : State) (c k n : Nat) (l : Lane) : (setLane s c k n l).mem = s.mem := by rfl

@[simp] theorem setLane_slices (s : State) (c k n : Nat) (l : Lane) : (setLane s c k n l).slices = s.slices := by rfl

@[simp] theorem setLane_sup (s : State) (c k n : Nat) (l : Lane) : (setLane s c k n l).sup = s.sup := by rfl

@[simp] theorem returnCredits_mem (s : State) (c k n : Nat) : (returnCredits s c k n).mem = s.mem := by
  grind [returnCredits, post_mem, setLane_mem]

@[simp] theorem returnCredits_slices (s : State) (c k n : Nat) : (returnCredits s c k n).slices = s.slices := by
  grind [returnCredits, post_slices, setLane_slices]

@[simp] theorem returnCredits_sup (s : State) (c k n : Nat) : (returnCredits s c k n).sup = s.sup := by
  grind [returnCredits, post_sup, setLane_sup]

theorem dequeue_mem (s : State) (c k n : Nat) {y0 : Token} {t : State} (h : dequeue s c k n = some (y0, t)) : t.mem = s.mem :=
    by
  obtain ⟨y, _, hy⟩ := Option.map_eq_some_iff.mp h
  dsimp only at hy
  obtain ⟨-, rfl⟩ := Prod.mk.inj hy
  split <;> simp

theorem dequeue_slices (s : State) (c k n : Nat) {y0 : Token} {t : State} (h : dequeue s c k n = some (y0, t)) : t.slices =
    s.slices := by
  obtain ⟨y, _, hy⟩ := Option.map_eq_some_iff.mp h
  dsimp only at hy
  obtain ⟨-, rfl⟩ := Prod.mk.inj hy
  split <;> simp

theorem dequeue_sup (s : State) (c k n : Nat) {y0 : Token} {t : State} (h : dequeue s c k n = some (y0, t)) : t.sup = s.sup :=
    by
  obtain ⟨y, _, hy⟩ := Option.map_eq_some_iff.mp h
  dsimp only at hy
  obtain ⟨-, rfl⟩ := Prod.mk.inj hy
  split <;> simp

end Sys2Proof.Machine
end

section
/-! O42: q.send, q.recv, msg.send and msg.recv. -/
namespace Sys2Proof.Machine
open Sys2Proof.Claims

section
variable {s : State} {c k : Nat} {d : BitVec 512}

theorem gate_single {step crc : Nat} (hprimary : (slotOf s c k).primary = none) (htwin : (slotOf s c k).twin = none) :
    gate s c k step crc = .open_ s := by
  rw [gate, hprimary, htwin]

theorem forwardOut_single (htwin : (slotOf s c k).twin = none) (step : Nat) : forwardOut s c k d step = s := by
  rw [forwardOut, forwardStep_of_single htwin, ite_self]

theorem tokensOf_one {n : Nat} (hlow : 1 ≤ n) (hhigh : n ≤ 256) : tokensOf n = 1 := by
  rw [tokensOf, ceilDiv]
  omega

/-! ## msg.send, R299 -/

theorem coreReachable_congr {s t : State} (h : coresRest t = coresRest s) (c : Nat) : coreReachable t c = coreReachable s c := by
  rw [coresOnly_iff.mpr h]
  rfl

theorem messagePoison_inline (h : msInline d = true) : messagePoison s c d = false := by
  rw [messagePoison, h]
  rfl

theorem post_sends (s : State) (m : Msg) :
    ∃ x ∈ (post s m).narrow, x.src = m.src ∧ x.srcSlot = m.srcSlot ∧ x.dst = m.dst ∧ x.body = m.body :=
  ⟨_, List.mem_append_right _ (List.mem_singleton_self _), rfl, rfl, rfl, rfl⟩

/-- The message of an msg.send. -/
def messageOf (s : State) (c k : Nat) (d : BitVec 512) : Msg :=
  { src := c, srcSlot := k, dst := relocated (slotOf s c k) (msDest d), dstSlot := 0, gen := (slotOf s c k).gen, step := (slotOf s c k).ip,
    body := .user (msTag d) (msEpoch d) (messageWords s c d) (messagePoison s c d) }

/-- A message to a destination that can be reached goes out. -/
theorem sendMessage_reached (h : coreReachable s (relocated (slotOf s c k) (msDest d)) = true) :
    sendMessage s c k d = post (bump (issueTo s c k d) ctrCoreMsgSent c 1) (messageOf s c k d) := by
  have hreach : coreReachable (bump (issueTo s c k d) ctrCoreMsgSent c 1) (relocated (slotOf s c k) (msDest d)) = true :=
    (coreReachable_congr ((bump_coresRest ..).trans (issueTo_coresRest ..)) _).trans h
  exact if_pos hreach

theorem msgSend_outcomes (hprimary : (slotOf s c k).primary = none) (htwin : (slotOf s c k).twin = none)
    (hfetch : fetchStep s c 0x50 = .step k d) (hgood : msReserved d = false) (hinline : msInline d = true)
    (hexists : coreExists s (msDest d) = true) (hwords : 1 ≤ msWords d) (hwords' : msWords d ≤ 4) :
    let v := slotOf s c k
    exec (.msgSend c) s = .next (settleCore (sendMessage s c k d) c) ∧
      (coreReachable s (relocated v (msDest d)) = true → ∃ t, exec (.msgSend c) s = .next t ∧ CoresOnly s t ∧
        (slotOf t c k).ip = v.ip + 1 ∧ (slotOf t c k).issued = v.issued ++ [{ step := v.ip, op := fld d 0 8, done := 0 }] ∧
        ∃ m ∈ t.narrow, m.src = c ∧ m.srcSlot = k ∧ m.dst = relocated v (msDest d) ∧
          m.body = .user (msTag d) (msEpoch d) (messageWords s c d) false) := by
  have hrow : seqRow s c 0x50 (msgSendStep s c) = settleCore (sendMessage s c k d) c := by
    rw [seqRow_of_step hfetch, msgSendStep, hgood, hinline, if_neg (by simp), if_neg (by simp [hexists]; omega), if_neg (by simp),
      gate_single hprimary htwin]
  refine ⟨congrArg Host.Outcome.next hrow, fun hreach => ⟨_, congrArg Host.Outcome.next hrow, ?_⟩⟩
  rw [sendMessage_reached hreach]
  obtain ⟨_, _, _, _, hslot⟩ := issueTo_slot s c k d
  obtain ⟨x, hx, hsrc, hsrcSlot, hdst, hbody⟩ := post_sends (bump (issueTo s c k d) ctrCoreMsgSent c 1) (messageOf s c k d)
  have hrest : coresRest (post (bump (issueTo s c k d) ctrCoreMsgSent c 1) (messageOf s c k d)) = coresRest s := by
    rw [post_coresRest, bump_coresRest, issueTo_coresRest]
  have hafter : slotOf (post (bump (issueTo s c k d) ctrCoreMsgSent c 1) (messageOf s c k d)) c k = slotOf (issueTo s c k d) c k :=
    slotOf_congr ((post_cores ..).trans (bump_cores ..)) c k
  rw [hslot] at hafter
  generalize post (bump (issueTo s c k d) ctrCoreMsgSent c 1) (messageOf s c k d) = u at *
  refine ⟨coresOnly_settle hrest c, ?_, ?_, x, settleCore_narrow u c hx, hsrc, hsrcSlot, hdst, ?_⟩
  · rw [settleCore_ip, hafter]
    rfl
  · rw [settleCore_issued, hafter]
    rfl
  · rw [hbody, messageOf, messagePoison_inline hinline]

theorem coreNat_congr {s t : State} (h : t.mem = s.mem) (c a n : Nat) : coreNat t c a n = coreNat s c a n := by
  rw [coreNat, h, coreNat]

/-- A step that is passed, over a state its row has prepared. -/
theorem passSettle (u : State) (c k : Nat) (d : BitVec 512) (nxt : Nat) :
    let t := settleCore (passStep u c k d nxt) c
    (slotOf t c k).ip = nxt ∧ t.mem = u.mem ∧ quiet t = quiet u := by
  obtain ⟨hip, _, _, _⟩ := passStep_state u c k d nxt
  refine ⟨(settleCore_ip ..).trans hip, mem_of_coresRest ?_, ?_⟩
  · rw [settleCore_coresRest, passStep_coresRest]
  · rw [settleCore_quiet, passStep_quiet]

/-! ## msg.recv, R316 -/

theorem msgRecv_outcomes (hprimary : (slotOf s c k).primary = none) (hstopping : (slotOf s c k).stopping = false)
    (hsigned : signaturesDiffer s c (slotOf s c k) = false)
    (hfetch : fetchStep s c 0x51 = .step k d) (hgood : mrReserved d = false) (halign : mrAddr d % 8 = 0)
    (hclean : corePoison s c (ringEntryAt (slotOf s c k) (mrClass d + 1)) 16 = false)
    (hon : reOn (ringEntry s c (slotOf s c k) (mrClass d + 1)) = true) (hfits : mrAddr d + 40 ≤ coreBytes) :
    let v := slotOf s c k
    let e := ringEntry s c v (mrClass d + 1)
    let a := reBase e + 8 * reRd e
    let n := bitsOf (coreNat s c a 8) 0 3
    let whole := decide (reRd e + 1 + n = reSize e)
    (ringHas e = false → mrNowait d = true → ∃ t, exec (.msgRecv c) s = .next t ∧ (slotOf t c k).ip = v.ip + 1 ∧
      t.mem = (coreWrite s c (mrAddr d) (bytesOf 8 0)).mem ∧ t.nv = s.nv ∧ t.frames = s.frames) ∧
    (ringHas e = false → mrNowait d = false → ∃ t, exec (.msgRecv c) s = .next t ∧ CoresOnly s t ∧ (slotOf t c k).ip = v.ip ∧
      (slotOf t c k).state = .blocked) ∧
    (ringHas e = true → bitAt (coreNat s c a 8) 3 = false → bitAt (coreNat s c a 8) 4 = false →
      corePoison s c a (8 + 8 * n) = false → ∃ t, exec (.msgRecv c) s = .next t ∧ (slotOf t c k).ip = v.ip + 1 ∧
      t.mem = (setRingRd (coreWrite s c (mrAddr d) (coreRead s c a (8 + 8 * n))) c v (mrClass d + 1)
        (if whole then 0 else reRd e + 1 + n) (reRdPhase e != whole)).mem ∧ t.nv = s.nv ∧ t.frames = s.frames) := by
  intro v e a n whole
  obtain ⟨_, _, _, hd, hop⟩ := fetchStep_step hfetch
  have hstep : msgRecvStep s c k d =
      let r := pastPad s c v (mrClass d + 1)
      if !ringHas r.1 then
        (if mrNowait d then passStep (coreWrite r.2 c (mrAddr d) (bytesOf 8 0)) c k d (v.ip + 1) else giveUp r.2 c k .blocked)
      else
        let a := reBase r.1 + 8 * reRd r.1
        let n := bitsOf (coreNat r.2 c a 8) 0 3
        if bitAt (coreNat r.2 c a 8) 4 || corePoison r.2 c a (8 + 8 * n) then consumePoison r.2 c k v.ip 2
        else
          let t := coreWrite r.2 c (mrAddr d) (coreRead r.2 c a (8 + 8 * n))
          let whole := decide (reRd r.1 + 1 + n = reSize r.1)
          passStep (setRingRd t c v (mrClass d + 1) (if whole then 0 else reRd r.1 + 1 + n) (reRdPhase r.1 != whole)) c k d (v.ip + 1) := by
    unfold msgRecvStep
    dsimp only
    rw [if_neg (by simp [hgood, halign]), hclean, if_neg (by decide), hon, if_neg (by decide), if_neg (by simp; omega)]
  have hrow := seqRow_of_step hfetch (msgRecvStep s c)
  rw [hstep] at hrow
  refine ⟨fun hempty hnowait => ?_, fun hempty hnowait => ?_, fun hhas hpad hbad hpoison => ?_⟩
  · have hpast : pastPad s c v (mrClass d + 1) = (e, s) := by
      rw [pastPad, hempty]
      rfl
    rw [hpast] at hrow
    dsimp only at hrow
    rw [hempty, hnowait, if_pos (by decide), if_pos rfl] at hrow
    obtain ⟨hip, hmem, hq⟩ := passSettle (coreWrite s c (mrAddr d) (bytesOf 8 0)) c k d (v.ip + 1)
    exact ⟨_, congrArg Host.Outcome.next hrow, hip, hmem, nv_of_quiet (hq.trans (coreWrite_quiet ..)),
      frames_of_quiet (hq.trans (coreWrite_quiet ..))⟩
  · have hpast : pastPad s c v (mrClass d + 1) = (e, s) := by
      rw [pastPad, hempty]
      rfl
    rw [hpast] at hrow
    dsimp only at hrow
    rw [hempty, hnowait, if_pos (by decide), if_neg (by decide), giveUp_of_signed hsigned] at hrow
    refine ⟨_, congrArg Host.Outcome.next hrow, settleCore_waits hstopping fun t hrest hlast => ?_⟩
    have hop51 : nextStep t c (slotOf t c k) = d := (nextStep_of_lasting hrest hlast).trans hd.symm
    have hone : (slotOf t c k).primary = none := (of_lasting Slot.primary (fun _ => rfl) hlast).trans hprimary
    have htab : (slotOf t c k).ringTab = (slotOf s c k).ringTab := of_lasting Slot.ringTab (fun _ => rfl) hlast
    have hring : ringEntry t c (slotOf t c k) (mrClass d + 1) = e := by
      rw [ringEntry, ringEntryAt, htab, coreNat_congr (mem_of_coresRest hrest)]
      rfl
    unfold unblocked
    dsimp only
    rw [hone, hop51, hop, hring, hempty]
    simp
  · have hpast : pastPad s c v (mrClass d + 1) = (e, s) := by
      have hpad' : bitAt (coreNat s c (reBase e + 8 * reRd e) 8) 3 = false := hpad
      rw [pastPad]
      dsimp only
      rw [hpad', Bool.and_false]
      rfl
    have hbad' : bitAt (coreNat s c (reBase e + 8 * reRd e) 8) 4 = false := hbad
    have hpoison' : corePoison s c (reBase e + 8 * reRd e) (8 + 8 * bitsOf (coreNat s c (reBase e + 8 * reRd e) 8) 0 3) = false := hpoison
    rw [hpast] at hrow
    dsimp only at hrow
    rw [hhas, if_neg (by decide), hbad', hpoison', if_neg (by decide)] at hrow
    obtain ⟨hip, hmem, hq⟩ := passSettle (setRingRd (coreWrite s c (mrAddr d) (coreRead s c a (8 + 8 * n))) c v (mrClass d + 1)
      (if whole then 0 else reRd e + 1 + n) (reRdPhase e != whole)) c k d (v.ip + 1)
    have hq' := hq.trans ((setRingRd_quiet ..).trans (coreWrite_quiet ..))
    exact ⟨_, congrArg Host.Outcome.next hrow, hip, hmem, nv_of_quiet hq', frames_of_quiet hq'⟩

/-! ## q.send, R249 and R260 -/

/-- The tile a queue step moves, of its own bytes and with no handle. -/
def tileAt (addr bytes : Nat) : Moving := ⟨0, addr, bytes, none, false⟩

theorem signaturesDiffer_moving (hsigned : signaturesDiffer s c (slotOf s c k) = false) (m : Moving) :
    signaturesDiffer (onSlot s c k (fun v => { v with moving := some m })) c
      (slotOf (onSlot s c k (fun v => { v with moving := some m })) c k) = false := by
  rw [slotOf_onSlot]
  exact hsigned

theorem sendCause_none (hmoving : (slotOf s c k).moving = none) (hgood : qReserved d = false) (hplain : qUseHq d = false)
    (hport : portOn (imPort (slotOf s c k).image (qSel d)) = true)
    (hfits : qAddr d + 32 + thBytes (coreNat s c (qAddr d) 32) ≤ coreBytes) (hheader : queueHeader (coreNat s c (qAddr d) 32) = true) :
    sendCause s c k d = none := by
  have hfrom : sendFrom (slotOf s c k) d = (none, qAddr d) := by
    simp [sendFrom, hplain]
  unfold sendCause
  dsimp only
  rw [hfrom]
  dsimp only
  rw [hgood, hport, hplain, hmoving, hheader, if_neg (by decide), if_neg (by simp), if_neg (by simp),
    if_neg (by rw [decide_eq_true_eq]; omega), if_neg (by simp), if_neg (by rw [decide_eq_true_eq]; omega)]

theorem sendStep_begins (hprimary : (slotOf s c k).primary = none) (htwin : (slotOf s c k).twin = none)
    (hmoving : (slotOf s c k).moving = none) (hgood : qReserved d = false) (hplain : qUseHq d = false)
    (hport : portOn (imPort (slotOf s c k).image (qSel d)) = true)
    (hfits : qAddr d + 32 + thBytes (coreNat s c (qAddr d) 32) ≤ coreBytes) (hheader : queueHeader (coreNat s c (qAddr d) 32) = true) :
    sendStep s c k d = goOnSending (onSlot s c k (fun v =>
      { v with moving := some (tileAt (qAddr d) (32 + thBytes (coreNat s c (qAddr d) 32))) })) c k d := by
  have hfrom : sendFrom (slotOf s c k) d = (none, qAddr d) := by
    simp [sendFrom, hplain]
  unfold sendStep
  rw [sendCause_none hmoving hgood hplain hport hfits hheader]
  dsimp only
  rw [hfrom, hmoving, hplain, hprimary, gate_single hprimary htwin]
  simp [tileAt]

/-- With no credit nothing goes out. -/
theorem sendTokens_no_credit {m : Moving} (hmoving : (slotOf s c k).moving = some m) (hcredits : (outOf (slotOf s c k) (qSel d)).credits = 0)
    (f : Nat) : sendTokens c k d f s = s := by
  cases f with
  | zero => rfl
  | succ f =>
    unfold sendTokens
    dsimp only
    rw [hmoving]
    dsimp only
    rw [hcredits, if_pos (by simp)]

theorem inject_none {p : Packet} {flagged g1 : Bool} (h : inject s p flagged g1 = none) :
    injectHeld s p.src p.dest p.kind flagged g1 = true := by
  unfold inject at h
  dsimp only at h
  split at h
  · assumption
  · split at h
    · cases h
    · split at h
      · cases h
      · split at h <;> cases h

/-- The port of a step with a credit and a sequence number gone. -/
def portSpent (v : Slot) (n : Nat) : Port := { outOf v n with credits := (outOf v n).credits - 1, seq := ((outOf v n).seq + 1) % 256 }

/-- A tile of one token goes out whole when its port has a credit and its pair's limits allow it. -/
theorem sendTokens_one {m : Moving} (hmoving : (slotOf s c k).moving = some m) (hfirst : m.tokens = 0) (hone : tokensOf m.bytes = 1)
    (hcredits : (outOf (slotOf s c k) (qSel d)).credits ≠ 0)
    (hopen : injectHeld s (epCore c) (epCore (relocated (slotOf s c k) (portCore (imPort (slotOf s c k).image (qSel d))))) 5 (qFlagged d)
      (slotOf s c k).g1 = false) :
    let t := sendTokens c k d 1 s
    slotOf t c k = { slotOf s c k with
      ports := put (slotOf s c k).ports (qSel d) (portSpent (slotOf s c k) (qSel d)), moving := some { m with tokens := 1 } } ∧
    t.mem = s.mem ∧ quiet t = quiet s := by
  unfold sendTokens
  dsimp only
  rw [hmoving]
  dsimp only
  rw [if_neg (by simp [hfirst, hone, hcredits]), hfirst, hone, decide_eq_true (rfl : 0 + 1 = 1), Bool.and_true]
  split
  · rename_i hnone
    exact absurd (hopen.symm.trans (inject_none hnone)) Bool.false_ne_true
  · rename_i t ht
    have hslot : slotOf (bump (setOut t c k (qSel d) (portSpent (slotOf s c k) (qSel d))) ctrSlotSent (slotUnit c k) 1) c k =
        { slotOf s c k with ports := put (slotOf s c k).ports (qSel d) (portSpent (slotOf s c k) (qSel d)) } := by
      have hbump : slotOf (bump (setOut t c k (qSel d) (portSpent (slotOf s c k) (qSel d))) ctrSlotSent (slotUnit c k) 1) c k =
          slotOf (setOut t c k (qSel d) (portSpent (slotOf s c k) (qSel d))) c k := slotOf_congr (bump_cores ..) c k
      rw [hbump, setOut, slotOf_onSlot, slotOf_congr (inject_cores _ _ _ _ ht)]
    refine ⟨?_, ?_, ?_⟩
    · rw [sendTokens, slotOf_onSlot]
      exact congrArg (fun v : Slot => { v with moving := some { m with tokens := 1 } }) hslot
    · rw [sendTokens, onSlot_mem, bump_mem, setOut, onSlot_mem, inject_mem _ _ _ _ ht]
    · rw [sendTokens, onSlot_quiet, bump_quiet, setOut_quiet, inject_quiet _ _ _ _ ht]

/-- A tile that has gone out whole lets its step be passed. -/
theorem goOnSending_sent {m n : Moving} {t : State} (hmoving : (slotOf s c k).moving = some m)
    (hsent : sendTokens c k d (tokensOf m.bytes - m.tokens) s = t) (hafter : (slotOf t c k).moving = some n)
    (hdone : tokensOf n.bytes ≤ n.tokens) (hhandle : m.handle = none) (htwin : (slotOf t c k).twin = none) :
    goOnSending s c k d = passStep t c k d ((slotOf t c k).ip + 1) := by
  have hkept : (slotOf (passStep t c k d ((slotOf t c k).ip + 1)) c k).twin = none := by
    obtain ⟨_, _, _, _, h⟩ := passStep_slot t c k d ((slotOf t c k).ip + 1)
    rw [h]
    exact htwin
  unfold goOnSending
  rw [hmoving]
  dsimp only
  rw [hsent, hafter, if_pos (by simpa using hdone), hhandle]
  exact forwardOut_single hkept _

/-- A tile that has tokens left holds its step. -/
theorem goOnSending_held {m n : Moving} {t : State} (hmoving : (slotOf s c k).moving = some m)
    (hsent : sendTokens c k d (tokensOf m.bytes - m.tokens) s = t) (hafter : (slotOf t c k).moving = some n)
    (hmore : n.tokens < tokensOf n.bytes) : goOnSending s c k d = giveUp t c k .blocked := by
  unfold goOnSending
  rw [hmoving]
  dsimp only
  rw [hsent, hafter, if_neg (by simpa using hmore)]

theorem qSend_outcomes (hprimary : (slotOf s c k).primary = none) (htwin : (slotOf s c k).twin = none)
    (hmoving : (slotOf s c k).moving = none) (hstopping : (slotOf s c k).stopping = false)
    (hsigned : signaturesDiffer s c (slotOf s c k) = false) (hfetch : fetchStep s c 0x40 = .step k d)
    (hgood : qReserved d = false) (hplain : qUseHq d = false) (hport : portOn (imPort (slotOf s c k).image (qSel d)) = true)
    (hfits : qAddr d + 32 + thBytes (coreNat s c (qAddr d) 32) ≤ coreBytes) (hheader : queueHeader (coreNat s c (qAddr d) 32) = true) :
    let v := slotOf s c k
    let m : Moving := ⟨0, qAddr d, 32 + thBytes (coreNat s c (qAddr d) 32), none, false⟩
    let p := outOf v (qSel d)
    let dest := relocated v (portCore (imPort v.image (qSel d)))
    exec (.qSend c) s = .next (settleCore (goOnSending (onSlot s c k (fun v => { v with moving := some m })) c k d) c) ∧
      (m.bytes ≤ 256 → p.credits ≠ 0 → injectHeld s (epCore c) (epCore dest) 5 (qFlagged d) v.g1 = false →
        ∃ t, exec (.qSend c) s = .next t ∧ (slotOf t c k).ip = v.ip + 1 ∧
          (outOf (slotOf t c k) (qSel d)).credits = p.credits - 1 ∧ (outOf (slotOf t c k) (qSel d)).seq = (p.seq + 1) % 256 ∧
          t.mem = s.mem ∧ t.nv = s.nv ∧ t.frames = s.frames) ∧
      (p.credits = 0 → ∃ t, exec (.qSend c) s = .next t ∧ (slotOf t c k).ip = v.ip ∧ (slotOf t c k).state = .blocked ∧
        (slotOf t c k).moving = some m ∧ t.mem = s.mem ∧ t.mesh = s.mesh) := by
  intro v m p dest
  obtain ⟨_, _, _, hd, hop⟩ := fetchStep_step hfetch
  have hrow : seqRow s c 0x40 (sendStep s c) = settleCore (goOnSending (onSlot s c k (fun v => { v with moving := some m })) c k d) c := by
    rw [seqRow_of_step hfetch, sendStep_begins hprimary htwin hmoving hgood hplain hport hfits hheader]
    rfl
  have hmore : 1 ≤ tokensOf m.bytes := by
    rw [tokensOf, ceilDiv]
    change 1 ≤ (32 + thBytes (coreNat s c (qAddr d) 32) + 256 - 1) / 256
    omega
  generalize hu : onSlot s c k (fun v => { v with moving := some m }) = u at hrow
  have hslot : slotOf u c k = { slotOf s c k with moving := some m } := by rw [← hu, slotOf_onSlot]
  have hslotmoving : (slotOf u c k).moving = some m := by rw [hslot]
  refine ⟨congrArg Host.Outcome.next hrow, fun hshort hcredits hopen => ?_, fun hcredits => ?_⟩
  · have hone : tokensOf m.bytes = 1 := tokensOf_one (by change 1 ≤ 32 + _; omega) hshort
    have hopen' : injectHeld u (epCore c) (epCore (relocated (slotOf u c k) (portCore (imPort (slotOf u c k).image (qSel d))))) 5
        (qFlagged d) (slotOf u c k).g1 = false := by
      rw [hslot, ← hu]
      exact hopen
    have hcredits' : (outOf (slotOf u c k) (qSel d)).credits ≠ 0 := by
      rw [hslot]
      exact hcredits
    obtain ⟨hsent, hmem, hq⟩ := sendTokens_one hslotmoving rfl hone hcredits' hopen'
    have hafter : (slotOf (sendTokens c k d 1 u) c k).moving = some { m with tokens := 1 } := by rw [hsent]
    have hsingle : (slotOf (sendTokens c k d 1 u) c k).twin = none := by
      rw [hsent, hslot]
      exact htwin
    have hgo := goOnSending_sent hslotmoving (t := sendTokens c k d 1 u) (by rw [hone]; rfl) hafter (Nat.le_of_eq hone) rfl hsingle
    rw [hgo] at hrow
    obtain ⟨hip, hmem', hq'⟩ := passSettle (sendTokens c k d 1 u) c k d ((slotOf (sendTokens c k d 1 u) c k).ip + 1)
    have hports : (slotOf (settleCore (passStep (sendTokens c k d 1 u) c k d ((slotOf (sendTokens c k d 1 u) c k).ip + 1)) c) c k).ports =
        put (slotOf s c k).ports (qSel d) (portSpent (slotOf s c k) (qSel d)) := by
      obtain ⟨_, _, _, _, hpass⟩ := passStep_slot (sendTokens c k d 1 u) c k d ((slotOf (sendTokens c k d 1 u) c k).ip + 1)
      refine (of_lasting Slot.ports (fun _ => rfl) (settleCore_lasting ..)).trans ?_
      rw [hpass, hsent, hslot]
      rfl
    have hspent : outOf (slotOf (settleCore (passStep (sendTokens c k d 1 u) c k d ((slotOf (sendTokens c k d 1 u) c k).ip + 1)) c) c k)
        (qSel d) = portSpent (slotOf s c k) (qSel d) := by
      rw [outOf, hports, look_put_same]
    have hqu : quiet u = quiet s := by rw [← hu, onSlot_quiet]
    have hqall := (hq'.trans hq).trans hqu
    refine ⟨_, congrArg Host.Outcome.next hrow, hip.trans ?_, ?_, ?_, ?_, nv_of_quiet hqall, frames_of_quiet hqall⟩
    · rw [hsent, hslot]
    · rw [hspent]
      rfl
    · rw [hspent]
      rfl
    · rw [hmem', hmem, ← hu, onSlot_mem]
  · have hcredits' : (outOf (slotOf u c k) (qSel d)).credits = 0 := by
      rw [hslot]
      exact hcredits
    have hsignedu : signaturesDiffer u c (slotOf u c k) = false := by
      rw [← hu]
      exact signaturesDiffer_moving hsigned m
    have hgo := goOnSending_held hslotmoving (t := u) (sendTokens_no_credit hslotmoving hcredits' _) hslotmoving hmore
    rw [hgo, giveUp_of_signed hsignedu] at hrow
    have hstop : (slotOf u c k).stopping = false := by
      rw [hslot]
      exact hstopping
    have hwaits : ∀ t, coresRest t = coresRest u → lasting (slotOf t c k) = lasting (slotOf u c k) → unblocked t c k = false := by
      intro t hrest hlast
      have hone : (slotOf t c k).primary = none := by
        rw [of_lasting Slot.primary (fun _ => rfl) hlast, hslot]
        exact hprimary
      have hports : (slotOf t c k).ports = (slotOf u c k).ports := of_lasting Slot.ports (fun _ => rfl) hlast
      have hnext : fld (nextStep t c (slotOf t c k)) 0 8 = 0x40 ∧ nextStep t c (slotOf t c k) = d := by
        have hsame : nextStep u c (slotOf u c k) = nextStep s c (slotOf s c k) := by
          rw [hslot, ← hu]
          rfl
        rw [nextStep_of_lasting hrest hlast, hsame, ← hd]
        exact ⟨hop, rfl⟩
      have hnone : (outOf (slotOf t c k) (qSel d)).credits = 0 := by
        rw [outOf, hports]
        exact hcredits'
      unfold unblocked
      dsimp only
      rw [hone, hnext.1, hnext.2, hnone]
      simp
    obtain ⟨honly, hip, hblocked⟩ := settleCore_waits hstop hwaits
    refine ⟨_, congrArg Host.Outcome.next hrow, hip.trans ?_, hblocked, ?_, ?_, ?_⟩
    · rw [hslot]
    · refine (of_lasting Slot.moving (fun _ => rfl) (settleCore_lasting ..)).trans ?_
      rw [slotOf_onSlot]
      exact hslotmoving
    · rw [honly, ← hu]
      rfl
    · rw [honly, ← hu]
      rfl

/-! ## q.recv, R249 and R260 -/

theorem laneHead_moving (m : Moving) (n : Nat) :
    laneHead (onSlot s c k (fun v => { v with moving := some m })) c k n = laneHead s c k n := by
  unfold laneHead
  rw [slotOf_onSlot]
  rfl

theorem recvStep_empty (hprimary : (slotOf s c k).primary = none) (hmoving : (slotOf s c k).moving = none) (hgood : qReserved d = false)
    (hdepth : laneDepth (imLane (slotOf s c k).image (qSel d)) ≠ 0) (hplain : qUseHq d = false) (hnone : laneHead s c k (qSel d) = none) :
    recvStep s c k d = giveUp s c k .blocked := by
  have hcause : recvCause s c k d = none := by
    unfold recvCause
    dsimp only
    rw [hgood, hprimary, hmoving, hplain, hnone, if_neg (by decide), if_neg (by simp [hdepth]), if_neg (by simp)]
    rfl
  unfold recvStep
  rw [hcause]
  dsimp only
  rw [hprimary, hmoving, hnone, if_neg (by simp), if_neg (by simp)]

theorem recvStep_begins (hprimary : (slotOf s c k).primary = none) (hmoving : (slotOf s c k).moving = none) (hgood : qReserved d = false)
    (hdepth : laneDepth (imLane (slotOf s c k).image (qSel d)) ≠ 0) (hplain : qUseHq d = false) {x : Token}
    (hx : laneHead s c k (qSel d) = some x) (hheader : queueHeader (natOf (fit x.data 32)) = true)
    (hcount : 32 + thBytes (natOf (fit x.data 32)) ≤ qCount d)
    (hfits : qAddr d + 32 + thBytes (natOf (fit x.data 32)) ≤ coreBytes) :
    recvStep s c k d = goOnReceiving (onSlot s c k (fun v =>
      { v with moving := some (tileAt (qAddr d) (32 + thBytes (natOf (fit x.data 32)))) })) c k d := by
  have hcause : recvCause s c k d = none := by
    unfold recvCause
    dsimp only
    rw [hgood, hprimary, hmoving, hplain, hx, if_neg (by decide), if_neg (by simp [hdepth]), if_neg (by simp)]
    dsimp only [Option.bind]
    rw [hheader, if_neg (by rw [Bool.or_eq_true, decide_eq_true_eq]; simp; omega),
      if_neg (by rw [Bool.and_eq_true, decide_eq_true_eq]; omega)]
  unfold recvStep
  rw [hcause]
  dsimp only
  rw [hprimary, hmoving, hplain, hx, if_neg (by simp), if_neg (by simp)]
  rfl

/-- A change of a slot that keeps its twin keeps a core single. -/
theorem twinCore_onSlot {c' j : Nat} {f : Slot → Slot} (hf : ∀ v, (f v).twin = v.twin) (h : twinCore s c = none) :
    twinCore (onSlot s c' j f) c = none := by
  by_cases hc : c = c'
  · subst hc
    have hone := twin_of_twinCore h j
    unfold twinCore at h ⊢
    rw [onSlot, setSlot, coreOf_setCore]
    rw [List.head?_eq_none_iff, List.filterMap_eq_nil_iff] at h ⊢
    intro e he
    rcases mem_put he with rfl | he
    · rw [hf, hone]
      rfl
    · exact h e he
  · unfold twinCore
    rw [onSlot, setSlot, coreOf_setCore_ne _ _ hc]
    exact h

theorem twinCore_congr {t : State} (h : t.cores = s.cores) (c : Nat) : twinCore t c = twinCore s c := by
  rw [twinCore, coreOf, h, twinCore, coreOf]

theorem twinCore_reportProgress {j : Nat} {moved : Bool} (h : twinCore s c = none) :
    twinCore (reportProgress s c j moved) c = none := by
  unfold reportProgress
  dsimp only
  split
  · exact h
  · split
    · rw [twinCore_congr (post_cores ..)]
      exact twinCore_onSlot (fun _ => rfl) h
    · exact h

theorem twinCore_progress {j : Nat} {flows : Bool} (h : twinCore s c = none) : twinCore (progress s c j flows) c = none := by
  refine twinCore_reportProgress ?_
  split
  · unfold liftBeacon
    dsimp only
    split
    · rw [twinCore_congr (post_cores ..)]
      exact twinCore_onSlot (fun _ => rfl) h
    · exact h
  · exact h

theorem twinCore_returnCredits {j n : Nat} (h : twinCore s c = none) : twinCore (returnCredits s c j n) c = none := by
  unfold returnCredits
  dsimp only
  split
  · exact h
  · rw [twinCore_congr (post_cores ..)]
    exact twinCore_onSlot (fun _ => rfl) h

theorem refill_hand (v : Slot) (n : Nat) (l : Lane) : (refill s c v n l).hand = l.hand := by
  unfold refill
  split
  · split <;> rfl
  · rfl

/-- Credits that are returned move nothing of a slot but the lane's count of them. -/
theorem returnCredits_slot (n : Nat) : ∃ lanes, slotOf (returnCredits s c k n) c k = { slotOf s c k with lanes := lanes } ∧
    (look lanes n (.fresh 0)).hand = (laneOf (slotOf s c k) n).hand := by
  unfold returnCredits
  dsimp only
  split
  · exact ⟨_, rfl, rfl⟩
  · refine ⟨put (slotOf s c k).lanes n { laneOf (slotOf s c k) n with taken := 0 }, ?_, ?_⟩
    · rw [slotOf_congr (post_cores ..), setLane, slotOf_onSlot]
    · rw [look_put_same]

/-- The head token of a lane is taken: its hand goes on, and nothing else of the slot that the step looks at. -/
theorem dequeue_effect {n : Nat} {x : Token} (hx : laneHead s c k n = some x) :
    ∃ t, dequeue s c k n = some (x, t) ∧ (∃ lanes b told w p, slotOf t c k =
        { slotOf s c k with lanes := lanes, beacon := b, told := told, waits := w, progAt := p } ∧
        (look lanes n (.fresh 0)).hand = (laneOf (slotOf s c k) n).hand + 1) ∧
      t.mem = s.mem ∧ quiet t = quiet s ∧ (twinCore s c = none → twinCore t c = none) := by
  have hdequeue : (dequeue s c k n).isSome = true := by
    rw [dequeue, hx]
    rfl
  obtain ⟨⟨y, t⟩, ht⟩ := Option.isSome_iff_exists.mp hdequeue
  have hmem := dequeue_mem s c k n ht
  have hq := dequeue_quiet s c k n ht
  have ht' := ht
  unfold dequeue at ht
  rw [hx] at ht
  dsimp only [Option.map] at ht
  generalize hl : refill s c (slotOf s c k) n { laneOf (slotOf s c k) n with
    tokens := (laneOf (slotOf s c k) n).tokens.filter (fun e => e.1 ≠ (laneOf (slotOf s c k) n).hand)
    spilled := (laneOf (slotOf s c k) n).spilled.filter (fun e => e.1 ≠ (laneOf (slotOf s c k) n).hand)
    hand := (laneOf (slotOf s c k) n).hand + 1, taken := (laneOf (slotOf s c k) n).taken + 1 } = l at ht
  have hhand : l.hand = (laneOf (slotOf s c k) n).hand + 1 := by rw [← hl, refill_hand]
  have hset : slotOf (bump (setLane s c k n l) ctrSlotReceived (slotUnit c k) 1) c k =
      { slotOf s c k with lanes := put (slotOf s c k).lanes n l } := by
    have hbump : slotOf (bump (setLane s c k n l) ctrSlotReceived (slotUnit c k) 1) c k = slotOf (setLane s c k n l) c k :=
      slotOf_congr (bump_cores ..) c k
    rw [hbump, setLane, slotOf_onSlot]
  have hsingle : twinCore s c = none → twinCore (bump (setLane s c k n l) ctrSlotReceived (slotUnit c k) 1) c = none := by
    intro h
    rw [twinCore_congr (bump_cores ..)]
    exact twinCore_onSlot (fun _ => rfl) h
  generalize bump (setLane s c k n l) ctrSlotReceived (slotUnit c k) 1 = u at *
  generalize hw : (if (l.taken = 8 || (l.tokens.isEmpty && l.spilled.isEmpty)) = true then returnCredits u c k n else u) = w at ht
  have hwslot : ∃ lanes, slotOf w c k = { slotOf s c k with lanes := lanes } ∧
      (look lanes n (.fresh 0)).hand = (laneOf (slotOf s c k) n).hand + 1 := by
    have hlane : (laneOf (slotOf u c k) n).hand = (laneOf (slotOf s c k) n).hand + 1 := by
      rw [hset, laneOf, look_put_same, hhand]
    rw [← hw]
    split
    · obtain ⟨lanes, hs, hh⟩ := returnCredits_slot (s := u) (c := c) (k := k) n
      exact ⟨lanes, by rw [hs, hset], hh.trans hlane⟩
    · exact ⟨_, hset, by rw [look_put_same, hhand]⟩
  have hwsingle : twinCore s c = none → twinCore w c = none := by
    intro h
    rw [← hw]
    split
    · exact twinCore_returnCredits (hsingle h)
    · exact hsingle h
  obtain ⟨lanes, hws, hwh⟩ := hwslot
  obtain ⟨b, told, a, p, hp⟩ := progress_slot w c k true c k
  simp only [Option.some.injEq, Prod.mk.injEq] at ht
  obtain ⟨rfl, rfl⟩ := ht
  refine ⟨_, ht', ⟨lanes, b, told, a, p, ?_, hwh⟩, hmem, hq, fun h => twinCore_progress (hwsingle h)⟩
  rw [hp, hws]

theorem recvWrite_single (h : twinCore s c = none) (a : Nat) (l : List Byte) (mask : List Bool) (outside : Bool) :
    recvWrite s c a l mask outside = { s with mem := writePoison s.mem (corePhys c a) l mask } := by
  rw [recvWrite, outsideWrite_single h, ite_self]

/-- A clean tile of one token is written at its address and its step passed. -/
theorem goOnReceiving_one {m : Moving} {x : Token} (hmoving : (slotOf s c k).moving = some m) (hfirst : m.tokens = 0)
    (hhandle : m.handle = none) (hbad : m.poison = false) (hone : tokensOf m.bytes = 1) (hshort : m.bytes ≤ 256)
    (hx : laneHead s c k (qSel d) = some x) (hclean : bitAt x.header.toNat 8 = false) (hpoison : x.poison.any id = false)
    (hsingle : twinCore s c = none) :
    ∃ u, goOnReceiving s c k d = passStep u c k d ((slotOf s c k).ip + 1) ∧
      (∃ lanes, (slotOf u c k).lanes = lanes ∧ (look lanes (qSel d) (.fresh 0)).hand = (laneOf (slotOf s c k) (qSel d)).hand + 1) ∧
      u.mem = writePoison s.mem (corePhys c m.addr) (fit x.data m.bytes) x.poison ∧ quiet u = quiet s := by
  obtain ⟨t, ht, ⟨lanes, b, told, a, p, hslot, hhand⟩, hmem, hq, hkept⟩ := dequeue_effect hx
  generalize hw : onSlot { t with mem := writePoison t.mem (corePhys c m.addr) (fit x.data m.bytes) x.poison } c k
    (fun v => { v with moving := some { m with tokens := 1 } }) = w
  have hwslot : slotOf w c k = { slotOf t c k with moving := some { m with tokens := 1 } } := by
    rw [← hw, slotOf_onSlot]
    rfl
  have hrecv : recvTokens c k d (tokensOf m.bytes - m.tokens) s = w := by
    rw [hone, hfirst, ← hw, show 1 - 0 = 1 from rfl]
    unfold recvTokens
    dsimp only
    rw [hmoving]
    dsimp only
    rw [if_neg (by omega), ht]
    dsimp only
    rw [recvWrite_single (hkept hsingle), hfirst, hclean, hpoison, hbad, Nat.mul_zero, Nat.sub_zero, Nat.min_eq_right hshort]
    rfl
  have htwin : (slotOf w c k).twin = none := by
    rw [hwslot, hslot]
    exact twin_of_twinCore hsingle k
  have hip : (slotOf w c k).ip = (slotOf s c k).ip := by rw [hwslot, hslot]
  have hafter : (slotOf w c k).moving = some { m with tokens := 1 } := by rw [hwslot]
  have hpassed : (slotOf (passStep w c k d ((slotOf s c k).ip + 1)) c k).twin = none := by
    obtain ⟨_, _, _, _, h⟩ := passStep_slot w c k d ((slotOf s c k).ip + 1)
    rw [h]
    exact htwin
  refine ⟨w, ?_, ⟨lanes, ?_, hhand⟩, ?_, ?_⟩
  · unfold goOnReceiving
    rw [hmoving]
    dsimp only
    rw [hrecv, hafter]
    dsimp only
    rw [if_pos (Nat.le_of_eq hone), hbad, if_neg (by decide), hhandle, hip]
    exact forwardOut_single hpassed _
  · rw [hwslot, hslot]
  · rw [← hw, onSlot_mem, hmem]
  · rw [← hw, onSlot_quiet]
    exact (quiet_mem ..).trans hq

theorem qRecv_outcomes (hprimary : (slotOf s c k).primary = none) (hmoving : (slotOf s c k).moving = none)
    (hsigned : signaturesDiffer s c (slotOf s c k) = false) (hfetch : fetchStep s c 0x41 = .step k d) (hgood : qReserved d = false)
    (hdepth : laneDepth (imLane (slotOf s c k).image (qSel d)) ≠ 0) (hplain : qUseHq d = false) :
    let v := slotOf s c k
    (laneHead s c k (qSel d) = none → exec (.qRecv c) s = .next (settleCore (onSlot s c k (fun v => { v with state := .blocked })) c)) ∧
    (∀ x, laneHead s c k (qSel d) = some x → let h := natOf (fit x.data 32)
      queueHeader h = true → 32 + thBytes h ≤ qCount d → qAddr d + 32 + thBytes h ≤ coreBytes →
      let m : Moving := ⟨0, qAddr d, 32 + thBytes h, none, false⟩
      exec (.qRecv c) s = .next (settleCore (goOnReceiving (onSlot s c k (fun v => { v with moving := some m })) c k d) c) ∧
      (m.bytes ≤ 256 → bitAt x.header.toNat 8 = false → x.poison.any id = false → twinCore s c = none →
        ∃ t, exec (.qRecv c) s = .next t ∧ (slotOf t c k).ip = v.ip + 1 ∧
          (laneOf (slotOf t c k) (qSel d)).hand = (laneOf v (qSel d)).hand + 1 ∧
          t.mem = writePoison s.mem (corePhys c (qAddr d)) (fit x.data m.bytes) x.poison ∧ t.nv = s.nv ∧ t.frames = s.frames)) := by
  intro v
  have hrow := seqRow_of_step hfetch (recvStep s c)
  refine ⟨fun hnone => ?_, ?_⟩
  · rw [recvStep_empty hprimary hmoving hgood hdepth hplain hnone, giveUp_of_signed hsigned] at hrow
    exact congrArg Host.Outcome.next hrow
  · intro x hx h hheader hcount hfits m
    have hbegin : recvStep s c k d = goOnReceiving (onSlot s c k (fun v => { v with moving := some m })) c k d :=
      recvStep_begins hprimary hmoving hgood hdepth hplain hx hheader hcount hfits
    rw [hbegin] at hrow
    generalize hu : onSlot s c k (fun v => { v with moving := some m }) = u at hrow
    refine ⟨congrArg Host.Outcome.next hrow, fun hshort hclean hpoison hsingle => ?_⟩
    have hslot : slotOf u c k = { slotOf s c k with moving := some m } := by rw [← hu, slotOf_onSlot]
    have hslotmoving : (slotOf u c k).moving = some m := by rw [hslot]
    have hone : tokensOf m.bytes = 1 := tokensOf_one (by change 1 ≤ 32 + _; omega) hshort
    have hhead : laneHead u c k (qSel d) = some x := by rw [← hu, laneHead_moving, hx]
    have hsingleu : twinCore u c = none := by
      rw [← hu]
      exact twinCore_onSlot (fun _ => rfl) hsingle
    obtain ⟨w, hgo, ⟨lanes, hlanes, hhand⟩, hmem, hq⟩ := goOnReceiving_one hslotmoving rfl rfl rfl hone hshort hhead hclean hpoison hsingleu
    rw [hgo] at hrow
    obtain ⟨hip, hmem', hq'⟩ := passSettle w c k d ((slotOf u c k).ip + 1)
    have hqall : quiet (settleCore (passStep w c k d ((slotOf u c k).ip + 1)) c) = quiet s := by
      rw [hq', hq, ← hu, onSlot_quiet]
    have hkept : (slotOf (settleCore (passStep w c k d ((slotOf u c k).ip + 1)) c) c k).lanes = lanes := by
      obtain ⟨_, _, _, _, hpass⟩ := passStep_slot w c k d ((slotOf u c k).ip + 1)
      refine (of_lasting Slot.lanes (fun _ => rfl) (settleCore_lasting ..)).trans ?_
      rw [hpass]
      exact hlanes
    refine ⟨_, congrArg Host.Outcome.next hrow, hip.trans ?_, ?_, ?_, nv_of_quiet hqall, frames_of_quiet hqall⟩
    · rw [hslot]
    · rw [laneOf, hkept, hhand, hslot]
      rfl
    · rw [hmem', hmem, ← hu, onSlot_mem]

end

/-- Settles O42. -/
theorem queueAndMessageSteps : Obligations.QueueAndMessageSteps := by
  intro s c k d hprimary htwin hmoving hstopping hsigned
  exact ⟨fun hfetch hgood hplain hport hfits hheader =>
      qSend_outcomes hprimary htwin hmoving hstopping hsigned hfetch hgood hplain hport hfits hheader,
    fun hfetch hgood hdepth hplain => qRecv_outcomes hprimary hmoving hsigned hfetch hgood hdepth hplain,
    fun hfetch hgood hinline hexists hwords hwords' => msgSend_outcomes hprimary htwin hfetch hgood hinline hexists hwords hwords',
    fun hfetch hgood halign hclean hon hfits => msgRecv_outcomes hprimary hstopping hsigned hfetch hgood halign hclean hon hfits⟩

end Sys2Proof.Machine
end

section
/-! ## Stall windows, twins, watchdogs and signatures: R307 to R310, R671 to R674 and R690 -/

namespace Sys2Proof.Machine
open Sys2Proof.Claims

section
variable {s t : State} {i c k h : Nat} {m : Msg}

theorem stallBeacon_outcome {full : List Nat} (htake : takeMsg s i = some (m, t)) (hbody : m.body = .stall h k full) :
    exec (.stallBeacon i) s = .next (watchStall (setConf t h k { confOf t h k with
      stalled := addTo (confOf t h k).stalled (slotUnit m.src m.srcSlot)
      full := (confOf t h k).full.filter (·.1 ≠ slotUnit m.src m.srcSlot) ++ full.map (fun n => (slotUnit m.src m.srcSlot, n))
      beaconAt := t.clocks.mesh }) h k) :=
  exec_of_take rfl htake (by rw [hbody]) (by rw [hbody]; rfl)

theorem progressBeacon_outcome (htake : takeMsg s i = some (m, t)) (hbody : m.body = .progress h k) :
    exec (.progressBeacon i) s = .next (setConf t h k { confOf t h k with
      stalled := dropFrom (confOf t h k).stalled (slotUnit m.src m.srcSlot)
      full := (confOf t h k).full.filter (·.1 ≠ slotUnit m.src m.srcSlot)
      window := if (confOf t h k).window.any (fun w => windowOver t.clocks.mesh w 65536) then (confOf t h k).window else none }) :=
  exec_of_take rfl htake (by rw [hbody]) (by rw [hbody]; rfl)

/-- An extend command arms the reserve of a slot that may. -/
theorem extendCommand_arms {n : Nat} (htake : takeMsg s i = some (m, t)) (hbody : m.body = .extend n)
    (hloaded : (slotOf t m.dst m.dstSlot).state ≠ .empty) (hmay : mayArm (slotOf t m.dst m.dstSlot) = true) :
    ∃ u, exec (.extendCommand i) s = .next u ∧ (slotOf u m.dst m.dstSlot).reserve = some n ∧
      (laneOf (slotOf u m.dst m.dstSlot) n).armed = true ∧ u.mem = s.mem := by
  have hcond : (decide ((slotOf t m.dst m.dstSlot).state ≠ .empty) && mayArm (slotOf t m.dst m.dstSlot)) = true := by
    rw [hmay, decide_eq_true hloaded]
    rfl
  generalize hw : setLane (onSlot t m.dst m.dstSlot (fun v => { v with reserve := some n })) m.dst m.dstSlot n
    { laneOf (slotOf t m.dst m.dstSlot) n with armed := true } = w
  have hexec : exec (.extendCommand i) s = .next (openLane (bump w ctrSlotExtArmed (slotUnit m.dst m.dstSlot) 1) m.dst m.dstSlot n) := by
    rw [← hw]
    refine exec_of_take rfl htake ?_ (by rw [hbody]; rfl)
    rw [hbody]
    exact if_pos hcond
  have hcores : (openLane (bump w ctrSlotExtArmed (slotUnit m.dst m.dstSlot) 1) m.dst m.dstSlot n).cores = w.cores := by
    rw [openLane]
    exact (post_cores ..).trans (bump_cores ..)
  have hslot : slotOf w m.dst m.dstSlot = { slotOf t m.dst m.dstSlot with
      reserve := some n
      lanes := put (slotOf t m.dst m.dstSlot).lanes n { laneOf (slotOf t m.dst m.dstSlot) n with armed := true } } := by
    rw [← hw, setLane, slotOf_onSlot, slotOf_onSlot]
  refine ⟨_, hexec, ?_, ?_, ?_⟩
  · rw [slotOf_congr hcores, hslot]
  · rw [slotOf_congr hcores, hslot, laneOf, look_put_same]
  · have hmem : t.mem = s.mem := by
      rw [(takeMsg_eq htake).2]
      rfl
    rw [← hmem, openLane, post_mem, bump_mem, ← hw, setLane, onSlot_mem, onSlot_mem]

theorem twinCheckValue_outcome {step : Nat} {crc : BitVec 32} {w : TwinWait} (htake : takeMsg s i = some (m, t)) (hbody : m.body = .twin step crc)
    (hfind : (slotOf t m.dst m.dstSlot).twinWait.find? (fun w => w.step = step && !w.agreed && !w.rerun) = some w) :
    (w.crc = crc → exec (.twinCheckValue i) s =
      .next (settleCore (setTwinWait t m.dst m.dstSlot step (fun w => { w with agreed := true })) m.dst)) ∧
    (w.crc ≠ crc → exec (.twinCheckValue i) s = .next (setTwinWait (bump (detect t (elCore m.dst) 0xC false 0)
      ctrSlotTwinMismatch (slotUnit m.dst m.dstSlot) 1) m.dst m.dstSlot step (fun w => { w with rerun := true }))) := by
  refine ⟨fun hsame => ?_, fun hdiffer => ?_⟩
  · refine exec_of_take rfl htake ?_ (by rw [hbody]; rfl)
    rw [hbody]
    dsimp only
    rw [hfind]
    exact if_pos hsame
  · refine exec_of_take rfl htake ?_ (by rw [hbody]; rfl)
    rw [hbody]
    dsimp only
    rw [hfind]
    exact if_neg hdiffer

theorem watchdogProgressReport_outcome {w : Bool} (htake : takeMsg s i = some (m, t)) (hbody : m.body = .watchdog h k true w)
    (hcounted : (confOf t h k).counted < 8 * ticksPerMs) :
    exec (.watchdogProgressReport i) s =
      .next (setConf (bump t ctrRegionReports m.dst 1) h k { confOf t h k with counted := 0 }) := by
  have hconf : confOf (bump t ctrRegionReports m.dst 1) h k = confOf t h k := by
    rw [confOf, confOf, bump_slices]
  refine exec_of_take rfl htake ?_ (by rw [hbody]; rfl)
  rw [hbody]
  dsimp only
  rw [hconf, if_pos]
  exact decide_eq_true hcounted

theorem stallWindowEnd_outcome {t0 : Nat} (hwindow : (confOf s h k).window = some t0) (hbarred : windowBarred s h k = false)
    (hslots : confSlots s h k ≠ []) (hover : t0 + 65536 ≤ s.clocks.mesh) :
    let v := confOf s h k
    let a := (((confSlots s h k).head?).map (fun e => anchorOf (slotOf s e.1 e.2))).getD 0
    let u := bump s ctrAnchorSignatures a 1
    let lanes := starvedLanes u h k
    exec (.stallWindowEnd h k) s = .next (if lanes.any (fun f => mayArm (slotOf u (f.1 / 4) (f.1 % 4))) then
        each lanes (setConf u h k { v with window := none, signature := lanes }) (fun f s =>
          post s { src := a, srcSlot := 0, dst := f.1 / 4, dstSlot := f.1 % 4, body := .extend f.2 })
      else bump (setConf u h k { v with window := none, signature := lanes, exhausted := true }) ctrAnchorExhausted a 1) := by
  intro v a u lanes
  have hempty : (windowBarred s h k || (confSlots s h k).isEmpty) = false := by
    rw [hbarred, List.isEmpty_eq_false_iff.mpr hslots]
    rfl
  have hended : (!windowOver s.clocks.mesh t0 65536) = false := by
    rw [windowOver, decide_eq_true hover]
    rfl
  refine congrArg Host.Outcome.next ?_
  unfold stallWindowEnd
  dsimp only
  rw [hwindow]
  dsimp only
  rw [if_neg (by rw [hempty]; decide), if_neg (by rw [hended]; decide)]

theorem twinTimeout_masked {w : TwinWait} {x y : Bool}
    (hfind : (slotOf s c k).twinWait.find? (fun w => !w.agreed &&
      (w.rerun || windowOver (regionNow s (regionOf c)) w.since (100 * ticksPerUs))) = some w) (hrerun : w.rerun = true) :
    exec (.twinTimeout c k false x y) s =
      .next (settleCore (masked (setTwinWait s c k w.step (fun w => { w with agreed := true })) 3) c) := by
  refine congrArg Host.Outcome.next ?_
  unfold twinRerun
  dsimp only
  rw [hfind]
  dsimp only
  rw [if_pos hrerun]
  rfl

/-- A configured region that has counted 8 ms decides a context reset. -/
theorem watchdogExpiry_decides (hcounted : 8 * ticksPerMs ≤ (confOf s h k).counted) :
    ∃ u, exec (.watchdogExpiry h k) s = .next u ∧
      ∃ x ∈ u.sup.resets, x.domain = 0 ∧ x.target = confTarget h ∧ x.trigger = 1 ∧ x.cls = 0xB ∧ x.config = k ∧ x.begun = false := by
  refine ⟨_, rfl, ?_⟩
  unfold watchExpiry
  dsimp only
  rw [if_neg (show ¬ (confOf s h k).counted < watchLimit from Nat.not_lt.mpr hcounted)]
  exact ⟨_, List.mem_append_right _ List.mem_cons_self, rfl, rfl, rfl, rfl, rfl, rfl⟩

theorem controlFault_slot (s : State) (c k : Nat) :
    (slotOf (controlFault s c k) c k).state = .faulted ∧ (slotOf (controlFault s c k) c k).stopping = false := by
  unfold controlFault rejectStep
  dsimp only
  obtain ⟨hstate, hstopping, _, _⟩ := faultRecord_slot
    (onSlot (bump (injectionSeen (detect s (elCore c) (clsCode 0x0A (slotOf s c k).injected) false 0) 3 (slotUnit c k))
      ctrCoreStepMismatch c 1) c k (fun v => { v with injected := false }))
    c k (clsCode 0x0A (slotOf s c k).injected) 2 0 2 (clsCode 0x0A (slotOf s c k).injected) c (slotOf s c k).ip 0 0 0 0
  exact ⟨hstate, hstopping⟩

/-- Signatures that differ stop the slot. -/
theorem signatureCheck_stops (hchecked : checked s c = true) (hactive : activeState (slotOf s c k).state = true) :
    ∃ u, exec (.signatureCheck c k true) s = .next u ∧ (slotOf u c k).state = .faulted := by
  obtain ⟨hstate, hstopping⟩ := controlFault_slot s c k
  have hact : signatureCheck s c k true = settleCore (controlFault s c k) c := by
    rw [signatureCheck, hchecked, hactive]
    rfl
  refine ⟨_, congrArg Host.Outcome.next hact, settleCore_stays hstopping hstate (by decide) (by decide)⟩

end

/-- Settles O53. -/
theorem stallsTwinsAndWatchdogs : Obligations.StallsTwinsAndWatchdogs := by
  intro s t i h k c m
  exact ⟨fun htake => ⟨fun _ _ _ hbody => stallBeacon_outcome htake hbody, fun _ _ hbody => progressBeacon_outcome htake hbody,
      fun _ hbody hloaded hmay => extendCommand_arms htake hbody hloaded hmay,
      fun _ _ _ hbody hfind => twinCheckValue_outcome htake hbody hfind,
      fun _ _ _ hbody hcounted => watchdogProgressReport_outcome htake hbody hcounted⟩,
    fun _ hwindow hbarred hslots hover => stallWindowEnd_outcome hwindow hbarred hslots hover,
    fun _ _ _ hfind hrerun => twinTimeout_masked hfind hrerun, watchdogExpiry_decides, signatureCheck_stops⟩

end Sys2Proof.Machine
end

section
/-! ## DOE, SPDM, CDAT and attestation: R619 to R624 and R847 -/

namespace Sys2Proof.Machine
open Sys2Proof.Claims

section
variable {s u : State} {i : Instr} {resp : List Byte}

theorem sendObject_doe (s : State) (v ty : Nat) (body : List Byte) :
    (sendObject s v ty body).hp.doe = { s.hp.doe with response := fit body (roundUp body.length 4) } := rfl

theorem sendSpdm_doe (s : State) (body : List Byte) :
    (sendSpdm s body).hp.doe = { s.hp.doe with response := fit body (roundUp body.length 4) } := rfl

theorem setDoe_doe (s : State) (f : Doe → Doe) : (setDoe s f).hp.doe = f s.hp.doe := rfl

theorem setDoe_mem (s : State) (f : Doe → Doe) : (setDoe s f).mem = s.mem := rfl

theorem setDoe_nv (s : State) (f : Doe → Doe) : (setDoe s f).nv = s.nv := rfl

theorem sendSpdm_mem (s : State) (body : List Byte) : (sendSpdm s body).mem = s.mem := rfl

theorem sendSpdm_nv (s : State) (body : List Byte) : (sendSpdm s body).nv = s.nv := rfl

theorem freshNonce_mem (s : State) : (freshNonce s).2.mem = s.mem := rfl

theorem freshNonce_nv (s : State) : (freshNonce s).2.nv = s.nv := rfl

/-- An object that is sent answers the request, when what came before changed neither memory nor the non-volatile store. -/
theorem responds_of_sendObject {v ty : Nat} (h : exec i s = .next (sendObject u v ty resp)) (hmem : u.mem = s.mem) (hnv : u.nv = s.nv) :
    Responds s i resp := ⟨sendObject u v ty resp, h, rfl, hmem, hnv⟩

theorem discovery_outcome {n : Nat} {o : Nat × Nat} (hobject : (doeObjects s)[n]? = some o) :
    Responds s (.doeDiscovery n) (bytesOf 2 o.1 ++ bytesOf 1 o.2 ++ bytesOf 1 (if n = 3 then 0 else n + 1)) := by
  have hact : discover s n = sendObject s 1 0 (bytesOf 2 o.1 ++ bytesOf 1 o.2 ++ bytesOf 1 (if n = 3 then 0 else n + 1)) := by
    rw [discover, hobject]
  exact responds_of_sendObject (congrArg Host.Outcome.next hact) rfl rfl

theorem version_outcome : ∃ t, exec .spdmGetVersion s = .next t ∧ t.hp.doe.negotiated = false ∧ t.hp.doe.certs = [] ∧
    t.hp.doe.meas = [] ∧ t.hp.doe.vca.isEmpty = false ∧ t.mem = s.mem := by
  refine ⟨spdmVersion s, rfl, ?_⟩
  unfold spdmVersion
  dsimp only
  have hnonempty (a b : List Byte) (ha : a.length = 4) : (a ++ b).isEmpty = false :=
    List.isEmpty_eq_false_iff.mpr fun h => by
      have hlen := congrArg List.length h
      rw [List.length_append, ha, List.length_nil] at hlen
      omega
  have hvca := fun b => hnonempty (bytesOf 4 0x8410) b (length_bytesOf _ _)
  generalize bytesOf 4 0x8410 = req at *
  generalize bytesOf 4 0x0410 ++ bytesOf 1 0 ++ bytesOf 1 1 ++ bytesOf 2 0x1300 = resp
  exact ⟨rfl, rfl, rfl, hvca resp, rfl⟩

/-- A request that goes on with an exchange adds itself and its answer. -/
theorem capabilities_outcome (hbegun : s.hp.doe.vca.isEmpty = false) (hnew : s.hp.doe.negotiated = false) :
    ∃ t l, exec .spdmGetCapabilities s = .next t ∧ t.hp.doe.vca = s.hp.doe.vca ++ l ∧ t.hp.doe.negotiated = false := by
  have hopen : (s.hp.doe.vca.isEmpty || s.hp.doe.negotiated) = false := by rw [hbegun, hnew]; rfl
  have hact : ∃ req resp, spdmCapabilities s = sendSpdm (setDoe s (fun d => { d with vca := d.vca ++ req ++ resp })) resp := by
    unfold spdmCapabilities
    rw [if_neg (by rw [hopen]; decide)]
    exact ⟨_, _, rfl⟩
  obtain ⟨req, resp, hact⟩ := hact
  exact ⟨_, req ++ resp, congrArg Host.Outcome.next hact, List.append_assoc .., hnew⟩

theorem algorithms_outcome {asym hash : BitVec 32} (hbegun : s.hp.doe.vca.isEmpty = false) (hnew : s.hp.doe.negotiated = false) :
    ∃ t l, exec (.spdmNegotiateAlgorithms asym hash) s = .next t ∧ t.hp.doe.vca = s.hp.doe.vca ++ l ∧
      t.hp.doe.negotiated = (asym.getLsbD 3 && hash.getLsbD 1) := by
  have hopen : (s.hp.doe.vca.isEmpty || s.hp.doe.negotiated) = false := by rw [hbegun, hnew]; rfl
  have hact : ∃ req resp, spdmAlgorithms s asym hash = sendSpdm (setDoe s (fun d => { d with
      vca := d.vca ++ req ++ resp, negotiated := asym.getLsbD 3 && hash.getLsbD 1 })) resp := by
    have hgood : (decide ((if asym.getLsbD 3 then 8 else 0) ≠ 0) && decide ((if hash.getLsbD 1 then 2 else 0) ≠ 0)) =
        (asym.getLsbD 3 && hash.getLsbD 1) := by
      cases asym.getLsbD 3 <;> cases hash.getLsbD 1 <;> rfl
    unfold spdmAlgorithms
    rw [if_neg (by rw [hopen]; decide)]
    dsimp only
    rw [hgood]
    exact ⟨_, _, rfl⟩
  obtain ⟨req, resp, hact⟩ := hact
  exact ⟨_, req ++ resp, congrArg Host.Outcome.next hact, List.append_assoc .., rfl⟩

theorem digests_outcome (hdone : s.hp.doe.negotiated = true) (hprov : provisioned s = true) :
    Responds s .spdmGetDigests (spdmMsg 0x01 1 1 (sha384 (spdmChain s))) := by
  have hact : spdmDigests s = sendObject (setDoe s (fun d =>
      { d with certs := d.certs ++ spdmMsg 0x81 0 0 [] ++ spdmMsg 0x01 1 1 (sha384 (spdmChain s)) }))
      1 1 (spdmMsg 0x01 1 1 (sha384 (spdmChain s))) := by
    unfold spdmDigests
    rw [if_neg (by rw [hdone]; decide)]
    dsimp only
    rw [if_pos hprov]
    rfl
  exact responds_of_sendObject (congrArg Host.Outcome.next hact) rfl rfl

theorem certificate_outcome {n m : Nat} (hdone : s.hp.doe.negotiated = true) (hprov : provisioned s = true)
    (hin : n < (spdmChain s).length) :
    let k := min m ((spdmChain s).length - n)
    Responds s (.spdmGetCertificate 0 n m) (spdmMsg 0x02 0 0
      (bytesOf 2 k ++ bytesOf 2 ((spdmChain s).length - n - k) ++ ((spdmChain s).drop n).take k)) := by
  intro k
  have hbad : (decide (0 ≠ 0) || !provisioned s || decide ((spdmChain s).length ≤ n)) = false := by
    rw [hprov, decide_eq_false (Nat.not_le.mpr hin)]
    rfl
  have hact : ∃ u, spdmCertificate s 0 n m = sendObject u 1 1 (spdmMsg 0x02 0 0
      (bytesOf 2 k ++ bytesOf 2 ((spdmChain s).length - n - k) ++ ((spdmChain s).drop n).take k)) ∧ u.mem = s.mem ∧ u.nv = s.nv := by
    unfold spdmCertificate
    dsimp only
    rw [if_neg (by rw [hdone]; decide), if_neg (by rw [hbad]; decide)]
    exact ⟨_, rfl, rfl, rfl⟩
  obtain ⟨u, hact, hmem, hnv⟩ := hact
  exact responds_of_sendObject (congrArg Host.Outcome.next hact) hmem hnv

/-- A challenge completes the transcript and signs it. -/
theorem challenge_outcome {nonce : List Byte} (hdone : s.hp.doe.negotiated = true) (hprov : provisioned s = true) :
    ∃ t, exec (.spdmChallenge 0 nonce) s = .next t ∧
      let body := spdmMsg 0x03 0 1 (sha384 (spdmChain s) ++ (freshNonce s).1 ++ bytesOf 2 0 ++ bytesOf 8 0)
      let done := s.hp.doe.vca ++ s.hp.doe.certs ++ spdmMsg 0x83 0 0 (fit nonce 32 ++ bytesOf 8 0) ++ body
      t.hp.doe.completed = some done ∧ t.hp.doe.response =
        fit (body ++ rsaSign s done) (roundUp (body ++ rsaSign s done).length 4) ∧ t.mem = s.mem ∧ t.nv = s.nv := by
  dsimp only
  have hbad : (decide (0 ≠ 0) || !provisioned s) = false := by rw [hprov]; rfl
  generalize hbody : spdmMsg 0x03 0 1 (sha384 (spdmChain s) ++ (freshNonce s).1 ++ bytesOf 2 0 ++ bytesOf 8 0) = body
  generalize htranscript : s.hp.doe.vca ++ s.hp.doe.certs ++ spdmMsg 0x83 0 0 (fit nonce 32 ++ bytesOf 8 0) ++ body = done
  have hact : spdmChallenge s 0 nonce = sendSpdm (setDoe (freshNonce s).2 (fun d => { d with completed := some done, meas := [] }))
      (body ++ rsaSign s done) := by
    unfold spdmChallenge
    rw [if_neg (by rw [hdone]; decide), if_neg (by rw [hbad]; decide)]
    dsimp only
    rw [hbody, htranscript]
  refine ⟨_, congrArg Host.Outcome.next hact, ?_, ?_, ?_, ?_⟩
  · rw [sendSpdm_doe, setDoe_doe]
  · rw [sendSpdm_doe]
  · rw [sendSpdm_mem, setDoe_mem, freshNonce_mem]
  · rw [sendSpdm_nv, setDoe_nv, freshNonce_nv]

theorem measurements_outcome {n : Nat} {nonce : List Byte} (hdone : s.hp.doe.negotiated = true) (hone : 1 ≤ n) (hlast : n ≤ 8) :
    Responds s (.spdmGetMeasurements n 0 false nonce) (spdmMsg 0x60 0 0
      (bytesOf 1 1 ++ bytesOf 3 (measurementBlock s n).length ++ measurementBlock s n ++ (freshNonce s).1 ++ bytesOf 2 0 ++ bytesOf 8 0)) := by
  have hbad : (!(decide (1 ≤ n ∧ n ≤ 8) || decide (n = 0) || decide (n = 0xFF)) || (false && decide (0 ≠ 0))) = false := by
    rw [decide_eq_true (⟨hone, hlast⟩ : 1 ≤ n ∧ n ≤ 8)]
    rfl
  have hblocks : (if n = 0 then [] else if decide (1 ≤ n ∧ n ≤ 8) = true then [n] else [1, 2, 3, 4, 5, 6, 7, 8]) = [n] := by
    rw [if_neg (by omega), if_pos (decide_eq_true ⟨hone, hlast⟩)]
  have hrecord : ([n].map (measurementBlock s)).flatten = measurementBlock s n := by
    rw [List.map_cons, List.map_nil, List.flatten_cons, List.flatten_nil, List.append_nil]
  have hact : ∃ u, spdmMeasurements s n 0 false nonce = sendObject u 1 1 (spdmMsg 0x60 0 0
      (bytesOf 1 1 ++ bytesOf 3 (measurementBlock s n).length ++ measurementBlock s n ++ (freshNonce s).1 ++ bytesOf 2 0 ++ bytesOf 8 0)) ∧
      u.mem = s.mem ∧ u.nv = s.nv := by
    unfold spdmMeasurements
    dsimp only
    rw [if_neg (by rw [hdone]; decide), if_neg (by rw [hbad]; decide), hblocks, hrecord, if_neg (by omega : ¬ n = 0),
      if_neg (by rw [Bool.false_and]; decide), List.length_singleton, sendSpdm]
    exact ⟨_, rfl, by rw [setDoe_mem, freshNonce_mem], by rw [setDoe_nv, freshNonce_nv]⟩
  obtain ⟨u, hact, hmem, hnv⟩ := hact
  exact responds_of_sendObject (congrArg Host.Outcome.next hact) hmem hnv

theorem cdat_outcome {n : Nat} {e : List Byte} (hentry : (cdatHeader s :: cdatEntries s)[n]? = some e) :
    Responds s (.cdatTableAccess n) (bytesOf 1 0 ++ bytesOf 1 0 ++ bytesOf 2 (if n + 1 < 9 then n + 1 else 0xFFFF) ++ e) := by
  have hlength : (cdatHeader s :: cdatEntries s).length = 9 := rfl
  have hact : cdatAccess s n = sendObject s 0x1E98 2
      (bytesOf 1 0 ++ bytesOf 1 0 ++ bytesOf 2 (if n + 1 < 9 then n + 1 else 0xFFFF) ++ e) := by
    unfold cdatAccess
    dsimp only
    rw [hentry, hlength]
  exact responds_of_sendObject (congrArg Host.Outcome.next hact) rfl rfl

theorem attestation_outcome {req : BitVec 64} (hreserved : bitsOf req.toNat 16 48 = 0) (hop : bitsOf req.toNat 0 8 = 1)
    (hslot : bitsOf req.toNat 8 8 = 0) (hprov : provisioned s = true) :
    let answer (status len : Nat) (digest sig : List Byte) : List Byte :=
      bytesOf 1 status ++ bytesOf 1 0 ++ bytesOf 2 0 ++ bytesOf 4 len ++ fit digest 48 ++ sig
    (∀ x, s.hp.doe.completed = some x → Responds s (.attestationExtension req)
      (answer 0 35664 (sha384 x) (fit (Config.identitySign s.nv.keyGen 1 x) 35664))) ∧
    (s.hp.doe.completed = none → Responds s (.attestationExtension req) (answer 1 0 [] [])) := by
  have hbad : (decide (0 ≠ 0) || !provisioned s) = false := by rw [hprov]; rfl
  have hwell : (decide (bitsOf req.toNat 16 48 ≠ 0) || decide (bitsOf req.toNat 0 8 ≠ 1)) = false := by
    rw [hreserved, hop]
    rfl
  refine ⟨fun x hx => ?_, fun hnone => ?_⟩
  · have hact : attest s req = sendObject s Config.vendorId.toNat 1 (bytesOf 1 0 ++ bytesOf 1 0 ++ bytesOf 2 0 ++ bytesOf 4 35664 ++
        fit (sha384 x) 48 ++ fit (Config.identitySign s.nv.keyGen 1 x) 35664) := by
      unfold attest
      dsimp only
      rw [if_neg (by rw [hwell]; decide), hslot, if_neg (by rw [hbad]; decide), hx]
    exact responds_of_sendObject (congrArg Host.Outcome.next hact) rfl rfl
  · have hact : attest s req = sendObject s Config.vendorId.toNat 1 (bytesOf 1 1 ++ bytesOf 1 0 ++ bytesOf 2 0 ++ bytesOf 4 0 ++
        fit [] 48 ++ []) := by
      unfold attest
      dsimp only
      rw [if_neg (by rw [hwell]; decide), hslot, if_neg (by rw [hbad]; decide), hnone]
    exact responds_of_sendObject (congrArg Host.Outcome.next hact) rfl rfl

end

/-- Settles O56. -/
theorem doeResponses : Obligations.DoeResponses := by
  intro s n m asym hash nonce req
  exact ⟨fun _ _ hobject => discovery_outcome hobject, version_outcome,
    fun hbegun hnew => ⟨capabilities_outcome hbegun hnew, algorithms_outcome hbegun hnew⟩,
    fun hdone hprov => ⟨digests_outcome hdone hprov, certificate_outcome hdone hprov, challenge_outcome hdone hprov,
      measurements_outcome hdone⟩,
    fun _ hentry => cdat_outcome hentry, attestation_outcome⟩

end Sys2Proof.Machine
end

section
/-! ## Back-invalidations, R604 to R606 -/

namespace Sys2Proof.Machine
open Sys2Proof.Claims

/-- Nothing waits for a back-invalidation to end: no read of the host, no row, no CXL Reset. -/
def NoneWaits (s : State) : Prop := s.hp.waitReads = [] ∧ s.fabric.waitRows = [] ∧ s.hp.cxlReset = false

/-- The filter after a BIRsp of the line. -/
def keptAfter (s : State) (line : Nat) (b : BackInval) : List FilterEntry :=
  if b.data then s.hp.filter.map (fun e => if e.line = line then { e with exclusive := false } else e)
  else s.hp.filter.filter (fun e => e.line ≠ line)

/-- The back-invalidation taken out of those that are pending. -/
def withoutSnoop (s : State) (b : BackInval) : State :=
  { s with hp := { s.hp with backInv := s.hp.backInv.filter (fun x => x.line ≠ b.line) } }

section
variable {s t : State} {line : Nat} {b : BackInval}

theorem retryReads_none (h : s.hp.waitReads = []) : retryReads s = s := by
  unfold retryReads
  rw [h]
  calc ({ s with hp := { s.hp with waitReads := [] } } : State) = { s with hp := { s.hp with waitReads := s.hp.waitReads } } := by rw [h]
    _ = s := rfl

theorem releaseRows_none (h : s.fabric.waitRows = []) : releaseRows s = s := by
  unfold releaseRows
  rw [h]
  calc ({ s with fabric := { s.fabric with waitRows := [] } } : State) =
      { s with fabric := { s.fabric with waitRows := s.fabric.waitRows } } := by rw [h]
    _ = s := rfl

theorem finishCxlReset_none (h : s.hp.cxlReset = false) : finishCxlReset s = s := by
  rw [finishCxlReset, h]
  rfl

/-- What follows the end of a back-invalidation does nothing where nothing waits for it. -/
theorem afterSnoop_none (h : NoneWaits t) : finishCxlReset (retryReads (releaseRows t)) = t := by
  obtain ⟨hreads, hrows, hreset⟩ := h
  rw [releaseRows_none hrows, retryReads_none hreads, finishCxlReset_none hreset]

theorem endSnoop_once (hunits : b.units = []) (hwaits : NoneWaits s)
    (honce : (b.again && s.hp.filter.any (fun e => e.line = b.line)) = false) : endSnoop s b = withoutSnoop s b := by
  unfold endSnoop
  dsimp only
  rw [hunits, honce]
  exact afterSnoop_none (t := withoutSnoop s b) hwaits

/-- A BISnpInv of the line that is still owed goes out now. -/
theorem endSnoop_again (hunits : b.units = []) (hwaits : NoneWaits s) (hagain : b.again = true)
    (hheld : (s.hp.filter.any (fun e => e.line = b.line)) = true) :
    endSnoop s b = snoopLine (withoutSnoop s b) b.line false b.why none := by
  have hmore : (b.again && s.hp.filter.any (fun e => e.line = b.line)) = true := by rw [hagain, hheld]; rfl
  have hnone : (withoutSnoop s b).hp.backInv.any (fun x => x.line = b.line) = false := by
    refine List.any_eq_false.mpr fun x hx => ?_
    have hne := (List.mem_filter.mp hx).2
    simpa using hne
  have hsnoop : NoneWaits (snoopLine (withoutSnoop s b) b.line false b.why none) := by
    unfold snoopLine
    dsimp only
    rw [if_neg (by rw [hnone]; decide)]
    exact hwaits
  unfold endSnoop
  dsimp only
  rw [hunits, hmore]
  exact afterSnoop_none hsnoop

theorem mem_withoutSnoop {x : BackInval} (h : x ∈ (withoutSnoop s b).hp.backInv) : x.line ≠ b.line := by
  simpa using (List.mem_filter.mp h).2

theorem birsp_eq (hfind : s.hp.backInv.find? (fun x => x.line = line) = some b) :
    birspArrives s line [] = endSnoop { s with hp := { s.hp with filter := keptAfter s line b } } b := by
  unfold birspArrives
  rw [hfind]
  rfl

theorem line_of_find (hfind : s.hp.backInv.find? (fun x => x.line = line) = some b) : b.line = line := by
  simpa using List.find?_some hfind

theorem birsp_once (hfind : s.hp.backInv.find? (fun x => x.line = line) = some b) (hunits : b.units = []) (hwaits : NoneWaits s)
    (hagain : b.again = false) :
    ∃ t, exec (.birsp line []) s = .next t ∧ (∀ x ∈ t.hp.backInv, x.line ≠ line) ∧ t.mem = s.mem ∧
      t.hp.filter = keptAfter s line b ∧ t = { s with hp := t.hp, fabric := t.fabric } := by
  have hend : birspArrives s line [] = withoutSnoop { s with hp := { s.hp with filter := keptAfter s line b } } b :=
    (birsp_eq hfind).trans (endSnoop_once hunits hwaits (by rw [hagain]; rfl))
  refine ⟨_, congrArg Host.Outcome.next hend, fun x hx => ?_, rfl, rfl, rfl⟩
  rw [← line_of_find hfind]
  exact mem_withoutSnoop hx

/-- A line that stays shared is still in the filter. -/
theorem any_keptAfter_data (hdata : b.data = true) (hheld : (s.hp.filter.any (fun e => e.line = line)) = true) :
    ((keptAfter s line b).any (fun e => e.line = line)) = true := by
  obtain ⟨e, he, hline⟩ := List.any_eq_true.mp hheld
  rw [keptAfter, if_pos hdata, List.any_map]
  refine List.any_eq_true.mpr ⟨e, he, ?_⟩
  have hsame : e.line = line := of_decide_eq_true hline
  simp [hsame]

theorem birsp_again (hfind : s.hp.backInv.find? (fun x => x.line = line) = some b) (hunits : b.units = []) (hwaits : NoneWaits s)
    (hagain : b.again = true) (hdata : b.data = true) (hheld : (s.hp.filter.any (fun e => e.line = line)) = true) :
    ∃ t, exec (.birsp line []) s = .next t ∧ Out.bisnp line false ∈ t.outbox ∧
      (∃ x ∈ t.hp.backInv, x.line = line ∧ x.data = false) ∧ t.hp.filter = keptAfter s line b ∧ t.mem = s.mem := by
  have hline := line_of_find hfind
  generalize hu : ({ s with hp := { s.hp with filter := keptAfter s line b } } : State) = u
  have hend : birspArrives s line [] = snoopLine (withoutSnoop u b) b.line false b.why none := by
    rw [birsp_eq hfind, hu]
    refine endSnoop_again hunits (by rw [← hu]; exact hwaits) hagain ?_
    rw [← hu, hline]
    exact any_keptAfter_data hdata hheld
  have hnone : (withoutSnoop u b).hp.backInv.any (fun x => x.line = b.line) = false :=
    List.any_eq_false.mpr fun x hx => by simpa using mem_withoutSnoop hx
  have hsnoop : snoopLine (withoutSnoop u b) b.line false b.why none =
      let v := bump (emit (withoutSnoop u b) (.bisnp b.line false)) ctrHostBisnpInv 0 1
      { v with hp := { v.hp with backInv := v.hp.backInv ++ [{ line := b.line, data := false, since := look u.clocks.die 0 0,
                                                               why := b.why, units := [] }] } } := by
    unfold snoopLine
    dsimp only
    rw [if_neg (by rw [hnone]; decide)]
    rfl
  refine ⟨_, congrArg Host.Outcome.next (hend.trans hsnoop), ?_, ⟨_, List.mem_append_right _ List.mem_cons_self, hline, rfl⟩, ?_, ?_⟩
  · rw [hline]
    exact List.mem_cons_self
  · rw [← hu]
    rfl
  · rw [← hu]
    rfl

/-! ## A back-invalidation that is abandoned -/

/-- Poisoning a line changes the poison of memory and nothing else. -/
theorem poisonLine_shape (s : State) (line : Nat) : ∃ p, poisonLine s line = { s with mem := { s.mem with poison := p } } := by
  unfold poisonLine
  split
  · exact ⟨_, rfl⟩
  · exact ⟨s.mem.poison, rfl⟩

theorem gaOfDpa_congr (h : t.fabric = s.fabric) (a : Nat) : gaOfDpa t a = gaOfDpa s a := by
  rw [gaOfDpa, gaOfDpa, inDomain, inDomain, h]

theorem hostRefusal_shape (s : State) (cause addr : Nat) (write : Bool) : hostRefusal s cause addr write =
    { s with hp := { s.hp with errInfo := (hostRefusal s cause addr write).hp.errInfo
                               errAddr := (hostRefusal s cause addr write).hp.errAddr } } := by
  unfold hostRefusal
  dsimp only
  split <;> rfl

/-- The state an abandoned back-invalidation ends in, before what waited for it goes on. -/
def abandoned (s : State) (b : BackInval) : State :=
  let t := poisonLine { s with hp := { s.hp with filter := s.hp.filter.filter (fun e => e.line ≠ b.line) } } b.line
  let t := bump (bump t ctrHostBiTimeouts 0 1) (ctrHostRefused.plus (hostCauses.idxOf 0x91)) 0 1
  hostEvent (hostRefusal t 0x91 (gaOfDpa s (b.line * 64)) false) evBiTimeout

theorem abandoned_effect (s : State) (b : BackInval) :
    (abandoned s b).hp.filter = s.hp.filter.filter (fun e => e.line ≠ b.line) ∧ (abandoned s b).hp.event.getLsbD 2 = true ∧
    (s.hp.errInfo = 0 → (abandoned s b).hp.errInfo = BitVec.ofNat 64 (1 + 0x91 * 256) ∧
      (abandoned s b).hp.errAddr = BitVec.ofNat 64 (gaOfDpa s (b.line * 64))) ∧
    (abandoned s b).mem.cells = s.mem.cells ∧ (NoneWaits s → NoneWaits (abandoned s b)) := by
  unfold abandoned
  dsimp only
  obtain ⟨p, hp⟩ := poisonLine_shape { s with hp := { s.hp with filter := s.hp.filter.filter (fun e => e.line ≠ b.line) } } b.line
  rw [hp]
  generalize hu : bump (bump _ ctrHostBiTimeouts 0 1) (ctrHostRefused.plus (hostCauses.idxOf 0x91)) 0 1 = u
  have huhp : u.hp = { s.hp with filter := s.hp.filter.filter (fun e => e.line ≠ b.line) } := by rw [← hu]; rfl
  have humem : u.mem.cells = s.mem.cells := by rw [← hu]; rfl
  have hurows : u.fabric = s.fabric := by rw [← hu]; rfl
  rw [hostEvent_shape]
  refine ⟨?_, ?_, fun hnone => ?_, ?_, fun hwaits => ?_⟩
  · rw [hostRefusal_shape, huhp]
  · rw [BitVec.getLsbD_or]
    exact Bool.or_eq_true_iff.mpr (Or.inr rfl)
  · rw [hostRefusal_first (by rw [huhp]; exact hnone)]
    exact ⟨rfl, rfl⟩
  · rw [hostRefusal_shape]
    exact humem
  · obtain ⟨hreads, hrows, hreset⟩ := hwaits
    rw [hostRefusal_shape]
    refine ⟨?_, ?_, ?_⟩
    · rw [huhp]
      exact hreads
    · rw [hurows]
      exact hrows
    · rw [huhp]
      exact hreset

theorem biTimeout_abandons (hfind : s.hp.backInv.find? (fun x => x.line = line) = some b)
    (hlate : b.since + 10 * ticksPerMs ≤ look s.clocks.die 0 0) : exec (.biTimeout line) s = .next (abandonSnoop s b) := by
  have hover : windowOver (look s.clocks.die 0 0) b.since (10 * ticksPerMs) = true := decide_eq_true hlate
  refine congrArg Host.Outcome.next ?_
  rw [hfind]
  exact if_pos hover

theorem biTimeout_early (hfind : s.hp.backInv.find? (fun x => x.line = line) = some b)
    (hearly : look s.clocks.die 0 0 < b.since + 10 * ticksPerMs) : exec (.biTimeout line) s = .next s := by
  have hover : ¬ windowOver (look s.clocks.die 0 0) b.since (10 * ticksPerMs) = true := by
    rw [windowOver, decide_eq_false (Nat.not_le.mpr hearly)]
    decide
  refine congrArg Host.Outcome.next ?_
  rw [hfind]
  exact if_neg hover

/-- The line of an abandoned back-invalidation has left the filter, and cause 0x91 is left. -/
theorem biTimeout_effect (hfind : s.hp.backInv.find? (fun x => x.line = line) = some b) (hunits : b.units = []) (hwaits : NoneWaits s)
    (hlate : b.since + 10 * ticksPerMs ≤ look s.clocks.die 0 0) :
    ∃ t, exec (.biTimeout line) s = .next t ∧ (∀ x ∈ t.hp.backInv, x.line ≠ line) ∧ (∀ e ∈ t.hp.filter, e.line ≠ line) ∧
      t.hp.event.getLsbD 2 = true ∧
      (s.hp.errInfo = 0 → t.hp.errInfo.toNat = 1 + 0x91 * 2 ^ 8 ∧ t.hp.errAddr = BitVec.ofNat 64 (gaOfDpa s (line * 64))) ∧
      t.mem.cells = s.mem.cells := by
  have hline := line_of_find hfind
  obtain ⟨hfilter, hevent, herr, hcells, hkept⟩ := abandoned_effect s b
  have hgone : ∀ e ∈ (abandoned s b).hp.filter, e.line ≠ b.line := fun e he => by
    rw [hfilter] at he
    simpa using (List.mem_filter.mp he).2
  have honce : (b.again && (abandoned s b).hp.filter.any (fun e => e.line = b.line)) = false := by
    rw [List.any_eq_false.mpr fun e he => by simpa using hgone e he, Bool.and_false]
  have hend : abandonSnoop s b = withoutSnoop (abandoned s b) b := endSnoop_once hunits (hkept hwaits) honce
  refine ⟨_, (biTimeout_abandons hfind hlate).trans (congrArg Host.Outcome.next hend), fun x hx => ?_, fun e he => ?_, hevent,
    fun hnone => ?_, hcells⟩
  · rw [← hline]
    exact mem_withoutSnoop hx
  · rw [← hline]
    exact hgone e he
  · obtain ⟨hinfo, haddr⟩ := herr hnone
    exact ⟨congrArg BitVec.toNat hinfo, hline ▸ haddr⟩

end

/-- Settles O23. -/
theorem backInvalidations : Obligations.BackInvalidations := by
  intro s line b hfind
  exact ⟨congrArg Host.Outcome.next (birsp_eq hfind), biTimeout_abandons hfind, biTimeout_early hfind,
    fun hunits hreads hrows hreset => ⟨birsp_once hfind hunits ⟨hreads, hrows, hreset⟩,
      birsp_again hfind hunits ⟨hreads, hrows, hreset⟩, biTimeout_effect hfind hunits ⟨hreads, hrows, hreset⟩⟩⟩

end Sys2Proof.Machine
end

section
/-! ## What waits at the mesh's endpoints -/

namespace Sys2Proof.Machine

/-- The packets that have arrived at an endpoint, those that it holds, and what the pairs of endpoints have counted. -/
def endpoints (s : State) : Tab (List Packet) × Tab (List Packet) × Tab PairDst := (s.mesh.arrived, s.mesh.held, s.mesh.pairDst)

end Sys2Proof.Machine
end

section
/-! Further parts of the state that operations leave as they were. -/

namespace Sys2Proof.Machine

@[simp] theorem detect_mesh (s : State) (el : Element) (code : Nat) (hard : Bool) (place : Nat) : (detect s el code hard
    place).mesh = s.mesh := by rfl

@[simp] theorem injectionSeen_mesh (s : State) (unit id : Nat) : (injectionSeen s unit id).mesh = s.mesh := by rfl

@[simp] theorem detectAt_mesh (s : State) (el : Element) (cls unit id : Nat) (hard : Bool) : (detectAt s el cls unit id
    hard).mesh = s.mesh := by rfl

@[simp] theorem setRingWr_mesh (s : State) (c : Nat) (v : Slot) (i wr : Nat) (ph : Bool) : (setRingWr s c v i wr ph).mesh =
    s.mesh := by rfl

@[simp] theorem writeRecord_mesh (s : State) (c k r : Nat) : (writeRecord s c k r).mesh = s.mesh := by
  unfold writeRecord; split <;> simp

@[simp] theorem reportError_mesh (s : State) (c k kind cause unit step row col : Nat) (et : Int) (detail : Nat) : (reportError s
    c k kind cause unit step row col et detail).mesh = s.mesh := by
  simp [reportError]

@[simp] theorem post_mesh (s : State) (m : Msg) : (post s m).mesh = s.mesh := by rfl

@[simp] theorem closeEnds_mesh (s : State) (c k : Nat) : (closeEnds s c k).mesh = s.mesh := by rfl

@[simp] theorem setConf_mesh (s : State) (h config : Nat) (v : Conf) : (setConf s h config v).mesh = s.mesh := by
  unfold setConf; split <;> simp

@[simp] theorem dropWindow_mesh (s : State) (c k : Nat) : (dropWindow s c k).mesh = s.mesh := by
  grind [dropWindow, setConf_mesh]

@[simp] theorem faultSlot_mesh (s : State) (c k : Nat) : (faultSlot s c k).mesh = s.mesh := by
  simp [faultSlot]

@[simp] theorem noteFault_mesh (s : State) (c k cause unit addr : Nat) : (noteFault s c k cause unit addr).mesh = s.mesh := by rfl

@[simp] theorem rejectStep_mesh (s : State) (c k step cause unit row col : Nat) : (rejectStep s c k step cause unit row
    col).mesh = s.mesh := by
  simp [rejectStep]

@[simp] theorem poisonStop_mesh (s : State) (c k step unit : Nat) : (poisonStop s c k step unit).mesh = s.mesh := by
  simp [poisonStop]

@[simp] theorem consumePoison_mesh (s : State) (c k step cls : Nat) : (consumePoison s c k step cls).mesh = s.mesh := by
  simp [consumePoison]

@[simp] theorem reportProgress_mesh (s : State) (c k : Nat) (moved : Bool) : (reportProgress s c k moved).mesh = s.mesh := by
  grind [reportProgress, onSlot_mesh, post_mesh]

@[simp] theorem selectSlot_mesh (s : State) (c : Nat) : (selectSlot s c).mesh = s.mesh := by
  grind [selectSlot, bump_mesh, onSlot_mesh, setCore_mesh]

@[simp] theorem settleStop_mesh (s : State) (c k : Nat) : (settleStop s c k).mesh = s.mesh := by
  grind [settleStop, dropWindow_mesh, onSlot_mesh]

@[simp] theorem settleBlock_mesh (s : State) (c k : Nat) : (settleBlock s c k).mesh = s.mesh := by
  unfold settleBlock; split <;> simp

@[simp] theorem settleBeacon_mesh (s : State) (c k : Nat) : (settleBeacon s c k).mesh = s.mesh := by
  grind [settleBeacon, onSlot_mesh, post_mesh]

@[simp] theorem settleCore_mesh (s : State) (c : Nat) : (settleCore s c).mesh = s.mesh := by
  simp [settleCore, each_keeps State.mesh]

@[simp] theorem orphanTo_mesh (s : State) (fromCore core slot gen step kind detail : Nat) : (orphanTo s fromCore core slot gen
    step kind detail).mesh = s.mesh := by rfl

@[simp] theorem outsideWrite_mesh (s : State) (c off : Nat) (l : List Byte) (mask : List Bool) : (outsideWrite s c off l
    mask).mesh = s.mesh := by
  unfold outsideWrite; split <;> simp

@[simp] theorem setWire_endpoints (s : State) (router port : Nat) (l : List Packet) : endpoints (setWire s router port l) =
    endpoints s := by rfl

@[simp] theorem arriveAt_endpoints (s : State) (router port : Nat) (p : Packet) : endpoints (arriveAt s router port p) =
    endpoints s := by rfl

@[simp] theorem admitEach_endpoints (router port : Nat) (x0 : List Nat) (x1 : List Packet) (s : State) : endpoints (admitEach
    router port x0 x1 s).1 = endpoints s := by
  fun_induction admitEach <;> grind [arriveAt_endpoints, endpoints]

@[simp] theorem enterPort_endpoints (s : State) (router port : Nat) : endpoints (enterPort s router port) = endpoints s := by
  grind [enterPort, admitEach_endpoints, endpoints]

@[simp] theorem waitAtPort_endpoints (s : State) (router port : Nat) (p : Packet) : endpoints (waitAtPort s router port p) =
    endpoints s := by
  grind [waitAtPort, enterPort_endpoints, endpoints]

@[simp] theorem launch_endpoints (s : State) (p : Packet) : endpoints (launch s p) = endpoints s := by
  grind [launch, waitAtPort_endpoints, endpoints]

@[simp] theorem decideReset_mesh (s : State) (domain target trigger cls config : Nat) (holding : List Element) (repair : Option
    (Nat × Nat)) : (decideReset s domain target trigger cls config holding repair).mesh = s.mesh := by rfl

@[simp] theorem escalate_mesh (s : State) (structure_ place : Nat) : (escalate s structure_ place).mesh = s.mesh := by rfl

@[simp] theorem physWrite_mesh (s : State) (a : Nat) (data : List Byte) (mask : List Bool) : (physWrite s a data mask).mesh =
    s.mesh := by
  unfold physWrite; split <;> simp

@[simp] theorem setLane_mesh (s : State) (c k n : Nat) (l : Lane) : (setLane s c k n l).mesh = s.mesh := by rfl

@[simp] theorem arriveToken_mesh (s : State) (c k n : Nat) (t : Token) : (arriveToken s c k n t).mesh = s.mesh := by
  grind [arriveToken, bump_mesh, setLane_mesh]

@[simp] theorem freshTag_endpoints (s : State) (unit : Unit) : endpoints (freshTag s unit).2 = endpoints s := by
  unfold freshTag; split <;> simp [endpoints]

@[simp] theorem hubPost_endpoints (s : State) (c k r i : Nat) : endpoints (hubPost s c k r i) = endpoints s := by rfl

@[simp] theorem orphanLane_mesh (s : State) (c k n core slot gen port sentGen : Nat) (request : Bool) : (orphanLane s c k n core
    slot gen port sentGen request).mesh = s.mesh := by rfl

@[simp] theorem setArea_mesh (s : State) (c k i a : Nat) (r : Area) : (setArea s c k i a r).mesh = s.mesh := by rfl

@[simp] theorem landFault_mesh (s : State) (c k row col : Nat) : (landFault s c k row col).mesh = s.mesh := by
  simp [landFault]

@[simp] theorem tellContributors_mesh (s : State) (c k e : Nat) (body : Nat → Body) : (tellContributors s c k e body).mesh =
    s.mesh := by
  simp [tellContributors, each_keeps State.mesh]

@[simp] theorem landArith_mesh (s : State) (c k i a cause : Nat) (et : Int) : (landArith s c k i a cause et).mesh = s.mesh := by
  simp [landArith]

@[simp] theorem landReplay_mesh (s : State) (c k i a : Nat) : (landReplay s c k i a).mesh = s.mesh := by
  simp [landReplay]

@[simp] theorem landAccept_endpoints (s : State) (c k i a : Nat) (et : Int) (replay kSum : Nat) (preload poison : Bool) (ws :
    List AccWord) : endpoints (landAccept s c k i a et replay kSum preload poison ws) = endpoints s := by
  grind [landAccept, hubPost_endpoints, bump_mesh, outsideWrite_mesh, setArea_mesh, settleCore_mesh, tellContributors_mesh,
    endpoints]

@[simp] theorem landComplete_endpoints (s : State) (c k i a : Nat) : endpoints (landComplete s c k i a) = endpoints s := by
  grind [landComplete, landAccept_endpoints, bump_mesh, detect_mesh, landArith_mesh, landFault_mesh, landReplay_mesh, endpoints]

@[simp] theorem landInto_endpoints (s : State) (c k i a : Nat) (p : Packet) (ch : Nat) : endpoints (landInto s c k i a p ch) =
    endpoints s := by
  grind [landInto, landComplete_endpoints, bump_mesh, detect_mesh, landFault_mesh, outsideWrite_mesh, setArea_mesh, endpoints]

@[simp] theorem landPacket_endpoints (s : State) (c : Nat) (p : Packet) : endpoints (landPacket s c p) = endpoints s := by
  fun_cases landPacket <;> grind [landInto_endpoints, bump_mesh, consumePoison_mesh, detect_mesh, landFault_mesh,
    noteFault_mesh, setArea_mesh, settleCore_mesh, endpoints]

@[simp] theorem respondRead_endpoints (s : State) (p : Packet) (data : List Byte) (mask : List Bool) : endpoints (respondRead s
    p data mask) = endpoints s := by
  grind [respondRead, launch_endpoints, endpoints]

@[simp] theorem respondWrite_endpoints (s : State) (p : Packet) : endpoints (respondWrite s p) = endpoints s := by
  grind [respondWrite, launch_endpoints, endpoints]

@[simp] theorem respondOrder_endpoints (s : State) (p : Packet) : endpoints (respondOrder s p) = endpoints s := by
  grind [respondOrder, launch_endpoints, endpoints]

@[simp] theorem answerRead_endpoints (p : Packet) (s : State) : endpoints (answerRead p s) = endpoints s := by
  grind [answerRead, respondRead_endpoints, escalate_mesh, endpoints]

@[simp] theorem cacheRead_endpoints (s : State) (r : Nat) (p : Packet) : endpoints (cacheRead s r p) = endpoints s := by
  grind [cacheRead, answerRead_endpoints, bump_mesh, setReg_mesh, endpoints]

@[simp] theorem toTier_endpoints (s : State) (port : Nat) (p : Packet) : endpoints (toTier s port p) = endpoints s := by
  grind [toTier, launch_endpoints, emit_mesh, setTier_mesh, endpoints]

@[simp] theorem applyRead_endpoints (s : State) (p : Packet) : endpoints (applyRead s p) = endpoints s := by
  grind [applyRead, answerRead_endpoints, cacheRead_endpoints, toTier_endpoints, endpoints]

@[simp] theorem applyWrite_endpoints (s : State) (p : Packet) : endpoints (applyWrite s p) = endpoints s := by
  grind [applyWrite, respondWrite_endpoints, toTier_endpoints, physWrite_mesh, endpoints]

@[simp] theorem applyToken_endpoints (s : State) (p : Packet) : endpoints (applyToken s p) = endpoints s := by
  grind [applyToken, respondOrder_endpoints, arriveToken_mesh, orphanLane_mesh, settleCore_mesh, endpoints]

@[simp] theorem applyPacket_endpoints (s : State) (p : Packet) : endpoints (applyPacket s p) = endpoints s := by
  grind [applyPacket, applyRead_endpoints, applyToken_endpoints, applyWrite_endpoints, endpoints]

end Sys2Proof.Machine
end

section
/-! Further parts of the state that operations leave as they were. -/

namespace Sys2Proof.Machine

@[simp] theorem putFree_mem (s : State) (c k x : Nat) : (putFree s c k x).mem = s.mem := by
  unfold putFree; split <;> simp

@[simp] theorem setStrm_mem (s : State) (c k n : Nat) (t : Stream) : (setStrm s c k n t).mem = s.mem := by rfl

@[simp] theorem returnHandles_mem (s : State) (c k n : Nat) : (returnHandles s c k n).mem = s.mem := by
  simp [returnHandles, each_keeps State.mem]

@[simp] theorem releaseMarks_mem (s : State) (a : OpenAcc) : (releaseMarks s a).mem = s.mem := by
  simp [releaseMarks, each_keeps State.mem]

end Sys2Proof.Machine
end

section
/-! ## Packets and reductions at an endpoint: R432, R435, R448, R384, R387 and R452 -/

namespace Sys2Proof.Machine
open Sys2Proof.Claims

section
variable {s t u : State} {ep i : Nat} {q : Packet} {m : Msg}

theorem arrivals_of_endpoints (h : endpoints t = endpoints s) (ep : Nat) : arrivals t ep = arrivals s ep :=
  congrArg (look · ep []) (congrArg Prod.fst h)

theorem heldAt_of_endpoints (h : endpoints t = endpoints s) (ep : Nat) : heldAt t ep = heldAt s ep :=
  congrArg (look · ep []) (congrArg (fun p => p.2.1) h)

theorem pairDst_of_endpoints (h : endpoints t = endpoints s) (src dst : Nat) : pairDst t src dst = pairDst s src dst :=
  congrArg (fun p : Tab (List Packet) × Tab (List Packet) × Tab PairDst => look p.2.2 (pairKey src dst) PairDst.fresh) h

theorem arrivals_setPairDst (s : State) (src dst : Nat) (v : PairDst) (ep : Nat) :
    arrivals (setPairDst s src dst v) ep = arrivals s ep := rfl

theorem heldAt_setPairDst (s : State) (src dst : Nat) (v : PairDst) (ep : Nat) : heldAt (setPairDst s src dst v) ep = heldAt s ep := rfl

theorem pairDst_setPairDst (s : State) (src dst : Nat) (v : PairDst) : pairDst (setPairDst s src dst v) src dst = v := look_put_same ..

theorem heldAt_setHeld (s : State) (ep : Nat) (l : List Packet) : heldAt (setHeld s ep l) ep = l := look_put_same ..

theorem reorderAt_setReorder (s : State) (ep : Nat) (l : List Packet) : reorderAt (setReorder s ep l) ep = l := look_put_same ..

theorem setHeld_quiet_all (s : State) (ep : Nat) (l : List Packet) : quiet (setHeld s ep l) = quiet s := rfl

/-- A packet that is taken has left what arrived, and nothing else of the state changed. -/
theorem takeArrived_eq {p : Packet → Bool} (h : takeArrived s ep p = some (q, t)) : t = setArrivals s ep ((arrivals s ep).eraseP p) := by
  unfold takeArrived at h
  split at h
  · cases h
  · simp only [Option.some.injEq, Prod.mk.injEq] at h
    exact h.2.symm

/-- A flagged packet that takes effect counts its pair from 0 again. -/
theorem applyFlagged_effect (s : State) (q : Packet) (ep : Nat) :
    arrivals (applyFlagged s q) ep = arrivals s ep ∧ heldAt (applyFlagged s q) ep = heldAt s ep ∧
    (let d := pairDst s q.src q.dest;
      pairDst (applyFlagged s q) q.src q.dest = if q.fepoch then { d with got1 := 0 } else { d with got0 := 0 }) ∧
    (applyFlagged s q).nv = s.nv ∧ (applyFlagged s q).frames = s.frames ∧ (applyFlagged s q).engines = s.engines := by
  have hq := applyFlagged_quiet s q
  refine ⟨?_, ?_, ?_, nv_of_quiet hq, frames_of_quiet hq, engines_of_quiet hq⟩
  · exact (arrivals_of_endpoints (applyPacket_endpoints ..) ep).trans (arrivals_setPairDst ..)
  · exact (heldAt_of_endpoints (applyPacket_endpoints ..) ep).trans (heldAt_setPairDst ..)
  · exact (pairDst_of_endpoints (applyPacket_endpoints ..) _ _).trans (pairDst_setPairDst ..)

/-- Flagged packets as they arrive. -/
theorem flaggedPacket_outcomes (harrived : Arrived s ep (fun x => x.flagged) q u) :
    (flaggedMet u q = true → exec (.flaggedPacket ep) s = .next (applyFlagged u q) ∧
      ∃ t, exec (.flaggedPacket ep) s = .next t ∧ arrivals t ep = (arrivals s ep).eraseP (fun x => x.flagged) ∧
        heldAt t ep = heldAt s ep ∧ (let d := pairDst s q.src q.dest;
          pairDst t q.src q.dest = if q.fepoch then { d with got1 := 0 } else { d with got0 := 0 }) ∧
        t.nv = s.nv ∧ t.frames = s.frames ∧ t.engines = s.engines) ∧
    (flaggedMet u q = false → (heldAt u ep).length < 4 → ∃ t, exec (.flaggedPacket ep) s = .next t ∧
      heldAt t ep = heldAt s ep ++ [q] ∧ arrivals t ep = (arrivals s ep).eraseP (fun x => x.flagged) ∧ MeshOnly s t) ∧
    (flaggedMet u q = false → 4 ≤ (heldAt u ep).length → exec (.flaggedPacket ep) s = .next s) := by
  have hu := takeArrived_eq harrived
  have hact : flaggedArrival s ep = if flaggedMet u q then applyFlagged u q
      else if (heldAt u ep).length < 4 then bump (setHeld u ep (heldAt u ep ++ [q])) ctrEpHeld ep 1 else s := by
    rw [flaggedArrival, show takeArrived s ep (fun x => x.flagged) = some (q, u) from harrived]
  refine ⟨fun hmet => ?_, fun hmet hroom => ?_, fun hmet hfull => ?_⟩
  · have hexec : exec (.flaggedPacket ep) s = .next (applyFlagged u q) :=
      congrArg Host.Outcome.next (hact.trans (if_pos hmet))
    obtain ⟨harr, hheld, hpair, hnv, hframes, hengines⟩ := applyFlagged_effect u q ep
    refine ⟨hexec, _, hexec, harr.trans ?_, hheld.trans ?_, ?_, hnv.trans ?_, hframes.trans ?_, hengines.trans ?_⟩
    · rw [hu, arrivals_setArrivals]
    · rw [hu]
      rfl
    · rw [hpair, hu]
      rfl
    all_goals
      rw [hu]
      rfl
  · have hexec : exec (.flaggedPacket ep) s = .next (bump (setHeld u ep (heldAt u ep ++ [q])) ctrEpHeld ep 1) :=
      congrArg Host.Outcome.next (hact.trans ((if_neg (by rw [hmet]; decide)).trans (if_pos hroom)))
    refine ⟨_, hexec, ?_, ?_, ?_⟩
    · exact (heldAt_setHeld ..).trans (by rw [hu]; rfl)
    · exact (show arrivals (bump (setHeld u ep _) ctrEpHeld ep 1) ep = arrivals u ep from rfl).trans (by rw [hu, arrivals_setArrivals])
    · rw [hu]
      rfl
  · exact congrArg Host.Outcome.next (hact.trans ((if_neg (by rw [hmet]; decide)).trans (if_neg (Nat.not_lt.mpr hfull))))

/-- A held packet whose count is met is released. -/
theorem flaggedRelease_outcome (hfind : (heldAt s ep).find? (flaggedMet s) = some q) :
    exec (.flaggedPacketRelease ep) s = .next (applyFlagged (setHeld s ep ((heldAt s ep).erase q)) q) ∧
    ∃ t, exec (.flaggedPacketRelease ep) s = .next t ∧ heldAt t ep = (heldAt s ep).erase q ∧
      (let d := pairDst s q.src q.dest;
        pairDst t q.src q.dest = if q.fepoch then { d with got1 := 0 } else { d with got0 := 0 }) ∧
      t.nv = s.nv ∧ t.frames = s.frames ∧ t.engines = s.engines := by
  have hexec : exec (.flaggedPacketRelease ep) s = .next (applyFlagged (setHeld s ep ((heldAt s ep).erase q)) q) := by
    refine congrArg Host.Outcome.next ?_
    rw [flaggedRelease, hfind]
  obtain ⟨_, hheld, hpair, hnv, hframes, hengines⟩ := applyFlagged_effect (setHeld s ep ((heldAt s ep).erase q)) q ep
  exact ⟨hexec, _, hexec, hheld.trans (heldAt_setHeld ..), hpair, hnv, hframes, hengines⟩

theorem applyVc5_arrivals (f : Nat) (s : State) (q : Packet) (ep : Nat) : arrivals (applyVc5 f s q) ep = arrivals s ep := by
  induction f generalizing s q with
  | zero => exact (arrivals_of_endpoints (applyPacket_endpoints ..) ep).trans (arrivals_setPairDst ..)
  | succ f ih =>
    have hone (v : PairDst) : arrivals (applyPacket (setPairDst s q.src q.dest v) q) ep = arrivals s ep :=
      (arrivals_of_endpoints (applyPacket_endpoints ..) ep).trans (arrivals_setPairDst ..)
    unfold applyVc5
    dsimp only
    split
    · exact hone _
    · exact (ih _ _).trans (hone _)

/-- VC5 packets as they arrive. -/
theorem vc5Packet_outcomes (harrived : Arrived s ep (fun x => x.vc = 5) q u) :
    (q.pseq = (pairDst u q.src q.dest).pseq → exec (.vc5Packet ep) s = .next (applyVc5 16 u q) ∧
      ∃ t, exec (.vc5Packet ep) s = .next t ∧ arrivals t ep = (arrivals s ep).eraseP (fun x => x.vc = 5) ∧
        t.nv = s.nv ∧ t.frames = s.frames ∧ t.engines = s.engines) ∧
    (q.pseq ≠ (pairDst u q.src q.dest).pseq → (reorderAt u ep).length < 16 →
      ∃ t, exec (.vc5Packet ep) s = .next t ∧ reorderAt t ep = reorderAt s ep ++ [q] ∧
        arrivals t ep = (arrivals s ep).eraseP (fun x => x.vc = 5) ∧ MeshOnly s t) := by
  have hu := takeArrived_eq harrived
  have hact : vc5Arrival s ep = if q.pseq = (pairDst u q.src q.dest).pseq then applyVc5 16 u q
      else if (reorderAt u ep).length < 16 then bump (setReorder u ep (reorderAt u ep ++ [q])) ctrEpReordered ep 1 else s := by
    rw [vc5Arrival, show takeArrived s ep (fun x => x.vc = 5) = some (q, u) from harrived]
  refine ⟨fun hturn => ?_, fun hahead hroom => ?_⟩
  · have hexec : exec (.vc5Packet ep) s = .next (applyVc5 16 u q) := congrArg Host.Outcome.next (hact.trans (if_pos hturn))
    have hq : quiet (applyVc5 16 u q) = quiet s := (applyVc5_quiet ..).trans (by rw [hu]; rfl)
    refine ⟨hexec, _, hexec, (applyVc5_arrivals ..).trans ?_, nv_of_quiet hq, frames_of_quiet hq, engines_of_quiet hq⟩
    rw [hu, arrivals_setArrivals]
  · have hexec : exec (.vc5Packet ep) s = .next (bump (setReorder u ep (reorderAt u ep ++ [q])) ctrEpReordered ep 1) :=
      congrArg Host.Outcome.next (hact.trans ((if_neg hahead).trans (if_pos hroom)))
    refine ⟨_, hexec, (reorderAt_setReorder ..).trans (by rw [hu]; rfl), ?_, ?_⟩
    · exact (show arrivals (bump (setReorder u ep _) ctrEpReordered ep 1) ep = arrivals u ep from rfl).trans
        (by rw [hu, arrivals_setArrivals])
    · rw [hu]
      rfl

/-- The oldest reduction packet at a core lands. -/
theorem reductionPacketLand_outcome (hfind : (arrivals s ep).find? (fun x => decide (x.kind = 4)) = some q) :
    exec (.reductionPacketLand ⟨ep, .none⟩) s =
      .next (landPacket (setArrivals s ep ((arrivals s ep).eraseP (fun x => decide (x.kind = 4)))) ep q) ∧
    ∃ t, exec (.reductionPacketLand ⟨ep, .none⟩) s = .next t ∧
      arrivals t ep = (arrivals s ep).eraseP (fun x => decide (x.kind = 4)) ∧
      t.nv = s.nv ∧ t.frames = s.frames ∧ t.engines = s.engines := by
  have hexec : exec (.reductionPacketLand ⟨ep, .none⟩) s =
      .next (landPacket (setArrivals s ep ((arrivals s ep).eraseP (fun x => decide (x.kind = 4)))) ep q) := by
    change execReductionPacketLand _ _ = _
    unfold execReductionPacketLand
    dsimp only
    rw [hfind]
    rfl
  have hq : quiet (landPacket (setArrivals s ep ((arrivals s ep).eraseP (fun x => decide (x.kind = 4)))) ep q) = quiet s :=
    (landPacket_quiet ..).trans rfl
  exact ⟨hexec, _, hexec, (arrivals_of_endpoints (landPacket_endpoints ..) ep).trans (arrivals_setArrivals ..),
    nv_of_quiet hq, frames_of_quiet hq, engines_of_quiet hq⟩

/-! ## What a reduction tells its contributors -/

theorem withoutMsg_engOf (s : State) (i g : Nat) : engOf (withoutMsg s i) g = engOf s g := rfl

/-- The marks of a partial that its engine has sent are released. -/
theorem releaseSent_effect {g row col : Nat} {a : OpenAcc} (hsent : sentIn (engOf s g) row col = some a) :
    engOf (releaseSent s g row col) g = withoutSent (engOf s g) a row col ∧ (releaseSent s g row col).mem = s.mem := by
  have hact : releaseSent s g row col =
      settleCore (releaseMarks (setEng s g (withoutSent (engOf s g) a row col)) a) a.first.core := by
    rw [releaseSent, hsent]
  have hengines := engines_of_quiet ((settleCore_quiet (releaseMarks (setEng s g (withoutSent (engOf s g) a row col)) a)
    a.first.core).trans (releaseMarks_quiet ..))
  rw [hact]
  refine ⟨?_, ?_⟩
  · rw [engOf, hengines]
    exact engOf_setEng ..
  · rw [mem_of_coresRest (settleCore_coresRest ..), releaseMarks_mem]
    rfl

/-- An accept or an abort names a partial and releases it at the engine and its twin. -/
theorem reductionEnd_outcome {e : Instr} (he : e ∈ [Instr.reductionAccept i, .reductionAbort i]) (htake : takeMsg s i = some (m, u))
    {g row col : Nat} (hbody : m.body = (if e = .reductionAccept i then .accept g row col else .abort g row col)) :
    exec e s = .next (each (engineTwins u g) u (fun e s => releaseSent s e row col)) := by
  have hneq : Instr.reductionAbort i ≠ .reductionAccept i := by simp
  simp only [List.mem_cons, List.not_mem_nil, or_false] at he
  rcases he with rfl | rfl
  · rw [if_pos rfl] at hbody
    exact exec_of_take rfl htake (by rw [hbody]) (by rw [hbody]; rfl)
  · rw [if_neg hneq] at hbody
    exact exec_of_take rfl htake (by rw [hbody]) (by rw [hbody]; rfl)

theorem reductionEnd_effect {e : Instr} (he : e ∈ [Instr.reductionAccept i, .reductionAbort i]) (htake : takeMsg s i = some (m, u))
    {g row col : Nat} (hbody : m.body = (if e = .reductionAccept i then .accept g row col else .abort g row col)) {a : OpenAcc}
    (hsent : sentIn (engOf s g) row col = some a) (hsingle : engineTwins u g = [g]) :
    ∃ t, exec e s = .next t ∧ engOf t g = withoutSent (engOf s g) a row col ∧ t.mem = s.mem ∧ t.nv = s.nv ∧ t.frames = s.frames := by
  have hexec := reductionEnd_outcome he htake hbody
  rw [hsingle] at hexec
  have hu := (takeMsg_eq htake).2
  have hsent' : sentIn (engOf u g) row col = some a := by
    rw [hu]
    exact hsent
  obtain ⟨heng, hmem⟩ := releaseSent_effect hsent'
  have hb : boxed (releaseSent u g row col) = boxed s := (releaseSent_boxed ..).trans (by rw [hu]; rfl)
  refine ⟨_, hexec, heng.trans (by rw [hu]; rfl), hmem.trans (by rw [hu]; rfl), nv_of_boxed hb, frames_of_boxed hb⟩

/-- An engine that is busy only notes the replay asked of it. -/
theorem noteReplay_busy {g row col n : Nat} (hsent : (sentIn (engOf s g) row col).isSome = true)
    (hbusy : (engOf s g).acc.isSome = true) :
    noteReplay s g row col n = setEng s g (withReplay (engOf s g) row col n) := by
  obtain ⟨a, ha⟩ := Option.isSome_iff_exists.mp hbusy
  have hacc : (engOf (setEng s g (withReplay (engOf s g) row col n)) g).acc = some a := by
    rw [engOf_setEng]
    exact ha
  unfold noteReplay
  rw [if_pos hsent]
  unfold takeReplay
  dsimp only
  rw [hacc]

theorem replayRequest_outcome (htake : takeMsg s i = some (m, u)) {g row col n : Nat} (hbody : m.body = .replayRequest g row col n) :
    exec (.reductionReplayRequest i) s = .next (each (engineTwins u g) u (fun e s => noteReplay s e row col n)) ∧
    ∃ t, exec (.reductionReplayRequest i) s = .next t ∧ t.nv = s.nv ∧ t.frames = s.frames ∧
      ((sentIn (engOf s g) row col).isSome = true → (engOf s g).acc.isSome = true → engineTwins u g = [g] →
        engOf t g = withReplay (engOf s g) row col n ∧ t.mem = s.mem) := by
  have hexec : exec (.reductionReplayRequest i) s = .next (each (engineTwins u g) u (fun e s => noteReplay s e row col n)) :=
    exec_of_take rfl htake (by rw [hbody]) (by rw [hbody]; rfl)
  have hu := (takeMsg_eq htake).2
  have hb : boxed (each (engineTwins u g) u (fun e s => noteReplay s e row col n)) = boxed s :=
    (each_keeps boxed (fun e t => noteReplay_boxed t e row col n) _ _).trans (by rw [hu]; rfl)
  refine ⟨hexec, _, hexec, nv_of_boxed hb, frames_of_boxed hb, fun hsent hbusy hsingle => ?_⟩
  rw [hsingle]
  have hsame : noteReplay u g row col n = setEng u g (withReplay (engOf u g) row col n) :=
    noteReplay_busy (by rw [hu]; exact hsent) (by rw [hu]; exact hbusy)
  change engOf (noteReplay u g row col n) g = _ ∧ (noteReplay u g row col n).mem = _
  rw [hsame, engOf_setEng, hu]
  exact ⟨rfl, rfl⟩

end

/-- Settles O50. -/
theorem endpointArrivals : Obligations.EndpointArrivals := by
  intro s u ep i q m
  exact ⟨flaggedPacket_outcomes, flaggedRelease_outcome, vc5Packet_outcomes, reductionPacketLand_outcome,
    fun htake => ⟨fun _ he _ _ _ hbody => ⟨reductionEnd_outcome he htake hbody, fun _ hsent => reductionEnd_effect he htake hbody hsent⟩,
      fun _ _ _ _ hbody => replayRequest_outcome htake hbody⟩⟩

end Sys2Proof.Machine
end

section
/-! ## Which copy of the route tables is in force -/

namespace Sys2Proof.Machine

/-- The active copy, the endpoints that have switched, and how far a rebuild is. -/
def switching (s : State) : Bool × List Nat × Nat := (s.mesh.active, s.mesh.switched, s.mesh.rebuild)

end Sys2Proof.Machine
end

section
/-! Further parts of the state that operations leave as they were. -/

namespace Sys2Proof.Machine

@[simp] theorem affectCores_fuses (s : State) (cores : List Nat) : (affectCores s cores).fuses = s.fuses :=
  fuses_of_quiet (affectCores_quiet ..)

@[simp] theorem setRingWr_caps (s : State) (c : Nat) (v : Slot) (i wr : Nat) (ph : Bool) : (setRingWr s c v i wr ph).caps =
    s.caps := by rfl

@[simp] theorem writeRecord_caps (s : State) (c k r : Nat) : (writeRecord s c k r).caps = s.caps := by
  unfold writeRecord; split <;> simp

@[simp] theorem post_caps (s : State) (m : Msg) : (post s m).caps = s.caps := by rfl

@[simp] theorem setConf_caps (s : State) (h config : Nat) (v : Conf) : (setConf s h config v).caps = s.caps := by
  unfold setConf; split <;> simp

@[simp] theorem dropWindow_caps (s : State) (c k : Nat) : (dropWindow s c k).caps = s.caps := by
  grind [dropWindow, setConf_caps]

@[simp] theorem reportProgress_caps (s : State) (c k : Nat) (moved : Bool) : (reportProgress s c k moved).caps = s.caps := by
  grind [reportProgress, onSlot_caps, post_caps]

@[simp] theorem liftBeacon_mesh (s : State) (c k : Nat) : (liftBeacon s c k).mesh = s.mesh := by
  grind [liftBeacon, onSlot_mesh, post_mesh]

@[simp] theorem progress_mesh (s : State) (c k : Nat) (flows : Bool) : (progress s c k flows).mesh = s.mesh := by
  unfold progress; split <;> simp

@[simp] theorem selectSlot_caps (s : State) (c : Nat) : (selectSlot s c).caps = s.caps := by
  grind [selectSlot, bump_caps, onSlot_caps, setCore_caps]

@[simp] theorem settleStop_caps (s : State) (c k : Nat) : (settleStop s c k).caps = s.caps := by
  grind [settleStop, dropWindow_caps, onSlot_caps]

@[simp] theorem settleBlock_caps (s : State) (c k : Nat) : (settleBlock s c k).caps = s.caps := by
  unfold settleBlock; split <;> simp

@[simp] theorem settleBeacon_caps (s : State) (c k : Nat) : (settleBeacon s c k).caps = s.caps := by
  grind [settleBeacon, onSlot_caps, post_caps]

@[simp] theorem settleCore_caps (s : State) (c : Nat) : (settleCore s c).caps = s.caps := by
  simp [settleCore, each_keeps State.caps]

@[simp] theorem completeStep_mesh (s : State) (c k step : Nat) : (completeStep s c k step).mesh = s.mesh := by
  simp [completeStep]

@[simp] theorem orphanTo_caps (s : State) (fromCore core slot gen step kind detail : Nat) : (orphanTo s fromCore core slot gen
    step kind detail).caps = s.caps := by rfl

theorem takeReady_mesh (s : State) (c k h : Nat) {y0 : Nat} {t : State} (h : takeReady s c k h = some (y0, t)) : t.mesh = s.mesh
    := by
  grind [takeReady, onSlot_mesh]

@[simp] theorem outsideWrite_caps (s : State) (c off : Nat) (l : List Byte) (mask : List Bool) : (outsideWrite s c off l
    mask).caps = s.caps := by
  unfold outsideWrite; split <;> simp

@[simp] theorem forwardStep_mesh (s : State) (c k step : Nat) : (forwardStep s c k step).mesh = s.mesh := by
  grind [forwardStep, completeStep_mesh, onSlot_mesh, settleCore_mesh]

@[simp] theorem setPairSrc_switching (s : State) (src dst : Nat) (v : PairSrc) : switching (setPairSrc s src dst v) = switching
    s := by rfl

@[simp] theorem setWire_switching (s : State) (router port : Nat) (l : List Packet) : switching (setWire s router port l) =
    switching s := by rfl

@[simp] theorem arriveAt_switching (s : State) (router port : Nat) (p : Packet) : switching (arriveAt s router port p) =
    switching s := by rfl

@[simp] theorem admitEach_switching (router port : Nat) (x0 : List Nat) (x1 : List Packet) (s : State) : switching (admitEach
    router port x0 x1 s).1 = switching s := by
  fun_induction admitEach <;> grind [arriveAt_switching, switching]

@[simp] theorem enterPort_switching (s : State) (router port : Nat) : switching (enterPort s router port) = switching s := by
  grind [enterPort, admitEach_switching, switching]

@[simp] theorem waitAtPort_switching (s : State) (router port : Nat) (p : Packet) : switching (waitAtPort s router port p) =
    switching s := by
  grind [waitAtPort, enterPort_switching, switching]

@[simp] theorem launch_switching (s : State) (p : Packet) : switching (launch s p) = switching s := by
  grind [launch, waitAtPort_switching, switching]

theorem inject_switching (s : State) (p : Packet) (flagged g1 : Bool) {t : State} (h : inject s p flagged g1 = some t) :
    switching t = switching s := by
  grind [inject, launch_switching, setPairSrc_switching, bump_mesh, switching]

@[simp] theorem startWalk_mesh (s : State) (unit : Unit) (a : Nat) (write : Bool) : (startWalk s unit a write).mesh = s.mesh :=
    by
  unfold startWalk; split <;> simp

@[simp] theorem lookedUp_mesh (s : State) (unit : Unit) (missed : Bool) : (lookedUp s unit missed).mesh = s.mesh := by
  grind [lookedUp, bump_mesh]

@[simp] theorem snoopLine_mesh (s : State) (line : Nat) (data : Bool) (why : Nat) (unit : Option Unit) : (snoopLine s line data
    why unit).mesh = s.mesh := by
  unfold snoopLine; split <;> simp

@[simp] theorem snoopAll_mesh (s : State) (lines : List Nat) (data : Bool) (why : Nat) (unit : Option Unit) : (snoopAll s lines
    data why unit).mesh = s.mesh := by
  simp [snoopAll, each_keeps State.mesh]

@[simp] theorem queueRow_mesh (s : State) (port : Nat) (r : Row) : (queueRow s port r).mesh = s.mesh := by rfl

@[simp] theorem queueTo_mesh (s : State) (port member hops : Nat) (r : Row) : (queueTo s port member hops r).mesh = s.mesh := by
  unfold queueTo; split <;> simp

@[simp] theorem sendBy_mesh (s : State) (handle e : Nat) (r : Row) : (sendBy s handle e r).mesh = s.mesh := by
  grind [sendBy, queueTo_mesh]

@[simp] theorem sendRow_mesh (s : State) (handle : Nat) (r : Row) : (sendRow s handle r).mesh = s.mesh := by
  simp [sendRow]

@[simp] theorem addRequest_mesh (s : State) (kind : Nat) (unit : Unit) (tag slot step : Nat) : (addRequest s kind unit tag slot
    step).2.mesh = s.mesh := by rfl

@[simp] theorem dropMessage_caps (s : State) (router : Nat) (m : Msg) (tag epoch endEpoch reason : Nat) : (dropMessage s router
    m tag epoch endEpoch reason).caps = s.caps := by rfl

@[simp] theorem dropMessage_mesh (s : State) (router : Nat) (m : Msg) (tag epoch endEpoch reason : Nat) : (dropMessage s router
    m tag epoch endEpoch reason).mesh = s.mesh := by rfl

@[simp] theorem returnCredits_mesh (s : State) (c k n : Nat) : (returnCredits s c k n).mesh = s.mesh := by
  grind [returnCredits, post_mesh, setLane_mesh]

theorem dequeue_mesh (s : State) (c k n : Nat) {y0 : Token} {t : State} (h : dequeue s c k n = some (y0, t)) : t.mesh = s.mesh
    := by
  obtain ⟨y, _, hy⟩ := Option.map_eq_some_iff.mp h
  dsimp only at hy
  obtain ⟨-, rfl⟩ := Prod.mk.inj hy
  split <;> simp

@[simp] theorem freshTag_switching (s : State) (unit : Unit) : switching (freshTag s unit).2 = switching s := by
  unfold freshTag; split <;> simp [switching]

@[simp] theorem remoteRead_switching (s : State) (i : Issuer) (g : Seg) (a : Nat) : switching (remoteRead s i g a).1 = switching
    s := by
  grind [remoteRead, freshTag_switching, addRequest_mesh, sendRow_mesh, switching]

@[simp] theorem remoteWrite_switching (s : State) (i : Issuer) (g : Seg) (a : Nat) : switching (remoteWrite s i g a).1 =
    switching s := by
  grind [remoteWrite, freshTag_switching, sendRow_mesh, switching]

@[simp] theorem readAt_switching (s : State) (i : Issuer) (g : Seg) (ga a : Nat) (shared : Bool) : switching (readAt s i g ga a
    shared).1 = switching s := by
  grind [readAt, freshTag_switching, inject_switching, switching]

@[simp] theorem writeAt_switching (s : State) (i : Issuer) (g : Seg) (ga a : Nat) : switching (writeAt s i g ga a).1 = switching
    s := by
  grind [writeAt, freshTag_switching, inject_switching, physWrite_mesh, switching]

@[simp] theorem segRead_switching (s : State) (i : Issuer) (g : Seg) : switching (segRead s i g).1 = switching s := by
  grind [segRead, readAt_switching, remoteRead_switching, lookedUp_mesh, snoopAll_mesh, startWalk_mesh, switching]

@[simp] theorem segWrite_switching (s : State) (i : Issuer) (g : Seg) : switching (segWrite s i g).1 = switching s := by
  grind [segWrite, remoteWrite_switching, writeAt_switching, lookedUp_mesh, snoopAll_mesh, startWalk_mesh, switching]

@[simp] theorem segStep_switching (s : State) (i : Issuer) (g : Seg) : switching (segStep s i g).1 = switching s := by
  grind [segStep, segRead_switching, segWrite_switching, switching]

@[simp] theorem segsStep_switching (s : State) (i : Issuer) (x0 : List Seg) : switching (segsStep s i x0).1 = switching s := by
  fun_induction segsStep <;> grind [segStep_switching, switching]

@[simp] theorem findSide_mesh (s : State) (i : Issuer) (l : Loc) (n : Nat) (write : Bool) : (findSide s i l n write).1.mesh =
    s.mesh := by
  fun_cases findSide <;> grind [escalate_mesh, lookedUp_mesh, snoopAll_mesh, startWalk_mesh]

@[simp] theorem findSides_mesh (s : State) (i : Issuer) (x0 : List Seg) : (findSides s i x0).1.mesh = s.mesh := by
  fun_induction findSides <;> grind [findSide_mesh]

@[simp] theorem mcopyRecord_mesh (s : State) (i : Issuer) (j : CopyJob) (n : Nat) : (mcopyRecord s i j n).1.mesh = s.mesh := by
  grind [mcopyRecord, findSides_mesh, physWrite_mesh, each_or State.mesh]

@[simp] theorem fillSegs_mesh (s : State) (i : Issuer) (x0 : List Seg) : (fillSegs s i x0).1.mesh = s.mesh := by
  fun_induction fillSegs <;> grind [findSide_mesh, physWrite_mesh]

@[simp] theorem localSegs_mesh (s : State) (i : Issuer) (j : CopyJob) : (localSegs s i j).1.mesh = s.mesh := by
  unfold localSegs
  split
  · have hrec (n : Nat) (p : State × CopyJob × Option Stop) : State.mesh (if p.2.2.isSome || p.2.1.made ≤ n then p
      else
        let r := mcopyRecord p.1 i p.2.1 n
        match r.2.2 with
        | some x =>
          let z := stopAt r.2.1 n x
          (r.1, z.1, z.2)
        | none => r).1 = State.mesh p.1 := by
      split
      · rfl
      · dsimp only
        split <;> exact mcopyRecord_mesh ..
    exact each_leaves (fun p => (State.mesh p.1)) hrec _ (s, j, none)
  · split
    · dsimp only
      split <;> exact fillSegs_mesh ..
    · rfl

@[simp] theorem copySegs_switching (s : State) (i : Issuer) (x0 : List Seg) : switching (copySegs s i x0).1 = switching s := by
  fun_induction copySegs <;> grind [segStep_switching, switching]

@[simp] theorem writeDone_mesh (s : State) (j : CopyJob) : (writeDone s j).mesh = s.mesh := by rfl

@[simp] theorem retire_mesh (s : State) (j : CopyJob) : (retire s j).1.mesh = s.mesh := by
  unfold retire
  extract_lets n j' t u
  split
  · rfl
  · have hu : State.mesh u = State.mesh t := each_keeps State.mesh (fun a t => by simp only [elim_keeps State.mesh (fun a => bump_mesh _ _ _ _)]; split <;> simp) _ _
    simp [hu, t]

@[simp] theorem restartJob_mesh (s : State) (j : CopyJob) : (restartJob s j).1.mesh = s.mesh := by rfl

@[simp] theorem copyPass_switching (s : State) (i : Issuer) (j : CopyJob) : switching (copyPass s i j).1 = switching s := by
  grind [copyPass, copySegs_switching, localSegs_mesh, retire_mesh, switching]

@[simp] theorem copyRun_switching (i : Issuer) (x0 : Nat) (s : State) (x2 : CopyJob) : switching (copyRun i x0 s x2).1 =
    switching s := by
  fun_induction copyRun <;> grind [copyPass_switching, switching]

@[simp] theorem setJobs_mesh (s : State) (unit : Unit) (l : List CopyJob) : (setJobs s unit l).mesh = s.mesh := by
  unfold setJobs; split <;> simp

@[simp] theorem resolveStop_mesh (s : State) (unit : Unit) (x : Stop) : (resolveStop s unit x).1.mesh = s.mesh := by
  fun_cases resolveStop <;> grind [bump_mesh]

@[simp] theorem unitFault_mesh (s : State) (c k step cause addr cls : Nat) : (unitFault s c k step cause addr cls).mesh = s.mesh
    := by
  simp [unitFault]

@[simp] theorem stopCopy_mesh (s : State) (unit : Unit) (j : CopyJob) (x : Stop) : (stopCopy s unit j x).mesh = s.mesh := by
  grind [stopCopy, consumePoison_mesh, noteFault_mesh, rejectStep_mesh, reportProgress_mesh, resolveStop_mesh, setJobs_mesh,
    settleCore_mesh, unitFault_mesh]

@[simp] theorem finishCopy_mesh (s : State) (unit : Unit) (j : CopyJob) : (finishCopy s unit j).mesh = s.mesh := by
  unfold finishCopy; split <;> simp

@[simp] theorem pumpJob_switching (s : State) (unit : Unit) (j : CopyJob) : switching (pumpJob s unit j) = switching s := by
  grind [pumpJob, copyRun_switching, finishCopy_mesh, setJobs_mesh, stopCopy_mesh, switching]

@[simp] theorem restartJobs_mesh (s : State) (unit : Unit) (p : CopyJob → Bool) : (restartJobs s unit p).mesh = s.mesh := by
  simp [restartJobs, each_keeps State.mesh]

@[simp] theorem pumpCopies_switching (s : State) (unit : Unit) : switching (pumpCopies s unit) = switching s := by
  grind [pumpCopies, pumpJob_switching, each_or switching, switching]

@[simp] theorem setStrm_mesh (s : State) (c k n : Nat) (t : Stream) : (setStrm s c k n t).mesh = s.mesh := by rfl

@[simp] theorem stageChunk_mesh (s : State) (c : Nat) (d : BitVec 1024) (ch : Chunk) (head data : Tainted) : (stageChunk s c d
    ch head data).1.mesh = s.mesh := by
  grind [stageChunk]

@[simp] theorem addDrawn_mesh (s : State) (c k n : Nat) (more : Tainted) : (addDrawn s c k n more).mesh = s.mesh := by rfl

@[simp] theorem drawTokens_mesh (c k n pos : Nat) (x0 : Nat) (s : State) : (drawTokens c k n pos x0 s).mesh = s.mesh := by
  fun_induction drawTokens <;> grind [addDrawn_mesh, dequeue_mesh]

@[simp] theorem drawBuffer_mesh (s : State) (c k n i : Nat) : (drawBuffer s c k n i).mesh = s.mesh := by rfl

@[simp] theorem drawHandles_mesh (c k n pos : Nat) (x0 : Nat) (s : State) : (drawHandles c k n pos x0 s).mesh = s.mesh := by
  fun_induction drawHandles <;> grind [drawBuffer_mesh, setStrm_mesh, takeReady_mesh]

@[simp] theorem drawFor_mesh (s : State) (c k n pos : Nat) : (drawFor s c k n pos).mesh = s.mesh := by
  grind [drawFor, drawHandles_mesh, drawTokens_mesh]

@[simp] theorem stepChunks_switching (s : State) (i : Issuer) (v : Slot) (t : Stream) (x0 : List Chunk) : switching (stepChunks
    s i v t x0).1 = switching s := by
  fun_induction stepChunks <;> grind [segsStep_switching, switching]

@[simp] theorem runChunks_switching (i : Issuer) (v : Slot) (t : Stream) (x0 : Nat) (s : State) (x2 : List Chunk) : switching
    (runChunks i v t x0 s x2).1 = switching s := by
  fun_induction runChunks <;> grind [stepChunks_switching, switching]

@[simp] theorem writeElems_caps (s : State) (c k n : Nat) : (writeElems s c k n).caps = s.caps := by rfl

@[simp] theorem writeElems_mesh (s : State) (c k n : Nat) : (writeElems s c k n).mesh = s.mesh := by rfl

@[simp] theorem stopStream_mesh (s : State) (c k n : Nat) (x : Stop) : (stopStream s c k n x).mesh = s.mesh := by
  grind [stopStream, consumePoison_mesh, rejectStep_mesh, reportProgress_mesh, resolveStop_mesh, setStrm_mesh, settleCore_mesh,
    unitFault_mesh, writeElems_mesh]

@[simp] theorem setChunk_mesh (s : State) (c k n : Nat) (ch : Chunk) : (setChunk s c k n ch).mesh = s.mesh := by rfl

@[simp] theorem settleChunks_mesh (c k n : Nat) (x0 : Nat) (s : State) : (settleChunks c k n x0 s).mesh = s.mesh := by
  fun_induction settleChunks
  case case5 ih =>
    rw [ih]
    split <;> grind [setChunk_mesh, drawFor_mesh, stageChunk_mesh, bump_mesh, setStrm_mesh]
  all_goals grind [setChunk_mesh, drawFor_mesh, stageChunk_mesh, bump_mesh, setStrm_mesh]

@[simp] theorem fetchStream_switching (s : State) (c k n w : Nat) : switching (fetchStream s c k n w) = switching s := by
  grind [fetchStream, runChunks_switching, bump_mesh, setStrm_mesh, settleChunks_mesh, stopStream_mesh, switching]

@[simp] theorem prefetch_switching (s : State) (c k n : Nat) : switching (prefetch s c k n) = switching s := by
  grind [prefetch, fetchStream_switching, switching]

@[simp] theorem beginOut_mesh (c k n : Nat) (x0 : Nat) (s : State) : (beginOut c k n x0 s).mesh = s.mesh := by
  fun_induction beginOut <;> grind [setStrm_mesh, stageChunk_mesh]

@[simp] theorem stepOut_switching (c k n : Nat) (x0 : List Chunk) (x1 : Bool) (s : State) : switching (stepOut c k n x0 x1 s).1
    = switching s := by
  fun_induction stepOut <;> grind [segsStep_switching, setChunk_mesh, setStrm_mesh, switching]

@[simp] theorem retireOut_mesh (c k n : Nat) (x0 : Nat) (s : State) : (retireOut c k n x0 s).mesh = s.mesh := by
  fun_induction retireOut <;> grind [bump_mesh, progress_mesh, setStrm_mesh, writeElems_mesh]

@[simp] theorem runOut_switching (c k n : Nat) (x0 : Nat) (s : State) : switching (runOut c k n x0 s).1 = switching s := by
  fun_induction runOut <;> grind [stepOut_switching, beginOut_mesh, retireOut_mesh, switching]

@[simp] theorem pumpOut_switching (s : State) (c k n : Nat) : switching (pumpOut s c k n).1 = switching s := by
  grind [pumpOut, runOut_switching, stopStream_mesh, switching]

@[simp] theorem setMerge_mesh (s : State) (h : Nat) (j : MergeJob) : (setMerge s h j).mesh = s.mesh := by rfl

@[simp] theorem dropMerge_mesh (s : State) (h : Nat) (j : MergeJob) : (dropMerge s h j).mesh = s.mesh := by rfl

@[simp] theorem stopMerge_mesh (s : State) (h : Nat) (j : MergeJob) (cause : Nat) : (stopMerge s h j cause).mesh = s.mesh := by
  unfold stopMerge; split <;> simp

@[simp] theorem mgCommit_mesh (s : State) (h : Nat) (j : MergeJob) : (mgCommit s h j).1.mesh = s.mesh := by
  simp [mgCommit, each_keeps State.mesh]

@[simp] theorem mergePass_switching (s : State) (h : Nat) (j : MergeJob) : switching (mergePass s h j).1 = switching s := by
  grind [mergePass, segsStep_switching, mgCommit_mesh, each_or switching, switching]

@[simp] theorem runMerge_switching (h : Nat) (x0 : Nat) (s : State) : switching (runMerge h x0 s) = switching s := by
  fun_induction runMerge <;> grind [mergePass_switching, bump_mesh, completeStep_mesh, dropMerge_mesh, forwardStep_mesh,
    reportProgress_mesh, resolveStop_mesh, setMerge_mesh, settleCore_mesh, stopMerge_mesh, unitFault_mesh, switching]

@[simp] theorem pumpMerge_switching (s : State) (h : Nat) : switching (pumpMerge s h) = switching s := by
  grind [pumpMerge, runMerge_switching, switching]

@[simp] theorem pumpUnit_switching (s : State) (unit : Unit) : switching (pumpUnit s unit) = switching s := by
  fun_cases pumpUnit <;> grind [prefetch_switching, pumpCopies_switching, pumpMerge_switching, pumpOut_switching, switching]

@[simp] theorem cancelWaits_caps (s : State) (c k : Nat) : (cancelWaits s c k).caps = s.caps := by
  simp [cancelWaits, each_keeps State.caps]

@[simp] theorem cancelWaits_mesh (s : State) (c k : Nat) : (cancelWaits s c k).mesh = s.mesh := by
  simp [cancelWaits, each_keeps State.mesh]

@[simp] theorem setGroup_caps (s : State) (h i : Nat) (g : Group) : (setGroup s h i g).caps = s.caps := by
  unfold setGroup; split <;> simp

@[simp] theorem setGroup_mesh (s : State) (h i : Nat) (g : Group) : (setGroup s h i g).mesh = s.mesh := by
  unfold setGroup; split <;> simp

@[simp] theorem intoImage_caps (s : State) (g : Group) (c : Nat) (l : List (Nat × List Byte)) : (intoImage s g c l).caps =
    s.caps := by
  grind [intoImage, each_or State.caps]

@[simp] theorem intoImage_mesh (s : State) (g : Group) (c : Nat) (l : List (Nat × List Byte)) : (intoImage s g c l).mesh =
    s.mesh := by
  grind [intoImage, each_or State.mesh]

@[simp] theorem intoCore_caps (s : State) (c : Nat) (l : List (Nat × List Byte)) : (intoCore s c l).caps = s.caps := by
  simp [intoCore, each_keeps State.caps]

@[simp] theorem intoCore_mesh (s : State) (c : Nat) (l : List (Nat × List Byte)) : (intoCore s c l).mesh = s.mesh := by
  simp [intoCore, each_keeps State.mesh]

@[simp] theorem ringWritten_caps (s : State) (c : Nat) : (ringWritten s c).caps = s.caps := by
  grind [ringWritten, settleCore_caps]

@[simp] theorem ringWritten_mesh (s : State) (c : Nat) : (ringWritten s c).mesh = s.mesh := by
  grind [ringWritten, settleCore_mesh]

@[simp] theorem placeMessage_caps (s : State) (m : Msg) (v : Slot) (tag epoch : Nat) (words : List Reg) (poison : Bool)
    (endEpoch : Nat) : (placeMessage s m v tag epoch words poison endEpoch).caps = s.caps := by
  unfold placeMessage; split <;> simp

@[simp] theorem placeMessage_mesh (s : State) (m : Msg) (v : Slot) (tag epoch : Nat) (words : List Reg) (poison : Bool)
    (endEpoch : Nat) : (placeMessage s m v tag epoch words poison endEpoch).mesh = s.mesh := by
  unfold placeMessage; split <;> simp

@[simp] theorem placeInImage_caps (s : State) (m : Msg) (g : Group) (v : Slot) (tag epoch : Nat) (words : List Reg) (poison :
    Bool) : (placeInImage s m g v tag epoch words poison).caps = s.caps := by
  unfold placeInImage; split <;> simp

@[simp] theorem placeInImage_mesh (s : State) (m : Msg) (g : Group) (v : Slot) (tag epoch : Nat) (words : List Reg) (poison :
    Bool) : (placeInImage s m g v tag epoch words poison).mesh = s.mesh := by
  unfold placeInImage; split <;> simp

theorem parkAny_caps (s : State) (m : Msg) {t : State} (h : parkAny s m = some t) : t.caps = s.caps := by
  grind [parkAny, bump_caps, setReg_caps]

theorem parkAny_mesh (s : State) (m : Msg) {t : State} (h : parkAny s m = some t) : t.mesh = s.mesh := by
  grind [parkAny, bump_mesh, setReg_mesh]

@[simp] theorem parkMessage_caps (s : State) (m : Msg) (tag epoch : Nat) : (parkMessage s m tag epoch).caps = s.caps :=
  getD_keeps State.caps (fun _ h => parkAny_caps s m h) (by simp)

@[simp] theorem parkMessage_mesh (s : State) (m : Msg) (tag epoch : Nat) : (parkMessage s m tag epoch).mesh = s.mesh :=
  getD_keeps State.mesh (fun _ h => parkAny_mesh s m h) (by simp)

@[simp] theorem deliverUser_caps (s : State) (m : Msg) (tag epoch : Nat) (words : List Reg) (poison : Bool) : (deliverUser s m
    tag epoch words poison).caps = s.caps := by
  grind [deliverUser, dropMessage_caps, parkMessage_caps, placeInImage_caps, placeMessage_caps]

@[simp] theorem deliverUser_mesh (s : State) (m : Msg) (tag epoch : Nat) (words : List Reg) (poison : Bool) : (deliverUser s m
    tag epoch words poison).mesh = s.mesh := by
  grind [deliverUser, dropMessage_mesh, parkMessage_mesh, placeInImage_mesh, placeMessage_mesh]

@[simp] theorem recordInImage_caps (s : State) (h i : Nat) (g : Group) (c k : Nat) (record : Bool → Nat) : (recordInImage s h i
    g c k record).1.caps = s.caps := by
  fun_cases recordInImage <;> grind [bump_caps, intoImage_caps, setGroup_caps]

@[simp] theorem recordInImage_mesh (s : State) (h i : Nat) (g : Group) (c k : Nat) (record : Bool → Nat) : (recordInImage s h i
    g c k record).1.mesh = s.mesh := by
  fun_cases recordInImage <;> grind [bump_mesh, intoImage_mesh, setGroup_mesh]

@[simp] theorem parkNotice_caps (s : State) (m : Msg) : (parkNotice s m).caps = s.caps :=
  getD_keeps State.caps (fun _ h => parkAny_caps s m h) (by simp)

@[simp] theorem parkNotice_mesh (s : State) (m : Msg) : (parkNotice s m).mesh = s.mesh :=
  getD_keeps State.mesh (fun _ h => parkAny_mesh s m h) (by simp)

@[simp] theorem deliverNotice_caps (s : State) (m : Msg) (gen kind : Nat) (detail : Reg) : (deliverNotice s m gen kind
    detail).caps = s.caps := by
  unfold deliverNotice
  extract_lets c k v record
  clear_value record
  split
  · split
    · simp
    · split
      · simp
      · split <;> simp
  · split
    · split
      · simp
      · split
        · extract_lets w
          split <;> simp
        · extract_lets r
          split <;> simp [r]
    · simp

@[simp] theorem deliverNotice_mesh (s : State) (m : Msg) (gen kind : Nat) (detail : Reg) : (deliverNotice s m gen kind
    detail).mesh = s.mesh := by
  unfold deliverNotice
  extract_lets c k v record
  clear_value record
  split
  · split
    · simp
    · split
      · simp
      · split <;> simp
  · split
    · split
      · simp
      · split
        · extract_lets w
          split <;> simp
        · extract_lets r
          split <;> simp [r]
    · simp

@[simp] theorem onHalts_mesh (s : State) (unit : Unit) (f : Halt → Option Halt) : (onHalts s unit f).mesh = s.mesh := by
  unfold onHalts; split <;> simp

@[simp] theorem restartUnit_mesh (s : State) (unit : Unit) (p : Option Halt → Bool) : (restartUnit s unit p).mesh = s.mesh := by
  unfold restartUnit; split <;> simp

@[simp] theorem resumeUnit_switching (s : State) (unit : Unit) (p : Halt → Bool) : switching (resumeUnit s unit p) = switching s
    := by
  grind [resumeUnit, pumpUnit_switching, onHalts_mesh, restartUnit_mesh, switching]

@[simp] theorem imagePut_caps (s : State) (g : Group) (c off : Nat) (l : List Byte) : (imagePut s g c off l).caps = s.caps := by
  grind [imagePut, each_or State.caps]

@[simp] theorem imagePut_mesh (s : State) (g : Group) (c off : Nat) (l : List Byte) : (imagePut s g c off l).mesh = s.mesh := by
  grind [imagePut, each_or State.mesh]

@[simp] theorem putHead_caps (s : State) (g : Group) (c h : Nat) : (putHead s g c h).caps = s.caps := by
  simp [putHead]

@[simp] theorem putHead_mesh (s : State) (g : Group) (c h : Nat) : (putHead s g c h).mesh = s.mesh := by
  simp [putHead]

@[simp] theorem headState_caps (s : State) (g : Group) (c st n : Nat) : (headState s g c st n).caps = s.caps := by
  grind [headState, putHead_caps]

@[simp] theorem headState_mesh (s : State) (g : Group) (c st n : Nat) : (headState s g c st n).mesh = s.mesh := by
  grind [headState, putHead_mesh]

@[simp] theorem quietCores_caps (s : State) (cores : List Nat) : (quietCores s cores).caps = s.caps := by
  grind [quietCores, cancelWaits_caps, onSlot_caps, writeElems_caps, each_or State.caps]

@[simp] theorem quietCores_mesh (s : State) (cores : List Nat) : (quietCores s cores).mesh = s.mesh := by
  grind [quietCores, cancelWaits_mesh, onSlot_mesh, writeElems_mesh, each_or State.mesh]

@[simp] theorem failImages_caps (s : State) (h : Nat) (g : Group) (cores : List Nat) : (failImages s h g cores).caps = s.caps :=
    by
  simp [failImages, each_keeps State.caps]

@[simp] theorem failImages_mesh (s : State) (h : Nat) (g : Group) (cores : List Nat) : (failImages s h g cores).mesh = s.mesh :=
    by
  simp [failImages, each_keeps State.mesh]

@[simp] theorem parkEnds_caps (s : State) (g : Group) (on : Bool) : (parkEnds s g on).caps = s.caps := by
  grind [parkEnds, setCore_caps, each_or State.caps]

@[simp] theorem parkEnds_mesh (s : State) (g : Group) (on : Bool) : (parkEnds s g on).mesh = s.mesh := by
  grind [parkEnds, setCore_mesh, each_or State.mesh]

@[simp] theorem unpark_caps (s : State) (cores : List Nat) : (unpark s cores).caps = s.caps := by
  grind [unpark, deliverNotice_caps, deliverUser_caps, setReg_caps, each_or State.caps]

@[simp] theorem unpark_mesh (s : State) (cores : List Nat) : (unpark s cores).mesh = s.mesh := by
  grind [unpark, deliverNotice_mesh, deliverUser_mesh, setReg_mesh, each_or State.mesh]

@[simp] theorem dropRestore_caps (s : State) (h i : Nat) : (dropRestore s h i).caps = s.caps := by
  grind [dropRestore, headState_caps, setGroup_caps, unpark_caps, each_or State.caps]

@[simp] theorem dropRestore_mesh (s : State) (h i : Nat) : (dropRestore s h i).mesh = s.mesh := by
  grind [dropRestore, headState_mesh, setGroup_mesh, unpark_mesh, each_or State.mesh]

@[simp] theorem unsave_caps (s : State) (g : Group) : (unsave s g).caps = s.caps := by
  grind [unsave, parkEnds_caps, setCore_caps, each_or State.caps]

@[simp] theorem unsave_mesh (s : State) (g : Group) : (unsave s g).mesh = s.mesh := by
  grind [unsave, parkEnds_mesh, setCore_mesh, each_or State.mesh]

@[simp] theorem affectCores_caps (s : State) (cores : List Nat) : (affectCores s cores).caps = s.caps := by
  grind [affectCores, dropRestore_caps, failImages_caps, quietCores_caps, setGroup_caps, unpark_caps, unsave_caps, each_or
    State.caps]

@[simp] theorem affectCores_mesh (s : State) (cores : List Nat) : (affectCores s cores).mesh = s.mesh := by
  grind [affectCores, dropRestore_mesh, failImages_mesh, quietCores_mesh, setGroup_mesh, unpark_mesh, unsave_mesh, each_or
    State.mesh]

end Sys2Proof.Machine
end

section
/-! ## Rebuilds of the route tables, the switch order and retirement: R455 to R463 -/

namespace Sys2Proof.Machine
open Sys2Proof.Claims

section
variable {s t u : State} {writes : RouteWrites} {done : Bool} {ep : Nat}

/-- The route tables of a copy, of both networks. -/
def tablesOf (s : State) (tbl : Bool) : Tab Nat × Tab Nat :=
  (if tbl then s.mesh.copy1 else s.mesh.copy0, if tbl then s.mesh.narrow1 else s.mesh.narrow0)

theorem epServes_congr (hcaps : t.caps = s.caps) (hfuses : t.fuses = s.fuses) (e : Nat) : epServes t e = epServes s e := by
  cases s
  cases t
  cases hcaps
  cases hfuses
  rfl

theorem routeOf_congr {tbl : Bool} (htables : tablesOf t tbl = tablesOf s tbl) (hdetour : t.mesh.detour = s.mesh.detour)
    (hcaps : t.caps = s.caps) (hfuses : t.fuses = s.fuses) (router dest : Nat) : routeOf t router dest tbl = routeOf s router dest tbl := by
  rw [routeOf, routeOf, overrideHit, overrideHit, hdetour, tableRoute, tableRoute, epServes_congr hcaps hfuses,
    show (if tbl then t.mesh.copy1 else t.mesh.copy0) = if tbl then s.mesh.copy1 else s.mesh.copy0 from congrArg Prod.fst htables]

theorem narrowTable_congr {tbl : Bool} (htables : tablesOf t tbl = tablesOf s tbl) (router dest : Nat) :
    narrowTable t tbl router dest = narrowTable s tbl router dest := by
  rw [narrowTable, narrowTable,
    show (if tbl then t.mesh.narrow1 else t.mesh.narrow0) = if tbl then s.mesh.narrow1 else s.mesh.narrow0 from congrArg Prod.snd htables]

/-! ## What a rebuild writes -/

/-- What a rebuild leaves: the copies in force, the active copy, the packets and the overrides. -/
structure InForce (s t : State) : Prop where
  active : t.mesh.active = s.mesh.active
  tables : tablesOf t s.mesh.active = tablesOf s s.mesh.active
  wires : t.mesh.wires = s.mesh.wires
  detour : t.mesh.detour = s.mesh.detour
  rest : t = { s with mesh := t.mesh }

theorem clearShadow_inForce (s : State) : InForce s (clearShadow s) := by
  unfold clearShadow
  dsimp only
  by_cases h : s.mesh.active = true
  · rw [if_pos h]
    exact ⟨rfl, by simp [tablesOf, h], rfl, rfl, rfl⟩
  · rw [if_neg h]
    exact ⟨rfl, by simp [tablesOf, h], rfl, rfl, rfl⟩

theorem writeShadow_inForce (s : State) (writes narrow : List (Nat × Nat × Nat)) : InForce s (writeShadow s writes narrow) := by
  unfold writeShadow
  dsimp only
  by_cases h : s.mesh.active = true
  · rw [if_pos h]
    exact ⟨rfl, by simp [tablesOf, h], rfl, rfl, rfl⟩
  · rw [if_neg h]
    exact ⟨rfl, by simp [tablesOf, h], rfl, rfl, rfl⟩

theorem InForce.trans (h : InForce s t) (h' : InForce t u) : InForce s u where
  active := h'.active.trans h.active
  tables := by rw [← h.active, h'.tables, h.active, h.tables]
  wires := h'.wires.trans h.wires
  detour := h'.detour.trans h.detour
  rest := by rw [h'.rest, h.rest]

/-- The state once a rebuild has written the copies that are not in force. -/
def rewritten (s : State) (writes : RouteWrites) : State :=
  let u := if s.mesh.restart || s.mesh.rebuild = 0 then clearShadow s else s
  writeShadow { u with mesh := { u.mesh with rebuild := 1, restart := false } } writes.mesh writes.narrow

theorem rewritten_inForce (s : State) (writes : RouteWrites) : InForce s (rewritten s writes) := by
  unfold rewritten
  dsimp only
  have hbegun (u : State) : InForce u { u with mesh := { u.mesh with rebuild := 1, restart := false } } := ⟨rfl, rfl, rfl, rfl, rfl⟩
  split
  · exact ((clearShadow_inForce s).trans (hbegun _)).trans (writeShadow_inForce ..)
  · exact (hbegun s).trans (writeShadow_inForce ..)

theorem narrowKept_of_inForce (h : InForce s t) : (∀ router dest, routeOf t router dest s.mesh.active = routeOf s router dest s.mesh.active) ∧
    (∀ router dest, narrowTable t s.mesh.active router dest = narrowTable s s.mesh.active router dest) := by
  have hrest := h.rest
  exact ⟨routeOf_congr h.tables h.detour (hrest ▸ rfl : t.caps = s.caps) (hrest ▸ rfl : t.fuses = s.fuses),
    narrowTable_congr h.tables⟩

/-- The state in which the switch has begun, before what it cuts off is told. -/
def switchBegun (u : State) : State :=
  bump (bump { u with mesh := { u.mesh with
    rebuild := 2, switched := [], covered := u.mesh.detour.map (fun e => (e.1, e.2.length)) } } ctrModRebuilds 0 1) ctrModSwaps 0 1

/-- A rebuild writes the copies not in force; when it is done, and its routes obey the rule, the switch begins. -/
theorem rebuild_cases (h : s.mesh.rebuild < 2) : ∃ l, rebuildRoutes s writes.mesh writes.narrow done =
    if done && shadowGood (rewritten s writes) then affectCores (switchBegun (rewritten s writes)) l else rewritten s writes := by
  unfold rebuildRoutes
  rw [if_neg (Nat.not_le.mpr h)]
  exact ⟨_, rfl⟩

theorem routeRebuild_outcome (h : s.mesh.rebuild < 2) : ∃ t, exec (.routeRebuild writes done) s = .next t ∧
    (if done && shadowGood (rewritten s writes) then t.mesh.rebuild = 2 ∧ t.mesh.switched = [] ∧
      t.mesh.covered = s.mesh.detour.map (fun e => (e.1, e.2.length)) else t = rewritten s writes) ∧
    t.mesh.active = s.mesh.active ∧ (∀ router dest, routeOf t router dest s.mesh.active = routeOf s router dest s.mesh.active) ∧
    (∀ router dest, narrowTable t s.mesh.active router dest = narrowTable s s.mesh.active router dest) ∧
    t.mesh.wires = s.mesh.wires ∧ t.mesh.detour = s.mesh.detour ∧ t.nv = s.nv ∧ t.frames = s.frames ∧ t.engines = s.engines := by
  have hforce := rewritten_inForce s writes
  obtain ⟨hroutes, hnarrow⟩ := narrowKept_of_inForce hforce
  have hq : quiet (rewritten s writes) = quiet s := by
    rw [hforce.rest]
    rfl
  obtain ⟨l, hcases⟩ := rebuild_cases (writes := writes) (done := done) h
  by_cases hgood : (done && shadowGood (rewritten s writes)) = true
  · generalize hu : rewritten s writes = u at *
    have hexec : exec (.routeRebuild writes done) s = .next (affectCores (switchBegun u) l) :=
      congrArg Host.Outcome.next (hcases.trans (if_pos hgood))
    have hmesh : (affectCores (switchBegun u) l).mesh = (switchBegun u).mesh := affectCores_mesh ..
    have hcaps : (affectCores (switchBegun u) l).caps = u.caps := affectCores_caps ..
    have hfuses : (affectCores (switchBegun u) l).fuses = u.fuses := affectCores_fuses ..
    have hqall : quiet (affectCores (switchBegun u) l) = quiet s := (affectCores_quiet ..).trans hq
    have htables : tablesOf (affectCores (switchBegun u) l) s.mesh.active = tablesOf u s.mesh.active := by
      rw [tablesOf, hmesh]
      rfl
    have hdetour : (affectCores (switchBegun u) l).mesh.detour = u.mesh.detour :=
      (congrArg Mesh.detour hmesh).trans rfl
    refine ⟨_, hexec, ?_, (congrArg Mesh.active hmesh).trans hforce.active, fun router dest => ?_, fun router dest => ?_,
      (congrArg Mesh.wires hmesh).trans hforce.wires, hdetour.trans hforce.detour, nv_of_quiet hqall, frames_of_quiet hqall,
      engines_of_quiet hqall⟩
    · rw [if_pos hgood, hmesh]
      exact ⟨rfl, rfl, congrArg (·.map (fun e => (e.1, e.2.length))) hforce.detour⟩
    · exact (routeOf_congr htables hdetour hcaps hfuses router dest).trans (hroutes router dest)
    · exact (narrowTable_congr htables router dest).trans (hnarrow router dest)
  · refine ⟨_, congrArg Host.Outcome.next (hcases.trans (if_neg hgood)), ?_, hforce.active, hroutes, hnarrow, hforce.wires,
      hforce.detour, nv_of_quiet hq, frames_of_quiet hq, engines_of_quiet hq⟩
    rw [if_neg hgood]

/-! ## The switch order -/

theorem contains_addTo (l : List Nat) (k x : Nat) : (addTo l k).contains x = (decide (x = k) || l.contains x) := by
  induction l with
  | nil => simp [addTo]
  | cons a l ih =>
    unfold addTo
    split
    · simp
    · split
      · rename_i _ hk
        subst hk
        by_cases hx : x = a <;> simp [hx]
      · rw [List.contains_cons, ih, List.contains_cons, ← Bool.or_assoc, ← Bool.or_assoc, Bool.or_comm (x == a)]

theorem switchOrder_outcome (hrebuild : s.mesh.rebuild = 2) (hnew : s.mesh.switched.contains ep = false) (hserves : epServes s ep = true) :
    ∃ t, exec (.switchOrder ep) s = .next t ∧ stampOf t ep = !s.mesh.active ∧ (∀ e, e ≠ ep → stampOf t e = stampOf s e) ∧
      look t.mesh.swaps ep 0 = look s.mesh.swaps ep 0 + 1 ∧ t.mesh.wires = s.mesh.wires ∧ MeshOnly s t ∧ t.mesh.rebuild = 2 := by
  have hcond : (decide (s.mesh.rebuild ≠ 2) || s.mesh.switched.contains ep || !epServes s ep) = false := by
    rw [hrebuild, hnew, hserves]
    rfl
  have hact : takeSwitch s ep = { s with mesh := { s.mesh with
      switched := addTo s.mesh.switched ep, swaps := put s.mesh.swaps ep (look s.mesh.swaps ep 0 + 1) } } := by
    rw [takeSwitch, if_neg (by rw [hcond]; decide)]
  refine ⟨_, congrArg Host.Outcome.next hact, ?_, fun e he => ?_, look_put_same .., rfl, rfl, hrebuild⟩
  · rw [stampOf]
    dsimp only
    rw [contains_addTo, decide_eq_true rfl, Bool.true_or, if_pos rfl]
  · rw [stampOf, stampOf]
    dsimp only
    rw [contains_addTo, decide_eq_false he, Bool.false_or]

/-! ## Retirement -/

theorem retireRoutes_eq (hrebuild : s.mesh.rebuild = 2) (hall : allSwitched s = true) (hgone : copyGone s s.mesh.active = true) :
    retireRoutes s = retireNow s := by
  rw [retireRoutes, hrebuild, hall, hgone]
  rfl

theorem retireRoutes_waits (h : s.mesh.rebuild ≠ 2 ∨ allSwitched s = false ∨ copyGone s s.mesh.active = false) : retireRoutes s = s := by
  rw [retireRoutes, if_pos]
  rcases h with h | h | h
  · rw [decide_eq_true h]
    rfl
  · rw [h]
    simp
  · rw [h]
    simp

/-- Letting the fenced units go on leaves the copy in force as it is. -/
theorem resumeFenced_switching (s : State) : switching (resumeFenced s) = switching s := by
  unfold resumeFenced
  dsimp only
  rw [each_keeps switching fun h t => (resumeUnit_switching ..).trans (resumeUnit_switching ..)]
  exact each_keeps switching (fun c t => each_keeps switching (fun v w => resumeUnit_switching ..) _ _) _ _

theorem routeRetire_outcome (hrebuild : s.mesh.rebuild = 2) (hall : allSwitched s = true) (hgone : copyGone s s.mesh.active = true) :
    exec .routeRetire s = .next (resumeFenced (retireRoutes s)) ∧
    (∀ e, stampOf (retireRoutes s) e = !s.mesh.active) ∧
    (retireRoutes s).mesh.detour = (s.mesh.detour.map (fun (e : Nat × List Override) =>
      (e.1, e.2.take (e.2.length - look s.mesh.covered e.1 0)))).filter (fun e => !e.2.isEmpty) ∧ MeshOnly s (retireRoutes s) ∧
    ∃ t, exec .routeRetire s = .next t ∧ t.mesh.active = (!s.mesh.active) ∧ t.mesh.switched = [] ∧ t.mesh.rebuild = 0 ∧
      t.nv = s.nv ∧ t.frames = s.frames ∧ t.engines = s.engines := by
  have heq := retireRoutes_eq hrebuild hall hgone
  have hchanged : ¬ (retireNow s).mesh.rebuild = s.mesh.rebuild := by
    rw [hrebuild]
    exact (by decide : (0 : Nat) ≠ 2)
  have hexec : exec .routeRetire s = .next (resumeFenced (retireRoutes s)) := by
    refine congrArg Host.Outcome.next (if_neg ?_)
    rw [heq]
    exact hchanged
  have hswitching : switching (resumeFenced (retireRoutes s)) = (!s.mesh.active, [], 0) := by
    rw [resumeFenced_switching, heq]
    rfl
  have hq : quiet (resumeFenced (retireRoutes s)) = quiet s := (resumeFenced_quiet _).trans (by rw [heq]; rfl)
  refine ⟨hexec, fun e => ?_, ?_, ?_, _, hexec, congrArg Prod.fst hswitching, congrArg (fun p : Bool × List Nat × Nat => p.2.1) hswitching,
    congrArg (fun p : Bool × List Nat × Nat => p.2.2) hswitching, nv_of_quiet hq, frames_of_quiet hq, engines_of_quiet hq⟩
  · rw [heq]
    rfl
  · rw [heq]
    rfl
  · rw [heq]
    rfl

theorem routeRetire_waits (h : s.mesh.rebuild ≠ 2 ∨ allSwitched s = false ∨ copyGone s s.mesh.active = false) :
    exec .routeRetire s = .next s := by
  have hsame := retireRoutes_waits h
  refine congrArg Host.Outcome.next ?_
  rw [hsame, if_pos rfl]

end

/-- Settles O51. -/
theorem routeTablesSwitch : Obligations.RouteTablesSwitch := by
  intro s writes done ep
  exact ⟨routeRebuild_outcome, switchOrder_outcome, routeRetire_outcome, routeRetire_waits⟩

end Sys2Proof.Machine
end

section
/-! ## ctx.save of a group whose stream table lists a slot twice -/

namespace Sys2Proof.Machine
open Sys2Proof.Claims

/-- A RUNNING slot whose table of streams lists stream 0 twice: first as free, so that it reads as free, then as bound. -/
def twiceListed : Slot :=
  { Slot.fresh with state := .running, image := BitVec.ofNat 1536 (7 + 2 ^ 45 + 2 ^ 52 + 2 ^ 104), strms := [(0, .fresh), (0, { Stream.fresh with bound := true })] }

/-- The group of configured region 7, resident on core 0. -/
def groupListed : Group := Group.fresh [7] [0] [(0, 0)] 0

/-- Slice 1 of region 0 with that group. -/
def sliceListed : Slice :=
  { state := .active, frame := 1, regions := [0], ports := [], tiers := [], periodMs := 0, mode := 0, heal := .initial
    partResets := 0, confs := [], groups := [groupListed], saves := [], origin := .empty }

/-- A ctx.save of configured region 7 to the pool at 0, accepted and not begun. -/
def saveListed : Running :=
  { seq := 1, opcode := 0x0504, ring := false, irq := false, payload := bytesOf 16 7, since := 0, timeout := none, handle := 1,
    wait := .unstarted, code := 0, resp := [], progress := 0, order := 0, at_ := 0 }

/-- The module in M0 with that slice, its first 2 GiB mapped, the slot on core 0 and the command in frame 0, and a byte in the core at
the address where a stream's count is stored. -/
def twiceListing : State :=
  let s : State := { State.reset with
    power := { Power.atReset with state := .m0 }
    boot := { Boot.atReset with phase := 6, tested := true }
    slices := [(1, sliceListed)]
    frames := [(1, { Frame.fresh with owner := 1 })]
    xlat := { Translation.atReset with
      windows := [(0, { owner := 1, root0 := 0, root1 := 0, second := false, folded := [] })]
      leaves := [{ space := 0, off := 0, size := 2, entry := mkLeaf true false false false 0 0 }] }
    mem := { cells := [(corePhys 0 80, 1)], poison := [] } }
  setMb (setSlot s 0 0 twiceListed) 0 0 { MbSlot.fresh with run := some saveListed }

theorem twiceListing_due : due twiceListing 0 0 0x0504 = some saveListed := by decide +kernel

theorem saveListed_names : bitsOf (head8 saveListed) 0 32 = 7 ∧ natAt saveListed.payload 8 8 = 0 := by decide +kernel

theorem twiceListing_saves : confMoving twiceListing 1 7 = false ∧ (groupHolding twiceListing 1 7).any (fun g => g.2.halted) = false ∧
    saveCode twiceListing 1 7 0 = 0 ∧ groupHolding twiceListing 1 7 = some (0, groupListed) := by decide +kernel

theorem slots_of_twiceListing : (coreOf twiceListing 0).slots = [(0, twiceListed)] := by decide +kernel

/-- No stream of the group's core reads as bound. -/
theorem twiceListing_unbound (j n : Nat) : (strmOf (slotOf twiceListing 0 j) n).bound = false := by
  rw [slotOf, slots_of_twiceListing]
  by_cases hj : 0 = j
  · subst hj
    by_cases hn : 0 = n
    · subst hn
      rfl
    · simp [look, look?, strmOf, twiceListed, hn, Stream.fresh]
  · simp [look, look?, strmOf, hj, Slot.fresh, Stream.fresh]

/-- The save stores the count of the stream that is listed as bound, over the byte that was there. -/
theorem twiceListing_stored : readByte (beginSave twiceListing saveListed.handle 0 (some 0) true).mem.cells (corePhys 0 80) ≠
    readByte twiceListing.mem.cells (corePhys 0 80) := by decide +kernel

/-- Refutes O39: with a stream slot listed twice, first as free and then as bound, no stream of the group reads as bound, yet
`ctx.save` stores that stream's count of elements, which changes memory. -/
theorem not_contextCommands : ¬ Obligations.ContextCommands := by
  intro h
  obtain ⟨_, _, _, _, _, _, hsave, _⟩ := h twiceListing 0 0 saveListed
  obtain ⟨hconfig, hpool⟩ := saveListed_names
  rw [hconfig, hpool] at hsave
  obtain ⟨hmoving, hhalted, hcode, hgroup⟩ := twiceListing_saves
  obtain ⟨_, hbegins⟩ := hsave twiceListing_due hmoving hhalted
  obtain ⟨hexec, t, hexec', _, hmem, _⟩ := hbegins hcode 0 groupListed hgroup
  have hunbound : ∀ c ∈ groupListed.cores, ∀ j n, (strmOf (slotOf twiceListing c j) n).bound = false := fun c hc j n => by
    rw [List.mem_singleton.mp (show c ∈ [0] from hc)]
    exact twiceListing_unbound j n
  have hsame : Host.Outcome.next t = Host.Outcome.next _ := hexec'.symm.trans hexec
  cases hsame
  have hkept := hmem hunbound
  rw [setRun_shape] at hkept
  exact twiceListing_stored (congrArg (fun m : Memory => readByte m.cells (corePhys 0 80)) hkept)

end Sys2Proof.Machine
end

section
/-! ## An anise pass over a group whose stream table lists a slot twice -/

namespace Sys2Proof.Machine
open Sys2Proof.Claims

/-- The state of `twiceListing` with a pack installed. -/
def twiceListingPacked : State := { twiceListing with nv := { twiceListing.nv with packs := [(0, [], 0)] } }

theorem cores_of_twiceListing : twiceListing.cores = [(0, { Core.fresh with slots := [(0, twiceListed)] })] := by decide +kernel

theorem twiceListingPacked_unbound (c j n : Nat) : (strmOf (slotOf twiceListingPacked c j) n).bound = false := by
  by_cases hc : 0 = c
  · subst hc
    exact twiceListing_unbound j n
  · rw [slotOf, coreOf, show twiceListingPacked.cores = _ from cores_of_twiceListing]
    simp [look, look?, strmOf, hc, Core.fresh, Slot.fresh, Stream.fresh]

theorem twiceListingPacked_due : regionExists twiceListingPacked 0 = true ∧ regionsRun twiceListingPacked = true ∧
    shedOf twiceListingPacked 0 ≠ .parked ∧ shedOf twiceListingPacked 0 ≠ .dark ∧ twiceListingPacked.nv.packs ≠ [] ∧
    twiceListingPacked.sup.aniseRun = none ∧ recovering twiceListingPacked = false ∧
    (∀ e ∈ allGroups twiceListingPacked, e.2.2.image ≠ .restoring) := by decide +kernel

/-- The pass saves the group, and stores the count of the stream that is listed as bound, over the byte that was there. -/
theorem twiceListingPacked_stored : readByte (aniseDue twiceListingPacked 0).mem.cells (corePhys 0 80) ≠
    readByte twiceListingPacked.mem.cells (corePhys 0 80) := by decide +kernel

/-- Refutes O58: with a stream slot listed twice, first as free and then as bound, no stream reads as bound, yet an anise pass that
falls due saves the group and stores that stream's count of elements, which changes memory. -/
theorem not_healthEvents : ¬ Obligations.HealthEvents := by
  intro h
  obtain ⟨_, _, _, _, _, hanise, _⟩ := h twiceListingPacked 0 0 0 0 0 0 0 0 0 0 0 []
  obtain ⟨hregion, hruns, hparked, hdark, hpacks, hidle, hquiet, hgroups⟩ := twiceListingPacked_due
  obtain ⟨_, hpass⟩ := hanise hregion hruns hparked hdark hpacks hidle
  obtain ⟨_, t, hexec, _, _, _, _, hmem⟩ := hpass hquiet
  have hsame : Host.Outcome.next t = Host.Outcome.next (aniseDue twiceListingPacked 0) := hexec.symm
  cases hsame
  exact twiceListingPacked_stored (congrArg (fun m : Memory => readByte m.cells (corePhys 0 80)) (hmem twiceListingPacked_unbound hgroups))

end Sys2Proof.Machine
end

section
/-! Further parts of the state that operations leave as they were. -/

namespace Sys2Proof.Machine

@[simp] theorem capsChanged_engines (s : State) : (capsChanged s).engines = s.engines :=
  engines_of_quiet (capsChanged_quiet ..)

@[simp] theorem capsChanged_fuses (s : State) : (capsChanged s).fuses = s.fuses :=
  fuses_of_quiet (capsChanged_quiet ..)

@[simp] theorem detect_fuses (s : State) (el : Element) (code : Nat) (hard : Bool) (place : Nat) : (detect s el code hard
    place).fuses = s.fuses :=
  fuses_of_quiet (detect_quiet ..)

@[simp] theorem launch_nv (s : State) (p : Packet) : (launch s p).nv = s.nv :=
  nv_of_quiet (launch_quiet ..)

@[simp] theorem tierFault_nv (s : State) (p : Packet) : (tierFault s p).nv = s.nv :=
  nv_of_quiet (tierFault_quiet ..)

@[simp] theorem dropTierLeaves_nv (s : State) (port : Nat) : (dropTierLeaves s port).nv = s.nv :=
  nv_of_quiet (dropTierLeaves_quiet ..)

theorem tierChanged_nv (old s : State) (port : Nat) : (tierChanged old s port).nv = s.nv :=
  nv_of_quiet (tierChanged_quiet ..)

@[simp] theorem detect_tiers (s : State) (el : Element) (code : Nat) (hard : Bool) (place : Nat) : (detect s el code hard
    place).tiers = s.tiers := by rfl

@[simp] theorem setRingWr_tiers (s : State) (c : Nat) (v : Slot) (i wr : Nat) (ph : Bool) : (setRingWr s c v i wr ph).tiers =
    s.tiers := by rfl

@[simp] theorem writeRecord_tiers (s : State) (c k r : Nat) : (writeRecord s c k r).tiers = s.tiers := by
  unfold writeRecord; split <;> simp

@[simp] theorem reportError_tiers (s : State) (c k kind cause unit step row col : Nat) (et : Int) (detail : Nat) : (reportError
    s c k kind cause unit step row col et detail).tiers = s.tiers := by
  simp [reportError]

@[simp] theorem post_tiers (s : State) (m : Msg) : (post s m).tiers = s.tiers := by rfl

@[simp] theorem closeEnds_tiers (s : State) (c k : Nat) : (closeEnds s c k).tiers = s.tiers := by rfl

@[simp] theorem setConf_tiers (s : State) (h config : Nat) (v : Conf) : (setConf s h config v).tiers = s.tiers := by
  unfold setConf; split <;> simp

@[simp] theorem dropWindow_tiers (s : State) (c k : Nat) : (dropWindow s c k).tiers = s.tiers := by
  grind [dropWindow, setConf_tiers]

@[simp] theorem faultSlot_tiers (s : State) (c k : Nat) : (faultSlot s c k).tiers = s.tiers := by
  simp [faultSlot]

@[simp] theorem noteFault_tiers (s : State) (c k cause unit addr : Nat) : (noteFault s c k cause unit addr).tiers = s.tiers := by rfl

@[simp] theorem rejectStep_tiers (s : State) (c k step cause unit row col : Nat) : (rejectStep s c k step cause unit row
    col).tiers = s.tiers := by
  simp [rejectStep]

@[simp] theorem reportProgress_tiers (s : State) (c k : Nat) (moved : Bool) : (reportProgress s c k moved).tiers = s.tiers := by
  grind [reportProgress, onSlot_tiers, post_tiers]

@[simp] theorem selectSlot_tiers (s : State) (c : Nat) : (selectSlot s c).tiers = s.tiers := by
  grind [selectSlot, bump_tiers, onSlot_tiers, setCore_tiers]

@[simp] theorem settleStop_tiers (s : State) (c k : Nat) : (settleStop s c k).tiers = s.tiers := by
  grind [settleStop, dropWindow_tiers, onSlot_tiers]

@[simp] theorem settleBlock_tiers (s : State) (c k : Nat) : (settleBlock s c k).tiers = s.tiers := by
  unfold settleBlock; split <;> simp

@[simp] theorem settleBeacon_tiers (s : State) (c k : Nat) : (settleBeacon s c k).tiers = s.tiers := by
  grind [settleBeacon, onSlot_tiers, post_tiers]

@[simp] theorem settleCore_tiers (s : State) (c : Nat) : (settleCore s c).tiers = s.tiers := by
  simp [settleCore, each_keeps State.tiers]

@[simp] theorem setPairSrc_tiers (s : State) (src dst : Nat) (v : PairSrc) : (setPairSrc s src dst v).tiers = s.tiers := by rfl

@[simp] theorem arriveAt_tiers (s : State) (router port : Nat) (p : Packet) : (arriveAt s router port p).tiers = s.tiers := by rfl

@[simp] theorem admitEach_tiers (router port : Nat) (x0 : List Nat) (x1 : List Packet) (s : State) : (admitEach router port x0
    x1 s).1.tiers = s.tiers := by
  fun_induction admitEach <;> grind [arriveAt_tiers]

@[simp] theorem enterPort_tiers (s : State) (router port : Nat) : (enterPort s router port).tiers = s.tiers := by
  unfold enterPort; split <;> simp

@[simp] theorem waitAtPort_tiers (s : State) (router port : Nat) (p : Packet) : (waitAtPort s router port p).tiers = s.tiers :=
    by
  simp [waitAtPort]

@[simp] theorem launch_tiers (s : State) (p : Packet) : (launch s p).tiers = s.tiers := by
  simp [launch]

@[simp] theorem freeAnswered_tiers (s : State) (src dst answers : Nat) : (freeAnswered s src dst answers).tiers = s.tiers := by
  grind [freeAnswered, setPairSrc_tiers, settleCore_tiers]

@[simp] theorem discardCached_tiers (s : State) (p : Leaf → Bool) : (discardCached s p).tiers = s.tiers := by
  grind [discardCached, bump_tiers, each_or State.tiers]

@[simp] theorem setJobs_tiers (s : State) (unit : Unit) (l : List CopyJob) : (setJobs s unit l).tiers = s.tiers := by
  unfold setJobs; split <;> simp

@[simp] theorem unitFault_tiers (s : State) (c k step cause addr cls : Nat) : (unitFault s c k step cause addr cls).tiers =
    s.tiers := by
  simp [unitFault]

@[simp] theorem setStrm_tiers (s : State) (c k n : Nat) (t : Stream) : (setStrm s c k n t).tiers = s.tiers := by rfl

@[simp] theorem writeElems_tiers (s : State) (c k n : Nat) : (writeElems s c k n).tiers = s.tiers := by rfl

@[simp] theorem haltUnit_tiers (s : State) (unit : Unit) (tag : Nat) (h : Halt) : (haltUnit s unit tag h).tiers = s.tiers := by
  fun_cases haltUnit <;> grind [setHub_tiers, setJobs_tiers, setStrm_tiers, writeElems_tiers]

@[simp] theorem addRecord_engines (s : State) (d : DefectRec) : (addRecord s d).engines = s.engines := by
  unfold addRecord; split <;> simp

@[simp] theorem addRecord_fuses (s : State) (d : DefectRec) : (addRecord s d).fuses = s.fuses := by
  unfold addRecord; split <;> simp

@[simp] theorem addRecord_tiers (s : State) (d : DefectRec) : (addRecord s d).tiers = s.tiers := by
  unfold addRecord; split <;> simp

@[simp] theorem appendRecord_engines (s : State) (el : Element) (origin cause : Nat) : (appendRecord s el origin cause).engines
    = s.engines := by
  simp [appendRecord]

@[simp] theorem appendRecord_fuses (s : State) (el : Element) (origin cause : Nat) : (appendRecord s el origin cause).fuses =
    s.fuses := by
  simp [appendRecord]

@[simp] theorem appendRecord_tiers (s : State) (el : Element) (origin cause : Nat) : (appendRecord s el origin cause).tiers =
    s.tiers := by
  simp [appendRecord]

@[simp] theorem takeOut_engines (s : State) (el : Element) (origin cause : Nat) : (takeOut s el origin cause).engines =
    s.engines := by
  unfold takeOut; split <;> simp

@[simp] theorem takeOut_fuses (s : State) (el : Element) (origin cause : Nat) : (takeOut s el origin cause).fuses = s.fuses :=
    by
  unfold takeOut; split <;> simp

@[simp] theorem takeOut_tiers (s : State) (el : Element) (origin cause : Nat) : (takeOut s el origin cause).tiers = s.tiers :=
    by
  unfold takeOut; split <;> simp

@[simp] theorem tierFault_tiers (s : State) (p : Packet) : (tierFault s p).tiers = s.tiers := by
  grind [tierFault, freeAnswered_tiers, haltUnit_tiers, unitFault_tiers]

@[simp] theorem dropTierLeaves_tiers (s : State) (port : Nat) : (dropTierLeaves s port).tiers = s.tiers := by
  simp [dropTierLeaves]

end Sys2Proof.Machine
end

section
/-! ## Tier ports: links, devices and requests, R613 to R618 -/

namespace Sys2Proof.Machine
open Sys2Proof.Claims

section
variable {s t : State} {port n gib : Nat}

/-! ## Requests that are given up -/

/-- The requests that are given up leave their port, and nothing else changes at the tier ports. -/
theorem dropRequests_tier (s : State) (port : Nat) (gone : TierReq → Bool) :
    tierOf (dropRequests s port gone) port = { tierOf s port with reqs := (tierOf s port).reqs.filter (fun q => !(gone q)) } := by
  have htiers : (dropRequests s port gone).tiers =
      (setTier s port { tierOf s port with reqs := (tierOf s port).reqs.filter (fun q => !(gone q)) }).tiers := by
    unfold dropRequests
    exact each_keeps State.tiers (fun (q : TierReq) t => tierFault_tiers t q.packet) _ _
  rw [tierOf_congr htiers, tierOf_setTier]

/-- What is known of the port once its requests, cached leaves and status have been settled. -/
theorem settleTier_effect (old s : State) (port : Nat) (gone : TierReq → Bool) :
    let t := tierChanged old (dropTierLeaves (dropRequests s port gone) port) port
    tierOf t port = { tierOf s port with reqs := (tierOf s port).reqs.filter (fun q => !(gone q)) } ∧
      t.nv = s.nv ∧ t.frames = s.frames ∧ t.engines = s.engines := by
  intro t
  have hq : quiet t = quiet s :=
    (tierChanged_quiet ..).trans ((dropTierLeaves_quiet ..).trans (dropRequests_quiet ..))
  refine ⟨?_, nv_of_quiet hq, frames_of_quiet hq, engines_of_quiet hq⟩
  have htiers : t.tiers = (dropRequests s port gone).tiers := (tierChanged_tiers ..).trans (dropTierLeaves_tiers ..)
  rw [tierOf_congr htiers, dropRequests_tier]

/-! ## A port that fails -/

theorem appendRecord_fenceBits (s : State) (el : Element) (origin cause : Nat) :
    (appendRecord s el origin cause).nv.fenceBits = s.nv.fenceBits := by
  unfold appendRecord addRecord
  dsimp only
  split <;> rfl

theorem takeOut_fenceBits (s : State) (el : Element) (origin cause : Nat) :
    (takeOut s el origin cause).nv.fenceBits = s.nv.fenceBits ++ [el] := by
  unfold takeOut
  dsimp only
  rw [capsChanged_nv]
  split
  · rfl
  · exact (appendRecord_fenceBits ..).trans rfl

theorem fenceTier_effect {origin cause : Nat} (hnew : s.nv.fenceBits.contains ⟨6, port⟩ = false)
    (henabled : tierEnabled s.fuses.ordering port = true) :
    let t := fenceTier s port origin cause
    tierOf t port = { tierOf s port with fenced := true, reqs := [] } ∧ t.nv.fenceBits.contains ⟨6, port⟩ = true ∧
      t.frames = s.frames ∧ t.engines = s.engines := by
  intro t
  have hcond : (s.nv.fenceBits.contains ⟨6, port⟩ || !tierEnabled s.fuses.ordering port) = false := by rw [hnew, henabled]; rfl
  generalize hu : takeOut s { kind := 6, id := port } origin cause = u
  generalize hw : bump (setTier u port { tierOf u port with fenced := true }) ctrTierFences port 1 = w
  have ht : t = tierChanged s (dropTierLeaves (dropRequests w port (fun _ => true)) port) port := by
    change fenceTier s port origin cause = _
    unfold fenceTier
    dsimp only
    rw [if_neg (by rw [hcond]; decide), hu, hw]
  obtain ⟨htier, hnv, hframes, hengines⟩ := settleTier_effect s w port (fun _ => true)
  have hwtier : tierOf w port = { tierOf s port with fenced := true } := by
    have hsame : tierOf u port = tierOf s port := tierOf_congr (show u.tiers = s.tiers by rw [← hu, takeOut_tiers]) port
    rw [← hw, show tierOf (bump (setTier u port { tierOf u port with fenced := true }) ctrTierFences port 1) port =
      tierOf (setTier u port { tierOf u port with fenced := true }) port from rfl, tierOf_setTier, hsame]
  rw [ht]
  refine ⟨?_, ?_, hframes.trans ?_, hengines.trans ?_⟩
  · rw [htier, hwtier]
    dsimp only
    rw [Bool.not_true, List.filter_eq_nil_iff.mpr (fun _ _ => Bool.false_ne_true)]
  · rw [hnv, ← hw, show (bump (setTier u port { tierOf u port with fenced := true }) ctrTierFences port 1).nv = u.nv from rfl, ← hu,
      takeOut_fenceBits]
    simp
  · rw [← hw, ← hu]
    exact takeOut_frames ..
  · rw [← hw, ← hu]
    exact takeOut_engines ..

theorem tierFails_eq (henabled : tierEnabled s.fuses.ordering port = true) (hserves : (tierOf s port).fenced = false) :
    tierFails s port = fenceTier (detect s { kind := 6, id := port } 0x16 true 0) port 1 0x16 := by
  rw [tierFails, henabled, hserves]
  rfl

/-- A port that fails is fenced, and its requests are given up. -/
theorem tierFails_effect (henabled : tierEnabled s.fuses.ordering port = true) (hserves : (tierOf s port).fenced = false)
    (hnew : s.nv.fenceBits.contains ⟨6, port⟩ = false) :
    let t := tierFails s port
    (tierOf t port).fenced = true ∧ (tierOf t port).reqs = [] ∧ t.nv.fenceBits.contains ⟨6, port⟩ = true ∧
      t.frames = s.frames ∧ t.engines = s.engines := by
  intro t
  have hq := detect_quiet s { kind := 6, id := port } 0x16 true 0
  have hnv := nv_of_quiet hq
  obtain ⟨htier, hbits, hframes, hengines⟩ := fenceTier_effect (s := detect s { kind := 6, id := port } 0x16 true 0) (port := port)
    (origin := 1) (cause := 0x16) (by rw [hnv]; exact hnew) (by rw [detect_fuses]; exact henabled)
  rw [← tierFails_eq henabled hserves] at htier hbits hframes hengines
  refine ⟨?_, ?_, hbits, hframes.trans (frames_of_quiet hq), hengines.trans (engines_of_quiet hq)⟩
  · rw [htier]
  · rw [htier]

theorem tierFails_stays (s : State) (port : Nat) : (tierOf (tierFails s port) port).linkUp = (tierOf s port).linkUp ∧
    (tierFails s port).frames = s.frames ∧ (tierFails s port).engines = s.engines := by
  unfold tierFails
  split
  · exact ⟨rfl, rfl, rfl⟩
  · have hq := detect_quiet s { kind := 6, id := port } 0x16 true 0
    have hsame : tierOf (detect s { kind := 6, id := port } 0x16 true 0) port = tierOf s port := tierOf_congr (detect_tiers ..) port
    by_cases hcond : ((detect s { kind := 6, id := port } 0x16 true 0).nv.fenceBits.contains ⟨6, port⟩ ||
        !tierEnabled (detect s { kind := 6, id := port } 0x16 true 0).fuses.ordering port) = true
    · rw [fenceTier, if_pos hcond, hsame]
      exact ⟨rfl, frames_of_quiet hq, engines_of_quiet hq⟩
    · obtain ⟨hnew, henabled⟩ := Bool.or_eq_false_iff.mp (Bool.not_eq_true _ ▸ hcond)
      obtain ⟨htier, _, hframes, hengines⟩ := fenceTier_effect (origin := 1) (cause := 0x16) hnew (by simpa using henabled)
      rw [htier, hsame]
      exact ⟨rfl, hframes.trans (frames_of_quiet hq), hengines.trans (engines_of_quiet hq)⟩

/-! ## The events -/

theorem tierLinkDown_outcomes (hup : (tierOf s port).linkUp = true) (hin : s.caps.tiersOut.contains port = false) :
    exec (.tierLinkDown port) s = .next (tierFails (setTier s port { tierOf s port with linkUp := false }) port) ∧
    (tierEnabled s.fuses.ordering port = true → (tierOf s port).fenced = false → s.nv.fenceBits.contains ⟨6, port⟩ = false →
      ∃ t, exec (.tierLinkDown port) s = .next t ∧ (tierOf t port).fenced = true ∧ (tierOf t port).reqs = [] ∧
        t.nv.fenceBits.contains ⟨6, port⟩ = true ∧ t.frames = s.frames ∧ t.engines = s.engines) ∧
    ∃ t, exec (.tierLinkDown port) s = .next t ∧ (tierOf t port).linkUp = false ∧ t.frames = s.frames ∧ t.engines = s.engines := by
  have hact : tierLinkDown s port = tierFails (setTier s port { tierOf s port with linkUp := false }) port := by
    unfold tierLinkDown
    rw [if_neg (by rw [hup]; decide)]
    exact if_neg (by rw [show (setTier s port { tierOf s port with linkUp := false }).caps = s.caps from rfl, hin]; decide)
  have hexec : exec (.tierLinkDown port) s = .next (tierFails (setTier s port { tierOf s port with linkUp := false }) port) :=
    congrArg Host.Outcome.next hact
  have hset := tierOf_setTier s port { tierOf s port with linkUp := false }
  refine ⟨hexec, fun henabled hserves hnew => ?_, ?_⟩
  · have heffect := tierFails_effect (s := setTier s port { tierOf s port with linkUp := false }) henabled (by rw [hset]; exact hserves) hnew
    exact ⟨_, hexec, heffect⟩
  · obtain ⟨hlink, hframes, hengines⟩ := tierFails_stays (setTier s port { tierOf s port with linkUp := false }) port
    exact ⟨_, hexec, hlink.trans (by rw [hset]), hframes, hengines⟩

theorem tierDeviceFatal_outcomes (hup : (tierOf s port).linkUp = true) (henabled : tierEnabled s.fuses.ordering port = true)
    (hserves : (tierOf s port).fenced = false) :
    exec (.tierDeviceFatal port) s = .next (fenceTier (detect s { kind := 6, id := port } 0x16 true 0) port 1 0x16) ∧
    (s.nv.fenceBits.contains ⟨6, port⟩ = false →
      ∃ t, exec (.tierDeviceFatal port) s = .next t ∧ (tierOf t port).fenced = true ∧ (tierOf t port).reqs = [] ∧
        t.nv.fenceBits.contains ⟨6, port⟩ = true ∧ t.frames = s.frames ∧ t.engines = s.engines) := by
  have hexec : exec (.tierDeviceFatal port) s = .next (tierFails s port) := congrArg Host.Outcome.next (if_pos hup)
  exact ⟨hexec.trans (congrArg Host.Outcome.next (tierFails_eq henabled hserves)),
    fun hnew => ⟨_, hexec, tierFails_effect henabled hserves hnew⟩⟩

/-- A device that fits takes the place after the last one. -/
theorem tierDeviceHotAdd_outcome (hup : (tierOf s port).linkUp = true) (hserves : (tierOf s port).fenced = false)
    (hfew : ((tierOf s port).devices.filter (fun d => d.2 ≠ 0)).length < 8) (hsome : gib ≠ 0)
    (hroom : (tierOf s port).devices.foldl (fun a d => max a (d.1 + d.2)) 0 + gib ≤ 4096) :
    ∃ t, exec (.tierDeviceHotAdd port gib) s = .next t ∧ tierOf t port = { tierOf s port with
        devices := (tierOf s port).devices ++ [((tierOf s port).devices.foldl (fun a d => max a (d.1 + d.2)) 0, gib)] } ∧
      (∀ x, x ≠ port → tierOf t x = tierOf s x) ∧ t.mem = s.mem := by
  generalize hp : tierOf s port = p at *
  generalize hbase : p.devices.foldl (fun a d => max a (d.1 + d.2)) 0 = base at *
  have hadd : addDevice p gib = { p with devices := p.devices ++ [(base, gib)] } := by
    have hcond : (decide (8 ≤ (p.devices.filter (fun d => d.2 ≠ 0)).length) || decide (gib = 0) || decide (4096 - base = 0)) = false := by
      rw [decide_eq_false (Nat.not_le.mpr hfew), decide_eq_false hsome, decide_eq_false (by omega)]
      rfl
    unfold addDevice
    dsimp only
    rw [hbase, if_neg (by rw [hcond]; decide), Nat.min_eq_left (by omega)]
  have hact : hotAdd s port gib = tierChanged s (bump (setTier s port { p with devices := p.devices ++ [(base, gib)] }) ctrTierAdds port 1) port := by
    unfold hotAdd
    dsimp only
    rw [hp, if_neg (by rw [hup, hserves]; decide), hadd]
  have htiers : (tierChanged s (bump (setTier s port { p with devices := p.devices ++ [(base, gib)] }) ctrTierAdds port 1) port).tiers =
      (setTier s port { p with devices := p.devices ++ [(base, gib)] }).tiers := tierChanged_tiers ..
  refine ⟨_, congrArg Host.Outcome.next hact, ?_, fun x hx => ?_, tierChanged_mem ..⟩
  · rw [tierOf_congr htiers, tierOf_setTier]
  · rw [tierOf_congr htiers, tierOf_setTier_ne _ _ hx]

theorem tierDeviceRemoval_outcome {d : Nat × Nat} (hdevice : (tierOf s port).devices[n]? = some d) (hserves : d.2 ≠ 0) :
    let p := tierOf s port
    let u := bump (setTier s port { p with devices := p.devices.set n (d.1, 0) }) ctrTierRemovals port 1
    let u := { u with mem := zeroRange u.mem (tierPhys port (d.1 * 2 ^ 30)) (tierPhys port ((d.1 + d.2) * 2 ^ 30)) }
    exec (.tierDeviceRemoval port n) s =
      .next (tierChanged s (dropTierLeaves (dropRequests u port (fun q => deviceHolds d q.packet.phys)) port) port) ∧
    ∃ t, exec (.tierDeviceRemoval port n) s = .next t ∧ (tierOf t port).devices = p.devices.set n (d.1, 0) ∧
      (tierOf t port).reqs = p.reqs.filter (fun q => !(deviceHolds d q.packet.phys)) ∧
      t.nv = s.nv ∧ t.frames = s.frames ∧ t.engines = s.engines := by
  intro p u u'
  have hexec : exec (.tierDeviceRemoval port n) s =
      .next (tierChanged s (dropTierLeaves (dropRequests u' port (fun q => deviceHolds d q.packet.phys)) port) port) := by
    refine congrArg Host.Outcome.next ?_
    unfold removeDevice
    dsimp only
    rw [hdevice]
    exact if_neg hserves
  obtain ⟨htier, hnv, hframes, hengines⟩ := settleTier_effect s u' port (fun q => deviceHolds d q.packet.phys)
  have hu : tierOf u' port = { p with devices := p.devices.set n (d.1, 0) } := tierOf_setTier ..
  refine ⟨hexec, _, hexec, ?_, ?_, hnv, hframes, hengines⟩
  · rw [htier, hu]
  · rw [htier, hu]

/-- A request as it is sent a second time. -/
def sentAgain (now : Nat) (q : TierReq) : TierReq := { q with again := true, since := now }

/-- A request that has waited 1 ms is sent again once; the second time the port fails. -/
theorem tierRequestTimeout_outcomes {q : TierReq} (hfind : (tierOf s port).reqs.find? (fun q => q.id = n) = some q)
    (hover : windowOver (look s.clocks.die (dieOfTier port) 0) q.since ticksPerMs = true) :
    (q.again = true → exec (.tierRequestTimeout port n) s = .next (tierFails (bump s ctrTierTimeouts port 1) port) ∧
      (tierEnabled s.fuses.ordering port = true → (tierOf s port).fenced = false → s.nv.fenceBits.contains ⟨6, port⟩ = false →
        ∃ t, exec (.tierRequestTimeout port n) s = .next t ∧ (tierOf t port).fenced = true ∧ (tierOf t port).reqs = [] ∧
          t.nv.fenceBits.contains ⟨6, port⟩ = true ∧ t.frames = s.frames ∧ t.engines = s.engines)) ∧
    (q.again = false → ∃ t l, exec (.tierRequestTimeout port n) s = .next t ∧ t.outbox = .tierReq port n :: l ∧
      (let now := look s.clocks.die (dieOfTier port) 0;
        let sentAgain (q : TierReq) : TierReq := { q with again := true, since := now };
        tierOf t port = { tierOf s port with reqs := onFirst (fun q => decide (q.id = n)) sentAgain (tierOf s port).reqs }) ∧
      t.mem = s.mem) := by
  have hlate : ¬ (!windowOver (look s.clocks.die (dieOfTier port) 0) q.since ticksPerMs) = true := by rw [hover]; decide
  refine ⟨fun hagain => ?_, fun honce => ?_⟩
  · have hexec : exec (.tierRequestTimeout port n) s = .next (tierFails (bump s ctrTierTimeouts port 1) port) := by
      refine congrArg Host.Outcome.next ?_
      unfold requestTimeout
      dsimp only
      rw [hfind]
      dsimp only
      rw [if_neg hlate, if_pos hagain]
    exact ⟨hexec, fun henabled hserves hnew =>
      ⟨_, hexec, tierFails_effect (s := bump s ctrTierTimeouts port 1) henabled hserves hnew⟩⟩
  · generalize hu : detect (bump (bump s ctrTierTimeouts port 1) ctrTierRetrains port 1) { kind := 6, id := port } 0x16 false 0 = u
    have hact : requestTimeout s port n = emit (setTier u port { tierOf s port with
        reqs := onFirst (fun q => decide (q.id = n)) (sentAgain (look s.clocks.die (dieOfTier port) 0)) (tierOf s port).reqs })
        (.tierReq port n) := by
      unfold requestTimeout
      dsimp only
      rw [hfind]
      dsimp only
      rw [if_neg hlate, if_neg (by rw [honce]; decide), hu]
      rfl
    refine ⟨_, _, congrArg Host.Outcome.next hact, rfl, tierOf_setTier u .., ?_⟩
    change u.mem = s.mem
    rw [← hu, detect_mem]
    rfl

theorem tierRequestCompletion_outcome {b : Bool} {q : TierReq} (hfind : (tierOf s port).reqs.find? (fun q => q.id = n) = some q) :
    let p := tierOf s port
    let u := setTier s port { p with reqs := p.reqs.filter (fun q => q.id ≠ n) }
    let u := if b then devicePoison u port q.packet else u
    exec (.tierRequestCompletion port n b) s = .next (if q.packet.kind = 1 then
        respondWrite (bump (bump u ctrTierWrites port 1) ctrTierBytesOut port q.packet.count) q.packet
      else respondRead (bump (bump u ctrTierReads port 1) ctrTierBytesIn port q.packet.count) q.packet q.data
        (if b then List.replicate (ceilDiv q.packet.count 8) true else q.poison)) ∧
    ∃ t, exec (.tierRequestCompletion port n b) s = .next t ∧ tierOf t port = { p with reqs := p.reqs.filter (fun q => q.id ≠ n) } ∧
      t.mem = (if b then poisonRange s.mem q.packet.phys q.packet.count else s.mem) ∧ t.cores = s.cores ∧ t.nv = s.nv := by
  intro p u u'
  have hu : tierOf u' port = { p with reqs := p.reqs.filter (fun q => q.id ≠ n) } ∧
      u'.mem = (if b then poisonRange s.mem q.packet.phys q.packet.count else s.mem) ∧ u'.cores = s.cores ∧ u'.nv = s.nv := by
    cases b
    · exact ⟨tierOf_setTier .., rfl, rfl, rfl⟩
    · exact ⟨tierOf_setTier .., rfl, rfl, rfl⟩
  have hexec : exec (.tierRequestCompletion port n b) s = .next (if q.packet.kind = 1 then
        respondWrite (bump (bump u' ctrTierWrites port 1) ctrTierBytesOut port q.packet.count) q.packet
      else respondRead (bump (bump u' ctrTierReads port 1) ctrTierBytesIn port q.packet.count) q.packet q.data
        (if b then List.replicate (ceilDiv q.packet.count 8) true else q.poison)) := by
    refine congrArg Host.Outcome.next ?_
    unfold requestDone
    dsimp only
    rw [hfind]
  obtain ⟨htier, hmem, hcores, hnv⟩ := hu
  refine ⟨hexec, _, hexec, ?_⟩
  split
  · refine ⟨?_, ?_, ?_, ?_⟩
    · exact (tierOf_congr (launch_tiers ..) port).trans htier
    · exact (launch_mem ..).trans hmem
    · exact (launch_cores ..).trans hcores
    · exact (launch_nv ..).trans hnv
  · refine ⟨?_, ?_, ?_, ?_⟩
    · exact (tierOf_congr (launch_tiers ..) port).trans htier
    · exact (launch_mem ..).trans hmem
    · exact (launch_cores ..).trans hcores
    · exact (launch_nv ..).trans hnv

end

/-- Settles O57. -/
theorem tierPortEvents : Obligations.TierPortEvents := by
  intro s port n gib
  exact ⟨tierLinkDown_outcomes, fun hup henabled hserves =>
      ⟨(tierDeviceFatal_outcomes hup henabled hserves).1, fun _ _ hnew => (tierDeviceFatal_outcomes hup henabled hserves).2 hnew⟩,
    tierDeviceHotAdd_outcome, fun _ => tierDeviceRemoval_outcome, fun _ => tierRequestTimeout_outcomes,
    fun _ _ => tierRequestCompletion_outcome⟩

end Sys2Proof.Machine
end

section
/-! ## A region that parks over a group whose stream table lists a slot twice -/

namespace Sys2Proof.Machine
open Sys2Proof.Claims

/-- The state of `twiceListing` with two thermal steps demanded of region 0. -/
def twiceListingHot : State :=
  { twiceListing with power := { twiceListing.power with demands := [(0, { Demands.fresh with thermal := 2 })] } }

theorem twiceListingHot_unbound (c j n : Nat) : (strmOf (slotOf twiceListingHot c j) n).bound = false :=
  twiceListingPacked_unbound c j n

theorem twiceListingHot_parks : regionExists twiceListingHot 0 = true ∧ regionsRun twiceListingHot = true ∧
    demandLevel (demandsOf twiceListingHot 0) = 2 ∧ shedOf twiceListingHot 0 = .lit ∧ stepWaits twiceListingHot 0 = false := by
  decide +kernel

/-- Parking stops the group, and stores the count of the stream that is listed as bound, over the byte that was there. -/
theorem twiceListingHot_stored : readByte (parkRegion twiceListingHot 0).mem.cells (corePhys 0 80) ≠
    readByte twiceListingHot.mem.cells (corePhys 0 80) := by decide +kernel

/-- Refutes O59: with a stream slot listed twice, first as free and then as bound, no stream reads as bound, yet a region that parks
stores that stream's count of elements, which changes memory. -/
theorem not_sheddingFollowsDemands : ¬ Obligations.SheddingFollowsDemands := by
  intro h
  obtain ⟨_, _, _, _, _, _, hregions, _⟩ := h twiceListingHot 0 0 0 0 0 0 [] [] [] false false
  obtain ⟨hregion, hruns, hlevel, hlit, hfree⟩ := twiceListingHot_parks
  obtain ⟨hpark, _⟩ := hregions hregion hruns
  obtain ⟨hexec, t, hexec', _, _, hmem⟩ := hpark hlevel hlit hfree
  have hsame : Host.Outcome.next t = Host.Outcome.next (parkRegion twiceListingHot 0) := hexec'.symm.trans hexec
  cases hsame
  exact twiceListingHot_stored (congrArg (fun m : Memory => readByte m.cells (corePhys 0 80)) (hmem twiceListingHot_unbound))

end Sys2Proof.Machine
end

section
/-! ## The end of a period of a group whose stream table lists a slot twice -/

namespace Sys2Proof.Machine
open Sys2Proof.Claims

/-- A group of the same core that is saved out and may run. -/
def groupAwaiting : Group :=
  { groupListed with resident := false, image := .saved, saved := [(0, { Core.fresh with slots := [(0, { Slot.fresh with state := .ready })] })] }

/-- The state of `twiceListing` with that group in the slice. -/
def twiceListingShared : State :=
  { twiceListing with slices := [(1, { sliceListed with groups := [groupListed, groupAwaiting] })] }

theorem twiceListingShared_unbound (c j n : Nat) : (strmOf (slotOf twiceListingShared c j) n).bound = false :=
  twiceListingPacked_unbound c j n

theorem twiceListingShared_slice :
    look? twiceListingShared.slices 1 = some { sliceListed with groups := [groupListed, groupAwaiting] } := by decide +kernel

/-- The save that begins stores the count of the stream that is listed as bound, over the byte that was there. -/
theorem twiceListingShared_stored : readByte (endPeriods twiceListingShared 1).mem.cells (corePhys 0 80) ≠
    readByte twiceListingShared.mem.cells (corePhys 0 80) := by decide +kernel

/-- Refutes O54: with a stream slot listed twice, first as free and then as bound, no stream reads as bound, yet the end of a period
begins a save that stores that stream's count of elements, which changes memory. -/
theorem not_translationAndTimeSlices : ¬ Obligations.TranslationAndTimeSlices := by
  intro h
  obtain ⟨_, _, hperiod, _⟩ := h twiceListingShared 0 1 false .good
  obtain ⟨_, t, hexec, _, _, _, hmem, _⟩ := hperiod _ twiceListingShared_slice
  have hsame : Host.Outcome.next t = Host.Outcome.next (endPeriods twiceListingShared 1) := hexec.symm
  cases hsame
  exact twiceListingShared_stored (congrArg (fun m : Memory => readByte m.cells (corePhys 0 80)) (hmem twiceListingShared_unbound))

end Sys2Proof.Machine
end

section
/-! ## A tile that is drained while a replay of a sent partial waits for its place -/

namespace Sys2Proof.Machine
open Sys2Proof.Claims

/-- An accumulation whose tile is written out raw at 4,096 of core 0. -/
def writtenOut : OpenAcc := newAcc { core := 0, slot := 0, step := 0, desc := BitVec.ofNat 512 (1 + 4096 * 2 ^ 160 + 2 ^ 183) } 0

/-- A partial that was sent from the same tile, with a load drawn from stream 1. -/
def sentBefore : OpenAcc := { writtenOut with used := [⟨1, 1, 1, 1⟩] }

/-- The module in M0 with that tile done in engine 0, a replay of the partial asked for, and a byte in the core at the address where a
stream's count is stored. -/
def replayWaiting : State :=
  setEng { State.reset with
    power := { Power.atReset with state := .m0 }
    boot := { Boot.atReset with phase := 6, tested := true }
    mem := { cells := [(corePhys 0 80, 1)], poison := [] } } 0
    { Engine.fresh with tile0 := { words := [], done := some writtenOut }, sent := [sentBefore], replays := [0] }

theorem replayWaiting_drains : engineRuns replayWaiting (coreOfEngine 0) = true ∧ doneTile (engOf replayWaiting 0) = some (0, writtenOut) ∧
    plantedAt replayWaiting 7 2 writtenOut.first.core = false ∧ sdOutMode writtenOut.first.desc = 1 ∧
    (slotOf replayWaiting writtenOut.first.core writtenOut.first.slot).primary = none ∧
    (slotOf replayWaiting writtenOut.first.core writtenOut.first.slot).twin = none := by decide +kernel

/-- The replay begins when the tile is free, and the rewound stream's count is stored over the byte that was there. -/
theorem replayWaiting_rewinds :
    readByte (if engineRuns replayWaiting (coreOfEngine 0) then epilogueOut replayWaiting 0 false else replayWaiting).mem.cells
      (corePhys 0 80) = 0 := by decide +kernel

/-- Refutes O47: writing out a finished tile frees it for a replay that waits, and the replay rewinds its streams, which stores their
counts; so EPILOGUE_OUTPUT changes memory beyond its header and words. -/
theorem not_engineSteps : ¬ Obligations.EngineSteps := by
  intro h
  obtain ⟨_, _, _, hepilogue⟩ := h replayWaiting 0 0 0 0 writtenOut 0
  obtain ⟨hruns, hdone, hplanted, hmode, hprimary, htwin⟩ := replayWaiting_drains
  obtain ⟨_, t, hexec, hmem, _⟩ := hepilogue hruns hdone hplanted hmode hprimary htwin
  have hsame : (if engineRuns replayWaiting (coreOfEngine 0) then epilogueOut replayWaiting 0 false else replayWaiting) = t :=
    Host.Outcome.next.inj hexec
  have hafter := replayWaiting_rewinds
  rw [hsame, hmem] at hafter
  exact absurd hafter (by decide +kernel)

end Sys2Proof.Machine
end

section
/-! Further parts of the state that operations leave as they were. -/

namespace Sys2Proof.Machine

@[simp] theorem sendDone_mesh (s : State) (m : Msg) : (sendDone s m).mesh = s.mesh := by
  grind [sendDone, completeStep_mesh, forwardStep_mesh, settleCore_mesh]

@[simp] theorem departs_mesh (s : State) (m : Msg) : (departs s m).mesh = s.mesh := by
  unfold departs; split <;> simp

end Sys2Proof.Machine
end

section
/-! ## Narrow messages as they arrive: R255 to R264 -/

namespace Sys2Proof.Machine
open Sys2Proof.Claims

section
variable {s t : State} {i : Nat} {m : Msg}

/-- A message that is taken has arrived. -/
theorem arrived_of_take (h : takeMsg s i = some (m, t)) : s.narrow[i]? = some m ∧ msgAt m = some (msgTo m) := by
  unfold takeMsg at h
  split at h
  · cases h
  · rename_i x hx
    split at h
    · cases h
    · rename_i hcond
      cases h
      refine ⟨hx, ?_⟩
      have hhere : msgHere m = true := by
        cases hm : msgHere m
        · rw [hm] at hcond
          exact absurd rfl hcond
        · rfl
      exact of_decide_eq_true hhere

theorem mem_of_take (h : takeMsg s i = some (m, t)) : t.mem = s.mem := by
  rw [(takeMsg_eq h).2]
  rfl

theorem slotOf_of_take (h : takeMsg s i = some (m, t)) (c k : Nat) : slotOf t c k = slotOf s c k := by
  rw [(takeMsg_eq h).2, slotOf_withoutMsg]

/-! ## User messages -/

/-- What a user message that has arrived does. -/
theorem messageDeliver_user {tag epoch : Nat} {words : List Reg} {poison : Bool} (htake : takeMsg s i = some (m, t))
    (hbody : m.body = .user tag epoch words poison) (b : Bool) {x : Lookup} (hx : x ≠ .tableError) :
    exec (.messageDeliver i ⟨b, x⟩) s = .next (departs (if b then deliverUser t m tag epoch words poison
      else deliverUser (detect t (elCore m.dst) 5 false 0) m tag epoch words true) m) := by
  refine congrArg Host.Outcome.next ?_
  unfold messageDeliver
  rw [if_neg (by rw [decide_eq_false hx, Bool.false_and]; decide)]
  refine onMsg_of_take htake ?_
  rw [hbody]
  cases b
  · rfl
  · rfl

theorem user_unreachable {tag epoch : Nat} {words : List Reg} {poison : Bool} (h : coreReachable t m.dst = false) :
    deliverUser t m tag epoch words poison = dropMessage t m.src m tag epoch 0 2 := by
  unfold deliverUser
  dsimp only
  rw [if_pos (by rw [h]; rfl)]

theorem user_placed {tag epoch : Nat} {words : List Reg} {poison : Bool} (h : coreReachable t m.dst = true)
    (hopen : (endOf t m.dst (tag / 2 ^ 12)).isOpen = true) (hepoch : (endOf t m.dst (tag / 2 ^ 12)).epoch = epoch)
    (hhere : (endOf t m.dst (tag / 2 ^ 12)).parked = false) :
    deliverUser t m tag epoch words poison =
      placeMessage t m (slotOf t m.dst (endOf t m.dst (tag / 2 ^ 12)).slot) tag epoch words poison (endOf t m.dst (tag / 2 ^ 12)).epoch := by
  unfold deliverUser
  dsimp only
  rw [if_neg (by rw [h]; decide), if_pos (by rw [hopen, hepoch, decide_eq_true rfl]; rfl), hhere]
  rfl

theorem user_parked {tag epoch : Nat} {words : List Reg} {poison : Bool} {g : Group} (h : coreReachable t m.dst = true)
    (hopen : (endOf t m.dst (tag / 2 ^ 12)).isOpen = true) (hepoch : (endOf t m.dst (tag / 2 ^ 12)).epoch = epoch)
    (hparked : (endOf t m.dst (tag / 2 ^ 12)).parked = true) (hgroup : groupOf t m.dst = some g) (hplace : parkedPlace g m.dst ≠ 1) :
    deliverUser t m tag epoch words poison = parkMessage t m tag epoch := by
  unfold deliverUser
  dsimp only
  rw [if_neg (by rw [h]; decide), if_pos (by rw [hopen, hepoch, decide_eq_true rfl]; rfl), if_pos hparked, hgroup]
  exact if_neg hplace

theorem user_dropped {tag epoch : Nat} {words : List Reg} {poison : Bool} (h : coreReachable t m.dst = true)
    (hother : ((endOf t m.dst (tag / 2 ^ 12)).isOpen && decide ((endOf t m.dst (tag / 2 ^ 12)).epoch = epoch)) = false)
    (hsaved : savedSlot t m.dst (fun co k _ =>
      let e := look co.ends (tag / 2 ^ 12) .fresh
      e.isOpen && e.epoch = epoch && e.slot = k) = none) :
    deliverUser t m tag epoch words poison =
      if (endOf t m.dst (tag / 2 ^ 12)).isOpen then dropMessage t m.dst m tag epoch (endOf t m.dst (tag / 2 ^ 12)).epoch 0
      else dropMessage t m.dst m tag epoch 0 1 := by
  unfold deliverUser
  dsimp only
  rw [if_neg (by rw [h]; decide), if_neg (by rw [hother]; decide), hsaved]

/-- A user message that has arrived changes only what the cores and the regions hold. -/
theorem messageDeliver_kept {tag epoch : Nat} {words : List Reg} {poison : Bool} (htake : takeMsg s i = some (m, t))
    (hbody : m.body = .user tag epoch words poison) (b : Bool) {x : Lookup} (hx : x ≠ .tableError) :
    ∃ u, exec (.messageDeliver i ⟨b, x⟩) s = .next u ∧ u.nv = s.nv ∧ u.frames = s.frames ∧ u.engines = s.engines ∧ u.mesh = s.mesh := by
  have htaken : quiet t = quiet s ∧ t.mesh = s.mesh := by
    rw [(takeMsg_eq htake).2]
    exact ⟨rfl, rfl⟩
  obtain ⟨hquiet, hmesh⟩ := htaken
  refine ⟨_, messageDeliver_user htake hbody b hx, ?_⟩
  have hall (u : State) (hq : quiet u = quiet s) (hm : u.mesh = s.mesh) : let u := departs u m
      u.nv = s.nv ∧ u.frames = s.frames ∧ u.engines = s.engines ∧ u.mesh = s.mesh := by
    intro v
    have hv : quiet v = quiet s := (departs_quiet ..).trans hq
    exact ⟨nv_of_quiet hv, frames_of_quiet hv, engines_of_quiet hv, (departs_mesh ..).trans hm⟩
  cases b
  · exact hall _ ((deliverUser_quiet ..).trans ((detect_quiet ..).trans hquiet)) ((deliverUser_mesh ..).trans ((detect_mesh ..).trans hmesh))
  · exact hall _ ((deliverUser_quiet ..).trans hquiet) ((deliverUser_mesh ..).trans hmesh)

theorem messageDeliver_tableError (htake : takeMsg s i = some (m, t)) (b : Bool) :
    ∃ u, exec (.messageDeliver i ⟨b, .tableError⟩) s = .next u ∧ u.narrow = s.narrow ∧
      ∃ x ∈ u.sup.resets, x.domain = 3 ∧ x.cls = 0x15 ∧ x.repair = some (1, msgTo m) := by
  obtain ⟨hin, hat⟩ := arrived_of_take htake
  have hact : messageDeliver s i b .tableError = escalate s 1 (msgTo m) := by
    unfold messageDeliver
    rw [hin, if_pos (by rfl), Option.bind_some, hat, Option.getD_some]
  exact ⟨_, congrArg Host.Outcome.next hact, rfl, _, List.mem_append_right _ List.mem_cons_self, rfl, rfl, rfl⟩

/-! ## Orphan notices -/

/-- An orphan notice that has arrived is delivered. -/
theorem orphanNotice_delivered {gen kind : Nat} {detail : Reg} (htake : takeMsg s i = some (m, t)) (hbody : m.body = .orphan gen kind detail) :
    exec (.orphanNotice i) s = .next (deliverNotice t m gen kind detail) :=
  exec_of_take rfl htake (by rw [hbody]) (by rw [hbody]; rfl)

/-- A notice for a loaded slot of its load generation, not being saved, is a record. -/
theorem notice_written {gen kind : Nat} {detail : Reg} (hloaded : (slotOf t m.dst m.dstSlot).state ≠ .empty)
    (hgen : (slotOf t m.dst m.dstSlot).gen = gen) (hsaving : (groupOf t m.dst).all (fun g => g.image ≠ .saving || g.prog.isEmpty) = true) :
    deliverNotice t m gen kind detail =
      writeRecord (bump t ctrCoreOrphanWritten m.dst (bn (recordFit t m.dst m.dstSlot).isSome)) m.dst m.dstSlot
        (errorRecord t (slotOf t m.dst m.dstSlot).errLost m.dst m.dstSlot kind 0 m.dst m.step 0 0 0 detail.toNat) := by
  have hnone : (groupOf t m.dst).filter (fun g => g.image = .saving && !g.prog.isEmpty) = none := by
    cases hg : groupOf t m.dst with
    | none => rfl
    | some g =>
      rw [hg] at hsaving
      rw [Option.filter_eq_none_iff]
      intro x hx
      cases hx
      have hone : (decide (g.image ≠ .saving) || g.prog.isEmpty) = true := hsaving
      by_cases himage : g.image = .saving
      · rw [himage] at hone ⊢
        simp at hone
        simp [hone]
      · simp [himage]
  have hhere : (decide ((slotOf t m.dst m.dstSlot).state ≠ .empty) && decide ((slotOf t m.dst m.dstSlot).gen = gen)) = true := by
    rw [decide_eq_true hloaded, decide_eq_true hgen]
    rfl
  rw [deliverNotice, if_pos hhere, hnone]

theorem notice_discarded {gen kind : Nat} {detail : Reg} (hgen : (slotOf t m.dst m.dstSlot).gen ≠ gen)
    (hsaved : savedSlot t m.dst (fun _ j w => j = m.dstSlot && w.state ≠ .empty && w.gen = gen) = none) :
    deliverNotice t m gen kind detail = bump t ctrCoreOrphanDiscarded m.dst 1 := by
  have hother : (decide ((slotOf t m.dst m.dstSlot).state ≠ .empty) && decide ((slotOf t m.dst m.dstSlot).gen = gen)) = false := by
    rw [decide_eq_false hgen, Bool.and_false]
  rw [deliverNotice, if_neg (by rw [hother]; decide), hsaved]

/-! ## Grants and credits -/

theorem outOf_setOut (c k n : Nat) (p : Port) : outOf (slotOf (setOut s c k n p) c k) n = p := by
  rw [setOut, slotOf_onSlot, outOf, look_put_same]

theorem settleCore_ports (s : State) (c c' k : Nat) : (slotOf (settleCore s c) c' k).ports = (slotOf s c' k).ports :=
  of_lasting Slot.ports (fun _ => rfl) (settleCore_lasting s c c' k)

theorem progress_ports (s : State) (c j : Nat) (flows : Bool) (c' k : Nat) :
    (slotOf (progress s c j flows) c' k).ports = (slotOf s c' k).ports := by
  obtain ⟨_, _, _, _, h⟩ := progress_slot s c j flows c' k
  rw [h]

/-- Neither going on nor settling moves a port. -/
theorem outOf_goesOn (b : Bool) (c k n : Nat) :
    outOf (slotOf (settleCore (if b then s else progress s c k true) c) c k) n = outOf (slotOf s c k) n := by
  rw [outOf, settleCore_ports]
  cases b
  · exact congrArg (look · n Port.fresh) (progress_ports ..)
  · rfl

theorem mem_goesOn (b : Bool) (c k : Nat) : (settleCore (if b then s else progress s c k true) c).mem = s.mem := by
  rw [mem_of_coresRest (settleCore_coresRest ..)]
  cases b
  · exact progress_mem ..
  · rfl

theorem openGrant_outcome {port gen credits : Nat} (htake : takeMsg s i = some (m, t)) (hbody : m.body = .openGrant port gen credits) :
    ∃ u, exec (.openGrant i) s = .next u ∧
      (outOf (slotOf u m.dst m.dstSlot) port).gen = gen ∧ (outOf (slotOf u m.dst m.dstSlot) port).credits = credits ∧
      (outOf (slotOf u m.dst m.dstSlot) port).seq = (if gen = (outOf (slotOf s m.dst m.dstSlot) port).gen then
        (outOf (slotOf s m.dst m.dstSlot) port).seq else 0) ∧ u.mem = s.mem := by
  generalize hp : ({ gen := gen, credits := credits, seq := if gen = (outOf (slotOf t m.dst m.dstSlot) port).gen then
    (outOf (slotOf t m.dst m.dstSlot) port).seq else 0 } : Port) = p
  generalize hw : setOut t m.dst m.dstSlot port p = w
  have hexec : exec (.openGrant i) s =
      .next (settleCore (if decide (credits = 0) then w else progress w m.dst m.dstSlot true) m.dst) := by
    refine exec_of_take rfl htake ?_ (by rw [hbody]; rfl)
    rw [hbody, ← hw, ← hp]
    simp only [decide_eq_true_eq]
  have hout : outOf (slotOf (settleCore (if decide (credits = 0) then w else progress w m.dst m.dstSlot true) m.dst) m.dst m.dstSlot) port = p := by
    rw [outOf_goesOn, ← hw, outOf_setOut]
  refine ⟨_, hexec, ?_, ?_, ?_, ?_⟩
  · rw [hout, ← hp]
  · rw [hout, ← hp]
  · rw [hout, ← hp, slotOf_of_take htake]
  · rw [mem_goesOn, ← hw, setOut, onSlot_mem, mem_of_take htake]

theorem creditReturn_outcomes {port gen n : Nat} (htake : takeMsg s i = some (m, t)) (hbody : m.body = .credit port gen n) :
    ((outOf (slotOf t m.dst m.dstSlot) port).gen = gen → ∃ u, exec (.creditReturn i) s = .next u ∧
      (outOf (slotOf u m.dst m.dstSlot) port).credits = (outOf (slotOf s m.dst m.dstSlot) port).credits + n ∧ u.mem = s.mem) ∧
    ((outOf (slotOf t m.dst m.dstSlot) port).gen ≠ gen → exec (.creditReturn i) s = .next t) := by
  refine ⟨fun hgen => ?_, fun hgen => ?_⟩
  · generalize hw : setOut t m.dst m.dstSlot port
      { outOf (slotOf t m.dst m.dstSlot) port with credits := (outOf (slotOf t m.dst m.dstSlot) port).credits + n } = w
    have hexec : exec (.creditReturn i) s = .next (settleCore (if false then w else progress w m.dst m.dstSlot true) m.dst) := by
      refine exec_of_take rfl htake ?_ (by rw [hbody]; rfl)
      rw [hbody, ← hw]
      exact if_pos hgen
    refine ⟨_, hexec, ?_, ?_⟩
    · rw [outOf_goesOn false, ← hw, outOf_setOut, slotOf_of_take htake]
    · rw [mem_goesOn false, ← hw, setOut, onSlot_mem, mem_of_take htake]
  · refine exec_of_take rfl htake ?_ (by rw [hbody]; rfl)
    rw [hbody]
    exact if_neg hgen

/-! ## Open requests -/

/-- What being a lane's producer says of the message's source. -/
theorem isProducer_iff {v : Slot} {n core slot port : Nat} (h : isProducer v n core slot port = true) :
    relocated v (laneCore (imLane v.image n)) = core ∧ laneSlot (imLane v.image n) = slot ∧ lanePort (imLane v.image n) = port := by
  simp only [isProducer, Bool.and_eq_true, decide_eq_true_eq] at h
  obtain ⟨⟨⟨_, hcore⟩, hslot⟩, hport⟩ := h
  exact ⟨hcore, hslot, hport⟩

theorem openRequest_outcome {n port : Nat} (htake : takeMsg s i = some (m, t)) (hbody : m.body = .openRequest n port)
    (hproducer : isProducer (slotOf t m.dst m.dstSlot) n m.src m.srcSlot port = true) :
    ∃ u, exec (.openRequest i) s = .next u ∧
      (laneOf (slotOf u m.dst m.dstSlot) n).gen = ((laneOf (slotOf s m.dst m.dstSlot) n).gen + 1) % 16 ∧
      (laneOf (slotOf u m.dst m.dstSlot) n).start = (laneOf (slotOf s m.dst m.dstSlot) n).due ∧
      (∀ x ∈ (laneOf (slotOf u m.dst m.dstSlot) n).tokens, x.1 < (laneOf (slotOf s m.dst m.dstSlot) n).due) ∧ u.mem = s.mem ∧
      ∃ x ∈ u.narrow, ∃ cr, x.dst = m.src ∧ x.dstSlot = m.srcSlot ∧
        x.body = .openGrant port (((laneOf (slotOf s m.dst m.dstSlot) n).gen + 1) % 16) cr := by
  rw [slotOf_of_take htake] at hproducer
  obtain ⟨hcore, hslot, hport⟩ := isProducer_iff hproducer
  generalize hv : slotOf s m.dst m.dstSlot = v at *
  generalize hw : setLane t m.dst m.dstSlot n (rebindLane (laneOf v n)) = w
  have hwslot : slotOf w m.dst m.dstSlot = { v with lanes := put v.lanes n (rebindLane (laneOf v n)) } := by
    rw [← hw, setLane, slotOf_onSlot, slotOf_of_take htake, hv]
  have hexec : exec (.openRequest i) s = .next (openLane w m.dst m.dstSlot n) := by
    refine exec_of_take rfl htake ?_ (by rw [hbody]; rfl)
    rw [hbody]
    dsimp only
    rw [slotOf_of_take htake, hv, if_pos hproducer, hw]
  have hafter : slotOf (openLane w m.dst m.dstSlot n) m.dst m.dstSlot = { v with lanes := put v.lanes n (rebindLane (laneOf v n)) } :=
    (slotOf_congr (post_cores ..) ..).trans hwslot
  have hlane : laneOf (slotOf (openLane w m.dst m.dstSlot n) m.dst m.dstSlot) n = rebindLane (laneOf v n) := by
    rw [hafter, laneOf, look_put_same]
  have hmem : (openLane w m.dst m.dstSlot n).mem = s.mem := by
    rw [openLane, post_mem, ← hw, setLane, onSlot_mem, mem_of_take htake]
  have hgen : (laneOf (slotOf w m.dst m.dstSlot) n).gen = ((laneOf v n).gen + 1) % 16 := by
    rw [hwslot, laneOf, look_put_same]
    rfl
  refine ⟨_, hexec, ?_, ?_, ?_, hmem, _, List.mem_append_right _ (List.mem_singleton_self _),
    grantCredits (slotOf w m.dst m.dstSlot) n, ?_, ?_, ?_⟩
  · rw [hlane]
    rfl
  · rw [hlane]
    rfl
  · rw [hlane]
    intro x hx
    exact of_decide_eq_true (List.mem_filter.mp hx).2
  · dsimp only
    rw [hwslot]
    exact hcore
  · dsimp only
    rw [hwslot]
    exact hslot
  · dsimp only
    rw [hgen, hwslot]
    exact congrArg (fun p => Body.openGrant p _ _) hport

theorem openRequest_orphan {n port : Nat} (htake : takeMsg s i = some (m, t)) (hbody : m.body = .openRequest n port)
    (hother : isProducer (slotOf t m.dst m.dstSlot) n m.src m.srcSlot port = false) :
    exec (.openRequest i) s = .next (orphanLane t m.dst m.dstSlot n m.src m.srcSlot m.gen port 0 true) := by
  refine exec_of_take rfl htake ?_ (by rw [hbody]; rfl)
  rw [hbody]
  exact if_neg (by rw [hother]; decide)

end

/-- Settles O52. -/
theorem narrowMessages : Obligations.NarrowMessages := by
  intro s t i m htake
  refine ⟨fun tag epoch words poison hbody => ?_, fun _ _ _ hbody hloaded hgen hsaving =>
      (orphanNotice_delivered htake hbody).trans (congrArg Host.Outcome.next (notice_written hloaded hgen hsaving)),
    fun _ _ _ hbody hgen hsaved =>
      (orphanNotice_delivered htake hbody).trans (congrArg Host.Outcome.next (notice_discarded hgen hsaved)),
    fun _ _ _ hbody => openGrant_outcome htake hbody,
    fun _ _ _ hbody => creditReturn_outcomes htake hbody, fun _ _ hbody => openRequest_outcome htake hbody,
    fun _ _ hbody => openRequest_orphan htake hbody⟩
  have hgood : Lookup.good ≠ .tableError := by decide
  have hdeliver := messageDeliver_user htake hbody true hgood
  rw [if_pos rfl] at hdeliver
  refine ⟨fun h => ?_, fun h hopen hepoch hhere => ?_, fun g h hopen hepoch hparked hgroup hplace => ?_, fun h hother hsaved => ?_,
    messageDeliver_user htake hbody false hgood, fun b _ hx => messageDeliver_kept htake hbody b hx, messageDeliver_tableError htake⟩
  · rw [hdeliver, user_unreachable h]
  · rw [hdeliver, user_placed h hopen hepoch hhere]
  · rw [hdeliver, user_parked h hopen hepoch hparked hgroup hplace]
  · rw [hdeliver, user_dropped h hother hsaved]

end Sys2Proof.Machine
end

section
/-! ## Memory commands, R690 to R694 -/

namespace Sys2Proof.Machine
open Sys2Proof.Claims

section
variable {s t u : State} {f k p q n : Nat} {r : Running}

theorem length_sub (l : List Byte) (a n : Nat) : (sub l a n).length = n := by
  simp only [sub, List.length_append, List.length_replicate, List.length_take]
  omega

theorem natOf_lt (l : List Byte) : natOf l < 256 ^ l.length := by
  induction l with
  | nil => exact Nat.one_pos
  | cons b l ih =>
    have hb := b.isLt
    rw [List.length_cons, Nat.pow_succ]
    simp only [natOf]
    omega

theorem addrAt_zero (l : List Byte) (a : Nat) : addrAt (natAt l a 8) 0 = natAt l a 8 := by
  have h := natOf_lt (sub l a 8)
  rw [length_sub] at h
  exact Nat.mod_eq_of_lt h

theorem length_readCells (cells : List Host.Cell) (a n : Nat) : (readCells cells a n).length = n := by
  induction n generalizing a with
  | zero => rfl
  | succ n ih => rw [readCells, List.length_cons, ih]

theorem length_readPhys (s : State) (a n : Nat) : (readPhys s a n).length = n := by
  unfold readPhys
  split
  · exact length_sub ..
  · exact length_readCells ..

/-! ## Maps and unmaps -/

/-- The tables are written, the leaves changed, and the command waits for the old copies and the held lines. -/
theorem settleMaps_awaits {leaves : List Leaf} {windows : List Nat} {gone : List Leaf} (hrun : (mbSlot s f k).run = some r)
    (hq : quiet t = quiet s) :
    ∃ ls, Awaits (settleMaps { t with xlat := { t.xlat with leaves := leaves } } f k windows gone) f k r (.lines windows ls gone) ∧
      (settleMaps { t with xlat := { t.xlat with leaves := leaves } } f k windows gone).nv = s.nv ∧
      (settleMaps { t with xlat := { t.xlat with leaves := leaves } } f k windows gone).fuses = s.fuses := by
  generalize hw : ({ t with xlat := { t.xlat with leaves := leaves } } : State) = w
  have hqw : quiet w = quiet s := by
    rw [← hw]
    exact hq
  have hstored := stored_of_quiet hqw
  refine ⟨linesOf w gone, ?_, nv_of_stored ((settleMaps_stored ..).trans hstored), fuses_of_stored ((settleMaps_stored ..).trans hstored)⟩
  have hall : quiet (each windows (snoopAll (dropPages w gone) (linesOf w gone) false 3 none) (fun w s => retireWindow s w)) = quiet s := by
    rw [each_keeps quiet fun x t => retireWindow_quiet t x, snoopAll_quiet, dropPages_quiet, hqw]
  exact await_run (run_congr (frames_of_quiet hall) hrun) _

theorem memMap_outcomes (hdue : due s f k 0x0601 = some r) :
    (mapCode s r.handle (mapReqOf r.payload) ≠ 0 → Settles (.memMap f k) s s f k (mapCode s r.handle (mapReqOf r.payload)) []) ∧
    (mapCode s r.handle (mapReqOf r.payload) = 0 →
      let m := mapReqOf r.payload
      let windows := rangeKeys m.space m.off (mapSpan m)
      let gone := s.xlat.leaves.filter (fun l => l.space = m.space && overlaps l.off (pageBytes l.size) m.off (mapSpan m))
      windows.all (retired s) = true →
      rebuildAll r.handle (windows.map (fun w =>
        (w, ((newLeaves m).filter (fun l => keyOf l.space l.off = w)).map (fun l => (l.off, l.size, l.entry))))) s = some t →
      exec (.memMap f k) s = .next (settleMaps { t with xlat := { t.xlat with
        leaves := t.xlat.leaves.filter (fun l => !(gone.contains l)) ++ newLeaves m } } f k windows gone) ∧
      ∃ x ls, exec (.memMap f k) s = .next x ∧ Awaits x f k r (.lines windows ls gone) ∧ x.nv = s.nv ∧ x.fuses = s.fuses) := by
  refine ⟨fun hbad => ?_, ?_⟩
  · have hact : mapPages s f k = settle s f k (mapCode s r.handle (mapReqOf r.payload)) [] := (act_of_due hdue _).trans (if_pos hbad)
    exact settles_of_exec (congrArg Host.Outcome.next hact) (run_of_due hdue)
  · intro hgood m windows gone hretired hbuilt
    have hact : mapPages s f k = settleMaps { t with xlat := { t.xlat with
        leaves := t.xlat.leaves.filter (fun l => !(gone.contains l)) ++ newLeaves m } } f k windows gone := by
      refine (act_of_due hdue _).trans ?_
      dsimp only
      rw [if_neg (not_not_intro hgood), if_neg (by rw [hretired]; decide), hbuilt]
    obtain ⟨ls, hawaits, hnv, hfuses⟩ := settleMaps_awaits (leaves := t.xlat.leaves.filter (fun l => !(gone.contains l)) ++ newLeaves m)
      (windows := windows) (gone := gone) (run_of_due hdue) (rebuildAll_quiet _ _ _ hbuilt)
    have hexec : exec (.memMap f k) s = .next _ := congrArg Host.Outcome.next hact
    exact ⟨hexec, _, ls, hexec, hawaits, hnv, hfuses⟩

theorem memUnmap_outcomes (hdue : due s f k 0x0602 = some r) :
    let a := natAt r.payload 0 8
    let code := unmapCode s r.handle (gaSpace a) (gaOff a) (bitsOf a 50 14) (natAt r.payload 8 8)
    (code ≠ 0 → Settles (.memUnmap f k) s s f k code []) ∧
    let gone := s.xlat.leaves.filter (fun l => l.space = gaSpace a && overlaps l.off (pageBytes l.size) (gaOff a) (natAt r.payload 8 8))
    let windows := (gone.map (fun l => keyOf l.space l.off)).eraseDups
    (code = 0 → windows.all (retired s) = true →
      rebuildAll r.handle (windows.map (fun w =>
        (w, (gone.filter (fun l => keyOf l.space l.off = w)).map (fun l => (l.off, l.size, (0 : Reg)))))) s = some t →
      exec (.memUnmap f k) s = .next (settleMaps { t with xlat := { t.xlat with
        leaves := t.xlat.leaves.filter (fun l => !(gone.contains l)) } } f k windows gone) ∧
      ∃ x ls, exec (.memUnmap f k) s = .next x ∧ Awaits x f k r (.lines windows ls gone) ∧ x.nv = s.nv ∧ x.fuses = s.fuses) := by
  intro a code
  refine ⟨fun hbad => ?_, ?_⟩
  · have hact : unmapPages s f k = settle s f k code [] := (act_of_due hdue _).trans (if_pos hbad)
    exact settles_of_exec (congrArg Host.Outcome.next hact) (run_of_due hdue)
  · intro gone windows hgood hretired hbuilt
    have hact : unmapPages s f k = settleMaps { t with xlat := { t.xlat with
        leaves := t.xlat.leaves.filter (fun l => !(gone.contains l)) } } f k windows gone := by
      refine (act_of_due hdue _).trans ?_
      dsimp only
      rw [if_neg (not_not_intro hgood), if_neg (by rw [hretired]; decide), hbuilt]
    obtain ⟨ls, hawaits, hnv, hfuses⟩ := settleMaps_awaits (leaves := t.xlat.leaves.filter (fun l => !(gone.contains l)))
      (windows := windows) (gone := gone) (run_of_due hdue) (rebuildAll_quiet _ _ _ hbuilt)
    have hexec : exec (.memUnmap f k) s = .next _ := congrArg Host.Outcome.next hact
    exact ⟨hexec, _, ls, hexec, hawaits, hnv, hfuses⟩

/-! ## Pieces within one page -/

/-- A command that settles over a state in which what is stored, the mailbox and the engines are as before. -/
theorem answered_over {e : Instr} {w : State} {code : Nat} {resp : List Byte} (hrun : (mbSlot s f k).run = some r)
    (hexec : exec e s = .next (settle w f k code resp)) (hq : quiet w = quiet s) :
    exec e s = .next (settle w f k code resp) ∧
      ∃ x, exec e s = .next x ∧ Answered x f k r code resp ∧ x.mem = w.mem ∧ x.nv = s.nv :=
  ⟨hexec, _, hexec, answered_settle (run_congr (frames_of_quiet hq) hrun) code resp, settle_mem ..,
    (settle_nv ..).trans (nv_of_quiet hq)⟩

theorem pieceAt_done {a : Nat} {write : Bool} (h : pieceAt s a n write = (.done t, p)) : quiet t = quiet s := by
  have hq := pieceAt_quiet s a n write
  rw [h] at hq
  exact hq

theorem length_patternBytes (pattern off n : Nat) : (patternBytes pattern off n).length = n := by
  rw [patternBytes, List.length_map, List.length_range]

theorem Filled_quiet (t : State) (p n pattern : Nat) : quiet (Filled t p n pattern) = quiet t := by
  unfold Filled
  exact (quiet_mem ..).trans (writePieces_quiet ..)

/-- A piece of local memory that is written whole. -/
theorem writePiece_filled {a : Nat} (pattern : Nat) (hlocal : gaWhere s a ≠ 1) (h : pieceAt s a n true = (.done t, p)) :
    writePiece s f k r a (patternBytes pattern 0 n) [] true = .done (Filled t p n pattern) := by
  unfold writePiece
  rw [if_neg hlocal, length_patternBytes, h]
  rfl

/-- A range within one page is filled in one piece. -/
theorem fillFrom_one {l : List Byte} {pattern : Nat} (hsome : 0 < n) (hpage : n ≤ 2 ^ 16 - natAt l 0 8 % 2 ^ 16)
    (hlocal : gaWhere s (natAt l 0 8) ≠ 1) (h : pieceAt s (natAt l 0 8) n true = (.done t, p)) :
    fillFrom f k r (natAt l 0 8) n pattern (n / 2 ^ 16 + 2) 0 s = (n, .done (Filled t p n pattern)) := by
  have hleft : pageLeft (natAt l 0 8) (n - 0) = n := by
    rw [pageLeft, Nat.sub_zero]
    exact Nat.min_eq_left hpage
  rw [fillFrom, if_neg (Nat.not_le.mpr hsome), addrAt_zero]
  dsimp only
  rw [hleft, writePiece_filled pattern hlocal h, Nat.zero_add]
  dsimp only
  rw [fillFrom, if_pos (Nat.le_refl n)]

theorem memFill_outcome (hdue : due s f k 0x0603 = some r) (hnew : r.progress = 0) (hlen : natAt r.payload 8 8 = n) (hsome : 0 < n)
    (hpage : n ≤ 2 ^ 16 - natAt r.payload 0 8 % 2 ^ 16) (hlocal : gaWhere s (natAt r.payload 0 8) ≠ 1)
    (h : pieceAt s (natAt r.payload 0 8) n true = (.done t, p)) :
    let w := Filled t p n (natAt r.payload 16 8)
    exec (.memFill f k) s = .next (settle w f k 0 (bytesOf 8 n)) ∧
      ∃ x, exec (.memFill f k) s = .next x ∧ Answered x f k r 0 (bytesOf 8 n) ∧ x.mem = w.mem ∧ x.nv = s.nv := by
  intro w
  have hact : fillMemory s f k = settle w f k 0 (bytesOf 8 n) := by
    refine (act_of_due hdue _).trans ?_
    dsimp only
    rw [hlen, hnew, fillFrom_one hsome hpage hlocal h]
    rfl
  exact answered_over (run_of_due hdue) (congrArg Host.Outcome.next hact) ((Filled_quiet ..).trans (pieceAt_done h))

/-- A range of the slice itself is local. -/
theorem local_of_ownRange {a h : Nat} (hown : ownRange s h a n = true) : gaWhere s a ≠ 1 := by
  simp only [ownRange, Bool.and_eq_true, decide_eq_true_eq] at hown
  obtain ⟨⟨⟨hzero, _⟩, _⟩, _⟩ := hown
  omega

theorem memScrub_outcome (hdue : due s f k 0x0606 = some r) (hnew : r.progress = 0) (hlen : natAt r.payload 8 8 = n) (hsome : 0 < n)
    (hpage : n ≤ 2 ^ 16 - natAt r.payload 0 8 % 2 ^ 16) (hown : ownRange s r.handle (natAt r.payload 0 8) n = true)
    (h : pieceAt s (natAt r.payload 0 8) n true = (.done t, p)) :
    let w := Filled t p n 0
    exec (.memScrub f k) s = .next (settle w f k 0 (bytesOf 8 n)) ∧
      ∃ x, exec (.memScrub f k) s = .next x ∧ Answered x f k r 0 (bytesOf 8 n) ∧ x.mem = w.mem ∧ x.nv = s.nv := by
  intro w
  have hact : scrubMemory s f k = settle w f k 0 (bytesOf 8 n) := by
    refine (act_of_due hdue _).trans ?_
    dsimp only
    rw [hlen, hnew, if_neg (by rw [hown]; decide), fillFrom_one hsome hpage (local_of_ownRange hown) h]
    rfl
  exact answered_over (run_of_due hdue) (congrArg Host.Outcome.next hact) ((Filled_quiet ..).trans (pieceAt_done h))

theorem memScrub_refused (hdue : due s f k 0x0606 = some r) (hnew : r.progress = 0)
    (hother : ownRange s r.handle (natAt r.payload 0 8) (natAt r.payload 8 8) = false) :
    Settles (.memScrub f k) s s f k 0x21 (bytesOf 8 0) := by
  have hact : scrubMemory s f k = settle s f k 0x21 (bytesOf 8 0) := by
    refine (act_of_due hdue _).trans ?_
    dsimp only
    rw [hother, hnew]
    exact if_pos rfl
  exact settles_of_exec (congrArg Host.Outcome.next hact) (run_of_due hdue)

/-! ## mem.copy -/

/-- A copy that has done all its bytes settles. -/
theorem copyFrom_done {c : CopyReq} (fuel : Nat) (h : c.length ≤ r.progress) :
    copyFrom f k c (fuel + 1) r s = settle s f k 0 (bytesOf 8 r.progress) := by
  rw [copyFrom, if_pos h]

theorem copyFuel_eq (c : CopyReq) : copyFuel c = (c.length / 2 ^ 14 + 5) + 3 := rfl

theorem length_readPieces (s : State) (p n : Nat) : (readPieces s [(p, n)]).1.length = n := by
  simp [readPieces, length_readPhys]

theorem memCopy_outcome {data : List Byte} {pois : List Bool} (hdue : due s f k 0x0604 = some r) (hnew : r.progress = 0)
    (hdata : r.data = []) (hbad : r.bad = []) (hsrc : (copyReqOf r.payload).srcHost = false)
    (hdst : (copyReqOf r.payload).dstHost = false) (hlen : (copyReqOf r.payload).length = n) (hsome : 0 < n)
    (hfrom : n ≤ 2 ^ 16 - (copyReqOf r.payload).src % 2 ^ 16) (hto : n ≤ 2 ^ 16 - (copyReqOf r.payload).dst % 2 ^ 16)
    (hsrclocal : gaWhere s (copyReqOf r.payload).src ≠ 1) (hdstlocal : gaWhere t (copyReqOf r.payload).dst ≠ 1)
    (hread : pieceAt s (copyReqOf r.payload).src n false = (.done t, p)) (hbytes : readPieces t [(p, n)] = (data, pois))
    (hwrite : pieceAt t (copyReqOf r.payload).dst n true = (.done u, q)) :
    exec (.memCopy f k) s = .next (settle (writePieces [(q, n)] data pois u) f k 0 (bytesOf 8 n)) ∧
      ∃ x, exec (.memCopy f k) s = .next x ∧ Answered x f k r 0 (bytesOf 8 n) ∧
        x.mem = (writePieces [(q, n)] data pois u).mem ∧ x.nv = s.nv := by
  have hsrcaddr : addrAt (copyReqOf r.payload).src 0 = (copyReqOf r.payload).src := addrAt_zero r.payload 0
  have hdstaddr : addrAt (copyReqOf r.payload).dst 0 = (copyReqOf r.payload).dst := addrAt_zero r.payload 8
  have hpiece : copyPiece (copyReqOf r.payload) 0 = n := by
    rw [copyPiece, hdst, hdstaddr, hlen, endPiece, if_neg (by decide), pageLeft, Nat.sub_zero]
    exact Nat.min_eq_left hto
  have hpart : copyRead (copyReqOf r.payload) 0 0 = n := by
    rw [copyRead, hsrc, hpiece, Nat.zero_add, hsrcaddr, endPiece, if_neg (by decide), pageLeft, Nat.sub_zero]
    exact Nat.min_eq_left hfrom
  have hdatalen : data.length = n := by
    have h := length_readPieces t p n
    rw [hbytes] at h
    exact h
  have hact : copyMemory s f k = settle (writePieces [(q, n)] data pois u) f k 0 (bytesOf 8 n) := by
    refine (act_of_due hdue _).trans ?_
    dsimp only
    rw [copyFuel_eq, copyFrom, if_neg (by rw [hlen, hnew]; omega)]
    dsimp only
    rw [hdata, hnew, hpiece, List.length_nil, if_pos hsome, hsrc, if_neg (by decide), Nat.zero_add, hsrcaddr, hpart, readPiece,
      if_neg hsrclocal, hread]
    dsimp only
    rw [hbytes, copyFrom, if_neg (by dsimp only; rw [hlen]; omega)]
    dsimp only
    rw [hpiece, hbad, List.nil_append, List.nil_append, hdatalen, if_neg (Nat.lt_irrefl n), hdst, if_neg (by decide), hdstaddr, writePiece,
      if_neg hdstlocal, hdatalen, hwrite]
    dsimp only
    rw [if_neg (by decide), copyFrom_done _ (by dsimp only; rw [hlen]; omega), Nat.zero_add]
  refine answered_over (run_of_due hdue) (congrArg Host.Outcome.next hact) ?_
  exact (writePieces_quiet ..).trans ((pieceAt_done hwrite).trans (pieceAt_done hread))

theorem memCopy_asks (hdue : due s f k 0x0604 = some r) (hmore : r.progress < (copyReqOf r.payload).length) :
    let c := copyReqOf r.payload
    (c.srcHost = true → r.data.length < copyPiece c r.progress → exec (.memCopy f k) s = .next (askHost s f k r
      (.rdCurr (addrAt c.src (r.progress + r.data.length)) (copyRead c r.progress r.data.length)))) ∧
    (c.dstHost = true → copyPiece c r.progress ≤ r.data.length → exec (.memCopy f k) s = .next (askHost s f k r
      (hostPut (addrAt c.dst r.progress) r.data (r.bad.any id)))) := by
  refine ⟨fun hhost hshort => ?_, fun hhost hwhole => ?_⟩
  · refine congrArg Host.Outcome.next ((act_of_due hdue _).trans ?_)
    dsimp only
    rw [copyFuel_eq, copyFrom, if_neg (Nat.not_le.mpr hmore)]
    dsimp only
    rw [if_pos hshort, if_pos hhost]
  · refine congrArg Host.Outcome.next ((act_of_due hdue _).trans ?_)
    dsimp only
    rw [copyFuel_eq, copyFrom, if_neg (Nat.not_le.mpr hmore)]
    dsimp only
    rw [if_neg (Nat.not_lt.mpr hwhole), if_pos hhost]

/-! ## mem.digest and mem.poison.query -/

theorem readRange_done {l : List (Nat × Nat)} {data : List Byte} {pois : List Bool} (h : readRange l s = (.done t, data, pois)) :
    quiet t = quiet s := by
  have hq := readRange_quiet l s
  rw [h] at hq
  exact hq

theorem memDigest_outcome {data : List Byte} {pois : List Bool} (hdue : due s f k 0x0605 = some r) (hnew : r.progress = 0)
    (hdata : r.data = []) (hone : natAt r.payload 16 4 = 1) (hlocal : gaWhere s (natAt r.payload 0 8) ≠ 1)
    (hread : readRange (pageCuts (natAt r.payload 0 8) 32) s = (.done t, data, pois)) (hclean : pois.any id = false) :
    exec (.memDigest f k) s = .next (settle t f k 0 (bytesOf 8 1 ++ sha384 (sub data 24 4))) ∧
      ∃ x, exec (.memDigest f k) s = .next x ∧ Answered x f k r 0 (bytesOf 8 1 ++ sha384 (sub data 24 4)) ∧ x.nv = s.nv := by
  have hfrom : digestFrom f k r (natAt r.payload 0 8) (natAt r.payload 8 8) 1 0 s = (sub data 24 4, 1, .done t) := by
    rw [digestFrom, Nat.zero_mul, addrAt_zero, readHeader, if_neg hlocal, hread]
    dsimp only
    rw [if_neg (by rw [hclean]; decide), digestFrom, List.append_nil]
  have hact : digestTiles s f k = settle t f k 0 (bytesOf 8 1 ++ sha384 (sub data 24 4)) := by
    refine (act_of_due hdue _).trans ?_
    dsimp only
    rw [hone, hnew, hdata, Nat.sub_zero, hfrom, List.nil_append]
  obtain ⟨hexec, x, hexec', hanswer, _, hnv⟩ :=
    answered_over (e := .memDigest f k) (run_of_due hdue) (congrArg Host.Outcome.next hact) (readRange_done hread)
  exact ⟨hexec, x, hexec', hanswer, hnv⟩

theorem poisonedWords_done {l : List (Nat × Nat)} {i : Nat} {words : List Nat} (h : poisonedWords f k r l i s = (words, n, .done t)) :
    quiet t = quiet s := by
  have hq := poisonedWords_quiet f k r l i s
  rw [h] at hq
  exact hq

theorem memPoisonQuery_outcome {words : List Nat} :
    let a := natAt r.payload 0 8
    let total := if natAt r.payload 8 8 = 0 then 0 else roundUp (a % 8 + natAt r.payload 8 8) 8
    due s f k 0x0607 = some r →
    poisonedWords f k r (pageCuts (addrAt (a / 8 * 8) r.progress) (total - r.progress)) r.progress s = (words, n, .done t) →
    let resp := paged (pieces 8 (r.data ++ (words.map (bytesOf 8)).flatten)) (natAt r.payload 16 4) 8
    exec (.memPoisonQuery f k) s = .next (settle t f k 0 resp) ∧
      ∃ x, exec (.memPoisonQuery f k) s = .next x ∧ Answered x f k r 0 resp ∧ x.nv = s.nv := by
  intro a total hdue hwords resp
  have hact : queryPoison s f k = settle t f k 0 resp := by
    refine (act_of_due hdue _).trans ?_
    dsimp only
    rw [hwords]
  obtain ⟨hexec, x, hexec', hanswer, _, hnv⟩ :=
    answered_over (e := .memPoisonQuery f k) (run_of_due hdue) (congrArg Host.Outcome.next hact) (poisonedWords_done hwords)
  exact ⟨hexec, x, hexec', hanswer, hnv⟩

/-! ## The host's answers -/

theorem run_of_runAs {op : Nat} (h : runAs s f k op = some r) : (mbSlot s f k).run = some r :=
  (Option.filter_eq_some_iff.mp h).1

/-- The last completion of a copy to the host settles it. -/
theorem hostCompletion_settles {hd : List Byte} {hp : List Nat} (hrun : runAs s f k 0x0604 = some r) (hwait : r.wait = .host)
    (hwhole : copyPiece (copyReqOf r.payload) r.progress ≤ r.data.length)
    (hlast : (copyReqOf r.payload).length ≤ r.progress + r.data.length) :
    Settles (.hostRequestCompletion f k hd hp) s s f k 0 (bytesOf 8 (r.progress + r.data.length)) := by
  have hact : hostAnswers s f k hd hp = settle s f k 0 (bytesOf 8 (r.progress + r.data.length)) := by
    unfold hostAnswers
    rw [hrun]
    dsimp only
    rw [if_neg (not_not_intro hwait), if_neg (Nat.not_lt.mpr hwhole), copyFuel_eq, copyFrom_done _ hlast]
  exact settles_of_exec (congrArg Host.Outcome.next hact) (run_of_runAs hrun)

/-- A piece that the host has answered whole goes out to the host. -/
theorem hostCompletion_puts {hd : List Byte} {hp : List Nat} (hrun : runAs s f k 0x0604 = some r) (hwait : r.wait = .host) :
    let c := copyReqOf r.payload
    let m := copyRead c r.progress r.data.length
    let x := { r with wait := .unstarted, data := r.data ++ fit hd m, bad := r.bad ++ (List.range m).map (fun i => hp.contains (i / 8)) }
    r.data.length < copyPiece c r.progress → r.data.length + m = copyPiece c r.progress → c.dstHost = true →
    exec (.hostRequestCompletion f k hd hp) s =
      .next (askHost s f k x (hostPut (addrAt c.dst r.progress) x.data (x.bad.any id))) := by
  intro c m x hshort hwhole hhost
  have hmore : ¬ c.length ≤ r.progress := by
    intro hdone
    have hnone : copyPiece c r.progress = 0 := by
      rw [copyPiece, hhost, endPiece, if_pos rfl, Nat.sub_eq_zero_of_le hdone, Nat.zero_min]
    omega
  have hlen : x.data.length = copyPiece c r.progress := by
    rw [List.length_append, length_fit]
    exact hwhole
  refine congrArg Host.Outcome.next ?_
  unfold hostAnswers
  rw [hrun]
  dsimp only
  rw [if_neg (not_not_intro hwait), if_pos hshort, copyFuel_eq]
  change copyFrom f k c _ x s = _
  rw [copyFrom, if_neg hmore]
  dsimp only
  rw [hlen]
  rw [if_neg (Nat.lt_irrefl _), if_pos hhost]

theorem hostTimeout_settles (hrun : runAs s f k 0x0604 = some r) (hwait : r.wait = .host)
    (hlate : r.at_ + 10 * ticksPerMs ≤ look s.clocks.die 0 0) :
    Settles (.hostRequestTimeout f k) s s f k 0x57 (bytesOf 8 r.progress) := by
  have hact : hostTimesOut s f k = settle s f k 0x57 (bytesOf 8 r.progress) := by
    unfold hostTimesOut
    rw [hrun]
    dsimp only
    rw [windowOver, decide_eq_true hwait, decide_eq_true hlate]
    rfl
  exact settles_of_exec (congrArg Host.Outcome.next hact) (run_of_runAs hrun)

end

/-- Settles O38. -/
theorem memoryCommands : Obligations.MemoryCommands := by
  intro s t u f k p q n r data pois words hd hp
  exact ⟨fun hdue hbad => (memMap_outcomes (t := t) hdue).1 hbad, fun hdue hgood => (memMap_outcomes hdue).2 hgood, memUnmap_outcomes,
    memFill_outcome, memScrub_outcome, memScrub_refused, memCopy_outcome, memCopy_asks, memDigest_outcome, memPoisonQuery_outcome,
    fun hrun hwait => ⟨hostCompletion_settles hrun hwait, hostCompletion_puts hrun hwait⟩, hostTimeout_settles⟩

end Sys2Proof.Machine
end

section
/-! Further parts of the state that operations leave as they were. -/

namespace Sys2Proof.Machine

@[simp] theorem raiseMsix_fabric (s : State) (v : Nat) : (raiseMsix s v).fabric = s.fabric := by
  grind [raiseMsix, bump_fabric, emit_fabric]

@[simp] theorem hostEvent_fabric (s : State) (bit : Nat) : (hostEvent s bit).fabric = s.fabric := by
  grind [hostEvent, raiseMsix_fabric]

@[simp] theorem detect_fabric (s : State) (el : Element) (code : Nat) (hard : Bool) (place : Nat) : (detect s el code hard
    place).fabric = s.fabric := by rfl

@[simp] theorem setJobs_fabric (s : State) (unit : Unit) (l : List CopyJob) : (setJobs s unit l).fabric = s.fabric := by
  unfold setJobs; split <;> simp

@[simp] theorem setStrm_fabric (s : State) (c k n : Nat) (t : Stream) : (setStrm s c k n t).fabric = s.fabric := by rfl

@[simp] theorem writeElems_fabric (s : State) (c k n : Nat) : (writeElems s c k n).fabric = s.fabric := by rfl

@[simp] theorem capsChanged_fabric (s : State) : (capsChanged s).fabric = s.fabric := by
  simp [capsChanged]

@[simp] theorem haltUnit_fabric (s : State) (unit : Unit) (tag : Nat) (h : Halt) : (haltUnit s unit tag h).fabric = s.fabric :=
    by
  fun_cases haltUnit <;> grind [setHub_fabric, setJobs_fabric, setStrm_fabric, writeElems_fabric]

@[simp] theorem addRecord_fabric (s : State) (d : DefectRec) : (addRecord s d).fabric = s.fabric := by
  unfold addRecord; split <;> simp

@[simp] theorem addRecord_mem (s : State) (d : DefectRec) : (addRecord s d).mem = s.mem := by
  unfold addRecord; split <;> simp

@[simp] theorem appendRecord_fabric (s : State) (el : Element) (origin cause : Nat) : (appendRecord s el origin cause).fabric =
    s.fabric := by
  simp [appendRecord]

@[simp] theorem appendRecord_mem (s : State) (el : Element) (origin cause : Nat) : (appendRecord s el origin cause).mem = s.mem
    := by
  simp [appendRecord]

@[simp] theorem takeOut_fabric (s : State) (el : Element) (origin cause : Nat) : (takeOut s el origin cause).fabric = s.fabric
    := by
  unfold takeOut; split <;> simp

@[simp] theorem takeOut_mem (s : State) (el : Element) (origin cause : Nat) : (takeOut s el origin cause).mem = s.mem := by
  unfold takeOut; split <;> simp

end Sys2Proof.Machine
end

section
/-! ## The access schedule and the trains of a Rolben port, R524 to R575 -/

namespace Sys2Proof.Machine
open Sys2Proof.Claims

variable {s t : State} {port mine rand member : Nat} {slots : List (List Nat)} {p : RolPort}

/-! ### What the schedule may change -/

/-- Only the fabric, the counters and what leaves the module differ, and the port's speaker, its start and its loopback delay are as they were. -/
structure SameTurn (port : Nat) (s t : State) : Prop where
  shape : t = { s with fabric := t.fabric, counts := t.counts, outbox := t.outbox }
  named : (portOf t port).named = (portOf s port).named
  await : (portOf t port).await = (portOf s port).await
  loopback : (portOf t port).loopback = (portOf s port).loopback

theorem SameTurn.refl (port : Nat) (s : State) : SameTurn port s s := ⟨rfl, rfl, rfl, rfl⟩

theorem SameTurn.trans {u : State} (h : SameTurn port s t) (g : SameTurn port t u) : SameTurn port s u := by
  refine ⟨?_, g.named.trans h.named, g.await.trans h.await, g.loopback.trans h.loopback⟩
  have hs := h.shape
  have gs := g.shape
  rw [hs] at gs
  exact gs

theorem sameTurn_bump (s : State) (c : Ctr) (u n : Nat) : SameTurn port s (bump s c u n) := ⟨rfl, rfl, rfl, rfl⟩

theorem sameTurn_emit (s : State) (o : Out) : SameTurn port s (emit s o) := ⟨rfl, rfl, rfl, rfl⟩

theorem sameTurn_setPort {v : RolPort} (hnamed : v.named = (portOf s port).named) (hawait : v.await = (portOf s port).await)
    (hloop : v.loopback = (portOf s port).loopback) : SameTurn port s (setPort s port v) := by
  refine ⟨rfl, ?_, ?_, ?_⟩ <;> rw [portOf_setPort]
  · exact hnamed
  · exact hawait
  · exact hloop

theorem sameTurn_each {α : Type} {g : α → State → State} (h : ∀ a t, SameTurn port t (g a t)) (l : List α) (s : State) :
    SameTurn port s (each l s g) := by
  induction l generalizing s with
  | nil => exact .refl port s
  | cons a l ih => exact (h a s).trans (ih _)

/-! ### The window -/

theorem noteStranger_turn (p : RolPort) (now tag member module : Nat) :
    (noteStranger p now tag member module).named = p.named ∧ (noteStranger p now tag member module).await = p.await ∧
      (noteStranger p now tag member module).loopback = p.loopback := by
  unfold noteStranger
  dsimp only
  split
  · exact ⟨rfl, rfl, rfl⟩
  · split <;> exact ⟨rfl, rfl, rfl⟩

theorem sameTurn_windowStrangers (s : State) (slots : List (List Nat)) : SameTurn port s (windowStrangers s port slots) := by
  refine sameTurn_each (fun b t => ?_) _ _
  dsimp only
  split
  · obtain ⟨hnamed, hawait, hloop⟩ := noteStranger_turn (portOf t port) (portNow t port) (bitsOf b 32 32) (bitsOf b 8 5) (bitsOf b 16 14)
    exact (sameTurn_setPort hnamed hawait hloop).trans (sameTurn_bump _ _ _ _)
  · exact .refl port t

theorem sameTurn_countSlots (s : State) (cls : List SlotClass) : SameTurn port s (countSlots s port cls) :=
  sameTurn_each (fun _ t => sameTurn_bump t _ _ _) _ _

theorem sameTurn_backoff (s : State) (rand : Nat) : SameTurn port s (backoff s port rand) := by
  refine .trans (t := setPort s port { portOf s port with
    collisions := (portOf s port).collisions + 1
    skip := rand % 2 ^ min ((portOf s port).collisions + 1) 10 }) ?_ ⟨rfl, rfl, rfl, rfl⟩
  exact sameTurn_setPort rfl rfl rfl

theorem sameTurn_ownBurst (s : State) (own : Option SlotClass) (rand : Nat) : SameTurn port s (ownBurst s port own rand) := by
  unfold ownBurst
  dsimp only
  split
  · exact sameTurn_setPort rfl rfl rfl
  · exact (sameTurn_bump s _ _ _).trans (sameTurn_backoff _ rand)
  · split
    · exact .refl port s
    · refine .trans ?_ (sameTurn_bump _ _ _ _)
      exact sameTurn_setPort rfl rfl rfl

theorem sameTurn_windowSeen (s : State) (port n : Nat) (slots : List (List Nat)) (mine rand : Nat) :
    SameTurn port s (windowSeen s port n slots mine rand).2 := by
  unfold windowSeen
  dsimp only
  refine .trans ?_ (sameTurn_ownBurst _ _ rand)
  refine .trans ?_ (sameTurn_countSlots _ _)
  refine .trans ?_ (sameTurn_windowStrangers _ _)
  split
  · exact sameTurn_emit s _
  · exact .refl port s

/-! ### Speaking -/

theorem sameTurn_speak {at_ : Nat} {seqs : Tab Nat} {again flagged strict : Bool} {rows : List Row}
    (hnamed : p.named = (portOf s port).named) (hawait : p.await = (portOf s port).await)
    (hloop : p.loopback = (portOf s port).loopback) : SameTurn port s (speak s port at_ p seqs again flagged strict rows) := by
  unfold speak
  dsimp only
  refine .trans ?_ (sameTurn_emit _ _)
  exact sameTurn_setPort hnamed hawait hloop

theorem sameTurn_transmit (s : State) (port at_ : Nat) : SameTurn port s (transmit s port at_) := by
  have hspeak (c : Ctr) {p : RolPort} {seqs : Tab Nat} {again flagged strict : Bool} {rows : List Row}
      (hnamed : p.named = (portOf s port).named) (hawait : p.await = (portOf s port).await)
      (hloop : p.loopback = (portOf s port).loopback) :
      SameTurn port s (speak (bump s c port 1) port at_ p seqs again flagged strict rows) :=
    (sameTurn_bump s c port 1).trans (sameTurn_speak hnamed hawait hloop)
  unfold transmit
  dsimp only
  split
  · exact hspeak _ rfl rfl rfl
  · split
    · split
      · exact sameTurn_setPort rfl rfl rfl
      · exact hspeak _ rfl rfl rfl
    · split
      · split
        · exact hspeak _ rfl rfl rfl
        · exact hspeak _ rfl rfl rfl
      · exact hspeak _ rfl rfl rfl

theorem sameTurn_transmit_if (c : Prop) [Decidable c] (s : State) (at_ : Nat) :
    SameTurn port s (if c then transmit s port at_ else s) := by
  split
  · exact sameTurn_transmit s port at_
  · exact .refl port s

/-! ### The ends of the windows, R554 to R556 -/

theorem contentionEnd_eq (hlive : portLive (portOf s port) = true) (hroster : (portOf s port).roster = false)
    (hawait : (portOf s port).await = none) (hend : (portOf s port).idleEdge + 4450 ≤ portNow s port) :
    contentionEnd s port slots mine rand =
      (let w := windowSeen s port 32 slots mine rand
      let q := portOf w.2 port
      match cleanSenders w.1 with
      | [] => setPort w.2 port { q with idleEdge := q.idleEdge + 3200 }
      | m :: l => let u := setPort w.2 port { q with
            named := some m, await := some (m, (portOf s port).idleEdge + 4450), pending := BitVec.ofNat 32 (maskOf (l.filter (· ≠ m))) }
        if m = q.member then transmit u port ((portOf s port).idleEdge + 4450 - loopTicks q) else u) := by
  rw [contentionEnd, hlive, hroster, hawait]
  dsimp only
  rw [if_neg (by simp only [windowTicks, lMax]; simpa using hend)]
  rfl

theorem contention_idle (hlive : portLive (portOf s port) = true) (hroster : (portOf s port).roster = false)
    (hawait : (portOf s port).await = none) (hend : (portOf s port).idleEdge + 4450 ≤ portNow s port) :
    let w := windowSeen s port 32 slots mine rand
    let q := portOf w.2 port
    cleanSenders w.1 = [] → ∃ t, exec (.contentionWindowEnd port slots mine rand) s = .next t ∧
      t = setPort w.2 port { q with idleEdge := q.idleEdge + 3200 } ∧ (portOf t port).named = (portOf s port).named ∧
      t = { s with fabric := t.fabric, counts := t.counts, outbox := t.outbox } := by
  intro w q hnone
  have hact : contentionEnd s port slots mine rand = setPort w.2 port { q with idleEdge := q.idleEdge + 3200 } := by
    rw [contentionEnd_eq hlive hroster hawait hend]
    dsimp only
    rw [hnone]
  have hturn : SameTurn port s (setPort w.2 port { q with idleEdge := q.idleEdge + 3200 }) :=
    (sameTurn_windowSeen s port 32 slots mine rand).trans (sameTurn_setPort rfl rfl rfl)
  exact ⟨_, congrArg Host.Outcome.next hact, rfl, hturn.named, hturn.shape⟩

theorem loopTicks_congr {p q : RolPort} (h : p.loopback = q.loopback) : loopTicks p = loopTicks q := by
  rw [loopTicks, loopTicks, h]

/-- A state that spoke, or not, after the port took a turn `x`. -/
theorem turn_named {w : State} {c : Prop} [Decidable c] {v : RolPort} {m start at_ : Nat} (hw : SameTurn port s w)
    (hnamed : v.named = some m) (hawait : v.await = some (m, start)) :
    let t := if c then transmit (setPort w port v) port at_ else setPort w port v
    (portOf t port).named = some m ∧ (portOf t port).await = some (m, start) ∧
      t = { s with fabric := t.fabric, counts := t.counts, outbox := t.outbox } := by
  intro t
  have ht : SameTurn port (setPort w port v) t := sameTurn_transmit_if c _ at_
  refine ⟨?_, ?_, ?_⟩
  · rw [ht.named, portOf_setPort, hnamed]
  · rw [ht.await, portOf_setPort, hawait]
  · have hshape := ht.shape
    rw [hw.shape] at hshape
    exact hshape

theorem contention_named (hlive : portLive (portOf s port) = true) (hroster : (portOf s port).roster = false)
    (hawait : (portOf s port).await = none) (hend : (portOf s port).idleEdge + 4450 ≤ portNow s port) {m : Nat} {l : List Nat} :
    let p := portOf s port
    let w := windowSeen s port 32 slots mine rand
    let q := portOf w.2 port
    cleanSenders w.1 = m :: l → let u := setPort w.2 port { q with
        named := some m, await := some (m, p.idleEdge + 4450), pending := BitVec.ofNat 32 (maskOf (l.filter (· ≠ m))) }
      exec (.contentionWindowEnd port slots mine rand) s = .next (if m = q.member then transmit u port (p.idleEdge + 4450 - loopTicks p) else u) ∧
      ∃ t, exec (.contentionWindowEnd port slots mine rand) s = .next t ∧ (portOf t port).named = some m ∧
        (portOf t port).await = some (m, p.idleEdge + 4450) ∧
        t = { s with fabric := t.fabric, counts := t.counts, outbox := t.outbox } := by
  intro p w q hclean u
  have hturn := sameTurn_windowSeen s port 32 slots mine rand
  have hact : contentionEnd s port slots mine rand = if m = q.member then transmit u port (p.idleEdge + 4450 - loopTicks p) else u := by
    rw [contentionEnd_eq hlive hroster hawait hend]
    dsimp only
    rw [hclean, loopTicks_congr hturn.loopback]
  have hexec : exec (.contentionWindowEnd port slots mine rand) s = .next _ := congrArg Host.Outcome.next hact
  exact ⟨hexec, _, hexec, turn_named hturn rfl rfl⟩

theorem entry_named {m : Nat} (hnamed : (portOf s port).named = some m) (hlive : portLive (portOf s port) = true)
    (hroster : (portOf s port).roster = true) (hawait : (portOf s port).await = none)
    (hend : (portOf s port).idleEdge + 1650 ≤ portNow s port) :
    let p := portOf s port
    let w := windowSeen s port 4 slots mine rand
    let q := portOf w.2 port
    let u := setPort w.2 port { q with
      await := some (m, p.idleEdge + 1650), pending := q.pending ||| BitVec.ofNat 32 (maskOf (cleanSenders w.1)) }
    exec (.entryWindowEnd port slots mine rand) s = .next (if m = q.member then transmit u port (p.idleEdge + 1650 - loopTicks p) else u) ∧
    ∃ t, exec (.entryWindowEnd port slots mine rand) s = .next t ∧ (portOf t port).await = some (m, p.idleEdge + 1650) ∧
      t = { s with fabric := t.fabric, counts := t.counts, outbox := t.outbox } := by
  intro p w q u
  have hturn := sameTurn_windowSeen s port 4 slots mine rand
  have hact : entryEnd s port slots mine rand = if m = q.member then transmit u port (p.idleEdge + 1650 - loopTicks p) else u := by
    rw [entryEnd, hnamed]
    dsimp only
    rw [hlive, hroster, hawait, if_neg (by simp only [windowTicks, lMax]; simpa using hend), ← loopTicks_congr hturn.loopback]
    rfl
  have hexec : exec (.entryWindowEnd port slots mine rand) s = .next _ := congrArg Host.Outcome.next hact
  obtain ⟨_, hspeaker, hshape⟩ := turn_named (c := m = q.member) (at_ := p.idleEdge + 1650 - loopTicks p)
    (v := { q with await := some (m, p.idleEdge + 1650), pending := q.pending ||| BitVec.ofNat 32 (maskOf (cleanSenders w.1)) })
    hturn (hturn.named.trans hnamed) rfl
  exact ⟨hexec, _, hexec, hspeaker, hshape⟩

/-! ### Silence, collisions and acknowledgements, R556 to R559 -/

theorem startTolerance_expires {m start : Nat} :
    let p := portOf s port
    p.await = some (m, start) → start + 313 ≤ portNow s port → ∃ t, exec (.startToleranceExpire port) s = .next t ∧
      t = setPort (bump (bump s ctrPortSilent port 1) ctrPortBreaks port (bn p.roster)) port (fallBack p (start + 313 - 1250)) ∧
      (portOf t port).roster = false ∧ (portOf t port).idleEdge = start + 313 - 1250 ∧ (portOf t port).await = none := by
  intro p hawait hlate
  have hact : startSilent s port =
      setPort (bump (bump s ctrPortSilent port 1) ctrPortBreaks port (bn p.roster)) port (fallBack p (start + 313 - 1250)) := by
    rw [startSilent, hawait]
    dsimp only
    exact if_neg (Nat.not_lt.mpr hlate)
  refine ⟨_, congrArg Host.Outcome.next hact, rfl, ?_⟩
  rw [portOf_setPort]
  exact ⟨rfl, rfl, rfl⟩

theorem trainCollision_falls :
    let p := portOf s port
    let now := portNow s port
    p.joined = true → ∃ t, exec (.trainCollision port false rand) s = .next t ∧
      t = setPort (bump (bump s ctrPortTrainCollisions port 1) ctrPortHdrFail port 1) port (atIdleEdge (fallBack p now) now) ∧
      (portOf t port).roster = false ∧ (portOf t port).idleEdge = now ∧ (portOf t port).edgeSeen = true := by
  intro p now hjoined
  have hact : trainCollides s port false rand =
      setPort (bump (bump s ctrPortTrainCollisions port 1) ctrPortHdrFail port 1) port (atIdleEdge (fallBack p now) now) := by
    rw [trainCollides, hjoined]
    rfl
  refine ⟨_, congrArg Host.Outcome.next hact, rfl, ?_⟩
  rw [portOf_setPort]
  exact ⟨rfl, rfl, rfl⟩

theorem joinSilence_speaks :
    let p := portOf s port
    let now := portNow s port
    p.joined = true → p.edgeSeen = false → p.sending = none → p.joinAt + 100 * 1250 ≤ now →
      exec (.joinSilenceExpire port) s =
        .next (speak (bump s ctrPortNulls port 1) port now { p with sending := some none } [] false false false []) ∧
      ∃ t b, exec (.joinSilenceExpire port) s = .next t ∧ t.outbox = .train port now b :: s.outbox ∧
        (portOf t port).sending = some none ∧ t = { s with fabric := t.fabric, counts := t.counts, outbox := t.outbox } := by
  intro p now hjoined hedge hsending hlate
  have hact : joinSilence s port =
      speak (bump s ctrPortNulls port 1) port now { p with sending := some none } [] false false false [] := by
    rw [joinSilence, hjoined, hedge, hsending, windowOver, decide_eq_true (show p.joinAt + 100 * portUs ≤ portNow s port from hlate)]
    rfl
  have hexec : exec (.joinSilenceExpire port) s = .next _ := congrArg Host.Outcome.next hact
  have hturn : SameTurn port s (speak (bump s ctrPortNulls port 1) port now { p with sending := some none } [] false false false []) :=
    (sameTurn_bump s _ _ _).trans (sameTurn_speak rfl rfl rfl)
  refine ⟨hexec, _, _, hexec, rfl, ?_, hturn.shape⟩
  exact congrArg RolPort.sending (portOf_setPort (bump s ctrPortNulls port 1) port _)

theorem loopback_noted {delay : Nat} :
    let p := portOf s port
    p.joined = true → ∃ t, exec (.loopbackMeasure port delay) s = .next t ∧ portOf t port = { p with loopback := delay } ∧
      (∀ x, x ≠ port → portOf t x = portOf s x) ∧ t.mem = s.mem := by
  intro p hjoined
  have hact : measure s port delay = setPort s port { p with loopback := delay } := if_pos hjoined
  exact ⟨_, congrArg Host.Outcome.next hact, portOf_setPort .., fun x hx => portOf_setPort_ne s _ hx, rfl⟩

theorem ackHold_wants :
    let p := portOf s port
    p.owed.any (fun o => decide (o.2 + 250 * 1250 ≤ portNow s port)) = true → ∃ t, exec (.ackHoldExpire port) s = .next t ∧
      portOf t port = { p with wantNull := true } ∧ t.mem = s.mem := by
  intro p howed
  have hact : ackHold s port = setPort s port { p with wantNull := true } := if_pos howed
  exact ⟨_, congrArg Host.Outcome.next hact, portOf_setPort .., rfl⟩

/-! ### Trains that arrive, R562 to R566 -/

theorem countCodewords_sup (s : State) (port : Nat) (data : List Byte) (bad : List Nat) (corrected : Nat) :
    (countCodewords s port data bad corrected).sup = s.sup := rfl

theorem endOfTrain_sup (s : State) (port from_ tail : Nat) : (endOfTrain s port from_ tail).sup = s.sup := rfl

theorem receiverFull_countCodewords (s : State) (port : Nat) (data : List Byte) (bad : List Nat) (corrected : Nat) :
    receiverFull (countCodewords s port data bad corrected) port = receiverFull s port := rfl

theorem receiverFull_endOfTrain (s : State) (port from_ tail : Nat) :
    receiverFull (endOfTrain s port from_ tail) port = receiverFull s port := rfl

theorem receiverFull_bump (s : State) (c : Ctr) (u n port : Nat) : receiverFull (bump s c u n) port = receiverFull s port := rfl

theorem trainTaken_congr {v : State} {a b : State} {x : Bool} {from_ head : Nat} (hsup : v.sup = s.sup)
    (hfull : receiverFull v port = receiverFull s port) :
    takeAck (if (x || v.sup.resetting) = true then v else if receiverFull v port = true then a else b) port from_ head =
      takeAck (if (x || s.sup.resetting) = true then v else if receiverFull s port = true then a else b) port from_ head := by
  rw [hsup, hfull]

theorem trainReceive_good {data : List Byte} {y : Symbols} :
    let p := portOf s port
    let head := natOf (data.take 256)
    let u := countCodewords s port data y.badWords y.corrected
    let from_ := bitsOf head 8 5
    p.joined = true → p.quiet = false → headDecodes data head = true →
    stranger u p (bitsOf head 32 32) from_ (bitsOf head 16 14) = false → from_ ≠ p.member →
    let v := bump (bump (endOfTrain u port from_ (natOf (sub data (256 + bitsOf head 96 21) 64))) ctrPortReceived port 1)
      ctrPortCrcFail port (bn (!(trainCrcOk head data)))
    (bitAt (bitsOf head 64 32) p.member = true → s.sup.resetting = false → receiverFull s port = false →
      exec (.trainReceive port data y .good) s = .next (takeAck (takeTrain v port from_ head data y.badWords) port from_ head) ∧
      ∃ t, exec (.trainReceive port data y .good) s = .next t ∧ t.nv = s.nv ∧ t.engines = s.engines) ∧
    (bitAt (bitsOf head 64 32) p.member = true → s.sup.resetting = false → receiverFull s port = true →
      exec (.trainReceive port data y .good) s = .next (takeAck (bump v ctrPortOverruns port 1) port from_ head)) ∧
    (bitAt (bitsOf head 64 32) p.member = false ∨ s.sup.resetting = true →
      exec (.trainReceive port data y .good) s = .next (takeAck v port from_ head)) := by
  intro p head u from_ hjoined hquiet hdecodes hknown hother v
  have hsup : v.sup = s.sup := by rw [bump_sup, bump_sup, endOfTrain_sup, countCodewords_sup]
  have hfull : receiverFull v port = receiverFull s port := by
    rw [receiverFull_bump, receiverFull_bump, receiverFull_endOfTrain, receiverFull_countCodewords]
  have hact : exec (.trainReceive port data y .good) s = .next (takeAck
      (if (!(bitAt (bitsOf head 64 32) p.member) || s.sup.resetting) = true then v
      else if receiverFull s port = true then bump v ctrPortOverruns port 1
      else takeTrain v port from_ head data y.badWords) port from_ head) := by
    refine congrArg Host.Outcome.next ?_
    rw [trainArrives]
    dsimp only
    rw [if_neg (by rw [hjoined, hquiet]; decide), if_neg (by decide), if_neg (by rw [hdecodes]; decide), if_neg (by rw [hknown]; decide),
      if_neg hother]
    exact trainTaken_congr hsup hfull
  refine ⟨fun haddressed hruns hroom => ?_, fun haddressed hruns hroom => ?_, fun hpasses => ?_⟩
  · have hexec := hact
    rw [haddressed, hruns, hroom, if_neg (by decide), if_neg (by decide)] at hexec
    have hq : quiet (takeAck (takeTrain v port from_ head data y.badWords) port from_ head) = quiet s := by
      rw [takeAck_quiet, takeTrain_quiet, bump_quiet, bump_quiet, endOfTrain_quiet, countCodewords_quiet]
    exact ⟨hexec, _, hexec, nv_of_quiet hq, engines_of_quiet hq⟩
  · rw [hact, haddressed, hruns, hroom, if_neg (by decide), if_pos rfl]
  · rw [hact, if_pos (by rcases hpasses with h | h <;> simp [h])]

/-! ### Units that a port lets go -/

theorem haltOwners_ports (s : State) (l : List (Unit × Nat × Nat)) : (haltOwners s l).fabric.ports = s.fabric.ports := by
  refine each_keeps (P := fun q : State => q.fabric.ports) (fun o q => ?_) l s
  dsimp only
  split
  · rfl
  · rw [haltUnit_fabric]

theorem portOf_haltOwners (s : State) (l : List (Unit × Nat × Nat)) (x : Nat) : portOf (haltOwners s l) x = portOf s x := by
  rw [portOf, haltOwners_ports]
  rfl

theorem haltUnit_mem {unit : Unit} {tag : Nat} {h : Halt} (s : State) (hunit : ∀ c k n, unit ≠ .stream c k n) :
    (haltUnit s unit tag h).mem = s.mem := by
  cases unit with
  | stream c k n => exact absurd rfl (hunit c k n)
  | _ => rfl

theorem haltOwners_mem {l : List (Unit × Nat × Nat)} (s : State) (h : ∀ o ∈ l, ∀ c k n, o.1 ≠ .stream c k n) :
    (haltOwners s l).mem = s.mem := by
  induction l generalizing s with
  | nil => rfl
  | cons o l ih =>
    refine (ih _ fun x hx => h x (List.mem_cons_of_mem o hx)).trans ?_
    dsimp only
    split
    · rfl
    · exact haltUnit_mem s (h o List.mem_cons_self)

theorem noStream_owners {rows : List Row} (h : NoStream rows) : ∀ o ∈ (rows.map (·.owners)).flatten, ∀ c k n, o.1 ≠ .stream c k n := by
  intro o ho
  obtain ⟨l, hl, ho⟩ := List.mem_flatten.mp ho
  obtain ⟨r, hr, rfl⟩ := List.mem_map.mp hl
  exact h r hr o ho

/-! ### Assembly, retransmission and the loss of a pair, R560 to R567 -/

theorem trainRows_append (l : List Row) : trainRows l ++ l.drop (trainRows l).length = l := by
  cases l with
  | nil => rfl
  | cons r rs =>
    rw [trainRows]
    exact List.prefix_iff_eq_append.mp (List.takeWhile_prefix _)

theorem mem_drop_trainRows {l : List Row} {e : Row} (he : e ∈ l) (hnot : e ∉ trainRows l) : e ∈ l.drop (trainRows l).length := by
  rw [← trainRows_append l] at he
  exact (List.mem_append.mp he).resolve_left hnot

/-- R560: the train made of the rows `q.1`, when the rows `q.2` and those from `n` on are left. -/
def assembled (u : State) (port n : Nat) (strict : Bool) (q : List Row × List Row) (merged : Nat) : State :=
  let p := portOf u port
  let members := membersOf ((q.1.map (·.mask.toNat)).foldl Nat.lor 0)
  let left := q.2 ++ p.queue.drop n
  let train : Train := { seqs := members.map (fun m => (m, look p.sendSeq m 0)), rows := q.1, flagged := q.1.any (·.flagged),
                         strict := strict, first := 0, last := [], tries := [], waiting := members }
  bump (setPort u port { p with
    queue := left
    queueAt := (left.head?).elim p.queueAt (·.queuedAt)
    ready := p.ready ++ [train]
    sendSeq := members.foldl (fun v m => put v m ((look v m 0 + 1) % 2 ^ 24)) p.sendSeq }) ctrFabMerged (dieOfPort port) merged

theorem assemble_eq {r : Row} {rs : List Row} :
    let u := dropLost s port
    (portOf u port).queue = r :: rs → (portOf u port).joined = true → r.queuedAt + 2 * 1250 ≤ portNow u port →
      assemble s port = assembled u port (trainRows (r :: rs)).length r.strict
        (takeRows 0 0 (mergeRows (trainRows (r :: rs))).1) (mergeRows (trainRows (r :: rs))).2 := by
  intro u hqueue hjoined hlate
  unfold assemble assembled
  dsimp only
  rw [hqueue]
  dsimp only
  rw [hjoined, windowOver, decide_eq_true (show r.queuedAt + 2 * portUs ≤ portNow u port from hlate), if_neg (by simp)]

theorem portOf_assembled (u : State) (port n : Nat) (strict : Bool) (q : List Row × List Row) (merged : Nat) :
    ∃ x, x.rows = q.1 ∧ (portOf (assembled u port n strict q merged) port).ready = (portOf u port).ready ++ [x] := by
  refine ⟨_, ?_, congrArg RolPort.ready (portOf_setPort u port _)⟩
  rfl

theorem queue_assembled (u : State) (port n : Nat) (strict : Bool) (q : List Row × List Row) (merged : Nat) :
    let t := assembled u port n strict q merged
    (portOf t port).queue = q.2 ++ (portOf u port).queue.drop n ∧
      (portOf t port).queueAt = (((portOf t port).queue.head?).elim (portOf u port).queueAt (·.queuedAt)) ∧
      (portOf t port).retained = (portOf u port).retained := by
  intro t
  have ht : portOf t port = _ := portOf_setPort u port _
  rw [ht]
  exact ⟨rfl, rfl, rfl⟩

theorem trainAssemble_readies {r : Row} {rs : List Row} :
    let u := dropLost s port
    (portOf u port).queue = r :: rs → (portOf u port).joined = true → r.queuedAt + 2 * 1250 ≤ portNow u port →
      ∃ t x, exec (.trainAssemble port) s = .next t ∧ (portOf t port).ready = (portOf u port).ready ++ [x] ∧
        x.rows = (takeRows 0 0 (mergeRows (trainRows (r :: rs))).1).1 ∧ (∀ e ∈ rs, e ∉ trainRows (r :: rs) → e ∈ (portOf t port).queue) ∧
        (portOf t port).queueAt = (((portOf t port).queue.head?).elim (portOf u port).queueAt (·.queuedAt)) ∧
        (portOf t port).retained = (portOf u port).retained ∧ t.mem = u.mem := by
  intro u hqueue hjoined hlate
  obtain ⟨x, hrows, hready⟩ := portOf_assembled u port (trainRows (r :: rs)).length r.strict
    (takeRows 0 0 (mergeRows (trainRows (r :: rs))).1) (mergeRows (trainRows (r :: rs))).2
  obtain ⟨hleft, hat, hretained⟩ := queue_assembled u port (trainRows (r :: rs)).length r.strict
    (takeRows 0 0 (mergeRows (trainRows (r :: rs))).1) (mergeRows (trainRows (r :: rs))).2
  refine ⟨_, x, congrArg Host.Outcome.next (assemble_eq hqueue hjoined hlate), hready, hrows, fun e he hnot => ?_, hat, hretained, rfl⟩
  rw [hleft, hqueue]
  exact List.mem_append_right _ (mem_drop_trainRows (List.mem_cons_of_mem r he) hnot)

theorem retransmit_queues :
    let p := portOf s port
    ∃ t, exec (.retransmitTimeout port member) s = .next t ∧ t.mem = s.mem ∧
      portOf t port = { p with resend := (portOf t port).resend } ∧ (∀ x ∈ p.resend, x ∈ (portOf t port).resend) ∧
      (∀ x ∈ p.retained, ∀ q, x.waiting.contains member = true → look x.last member 0 + 500 * 1250 ≤ portNow s port →
        look? x.seqs member = some q → (member, q) ∈ (portOf t port).resend) := by
  intro p
  refine ⟨resendLate s port member, rfl, rfl, ?_⟩
  rw [resendLate, portOf_setPort]
  refine ⟨rfl, fun x hx => List.mem_append_left _ hx, fun x hx q hwaits hlate hseq => ?_⟩
  by_cases hheld : (member, q) ∈ p.resend
  · exact List.mem_append_left _ hheld
  · refine List.mem_append_right _ (List.mem_filter.mpr ⟨List.mem_filterMap.mpr ⟨x, hx, ?_⟩, by simpa using hheld⟩)
    rw [hwaits, windowOver, decide_eq_true (show look x.last member 0 + 500 * portUs ≤ portNow s port from hlate), hseq]
    rfl

theorem dropWaiting_waits {l : List Train} {x : Train} (h : x ∈ dropWaiting member l) : x.waiting.contains member = false := by
  obtain ⟨y, _, rfl⟩ := List.mem_map.mp (List.mem_filter.mp h).1
  simp

/-- R567: the owners of the rows of `l` that member `m` was to answer. -/
def ownersLost (m : Nat) (l : List Train) : List (Unit × Nat × Nat) :=
  ((l.filter (fun t => t.waiting.contains m)).map (fun t => (t.rows.map (fun r => r.owners.filter (fun o => o.2.2 = m))).flatten)).flatten

theorem ownersLost_noStream {l : List Train} (h : NoStream (l.flatMap (·.rows))) :
    ∀ o ∈ ownersLost member l, ∀ c k n, o.1 ≠ .stream c k n := by
  intro o ho
  obtain ⟨ls, hls, ho⟩ := List.mem_flatten.mp ho
  obtain ⟨x, hx, rfl⟩ := List.mem_map.mp hls
  obtain ⟨ls, hls, ho⟩ := List.mem_flatten.mp ho
  obtain ⟨r, hr, rfl⟩ := List.mem_map.mp hls
  exact h r (List.mem_flatMap.mpr ⟨x, (List.mem_filter.mp hx).1, hr⟩) o (List.mem_filter.mp ho).1

theorem losePair_eq {x : Train} (hx : x ∈ (portOf s port).retained) (hwaits : x.waiting.contains member = true)
    (hlate : x.first + 4000 * 1250 ≤ portNow s port) :
    losePair s port member = haltOwners (detect (bump (setPort s port { portOf s port with
      lost := addTo (portOf s port).lost member
      retained := dropWaiting member (portOf s port).retained
      resend := (portOf s port).resend.filter (fun x => x.1 ≠ member) }) ctrPortLost port 1) { kind := 5, id := port } 0x0F false 0)
      (ownersLost member (portOf s port).retained) := by
  unfold losePair
  dsimp only
  rw [if_neg]
  · rfl
  · rw [Bool.not_eq_true', Bool.not_eq_false]
    refine List.any_eq_true.mpr ⟨x, hx, ?_⟩
    rw [hwaits, windowOver, windowOver, decide_eq_true (show x.first + 4000 * portUs ≤ portNow s port from hlate), Bool.or_true]
    rfl

theorem pairLost_drops :
    let p := portOf s port
    (∃ x ∈ p.retained, x.waiting.contains member = true ∧ x.first + 4000 * 1250 ≤ portNow s port) →
      ∃ t, exec (.pairLost port member) s = .next t ∧ (portOf t port).lost.contains member = true ∧
        (∀ x ∈ (portOf t port).retained, x.waiting.contains member = false) ∧
        (NoStream (p.retained.flatMap (·.rows)) → t.mem = s.mem) := by
  intro p ⟨x, hx, hwaits, hlate⟩
  refine ⟨_, congrArg Host.Outcome.next (losePair_eq hx hwaits hlate), ?_⟩
  rw [portOf_haltOwners, portOf, detect_fabric, bump_fabric, ← portOf, portOf_setPort]
  exact ⟨(contains_addTo ..).trans (by simp), fun x hx => dropWaiting_waits hx,
    fun hrows => (haltOwners_mem _ (ownersLost_noStream hrows)).trans (detect_mem ..)⟩

/-! ### Fences and end-to-end acknowledgements, R568 and R541 -/

theorem portFence_fences {routes : List (Nat × Nat × Nat)} (hfails : portFails (portOf s port) (portNow s port) = true) :
    exec (.portFence port routes) s = .next (fencePort (detect s { kind := 5, id := port } 0x0F true 0) port 1 0x0F routes) :=
  congrArg Host.Outcome.next (if_pos hfails)

theorem fencePort_eq {origin cause : Nat} {routes : List (Nat × Nat × Nat)} (henabled : portEnabled s.fuses.ordering port = true)
    (hnew : s.nv.fenceBits.contains ⟨5, port⟩ = false) :
    ∃ w, fencePort s port origin cause routes =
        leaveDomain (haltOwners (setPort w port { RolPort.fresh with loopback := (portOf s port).loopback })
          ((((portOf s port).queue ++ ((portOf s port).ready ++ (portOf s port).retained).flatMap (·.rows)).map (·.owners)).flatten)) ∧
      w.nv.fenceBits = s.nv.fenceBits ++ [⟨5, port⟩] ∧ w.engines = s.engines ∧ w.mem = s.mem := by
  refine ⟨_, if_neg (by rw [hnew, henabled]; decide), takeOut_fenceBits s ⟨5, port⟩ origin cause,
    takeOut_engines s ⟨5, port⟩ origin cause, takeOut_mem s ⟨5, port⟩ origin cause⟩

theorem fencePort_effect {origin cause : Nat} {routes : List (Nat × Nat × Nat)} (henabled : portEnabled s.fuses.ordering port = true)
    (hnew : s.nv.fenceBits.contains ⟨5, port⟩ = false) :
    let p := portOf s port
    let t := fencePort s port origin cause routes
    t.nv.fenceBits.contains ⟨5, port⟩ = true ∧ portOf t port = { RolPort.fresh with loopback := p.loopback } ∧ t.engines = s.engines ∧
      (NoStream (p.queue ++ (p.ready ++ p.retained).flatMap (·.rows)) → t.mem = s.mem) := by
  intro p
  obtain ⟨w, ht, hbits, hengines, hmem⟩ := fencePort_eq (origin := origin) (cause := cause) (routes := routes) henabled hnew
  rw [ht]
  generalize hl : (List.map (fun r : Row => r.owners) _).flatten = l
  intro t
  have hquiet : quiet t = quiet w :=
    (leaveDomain_quiet _).trans ((haltOwners_quiet _ l).trans (setPort_quiet w port _))
  refine ⟨?_, ?_, (engines_of_quiet hquiet).trans hengines, fun hrows => ?_⟩
  · rw [nv_of_quiet hquiet, hbits]
    simp
  · exact (portOf_leaveDomain _ port).trans ((portOf_haltOwners _ l port).trans (portOf_setPort w port _))
  · exact (congrArg State.mem (leaveDomain_shape _)).trans ((haltOwners_mem _ (hl ▸ noStream_owners hrows)).trans hmem)

theorem sendE2e_effect {e : E2e} (hpair : look? s.fabric.e2eIn member = some e) :
    let t := sendE2e s member
    look? t.fabric.e2eIn member = some { e with unacked := 0 } ∧ t = { s with fabric := t.fabric, counts := t.counts } := by
  rw [sendE2e, hpair]
  exact ⟨look?_put_same .., rfl⟩

theorem e2eAck_sends {e : E2e} (hpair : look? s.fabric.e2eIn member = some e) (howes : e.unacked ≠ 0)
    (hlate : e.since + 50 * 1250 ≤ portNow s e.clock) :
    exec (.e2eAckDue member) s = .next (sendE2e s member) ∧
      ∃ t, exec (.e2eAckDue member) s = .next t ∧ look? t.fabric.e2eIn member = some { e with unacked := 0 } ∧
        t = { s with fabric := t.fabric, counts := t.counts } := by
  have hact : e2eDue s member = sendE2e s member := by
    rw [e2eDue, hpair]
    dsimp only
    rw [windowOver, decide_eq_true (show e.since + 50 * portUs ≤ portNow s e.clock from hlate), decide_eq_true howes]
    rfl
  have hexec : exec (.e2eAckDue member) s = .next _ := congrArg Host.Outcome.next hact
  exact ⟨hexec, _, hexec, sendE2e_effect hpair⟩

/-- Settles O55. -/
theorem fabricSchedule : Obligations.FabricSchedule := by
  intro s port mine rand member delay slots y data routes p now
  refine ⟨fun hlive hroster hawait hend => ⟨contention_idle hlive hroster hawait hend, fun m l => contention_named hlive hroster hawait hend⟩,
    fun m hnamed hlive hroster hawait hend => entry_named hnamed hlive hroster hawait hend, fun m start => startTolerance_expires,
    trainCollision_falls, joinSilence_speaks, loopback_noted, ackHold_wants, trainReceive_good, fun r rs => trainAssemble_readies,
    retransmit_queues, pairLost_drops, fun hfails => ⟨portFence_fences hfails, fun henabled hnew => ?_⟩,
    fun e hpair howes hlate => e2eAck_sends hpair howes hlate⟩
  obtain ⟨hfenced, hport, hengines, hmem⟩ :=
    fencePort_effect (s := detect s { kind := 5, id := port } 0x0F true 0) (origin := 1) (cause := 0x0F) (routes := routes) henabled hnew
  exact ⟨_, portFence_fences hfails, hfenced, hport, hengines, hmem⟩

end Sys2Proof.Machine
end

section
/-! ## The resets under way -/

namespace Sys2Proof.Machine

/-- The resets decided and not over, and whether the module is resetting. -/
def resetTable (s : State) : List Reset × Bool := (s.sup.resets, s.sup.resetting)

/-- The state and the partition resets of each slice of a table. -/
def headsOf (t : Tab Slice) : Nat → Option (SliceState × Nat) := fun h => (look? t h).map (fun l => (l.state, l.partResets))

/-- The state and the partition resets of each slice. -/
def sliceHeads (s : State) : Nat → Option (SliceState × Nat) := headsOf s.slices

theorem sliceHeads_setSlice {s : State} {h : Nat} {l v : Slice} (hl : look? s.slices h = some l) (hstate : v.state = l.state)
    (hresets : v.partResets = l.partResets) : sliceHeads (setSlice s h v) = sliceHeads s := by
  funext k
  unfold sliceHeads headsOf setSlice
  dsimp only
  by_cases hk : k = h
  · rw [hk, look?_put_same, hl]
    exact congrArg some (Prod.ext hstate hresets)
  · rw [look?_put_ne _ _ hk]

end Sys2Proof.Machine
end

section
/-! Further parts of the state that operations leave as they were. -/

namespace Sys2Proof.Machine

@[simp] theorem mctp_resetTable (s : State) (code : Nat) (payload : List Byte) : resetTable (mctp s code payload) = resetTable s
    := by rfl

@[simp] theorem trayEvent_resetTable (s : State) (event : Nat) (detail : List Byte) : resetTable (trayEvent s event detail) =
    resetTable s := by rfl

@[simp] theorem detect_resetTable (s : State) (el : Element) (code : Nat) (hard : Bool) (place : Nat) : resetTable (detect s el
    code hard place) = resetTable s := by rfl

@[simp] theorem injectionSeen_resetTable (s : State) (unit id : Nat) : resetTable (injectionSeen s unit id) = resetTable s := by rfl

@[simp] theorem detectAt_resetTable (s : State) (el : Element) (cls unit id : Nat) (hard : Bool) : resetTable (detectAt s el cls
    unit id hard) = resetTable s := by rfl

@[simp] theorem setRingWr_sup (s : State) (c : Nat) (v : Slot) (i wr : Nat) (ph : Bool) : (setRingWr s c v i wr ph).sup = s.sup
    := by rfl

@[simp] theorem writeRecord_sup (s : State) (c k r : Nat) : (writeRecord s c k r).sup = s.sup := by
  unfold writeRecord; split <;> simp

@[simp] theorem reportError_sup (s : State) (c k kind cause unit step row col : Nat) (et : Int) (detail : Nat) : (reportError s
    c k kind cause unit step row col et detail).sup = s.sup := by
  simp [reportError]

@[simp] theorem closeEnds_sup (s : State) (c k : Nat) : (closeEnds s c k).sup = s.sup := by rfl

@[simp] theorem setConf_sup (s : State) (h config : Nat) (v : Conf) : (setConf s h config v).sup = s.sup := by
  unfold setConf; split <;> simp

@[simp] theorem dropWindow_sup (s : State) (c k : Nat) : (dropWindow s c k).sup = s.sup := by
  grind [dropWindow, setConf_sup]

@[simp] theorem faultSlot_sup (s : State) (c k : Nat) : (faultSlot s c k).sup = s.sup := by
  simp [faultSlot]

@[simp] theorem noteFault_sup (s : State) (c k cause unit addr : Nat) : (noteFault s c k cause unit addr).sup = s.sup := by rfl

@[simp] theorem rejectStep_sup (s : State) (c k step cause unit row col : Nat) : (rejectStep s c k step cause unit row col).sup
    = s.sup := by
  simp [rejectStep]

@[simp] theorem poisonStop_sup (s : State) (c k step unit : Nat) : (poisonStop s c k step unit).sup = s.sup := by
  simp [poisonStop]

@[simp] theorem consumePoison_resetTable (s : State) (c k step cls : Nat) : resetTable (consumePoison s c k step cls) =
    resetTable s := by
  grind [consumePoison, detectAt_resetTable, poisonStop_sup, resetTable]

@[simp] theorem selectSlot_sup (s : State) (c : Nat) : (selectSlot s c).sup = s.sup := by
  grind [selectSlot, bump_sup, onSlot_sup, setCore_sup]

@[simp] theorem settleStop_sup (s : State) (c k : Nat) : (settleStop s c k).sup = s.sup := by
  grind [settleStop, dropWindow_sup, onSlot_sup]

@[simp] theorem settleBlock_sup (s : State) (c k : Nat) : (settleBlock s c k).sup = s.sup := by
  unfold settleBlock; split <;> simp

@[simp] theorem settleBeacon_sup (s : State) (c k : Nat) : (settleBeacon s c k).sup = s.sup := by
  grind [settleBeacon, onSlot_sup, post_sup]

@[simp] theorem settleCore_sup (s : State) (c : Nat) : (settleCore s c).sup = s.sup := by
  simp [settleCore, each_keeps State.sup]

@[simp] theorem completeStep_sup (s : State) (c k step : Nat) : (completeStep s c k step).sup = s.sup := by
  simp [completeStep]

theorem takeReady_sup (s : State) (c k h : Nat) {y0 : Nat} {t : State} (h : takeReady s c k h = some (y0, t)) : t.sup = s.sup :=
    by
  grind [takeReady, onSlot_sup]

@[simp] theorem outsideWrite_sup (s : State) (c off : Nat) (l : List Byte) (mask : List Bool) : (outsideWrite s c off l
    mask).sup = s.sup := by
  unfold outsideWrite; split <;> simp

@[simp] theorem forwardStep_sup (s : State) (c k step : Nat) : (forwardStep s c k step).sup = s.sup := by
  grind [forwardStep, completeStep_sup, onSlot_sup, settleCore_sup]

@[simp] theorem startWalk_sup (s : State) (unit : Unit) (a : Nat) (write : Bool) : (startWalk s unit a write).sup = s.sup := by
  unfold startWalk; split <;> simp

@[simp] theorem lookedUp_sup (s : State) (unit : Unit) (missed : Bool) : (lookedUp s unit missed).sup = s.sup := by
  grind [lookedUp, bump_sup]

@[simp] theorem snoopLine_sup (s : State) (line : Nat) (data : Bool) (why : Nat) (unit : Option Unit) : (snoopLine s line data
    why unit).sup = s.sup := by
  unfold snoopLine; split <;> simp

@[simp] theorem snoopAll_sup (s : State) (lines : List Nat) (data : Bool) (why : Nat) (unit : Option Unit) : (snoopAll s lines
    data why unit).sup = s.sup := by
  simp [snoopAll, each_keeps State.sup]

@[simp] theorem physWrite_sup (s : State) (a : Nat) (data : List Byte) (mask : List Bool) : (physWrite s a data mask).sup =
    s.sup := by
  unfold physWrite; split <;> simp

@[simp] theorem queueRow_sup (s : State) (port : Nat) (r : Row) : (queueRow s port r).sup = s.sup := by rfl

@[simp] theorem queueTo_sup (s : State) (port member hops : Nat) (r : Row) : (queueTo s port member hops r).sup = s.sup := by
  unfold queueTo; split <;> simp

@[simp] theorem sendBy_sup (s : State) (handle e : Nat) (r : Row) : (sendBy s handle e r).sup = s.sup := by
  grind [sendBy, queueTo_sup]

@[simp] theorem sendRow_sup (s : State) (handle : Nat) (r : Row) : (sendRow s handle r).sup = s.sup := by
  simp [sendRow]

@[simp] theorem addRequest_sup (s : State) (kind : Nat) (unit : Unit) (tag slot step : Nat) : (addRequest s kind unit tag slot
    step).2.sup = s.sup := by rfl

@[simp] theorem freshTag_sup (s : State) (unit : Unit) : (freshTag s unit).2.sup = s.sup := by
  unfold freshTag; split <;> simp

@[simp] theorem remoteRead_sup (s : State) (i : Issuer) (g : Seg) (a : Nat) : (remoteRead s i g a).1.sup = s.sup := by
  unfold remoteRead; split <;> simp

@[simp] theorem remoteWrite_sup (s : State) (i : Issuer) (g : Seg) (a : Nat) : (remoteWrite s i g a).1.sup = s.sup := by
  unfold remoteWrite; split <;> simp

@[simp] theorem readAt_sup (s : State) (i : Issuer) (g : Seg) (ga a : Nat) (shared : Bool) : (readAt s i g ga a shared).1.sup =
    s.sup := by
  grind [readAt, freshTag_sup, inject_sup]

@[simp] theorem writeAt_sup (s : State) (i : Issuer) (g : Seg) (ga a : Nat) : (writeAt s i g ga a).1.sup = s.sup := by
  grind [writeAt, freshTag_sup, inject_sup, physWrite_sup]

@[simp] theorem segRead_sup (s : State) (i : Issuer) (g : Seg) : (segRead s i g).1.sup = s.sup := by
  grind [segRead, lookedUp_sup, readAt_sup, remoteRead_sup, snoopAll_sup, startWalk_sup]

@[simp] theorem segWrite_sup (s : State) (i : Issuer) (g : Seg) : (segWrite s i g).1.sup = s.sup := by
  grind [segWrite, lookedUp_sup, remoteWrite_sup, snoopAll_sup, startWalk_sup, writeAt_sup]

@[simp] theorem segStep_sup (s : State) (i : Issuer) (g : Seg) : (segStep s i g).1.sup = s.sup := by
  grind [segStep, segRead_sup, segWrite_sup]

@[simp] theorem segsStep_sup (s : State) (i : Issuer) (x0 : List Seg) : (segsStep s i x0).1.sup = s.sup := by
  fun_induction segsStep <;> grind [segStep_sup]

@[simp] theorem copySegs_sup (s : State) (i : Issuer) (x0 : List Seg) : (copySegs s i x0).1.sup = s.sup := by
  fun_induction copySegs <;> grind [segStep_sup]

@[simp] theorem writeDone_sup (s : State) (j : CopyJob) : (writeDone s j).sup = s.sup := by rfl

@[simp] theorem retire_sup (s : State) (j : CopyJob) : (retire s j).1.sup = s.sup := by
  unfold retire
  extract_lets n j' t u
  split
  · rfl
  · have hu : State.sup u = State.sup t := each_keeps State.sup (fun a t => by simp only [elim_keeps State.sup (fun a => bump_sup _ _ _ _)]; split <;> simp) _ _
    simp [hu, t]

@[simp] theorem restartJob_sup (s : State) (j : CopyJob) : (restartJob s j).1.sup = s.sup := by rfl

@[simp] theorem resolveStop_sup (s : State) (unit : Unit) (x : Stop) : (resolveStop s unit x).1.sup = s.sup := by
  fun_cases resolveStop <;> grind [bump_sup]

@[simp] theorem unitFault_sup (s : State) (c k step cause addr cls : Nat) : (unitFault s c k step cause addr cls).sup = s.sup :=
    by
  simp [unitFault]

@[simp] theorem stopCopy_resetTable (s : State) (unit : Unit) (j : CopyJob) (x : Stop) : resetTable (stopCopy s unit j x) =
    resetTable s := by
  grind [stopCopy, consumePoison_resetTable, noteFault_sup, rejectStep_sup, reportProgress_sup, resolveStop_sup, setJobs_sup,
    settleCore_sup, unitFault_sup, resetTable]

@[simp] theorem finishCopy_sup (s : State) (unit : Unit) (j : CopyJob) : (finishCopy s unit j).sup = s.sup := by
  unfold finishCopy; split <;> simp

@[simp] theorem restartJobs_sup (s : State) (unit : Unit) (p : CopyJob → Bool) : (restartJobs s unit p).sup = s.sup := by
  simp [restartJobs, each_keeps State.sup]

@[simp] theorem stageChunk_sup (s : State) (c : Nat) (d : BitVec 1024) (ch : Chunk) (head data : Tainted) : (stageChunk s c d ch
    head data).1.sup = s.sup := by
  grind [stageChunk]

@[simp] theorem addDrawn_sup (s : State) (c k n : Nat) (more : Tainted) : (addDrawn s c k n more).sup = s.sup := by rfl

@[simp] theorem drawTokens_sup (c k n pos : Nat) (x0 : Nat) (s : State) : (drawTokens c k n pos x0 s).sup = s.sup := by
  fun_induction drawTokens <;> grind [addDrawn_sup, dequeue_sup]

@[simp] theorem drawBuffer_sup (s : State) (c k n i : Nat) : (drawBuffer s c k n i).sup = s.sup := by rfl

@[simp] theorem drawHandles_sup (c k n pos : Nat) (x0 : Nat) (s : State) : (drawHandles c k n pos x0 s).sup = s.sup := by
  fun_induction drawHandles <;> grind [drawBuffer_sup, setStrm_sup, takeReady_sup]

@[simp] theorem drawFor_sup (s : State) (c k n pos : Nat) : (drawFor s c k n pos).sup = s.sup := by
  grind [drawFor, drawHandles_sup, drawTokens_sup]

@[simp] theorem stepChunks_sup (s : State) (i : Issuer) (v : Slot) (t : Stream) (x0 : List Chunk) : (stepChunks s i v t
    x0).1.sup = s.sup := by
  fun_induction stepChunks <;> grind [segsStep_sup]

@[simp] theorem runChunks_sup (i : Issuer) (v : Slot) (t : Stream) (x0 : Nat) (s : State) (x2 : List Chunk) : (runChunks i v t
    x0 s x2).1.sup = s.sup := by
  fun_induction runChunks <;> grind [stepChunks_sup]

@[simp] theorem stopStream_resetTable (s : State) (c k n : Nat) (x : Stop) : resetTable (stopStream s c k n x) = resetTable s :=
    by
  grind [stopStream, consumePoison_resetTable, rejectStep_sup, reportProgress_sup, resolveStop_sup, setStrm_sup, settleCore_sup,
    unitFault_sup, writeElems_sup, resetTable]

@[simp] theorem setChunk_sup (s : State) (c k n : Nat) (ch : Chunk) : (setChunk s c k n ch).sup = s.sup := by rfl

@[simp] theorem settleChunks_sup (c k n : Nat) (x0 : Nat) (s : State) : (settleChunks c k n x0 s).sup = s.sup := by
  fun_induction settleChunks
  case case5 ih =>
    rw [ih]
    split <;> grind [setChunk_sup, drawFor_sup, stageChunk_sup, bump_sup, setStrm_sup]
  all_goals grind [setChunk_sup, drawFor_sup, stageChunk_sup, bump_sup, setStrm_sup]

@[simp] theorem fetchStream_resetTable (s : State) (c k n w : Nat) : resetTable (fetchStream s c k n w) = resetTable s := by
  grind [fetchStream, stopStream_resetTable, bump_sup, runChunks_sup, setStrm_sup, settleChunks_sup, resetTable]

@[simp] theorem prefetch_resetTable (s : State) (c k n : Nat) : resetTable (prefetch s c k n) = resetTable s := by
  grind [prefetch, fetchStream_resetTable, resetTable]

@[simp] theorem rewindStream_sup (s : State) (c k n tile : Nat) : (rewindStream s c k n tile).sup = s.sup := by rfl

@[simp] theorem takeReplay_sup (s : State) (id : Nat) : (takeReplay s id).sup = s.sup := by
  grind [takeReplay, rewindStream_sup, setEng_sup, each_or State.sup]

@[simp] theorem beginOut_sup (c k n : Nat) (x0 : Nat) (s : State) : (beginOut c k n x0 s).sup = s.sup := by
  fun_induction beginOut <;> grind [setStrm_sup, stageChunk_sup]

@[simp] theorem stepOut_sup (c k n : Nat) (x0 : List Chunk) (x1 : Bool) (s : State) : (stepOut c k n x0 x1 s).1.sup = s.sup :=
    by
  fun_induction stepOut <;> grind [segsStep_sup, setChunk_sup, setStrm_sup]

@[simp] theorem retireOut_sup (c k n : Nat) (x0 : Nat) (s : State) : (retireOut c k n x0 s).sup = s.sup := by
  fun_induction retireOut <;> grind [bump_sup, progress_sup, setStrm_sup, writeElems_sup]

@[simp] theorem runOut_sup (c k n : Nat) (x0 : Nat) (s : State) : (runOut c k n x0 s).1.sup = s.sup := by
  fun_induction runOut <;> grind [beginOut_sup, retireOut_sup, stepOut_sup]

@[simp] theorem pumpOut_resetTable (s : State) (c k n : Nat) : resetTable (pumpOut s c k n).1 = resetTable s := by
  grind [pumpOut, stopStream_resetTable, runOut_sup, resetTable]

@[simp] theorem setMerge_sup (s : State) (h : Nat) (j : MergeJob) : (setMerge s h j).sup = s.sup := by rfl

@[simp] theorem dropMerge_sup (s : State) (h : Nat) (j : MergeJob) : (dropMerge s h j).sup = s.sup := by rfl

@[simp] theorem stopMerge_sup (s : State) (h : Nat) (j : MergeJob) (cause : Nat) : (stopMerge s h j cause).sup = s.sup := by
  unfold stopMerge; split <;> simp

@[simp] theorem mgCommit_sup (s : State) (h : Nat) (j : MergeJob) : (mgCommit s h j).1.sup = s.sup := by
  simp [mgCommit, each_keeps State.sup]

@[simp] theorem mergePass_sup (s : State) (h : Nat) (j : MergeJob) : (mergePass s h j).1.sup = s.sup := by
  grind [mergePass, mgCommit_sup, segsStep_sup, each_or State.sup]

@[simp] theorem runMerge_sup (h : Nat) (x0 : Nat) (s : State) : (runMerge h x0 s).sup = s.sup := by
  fun_induction runMerge <;> grind [bump_sup, completeStep_sup, dropMerge_sup, forwardStep_sup, mergePass_sup,
    reportProgress_sup, resolveStop_sup, setMerge_sup, settleCore_sup, stopMerge_sup, unitFault_sup]

@[simp] theorem pumpMerge_sup (s : State) (h : Nat) : (pumpMerge s h).sup = s.sup := by
  simp [pumpMerge]

@[simp] theorem settleAlert_resetTable (s : State) : resetTable (settleAlert s) = resetTable s := by
  grind [settleAlert, trayEvent_resetTable, resetTable]

@[simp] theorem setGroup_sup (s : State) (h i : Nat) (g : Group) : (setGroup s h i g).sup = s.sup := by
  unfold setGroup; split <;> simp

@[simp] theorem closeRoutes_sup (s : State) : (closeRoutes s).sup = s.sup := by rfl

@[simp] theorem retireNow_sup (s : State) : (retireNow s).sup = s.sup := by rfl

@[simp] theorem onHalts_sup (s : State) (unit : Unit) (f : Halt → Option Halt) : (onHalts s unit f).sup = s.sup := by
  unfold onHalts; split <;> simp

@[simp] theorem restartUnit_sup (s : State) (unit : Unit) (p : Option Halt → Bool) : (restartUnit s unit p).sup = s.sup := by
  unfold restartUnit; split <;> simp

@[simp] theorem startRestores_sup (s : State) (h i : Nat) : (startRestores s h i).sup = s.sup := by
  grind [startRestores, setGroup_sup, each_or State.sup]

@[simp] theorem wakeJobs_sup (s : State) (c : Nat) : (wakeJobs s c).sup = s.sup := by
  simp [wakeJobs, each_keeps State.sup]

@[simp] theorem deferAnise_sup (s : State) : (deferAnise s).sup = s.sup := by rfl

@[simp] theorem settleRoutes_sup (s : State) : (settleRoutes s).sup = s.sup := by
  unfold settleRoutes; split <;> simp

end Sys2Proof.Machine
end

section
/-! ## What pumping a unit can decide: a reset for an upset table, and no more -/

namespace Sys2Proof.Machine

/-- Every reset of `s` is still there in `t`, and the module is resetting as it was. -/
structure Decides (s t : State) : Prop where
  resets : ∀ y ∈ s.sup.resets, y ∈ t.sup.resets
  resetting : t.sup.resetting = s.sup.resetting

variable {s t u : State}

theorem Decides.refl (s : State) : Decides s s := ⟨fun _ h => h, rfl⟩

theorem Decides.trans (h : Decides s t) (g : Decides t u) : Decides s u :=
  ⟨fun y hy => g.resets y (h.resets y hy), g.resetting.trans h.resetting⟩

theorem decides_of_sup (h : t.sup = s.sup) : Decides s t := ⟨fun _ hy => h ▸ hy, h ▸ rfl⟩

theorem decides_of_table (h : resetTable t = resetTable s) : Decides s t := by
  obtain ⟨hresets, hresetting⟩ := Prod.mk.inj h
  exact ⟨fun _ hy => hresets ▸ hy, hresetting⟩

theorem decides_each {σ α : Type} (P : σ → State) {g : α → σ → σ} (h : ∀ a x, Decides (P x) (P (g a x))) (l : List α) (x : σ) :
    Decides (P x) (P (each l x g)) := by
  induction l generalizing x with
  | nil => exact .refl _
  | cons a l ih => exact (h a x).trans (ih _)

theorem decides_forEach {α : Type} {g : α → State → State} (h : ∀ a x, Decides x (g a x)) (l : List α) (s : State) :
    Decides s (each l s g) := decides_each id h l s

theorem decides_decideReset (s : State) (domain target trigger cls config : Nat) (holding : List Element) (repair : Option (Nat × Nat)) :
    Decides s (decideReset s domain target trigger cls config holding repair) :=
  ⟨fun _ hy => List.mem_append_left _ hy, rfl⟩

theorem decides_escalate (s : State) (structure_ place : Nat) : Decides s (escalate s structure_ place) :=
  .trans (t := bump (detect s { kind := 0, id := structure_ } 0x15 false place) (ctrModEscalations.plus structure_) 0 1)
    ⟨fun _ h => h, rfl⟩ (decides_decideReset ..)

/-! ### Copies -/

theorem decides_findSide (s : State) (i : Issuer) (l : Loc) (n : Nat) (write : Bool) : Decides s (findSide s i l n write).1 := by
  fun_cases findSide
  case case3 => exact decides_escalate ..
  case case5 => exact decides_of_sup (snoopAll_sup ..)
  case case6 => exact decides_of_sup ((startWalk_sup ..).trans (lookedUp_sup ..))
  all_goals exact .refl s

theorem decides_findSides (s : State) (i : Issuer) (l : List Seg) : Decides s (findSides s i l).1 := by
  fun_induction findSides with
  | case1 s => exact .refl s
  | case2 s g rest a b hstop =>
    refine (decides_findSide s i g.src g.len false).trans ?_
    simp only [b]
    split
    · exact .refl _
    · exact decides_findSide ..
  | case3 s g rest a b hgo q ih =>
    refine .trans ?_ ih
    refine (decides_findSide s i g.src g.len false).trans ?_
    simp only [b]
    split
    · exact .refl _
    · exact decides_findSide ..

theorem decides_fillSegs (s : State) (i : Issuer) (l : List Seg) : Decides s (fillSegs s i l).1 := by
  fun_induction fillSegs with
  | case1 s => exact .refl s
  | case2 s g rest hstage q ih => exact ih
  | case3 s g rest hstage f x hstop => exact decides_findSide ..
  | case4 s g rest hstage f hgo r q ih =>
    refine (decides_findSide s i g.dst g.len true).trans (.trans ?_ ih)
    simp only [r]
    split
    · exact decides_of_sup (physWrite_sup ..)
    · exact .refl _

theorem decides_mcopyRecord (s : State) (i : Issuer) (j : CopyJob) (n : Nat) : Decides s (mcopyRecord s i j n).1 := by
  unfold mcopyRecord
  dsimp only
  split
  · exact .refl s
  · refine (decides_findSides s i (segsOf j.segs n)).trans ?_
    split
    · exact .refl _
    · exact .refl _
    · split
      · refine decides_forEach (fun e x => ?_) _ _
        split
        · exact decides_of_sup (physWrite_sup ..)
        · exact .refl x
      · exact .refl _

theorem decides_localSegs (s : State) (i : Issuer) (j : CopyJob) : Decides s (localSegs s i j).1 := by
  unfold localSegs
  split
  · refine decides_each (fun p : State × CopyJob × Option Stop => p.1) (fun n p => ?_) _ (s, j, none)
    dsimp only
    split
    · exact .refl _
    · split <;> exact decides_mcopyRecord ..
  · split
    · dsimp only
      split <;> exact decides_fillSegs ..
    · exact .refl s

theorem decides_copyPass (s : State) (i : Issuer) (j : CopyJob) : Decides s (copyPass s i j).1 := by
  unfold copyPass
  dsimp only
  split
  · exact decides_localSegs ..
  · refine .trans (decides_localSegs s i (makeAll s (copyWindow j.desc) j)) ?_
    have hend {a b : State × CopyJob × Option Stop} (c : Bool) (ha : a.1.sup = (localSegs s i (makeAll s (copyWindow j.desc) j)).1.sup)
        (hb : b.1.sup = (localSegs s i (makeAll s (copyWindow j.desc) j)).1.sup) :
        Decides (localSegs s i (makeAll s (copyWindow j.desc) j)).1 (if c = true then a else b).1 := by
      cases c
      · exact decides_of_sup hb
      · exact decides_of_sup ha
    exact hend _ (copySegs_sup ..) ((retire_sup ..).trans (copySegs_sup ..))

theorem decides_copyRun (i : Issuer) (n : Nat) (s : State) (j : CopyJob) : Decides s (copyRun i n s j).1 := by
  fun_induction copyRun with
  | case1 s j => exact .refl s
  | case2 n s j r hdone => exact decides_copyPass ..
  | case3 n s j r hmore ih => exact (decides_copyPass ..).trans ih

theorem decides_pumpJob (s : State) (unit : Unit) (j : CopyJob) : Decides s (pumpJob s unit j) := by
  unfold pumpJob
  dsimp only
  split
  · exact .refl s
  · refine .trans (decides_copyRun { unit := unit, core := j.core, slot := j.slot, step := j.step } (cdRecords j.desc * 4 + 64) s j) ?_
    split
    · exact (decides_of_sup (setJobs_sup ..)).trans (decides_of_table (stopCopy_resetTable ..))
    · split
      · exact decides_of_sup ((finishCopy_sup ..).trans (setJobs_sup ..))
      · exact decides_of_sup (setJobs_sup ..)

theorem decides_pumpCopies (s : State) (unit : Unit) : Decides s (pumpCopies s unit) := by
  refine decides_forEach (fun j x => ?_) _ s
  split
  · exact decides_pumpJob ..
  · exact .refl x

theorem decides_pumpUnit (s : State) (unit : Unit) : Decides s (pumpUnit s unit) := by
  cases unit with
  | coreCopy c => exact decides_pumpCopies ..
  | hubCopy h => exact decides_pumpCopies ..
  | stream c k n =>
    refine (decides_of_table (prefetch_resetTable s c k n)).trans ?_
    simp only [pumpUnit]
    split
    · exact decides_of_table (pumpOut_resetTable ..)
    · exact .refl _
  | merge h => exact decides_of_sup (pumpMerge_sup ..)
  | _ => exact .refl s

theorem decides_resumeUnit (s : State) (unit : Unit) (p : Halt → Bool) : Decides s (resumeUnit s unit p) :=
  (decides_of_sup ((onHalts_sup ..).trans (restartUnit_sup ..))).trans (decides_pumpUnit ..)

/-! ### Waking a core, and the end of an anise pass -/

theorem decides_wakeCore (s : State) (c : Nat) : Decides s (wakeCore s c) := by
  unfold wakeCore
  dsimp only
  refine .trans ?_ (decides_of_sup (settleCore_sup ..))
  refine .trans ?_ (decides_forEach (fun u x => ?_) _ _)
  · refine (decides_of_sup (wakeJobs_sup s c)).trans ?_
    exact decides_forEach (fun i x => decides_of_sup (takeReplay_sup x (engineOf c i))) _ _
  · split
    · exact decides_resumeUnit ..
    · exact decides_pumpUnit ..

theorem decides_leavePass (s : State) : Decides s (leavePass s) := by
  unfold leavePass
  dsimp only
  refine .trans ?_ (decides_forEach (fun c x => ?_) _ _)
  · refine .trans ?_ (decides_forEach (fun h x => ?_) _ _)
    · refine .trans ?_ (decides_forEach (fun e x => ?_) _ _)
      · exact ⟨fun _ h => h, rfl⟩
      · split
        · exact .refl x
        · split <;> exact decides_of_sup (setGroup_sup ..)
    · split
      · exact .refl x
      · exact decides_of_sup (startRestores_sup ..)
  · split
    · exact decides_wakeCore ..
    · exact .refl x

theorem decides_deferIn (s : State) (regions : List Nat) : Decides s (deferIn s regions) := by
  unfold deferIn
  split
  · exact (decides_of_sup (deferAnise_sup s)).trans (decides_leavePass _)
  · exact .refl s

end Sys2Proof.Machine
end

section
/-! Further parts of the state that operations leave as they were. -/

namespace Sys2Proof.Machine

@[simp] theorem detect_slices (s : State) (el : Element) (code : Nat) (hard : Bool) (place : Nat) : (detect s el code hard
    place).slices = s.slices := by rfl

@[simp] theorem injectionSeen_slices (s : State) (unit id : Nat) : (injectionSeen s unit id).slices = s.slices := by rfl

@[simp] theorem detectAt_slices (s : State) (el : Element) (cls unit id : Nat) (hard : Bool) : (detectAt s el cls unit id
    hard).slices = s.slices := by rfl

@[simp] theorem setRingWr_slices (s : State) (c : Nat) (v : Slot) (i wr : Nat) (ph : Bool) : (setRingWr s c v i wr ph).slices =
    s.slices := by rfl

@[simp] theorem writeRecord_slices (s : State) (c k r : Nat) : (writeRecord s c k r).slices = s.slices := by
  unfold writeRecord; split <;> simp

@[simp] theorem reportError_slices (s : State) (c k kind cause unit step row col : Nat) (et : Int) (detail : Nat) : (reportError
    s c k kind cause unit step row col et detail).slices = s.slices := by
  simp [reportError]

@[simp] theorem closeEnds_slices (s : State) (c k : Nat) : (closeEnds s c k).slices = s.slices := by rfl

@[simp] theorem setConf_sliceHeads (s : State) (h config : Nat) (v : Conf) : sliceHeads (setConf s h config v) = sliceHeads s :=
    by
  unfold setConf
  split
  · rfl
  · rename_i l hl
    exact sliceHeads_setSlice hl rfl rfl

@[simp] theorem dropWindow_sliceHeads (s : State) (c k : Nat) : sliceHeads (dropWindow s c k) = sliceHeads s := by
  grind [dropWindow, setConf_sliceHeads, sliceHeads]

@[simp] theorem faultSlot_sliceHeads (s : State) (c k : Nat) : sliceHeads (faultSlot s c k) = sliceHeads s := by
  grind [faultSlot, dropWindow_sliceHeads, closeEnds_slices, onSlot_slices, sliceHeads]

@[simp] theorem noteFault_slices (s : State) (c k cause unit addr : Nat) : (noteFault s c k cause unit addr).slices = s.slices
    := by rfl

@[simp] theorem rejectStep_sliceHeads (s : State) (c k step cause unit row col : Nat) : sliceHeads (rejectStep s c k step cause
    unit row col) = sliceHeads s := by
  grind [rejectStep, faultSlot_sliceHeads, noteFault_slices, reportError_slices, sliceHeads]

@[simp] theorem poisonStop_sliceHeads (s : State) (c k step unit : Nat) : sliceHeads (poisonStop s c k step unit) = sliceHeads s
    := by
  grind [poisonStop, rejectStep_sliceHeads, bump_slices, sliceHeads]

@[simp] theorem consumePoison_sliceHeads (s : State) (c k step cls : Nat) : sliceHeads (consumePoison s c k step cls) =
    sliceHeads s := by
  grind [consumePoison, poisonStop_sliceHeads, detectAt_slices, sliceHeads]

@[simp] theorem selectSlot_slices (s : State) (c : Nat) : (selectSlot s c).slices = s.slices := by
  grind [selectSlot, bump_slices, onSlot_slices, setCore_slices]

@[simp] theorem settleStop_sliceHeads (s : State) (c k : Nat) : sliceHeads (settleStop s c k) = sliceHeads s := by
  grind [settleStop, dropWindow_sliceHeads, onSlot_slices, sliceHeads]

@[simp] theorem settleBlock_slices (s : State) (c k : Nat) : (settleBlock s c k).slices = s.slices := by
  unfold settleBlock; split <;> simp

@[simp] theorem settleBeacon_slices (s : State) (c k : Nat) : (settleBeacon s c k).slices = s.slices := by
  grind [settleBeacon, onSlot_slices, post_slices]

@[simp] theorem settleCore_sliceHeads (s : State) (c : Nat) : sliceHeads (settleCore s c) = sliceHeads s := by
  refine settleCore_induct (Q := fun t => sliceHeads t = sliceHeads s) ?_ ?_ ?_ ?_ ?_ rfl
  · exact fun t j h => (congrArg headsOf (settleBlock_slices t c j)).trans h
  · exact fun t j h => (settleStop_sliceHeads t c j).trans h
  · exact fun t h => (congrArg headsOf (selectSlot_slices t c)).trans h
  · exact fun t j h => (congrArg headsOf (settleBeacon_slices t c j)).trans h
  · exact fun t j h => (congrArg headsOf (reportProgress_slices t c j false)).trans h

@[simp] theorem completeStep_slices (s : State) (c k step : Nat) : (completeStep s c k step).slices = s.slices := by
  simp [completeStep]

theorem takeReady_slices (s : State) (c k h : Nat) {y0 : Nat} {t : State} (h : takeReady s c k h = some (y0, t)) : t.slices =
    s.slices := by
  grind [takeReady, onSlot_slices]

@[simp] theorem outsideWrite_slices (s : State) (c off : Nat) (l : List Byte) (mask : List Bool) : (outsideWrite s c off l
    mask).slices = s.slices := by
  unfold outsideWrite; split <;> simp

@[simp] theorem forwardStep_sliceHeads (s : State) (c k step : Nat) : sliceHeads (forwardStep s c k step) = sliceHeads s := by
  grind [forwardStep, settleCore_sliceHeads, completeStep_slices, onSlot_slices, sliceHeads]

@[simp] theorem decideReset_slices (s : State) (domain target trigger cls config : Nat) (holding : List Element) (repair :
    Option (Nat × Nat)) : (decideReset s domain target trigger cls config holding repair).slices = s.slices := by rfl

@[simp] theorem escalate_slices (s : State) (structure_ place : Nat) : (escalate s structure_ place).slices = s.slices := by rfl

@[simp] theorem startWalk_slices (s : State) (unit : Unit) (a : Nat) (write : Bool) : (startWalk s unit a write).slices =
    s.slices := by
  unfold startWalk; split <;> simp

@[simp] theorem lookedUp_slices (s : State) (unit : Unit) (missed : Bool) : (lookedUp s unit missed).slices = s.slices := by
  grind [lookedUp, bump_slices]

@[simp] theorem snoopLine_slices (s : State) (line : Nat) (data : Bool) (why : Nat) (unit : Option Unit) : (snoopLine s line
    data why unit).slices = s.slices := by
  unfold snoopLine; split <;> simp

@[simp] theorem snoopAll_slices (s : State) (lines : List Nat) (data : Bool) (why : Nat) (unit : Option Unit) : (snoopAll s
    lines data why unit).slices = s.slices := by
  simp [snoopAll, each_keeps State.slices]

@[simp] theorem physWrite_slices (s : State) (a : Nat) (data : List Byte) (mask : List Bool) : (physWrite s a data mask).slices
    = s.slices := by
  unfold physWrite; split <;> simp

@[simp] theorem queueRow_slices (s : State) (port : Nat) (r : Row) : (queueRow s port r).slices = s.slices := by rfl

@[simp] theorem queueTo_slices (s : State) (port member hops : Nat) (r : Row) : (queueTo s port member hops r).slices = s.slices
    := by
  unfold queueTo; split <;> simp

@[simp] theorem sendBy_slices (s : State) (handle e : Nat) (r : Row) : (sendBy s handle e r).slices = s.slices := by
  grind [sendBy, queueTo_slices]

@[simp] theorem sendRow_slices (s : State) (handle : Nat) (r : Row) : (sendRow s handle r).slices = s.slices := by
  simp [sendRow]

@[simp] theorem addRequest_slices (s : State) (kind : Nat) (unit : Unit) (tag slot step : Nat) : (addRequest s kind unit tag
    slot step).2.slices = s.slices := by rfl

@[simp] theorem freshTag_slices (s : State) (unit : Unit) : (freshTag s unit).2.slices = s.slices := by
  unfold freshTag; split <;> simp

@[simp] theorem remoteRead_slices (s : State) (i : Issuer) (g : Seg) (a : Nat) : (remoteRead s i g a).1.slices = s.slices := by
  unfold remoteRead; split <;> simp

@[simp] theorem remoteWrite_slices (s : State) (i : Issuer) (g : Seg) (a : Nat) : (remoteWrite s i g a).1.slices = s.slices :=
    by
  unfold remoteWrite; split <;> simp

@[simp] theorem readAt_slices (s : State) (i : Issuer) (g : Seg) (ga a : Nat) (shared : Bool) : (readAt s i g ga a
    shared).1.slices = s.slices := by
  grind [readAt, freshTag_slices, inject_slices]

@[simp] theorem writeAt_slices (s : State) (i : Issuer) (g : Seg) (ga a : Nat) : (writeAt s i g ga a).1.slices = s.slices := by
  grind [writeAt, freshTag_slices, inject_slices, physWrite_slices]

@[simp] theorem segRead_slices (s : State) (i : Issuer) (g : Seg) : (segRead s i g).1.slices = s.slices := by
  grind [segRead, lookedUp_slices, readAt_slices, remoteRead_slices, snoopAll_slices, startWalk_slices]

@[simp] theorem segWrite_slices (s : State) (i : Issuer) (g : Seg) : (segWrite s i g).1.slices = s.slices := by
  grind [segWrite, lookedUp_slices, remoteWrite_slices, snoopAll_slices, startWalk_slices, writeAt_slices]

@[simp] theorem segStep_slices (s : State) (i : Issuer) (g : Seg) : (segStep s i g).1.slices = s.slices := by
  grind [segStep, segRead_slices, segWrite_slices]

@[simp] theorem segsStep_slices (s : State) (i : Issuer) (x0 : List Seg) : (segsStep s i x0).1.slices = s.slices := by
  fun_induction segsStep <;> grind [segStep_slices]

@[simp] theorem findSide_slices (s : State) (i : Issuer) (l : Loc) (n : Nat) (write : Bool) : (findSide s i l n write).1.slices
    = s.slices := by
  fun_cases findSide <;> grind [escalate_slices, lookedUp_slices, snoopAll_slices, startWalk_slices]

@[simp] theorem findSides_slices (s : State) (i : Issuer) (x0 : List Seg) : (findSides s i x0).1.slices = s.slices := by
  fun_induction findSides <;> grind [findSide_slices]

@[simp] theorem mcopyRecord_slices (s : State) (i : Issuer) (j : CopyJob) (n : Nat) : (mcopyRecord s i j n).1.slices = s.slices
    := by
  grind [mcopyRecord, findSides_slices, physWrite_slices, each_or State.slices]

@[simp] theorem fillSegs_slices (s : State) (i : Issuer) (x0 : List Seg) : (fillSegs s i x0).1.slices = s.slices := by
  fun_induction fillSegs <;> grind [findSide_slices, physWrite_slices]

@[simp] theorem localSegs_slices (s : State) (i : Issuer) (j : CopyJob) : (localSegs s i j).1.slices = s.slices := by
  unfold localSegs
  split
  · have hrec (n : Nat) (p : State × CopyJob × Option Stop) : State.slices (if p.2.2.isSome || p.2.1.made ≤ n then p
      else
        let r := mcopyRecord p.1 i p.2.1 n
        match r.2.2 with
        | some x =>
          let z := stopAt r.2.1 n x
          (r.1, z.1, z.2)
        | none => r).1 = State.slices p.1 := by
      split
      · rfl
      · dsimp only
        split <;> exact mcopyRecord_slices ..
    exact each_leaves (fun p => (State.slices p.1)) hrec _ (s, j, none)
  · split
    · dsimp only
      split <;> exact fillSegs_slices ..
    · rfl

@[simp] theorem copySegs_slices (s : State) (i : Issuer) (x0 : List Seg) : (copySegs s i x0).1.slices = s.slices := by
  fun_induction copySegs <;> grind [segStep_slices]

@[simp] theorem writeDone_slices (s : State) (j : CopyJob) : (writeDone s j).slices = s.slices := by rfl

@[simp] theorem retire_slices (s : State) (j : CopyJob) : (retire s j).1.slices = s.slices := by
  unfold retire
  extract_lets n j' t u
  split
  · rfl
  · have hu : State.slices u = State.slices t := each_keeps State.slices (fun a t => by simp only [elim_keeps State.slices (fun a => bump_slices _ _ _ _)]; split <;> simp) _ _
    simp [hu, t]

@[simp] theorem restartJob_slices (s : State) (j : CopyJob) : (restartJob s j).1.slices = s.slices := by rfl

@[simp] theorem copyPass_slices (s : State) (i : Issuer) (j : CopyJob) : (copyPass s i j).1.slices = s.slices := by
  grind [copyPass, copySegs_slices, localSegs_slices, retire_slices]

@[simp] theorem copyRun_slices (i : Issuer) (x0 : Nat) (s : State) (x2 : CopyJob) : (copyRun i x0 s x2).1.slices = s.slices :=
    by
  fun_induction copyRun <;> grind [copyPass_slices]

@[simp] theorem setJobs_slices (s : State) (unit : Unit) (l : List CopyJob) : (setJobs s unit l).slices = s.slices := by
  unfold setJobs; split <;> simp

@[simp] theorem resolveStop_slices (s : State) (unit : Unit) (x : Stop) : (resolveStop s unit x).1.slices = s.slices := by
  fun_cases resolveStop <;> grind [bump_slices]

@[simp] theorem unitFault_sliceHeads (s : State) (c k step cause addr cls : Nat) : sliceHeads (unitFault s c k step cause addr
    cls) = sliceHeads s := by
  grind [unitFault, rejectStep_sliceHeads, settleCore_sliceHeads, bump_slices, noteFault_slices, sliceHeads]

@[simp] theorem stopCopy_sliceHeads (s : State) (unit : Unit) (j : CopyJob) (x : Stop) : sliceHeads (stopCopy s unit j x) =
    sliceHeads s := by
  grind [stopCopy, consumePoison_sliceHeads, rejectStep_sliceHeads, settleCore_sliceHeads, unitFault_sliceHeads,
    noteFault_slices, reportProgress_slices, resolveStop_slices, setJobs_slices, sliceHeads]

@[simp] theorem finishCopy_sliceHeads (s : State) (unit : Unit) (j : CopyJob) : sliceHeads (finishCopy s unit j) = sliceHeads s
    := by
  grind [finishCopy, forwardStep_sliceHeads, settleCore_sliceHeads, bump_slices, completeStep_slices, setJobs_slices,
    sliceHeads]

@[simp] theorem pumpJob_sliceHeads (s : State) (unit : Unit) (j : CopyJob) : sliceHeads (pumpJob s unit j) = sliceHeads s := by
  grind [pumpJob, finishCopy_sliceHeads, stopCopy_sliceHeads, copyRun_slices, setJobs_slices, sliceHeads]

@[simp] theorem restartJobs_slices (s : State) (unit : Unit) (p : CopyJob → Bool) : (restartJobs s unit p).slices = s.slices :=
    by
  simp [restartJobs, each_keeps State.slices]

@[simp] theorem pumpCopies_sliceHeads (s : State) (unit : Unit) : sliceHeads (pumpCopies s unit) = sliceHeads s := by
  grind [pumpCopies, pumpJob_sliceHeads, each_or sliceHeads, sliceHeads]

@[simp] theorem setStrm_slices (s : State) (c k n : Nat) (t : Stream) : (setStrm s c k n t).slices = s.slices := by rfl

@[simp] theorem stageChunk_slices (s : State) (c : Nat) (d : BitVec 1024) (ch : Chunk) (head data : Tainted) : (stageChunk s c d
    ch head data).1.slices = s.slices := by
  grind [stageChunk]

@[simp] theorem addDrawn_slices (s : State) (c k n : Nat) (more : Tainted) : (addDrawn s c k n more).slices = s.slices := by rfl

@[simp] theorem drawTokens_slices (c k n pos : Nat) (x0 : Nat) (s : State) : (drawTokens c k n pos x0 s).slices = s.slices := by
  fun_induction drawTokens <;> grind [addDrawn_slices, dequeue_slices]

@[simp] theorem drawBuffer_slices (s : State) (c k n i : Nat) : (drawBuffer s c k n i).slices = s.slices := by rfl

@[simp] theorem drawHandles_slices (c k n pos : Nat) (x0 : Nat) (s : State) : (drawHandles c k n pos x0 s).slices = s.slices :=
    by
  fun_induction drawHandles <;> grind [drawBuffer_slices, setStrm_slices, takeReady_slices]

@[simp] theorem drawFor_slices (s : State) (c k n pos : Nat) : (drawFor s c k n pos).slices = s.slices := by
  grind [drawFor, drawHandles_slices, drawTokens_slices]

@[simp] theorem stepChunks_slices (s : State) (i : Issuer) (v : Slot) (t : Stream) (x0 : List Chunk) : (stepChunks s i v t
    x0).1.slices = s.slices := by
  fun_induction stepChunks <;> grind [segsStep_slices]

@[simp] theorem runChunks_slices (i : Issuer) (v : Slot) (t : Stream) (x0 : Nat) (s : State) (x2 : List Chunk) : (runChunks i v
    t x0 s x2).1.slices = s.slices := by
  fun_induction runChunks <;> grind [stepChunks_slices]

@[simp] theorem writeElems_slices (s : State) (c k n : Nat) : (writeElems s c k n).slices = s.slices := by rfl

@[simp] theorem stopStream_sliceHeads (s : State) (c k n : Nat) (x : Stop) : sliceHeads (stopStream s c k n x) = sliceHeads s :=
    by
  grind [stopStream, consumePoison_sliceHeads, rejectStep_sliceHeads, settleCore_sliceHeads, unitFault_sliceHeads,
    reportProgress_slices, resolveStop_slices, setStrm_slices, writeElems_slices, sliceHeads]

@[simp] theorem setChunk_slices (s : State) (c k n : Nat) (ch : Chunk) : (setChunk s c k n ch).slices = s.slices := by rfl

@[simp] theorem settleChunks_slices (c k n : Nat) (x0 : Nat) (s : State) : (settleChunks c k n x0 s).slices = s.slices := by
  fun_induction settleChunks
  case case5 ih =>
    rw [ih]
    split <;> grind [setChunk_slices, drawFor_slices, stageChunk_slices, bump_slices, setStrm_slices]
  all_goals grind [setChunk_slices, drawFor_slices, stageChunk_slices, bump_slices, setStrm_slices]

@[simp] theorem fetchStream_sliceHeads (s : State) (c k n w : Nat) : sliceHeads (fetchStream s c k n w) = sliceHeads s := by
  grind [fetchStream, stopStream_sliceHeads, bump_slices, runChunks_slices, setStrm_slices, settleChunks_slices, sliceHeads]

@[simp] theorem prefetch_sliceHeads (s : State) (c k n : Nat) : sliceHeads (prefetch s c k n) = sliceHeads s := by
  grind [prefetch, fetchStream_sliceHeads, sliceHeads]

@[simp] theorem rewindStream_slices (s : State) (c k n tile : Nat) : (rewindStream s c k n tile).slices = s.slices := by rfl

@[simp] theorem takeReplay_slices (s : State) (id : Nat) : (takeReplay s id).slices = s.slices := by
  grind [takeReplay, rewindStream_slices, setEng_slices, each_or State.slices]

@[simp] theorem beginOut_slices (c k n : Nat) (x0 : Nat) (s : State) : (beginOut c k n x0 s).slices = s.slices := by
  fun_induction beginOut <;> grind [setStrm_slices, stageChunk_slices]

@[simp] theorem stepOut_slices (c k n : Nat) (x0 : List Chunk) (x1 : Bool) (s : State) : (stepOut c k n x0 x1 s).1.slices =
    s.slices := by
  fun_induction stepOut <;> grind [segsStep_slices, setChunk_slices, setStrm_slices]

@[simp] theorem retireOut_slices (c k n : Nat) (x0 : Nat) (s : State) : (retireOut c k n x0 s).slices = s.slices := by
  fun_induction retireOut <;> grind [bump_slices, progress_slices, setStrm_slices, writeElems_slices]

@[simp] theorem runOut_slices (c k n : Nat) (x0 : Nat) (s : State) : (runOut c k n x0 s).1.slices = s.slices := by
  fun_induction runOut <;> grind [beginOut_slices, retireOut_slices, stepOut_slices]

@[simp] theorem pumpOut_sliceHeads (s : State) (c k n : Nat) : sliceHeads (pumpOut s c k n).1 = sliceHeads s := by
  grind [pumpOut, stopStream_sliceHeads, runOut_slices, sliceHeads]

@[simp] theorem placeHeader_slices (s : State) (c k n : Nat) (g : Seg) : (placeHeader s c k n g).slices = s.slices := by
  grind [placeHeader, physWrite_slices, remoteWrite_slices, snoopAll_slices]

@[simp] theorem leavePartial_slices (s : State) (c k n : Nat) : (leavePartial s c k n).slices = s.slices := by
  grind [leavePartial, bump_slices, placeHeader_slices, each_or State.slices]

@[simp] theorem setMerge_slices (s : State) (h : Nat) (j : MergeJob) : (setMerge s h j).slices = s.slices := by rfl

@[simp] theorem dropMerge_slices (s : State) (h : Nat) (j : MergeJob) : (dropMerge s h j).slices = s.slices := by rfl

@[simp] theorem stopMerge_sliceHeads (s : State) (h : Nat) (j : MergeJob) (cause : Nat) : sliceHeads (stopMerge s h j cause) =
    sliceHeads s := by
  grind [stopMerge, faultSlot_sliceHeads, settleCore_sliceHeads, bump_slices, dropMerge_slices, noteFault_slices,
    reportError_slices, sliceHeads]

@[simp] theorem mgCommit_slices (s : State) (h : Nat) (j : MergeJob) : (mgCommit s h j).1.slices = s.slices := by
  simp [mgCommit, each_keeps State.slices]

@[simp] theorem mergePass_slices (s : State) (h : Nat) (j : MergeJob) : (mergePass s h j).1.slices = s.slices := by
  grind [mergePass, mgCommit_slices, segsStep_slices, each_or State.slices]

@[simp] theorem runMerge_sliceHeads (h : Nat) (x0 : Nat) (s : State) : sliceHeads (runMerge h x0 s) = sliceHeads s := by
  fun_induction runMerge <;> grind [forwardStep_sliceHeads, settleCore_sliceHeads, stopMerge_sliceHeads, unitFault_sliceHeads,
    bump_slices, completeStep_slices, dropMerge_slices, mergePass_slices, reportProgress_slices, resolveStop_slices,
    setMerge_slices, sliceHeads]

@[simp] theorem pumpMerge_sliceHeads (s : State) (h : Nat) : sliceHeads (pumpMerge s h) = sliceHeads s := by
  grind [pumpMerge, runMerge_sliceHeads, sliceHeads]

@[simp] theorem pumpUnit_sliceHeads (s : State) (unit : Unit) : sliceHeads (pumpUnit s unit) = sliceHeads s := by
  fun_cases pumpUnit <;> grind [prefetch_sliceHeads, pumpCopies_sliceHeads, pumpMerge_sliceHeads, pumpOut_sliceHeads,
    sliceHeads]

@[simp] theorem forgetSyncs_slices (s : State) (c k : Nat) (p : Nat → Bool) : (forgetSyncs s c k p).slices = s.slices := by rfl

@[simp] theorem cancelWaits_slices (s : State) (c k : Nat) : (cancelWaits s c k).slices = s.slices := by
  simp [cancelWaits, each_keeps State.slices]

@[simp] theorem setGroup_sliceHeads (s : State) (h i : Nat) (g : Group) : sliceHeads (setGroup s h i g) = sliceHeads s := by
  unfold setGroup
  split
  · rfl
  · rename_i l hl
    exact sliceHeads_setSlice hl rfl rfl

@[simp] theorem setArea_slices (s : State) (c k i a : Nat) (r : Area) : (setArea s c k i a r).slices = s.slices := by rfl

@[simp] theorem tellContributors_slices (s : State) (c k e : Nat) (body : Nat → Body) : (tellContributors s c k e body).slices =
    s.slices := by
  simp [tellContributors, each_keeps State.slices]

@[simp] theorem dropLines_slices (s : State) (r : Nat) (p : Nat → Bool) : (dropLines s r p).slices = s.slices := by
  grind [dropLines, bump_slices, setHub_slices, each_or State.slices]

@[simp] theorem onHalts_slices (s : State) (unit : Unit) (f : Halt → Option Halt) : (onHalts s unit f).slices = s.slices := by
  unfold onHalts; split <;> simp

@[simp] theorem restartUnit_slices (s : State) (unit : Unit) (p : Option Halt → Bool) : (restartUnit s unit p).slices = s.slices
    := by
  unfold restartUnit; split <;> simp

@[simp] theorem resumeUnit_sliceHeads (s : State) (unit : Unit) (p : Halt → Bool) : sliceHeads (resumeUnit s unit p) =
    sliceHeads s := by
  grind [resumeUnit, pumpUnit_sliceHeads, onHalts_slices, restartUnit_slices, sliceHeads]

@[simp] theorem imagePut_slices (s : State) (g : Group) (c off : Nat) (l : List Byte) : (imagePut s g c off l).slices = s.slices
    := by
  grind [imagePut, each_or State.slices]

@[simp] theorem putHead_slices (s : State) (g : Group) (c h : Nat) : (putHead s g c h).slices = s.slices := by
  simp [putHead]

@[simp] theorem headState_slices (s : State) (g : Group) (c st n : Nat) : (headState s g c st n).slices = s.slices := by
  grind [headState, putHead_slices]

@[simp] theorem startRestores_sliceHeads (s : State) (h i : Nat) : sliceHeads (startRestores s h i) = sliceHeads s := by
  fun_cases startRestores
  grind [setGroup_sliceHeads, each_or sliceHeads, sliceHeads]

@[simp] theorem failImages_slices (s : State) (h : Nat) (g : Group) (cores : List Nat) : (failImages s h g cores).slices =
    s.slices := by
  simp [failImages, each_keeps State.slices]

@[simp] theorem wakeJobs_slices (s : State) (c : Nat) : (wakeJobs s c).slices = s.slices := by
  simp [wakeJobs, each_keeps State.slices]

@[simp] theorem wakeCore_sliceHeads (s : State) (c : Nat) : sliceHeads (wakeCore s c) = sliceHeads s := by
  grind [wakeCore, pumpUnit_sliceHeads, resumeUnit_sliceHeads, settleCore_sliceHeads, takeReplay_slices, wakeJobs_slices,
    each_or sliceHeads, sliceHeads]

@[simp] theorem deferAnise_slices (s : State) : (deferAnise s).slices = s.slices := by rfl

@[simp] theorem leavePass_sliceHeads (s : State) : sliceHeads (leavePass s) = sliceHeads s := by
  grind [leavePass, setGroup_sliceHeads, startRestores_sliceHeads, wakeCore_sliceHeads, each_or sliceHeads, sliceHeads]

@[simp] theorem engineRelease_slices (s : State) (c k : Nat) : (engineRelease s c k).slices = s.slices := by
  grind [engineRelease, setEng_slices, takeReplay_slices, each_or State.slices]

@[simp] theorem releaseCopies_slices (s : State) (unit : Unit) : (releaseCopies s unit).slices = s.slices := by
  simp [releaseCopies, each_keeps State.slices]

@[simp] theorem stopCopies_slices (s : State) (unit : Unit) (c k : Nat) : (stopCopies s unit c k).slices = s.slices := by
  simp [stopCopies]

@[simp] theorem stopStreams_slices (s : State) (c k : Nat) : (stopStreams s c k).slices = s.slices := by
  simp [stopStreams, each_keeps State.slices]

@[simp] theorem dropWaits_slices (s : State) (c k : Nat) : (dropWaits s c k).slices = s.slices := by
  simp [dropWaits]

@[simp] theorem freeAreas_slices (s : State) (c k : Nat) : (freeAreas s c k).slices = s.slices := by
  grind [freeAreas, setArea_slices, tellContributors_slices, each_or State.slices]

@[simp] theorem countReset_slices (s : State) (c k : Nat) (v : Slot) : (countReset s c k v).slices = s.slices := by rfl

@[simp] theorem resetOne_sliceHeads (s : State) (c k : Nat) : sliceHeads (resetOne s c k) = sliceHeads s := by
  grind [resetOne, dropWindow_sliceHeads, settleCore_sliceHeads, closeEnds_slices, countReset_slices, dropWaits_slices,
    engineRelease_slices, forgetSyncs_slices, freeAreas_slices, onSlot_slices, setCore_slices, setHub_slices, stopCopies_slices,
    stopStreams_slices, sliceHeads]

@[simp] theorem deferIn_sliceHeads (s : State) (regions : List Nat) : sliceHeads (deferIn s regions) = sliceHeads s := by
  grind [deferIn, leavePass_sliceHeads, deferAnise_slices, sliceHeads]

@[simp] theorem clearRegion_slices (s : State) (r : Nat) : (clearRegion s r).slices = s.slices := by
  simp [clearRegion]

@[simp] theorem dropGroups_sliceHeads (s : State) (h : Nat) : sliceHeads (dropGroups s h) = sliceHeads s := by
  unfold dropGroups
  dsimp only
  split
  · exact congrArg headsOf (each_keeps (P := State.slices) (fun g t => failImages_slices ..) _ s)
  · rename_i l hl
    exact (sliceHeads_setSlice (v := { l with groups := [], confs := [] }) hl rfl rfl).trans (congrArg headsOf (each_keeps (P := State.slices) (fun g t => failImages_slices ..) _ s))

@[simp] theorem clearEngine_slices (s : State) (g : Nat) : (clearEngine s g).slices = s.slices := by rfl

@[simp] theorem clearCore_slices (s : State) (c : Nat) : (clearCore s c).slices = s.slices := by
  grind [clearCore, clearEngine_slices, setCore_slices, each_or State.slices]

@[simp] theorem clearSlice_sliceHeads (s : State) (h : Nat) : sliceHeads (clearSlice s h) = sliceHeads s := by
  grind [clearSlice, dropGroups_sliceHeads, resetOne_sliceHeads, clearCore_slices, clearRegion_slices, setHub_slices, each_or
    sliceHeads, sliceHeads]

end Sys2Proof.Machine
end

section
/-! ## Resets that clear, or do not, R826 to R829 -/

namespace Sys2Proof.Machine
open Sys2Proof.Claims

variable {s t : State} {c k g h n : Nat} {x : Reset} {e : Option Nat} {b : Bool}

/-! ### The end of a reset -/

theorem resetOf_endReset (s : State) (n : Nat) : resetOf (endReset s n) n = none := by
  rw [resetOf, endReset, List.find?_eq_none]
  intro y hy
  simpa using (List.mem_filter.mp hy).2

theorem resetOf_congr (h : t.sup.resets = s.sup.resets) (n : Nat) : resetOf t n = resetOf s n := by
  rw [resetOf, h]
  rfl

theorem injectionOver_resets (s : State) (x : Reset) : (injectionOver s x).sup.resets = s.sup.resets := by
  unfold injectionOver
  split <;> rfl

theorem leaveReset_sup (s : State) (h : Nat) (to_ : SliceState) : (leaveReset s h to_).sup = s.sup := by
  unfold leaveReset
  split
  · split <;> rfl
  · rfl

theorem leaveReset_mem (s : State) (h : Nat) (to_ : SliceState) : (leaveReset s h to_).mem = s.mem := by
  unfold leaveReset
  split
  · split <;> rfl
  · rfl

theorem resetOf_overReset (s : State) (x : Reset) (n : Nat) : resetOf (injectionOver (endReset s n) x) n = none :=
  (resetOf_congr (injectionOver_resets _ x) n).trans (resetOf_endReset s n)

theorem overReset_quiet (s : State) (x : Reset) (n : Nat) : quiet (injectionOver (endReset (releaseAll s x) n) x) = quiet s := by
  rw [injectionOver_quiet, endReset_quiet, releaseAll_quiet]

/-- R829: the slices that a module compute reset returns to ACTIVE. -/
def slicesReturn (s : State) : State := each (keys s.slices) s (fun h s => match look? s.slices h with
  | some l => if l.state = .resetting || l.state = .failed then setSlice s h { l with state := .active } else s
  | none => s)

theorem slicesReturn_keeps {β : Type} (P : State → β) (hP : ∀ t h l, P (setSlice t h l) = P t) (s : State) :
    P (slicesReturn s) = P s := by
  refine each_keeps (P := P) (fun h t => ?_) _ s
  split
  · split
    · exact hP ..
    · rfl
  · rfl

theorem clearReset_eq (hreset : resetOf s n = some x) (hreleased : resetReleased (releaseAll s x) x = true) :
    clearReset s n =
      (let u := injectionOver (endReset (releaseAll s x) n) x
      match x.domain with
      | 2 => leaveReset u x.target .active
      | 3 => settleAlert { slicesReturn u with sup := { (slicesReturn u).sup with resetting := false } }
      | _ => u) := by
  rw [clearReset, hreset]
  dsimp only
  rw [hreleased]
  rfl

theorem resetClear_context (hreset : resetOf s n = some x) (hreleased : resetReleased (releaseAll s x) x = true) (hdomain : x.domain ≤ 1) :
    exec (.resetClear n) s = .next (injectionOver (endReset (releaseAll s x) n) x) := by
  refine congrArg Host.Outcome.next ((clearReset_eq hreset hreleased).trans ?_)
  dsimp only
  split
  · omega
  · omega
  · rfl

theorem resetClear_partition (hreset : resetOf s n = some x) (hreleased : resetReleased (releaseAll s x) x = true) (hdomain : x.domain = 2) :
    exec (.resetClear n) s = .next (leaveReset (injectionOver (endReset (releaseAll s x) n) x) x.target .active) := by
  refine congrArg Host.Outcome.next ((clearReset_eq hreset hreleased).trans ?_)
  rw [hdomain]
  rfl

theorem resetClear_ends (hreset : resetOf s n = some x) (hreleased : resetReleased (releaseAll s x) x = true) :
    ∃ t, exec (.resetClear n) s = .next t ∧ resetOf t n = none ∧ t.nv = s.nv ∧ t.frames = s.frames ∧
      (x.domain = 3 → t.sup.resetting = false) := by
  have hover := resetOf_overReset (releaseAll s x) x n
  have hq := overReset_quiet s x n
  refine ⟨_, congrArg Host.Outcome.next (clearReset_eq hreset hreleased), ?_⟩
  dsimp only
  generalize injectionOver (endReset (releaseAll s x) n) x = u at hover hq
  split
  · have hq' := (leaveReset_quiet u x.target .active).trans hq
    exact ⟨(resetOf_congr (congrArg (·.resets) (leaveReset_sup ..)) n).trans hover, nv_of_quiet hq', frames_of_quiet hq', fun h => by omega⟩
  · have hslices : quiet (slicesReturn u) = quiet u := slicesReturn_keeps quiet (fun _ _ _ => rfl) u
    have hsup : (slicesReturn u).sup = u.sup := slicesReturn_keeps State.sup (fun _ _ _ => rfl) u
    have htable := settleAlert_resetTable { slicesReturn u with sup := { (slicesReturn u).sup with resetting := false } }
    obtain ⟨hresets, hresetting⟩ := Prod.mk.inj htable
    have hq' := (settleAlert_quiet { slicesReturn u with sup := { (slicesReturn u).sup with resetting := false } }).trans (hslices.trans hq)
    exact ⟨(resetOf_congr (hresets.trans (congrArg (·.resets) hsup)) n).trans hover, nv_of_quiet hq', frames_of_quiet hq', fun _ => hresetting⟩
  · exact ⟨hover, nv_of_quiet hq, frames_of_quiet hq, fun h => absurd h ‹_›⟩

theorem resetClear_none (hreset : resetOf s n = none) : exec (.resetClear n) s = .next s := by
  refine congrArg Host.Outcome.next ?_
  rw [clearReset, hreset]

/-! ### A reset that does not clear -/

theorem resetTimeout_eq (hreset : resetOf s n = some x) (hbegun : x.begun = true)
    (hlate : windowOver (resetNow s x) x.since (resetTicks x.domain) = true) :
    (x.domain = 2 → resetTimeout s n e false = endReset (leaveReset (bump s ctrSliceResetStuck x.target 1) x.target .failed) n) ∧
      (x.domain = 3 → resetTimeout s n e b = askCycle (endReset (bump s ctrModResetStuck 0 1) n) 3) := by
  constructor
  · intro hdomain
    rw [resetTimeout, hreset]
    dsimp only
    rw [hbegun, hlate, hdomain]
    rfl
  · intro hdomain
    rw [resetTimeout, hreset]
    dsimp only
    rw [hbegun, hlate, hdomain]
    rfl

theorem resetTimeout_partition (hreset : resetOf s n = some x) (hbegun : x.begun = true)
    (hlate : windowOver (resetNow s x) x.since (resetTicks x.domain) = true) (hdomain : x.domain = 2) :
    ∃ t, exec (.resetTimeout n e false) s = .next t ∧ resetOf t n = none ∧
      (∀ l, look? s.slices x.target = some l → l.state = .resetting → look? t.slices x.target = some { l with state := .failed }) ∧
      t.mem = s.mem ∧ t.nv = s.nv ∧ t.frames = s.frames := by
  have hq : quiet (leaveReset (bump s ctrSliceResetStuck x.target 1) x.target .failed) = quiet s := leaveReset_quiet ..
  refine ⟨_, congrArg Host.Outcome.next ((resetTimeout_eq (b := false) hreset hbegun hlate).1 hdomain), resetOf_endReset _ n,
    fun l hl hstate => ?_, leaveReset_mem .., nv_of_quiet hq, frames_of_quiet hq⟩
  rw [endReset, leaveReset, bump_slices, hl]
  dsimp only
  rw [if_pos hstate]
  exact look?_put_same ..

theorem resetTimeout_module (hreset : resetOf s n = some x) (hbegun : x.begun = true)
    (hlate : windowOver (resetNow s x) x.since (resetTicks x.domain) = true) (hdomain : x.domain = 3) (hnew : s.sup.cycleAsked = false) :
    exec (.resetTimeout n e b) s = .next (askCycle (endReset (bump s ctrModResetStuck 0 1) n) 3) ∧
      ∃ t, exec (.resetTimeout n e b) s = .next t ∧ t.sup.cycleAsked = true ∧ t.pins.alert = true ∧ t.mem = s.mem := by
  have hexec : exec (.resetTimeout n e b) s = .next _ := congrArg Host.Outcome.next ((resetTimeout_eq hreset hbegun hlate).2 hdomain)
  obtain ⟨hasked, halert, _, hmem, _⟩ := askCycle_effect (s := endReset (bump s ctrModResetStuck 0 1) n) hnew 3
  exact ⟨hexec, _, hexec, hasked, halert, hmem⟩

end Sys2Proof.Machine
end

section
/-! Further parts of the state that operations leave as they were. -/

namespace Sys2Proof.Machine

@[simp] theorem freeNext_slices (s : State) : (freeNext s).2.slices = s.slices := by rfl

@[simp] theorem freeNext_sup (s : State) : (freeNext s).2.sup = s.sup := by rfl

@[simp] theorem raiseMsix_slices (s : State) (v : Nat) : (raiseMsix s v).slices = s.slices := by
  grind [raiseMsix, bump_slices, emit_slices]

@[simp] theorem raiseMsix_sup (s : State) (v : Nat) : (raiseMsix s v).sup = s.sup := by
  grind [raiseMsix, bump_sup, emit_sup]

@[simp] theorem orphanTo_sup (s : State) (fromCore core slot gen step kind detail : Nat) : (orphanTo s fromCore core slot gen
    step kind detail).sup = s.sup := by rfl

@[simp] theorem dropMessage_sup (s : State) (router : Nat) (m : Msg) (tag epoch endEpoch reason : Nat) : (dropMessage s router m
    tag epoch endEpoch reason).sup = s.sup := by rfl

@[simp] theorem placeHeader_sup (s : State) (c k n : Nat) (g : Seg) : (placeHeader s c k n g).sup = s.sup := by
  grind [placeHeader, physWrite_sup, remoteWrite_sup, snoopAll_sup]

@[simp] theorem leavePartial_sup (s : State) (c k n : Nat) : (leavePartial s c k n).sup = s.sup := by
  grind [leavePartial, bump_sup, placeHeader_sup, each_or State.sup]

@[simp] theorem forgetSyncs_sup (s : State) (c k : Nat) (p : Nat → Bool) : (forgetSyncs s c k p).sup = s.sup := by rfl

@[simp] theorem cancelWaits_sup (s : State) (c k : Nat) : (cancelWaits s c k).sup = s.sup := by
  simp [cancelWaits, each_keeps State.sup]

@[simp] theorem intoImage_sup (s : State) (g : Group) (c : Nat) (l : List (Nat × List Byte)) : (intoImage s g c l).sup = s.sup
    := by
  grind [intoImage, each_or State.sup]

@[simp] theorem intoCore_sup (s : State) (c : Nat) (l : List (Nat × List Byte)) : (intoCore s c l).sup = s.sup := by
  simp [intoCore, each_keeps State.sup]

@[simp] theorem ringWritten_sup (s : State) (c : Nat) : (ringWritten s c).sup = s.sup := by
  grind [ringWritten, settleCore_sup]

@[simp] theorem placeMessage_sup (s : State) (m : Msg) (v : Slot) (tag epoch : Nat) (words : List Reg) (poison : Bool) (endEpoch
    : Nat) : (placeMessage s m v tag epoch words poison endEpoch).sup = s.sup := by
  unfold placeMessage; split <;> simp

@[simp] theorem placeInImage_sup (s : State) (m : Msg) (g : Group) (v : Slot) (tag epoch : Nat) (words : List Reg) (poison :
    Bool) : (placeInImage s m g v tag epoch words poison).sup = s.sup := by
  unfold placeInImage; split <;> simp

theorem parkAny_sup (s : State) (m : Msg) {t : State} (h : parkAny s m = some t) : t.sup = s.sup := by
  grind [parkAny, bump_sup, setReg_sup]

@[simp] theorem parkMessage_sup (s : State) (m : Msg) (tag epoch : Nat) : (parkMessage s m tag epoch).sup = s.sup := by
  exact getD_keeps State.sup (fun _ h => parkAny_sup s m h) (by simp)

@[simp] theorem deliverUser_sup (s : State) (m : Msg) (tag epoch : Nat) (words : List Reg) (poison : Bool) : (deliverUser s m
    tag epoch words poison).sup = s.sup := by
  grind [deliverUser, dropMessage_sup, parkMessage_sup, placeInImage_sup, placeMessage_sup]

@[simp] theorem recordInImage_sup (s : State) (h i : Nat) (g : Group) (c k : Nat) (record : Bool → Nat) : (recordInImage s h i g
    c k record).1.sup = s.sup := by
  fun_cases recordInImage <;> grind [bump_sup, intoImage_sup, setGroup_sup]

@[simp] theorem parkNotice_sup (s : State) (m : Msg) : (parkNotice s m).sup = s.sup := by
  exact getD_keeps State.sup (fun _ h => parkAny_sup s m h) (by simp)

@[simp] theorem deliverNotice_sup (s : State) (m : Msg) (gen kind : Nat) (detail : Reg) : (deliverNotice s m gen kind
    detail).sup = s.sup := by
  unfold deliverNotice
  extract_lets c k v record
  clear_value record
  split
  · split
    · simp
    · split
      · simp
      · split <;> simp
  · split
    · split
      · simp
      · split
        · extract_lets w
          split <;> simp
        · extract_lets r
          split <;> simp [r]
    · simp

@[simp] theorem setArea_sup (s : State) (c k i a : Nat) (r : Area) : (setArea s c k i a r).sup = s.sup := by rfl

@[simp] theorem tellContributors_sup (s : State) (c k e : Nat) (body : Nat → Body) : (tellContributors s c k e body).sup = s.sup
    := by
  simp [tellContributors, each_keeps State.sup]

@[simp] theorem dropLines_cores (s : State) (r : Nat) (p : Nat → Bool) : (dropLines s r p).cores = s.cores := by
  grind [dropLines, bump_cores, setHub_cores, each_or State.cores]

@[simp] theorem dropLines_sup (s : State) (r : Nat) (p : Nat → Bool) : (dropLines s r p).sup = s.sup := by
  grind [dropLines, bump_sup, setHub_sup, each_or State.sup]

@[simp] theorem imagePut_sup (s : State) (g : Group) (c off : Nat) (l : List Byte) : (imagePut s g c off l).sup = s.sup := by
  grind [imagePut, each_or State.sup]

@[simp] theorem putHead_sup (s : State) (g : Group) (c h : Nat) : (putHead s g c h).sup = s.sup := by
  simp [putHead]

@[simp] theorem headState_sup (s : State) (g : Group) (c st n : Nat) : (headState s g c st n).sup = s.sup := by
  grind [headState, putHead_sup]

@[simp] theorem failImages_sup (s : State) (h : Nat) (g : Group) (cores : List Nat) : (failImages s h g cores).sup = s.sup := by
  simp [failImages, each_keeps State.sup]

@[simp] theorem parkEnds_sup (s : State) (g : Group) (on : Bool) : (parkEnds s g on).sup = s.sup := by
  grind [parkEnds, setCore_sup, each_or State.sup]

@[simp] theorem unpark_sup (s : State) (cores : List Nat) : (unpark s cores).sup = s.sup := by
  grind [unpark, deliverNotice_sup, deliverUser_sup, setReg_sup, each_or State.sup]

@[simp] theorem dropRestore_sup (s : State) (h i : Nat) : (dropRestore s h i).sup = s.sup := by
  grind [dropRestore, headState_sup, setGroup_sup, unpark_sup, each_or State.sup]

@[simp] theorem unsave_sup (s : State) (g : Group) : (unsave s g).sup = s.sup := by
  grind [unsave, parkEnds_sup, setCore_sup, each_or State.sup]

@[simp] theorem writeClove_slices (s : State) (r domain trigger cls target config : Nat) (computeGone : Bool) : (writeClove s r
    domain trigger cls target config computeGone).slices = s.slices := by
  unfold writeClove; split <;> simp

@[simp] theorem writeClove_sup (s : State) (r domain trigger cls target config : Nat) (computeGone : Bool) : (writeClove s r
    domain trigger cls target config computeGone).sup = s.sup := by
  unfold writeClove; split <;> simp

@[simp] theorem sendRecord_slices (s : State) (f k : Nat) (r : Running) (code len : Nat) : (sendRecord s f k r code len).slices
    = s.slices := by
  grind [sendRecord, bump_slices, emit_slices]

@[simp] theorem sendRecord_sup (s : State) (f k : Nat) (r : Running) (code len : Nat) : (sendRecord s f k r code len).sup =
    s.sup := by
  grind [sendRecord, bump_sup, emit_sup]

@[simp] theorem complete_slices (s : State) (f k : Nat) (r : Running) (code : Nat) (resp : List Byte) : (complete s f k r code
    resp).slices = s.slices := by
  grind [complete, bump_slices, raiseMsix_slices, sendRecord_slices, setMb_slices]

@[simp] theorem complete_sup (s : State) (f k : Nat) (r : Running) (code : Nat) (resp : List Byte) : (complete s f k r code
    resp).sup = s.sup := by
  grind [complete, bump_sup, raiseMsix_sup, sendRecord_sup, setMb_sup]

@[simp] theorem stopCommand_slices (s : State) (f k : Nat) (r : Running) (code : Nat) : (stopCommand s f k r code).slices =
    s.slices := by
  simp [stopCommand]

@[simp] theorem stopCommand_sup (s : State) (f k : Nat) (r : Running) (code : Nat) : (stopCommand s f k r code).sup = s.sup :=
    by
  simp [stopCommand]

@[simp] theorem interrupt_slices (s : State) (code : Nat) (p : Running → Bool) : (interrupt s code p).slices = s.slices := by
  simp [interrupt, each_keeps State.slices]

@[simp] theorem interrupt_sup (s : State) (code : Nat) (p : Running → Bool) : (interrupt s code p).sup = s.sup := by
  simp [interrupt, each_keeps State.sup]

@[simp] theorem interruptReset_slices (s : State) (h : Nat) : (interruptReset s h).slices = s.slices := by
  simp [interruptReset]

@[simp] theorem interruptModule_sup (s : State) : (interruptModule s).sup = s.sup := by
  simp [interruptModule]

@[simp] theorem regroup_sup (s : State) (h : Nat) : (regroup s h).sup = s.sup := by
  unfold regroup; split <;> simp

@[simp] theorem engineRelease_sup (s : State) (c k : Nat) : (engineRelease s c k).sup = s.sup := by
  grind [engineRelease, setEng_sup, takeReplay_sup, each_or State.sup]

@[simp] theorem releaseCopies_sup (s : State) (unit : Unit) : (releaseCopies s unit).sup = s.sup := by
  simp [releaseCopies, each_keeps State.sup]

@[simp] theorem stopCopies_sup (s : State) (unit : Unit) (c k : Nat) : (stopCopies s unit c k).sup = s.sup := by
  simp [stopCopies]

@[simp] theorem stopStreams_sup (s : State) (c k : Nat) : (stopStreams s c k).sup = s.sup := by
  simp [stopStreams, each_keeps State.sup]

@[simp] theorem dropWaits_sup (s : State) (c k : Nat) : (dropWaits s c k).sup = s.sup := by
  simp [dropWaits]

@[simp] theorem freeAreas_sup (s : State) (c k : Nat) : (freeAreas s c k).sup = s.sup := by
  grind [freeAreas, setArea_sup, tellContributors_sup, each_or State.sup]

@[simp] theorem countReset_sup (s : State) (c k : Nat) (v : Slot) : (countReset s c k v).sup = s.sup := by rfl

@[simp] theorem resetOne_sup (s : State) (c k : Nat) : (resetOne s c k).sup = s.sup := by
  unfold resetOne; split <;> simp

@[simp] theorem breakSave_sup (s : State) (h i : Nat) (g : Group) (cores : List Nat) : (breakSave s h i g cores).sup = s.sup :=
    by
  grind [breakSave, dropRestore_sup, failImages_sup, setGroup_sup, unpark_sup, unsave_sup]

@[simp] theorem resetSlot_sup (s : State) (c k : Nat) : (resetSlot s c k).sup = s.sup := by
  grind [resetSlot, breakSave_sup, bump_sup, regroup_sup, resetOne_sup, each_or State.sup]

@[simp] theorem onReset_slices (s : State) (id : Nat) (f : Reset → Reset) : (onReset s id f).slices = s.slices := by rfl

@[simp] theorem noteWord_slices (s : State) (r index : Nat) : (noteWord s r index).slices = s.slices := by
  unfold noteWord; split <;> simp

@[simp] theorem noteWord_sup (s : State) (r index : Nat) : (noteWord s r index).sup = s.sup := by
  unfold noteWord; split <;> simp

@[simp] theorem beginReset_slices (s : State) (x : Reset) : (beginReset s x).slices = s.slices := by
  unfold beginReset; split <;> simp [each_keeps State.slices]

@[simp] theorem supersede_slices (s : State) (id : Nat) (p : Reset → Bool) : (supersede s id p).slices = s.slices := by
  grind [supersede, setRun_slices, each_or State.slices]

@[simp] theorem clearRegion_cores (s : State) (r : Nat) : (clearRegion s r).cores = s.cores := by
  simp [clearRegion]

@[simp] theorem clearRegion_sup (s : State) (r : Nat) : (clearRegion s r).sup = s.sup := by
  simp [clearRegion]

@[simp] theorem dropGroups_sup (s : State) (h : Nat) : (dropGroups s h).sup = s.sup := by
  grind [dropGroups, failImages_sup, setSlice_sup, each_or State.sup]

@[simp] theorem clearEngine_sup (s : State) (g : Nat) : (clearEngine s g).sup = s.sup := by rfl

@[simp] theorem clearCore_sup (s : State) (c : Nat) : (clearCore s c).sup = s.sup := by
  grind [clearCore, clearEngine_sup, setCore_sup, each_or State.sup]

@[simp] theorem clearSlice_sup (s : State) (h : Nat) : (clearSlice s h).sup = s.sup := by
  grind [clearSlice, clearCore_sup, clearRegion_sup, dropGroups_sup, resetOne_sup, setHub_sup, each_or State.sup]

end Sys2Proof.Machine
end

section
/-! Further parts of the state that operations leave as they were. -/

namespace Sys2Proof.Machine

@[simp] theorem dropLines_mesh (s : State) (r : Nat) (p : Nat → Bool) : (dropLines s r p).mesh = s.mesh := by
  grind [dropLines, bump_mesh, setHub_mesh, each_or State.mesh]

@[simp] theorem dropLines_narrow (s : State) (r : Nat) (p : Nat → Bool) : (dropLines s r p).narrow = s.narrow := by
  grind [dropLines, bump_narrow, setHub_narrow, each_or State.narrow]

@[simp] theorem dropLines_xlat (s : State) (r : Nat) (p : Nat → Bool) : (dropLines s r p).xlat = s.xlat := by
  grind [dropLines, bump_xlat, setHub_xlat, each_or State.xlat]

@[simp] theorem clearRegion_mesh (s : State) (r : Nat) : (clearRegion s r).mesh = s.mesh := by
  simp [clearRegion]

@[simp] theorem clearRegion_narrow (s : State) (r : Nat) : (clearRegion s r).narrow = s.narrow := by
  simp [clearRegion]

@[simp] theorem clearRegion_xlat (s : State) (r : Nat) : (clearRegion s r).xlat = s.xlat := by
  simp [clearRegion]

end Sys2Proof.Machine
end

section
/-! ## Engine resets and module compute resets, R818, R823 to R825 -/

namespace Sys2Proof.Machine
open Sys2Proof.Claims

variable {s t : State} {c k g h n : Nat} {x : Reset} {e : Option Nat} {b : Bool}

/-! ### An engine with nothing accepted -/

theorem engineReset_clears (hreset : s.sup.resets.find? (fun x => x.domain = 1 && x.target = g && !x.begun) = some x) :
    let u := deferIn (bump (beginReset s x) ctrRegionEngResets (regionOf (coreOfEngine g)) 1) [regionOf (coreOfEngine g)]
    engineSlots (engOf u g) = [] → exec (.engineReset g) s =
      .next (onReset (setEng { u with mem := zeroRange u.mem (bufPhys g 0) (bufPhys g (2 ^ 18)) } g
        { Engine.fresh with queue := (engOf u g).queue, defect := (engOf u g).defect }) x.id (fun y => { y with holding := [] })) ∧
    ∃ t, exec (.engineReset g) s = .next t ∧
      engOf t g = { Engine.fresh with queue := (engOf u g).queue, defect := (engOf u g).defect } ∧
      t.mem = zeroRange u.mem (bufPhys g 0) (bufPhys g (2 ^ 18)) ∧ t.nv = s.nv ∧ t.frames = s.frames := by
  intro u hslots
  have hact : engineReset s g = onReset (setEng { u with mem := zeroRange u.mem (bufPhys g 0) (bufPhys g (2 ^ 18)) } g
      { Engine.fresh with queue := (engOf u g).queue, defect := (engOf u g).defect }) x.id (fun y => { y with holding := [] }) := by
    rw [engineReset, hreset]
    dsimp only
    rw [hslots]
    rfl
  have hexec : exec (.engineReset g) s = .next _ := congrArg Host.Outcome.next hact
  have hboxed : boxed u = boxed s := by
    rw [show u = _ from rfl, deferIn_boxed]
    exact boxed_of_quiet ((bump_quiet ..).trans (beginReset_quiet ..))
  refine ⟨hexec, _, hexec, ?_, rfl, nv_of_boxed hboxed, frames_of_boxed hboxed⟩
  exact engOf_setEng { u with mem := zeroRange u.mem (bufPhys g 0) (bufPhys g (2 ^ 18)) } g _

/-! ### The module, R823 -/

theorem closeRoutes_wires (s : State) : (closeRoutes s).mesh.wires = s.mesh.wires := by
  unfold closeRoutes
  dsimp only
  split <;> rfl

theorem settleRoutes_wires (s : State) : (settleRoutes s).mesh.wires = s.mesh.wires := by
  unfold settleRoutes
  split
  · exact closeRoutes_wires _
  · exact closeRoutes_wires _

theorem settleRoutes_shape (s : State) : settleRoutes s = { s with mesh := (settleRoutes s).mesh, counts := (settleRoutes s).counts } := by
  unfold settleRoutes
  split <;> rfl

/-- R823: what is left of a core. -/
theorem slotOf_clearWafer (s : State) (c k : Nat) : (slotOf (clearWafer s) c k).state = .empty := by
  unfold slotOf coreOf look
  cases hcore : look? (clearWafer s).cores c with
  | none => rfl
  | some co =>
    obtain ⟨e, _, he⟩ := List.mem_map.mp (mem_of_look? hcore)
    obtain ⟨rfl, rfl⟩ := Prod.mk.inj he
    dsimp only [Option.getD]
    cases hslot : look? (e.2.slots.map fun v => (v.1, if v.2.state = .empty then v.2 else emptied v.1 v.2)) k with
    | none => rfl
    | some v =>
      obtain ⟨w, _, hw⟩ := List.mem_map.mp (mem_of_look? hslot)
      obtain ⟨rfl, rfl⟩ := Prod.mk.inj hw
      dsimp only [Option.getD]
      split
      · assumption
      · rfl

theorem beginReset_resetting (s : State) (x : Reset) : (beginReset s x).sup.resetting = s.sup.resetting := by
  have hword (t : State) : (match x.repair with
      | some (3, place) => noteWord t (place / 65536) (place % 65536)
      | _ => t : State).sup = t.sup := by
    split
    · exact noteWord_sup ..
    · rfl
  refine (congrArg (fun q : Supervisor => q.resetting) (hword _)).trans (congrArg (fun q : Supervisor => q.resetting) ?_)
  exact each_keeps (P := State.sup) (fun r t => writeClove_sup ..) _ s

theorem supersede_resetting (s : State) (id : Nat) (p : Reset → Bool) : (supersede s id p).sup.resetting = s.sup.resetting := by
  unfold supersede
  dsimp only
  refine congrArg (fun q : Supervisor => q.resetting) (each_keeps (P := State.sup) (fun e t => ?_) _ s)
  split
  · split <;> rfl
  · rfl

/-- R823: the resetting of the regions of a module whose wafer is cleared. -/
def clearRegions (s : State) : State := each (regionList s) (settleRoutes (clearWafer s)) (fun r s => clearRegion s r)

theorem clearRegions_effect (s : State) :
    let t := clearRegions s
    t.sup = s.sup ∧ t.narrow = [] ∧ t.mesh.wires = [] ∧ t.xlat.cache = [] ∧ (∀ c k, (slotOf t c k).state = .empty) ∧ t.nv = s.nv := by
  have hkeeps {β : Type} (P : State → β) (hP : ∀ t r, P (clearRegion t r) = P t) : P (clearRegions s) = P (settleRoutes (clearWafer s)) :=
    each_keeps (P := P) (fun r t => hP t r) _ _
  have hwafer {β : Type} (P : State → β) (hP : ∀ (t : State) m cs, P { t with mesh := m, counts := cs } = P t) :
      P (settleRoutes (clearWafer s)) = P (clearWafer s) := by
    rw [settleRoutes_shape]
    exact hP ..
  have hquiet (t : State) (r : Nat) : quiet (clearRegion t r) = quiet t := clearRegion_quiet t r
  refine ⟨?_, ?_, ?_, ?_, fun c k => ?_, ?_⟩
  · exact (hkeeps State.sup fun t r => clearRegion_sup t r).trans (hwafer State.sup fun _ _ _ => rfl)
  · exact (hkeeps State.narrow fun t r => clearRegion_narrow t r).trans (hwafer State.narrow fun _ _ _ => rfl)
  · exact (hkeeps State.mesh fun t r => clearRegion_mesh t r) ▸ settleRoutes_wires (clearWafer s)
  · exact congrArg (·.cache) ((hkeeps State.xlat fun t r => clearRegion_xlat t r).trans (hwafer State.xlat fun _ _ _ => rfl))
  · rw [slotOf_congr ((hkeeps State.cores fun t r => clearRegion_cores t r).trans (hwafer State.cores fun _ _ _ => rfl))]
    exact slotOf_clearWafer s c k
  · exact (hkeeps State.nv fun t r => nv_of_quiet (hquiet t r)).trans (hwafer State.nv fun _ _ _ => rfl)

/-- R823: the module's compute once the reset `x` has begun, with the regions the anise pass is deferred in. -/
def moduleBegun (s : State) (x : Reset) : State :=
  let u := settleAlert { s with sup := { s.sup with resetting := true } }
  let u := bump (interruptModule u) (ctrModResets.plus (x.trigger - 1)) 0 1
  supersede (beginReset u x) x.id (fun y => decide (y.domain ≤ 3))

/-- R823: the groups of every slice are gone. -/
def dropAllGroups (s : State) : State := each (keys s.slices) s (fun h s => dropGroups s h)

theorem moduleReset_eq (hreset : s.sup.resets.find? (fun x => x.domain = 3 && !x.begun) = some x) (hrepair : x.repair = none) :
    moduleReset s [] =
      tellReset (clearRegions (dropAllGroups (deferIn (moduleBegun s x) (regionList (moduleBegun s x))))) x 0 := by
  obtain ⟨id, domain, target, trigger, since, holding, begun, cls, config, repair⟩ := x
  cases hrepair
  unfold moduleReset
  rw [hreset]
  rfl

theorem moduleInterrupted_stored (s : State) (c : Ctr) :
    stored (bump (interruptModule (settleAlert { s with sup := { s.sup with resetting := true } })) c 0 1) = stored s :=
  (interruptModule_stored _).trans (stored_of_quiet (settleAlert_quiet _))

theorem moduleInterrupted_resetting (s : State) (c : Ctr) :
    (bump (interruptModule (settleAlert { s with sup := { s.sup with resetting := true } })) c 0 1).sup.resetting = true := by
  rw [bump_sup, interruptModule_sup]
  exact (Prod.mk.inj (settleAlert_resetTable { s with sup := { s.sup with resetting := true } })).2

theorem moduleBegun_stored (s : State) (x : Reset) : stored (moduleBegun s x) = stored s :=
  (supersede_stored ..).trans ((stored_of_quiet (beginReset_quiet ..)).trans (moduleInterrupted_stored s _))

theorem moduleBegun_resetting (s : State) (x : Reset) : (moduleBegun s x).sup.resetting = true :=
  (supersede_resetting ..).trans ((beginReset_resetting ..).trans (moduleInterrupted_resetting s _))

theorem dropAllGroups_quiet (s : State) : quiet (dropAllGroups s) = quiet s :=
  each_keeps (P := quiet) (fun _ t => dropGroups_quiet t _) _ s

theorem dropAllGroups_sup (s : State) : (dropAllGroups s).sup = s.sup :=
  each_keeps (P := State.sup) (fun _ t => dropGroups_sup t _) _ s

theorem moduleReset_effect (s : State) (x : Reset) (regions : List Nat) :
    let t := tellReset (clearRegions (dropAllGroups (deferIn (moduleBegun s x) regions))) x 0
    t.sup.resetting = true ∧ t.narrow = [] ∧ t.mesh.wires = [] ∧
      t.xlat.cache = [] ∧ (∀ c k, activeState (slotOf t c k).state = false) ∧ t.nv = s.nv := by
  have hresetting : (dropAllGroups (deferIn (moduleBegun s x) regions)).sup.resetting = true := by
    rw [dropAllGroups_sup, (decides_deferIn _ _).resetting, moduleBegun_resetting]
  have hnv : (dropAllGroups (deferIn (moduleBegun s x) regions)).nv = s.nv := by
    rw [nv_of_quiet (dropAllGroups_quiet _), nv_of_boxed (deferIn_boxed ..), nv_of_stored (moduleBegun_stored s x)]
  generalize dropAllGroups (deferIn (moduleBegun s x) regions) = w at hresetting hnv
  have hclear := clearRegions_effect w
  generalize clearRegions w = v at hclear
  obtain ⟨hsup, hnarrow, hwires, hcache, hempty, hn⟩ := hclear
  exact ⟨(congrArg (fun q : Supervisor => q.resetting) hsup).trans hresetting, hnarrow, hwires, hcache,
    fun c k => congrArg activeState (hempty c k), hn.trans hnv⟩

theorem moduleReset_clears (hreset : s.sup.resets.find? (fun x => x.domain = 3 && !x.begun) = some x) (hrepair : x.repair = none) :
    let u := settleAlert { s with sup := { s.sup with resetting := true } }
    let u := bump (interruptModule u) (ctrModResets.plus (x.trigger - 1)) 0 1
    let u := deferIn (supersede (beginReset u x) x.id (fun y => decide (y.domain ≤ 3))) (regionList u)
    let u := each (keys u.slices) u (fun h s => dropGroups s h)
    let u := each (regionList u) (settleRoutes (clearWafer u)) (fun r s => clearRegion s r)
    exec (.moduleComputeReset []) s = .next (tellReset u x 0) ∧
    ∃ t, exec (.moduleComputeReset []) s = .next t ∧ t.sup.resetting = true ∧ t.narrow = [] ∧ t.mesh.wires = [] ∧
      t.xlat.cache = [] ∧ (∀ c k, activeState (slotOf t c k).state = false) ∧ t.nv = s.nv := by
  intro u1 u2 u3 u4 u5
  have hlist : regionList (moduleBegun s x) = regionList u2 :=
    regionList_congr ((fuses_of_stored (moduleBegun_stored s x)).trans (fuses_of_stored (moduleInterrupted_stored s _)).symm)
  have hact : moduleReset s [] = tellReset u5 x 0 := (moduleReset_eq hreset hrepair).trans (by rw [hlist]; rfl)
  have hexec : exec (.moduleComputeReset []) s = .next _ := congrArg Host.Outcome.next hact
  exact ⟨hexec, _, hexec, moduleReset_effect s x (regionList u2)⟩

end Sys2Proof.Machine
end

section
/-! ## Partition resets, R820 -/

namespace Sys2Proof.Machine
open Sys2Proof.Claims

variable {s t : State} {c k g h n : Nat} {x : Reset} {l : Slice}

theorem partitionReset_destroying (hreset : s.sup.resets.find? (fun x => x.domain = 2 && x.target = h && !x.begun) = some x)
    (hl : look? s.slices h = some l) (hgoing : l.state = .destroying) : exec (.partitionReset h) s = .next (endReset s x.id) := by
  refine congrArg Host.Outcome.next ?_
  rw [partitionReset, hreset, hl]
  exact if_pos hgoing

/-! ### The compute of a slice is cleared -/

theorem dropGroups_slice {a : SliceState} (hhead : sliceHeads s h = some (a, n)) :
    ∃ l, look? (dropGroups s h).slices h = some l ∧ l.state = a ∧ l.partResets = n ∧ l.groups = [] ∧ l.confs = [] := by
  have hslices : (each ((groupsOf s h).filter (fun g => g.image = .saving)) s (fun g s => failImages s h g g.cores)).slices = s.slices :=
    each_keeps (P := State.slices) (fun g t => failImages_slices t h g g.cores) _ s
  obtain ⟨l, hl, hpair⟩ := Option.map_eq_some_iff.mp hhead
  obtain ⟨hstate, hresets⟩ := Prod.mk.inj hpair
  refine ⟨{ l with groups := [], confs := [] }, ?_, hstate, hresets, rfl, rfl⟩
  unfold dropGroups
  dsimp only
  rw [hslices, hl]
  exact look?_put_same ..

theorem clearSlice_slice {a : SliceState} (hhead : sliceHeads s h = some (a, n)) :
    ∃ l, look? (clearSlice s h).slices h = some l ∧ l.state = a ∧ l.partResets = n ∧ l.groups = [] ∧ l.confs = [] := by
  obtain ⟨w, hw⟩ : ∃ w, clearSlice s h = dropGroups w h := ⟨_, rfl⟩
  have hheads : sliceHeads w = sliceHeads s := by
    rw [← clearSlice_sliceHeads s h, hw, dropGroups_sliceHeads]
  rw [hw]
  exact dropGroups_slice (hheads ▸ hhead)

/-- R820: the slice and the resets it supersedes, once the reset `x` of the slice `h` has begun. -/
def partitionBegun (s : State) (h : Nat) (l : Slice) (x : Reset) : State :=
  let u := bump (interruptReset (setSlice s h { l with state := .resetting, partResets := l.partResets + 1 }) h) ctrSliceResets h 1
  supersede (beginReset u x) x.id (fun y => decide (y.domain ≤ 1) && (resetSlice u y = some h))

/-- R820 step 6: the region controllers of `regions` are not halted, and their heartbeats start again. -/
def controllersGoOn (s : State) (regions : List Nat) : State :=
  { s with sup := { s.sup with
      ctrlHalted := s.sup.ctrlHalted.filter (fun r => !(regions.contains r))
      beat := s.sup.beat.map (fun e => if regions.contains e.1 then (e.1, s.clocks.sup) else e) } }

theorem partitionReset_eq (hreset : s.sup.resets.find? (fun x => x.domain = 2 && x.target = h && !x.begun) = some x)
    (hl : look? s.slices h = some l) (hstays : l.state ≠ .destroying) :
    partitionReset s h = tellReset (controllersGoOn (clearSlice (deferIn (partitionBegun s h l x) l.regions) h) l.regions) x h := by
  unfold partitionReset
  rw [hreset, hl]
  refine (if_neg hstays).trans ?_
  simp only [controllersGoOn, partitionBegun]

theorem partitionBegun_slices (s : State) (h : Nat) (l : Slice) (x : Reset) :
    (partitionBegun s h l x).slices = put s.slices h { l with state := .resetting, partResets := l.partResets + 1 } :=
  (supersede_slices ..).trans ((beginReset_slices ..).trans (interruptReset_slices ..))

theorem partitionBegun_stored (s : State) (h : Nat) (l : Slice) (x : Reset) : stored (partitionBegun s h l x) = stored s :=
  (supersede_stored ..).trans ((stored_of_quiet (beginReset_quiet ..)).trans (interruptReset_stored ..))

theorem partitionReset_effect (hreset : s.sup.resets.find? (fun x => x.domain = 2 && x.target = h && !x.begun) = some x)
    (hl : look? s.slices h = some l) (hstays : l.state ≠ .destroying) :
    let u := controllersGoOn (clearSlice (deferIn (partitionBegun s h l x) l.regions) h) l.regions
    exec (.partitionReset h) s = .next (tellReset u x h) ∧
      ∃ t l', exec (.partitionReset h) s = .next t ∧ look? t.slices h = some l' ∧ l'.state = .resetting ∧ l'.groups = [] ∧
        l'.confs = [] ∧ l'.partResets = l.partResets + 1 ∧ t.nv = s.nv := by
  have hexec : exec (.partitionReset h) s = .next _ := congrArg Host.Outcome.next (partitionReset_eq hreset hl hstays)
  have hhead : sliceHeads (deferIn (partitionBegun s h l x) l.regions) h = some (.resetting, l.partResets + 1) := by
    rw [deferIn_sliceHeads, sliceHeads, partitionBegun_slices, headsOf, look?_put_same]
    rfl
  have hnv : (clearSlice (deferIn (partitionBegun s h l x) l.regions) h).nv = s.nv :=
    (nv_of_boxed ((clearSlice_boxed ..).trans (deferIn_boxed ..))).trans (nv_of_stored (partitionBegun_stored s h l x))
  obtain ⟨l', hl', hstate, hresets, hgroups, hconfs⟩ := clearSlice_slice hhead
  generalize clearSlice (deferIn (partitionBegun s h l x) l.regions) h = u at hexec hnv hl'
  exact ⟨hexec, _, l', hexec, hl', hstate, hgroups, hconfs, hresets, hnv⟩

theorem partitionReset_clears (hreset : s.sup.resets.find? (fun x => x.domain = 2 && x.target = h && !x.begun) = some x)
    (hl : look? s.slices h = some l) (hstays : l.state ≠ .destroying) :
    let u := bump (interruptReset (setSlice s h { l with state := .resetting, partResets := l.partResets + 1 }) h) ctrSliceResets h 1
    let u := supersede (beginReset u x) x.id (fun y => decide (y.domain ≤ 1) && (resetSlice u y = some h))
    let u := clearSlice (deferIn u l.regions) h
    let u := { u with sup := { u.sup with
      ctrlHalted := u.sup.ctrlHalted.filter (fun r => !(l.regions.contains r))
      beat := u.sup.beat.map (fun e => if l.regions.contains e.1 then (e.1, u.clocks.sup) else e) } }
    exec (.partitionReset h) s = .next (tellReset u x h) ∧
      ∃ t l', exec (.partitionReset h) s = .next t ∧ look? t.slices h = some l' ∧ l'.state = .resetting ∧ l'.groups = [] ∧
        l'.confs = [] ∧ l'.partResets = l.partResets + 1 ∧ t.nv = s.nv := by
  intro u1 u2 u3 u4
  have heffect := partitionReset_effect hreset hl hstays
  have hbegun : partitionBegun s h l x = u2 := rfl
  have hclear : clearSlice (deferIn u2 l.regions) h = u3 := rfl
  have hgo : controllersGoOn u3 l.regions = u4 := rfl
  rw [hbegun, hclear, hgo] at heffect
  clear_value u4
  exact heffect

end Sys2Proof.Machine
end

section
/-! Further parts of the state that operations leave as they were. -/

namespace Sys2Proof.Machine

@[simp] theorem outsideWrite_cores (s : State) (c off : Nat) (l : List Byte) (mask : List Bool) : (outsideWrite s c off l
    mask).cores = s.cores := by
  unfold outsideWrite; split <;> simp

@[simp] theorem snoopLine_cores (s : State) (line : Nat) (data : Bool) (why : Nat) (unit : Option Unit) : (snoopLine s line data
    why unit).cores = s.cores := by
  unfold snoopLine; split <;> simp

@[simp] theorem snoopAll_cores (s : State) (lines : List Nat) (data : Bool) (why : Nat) (unit : Option Unit) : (snoopAll s lines
    data why unit).cores = s.cores := by
  simp [snoopAll, each_keeps State.cores]

@[simp] theorem physWrite_cores (s : State) (a : Nat) (data : List Byte) (mask : List Bool) : (physWrite s a data mask).cores =
    s.cores := by
  unfold physWrite; split <;> simp

@[simp] theorem queueRow_cores (s : State) (port : Nat) (r : Row) : (queueRow s port r).cores = s.cores := by rfl

@[simp] theorem queueTo_cores (s : State) (port member hops : Nat) (r : Row) : (queueTo s port member hops r).cores = s.cores :=
    by
  unfold queueTo; split <;> simp

@[simp] theorem sendBy_cores (s : State) (handle e : Nat) (r : Row) : (sendBy s handle e r).cores = s.cores := by
  grind [sendBy, queueTo_cores]

@[simp] theorem sendRow_cores (s : State) (handle : Nat) (r : Row) : (sendRow s handle r).cores = s.cores := by
  simp [sendRow]

@[simp] theorem writeDone_cores (s : State) (j : CopyJob) : (writeDone s j).cores = s.cores := by rfl

@[simp] theorem writeElems_cores (s : State) (c k n : Nat) : (writeElems s c k n).cores = s.cores := by rfl

@[simp] theorem forgetSyncs_cores (s : State) (c k : Nat) (p : Nat → Bool) : (forgetSyncs s c k p).cores = s.cores := by rfl

@[simp] theorem cancelWaits_cores (s : State) (c k : Nat) : (cancelWaits s c k).cores = s.cores := by
  simp [cancelWaits, each_keeps State.cores]

@[simp] theorem tellContributors_cores (s : State) (c k e : Nat) (body : Nat → Body) : (tellContributors s c k e body).cores =
    s.cores := by
  simp [tellContributors, each_keeps State.cores]

@[simp] theorem regroup_cores (s : State) (h : Nat) : (regroup s h).cores = s.cores := by
  unfold regroup; split <;> simp

@[simp] theorem dropWaits_cores (s : State) (c k : Nat) : (dropWaits s c k).cores = s.cores := by
  simp [dropWaits]

@[simp] theorem countReset_cores (s : State) (c k : Nat) (v : Slot) : (countReset s c k v).cores = s.cores := by rfl

end Sys2Proof.Machine
end

section
/-! ## Context resets, R818 -/

namespace Sys2Proof.Machine
open Sys2Proof.Claims

variable {s t : State} {c k g h n : Nat} {x : Reset}

/-! ### What releasing a slot leaves of the others -/

/-- Whether and how a slot runs. -/
def standing (c k : Nat) (s : State) : SlotState × Bool := ((slotOf s c k).state, (slotOf s c k).stopping)

theorem standing_of_slot (h : slotOf t c k = slotOf s c k) : standing c k t = standing c k s := by
  rw [standing, h]
  rfl

theorem standing_of_cores (h : t.cores = s.cores) (c k : Nat) : standing c k t = standing c k s := standing_of_slot (slotOf_congr h c k)

theorem standing_onSlot {f : Slot → Slot} (hf : ∀ v, (f v).state = v.state ∧ (f v).stopping = v.stopping) (s : State) (d j c k : Nat) :
    standing c k (onSlot s d j f) = standing c k s := by
  by_cases h : (c, k) = (d, j)
  · obtain ⟨rfl, rfl⟩ := Prod.mk.inj h
    unfold standing
    rw [slotOf_onSlot, (hf _).1, (hf _).2]
  · exact standing_of_slot (slotOf_onSlot_ne s d j f h)

theorem standing_setCore {v : Core} (s : State) (d : Nat) (hv : v.slots = (coreOf s d).slots) (c k : Nat) :
    standing c k (setCore s d v) = standing c k s := by
  refine standing_of_slot ?_
  unfold slotOf
  by_cases h : c = d
  · rw [h, coreOf_setCore, hv]
  · rw [coreOf_setCore_ne s v h]

theorem standing_each {α : Type} {f : α → State → State} (h : ∀ a t, standing c k (f a t) = standing c k t) (l : List α) (s : State) :
    standing c k (each l s f) = standing c k s := each_keeps (P := standing c k) h l s

theorem standing_setStrm (s : State) (d j m : Nat) (v : Stream) : standing c k (setStrm s d j m v) = standing c k s := by
  refine standing_onSlot (fun w => ?_) s d j c k
  exact ⟨rfl, rfl⟩

theorem standing_setArea (s : State) (d j i a : Nat) (v : Area) : standing c k (setArea s d j i a v) = standing c k s := by
  refine standing_onSlot (fun w => ?_) s d j c k
  exact ⟨rfl, rfl⟩

theorem standing_bump (s : State) (x : Ctr) (u n : Nat) : standing c k (bump s x u n) = standing c k s := rfl

theorem standing_rewindStream (s : State) (d j m tile : Nat) : standing c k (rewindStream s d j m tile) = standing c k s := by
  unfold rewindStream
  dsimp only
  rw [standing_of_cores (writeElems_cores ..), standing_bump, standing_setStrm]

theorem standing_takeReplay (s : State) (id : Nat) : standing c k (takeReplay s id) = standing c k s := by
  unfold takeReplay
  dsimp only
  split
  · split
    · rfl
    · split
      · rfl
      · exact standing_each (fun m t => standing_rewindStream ..) _ _
  · rfl

theorem standing_engineRelease (s : State) (d j : Nat) : standing c k (engineRelease s d j) = standing c k s := by
  refine standing_each (fun i t => ?_) _ s
  split
  · exact standing_takeReplay ..
  · rfl

theorem standing_setJobs (s : State) (unit : Unit) (l : List CopyJob) : standing c k (setJobs s unit l) = standing c k s := by
  cases unit with
  | coreCopy d => exact standing_setCore s d (by rfl) c k
  | _ => rfl

theorem standing_progress (s : State) (d j : Nat) (flows : Bool) : standing c k (progress s d j flows) = standing c k s := by
  obtain ⟨b, told, w, p, hslot⟩ := progress_slot s d j flows c k
  unfold standing
  rw [hslot]

theorem standing_retire (s : State) (j : CopyJob) : standing c k (retire s j).1 = standing c k s := by
  unfold retire
  dsimp only
  split
  · rfl
  · refine (standing_progress ..).trans ((standing_of_cores (writeDone_cores ..) c k).trans ?_)
    refine (standing_each (fun e t => ?_) _ _).trans rfl
    cases noteCtr e.2 <;> split <;> rfl

theorem standing_releaseCopies (s : State) (unit : Unit) : standing c k (releaseCopies s unit) = standing c k s :=
  (standing_each (fun j t => standing_retire t j) _ _).trans (standing_setJobs ..)

theorem standing_stopCopies (s : State) (unit : Unit) (d j : Nat) : standing c k (stopCopies s unit d j) = standing c k s :=
  (standing_releaseCopies ..).trans (standing_setJobs ..)

theorem standing_freshTag (s : State) (unit : Unit) : standing c k (freshTag s unit).2 = standing c k s := by
  cases unit with
  | coreCopy d => exact standing_setCore s d (by rfl) c k
  | stream d j m => exact standing_setCore s d (by rfl) c k
  | _ => rfl

theorem standing_remoteWrite (s : State) (i : Issuer) (g : Seg) (a : Nat) : standing c k (remoteWrite s i g a).1 = standing c k s := by
  unfold remoteWrite
  split
  · rfl
  · exact (standing_of_cores (sendRow_cores ..) c k).trans (standing_freshTag ..)

theorem standing_placeHeader (s : State) (d j m : Nat) (g : Seg) : standing c k (placeHeader s d j m g) = standing c k s := by
  unfold placeHeader
  split
  · exact standing_of_cores (physWrite_cores ..) c k
  · dsimp only
    split
    · exact standing_of_cores ((physWrite_cores ..).trans (snoopAll_cores ..)) c k
    · exact standing_remoteWrite ..
    · rfl
  · rfl

theorem standing_leavePartial (s : State) (d j m : Nat) : standing c k (leavePartial s d j m) = standing c k s := by
  unfold leavePartial
  dsimp only
  split
  · rfl
  · refine (standing_each (fun x t => ?_) _ _).trans ?_
    · split
      · rfl
      · exact standing_each (fun g t => standing_placeHeader ..) _ _
    · exact (standing_of_cores rfl c k).trans (standing_each (fun g t => standing_placeHeader ..) _ _)

theorem standing_stopStreams (s : State) (d j : Nat) : standing c k (stopStreams s d j) = standing c k s :=
  standing_each (fun _ _ => (standing_setStrm ..).trans (standing_leavePartial ..)) _ s

theorem standing_freeAreas (s : State) (d j : Nat) : standing c k (freeAreas s d j) = standing c k s := by
  refine standing_each (fun e t => ?_) _ s
  split
  · exact (standing_of_cores (tellContributors_cores ..) c k).trans (standing_setArea ..)
  · rfl

theorem standing_closeEnds (s : State) (d j : Nat) : standing c k (closeEnds s d j) = standing c k s := by
  exact standing_setCore s d (by rfl) c k

/-! ### An EMPTY slot stays EMPTY -/

/-- The slot is EMPTY and does not stop. -/
def Emptied (c k : Nat) (s : State) : Prop := standing c k s = (.empty, false)

theorem emptied_settleCore (h : Emptied c k s) (d : Nat) : Emptied c k (settleCore s d) := by
  obtain ⟨hstate, hstopping⟩ := Prod.mk.inj h
  obtain ⟨hstate', hstopping'⟩ := settleCore_state (c := d) (P := fun x => x = .empty) hstopping hstate (fun h => nomatch h)
    (fun _ _ _ _ h _ => nomatch h)
  exact Prod.ext hstate' hstopping'

theorem emptied_onSlot (s : State) (d j : Nat) (h : (c, k) = (d, j) ∨ Emptied c k s) : Emptied c k (onSlot s d j (emptied j)) := by
  by_cases hslot : (c, k) = (d, j)
  · obtain ⟨rfl, rfl⟩ := Prod.mk.inj hslot
    unfold Emptied standing
    rw [slotOf_onSlot]
    rfl
  · exact (standing_of_slot (slotOf_onSlot_ne s d j _ hslot)).trans (h.resolve_left hslot)

theorem standing_xlat (s : State) (x : Translation) : standing c k { s with xlat := x } = standing c k s := rfl

theorem standing_setHub (s : State) (h : Nat) (v : Hub) : standing c k (setHub s h v) = standing c k s := rfl

/-- The reset of a slot empties it once its units have released it, which leaves how every slot stands. -/
theorem resetOne_empties (s : State) (d j : Nat) :
    ∃ w, resetOne s d j = settleCore (onSlot w d j (emptied j)) d ∧ ∀ c k, standing c k w = standing c k s := by
  refine ⟨_, rfl, fun c k => ?_⟩
  refine (standing_closeEnds ..).trans ((standing_of_cores (countReset_cores ..) c k).trans ((standing_freeAreas ..).trans ?_))
  refine (standing_of_cores (dropWindow_cores ..) c k).trans ((standing_xlat ..).trans ?_)
  refine (standing_of_cores ((forgetSyncs_cores ..).trans (dropWaits_cores ..)) c k).trans ((standing_stopStreams ..).trans ?_)
  refine (standing_setHub ..).trans ((standing_stopCopies ..).trans ((standing_stopCopies ..).trans ((standing_engineRelease ..).trans ?_)))
  split
  · exact standing_setCore s d (by rfl) c k
  · rfl

theorem emptied_resetOne (s : State) (d j : Nat) (h : (c, k) = (d, j) ∨ Emptied c k s) : Emptied c k (resetOne s d j) := by
  obtain ⟨w, hreset, hstands⟩ := resetOne_empties s d j
  rw [hreset]
  exact emptied_settleCore (emptied_onSlot w d j (h.imp_right fun h => (hstands c k).trans h)) d

theorem resetSlot_eq (s : State) (c k : Nat) : ∃ u h, resetSlot s c k =
    regroup (bump (match (slotOf s c k).twin with
      | some (tc, tk) => resetOne (resetOne u c k) tc tk
      | none => resetOne u c k) ctrRegionCtxResets (regionOf c) 1) h := ⟨_, _, rfl⟩

theorem emptied_resetSlot (s : State) (c k : Nat) : Emptied c k (resetSlot s c k) := by
  obtain ⟨u, h, hreset⟩ := resetSlot_eq s c k
  rw [hreset]
  have hown : Emptied c k (resetOne u c k) := emptied_resetOne u c k (.inl rfl)
  refine (standing_of_cores (regroup_cores ..) c k).trans ((standing_bump ..).trans ?_)
  split
  · exact emptied_resetOne _ _ _ (.inr hown)
  · exact hown

/-! ### The reset of a slot -/

theorem beginReset_eq (s : State) (x : Reset) : ∃ u f, beginReset s x = onReset u x.id f ∧ u.sup = s.sup ∧ ∀ y, (f y).id = y.id := by
  refine ⟨_, _, rfl, ?_, fun y => rfl⟩
  have heach (l : List Nat) (g : Nat → State → State) (hg : ∀ r t, (g r t).sup = t.sup) : (each l s g).sup = s.sup :=
    each_keeps (P := State.sup) hg l s
  split
  · exact (noteWord_sup ..).trans (heach _ _ fun r t => writeClove_sup ..)
  · exact heach _ _ fun r t => writeClove_sup ..

theorem beginReset_keeps_id {y : Reset} (s : State) (x : Reset) (hy : y ∈ s.sup.resets) : ∃ z ∈ (beginReset s x).sup.resets, z.id = y.id := by
  obtain ⟨u, f, hbegin, hsup, hf⟩ := beginReset_eq s x
  rw [hbegin]
  refine ⟨_, List.mem_map_of_mem (hsup ▸ hy), ?_⟩
  split
  · exact hf y
  · rfl

theorem contextReset_begins (hreset : contextOver s c k = some x) :
    let u := deferIn (if x.begun then s else beginReset s x) [regionOf c]
    exec (.contextReset c k) s = .next (onReset (resetSlot u c k) x.id
      (fun y => { y with holding := y.holding ++ [{ kind := 0, id := c * 4 + k }] })) ∧
    ∃ t, exec (.contextReset c k) s = .next t ∧ (slotOf t c k).state = .empty ∧ t.nv = s.nv ∧ t.frames = s.frames ∧
      ∃ y ∈ t.sup.resets, y.id = x.id ∧ ⟨0, c * 4 + k⟩ ∈ y.holding := by
  intro u
  have hact : contextReset s c k = onReset (resetSlot u c k) x.id
      (fun y => { y with holding := y.holding ++ [{ kind := 0, id := c * 4 + k }] }) := by
    rw [contextReset, hreset]
  have hexec : exec (.contextReset c k) s = .next _ := congrArg Host.Outcome.next hact
  have hboxed : boxed (resetSlot u c k) = boxed s := by
    refine (resetSlot_boxed ..).trans ((deferIn_boxed ..).trans (boxed_of_quiet ?_))
    split
    · rfl
    · exact beginReset_quiet ..
  have hx : x ∈ s.sup.resets := List.mem_of_find?_eq_some hreset
  obtain ⟨z, hz, hid⟩ : ∃ z ∈ (if x.begun then s else beginReset s x).sup.resets, z.id = x.id := by
    split
    · exact ⟨x, hx, rfl⟩
    · exact beginReset_keeps_id s x hx
  have hzu : z ∈ (resetSlot u c k).sup.resets := by
    rw [resetSlot_sup]
    exact (decides_deferIn _ _).resets z hz
  refine ⟨hexec, _, hexec, (Prod.mk.inj (emptied_resetSlot u c k)).1, nv_of_boxed hboxed, frames_of_boxed hboxed, ?_⟩
  refine ⟨_, List.mem_map_of_mem hzu, ?_⟩
  rw [if_pos hid]
  exact ⟨hid, List.mem_append_right _ List.mem_cons_self⟩

theorem contextReset_none (hreset : contextOver s c k = none) : exec (.contextReset c k) s = .next s := by
  refine congrArg Host.Outcome.next ?_
  rw [contextReset, hreset]

/-- Settles O60. -/
theorem resetsRunAndClear : Obligations.ResetsRunAndClear := by
  intro s c k g h n x e b
  refine ⟨contextReset_begins, contextReset_none, engineReset_clears,
    fun l hreset hl => ⟨partitionReset_destroying hreset hl, partitionReset_clears hreset hl⟩, moduleReset_clears,
    fun hreset hreleased => ⟨resetClear_context hreset hreleased, resetClear_partition hreset hreleased, resetClear_ends hreset hreleased⟩,
    resetClear_none, fun hreset hbegun hlate => ⟨fun hdomain hb => ?_, resetTimeout_module hreset hbegun hlate⟩⟩
  subst hb
  exact resetTimeout_partition hreset hbegun hlate hdomain

end Sys2Proof.Machine
end

section
/-! ## Packets in a router, R412 to R434 -/

namespace Sys2Proof.Machine
open Sys2Proof.Claims

variable {s t w : State} {router port n code : Nat} {p : Packet}

/-! ### A packet alone in its router -/

/-- The packet `p` is the only one in the buffers of the router, nothing waits at its ports, and its check is passed. -/
structure Lone (w : State) (router port : Nat) (p : Packet) : Prop where
  inside : port < 8
  own : wire w router port = [p]
  others : ∀ x < 8, x ≠ port → wire w router x = []
  entering : ∀ x < 8, look w.mesh.entering (router * 8 + x) [] = []
  passed : verified w p = true

theorem Lone.mem_wire (h : Lone w router port p) {x : Nat} (hx : x < 8) {q : Packet} (hq : q ∈ wire w router x) : q = p := by
  by_cases hport : x = port
  · rw [hport, h.own] at hq
    exact List.mem_singleton.mp hq
  · rw [h.others x hx hport] at hq
    exact absurd hq List.not_mem_nil

theorem mem_of_channelHeads {seen : List Nat} {l : List Packet} {q : Packet} (h : q ∈ channelHeads seen l) : q ∈ l := by
  induction l generalizing seen with
  | nil => exact h
  | cons a l ih =>
    rw [channelHeads] at h
    split at h
    · exact List.mem_cons_of_mem a (ih h)
    · obtain rfl | hq := List.mem_cons.mp h
      · exact List.mem_cons_self
      · exact List.mem_cons_of_mem a (ih hq)

theorem Lone.itsTurn (h : Lone w router port p) (code : Nat) : itsTurn w router code p = maySend w router code p := by
  have hrivals : ∀ q ∈ ((List.range 8).flatMap (fun x => channelHeads [] (wire w router x))).filter (fun q =>
      verified w q && codeOf w router q = code), q = p := by
    intro q hq
    obtain ⟨x, hx, hq⟩ := List.mem_flatMap.mp (List.mem_filter.mp hq).1
    exact h.mem_wire (List.mem_range.mp hx) (mem_of_channelHeads hq)
  unfold Sys2Proof.Machine.itsTurn
  dsimp only
  generalize List.filter _ _ = rivals at hrivals
  have hfirst : rivals.all (fun o => o.vc ≠ p.vc || decide (p.seen ≤ o.seen)) = true := by
    refine List.all_eq_true.mpr fun q hq => ?_
    rw [hrivals q hq]
    simp
  rw [hfirst, List.all_eq_true.mpr (fun q hq => ?_), Bool.and_true, Bool.and_true]
  rw [hrivals q hq]
  simp

theorem Lone.combineOnce (h : Lone w router port p) : combineOnce w router port p = none := by
  have hpartner : partnerOf w router p = none := by
    unfold partnerOf
    rw [List.head?_eq_none_iff, List.filterMap_eq_nil_iff]
    intro x hx
    rw [Option.map_eq_none_iff, List.find?_eq_none]
    intro q hq
    rw [h.mem_wire (List.mem_range.mp hx) hq]
    simp
  unfold Sys2Proof.Machine.combineOnce
  rw [hpartner, ite_self]
  rfl

theorem Lone.combineAll (h : Lone w router port p) : combineAll router 64 w port p = (w, port, p) := by
  rw [Sys2Proof.Machine.combineAll, h.combineOnce]

theorem Lone.takeOff (h : Lone w router port p) : takeOff w router port p =
    { w with mesh := { w.mesh with
      wires := put w.mesh.wires (router * 8 + port) []
      passed := w.mesh.passed.filter (· ≠ p.seen) } } := by
  unfold Sys2Proof.Machine.takeOff onWire setWire enterPort
  dsimp only
  rw [h.own, h.entering port h.inside, ite_self]
  simp

/-! ### What a router does with it -/

/-- The state once the check of a packet is passed. -/
def checkedAt (s : State) (tries : Tab Nat) (passed : List Nat) : State := { s with mesh := { s.mesh with tries := tries, passed := passed } }

/-- A router that holds one packet moves it, or it waits. -/
theorem routerStep_alone (h : Alone s router port p) :
    ∃ a b, Lone (checkedAt s a b) router port p ∧
      routerStep s router port true .good = (movePacket (checkedAt s a b) router port p).getD (checkedAt s a b) := by
  obtain ⟨hup, hport, hown, hothers, hentering, hwhole⟩ := h
  have hforward {u : State} (hl : Lone u router port p) : forwardPort u router port = (movePacket u router port p).getD u := by
    unfold forwardPort
    rw [hl.own]
    have hheads : (channelHeads [] [p]).filter (verified u) = [p] := by
      simp [channelHeads, hl.passed]
    rw [hheads, moveFirst]
    cases movePacket u router port p <;> rfl
  unfold routerStep
  rw [if_pos hup, hown]
  dsimp only
  rw [if_neg (by decide)]
  by_cases hseen : verified s p = true
  · have hlone : Lone (checkedAt s s.mesh.tries s.mesh.passed) router port p := ⟨hport, hown, hothers, hentering, hseen⟩
    refine ⟨_, _, hlone, ?_⟩
    rw [List.find?_cons_of_neg (by simp [hseen])]
    exact hforward hlone
  · have hlone : Lone (checkedAt s (put s.mesh.tries (router * 8 + port) 0) (p.seen :: s.mesh.passed)) router port p :=
      ⟨hport, hown, hothers, hentering, by simp [verified, checkedAt]⟩
    refine ⟨_, _, hlone, ?_⟩
    rw [List.find?_cons_of_pos (by simp [hseen])]
    dsimp only
    rw [if_pos hwhole]
    exact hforward hlone

theorem routerReceive_alone (h : Alone s router port p) :
    ∃ a b, Lone (checkedAt s a b) router port p ∧
      (∀ t, movePacket (checkedAt s a b) router port p = some t → exec (.routerPacketReceive router port true .good) s = .next t) ∧
      (movePacket (checkedAt s a b) router port p = none →
        exec (.routerPacketReceive router port true .good) s = .next (checkedAt s a b)) := by
  obtain ⟨a, b, hlone, hstep⟩ := routerStep_alone h
  refine ⟨a, b, hlone, fun t ht => congrArg Host.Outcome.next (hstep.trans ?_), fun ht => congrArg Host.Outcome.next (hstep.trans ?_)⟩
  · rw [ht]
    rfl
  · rw [ht]
    rfl

section
variable {a : Tab Nat} {b : List Nat}

theorem codeOf_checkedAt (s : State) (a : Tab Nat) (b : List Nat) (router : Nat) (p : Packet) :
    codeOf (checkedAt s a b) router p = codeOf s router p := rfl

theorem stallsAt_checkedAt (s : State) (a : Tab Nat) (b : List Nat) (p : Packet) : stallsAt (checkedAt s a b) p = stallsAt s p := rfl

theorem wire_put_same (t : Tab (List Packet)) (i : Nat) (l : List Packet) : look (put t i l) i [] = l := look_put_same ..

/-- R427: it goes to its endpoint. -/
theorem Lone.movePacket_local (h : Lone w router port p) (hlow : 4 ≤ codeOf w router p) (hhigh : codeOf w router p < 8)
    (hstalls : stallsAt w p = false) (hlink : codeOf w router p = 7 → linkOut w (edgeLink router) = false) :
    ∃ c d, movePacket w router port p = some (handOver { w with mesh := { w.mesh with
      wires := put w.mesh.wires (router * 8 + port) []
      passed := c
      turn := d } } p) := by
  have hmay : maySend w router (codeOf w router p) p = true := by
    rw [maySend, if_neg (Nat.not_lt.mpr hlow), hstalls, Bool.and_false, Bool.not_false, Bool.and_true]
    by_cases h7 : codeOf w router p = 7
    · rw [hlink h7, Bool.and_false]
      rfl
    · simp [h7]
  refine ⟨w.mesh.passed.filter (· ≠ p.seen), put w.mesh.turn (router * 8 + codeOf w router p) p.vc, ?_⟩
  unfold movePacket
  dsimp only
  rw [if_neg (Nat.not_le.mpr hhigh), if_neg (by rw [hstalls]; simp), if_neg (by rw [h.itsTurn, hmay]; decide), h.combineAll]
  dsimp only
  rw [if_pos hlow, h.takeOff]

/-- R434: its stall is counted. -/
theorem Lone.movePacket_stalled (hlow : 4 ≤ codeOf w router p) (hhigh : codeOf w router p < 8)
    (hstalls : stallsAt w p = true) (hnoted : p.noted = false) :
    movePacket w router port p = some (replaceIn { w with mesh := { w.mesh with
      stalls := put w.mesh.stalls p.dest (look w.mesh.stalls p.dest 0 + 1) } } router port p { p with noted := true }) := by
  unfold movePacket
  dsimp only
  rw [if_neg (Nat.not_le.mpr hhigh), if_pos (by rw [hstalls, hnoted, decide_eq_true hlow]; rfl)]

/-- R455: it is discarded. -/
theorem Lone.movePacket_discarded (h : Lone w router port p) (hcode : 8 ≤ codeOf w router p) :
    movePacket w router port p = some (discardPacket { w with mesh := { w.mesh with
      wires := put w.mesh.wires (router * 8 + port) []
      passed := w.mesh.passed.filter (· ≠ p.seen) } } router p) := by
  unfold movePacket
  dsimp only
  rw [if_pos hcode, h.takeOff]

/-- R427: it goes to a neighbour. -/
theorem Lone.movePacket_neighbour (h : Lone w router port p) (hcode : codeOf w router p < 4)
    (hn : neighbour router (codeOf w router p) = some n) (hup : routerUp w n = true)
    (hlink : linkOut w (linkOf router (codeOf w router p)) = false) (hroom : vcRoom w router n (portFacing (codeOf w router p)) p.vc = true) :
    ∃ c d, movePacket w router port p = some (bump (arriveAt { w with mesh := { w.mesh with
      wires := put w.mesh.wires (router * 8 + port) []
      passed := c
      turn := d } } n (portFacing (codeOf w router p)) p) ctrLinkPackets (linkOf router (codeOf w router p)) 1) := by
  have hmay : maySend w router (codeOf w router p) p = true := by
    rw [maySend, if_pos hcode, hn]
    dsimp only
    rw [hlink, hup, hroom]
    rfl
  refine ⟨w.mesh.passed.filter (· ≠ p.seen), put w.mesh.turn (router * 8 + codeOf w router p) p.vc, ?_⟩
  unfold movePacket
  dsimp only
  rw [if_neg (by omega), if_neg (by simp [Nat.not_le.mpr hcode]), if_neg (by rw [h.itsTurn, hmay]; decide), h.combineAll]
  dsimp only
  rw [if_neg (Nat.not_le.mpr hcode), hn]
  dsimp only
  rw [h.takeOff, if_neg]
  rw [Bool.not_eq_true', Bool.not_eq_false]
  exact hup

/-- R427: it waits. -/
theorem Lone.movePacket_waits (h : Lone w router port p) (hcode : codeOf w router p < 4)
    (hn : neighbour router (codeOf w router p) = some n) (hup : routerUp w n = true)
    (hblocked : linkOut w (linkOf router (codeOf w router p)) = true ∨ vcRoom w router n (portFacing (codeOf w router p)) p.vc = false) :
    movePacket w router port p = none := by
  have hmay : maySend w router (codeOf w router p) p = false := by
    rw [maySend, if_pos hcode, hn]
    dsimp only
    rw [hup]
    rcases hblocked with h | h <;> simp [h]
  unfold movePacket
  dsimp only
  rw [if_neg (by omega), if_neg (by simp [Nat.not_le.mpr hcode]), if_pos (by rw [h.itsTurn, hmay]; rfl), h.combineOnce]
  rfl

end

end Sys2Proof.Machine
end

section
/-! ## What a router does with a packet alone in it: R424, R427, R434 and R455 -/

namespace Sys2Proof.Machine
open Sys2Proof.Claims

variable {s t w : State} {router port n : Nat} {p q : Packet}

/-! ### Entering at a port -/

theorem waitAtPort_out (hentering : look w.mesh.entering (router * 8 + 7) [] = []) (hout : linkOut w (edgeLink router) = true) :
    waitAtPort w router 7 q = { w with mesh := { w.mesh with entering := put w.mesh.entering (router * 8 + 7) [q] } } := by
  unfold waitAtPort
  dsimp only
  rw [hentering, enterPort, if_pos]
  · rfl
  · exact Bool.and_eq_true_iff.mpr ⟨rfl, hout⟩

theorem vcRoom_of_empty (a : Nat) {vc : Nat} (hempty : wire w router port = []) : vcRoom w a router port vc = true := by
  rw [vcRoom, hempty]
  cases isSeam a router <;> rfl

/-- The one packet that waits at a port whose buffer is empty enters. -/
theorem enterPort_one (hentering : look w.mesh.entering (router * 8 + port) [] = [q]) (hempty : wire w router port = [])
    (hin : (decide (port = 7) && linkOut w (edgeLink router)) = false) :
    enterPort w router port = { w with mesh := { w.mesh with
      wires := put w.mesh.wires (router * 8 + port) [Entered w q]
      nextSeen := w.mesh.nextSeen + 1
      entering := put w.mesh.entering (router * 8 + port) [] } } := by
  have hadmit : admitEach router port [] [q] w = (arriveAt w router port q, []) := by
    rw [admitEach, vcRoom_of_empty router hempty]
    rfl
  rw [enterPort, hin, if_neg (by decide), hentering]
  dsimp only
  rw [hadmit, arriveAt, hempty]
  rfl

theorem waitAtPort_in (hentering : look w.mesh.entering (router * 8 + port) [] = []) (hempty : wire w router port = [])
    (hin : (decide (port = 7) && linkOut w (edgeLink router)) = false) :
    ∃ e, waitAtPort w router port q = { w with mesh := { w.mesh with
      wires := put w.mesh.wires (router * 8 + port) [Entered w q]
      nextSeen := w.mesh.nextSeen + 1
      entering := e } } := by
  unfold waitAtPort
  rw [hentering]
  refine ⟨_, enterPort_one (w := { w with mesh := { w.mesh with entering := put w.mesh.entering (router * 8 + port) ([] ++ [q]) } }) ?_ hempty hin⟩
  exact look_put_same ..

/-! ### The rows of R424 to R455 -/

section
variable {code : Nat}

theorem router_hands (h : Alone s router port p) (hlow : 4 ≤ codeOf s router p) (hhigh : codeOf s router p < 8) (hstalls : stallsAt s p = false)
    (hlink : codeOf s router p = 7 → linkOut s (edgeLink router) = false) :
    ∃ t, exec (.routerPacketReceive router port true .good) s = .next t ∧
      arrivals t p.dest = arrivals s p.dest ++ [p] ∧ wire t router port = [] ∧ MeshOnly s t := by
  obtain ⟨a, b, hlone, hmoved, hwaits⟩ := routerReceive_alone h
  obtain ⟨c, d, hmove⟩ := hlone.movePacket_local hlow hhigh hstalls hlink
  refine ⟨_, hmoved _ hmove, look_put_same .., look_put_same .., rfl⟩

theorem router_stalls (h : Alone s router port p) (hlow : 4 ≤ codeOf s router p) (hhigh : codeOf s router p < 8) (hstalls : stallsAt s p = true)
    (hnoted : p.noted = false) :
    ∃ t, exec (.routerPacketReceive router port true .good) s = .next t ∧ wire t router port = [{ p with noted := true }] ∧
      look t.mesh.stalls p.dest 0 = look s.mesh.stalls p.dest 0 + 1 ∧ t.mesh.arrived = s.mesh.arrived ∧ MeshOnly s t := by
  obtain ⟨a, b, hlone, hmoved, hwaits⟩ := routerReceive_alone h
  have hmove := Lone.movePacket_stalled (w := checkedAt s a b) (router := router) (port := port) hlow hhigh hstalls hnoted
  refine ⟨_, hmoved _ hmove, ?_, look_put_same .., rfl, rfl⟩
  refine (look_put_same ..).trans ?_
  refine (congrArg (List.map _) hlone.own).trans ?_
  simp

theorem neighbour_ne {dir : Nat} (h : neighbour router dir = some n) : n ≠ router := by
  revert h
  fun_cases neighbour <;> intro h <;> grind

theorem portFacing_lt (dir : Nat) : portFacing dir < 4 := Nat.mod_lt _ (by decide)

theorem router_sends (h : Alone s router port p) (hcode : codeOf s router p < 4) (hn : neighbour router (codeOf s router p) = some n)
    (hup : routerUp s n = true) (hlink : linkOut s (linkOf router (codeOf s router p)) = false)
    (hroom : vcRoom s router n (portFacing (codeOf s router p)) p.vc = true) :
    ∃ t, exec (.routerPacketReceive router port true .good) s = .next t ∧ wire t router port = [] ∧
      wire t n (portFacing (codeOf s router p)) = wire s n (portFacing (codeOf s router p)) ++ [Entered s p] ∧
      t.mesh.arrived = s.mesh.arrived ∧ MeshOnly s t := by
  obtain ⟨a, b, hlone, hmoved, hwaits⟩ := routerReceive_alone h
  obtain ⟨c, d, hmove⟩ := hlone.movePacket_neighbour hcode hn hup hlink hroom
  have hother := neighbour_ne hn
  have hfacing : portFacing (codeOf (checkedAt s a b) router p) < 4 := portFacing_lt _
  have hport := hlone.inside
  refine ⟨_, hmoved _ hmove, ?_, ?_, rfl, rfl⟩
  · exact (look_put_ne _ _ _ (by omega)).trans (look_put_same ..)
  · refine (look_put_same ..).trans ?_
    refine congrArg (· ++ [_]) (look_put_ne _ _ _ ?_)
    omega

theorem router_waits (h : Alone s router port p) (hcode : codeOf s router p < 4) (hn : neighbour router (codeOf s router p) = some n)
    (hup : routerUp s n = true)
    (hblocked : linkOut s (linkOf router (codeOf s router p)) = true ∨ vcRoom s router n (portFacing (codeOf s router p)) p.vc = false) :
    ∃ t, exec (.routerPacketReceive router port true .good) s = .next t ∧ t.mesh.wires = s.mesh.wires ∧
      t.mesh.arrived = s.mesh.arrived ∧ MeshOnly s t := by
  obtain ⟨a, b, hlone, hmoved, hwaits⟩ := routerReceive_alone h
  have hmove := hlone.movePacket_waits hcode hn hup hblocked
  exact ⟨_, hwaits hmove, rfl, rfl, rfl⟩

/-! ### A packet that is discarded, R455 and R464 -/

theorem discard_request (hkind : p.kind ≤ 1) :
    discardPacket w router p = waitAtPort (bump w ctrRouterDiscarded router 1) router (localCode p.dest)
      (sealed { dropResponse p with tbl := p.tbl }) := by
  refine if_pos ?_
  rw [Bool.or_eq_true, decide_eq_true_eq, decide_eq_true_eq]
  omega

theorem discard_reported (hkind : p.kind = 4 ∨ p.kind = 5) :
    discardPacket w router p =
      (let t := bump w ctrRouterDiscarded router 1
      { t with mesh := { t.mesh with dropped := (router, p.kind, p.dest) :: t.mesh.dropped } }) := by
  refine (if_neg ?_).trans (if_pos ?_)
  · rcases hkind with h | h <;> simp [h]
  · rcases hkind with h | h <;> simp [h]

theorem discard_silent (hother : 1 < p.kind) (h4 : p.kind ≠ 4) (h5 : p.kind ≠ 5) :
    discardPacket w router p = bump w ctrRouterDiscarded router 1 := by
  refine (if_neg ?_).trans (if_neg ?_)
  · have h0 : p.kind ≠ 0 := by omega
    have h1 : p.kind ≠ 1 := by omega
    simp [h0, h1]
  · simp [h4, h5]

/-- A packet to be discarded has left its buffer, and every buffer of its router is empty. -/
theorem router_discards_into (h : Alone s router port p) (hcode : 8 ≤ codeOf s router p) :
    ∃ m, let v := { s with mesh := m };
      exec (.routerPacketReceive router port true .good) s = .next (discardPacket v router p) ∧ m.arrived = s.mesh.arrived ∧
      m.dropped = s.mesh.dropped ∧ m.nextSeen = s.mesh.nextSeen ∧ (∀ x < 8, wire v router x = []) ∧
      (∀ x < 8, look m.entering (router * 8 + x) [] = []) := by
  obtain ⟨a, b, hlone, hmoved, _⟩ := routerReceive_alone h
  refine ⟨_, hmoved _ (hlone.movePacket_discarded hcode), rfl, rfl, rfl, fun x hx => ?_, hlone.entering⟩
  by_cases hport : x = port
  · rw [hport]
    exact look_put_same ..
  · exact (look_put_ne _ _ _ (by omega)).trans (hlone.others x hx hport)

theorem router_discards (h : Alone s router port p) (hcode : 8 ≤ codeOf s router p) (hdest : p.dest < 2 ^ 14) :
    ∃ t, exec (.routerPacketReceive router port true .good) s = .next t ∧
      t.mesh.arrived = s.mesh.arrived ∧ MeshOnly s t ∧
      (p.kind ≤ 1 → t.mesh.dropped = s.mesh.dropped ∧ let resp := sealed { dropResponse p with tbl := p.tbl }
        if localCode p.dest = 7 ∧ linkOut s (edgeLink router) = true then look t.mesh.entering (router * 8 + 7) [] = [resp]
        else wire t router (localCode p.dest) = [Entered s resp]) ∧
      (p.kind = 4 ∨ p.kind = 5 → wire t router port = [] ∧ t.mesh.dropped = (router, p.kind, p.dest) :: s.mesh.dropped) ∧
      (1 < p.kind → p.kind ≠ 4 → p.kind ≠ 5 → wire t router port = [] ∧ t.mesh.dropped = s.mesh.dropped) := by
  obtain ⟨m, hexec, harrived, hdropped, hseen, hwires, hentering⟩ := router_discards_into h hcode
  have hport : port < 8 := h.2.1
  have hlocal : localCode p.dest < 8 := by
    rw [localCode, epKind]
    omega
  by_cases hrequest : p.kind ≤ 1
  · rw [discard_request hrequest] at hexec
    by_cases hout : localCode p.dest = 7 ∧ linkOut s (edgeLink router) = true
    · rw [hout.1, waitAtPort_out (w := bump { s with mesh := m } ctrRouterDiscarded router 1) (hentering 7 (by decide)) hout.2] at hexec
      refine ⟨_, hexec, harrived, rfl, fun _ => ⟨hdropped, ?_⟩, by omega, by omega⟩
      dsimp only
      rw [if_pos hout]
      exact look_put_same ..
    · obtain ⟨e, hwait⟩ := waitAtPort_in (w := bump { s with mesh := m } ctrRouterDiscarded router 1) (router := router)
        (port := localCode p.dest) (q := sealed { dropResponse p with tbl := p.tbl }) (hentering _ hlocal) (hwires _ hlocal)
        (by rw [Bool.and_eq_false_iff, decide_eq_false_iff_not, ← Bool.not_eq_true]; exact Classical.not_and_iff_not_or_not.mp hout)
      rw [hwait] at hexec
      refine ⟨_, hexec, harrived, rfl, fun _ => ⟨hdropped, ?_⟩, by omega, by omega⟩
      dsimp only
      rw [if_neg hout]
      refine (look_put_same ..).trans ?_
      rw [Entered, Entered]
      exact congrArg (fun n => [{ sealed { dropResponse p with tbl := p.tbl } with seen := n, noted := false }]) hseen
  · by_cases hreported : p.kind = 4 ∨ p.kind = 5
    · rw [discard_reported hreported] at hexec
      refine ⟨_, hexec, harrived, rfl, fun h => absurd h hrequest, fun _ => ⟨hwires port hport, ?_⟩, by omega⟩
      exact congrArg (_ :: ·) hdropped
    · rw [discard_silent (by omega) (by omega) (by omega)] at hexec
      exact ⟨_, hexec, harrived, rfl, fun h => absurd h hrequest, fun h => absurd h hreported, fun _ _ _ => ⟨hwires port hport, hdropped⟩⟩

end

end Sys2Proof.Machine
end

section
/-! Further parts of the state that operations leave as they were. -/

namespace Sys2Proof.Machine

@[simp] theorem injectionSeen_cores (s : State) (unit id : Nat) : (injectionSeen s unit id).cores = s.cores := by rfl

@[simp] theorem injectionSeen_mem (s : State) (unit id : Nat) : (injectionSeen s unit id).mem = s.mem := by rfl

@[simp] theorem detectAt_cores (s : State) (el : Element) (cls unit id : Nat) (hard : Bool) : (detectAt s el cls unit id
    hard).cores = s.cores := by rfl

@[simp] theorem detectAt_mem (s : State) (el : Element) (cls unit id : Nat) (hard : Bool) : (detectAt s el cls unit id hard).mem
    = s.mem := by rfl

@[simp] theorem setConf_mem (s : State) (h config : Nat) (v : Conf) : (setConf s h config v).mem = s.mem := by
  unfold setConf; split <;> simp

@[simp] theorem dropWindow_mem (s : State) (c k : Nat) : (dropWindow s c k).mem = s.mem := by
  grind [dropWindow, setConf_mem]

@[simp] theorem selectSlot_mem (s : State) (c : Nat) : (selectSlot s c).mem = s.mem := by
  grind [selectSlot, bump_mem, onSlot_mem, setCore_mem]

@[simp] theorem settleStop_mem (s : State) (c k : Nat) : (settleStop s c k).mem = s.mem := by
  grind [settleStop, dropWindow_mem, onSlot_mem]

@[simp] theorem settleBlock_mem (s : State) (c k : Nat) : (settleBlock s c k).mem = s.mem := by
  unfold settleBlock; split <;> simp

@[simp] theorem settleBeacon_mem (s : State) (c k : Nat) : (settleBeacon s c k).mem = s.mem := by
  grind [settleBeacon, onSlot_mem, post_mem]

@[simp] theorem settleCore_mem (s : State) (c : Nat) : (settleCore s c).mem = s.mem := by
  simp [settleCore, each_keeps State.mem]

@[simp] theorem setPairSrc_endpoints (s : State) (src dst : Nat) (v : PairSrc) : endpoints (setPairSrc s src dst v) = endpoints
    s := by rfl

theorem inject_endpoints (s : State) (p : Packet) (flagged g1 : Bool) {t : State} (h : inject s p flagged g1 = some t) :
    endpoints t = endpoints s := by
  grind [inject, launch_endpoints, setPairSrc_endpoints, bump_mesh, endpoints]

@[simp] theorem freeAnswered_endpoints (s : State) (src dst answers : Nat) : endpoints (freeAnswered s src dst answers) =
    endpoints s := by
  grind [freeAnswered, setPairSrc_endpoints, settleCore_mesh, endpoints]

@[simp] theorem freeAnswered_mem (s : State) (src dst answers : Nat) : (freeAnswered s src dst answers).mem = s.mem := by
  grind [freeAnswered, setPairSrc_mem, settleCore_mem]

@[simp] theorem remoteRead_endpoints (s : State) (i : Issuer) (g : Seg) (a : Nat) : endpoints (remoteRead s i g a).1 = endpoints
    s := by
  grind [remoteRead, freshTag_endpoints, addRequest_mesh, sendRow_mesh, endpoints]

@[simp] theorem remoteWrite_endpoints (s : State) (i : Issuer) (g : Seg) (a : Nat) : endpoints (remoteWrite s i g a).1 =
    endpoints s := by
  grind [remoteWrite, freshTag_endpoints, sendRow_mesh, endpoints]

@[simp] theorem readAt_endpoints (s : State) (i : Issuer) (g : Seg) (ga a : Nat) (shared : Bool) : endpoints (readAt s i g ga a
    shared).1 = endpoints s := by
  grind [readAt, freshTag_endpoints, inject_endpoints, endpoints]

@[simp] theorem writeAt_endpoints (s : State) (i : Issuer) (g : Seg) (ga a : Nat) : endpoints (writeAt s i g ga a).1 = endpoints
    s := by
  grind [writeAt, freshTag_endpoints, inject_endpoints, physWrite_mesh, endpoints]

@[simp] theorem segRead_endpoints (s : State) (i : Issuer) (g : Seg) : endpoints (segRead s i g).1 = endpoints s := by
  grind [segRead, readAt_endpoints, remoteRead_endpoints, lookedUp_mesh, snoopAll_mesh, startWalk_mesh, endpoints]

@[simp] theorem segWrite_endpoints (s : State) (i : Issuer) (g : Seg) : endpoints (segWrite s i g).1 = endpoints s := by
  grind [segWrite, remoteWrite_endpoints, writeAt_endpoints, lookedUp_mesh, snoopAll_mesh, startWalk_mesh, endpoints]

@[simp] theorem segStep_endpoints (s : State) (i : Issuer) (g : Seg) : endpoints (segStep s i g).1 = endpoints s := by
  grind [segStep, segRead_endpoints, segWrite_endpoints, endpoints]

@[simp] theorem segsStep_endpoints (s : State) (i : Issuer) (x0 : List Seg) : endpoints (segsStep s i x0).1 = endpoints s := by
  fun_induction segsStep <;> grind [segStep_endpoints, endpoints]

@[simp] theorem copySegs_endpoints (s : State) (i : Issuer) (x0 : List Seg) : endpoints (copySegs s i x0).1 = endpoints s := by
  fun_induction copySegs <;> grind [segStep_endpoints, endpoints]

@[simp] theorem copyPass_endpoints (s : State) (i : Issuer) (j : CopyJob) : endpoints (copyPass s i j).1 = endpoints s := by
  grind [copyPass, copySegs_endpoints, localSegs_mesh, retire_mesh, endpoints]

@[simp] theorem copyRun_endpoints (i : Issuer) (x0 : Nat) (s : State) (x2 : CopyJob) : endpoints (copyRun i x0 s x2).1 =
    endpoints s := by
  fun_induction copyRun <;> grind [copyPass_endpoints, endpoints]

@[simp] theorem pumpJob_endpoints (s : State) (unit : Unit) (j : CopyJob) : endpoints (pumpJob s unit j) = endpoints s := by
  grind [pumpJob, copyRun_endpoints, finishCopy_mesh, setJobs_mesh, stopCopy_mesh, endpoints]

@[simp] theorem pumpCopies_endpoints (s : State) (unit : Unit) : endpoints (pumpCopies s unit) = endpoints s := by
  grind [pumpCopies, pumpJob_endpoints, each_or endpoints, endpoints]

@[simp] theorem stepChunks_endpoints (s : State) (i : Issuer) (v : Slot) (t : Stream) (x0 : List Chunk) : endpoints (stepChunks
    s i v t x0).1 = endpoints s := by
  fun_induction stepChunks <;> grind [segsStep_endpoints, endpoints]

@[simp] theorem runChunks_endpoints (i : Issuer) (v : Slot) (t : Stream) (x0 : Nat) (s : State) (x2 : List Chunk) : endpoints
    (runChunks i v t x0 s x2).1 = endpoints s := by
  fun_induction runChunks <;> grind [stepChunks_endpoints, endpoints]

@[simp] theorem fetchStream_endpoints (s : State) (c k n w : Nat) : endpoints (fetchStream s c k n w) = endpoints s := by
  grind [fetchStream, runChunks_endpoints, bump_mesh, setStrm_mesh, settleChunks_mesh, stopStream_mesh, endpoints]

@[simp] theorem prefetch_endpoints (s : State) (c k n : Nat) : endpoints (prefetch s c k n) = endpoints s := by
  grind [prefetch, fetchStream_endpoints, endpoints]

@[simp] theorem stepOut_endpoints (c k n : Nat) (x0 : List Chunk) (x1 : Bool) (s : State) : endpoints (stepOut c k n x0 x1 s).1
    = endpoints s := by
  fun_induction stepOut <;> grind [segsStep_endpoints, setChunk_mesh, setStrm_mesh, endpoints]

@[simp] theorem runOut_endpoints (c k n : Nat) (x0 : Nat) (s : State) : endpoints (runOut c k n x0 s).1 = endpoints s := by
  fun_induction runOut <;> grind [stepOut_endpoints, beginOut_mesh, retireOut_mesh, endpoints]

@[simp] theorem pumpOut_endpoints (s : State) (c k n : Nat) : endpoints (pumpOut s c k n).1 = endpoints s := by
  grind [pumpOut, runOut_endpoints, stopStream_mesh, endpoints]

@[simp] theorem mergePass_endpoints (s : State) (h : Nat) (j : MergeJob) : endpoints (mergePass s h j).1 = endpoints s := by
  grind [mergePass, segsStep_endpoints, mgCommit_mesh, each_or endpoints, endpoints]

@[simp] theorem runMerge_endpoints (h : Nat) (x0 : Nat) (s : State) : endpoints (runMerge h x0 s) = endpoints s := by
  fun_induction runMerge <;> grind [mergePass_endpoints, bump_mesh, completeStep_mesh, dropMerge_mesh, forwardStep_mesh,
    reportProgress_mesh, resolveStop_mesh, setMerge_mesh, settleCore_mesh, stopMerge_mesh, unitFault_mesh, endpoints]

@[simp] theorem pumpMerge_endpoints (s : State) (h : Nat) : endpoints (pumpMerge s h) = endpoints s := by
  grind [pumpMerge, runMerge_endpoints, endpoints]

@[simp] theorem pumpUnit_endpoints (s : State) (unit : Unit) : endpoints (pumpUnit s unit) = endpoints s := by
  fun_cases pumpUnit <;> grind [prefetch_endpoints, pumpCopies_endpoints, pumpMerge_endpoints, pumpOut_endpoints, endpoints]

@[simp] theorem respondWrite_mem (s : State) (p : Packet) : (respondWrite s p).mem = s.mem := by
  simp [respondWrite]

@[simp] theorem onSegs_mesh (s : State) (unit : Unit) (f : Seg → Seg) : (onSegs s unit f).mesh = s.mesh := by
  unfold onSegs; split <;> simp

@[simp] theorem haltUnit_mesh (s : State) (unit : Unit) (tag : Nat) (h : Halt) : (haltUnit s unit tag h).mesh = s.mesh := by
  fun_cases haltUnit <;> grind [setHub_mesh, setJobs_mesh, setStrm_mesh, writeElems_mesh]

@[simp] theorem setLink_cores (s : State) (id : Nat) (v : LinkState) : (setLink s id v).cores = s.cores := by rfl

@[simp] theorem setLink_mem (s : State) (id : Nat) (v : LinkState) : (setLink s id v).mem = s.mem := by rfl

@[simp] theorem linkRetry_cores (s : State) (a b id tries : Nat) : (linkRetry s a b id tries).cores = s.cores := by
  grind [linkRetry, bump_cores, detectAt_cores, injectionSeen_cores, setLink_cores]

@[simp] theorem linkRetry_mem (s : State) (a b id tries : Nat) : (linkRetry s a b id tries).mem = s.mem := by
  grind [linkRetry, bump_mem, detectAt_mem, injectionSeen_mem, setLink_mem]

end Sys2Proof.Machine
end

section
/-! ## Links that fail their check, R413 and R516 -/

namespace Sys2Proof.Machine
open Sys2Proof.Claims

variable {s t u w : State} {router port n id back m : Nat} {p q : Packet} {b : Bool}

/-! ### Packets that enter at a port -/

/-- Packets have entered the buffer of a port: no other buffer and nothing but the mesh differs. -/
structure Admitted (router port : Nat) (s t : State) : Prop where
  shape : t = { s with mesh := t.mesh }
  tries : t.mesh.tries = s.mesh.tries
  others : ∀ i, i ≠ router * 8 + port → look t.mesh.wires i [] = look s.mesh.wires i []
  kept : ∀ q ∈ wire s router port, q ∈ wire t router port

theorem Admitted.refl (s : State) : Admitted router port s s := ⟨rfl, rfl, fun _ _ => rfl, fun _ h => h⟩

theorem Admitted.trans (h : Admitted router port s t) (g : Admitted router port t u) : Admitted router port s u := by
  refine ⟨?_, g.tries.trans h.tries, fun i hi => (g.others i hi).trans (h.others i hi), fun q hq => g.kept q (h.kept q hq)⟩
  have hs := h.shape
  have gs := g.shape
  rw [hs] at gs
  exact gs

theorem admitted_arriveAt (s : State) (p : Packet) : Admitted router port s (arriveAt s router port p) := by
  refine ⟨rfl, rfl, fun i hi => look_put_ne _ _ _ hi, fun q hq => ?_⟩
  rw [show wire (arriveAt s router port p) router port = _ from look_put_same ..]
  exact List.mem_append_left _ hq

theorem entered_arriveAt (s : State) (p : Packet) : Entered s p ∈ wire (arriveAt s router port p) router port := by
  rw [show wire (arriveAt s router port p) router port = _ from look_put_same ..]
  exact List.mem_append_right _ List.mem_cons_self

/-- Each packet that waits at a port enters its buffer or waits on. -/
theorem admitEach_effect (full : List Nat) (l : List Packet) (s : State) :
    Admitted router port s (admitEach router port full l s).1 ∧ ∀ q ∈ l,
      (∃ x ∈ wire (admitEach router port full l s).1 router port, x = { q with seen := x.seen, noted := x.noted }) ∨
        q ∈ (admitEach router port full l s).2 := by
  induction l generalizing full s with
  | nil => exact ⟨.refl s, fun q hq => absurd hq List.not_mem_nil⟩
  | cons p rest ih =>
    rw [admitEach]
    split
    · obtain ⟨hrest, hall⟩ := ih (p.vc :: full) s
      refine ⟨hrest, fun q hq => ?_⟩
      obtain rfl | hq := List.mem_cons.mp hq
      · exact .inr List.mem_cons_self
      · exact (hall q hq).imp_right (List.mem_cons_of_mem p)
    · obtain ⟨hrest, hall⟩ := ih full (arriveAt s router port p)
      refine ⟨(admitted_arriveAt s p).trans hrest, fun q hq => ?_⟩
      obtain rfl | hq := List.mem_cons.mp hq
      · exact .inl ⟨_, hrest.kept _ (entered_arriveAt s q), rfl⟩
      · exact hall q hq

theorem enterPort_effect (s : State) (router port : Nat) :
    Admitted router port s (enterPort s router port) ∧ ∀ q ∈ look s.mesh.entering (router * 8 + port) [],
      ∃ x ∈ wire (enterPort s router port) router port ++ look (enterPort s router port).mesh.entering (router * 8 + port) [],
        x = { q with seen := x.seen, noted := x.noted } := by
  have hstay : Admitted router port s s ∧ ∀ q ∈ look s.mesh.entering (router * 8 + port) [],
      ∃ x ∈ wire s router port ++ look s.mesh.entering (router * 8 + port) [], x = { q with seen := x.seen, noted := x.noted } :=
    ⟨.refl s, fun q hq => ⟨q, List.mem_append_right _ hq, rfl⟩⟩
  unfold enterPort
  by_cases hout : (decide (port = 7) && linkOut s (edgeLink router)) = true
  · rw [if_pos hout]
    exact hstay
  · rw [if_neg hout]
    cases hl : look s.mesh.entering (router * 8 + port) [] with
    | nil => exact ⟨.refl s, fun q hq => absurd hq List.not_mem_nil⟩
    | cons p rest =>
      obtain ⟨hadmitted, hall⟩ := admitEach_effect (router := router) (port := port) [] (p :: rest) s
      refine ⟨hadmitted.trans ⟨rfl, rfl, fun _ _ => rfl, fun _ h => h⟩, fun q hq => ?_⟩
      obtain ⟨x, hx, heq⟩ | hwaits := hall q hq
      · exact ⟨x, List.mem_append_left _ hx, heq⟩
      · refine ⟨q, List.mem_append_right _ ?_, rfl⟩
        rw [show look (put _ (router * 8 + port) _) _ [] = _ from look_put_same ..]
        exact hwaits

/-! ### The retry of a packet -/

theorem linkRetry_mesh (s : State) (a b id n : Nat) : ∃ l, (linkRetry s a b id n).mesh = { s.mesh with links := l } := by
  refine ⟨?links, ?_⟩
  rotate_left
  unfold linkRetry
  dsimp only
  rw [apply_ite State.mesh, injectionSeen_mesh, ite_self, apply_ite State.mesh, bump_mesh, detectAt_mesh, apply_ite State.mesh,
    detectAt_mesh, ite_self, ite_self, bump_mesh]
  rfl

theorem routerStep_retries (hup : routerUp s router = true) (hwire : wire s router port = [p])
    (hbroken : arrivedWhole s router port b p = false) : routerStep s router port b .good = packetRetry s router port p := by
  have hverified : verified s p = false := (Bool.or_eq_false_iff.mp hbroken).1
  unfold routerStep
  rw [if_pos hup, hwire]
  dsimp only
  rw [if_neg (by decide), List.find?_cons_of_pos (by simp [hverified])]
  dsimp only
  rw [hbroken, if_neg (by decide)]

theorem packetRetry_again (hlink : inLink router port = some (id, n, back)) :
    let m := look s.mesh.tries (router * 8 + port) 0 + 1
    let u := linkRetry (setTries s router port m) router n id m
    m < 8 → (linkState u id).retries < 256 → linkOut u id = false → packetRetry s router port p = u := by
  intro m u hfew hretries hin
  unfold packetRetry
  dsimp only
  rw [hlink, if_neg (Nat.not_le.mpr hfew)]
  dsimp only
  rw [if_neg]
  rw [decide_eq_false (Nat.not_le.mpr hfew), decide_eq_false (Nat.not_le.mpr hretries), hin]
  decide

theorem linkRetry_again (hup : routerUp s router = true) (hwire : wire s router port = [p]) (hlink : inLink router port = some (id, n, back))
    (hbroken : arrivedWhole s router port b p = false) :
    let m := look s.mesh.tries (router * 8 + port) 0 + 1
    m < 8 → let u := linkRetry (setTries s router port m) router n id m
      (linkState u id).retries < 256 → linkOut u id = false → exec (.routerPacketReceive router port b .good) s = .next u ∧
      ∃ t, exec (.routerPacketReceive router port b .good) s = .next t ∧ look t.mesh.tries (router * 8 + port) 0 = m ∧
        t.mesh.wires = s.mesh.wires ∧ t.mem = s.mem ∧ t.cores = s.cores := by
  intro m hfew u hretries hin
  have hexec : exec (.routerPacketReceive router port b .good) s = .next u :=
    congrArg Host.Outcome.next ((routerStep_retries hup hwire hbroken).trans (packetRetry_again hlink hfew hretries hin))
  obtain ⟨l, hmesh⟩ := linkRetry_mesh (setTries s router port m) router n id m
  refine ⟨hexec, u, hexec, ?_, ?_, linkRetry_mem .., linkRetry_cores ..⟩
  · rw [show u.mesh = _ from hmesh]
    exact look_put_same ..
  · rw [show u.mesh = _ from hmesh]
    rfl

/-- The packet of a failed link is back with the router that sent it. -/
def sentBack (s : State) (router port n back : Nat) (p : Packet) : State :=
  let u := setTries (setWire s router port ((wire s router port).filter (fun q => q.seen ≠ p.seen))) router port 0
  { u with mesh := { u.mesh with entering := put u.mesh.entering (n * 8 + back) (p :: look s.mesh.entering (n * 8 + back) []) } }

theorem packetRetry_fails (hlink : inLink router port = some (id, n, back))
    (hmany : 8 ≤ look s.mesh.tries (router * 8 + port) 0 + 1) :
    packetRetry s router port p =
      enterPort (sentBack (linkRetry (setTries s router port 0) router n id (look s.mesh.tries (router * 8 + port) 0 + 1)) router port n back p) n back := by
  unfold packetRetry
  dsimp only
  rw [hlink, if_pos hmany]
  dsimp only
  rw [if_pos (by rw [decide_eq_true hmany, Bool.true_or, Bool.true_or])]
  rfl

theorem inLink_direction (h : inLink router port = some (id, n, back)) (hport : port < 4) : back = 4 := by
  rw [inLink, if_pos hport] at h
  obtain ⟨m, _, hm⟩ := Option.map_eq_some_iff.mp h
  obtain ⟨_, hm⟩ := Prod.mk.inj hm
  exact (Prod.mk.inj hm).2.symm

theorem linkRetry_fails (hup : routerUp s router = true) (hwire : wire s router port = [p]) (hlink : inLink router port = some (id, n, back))
    (hbroken : arrivedWhole s router port b p = false) (hmany : 8 ≤ look s.mesh.tries (router * 8 + port) 0 + 1) (hport : port < 4) :
    ∃ t, exec (.routerPacketReceive router port b .good) s = .next t ∧ wire t router port = [] ∧
      look t.mesh.tries (router * 8 + port) 0 = 0 ∧ t.mem = s.mem ∧ t.cores = s.cores ∧
      ∃ x ∈ wire t n back ++ look t.mesh.entering (n * 8 + back) [], x = { p with seen := x.seen, noted := x.noted } := by
  have hback := inLink_direction hlink hport
  refine ⟨_, congrArg Host.Outcome.next ((routerStep_retries hup hwire hbroken).trans (packetRetry_fails hlink hmany)), ?_⟩
  obtain ⟨l, hmesh⟩ := linkRetry_mesh (setTries s router port 0) router n id (look s.mesh.tries (router * 8 + port) 0 + 1)
  have hmem := linkRetry_mem (setTries s router port 0) router n id (look s.mesh.tries (router * 8 + port) 0 + 1)
  have hcores := linkRetry_cores (setTries s router port 0) router n id (look s.mesh.tries (router * 8 + port) 0 + 1)
  generalize linkRetry (setTries s router port 0) router n id (look s.mesh.tries (router * 8 + port) 0 + 1) = v at hmesh hmem hcores
  obtain ⟨hadmitted, hall⟩ := enterPort_effect (sentBack v router port n back p) n back
  have hfilter : (wire v router port).filter (fun q => q.seen ≠ p.seen) = [] := by
    have hown : wire v router port = [p] := by
      rw [wire, hmesh]
      exact hwire
    rw [hown]
    simp
  refine ⟨?_, ?_, ?_, ?_, hall p ?_⟩
  · refine (hadmitted.others _ (by omega)).trans ((look_put_same ..).trans hfilter)
  · rw [hadmitted.tries]
    exact look_put_same ..
  · rw [hadmitted.shape]
    exact hmem
  · rw [hadmitted.shape]
    exact hcores
  · rw [show look (sentBack v router port n back p).mesh.entering (n * 8 + back) [] = _ from look_put_same ..]
    exact List.mem_cons_self

/-! ### An error in a route table, R516 -/

theorem routerStep_escalates (hup : routerUp s router = true) (hwire : wire s router port = [p]) :
    ∃ t, exec (.routerPacketReceive router port b .tableError) s = .next t ∧ t.mesh = s.mesh ∧
      ∃ x ∈ t.sup.resets, x.domain = 3 ∧ x.cls = 0x15 ∧ x.repair = some (1, router) := by
  have hact : routerStep s router port b .tableError = escalate s 1 router := by
    unfold routerStep
    rw [if_pos hup, hwire]
    exact if_pos rfl
  exact ⟨_, congrArg Host.Outcome.next hact, rfl, _, List.mem_append_right _ List.mem_cons_self, rfl, rfl, rfl⟩

end Sys2Proof.Machine
end

section
/-! ## Packets that take effect and answers that come back, R421 and R429 -/

namespace Sys2Proof.Machine
open Sys2Proof.Claims

variable {s t u : State} {ep kind : Nat} {q : Packet} {f : Packet → Bool}

/-! ### A packet that is taken from an endpoint -/

theorem takeArrived_mem {s t : State} {ep : Nat} {f : Packet → Bool} {q : Packet} (h : Arrived s ep f q t) : f q = true := by
  unfold Arrived takeArrived at h
  cases hfind : (arrivals s ep).find? f with
  | none =>
    rw [hfind] at h
    cases h
  | some x =>
    rw [hfind] at h
    obtain ⟨rfl, -⟩ := Prod.mk.inj (Option.some.inj h)
    exact List.find?_some hfind

theorem answerRead_mem (p : Packet) (s : State) : (answerRead p s).mem = s.mem := by
  unfold answerRead
  split
  · rfl
  · exact launch_mem ..

theorem cacheRead_mem (s : State) (r : Nat) (p : Packet) : (cacheRead s r p).mem = s.mem := by
  unfold cacheRead
  dsimp only
  split
  · exact answerRead_mem p _
  · split <;> rfl

theorem toTier_read_mem (s : State) (port : Nat) {p : Packet} (hkind : p.kind ≠ 1) : (toTier s port p).mem = s.mem := by
  unfold toTier
  split
  · exact launch_mem ..
  · rfl

theorem applyRead_mem (s : State) {p : Packet} (hkind : p.kind ≠ 1) : (applyRead s p).mem = s.mem := by
  unfold applyRead
  split
  · exact toTier_read_mem s _ hkind
  · split
    · exact cacheRead_mem ..
    · exact answerRead_mem ..

theorem applyWrite_mem (s : State) {p : Packet} (hplace : epKind p.dest ≠ 3) :
    (applyWrite s p).mem = (physWrite s p.phys p.payload p.poison).mem := by
  unfold applyWrite
  split
  · exact absurd ‹epKind p.dest = 3› hplace
  · exact respondWrite_mem ..

theorem physWrite_mem_setArrivals (s : State) (ep : Nat) (l : List Packet) (a : Nat) (data : List Byte) (mask : List Bool) :
    (physWrite (setArrivals s ep l) a data mask).mem = (physWrite s a data mask).mem := by
  unfold physWrite
  split
  · unfold outsideWrite
    dsimp only
    rw [show ∀ c, twinCore (setArrivals s ep l) c = twinCore s c from fun c => rfl]
    split <;> rfl
  · rfl

/-! ### Requests and tokens -/

theorem plainArrival_eq (harrived : Arrived s ep (fun x => x.kind = kind && !x.flagged && x.vc ≠ 5) q u) :
    plainArrival s ep kind = countArrival (applyPacket u q) q := by
  rw [plainArrival, show takeArrived s ep (fun x => x.kind = kind && !x.flagged && x.vc ≠ 5) = some (q, u) from harrived]

theorem countArrival_effect (s : State) (q : Packet) (ep : Nat) :
    let d := pairDst s q.src q.dest
    arrivals (countArrival s q) ep = arrivals s ep ∧
      pairDst (countArrival s q) q.src q.dest = if q.fepoch then { d with got1 := d.got1 + 1 } else { d with got0 := d.got0 + 1 } :=
  ⟨arrivals_setPairDst .., pairDst_setPairDst ..⟩

theorem plainArrival_effect (harrived : Arrived s ep (fun x => x.kind = kind && !x.flagged && x.vc ≠ 5) q u) :
    let t := countArrival (applyPacket u q) q
    arrivals t ep = (arrivals s ep).eraseP (fun x => x.kind = kind && !x.flagged && x.vc ≠ 5) ∧
      (let d := pairDst s q.src q.dest;
        pairDst t q.src q.dest = if q.fepoch then { d with got1 := d.got1 + 1 } else { d with got0 := d.got0 + 1 }) ∧
      (kind = 1 → epKind q.dest ≠ 3 → t.mem = (physWrite s q.phys q.payload q.poison).mem) ∧
      (kind = 0 → t.mem = s.mem) ∧ t.nv = s.nv ∧ t.frames = s.frames ∧ t.engines = s.engines := by
  have hu := takeArrived_eq harrived
  have hkind : q.kind = kind := by
    have hq := takeArrived_mem harrived
    rw [Bool.and_eq_true, Bool.and_eq_true, decide_eq_true_eq] at hq
    exact hq.1.1
  obtain ⟨harr, hpair⟩ := countArrival_effect (applyPacket u q) q ep
  have hends : endpoints (applyPacket u q) = endpoints u := applyPacket_endpoints ..
  have hq : quiet (countArrival (applyPacket u q) q) = quiet s := by
    rw [countArrival_quiet, applyPacket_quiet, hu]
    rfl
  refine ⟨?_, ?_, fun h1 hplace => ?_, fun h0 => ?_, nv_of_quiet hq, frames_of_quiet hq, engines_of_quiet hq⟩
  · rw [harr, arrivals_of_endpoints hends, hu, arrivals_setArrivals]
  · dsimp only
    rw [hpair, pairDst_of_endpoints hends, hu]
    rfl
  · have hwrite : applyPacket u q = applyWrite u q := by
      rw [applyPacket, hkind, h1]
      rfl
    show (applyPacket u q).mem = _
    rw [hwrite, applyWrite_mem u hplace, hu, physWrite_mem_setArrivals]
  · have hread : applyPacket u q = applyRead u q := by
      rw [applyPacket, hkind, h0]
      rfl
    show (applyPacket u q).mem = _
    rw [hread, applyRead_mem u (by omega), hu]
    rfl

theorem meetErrors_nil (s : State) (ep : Nat) : meetErrors s ep [] = s := by
  unfold meetErrors
  split
  · rfl
  · split <;> rfl

theorem plain_exec (s : State) (ep : Nat) :
    ∀ e ∈ [(Instr.readRequest ⟨ep, []⟩, 0), (Instr.writePacket ep, 1), (Instr.tokenArrive ep, 5)],
      exec e.1 s = .next (plainArrival s ep e.2) := by
  have hread : exec (Instr.readRequest ⟨ep, []⟩) s = .next (plainArrival s ep 0) :=
    congrArg (fun w => Host.Outcome.next (plainArrival w ep 0)) (meetErrors_nil s ep)
  intro e he
  obtain rfl | he := List.mem_cons.mp he
  · exact hread
  · obtain rfl | he := List.mem_cons.mp he
    · rfl
    · obtain rfl := List.mem_singleton.mp he
      rfl

theorem plain_outcome {e : Instr × Nat}
    (he : e ∈ [(Instr.readRequest ⟨ep, []⟩, 0), (Instr.writePacket ep, 1), (Instr.tokenArrive ep, 5)])
    (harrived : Arrived s ep (fun x => x.kind = e.2 && !x.flagged && x.vc ≠ 5) q u) :
    exec e.1 s = .next (countArrival (applyPacket u q) q) ∧
      ∃ t, exec e.1 s = .next t ∧
        arrivals t ep = (arrivals s ep).eraseP (fun x => x.kind = e.2 && !x.flagged && x.vc ≠ 5) ∧
        (let d := pairDst s q.src q.dest;
          pairDst t q.src q.dest = if q.fepoch then { d with got1 := d.got1 + 1 } else { d with got0 := d.got0 + 1 }) ∧
        (e.2 = 1 → epKind q.dest ≠ 3 → t.mem = (physWrite s q.phys q.payload q.poison).mem) ∧
        (e.2 = 0 → t.mem = s.mem) ∧ t.nv = s.nv ∧ t.frames = s.frames ∧ t.engines = s.engines := by
  have hexec := (plain_exec s ep e he).trans (congrArg Host.Outcome.next (plainArrival_eq harrived))
  exact ⟨hexec, _, hexec, plainArrival_effect harrived⟩

/-! ### Answers -/

/-- What the unit is told and does of an answer keeps the endpoints, and the quiet parts of the state. -/
theorem answer_effect (harrived : Arrived s ep f q u) (hends : endpoints t = endpoints u) (hquiet : quiet t = quiet u) :
    arrivals t ep = (arrivals s ep).eraseP f ∧ t.nv = s.nv ∧ t.frames = s.frames ∧ t.engines = s.engines := by
  have hu := takeArrived_eq harrived
  have hq : quiet t = quiet s := by
    rw [hquiet, hu]
    rfl
  refine ⟨?_, nv_of_quiet hq, frames_of_quiet hq, engines_of_quiet hq⟩
  rw [arrivals_of_endpoints hends, hu, arrivals_setArrivals]

theorem endpoints_of_mesh (h : t.mesh = s.mesh) : endpoints t = endpoints s := by
  rw [endpoints, h]
  rfl

theorem readResponse_outcome (harrived : Arrived s ep (fun x => x.kind = 2) q u) : exec (.readResponse ep) s =
      .next (pumpUnit (onSegs (freeAnswered u ep q.src q.answers) q.unit (readBack q.rtag q.payload q.poison)) q.unit) ∧
    ∃ t, exec (.readResponse ep) s = .next t ∧ arrivals t ep = (arrivals s ep).eraseP (fun x => x.kind = 2) ∧
      t.nv = s.nv ∧ t.frames = s.frames ∧ t.engines = s.engines := by
  have hact : readArrives s ep =
      pumpUnit (onSegs (freeAnswered u ep q.src q.answers) q.unit (readBack q.rtag q.payload q.poison)) q.unit := by
    rw [readArrives, show takeArrived s ep (fun x => x.kind = 2) = some (q, u) from harrived]
  have hexec : exec (.readResponse ep) s = .next _ := congrArg Host.Outcome.next hact
  refine ⟨hexec, _, hexec, answer_effect harrived ?_ ?_⟩
  · exact (pumpUnit_endpoints ..).trans ((endpoints_of_mesh (onSegs_mesh ..)).trans (freeAnswered_endpoints ..))
  · exact (pumpUnit_quiet ..).trans ((onSegs_quiet ..).trans (freeAnswered_quiet ..))

theorem writeAck_outcome (harrived : Arrived s ep (fun x => x.kind = 3) q u) : exec (.writeAck ep) s =
      .next (pumpUnit (onSegs (freeAnswered u ep q.src q.answers) q.unit (writeBack q.rtag)) q.unit) ∧
    ∃ t, exec (.writeAck ep) s = .next t ∧ arrivals t ep = (arrivals s ep).eraseP (fun x => x.kind = 3) ∧
      t.nv = s.nv ∧ t.frames = s.frames ∧ t.engines = s.engines := by
  have hact : ackArrives s ep = pumpUnit (onSegs (freeAnswered u ep q.src q.answers) q.unit (writeBack q.rtag)) q.unit := by
    rw [ackArrives, show takeArrived s ep (fun x => x.kind = 3) = some (q, u) from harrived]
  have hexec : exec (.writeAck ep) s = .next _ := congrArg Host.Outcome.next hact
  refine ⟨hexec, _, hexec, answer_effect harrived ?_ ?_⟩
  · exact (pumpUnit_endpoints ..).trans ((endpoints_of_mesh (onSegs_mesh ..)).trans (freeAnswered_endpoints ..))
  · exact (pumpUnit_quiet ..).trans ((onSegs_quiet ..).trans (freeAnswered_quiet ..))

theorem dropResponse_outcome (harrived : Arrived s ep (fun x => x.kind = 6) q u) : exec (.dropResponse ep) s =
      .next (haltUnit (freeAnswered u ep q.src q.answers) q.unit q.rtag .fence) ∧
    ∃ t, exec (.dropResponse ep) s = .next t ∧ arrivals t ep = (arrivals s ep).eraseP (fun x => x.kind = 6) ∧
      ((∀ c k n, q.unit ≠ .stream c k n) → t.mem = s.mem) ∧ t.nv = s.nv ∧ t.frames = s.frames ∧ t.engines = s.engines := by
  have hact : dropArrives s ep = haltUnit (freeAnswered u ep q.src q.answers) q.unit q.rtag .fence := by
    rw [dropArrives, show takeArrived s ep (fun x => x.kind = 6) = some (q, u) from harrived]
  have hexec : exec (.dropResponse ep) s = .next _ := congrArg Host.Outcome.next hact
  obtain ⟨harr, hnv, hframes, hengines⟩ := answer_effect harrived
    ((endpoints_of_mesh (haltUnit_mesh (freeAnswered u ep q.src q.answers) q.unit q.rtag .fence)).trans (freeAnswered_endpoints ..))
    ((haltUnit_quiet ..).trans (freeAnswered_quiet ..))
  refine ⟨hexec, _, hexec, harr, fun hunit => ?_, hnv, hframes, hengines⟩
  rw [haltUnit_mem _ hunit, freeAnswered_mem, takeArrived_eq harrived]
  rfl

theorem freeAnswered_pair (s : State) (src dst : Nat) :
    pairSrc (freeAnswered s src dst 4) src dst = { pairSrc s src dst with unanswered := false } ∧
      pairSrc (freeAnswered s src dst 5) src dst = { pairSrc s src dst with vc5Out := (pairSrc s src dst).vc5Out - 1 } := by
  have hfreed (v : PairSrc) : pairSrc (if epKind src = 0 then settleCore (setPairSrc s src dst v) src else setPairSrc s src dst v) src dst = v := by
    have hput : pairSrc (setPairSrc s src dst v) src dst = v := look_put_same ..
    split
    · rw [pairSrc, settleCore_mesh]
      exact hput
    · exact hput
  exact ⟨hfreed _, hfreed _⟩

theorem orderAck_outcome (harrived : Arrived s ep (fun x => x.kind = 7) q u) :
    exec (.orderAck ep) s = .next (freeAnswered u ep q.src q.answers) ∧
    ∃ t, exec (.orderAck ep) s = .next t ∧ arrivals t ep = (arrivals s ep).eraseP (fun x => x.kind = 7) ∧
      (q.answers = 4 → pairSrc t ep q.src = { pairSrc s ep q.src with unanswered := false }) ∧
      (q.answers = 5 → pairSrc t ep q.src = { pairSrc s ep q.src with vc5Out := (pairSrc s ep q.src).vc5Out - 1 }) ∧
      t.mem = s.mem ∧ t.nv = s.nv ∧ t.frames = s.frames ∧ t.engines = s.engines := by
  have hact : orderArrives s ep = freeAnswered u ep q.src q.answers := by
    rw [orderArrives, show takeArrived s ep (fun x => x.kind = 7) = some (q, u) from harrived]
  have hexec : exec (.orderAck ep) s = .next _ := congrArg Host.Outcome.next hact
  obtain ⟨harr, hnv, hframes, hengines⟩ := answer_effect harrived (freeAnswered_endpoints ..) (freeAnswered_quiet ..)
  have hpairs : pairSrc u ep q.src = pairSrc s ep q.src := by
    rw [takeArrived_eq harrived]
    rfl
  obtain ⟨h4, h5⟩ := freeAnswered_pair u ep q.src
  rw [hpairs] at h4 h5
  refine ⟨hexec, _, hexec, harr, fun h => h ▸ h4, fun h => h ▸ h5, ?_, hnv, hframes, hengines⟩
  rw [freeAnswered_mem, takeArrived_eq harrived]
  rfl

/-- Settles O49. -/
theorem meshHops : Obligations.MeshHops := by
  intro s u router port ep p q
  refine ⟨fun h => ⟨router_hands h, router_stalls h, router_discards h, fun n hcode hn hup => ⟨router_sends h hcode hn hup, router_waits h hcode hn hup⟩⟩,
    fun id n back b hup hwire hlink hbroken => ⟨linkRetry_again hup hwire hlink hbroken, linkRetry_fails hup hwire hlink hbroken⟩,
    fun b => routerStep_escalates, fun e => plain_outcome, readResponse_outcome, writeAck_outcome, dropResponse_outcome, orderAck_outcome⟩

end Sys2Proof.Machine
end

section
/-! ## Step pointers and stream bindings, R212 and R372 -/

namespace Sys2Proof.Machine

/-- The step pointer of each slot of a table of cores. -/
def stepPtrs (t : Tab Core) : Nat → Nat → Nat := fun c k => (look (look t c .fresh).slots k .fresh).ip

/-- Whether each stream of each slot is bound, and its descriptor. -/
def bindings (t : Tab Core) : Nat → Nat → Nat → Bool × BitVec 1024 :=
  fun c k n => let x := strmOf (look (look t c .fresh).slots k .fresh) n; (x.bound, x.desc)

theorem stepPtrs_put {t : Tab Core} {c : Nat} {d : Core}
    (h : ∀ k, (look d.slots k .fresh).ip = (look (look t c .fresh).slots k .fresh).ip) : stepPtrs (put t c d) = stepPtrs t := by
  funext b k
  unfold stepPtrs
  by_cases hb : b = c
  · rw [hb, look_put_same]
    exact h k
  · rw [look_put_ne _ _ _ hb]

theorem bindings_put {t : Tab Core} {c : Nat} {d : Core}
    (h : ∀ k n, (strmOf (look d.slots k .fresh) n).bound = (strmOf (look (look t c .fresh).slots k .fresh) n).bound ∧
      (strmOf (look d.slots k .fresh) n).desc = (strmOf (look (look t c .fresh).slots k .fresh) n).desc) :
    bindings (put t c d) = bindings t := by
  funext b k n
  unfold bindings
  by_cases hb : b = c
  · rw [hb, look_put_same]
    exact Prod.ext (h k n).1 (h k n).2
  · rw [look_put_ne _ _ _ hb]

@[simp] theorem setCore_stepPtrs {s : State} {c : Nat} {d : Core} (h : d.slots = (coreOf s c).slots) :
    stepPtrs (setCore s c d).cores = stepPtrs s.cores :=
  stepPtrs_put (fun k => by rw [h]; rfl)

@[simp] theorem setCore_bindings {s : State} {c : Nat} {d : Core} (h : d.slots = (coreOf s c).slots) :
    bindings (setCore s c d).cores = bindings s.cores :=
  bindings_put (fun k n => by rw [h]; exact ⟨rfl, rfl⟩)

@[simp] theorem setSlot_stepPtrs {s : State} {c k : Nat} {v : Slot} (h : v.ip = (slotOf s c k).ip) :
    stepPtrs (setSlot s c k v).cores = stepPtrs s.cores := by
  refine stepPtrs_put (fun j => ?_)
  by_cases hj : j = k
  · rw [hj]
    dsimp only
    rw [look_put_same]
    exact h
  · dsimp only
    rw [look_put_ne _ _ _ hj]
    rfl

@[simp] theorem setSlot_bindings {s : State} {c k : Nat} {v : Slot}
    (h : ∀ n, (strmOf v n).bound = (strmOf (slotOf s c k) n).bound ∧ (strmOf v n).desc = (strmOf (slotOf s c k) n).desc) :
    bindings (setSlot s c k v).cores = bindings s.cores := by
  refine bindings_put (fun j n => ?_)
  by_cases hj : j = k
  · rw [hj]
    dsimp only
    rw [look_put_same]
    exact h n
  · dsimp only
    rw [look_put_ne _ _ _ hj]
    exact ⟨rfl, rfl⟩

@[simp] theorem onSlot_stepPtrs {s : State} {c k : Nat} {f : Slot → Slot} (h : ∀ v, (f v).ip = v.ip) :
    stepPtrs (onSlot s c k f).cores = stepPtrs s.cores :=
  setSlot_stepPtrs (h _)

@[simp] theorem onSlot_bindings {s : State} {c k : Nat} {f : Slot → Slot} (h : ∀ v, (f v).strms = v.strms) :
    bindings (onSlot s c k f).cores = bindings s.cores :=
  setSlot_bindings (fun n => by rw [strmOf, h]; exact ⟨rfl, rfl⟩)

@[simp] theorem setStrm_stepPtrs (s : State) (c k n : Nat) (t : Stream) :
    stepPtrs (setStrm s c k n t).cores = stepPtrs s.cores :=
  onSlot_stepPtrs (fun _ => rfl)

/-- A stream that keeps whether it is bound and its descriptor keeps every binding. -/
@[simp] theorem setStrm_bindings {s : State} {c k n : Nat} {t : Stream} (hb : t.bound = (strmOf (slotOf s c k) n).bound)
    (hd : t.desc = (strmOf (slotOf s c k) n).desc) : bindings (setStrm s c k n t).cores = bindings s.cores := by
  refine setSlot_bindings (fun m => ?_)
  unfold strmOf
  dsimp only
  by_cases hm : m = n
  · rw [hm, look_put_same]
    exact ⟨hb, hd⟩
  · rw [look_put_ne _ _ _ hm]
    exact ⟨rfl, rfl⟩

theorem ip_of_stepPtrs {s t : State} (h : stepPtrs t.cores = stepPtrs s.cores) (c k : Nat) :
    (slotOf t c k).ip = (slotOf s c k).ip :=
  congrFun (congrFun h c) k

theorem bound_of_bindings {s t : State} (h : bindings t.cores = bindings s.cores) (c k n : Nat) :
    (strmOf (slotOf t c k) n).bound = (strmOf (slotOf s c k) n).bound :=
  congrArg Prod.fst (congrFun (congrFun (congrFun h c) k) n)

theorem desc_of_bindings {s t : State} (h : bindings t.cores = bindings s.cores) (c k n : Nat) :
    (strmOf (slotOf t c k) n).desc = (strmOf (slotOf s c k) n).desc :=
  congrArg Prod.snd (congrFun (congrFun (congrFun h c) k) n)

@[simp] theorem setLane_stepPtrs (s : State) (c k n : Nat) (l : Lane) :
    stepPtrs (setLane s c k n l).cores = stepPtrs s.cores :=
  onSlot_stepPtrs (fun _ => rfl)

@[simp] theorem setLane_bindings (s : State) (c k n : Nat) (l : Lane) :
    bindings (setLane s c k n l).cores = bindings s.cores :=
  onSlot_bindings (fun _ => rfl)

end Sys2Proof.Machine
end

section
/-! Further parts of the state that operations leave as they were. -/

namespace Sys2Proof.Machine

@[simp] theorem masked_cores (s : State) (how : Nat) : (masked s how).cores = s.cores := by rfl

@[simp] theorem setRingWr_cores (s : State) (c : Nat) (v : Slot) (i wr : Nat) (ph : Bool) : (setRingWr s c v i wr ph).cores =
    s.cores := by rfl

@[simp] theorem writeRecord_stepPtrs (s : State) (c k r : Nat) : stepPtrs (writeRecord s c k r).cores = stepPtrs s.cores := by
  unfold writeRecord; split <;> simp

@[simp] theorem reportError_stepPtrs (s : State) (c k kind cause unit step row col : Nat) (et : Int) (detail : Nat) : stepPtrs
    (reportError s c k kind cause unit step row col et detail).cores = stepPtrs s.cores := by
  simp [reportError]

@[simp] theorem closeEnds_stepPtrs (s : State) (c k : Nat) : stepPtrs (closeEnds s c k).cores = stepPtrs s.cores := by
  simp [closeEnds]

@[simp] theorem faultSlot_stepPtrs (s : State) (c k : Nat) : stepPtrs (faultSlot s c k).cores = stepPtrs s.cores := by
  grind [faultSlot, closeEnds_stepPtrs, onSlot_stepPtrs, dropWindow_cores]

@[simp] theorem noteFault_stepPtrs (s : State) (c k cause unit addr : Nat) : stepPtrs (noteFault s c k cause unit addr).cores =
    stepPtrs s.cores := by
  simp [noteFault]

@[simp] theorem rejectStep_stepPtrs (s : State) (c k step cause unit row col : Nat) : stepPtrs (rejectStep s c k step cause unit
    row col).cores = stepPtrs s.cores := by
  simp [rejectStep]

@[simp] theorem poisonStop_stepPtrs (s : State) (c k step unit : Nat) : stepPtrs (poisonStop s c k step unit).cores = stepPtrs
    s.cores := by
  simp [poisonStop]

@[simp] theorem consumePoison_stepPtrs (s : State) (c k step cls : Nat) : stepPtrs (consumePoison s c k step cls).cores =
    stepPtrs s.cores := by
  simp [consumePoison]

@[simp] theorem reportProgress_stepPtrs (s : State) (c k : Nat) (moved : Bool) : stepPtrs (reportProgress s c k moved).cores =
    stepPtrs s.cores := by
  grind [reportProgress, onSlot_stepPtrs, post_cores]

@[simp] theorem liftBeacon_stepPtrs (s : State) (c k : Nat) : stepPtrs (liftBeacon s c k).cores = stepPtrs s.cores := by
  grind [liftBeacon, onSlot_stepPtrs, post_cores]

@[simp] theorem progress_stepPtrs (s : State) (c k : Nat) (flows : Bool) : stepPtrs (progress s c k flows).cores = stepPtrs
    s.cores := by
  unfold progress; split <;> simp

@[simp] theorem selectSlot_stepPtrs (s : State) (c : Nat) : stepPtrs (selectSlot s c).cores = stepPtrs s.cores := by
  grind [selectSlot, onSlot_stepPtrs, setCore_stepPtrs, bump_cores]

@[simp] theorem settleStop_stepPtrs (s : State) (c k : Nat) : stepPtrs (settleStop s c k).cores = stepPtrs s.cores := by
  grind [settleStop, onSlot_stepPtrs, dropWindow_cores]

@[simp] theorem settleBlock_stepPtrs (s : State) (c k : Nat) : stepPtrs (settleBlock s c k).cores = stepPtrs s.cores := by
  unfold settleBlock; split <;> simp

@[simp] theorem settleBeacon_stepPtrs (s : State) (c k : Nat) : stepPtrs (settleBeacon s c k).cores = stepPtrs s.cores := by
  grind [settleBeacon, onSlot_stepPtrs, post_cores]

@[simp] theorem settleCore_stepPtrs (s : State) (c : Nat) : stepPtrs (settleCore s c).cores = stepPtrs s.cores := by
  simp [settleCore, each_keeps (fun s => stepPtrs s.cores)]

@[simp] theorem completeStep_stepPtrs (s : State) (c k step : Nat) : stepPtrs (completeStep s c k step).cores = stepPtrs s.cores
    := by
  simp [completeStep]

@[simp] theorem stepDone_stepPtrs (s : State) (c k step n : Nat) : stepPtrs (stepDone s c k step n).cores = stepPtrs s.cores :=
    by
  simp [stepDone]

@[simp] theorem putFree_stepPtrs (s : State) (c k x : Nat) : stepPtrs (putFree s c k x).cores = stepPtrs s.cores := by
  unfold putFree; split <;> simp

theorem takeReady_stepPtrs (s : State) (c k h : Nat) {y0 : Nat} {t : State} (h : takeReady s c k h = some (y0, t)) : stepPtrs
    t.cores = stepPtrs s.cores := by
  grind [takeReady, onSlot_stepPtrs]

@[simp] theorem forwardStep_stepPtrs (s : State) (c k step : Nat) : stepPtrs (forwardStep s c k step).cores = stepPtrs s.cores
    := by
  grind [forwardStep, completeStep_stepPtrs, onSlot_stepPtrs, settleCore_stepPtrs]

@[simp] theorem decideReset_cores (s : State) (domain target trigger cls config : Nat) (holding : List Element) (repair : Option
    (Nat × Nat)) : (decideReset s domain target trigger cls config holding repair).cores = s.cores := by rfl

@[simp] theorem escalate_cores (s : State) (structure_ place : Nat) : (escalate s structure_ place).cores = s.cores := by rfl

@[simp] theorem startWalk_cores (s : State) (unit : Unit) (a : Nat) (write : Bool) : (startWalk s unit a write).cores = s.cores
    := by
  unfold startWalk; split <;> simp

@[simp] theorem lookedUp_cores (s : State) (unit : Unit) (missed : Bool) : (lookedUp s unit missed).cores = s.cores := by
  grind [lookedUp, bump_cores]

@[simp] theorem addRequest_cores (s : State) (kind : Nat) (unit : Unit) (tag slot step : Nat) : (addRequest s kind unit tag slot
    step).2.cores = s.cores := by rfl

@[simp] theorem returnCredits_stepPtrs (s : State) (c k n : Nat) : stepPtrs (returnCredits s c k n).cores = stepPtrs s.cores :=
    by
  grind [returnCredits, setLane_stepPtrs, post_cores]

theorem dequeue_stepPtrs (s : State) (c k n : Nat) {y0 : Token} {t : State} (h : dequeue s c k n = some (y0, t)) : stepPtrs
    t.cores = stepPtrs s.cores := by
  obtain ⟨y, _, hy⟩ := Option.map_eq_some_iff.mp h
  dsimp only at hy
  obtain ⟨-, rfl⟩ := Prod.mk.inj hy
  split <;> simp

@[simp] theorem freshTag_stepPtrs (s : State) (unit : Unit) : stepPtrs (freshTag s unit).2.cores = stepPtrs s.cores := by
  unfold freshTag; split <;> simp

@[simp] theorem remoteRead_stepPtrs (s : State) (i : Issuer) (g : Seg) (a : Nat) : stepPtrs (remoteRead s i g a).1.cores =
    stepPtrs s.cores := by
  unfold remoteRead; split <;> simp

@[simp] theorem remoteWrite_stepPtrs (s : State) (i : Issuer) (g : Seg) (a : Nat) : stepPtrs (remoteWrite s i g a).1.cores =
    stepPtrs s.cores := by
  unfold remoteWrite; split <;> simp

@[simp] theorem readAt_stepPtrs (s : State) (i : Issuer) (g : Seg) (ga a : Nat) (shared : Bool) : stepPtrs (readAt s i g ga a
    shared).1.cores = stepPtrs s.cores := by
  grind [readAt, freshTag_stepPtrs, inject_cores]

@[simp] theorem writeAt_stepPtrs (s : State) (i : Issuer) (g : Seg) (ga a : Nat) : stepPtrs (writeAt s i g ga a).1.cores =
    stepPtrs s.cores := by
  grind [writeAt, freshTag_stepPtrs, inject_cores, physWrite_cores]

@[simp] theorem segRead_stepPtrs (s : State) (i : Issuer) (g : Seg) : stepPtrs (segRead s i g).1.cores = stepPtrs s.cores := by
  grind [segRead, readAt_stepPtrs, remoteRead_stepPtrs, lookedUp_cores, snoopAll_cores, startWalk_cores]

@[simp] theorem segWrite_stepPtrs (s : State) (i : Issuer) (g : Seg) : stepPtrs (segWrite s i g).1.cores = stepPtrs s.cores :=
    by
  grind [segWrite, remoteWrite_stepPtrs, writeAt_stepPtrs, lookedUp_cores, snoopAll_cores, startWalk_cores]

@[simp] theorem segStep_stepPtrs (s : State) (i : Issuer) (g : Seg) : stepPtrs (segStep s i g).1.cores = stepPtrs s.cores := by
  grind [segStep, segRead_stepPtrs, segWrite_stepPtrs]

@[simp] theorem segsStep_stepPtrs (s : State) (i : Issuer) (x0 : List Seg) : stepPtrs (segsStep s i x0).1.cores = stepPtrs
    s.cores := by
  fun_induction segsStep <;> grind [segStep_stepPtrs]

@[simp] theorem findSide_cores (s : State) (i : Issuer) (l : Loc) (n : Nat) (write : Bool) : (findSide s i l n write).1.cores =
    s.cores := by
  fun_cases findSide <;> grind [escalate_cores, lookedUp_cores, snoopAll_cores, startWalk_cores]

@[simp] theorem findSides_cores (s : State) (i : Issuer) (x0 : List Seg) : (findSides s i x0).1.cores = s.cores := by
  fun_induction findSides <;> grind [findSide_cores]

@[simp] theorem mcopyRecord_cores (s : State) (i : Issuer) (j : CopyJob) (n : Nat) : (mcopyRecord s i j n).1.cores = s.cores :=
    by
  grind [mcopyRecord, findSides_cores, physWrite_cores, each_or State.cores]

@[simp] theorem fillSegs_cores (s : State) (i : Issuer) (x0 : List Seg) : (fillSegs s i x0).1.cores = s.cores := by
  fun_induction fillSegs <;> grind [findSide_cores, physWrite_cores]

@[simp] theorem localSegs_cores (s : State) (i : Issuer) (j : CopyJob) : (localSegs s i j).1.cores = s.cores := by
  unfold localSegs
  split
  · have hrec (n : Nat) (p : State × CopyJob × Option Stop) : State.cores (if p.2.2.isSome || p.2.1.made ≤ n then p
      else
        let r := mcopyRecord p.1 i p.2.1 n
        match r.2.2 with
        | some x =>
          let z := stopAt r.2.1 n x
          (r.1, z.1, z.2)
        | none => r).1 = State.cores p.1 := by
      split
      · rfl
      · dsimp only
        split <;> exact mcopyRecord_cores ..
    exact each_leaves (fun p => (State.cores p.1)) hrec _ (s, j, none)
  · split
    · dsimp only
      split <;> exact fillSegs_cores ..
    · rfl

@[simp] theorem copySegs_stepPtrs (s : State) (i : Issuer) (x0 : List Seg) : stepPtrs (copySegs s i x0).1.cores = stepPtrs
    s.cores := by
  fun_induction copySegs <;> grind [segStep_stepPtrs]

@[simp] theorem retire_stepPtrs (s : State) (j : CopyJob) : stepPtrs (retire s j).1.cores = stepPtrs s.cores := by
  unfold retire
  dsimp only
  split
  · rfl
  · rw [progress_stepPtrs, writeDone_cores]
    refine (each_keeps (fun s => stepPtrs s.cores) (fun e t => ?_) _ _).trans rfl
    cases noteCtr e.2 <;> split <;> rfl

@[simp] theorem copyPass_stepPtrs (s : State) (i : Issuer) (j : CopyJob) : stepPtrs (copyPass s i j).1.cores = stepPtrs s.cores
    := by
  grind [copyPass, copySegs_stepPtrs, retire_stepPtrs, localSegs_cores]

@[simp] theorem copyRun_stepPtrs (i : Issuer) (x0 : Nat) (s : State) (x2 : CopyJob) : stepPtrs (copyRun i x0 s x2).1.cores =
    stepPtrs s.cores := by
  fun_induction copyRun <;> grind [copyPass_stepPtrs]

@[simp] theorem setJobs_stepPtrs (s : State) (unit : Unit) (l : List CopyJob) : stepPtrs (setJobs s unit l).cores = stepPtrs
    s.cores := by
  unfold setJobs; split <;> simp

@[simp] theorem resolveStop_cores (s : State) (unit : Unit) (x : Stop) : (resolveStop s unit x).1.cores = s.cores := by
  fun_cases resolveStop <;> grind [bump_cores]

@[simp] theorem unitFault_stepPtrs (s : State) (c k step cause addr cls : Nat) : stepPtrs (unitFault s c k step cause addr
    cls).cores = stepPtrs s.cores := by
  simp [unitFault]

@[simp] theorem stopCopy_stepPtrs (s : State) (unit : Unit) (j : CopyJob) (x : Stop) : stepPtrs (stopCopy s unit j x).cores =
    stepPtrs s.cores := by
  grind [stopCopy, consumePoison_stepPtrs, noteFault_stepPtrs, rejectStep_stepPtrs, reportProgress_stepPtrs, setJobs_stepPtrs,
    settleCore_stepPtrs, unitFault_stepPtrs, resolveStop_cores]

@[simp] theorem finishCopy_stepPtrs (s : State) (unit : Unit) (j : CopyJob) : stepPtrs (finishCopy s unit j).cores = stepPtrs
    s.cores := by
  unfold finishCopy; split <;> simp

@[simp] theorem pumpJob_stepPtrs (s : State) (unit : Unit) (j : CopyJob) : stepPtrs (pumpJob s unit j).cores = stepPtrs s.cores
    := by
  grind [pumpJob, copyRun_stepPtrs, finishCopy_stepPtrs, setJobs_stepPtrs, stopCopy_stepPtrs]

@[simp] theorem addressFault_cores (s : State) (unit : Unit) (hard : Bool) : (addressFault s unit hard).cores = s.cores := by
  unfold addressFault; split <;> simp

@[simp] theorem dropCached_cores (s : State) (unit : Unit) (i : Nat) : (dropCached s unit i).cores = s.cores := by
  unfold dropCached; split <;> simp

@[simp] theorem pumpCopies_stepPtrs (s : State) (unit : Unit) : stepPtrs (pumpCopies s unit).cores = stepPtrs s.cores := by
  grind [pumpCopies, pumpJob_stepPtrs, each_or (fun s => stepPtrs s.cores)]

@[simp] theorem writeShare_cores (s : State) (id i off : Nat) (l : Tainted) : (writeShare s id i off l).cores = s.cores := by rfl

@[simp] theorem stageChunk_cores (s : State) (c : Nat) (d : BitVec 1024) (ch : Chunk) (head data : Tainted) : (stageChunk s c d
    ch head data).1.cores = s.cores := by
  grind [stageChunk]

@[simp] theorem addDrawn_stepPtrs (s : State) (c k n : Nat) (more : Tainted) : stepPtrs (addDrawn s c k n more).cores = stepPtrs
    s.cores := by
  simp [addDrawn]

@[simp] theorem drawTokens_stepPtrs (c k n pos : Nat) (x0 : Nat) (s : State) : stepPtrs (drawTokens c k n pos x0 s).cores =
    stepPtrs s.cores := by
  fun_induction drawTokens <;> grind [addDrawn_stepPtrs, dequeue_stepPtrs]

@[simp] theorem drawBuffer_stepPtrs (s : State) (c k n i : Nat) : stepPtrs (drawBuffer s c k n i).cores = stepPtrs s.cores := by
  simp [drawBuffer]

@[simp] theorem drawHandles_stepPtrs (c k n pos : Nat) (x0 : Nat) (s : State) : stepPtrs (drawHandles c k n pos x0 s).cores =
    stepPtrs s.cores := by
  fun_induction drawHandles <;> grind [drawBuffer_stepPtrs, setStrm_stepPtrs, takeReady_stepPtrs]

@[simp] theorem drawFor_stepPtrs (s : State) (c k n pos : Nat) : stepPtrs (drawFor s c k n pos).cores = stepPtrs s.cores := by
  grind [drawFor, drawHandles_stepPtrs, drawTokens_stepPtrs]

@[simp] theorem stepChunks_stepPtrs (s : State) (i : Issuer) (v : Slot) (t : Stream) (x0 : List Chunk) : stepPtrs (stepChunks s
    i v t x0).1.cores = stepPtrs s.cores := by
  fun_induction stepChunks <;> grind [segsStep_stepPtrs]

@[simp] theorem runChunks_stepPtrs (i : Issuer) (v : Slot) (t : Stream) (x0 : Nat) (s : State) (x2 : List Chunk) : stepPtrs
    (runChunks i v t x0 s x2).1.cores = stepPtrs s.cores := by
  fun_induction runChunks <;> grind [stepChunks_stepPtrs]

@[simp] theorem stopStream_stepPtrs (s : State) (c k n : Nat) (x : Stop) : stepPtrs (stopStream s c k n x).cores = stepPtrs
    s.cores := by
  grind [stopStream, consumePoison_stepPtrs, rejectStep_stepPtrs, reportProgress_stepPtrs, setStrm_stepPtrs,
    settleCore_stepPtrs, unitFault_stepPtrs, resolveStop_cores, writeElems_cores]

@[simp] theorem setChunk_stepPtrs (s : State) (c k n : Nat) (ch : Chunk) : stepPtrs (setChunk s c k n ch).cores = stepPtrs
    s.cores := by
  simp [setChunk]

@[simp] theorem settleChunks_stepPtrs (c k n : Nat) (x0 : Nat) (s : State) : stepPtrs (settleChunks c k n x0 s).cores = stepPtrs
    s.cores := by
  fun_induction settleChunks
  case case5 ih =>
    rw [ih]
    split <;> grind [setChunk_stepPtrs, drawFor_stepPtrs, stageChunk_cores, bump_cores, setStrm_stepPtrs]
  all_goals grind [setChunk_stepPtrs, drawFor_stepPtrs, stageChunk_cores, bump_cores, setStrm_stepPtrs]

@[simp] theorem fetchStream_stepPtrs (s : State) (c k n w : Nat) : stepPtrs (fetchStream s c k n w).cores = stepPtrs s.cores :=
    by
  grind [fetchStream, runChunks_stepPtrs, setStrm_stepPtrs, settleChunks_stepPtrs, stopStream_stepPtrs, bump_cores]

@[simp] theorem prefetch_stepPtrs (s : State) (c k n : Nat) : stepPtrs (prefetch s c k n).cores = stepPtrs s.cores := by
  grind [prefetch, fetchStream_stepPtrs]

@[simp] theorem returnHandles_stepPtrs (s : State) (c k n : Nat) : stepPtrs (returnHandles s c k n).cores = stepPtrs s.cores :=
    by
  simp [returnHandles, each_keeps (fun s => stepPtrs s.cores)]

@[simp] theorem rewindStream_stepPtrs (s : State) (c k n tile : Nat) : stepPtrs (rewindStream s c k n tile).cores = stepPtrs
    s.cores := by
  simp [rewindStream]

@[simp] theorem engReject_stepPtrs (s : State) (c k step cause id : Nat) (d : BitVec 512) : stepPtrs (engReject s c k step cause
    id d).cores = stepPtrs s.cores := by
  grind [engReject, noteFault_stepPtrs, rejectStep_stepPtrs, settleCore_stepPtrs, bump_cores]

@[simp] theorem releaseMarks_stepPtrs (s : State) (a : OpenAcc) : stepPtrs (releaseMarks s a).cores = stepPtrs s.cores := by
  simp [releaseMarks, each_keeps (fun s => stepPtrs s.cores)]

@[simp] theorem takeReplay_stepPtrs (s : State) (id : Nat) : stepPtrs (takeReplay s id).cores = stepPtrs s.cores := by
  grind [takeReplay, rewindStream_stepPtrs, setEng_cores, each_or (fun s => stepPtrs s.cores)]

@[simp] theorem discardAcc_stepPtrs (s : State) (id : Nat) (a : OpenAcc) : stepPtrs (discardAcc s id a).cores = stepPtrs s.cores
    := by
  simp [discardAcc]

@[simp] theorem fillHalf_cores (s : State) (id role : Nat) (plan : Nat) (d : BitVec 1024) (gc : Bool) (data : Tainted) :
    (fillHalf s id role plan d gc data).cores = s.cores := by
  simp [fillHalf, each_keeps State.cores]

@[simp] theorem rejectLoad_stepPtrs (s : State) (id : Nat) (w : Accepted) (x : Nat) : stepPtrs (rejectLoad s id w x).cores =
    stepPtrs s.cores := by
  grind [rejectLoad, discardAcc_stepPtrs, engReject_stepPtrs, setEng_cores]

@[simp] theorem deliverLoad_stepPtrs (s : State) (c k n : Nat) : stepPtrs (deliverLoad s c k n).1.cores = stepPtrs s.cores := by
  grind [deliverLoad, progress_stepPtrs, rejectLoad_stepPtrs, returnHandles_stepPtrs, setStrm_stepPtrs, bump_cores,
    fillHalf_cores, setEng_cores, writeElems_cores]

@[simp] theorem pumpOperand_stepPtrs (s : State) (c k n : Nat) : stepPtrs (pumpOperand s c k n).1.cores = stepPtrs s.cores := by
  grind [pumpOperand, deliverLoad_stepPtrs, fetchStream_stepPtrs]

@[simp] theorem deliverRow_stepPtrs (s : State) (c k n : Nat) : stepPtrs (deliverRow s c k n).1.cores = stepPtrs s.cores := by
  grind [deliverRow, consumePoison_stepPtrs, rejectStep_stepPtrs, returnHandles_stepPtrs, setStrm_stepPtrs, settleCore_stepPtrs,
    bump_cores, writeElems_cores]

@[simp] theorem pumpIn_stepPtrs (s : State) (c k n : Nat) : stepPtrs (pumpIn s c k n).1.cores = stepPtrs s.cores := by
  grind [pumpIn, deliverRow_stepPtrs, fetchStream_stepPtrs]

@[simp] theorem beginOut_stepPtrs (c k n : Nat) (x0 : Nat) (s : State) : stepPtrs (beginOut c k n x0 s).cores = stepPtrs s.cores
    := by
  fun_induction beginOut <;> grind [setStrm_stepPtrs, stageChunk_cores]

@[simp] theorem stepOut_stepPtrs (c k n : Nat) (x0 : List Chunk) (x1 : Bool) (s : State) : stepPtrs (stepOut c k n x0 x1
    s).1.cores = stepPtrs s.cores := by
  fun_induction stepOut <;> grind [segsStep_stepPtrs, setChunk_stepPtrs, setStrm_stepPtrs]

@[simp] theorem retireOut_stepPtrs (c k n : Nat) (x0 : Nat) (s : State) : stepPtrs (retireOut c k n x0 s).cores = stepPtrs
    s.cores := by
  fun_induction retireOut <;> grind [progress_stepPtrs, setStrm_stepPtrs, bump_cores, writeElems_cores]

@[simp] theorem runOut_stepPtrs (c k n : Nat) (x0 : Nat) (s : State) : stepPtrs (runOut c k n x0 s).1.cores = stepPtrs s.cores
    := by
  fun_induction runOut <;> grind [beginOut_stepPtrs, retireOut_stepPtrs, stepOut_stepPtrs]

@[simp] theorem pumpOut_stepPtrs (s : State) (c k n : Nat) : stepPtrs (pumpOut s c k n).1.cores = stepPtrs s.cores := by
  grind [pumpOut, runOut_stepPtrs, stopStream_stepPtrs]

theorem strmUpset_stepPtrs (s : State) (c k n : Nat) {t : State} (h : strmUpset s c k n = some t) : stepPtrs t.cores = stepPtrs
    s.cores := by
  grind [strmUpset, setStrm_stepPtrs, addressFault_cores, bump_cores, writeElems_cores]

@[simp] theorem pumpStream_stepPtrs (s : State) (c k n : Nat) : stepPtrs (pumpStream s c k n).1.cores = stepPtrs s.cores := by
  unfold pumpStream; split <;> simp

@[simp] theorem engPoison_stepPtrs (s : State) (id : Nat) (w : Accepted) (cls : Nat) : stepPtrs (engPoison s id w cls).cores =
    stepPtrs s.cores := by
  unfold engPoison; split <;> simp [each_keeps (fun s => stepPtrs s.cores)]

@[simp] theorem attach_stepPtrs (s : State) (c k n engine role : Nat) : stepPtrs (attach s c k n engine role).cores = stepPtrs
    s.cores := by
  simp [attach]

@[simp] theorem verifyStream_stepPtrs (s : State) (c k n : Nat) : stepPtrs (verifyStream s c k n).cores = stepPtrs s.cores := by
  grind [verifyStream, engPoison_stepPtrs, poisonStop_stepPtrs, setStrm_stepPtrs, settleCore_stepPtrs, bump_cores,
    detectAt_cores]

@[simp] theorem padRow_cores (s : State) (len : Nat) (l : List Nat) : (padRow s len l).1.cores = s.cores := by rfl

theorem formPart_stepPtrs (s : State) (c key : Nat) (partners : List Nat) (own : List Nat) {t : State} (h : formPart s c key
    partners own = some t) : stepPtrs t.cores = stepPtrs s.cores := by
  grind [formPart, setCore_stepPtrs]

@[simp] theorem foldedPart_stepPtrs (s : State) (c p key : Nat) : stepPtrs (foldedPart s c p key).cores = stepPtrs s.cores := by
  grind [foldedPart, setCore_stepPtrs]

@[simp] theorem vecFolds_stepPtrs (c : Nat) (v : Slot) (d : BitVec 512) (row : Nat) (x y : List Nat) (x0 : Nat) (x1 : Nat) (s :
    State) (x3 : List (List Nat)) : stepPtrs (vecFolds c v d row x y x0 x1 s x3).1.cores = stepPtrs s.cores := by
  fun_induction vecFolds <;> grind [formPart_stepPtrs]

@[simp] theorem vecResult_stepPtrs (s : State) (c k : Nat) (d : BitVec 512) (row : Nat) : stepPtrs (vecResult s c k d
    row).1.cores = stepPtrs s.cores := by
  unfold vecResult; split <;> simp

@[simp] theorem settleVector_stepPtrs (s : State) (c : Nat) : stepPtrs (settleVector s c).cores = stepPtrs s.cores := by
  grind [settleVector, completeStep_stepPtrs, setCore_stepPtrs, settleCore_stepPtrs]

@[simp] theorem vecMismatch_stepPtrs (s : State) (c : Nat) : stepPtrs (vecMismatch s c).cores = stepPtrs s.cores := by
  simp [vecMismatch]

@[simp] theorem runRow_stepPtrs (s : State) (c : Nat) (mismatch : Bool) : stepPtrs (runRow s c mismatch).cores = stepPtrs
    s.cores := by
  unfold runRow; (repeat' split) <;> grind [consumePoison_stepPtrs, foldedPart_stepPtrs, masked_cores, padRow_cores,
    prefetch_stepPtrs, rejectStep_stepPtrs, setCore_stepPtrs, setStrm_stepPtrs, settleCore_stepPtrs, settleVector_stepPtrs,
    stepDone_stepPtrs, vecMismatch_stepPtrs, vecResult_stepPtrs, each_or (fun s => stepPtrs s.cores)]

@[simp] theorem setMerge_cores (s : State) (h : Nat) (j : MergeJob) : (setMerge s h j).cores = s.cores := by rfl

@[simp] theorem dropMerge_cores (s : State) (h : Nat) (j : MergeJob) : (dropMerge s h j).cores = s.cores := by rfl

@[simp] theorem stopMerge_stepPtrs (s : State) (h : Nat) (j : MergeJob) (cause : Nat) : stepPtrs (stopMerge s h j cause).cores =
    stepPtrs s.cores := by
  unfold stopMerge; split <;> simp

@[simp] theorem mgCommit_stepPtrs (s : State) (h : Nat) (j : MergeJob) : stepPtrs (mgCommit s h j).1.cores = stepPtrs s.cores :=
    by
  simp [mgCommit, each_keeps (fun s => stepPtrs s.cores)]

@[simp] theorem mergePass_stepPtrs (s : State) (h : Nat) (j : MergeJob) : stepPtrs (mergePass s h j).1.cores = stepPtrs s.cores
    := by
  grind [mergePass, mgCommit_stepPtrs, segsStep_stepPtrs, each_or (fun s => stepPtrs s.cores)]

@[simp] theorem runMerge_stepPtrs (h : Nat) (x0 : Nat) (s : State) : stepPtrs (runMerge h x0 s).cores = stepPtrs s.cores := by
  fun_induction runMerge <;> grind [completeStep_stepPtrs, forwardStep_stepPtrs, mergePass_stepPtrs, reportProgress_stepPtrs,
    settleCore_stepPtrs, stopMerge_stepPtrs, unitFault_stepPtrs, bump_cores, dropMerge_cores, resolveStop_cores, setMerge_cores]

@[simp] theorem pumpMerge_stepPtrs (s : State) (h : Nat) : stepPtrs (pumpMerge s h).cores = stepPtrs s.cores := by
  simp [pumpMerge]

theorem mergeUpset_cores (s : State) (h : Nat) {t : State} (h : mergeUpset s h = some t) : t.cores = s.cores := by
  obtain ⟨j, _, rfl⟩ := Option.map_eq_some_iff.mp h
  simp

@[simp] theorem recheckStream_stepPtrs (s : State) (c k n : Nat) : stepPtrs (recheckStream s c k n).cores = stepPtrs s.cores :=
    by
  grind [recheckStream, attach_stepPtrs, engReject_stepPtrs, setEng_cores, each_or (fun s => stepPtrs s.cores)]

end Sys2Proof.Machine
end

section
/-! Further parts of the state that operations leave as they were. -/

namespace Sys2Proof.Machine

@[simp] theorem writeRecord_bindings (s : State) (c k r : Nat) : bindings (writeRecord s c k r).cores = bindings s.cores := by
  unfold writeRecord; split <;> simp

@[simp] theorem reportError_bindings (s : State) (c k kind cause unit step row col : Nat) (et : Int) (detail : Nat) : bindings
    (reportError s c k kind cause unit step row col et detail).cores = bindings s.cores := by
  simp [reportError]

@[simp] theorem closeEnds_bindings (s : State) (c k : Nat) : bindings (closeEnds s c k).cores = bindings s.cores := by
  simp [closeEnds]

@[simp] theorem faultSlot_bindings (s : State) (c k : Nat) : bindings (faultSlot s c k).cores = bindings s.cores := by
  grind [faultSlot, closeEnds_bindings, onSlot_bindings, dropWindow_cores]

@[simp] theorem noteFault_bindings (s : State) (c k cause unit addr : Nat) : bindings (noteFault s c k cause unit addr).cores =
    bindings s.cores := by
  simp [noteFault]

@[simp] theorem rejectStep_bindings (s : State) (c k step cause unit row col : Nat) : bindings (rejectStep s c k step cause unit
    row col).cores = bindings s.cores := by
  simp [rejectStep]

@[simp] theorem poisonStop_bindings (s : State) (c k step unit : Nat) : bindings (poisonStop s c k step unit).cores = bindings
    s.cores := by
  simp [poisonStop]

@[simp] theorem consumePoison_bindings (s : State) (c k step cls : Nat) : bindings (consumePoison s c k step cls).cores =
    bindings s.cores := by
  simp [consumePoison]

@[simp] theorem reportProgress_bindings (s : State) (c k : Nat) (moved : Bool) : bindings (reportProgress s c k moved).cores =
    bindings s.cores := by
  grind [reportProgress, onSlot_bindings, post_cores]

@[simp] theorem liftBeacon_bindings (s : State) (c k : Nat) : bindings (liftBeacon s c k).cores = bindings s.cores := by
  grind [liftBeacon, onSlot_bindings, post_cores]

@[simp] theorem progress_bindings (s : State) (c k : Nat) (flows : Bool) : bindings (progress s c k flows).cores = bindings
    s.cores := by
  unfold progress; split <;> simp

@[simp] theorem passStep_bindings (s : State) (c k : Nat) (d : BitVec 512) (nxt : Nat) : bindings (passStep s c k d nxt).cores =
    bindings s.cores := by
  exact (progress_bindings ..).trans (onSlot_bindings (fun _ => rfl))

@[simp] theorem selectSlot_bindings (s : State) (c : Nat) : bindings (selectSlot s c).cores = bindings s.cores := by
  grind [selectSlot, onSlot_bindings, setCore_bindings, bump_cores]

@[simp] theorem settleStop_bindings (s : State) (c k : Nat) : bindings (settleStop s c k).cores = bindings s.cores := by
  grind [settleStop, onSlot_bindings, dropWindow_cores]

@[simp] theorem settleBlock_bindings (s : State) (c k : Nat) : bindings (settleBlock s c k).cores = bindings s.cores := by
  unfold settleBlock; split <;> simp

@[simp] theorem settleBeacon_bindings (s : State) (c k : Nat) : bindings (settleBeacon s c k).cores = bindings s.cores := by
  grind [settleBeacon, onSlot_bindings, post_cores]

@[simp] theorem settleCore_bindings (s : State) (c : Nat) : bindings (settleCore s c).cores = bindings s.cores := by
  simp [settleCore, each_keeps (fun s => bindings s.cores)]

theorem takeReady_bindings (s : State) (c k h : Nat) {y0 : Nat} {t : State} (h : takeReady s c k h = some (y0, t)) : bindings
    t.cores = bindings s.cores := by
  grind [takeReady, onSlot_bindings]

@[simp] theorem returnCredits_bindings (s : State) (c k n : Nat) : bindings (returnCredits s c k n).cores = bindings s.cores :=
    by
  grind [returnCredits, setLane_bindings, post_cores]

theorem dequeue_bindings (s : State) (c k n : Nat) {y0 : Token} {t : State} (h : dequeue s c k n = some (y0, t)) : bindings
    t.cores = bindings s.cores := by
  obtain ⟨y, _, hy⟩ := Option.map_eq_some_iff.mp h
  dsimp only at hy
  obtain ⟨-, rfl⟩ := Prod.mk.inj hy
  split <;> simp

@[simp] theorem freshTag_bindings (s : State) (unit : Unit) : bindings (freshTag s unit).2.cores = bindings s.cores := by
  unfold freshTag; split <;> simp

@[simp] theorem remoteRead_bindings (s : State) (i : Issuer) (g : Seg) (a : Nat) : bindings (remoteRead s i g a).1.cores =
    bindings s.cores := by
  unfold remoteRead; split <;> simp

@[simp] theorem remoteWrite_bindings (s : State) (i : Issuer) (g : Seg) (a : Nat) : bindings (remoteWrite s i g a).1.cores =
    bindings s.cores := by
  unfold remoteWrite; split <;> simp

@[simp] theorem readAt_bindings (s : State) (i : Issuer) (g : Seg) (ga a : Nat) (shared : Bool) : bindings (readAt s i g ga a
    shared).1.cores = bindings s.cores := by
  grind [readAt, freshTag_bindings, inject_cores]

@[simp] theorem writeAt_bindings (s : State) (i : Issuer) (g : Seg) (ga a : Nat) : bindings (writeAt s i g ga a).1.cores =
    bindings s.cores := by
  grind [writeAt, freshTag_bindings, inject_cores, physWrite_cores]

@[simp] theorem segRead_bindings (s : State) (i : Issuer) (g : Seg) : bindings (segRead s i g).1.cores = bindings s.cores := by
  grind [segRead, readAt_bindings, remoteRead_bindings, lookedUp_cores, snoopAll_cores, startWalk_cores]

@[simp] theorem segWrite_bindings (s : State) (i : Issuer) (g : Seg) : bindings (segWrite s i g).1.cores = bindings s.cores :=
    by
  grind [segWrite, remoteWrite_bindings, writeAt_bindings, lookedUp_cores, snoopAll_cores, startWalk_cores]

@[simp] theorem segStep_bindings (s : State) (i : Issuer) (g : Seg) : bindings (segStep s i g).1.cores = bindings s.cores := by
  grind [segStep, segRead_bindings, segWrite_bindings]

@[simp] theorem segsStep_bindings (s : State) (i : Issuer) (x0 : List Seg) : bindings (segsStep s i x0).1.cores = bindings
    s.cores := by
  fun_induction segsStep <;> grind [segStep_bindings]

@[simp] theorem unitFault_bindings (s : State) (c k step cause addr cls : Nat) : bindings (unitFault s c k step cause addr
    cls).cores = bindings s.cores := by
  simp [unitFault]

@[simp] theorem addDrawn_bindings (s : State) (c k n : Nat) (more : Tainted) : bindings (addDrawn s c k n more).cores = bindings
    s.cores := by
  simp [addDrawn]

@[simp] theorem drawTokens_bindings (c k n pos : Nat) (x0 : Nat) (s : State) : bindings (drawTokens c k n pos x0 s).cores =
    bindings s.cores := by
  fun_induction drawTokens <;> grind [addDrawn_bindings, dequeue_bindings]

@[simp] theorem drawBuffer_bindings (s : State) (c k n i : Nat) : bindings (drawBuffer s c k n i).cores = bindings s.cores := by
  simp [drawBuffer]

@[simp] theorem drawHandles_bindings (c k n pos : Nat) (x0 : Nat) (s : State) : bindings (drawHandles c k n pos x0 s).cores =
    bindings s.cores := by
  fun_induction drawHandles <;> grind [drawBuffer_bindings, setStrm_bindings, takeReady_bindings]

@[simp] theorem drawFor_bindings (s : State) (c k n pos : Nat) : bindings (drawFor s c k n pos).cores = bindings s.cores := by
  grind [drawFor, drawHandles_bindings, drawTokens_bindings]

@[simp] theorem stepChunks_bindings (s : State) (i : Issuer) (v : Slot) (t : Stream) (x0 : List Chunk) : bindings (stepChunks s
    i v t x0).1.cores = bindings s.cores := by
  fun_induction stepChunks <;> grind [segsStep_bindings]

@[simp] theorem runChunks_bindings (i : Issuer) (v : Slot) (t : Stream) (x0 : Nat) (s : State) (x2 : List Chunk) : bindings
    (runChunks i v t x0 s x2).1.cores = bindings s.cores := by
  fun_induction runChunks <;> grind [stepChunks_bindings]

@[simp] theorem stopStream_bindings (s : State) (c k n : Nat) (x : Stop) : bindings (stopStream s c k n x).cores = bindings
    s.cores := by
  grind [stopStream, consumePoison_bindings, rejectStep_bindings, reportProgress_bindings, setStrm_bindings,
    settleCore_bindings, unitFault_bindings, resolveStop_cores, writeElems_cores]

@[simp] theorem setChunk_bindings (s : State) (c k n : Nat) (ch : Chunk) : bindings (setChunk s c k n ch).cores = bindings
    s.cores := by
  simp [setChunk]

@[simp] theorem settleChunks_bindings (c k n : Nat) (x0 : Nat) (s : State) : bindings (settleChunks c k n x0 s).cores = bindings
    s.cores := by
  fun_induction settleChunks
  case case5 ih =>
    rw [ih]
    split <;> grind [setChunk_bindings, drawFor_bindings, stageChunk_cores, bump_cores, setStrm_bindings]
  all_goals grind [setChunk_bindings, drawFor_bindings, stageChunk_cores, bump_cores, setStrm_bindings]

@[simp] theorem fetchStream_bindings (s : State) (c k n w : Nat) : bindings (fetchStream s c k n w).cores = bindings s.cores :=
    by
  grind [fetchStream, runChunks_bindings, setStrm_bindings, settleChunks_bindings, stopStream_bindings, bump_cores]

@[simp] theorem prefetch_bindings (s : State) (c k n : Nat) : bindings (prefetch s c k n).cores = bindings s.cores := by
  grind [prefetch, fetchStream_bindings]

@[simp] theorem engReject_bindings (s : State) (c k step cause id : Nat) (d : BitVec 512) : bindings (engReject s c k step cause
    id d).cores = bindings s.cores := by
  grind [engReject, noteFault_bindings, rejectStep_bindings, settleCore_bindings, bump_cores]

@[simp] theorem attach_bindings (s : State) (c k n engine role : Nat) : bindings (attach s c k n engine role).cores = bindings
    s.cores := by
  simp [attach]

@[simp] theorem recheckStream_bindings (s : State) (c k n : Nat) : bindings (recheckStream s c k n).cores = bindings s.cores :=
    by
  grind [recheckStream, attach_bindings, engReject_bindings, setEng_cores, each_or (fun s => bindings s.cores)]

end Sys2Proof.Machine
end

section
/-! ## Vector steps, merges and copies, R167 to R171, R220 to R222 and R356 to R366 -/

namespace Sys2Proof.Machine
open Sys2Proof.Claims

/-- Taking up a unit's work, or refusing it for an address upset, moves no step pointer when neither part does. -/
theorem onUpset_stepPtrs {s : State} {unit : Unit} {u : Upset} {halt : State → Option State} {go : State → State}
    (hhalt : ∀ t, halt s = some t → stepPtrs t.cores = stepPtrs s.cores) (hgo : ∀ t, stepPtrs (go t).cores = stepPtrs t.cores) :
    stepPtrs (onUpset s unit u halt go).cores = stepPtrs s.cores := by
  cases u with
  | none => exact hgo s
  | address =>
    unfold onUpset
    dsimp only
    cases h : halt s with
    | none => exact hgo s
    | some t => exact hhalt t h
  | cached i => exact (hgo _).trans (congrArg stepPtrs (dropCached_cores ..))

theorem copyUpset_stepPtrs {s : State} {unit : Unit} {t : State} (h : copyUpset s unit = some t) :
    stepPtrs t.cores = stepPtrs s.cores := by
  obtain ⟨j, _, rfl⟩ := Option.map_eq_some_iff.mp h
  simp

theorem goCopies_stepPtrs (s : State) (unit : Unit) (u : Upset) : stepPtrs (goCopies s unit u).cores = stepPtrs s.cores :=
  onUpset_stepPtrs (fun _ => copyUpset_stepPtrs) (fun _ => pumpCopies_stepPtrs ..)

section
variable {s : State} {c k op : Nat} {d : BitVec 512} {mm : Bool} {u : Upset}

theorem issueTo_ip : (slotOf (issueTo s c k d) c k).ip = (slotOf s c k).ip + 1 := by
  obtain ⟨_, _, _, _, h⟩ := issueTo_slot s c k d
  rw [h]
  rfl

/-- A step that is rejected leaves its slot FAULTED at the step. -/
theorem rejected_slot (step cause unit row col : Nat) :
    let t := settleCore (rejectStep s c k step cause unit row col) c
    (slotOf t c k).state = .faulted ∧ (slotOf t c k).ip = (slotOf s c k).ip := by
  obtain ⟨hstate, hstop, hip, _⟩ := faultRecord_slot s c k cause 2 0 2 cause unit step row col 0 0
  exact ⟨settleCore_stays hstop hstate (by decide) (by decide), (settleCore_ip ..).trans hip⟩

/-! ### Vector steps -/

theorem vectorRow_clean (hstep : fetchStep s c op = .step k d)
    (hclean : op = 0x11 → corePoison s c (vkProg d) (64 + 4 * vkProgLen d) = false) :
    ¬ (fld d 0 8 = 0x11 && corePoison s c (vkProg d) (64 + 4 * vkProgLen d)) = true := by
  obtain ⟨_, _, _, _, hop⟩ := fetchStep_step hstep
  rw [hop]
  intro h
  obtain ⟨h11, hpoison⟩ := Bool.and_eq_true_iff.mp h
  rw [hclean (of_decide_eq_true h11)] at hpoison
  exact absurd hpoison (by decide)

theorem vectorRow_rejects {x : Nat} (hstep : fetchStep s c op = .step k d)
    (hclean : op = 0x11 → corePoison s c (vkProg d) (64 + 4 * vkProgLen d) = false) (hcause : vecCause s c k d = some x) :
    vectorRow s c op mm = settleCore (rejectStep s c k (slotOf s c k).ip x c 0 0) c := by
  rw [vectorRow, hstep]
  dsimp only
  rw [if_neg (vectorRow_clean hstep hclean), hcause]

/-- The state in which a core's vector unit has the slot's step behind those already there. -/
def vectorQueued (s : State) (c k : Nat) : State :=
  setCore s c (if (vectorStep s c).isNone then { coreOf s c with vecQ := [k], formed := [] }
    else { coreOf s c with vecQ := (coreOf s c).vecQ ++ [k] })

theorem vectorRow_issues (hstep : fetchStep s c op = .step k d)
    (hclean : op = 0x11 → corePoison s c (vkProg d) (64 + 4 * vkProgLen d) = false) (hcause : vecCause s c k d = none) :
    let t := settleCore (issueTo (vectorQueued s c k) c k d) c
    vectorRow s c op mm = if (vectorStep t c).any (fun p => p.2.1.op = op) then runRow t c mm else t := by
  rw [vectorRow, hstep]
  dsimp only
  rw [if_neg (vectorRow_clean hstep hclean), hcause]
  rfl

theorem vectorQueued_stepPtrs (s : State) (c k : Nat) : stepPtrs (vectorQueued s c k).cores = stepPtrs s.cores := by
  unfold vectorQueued
  split <;> exact setCore_stepPtrs rfl

theorem vectorRow_ip (hstep : fetchStep s c op = .step k d)
    (hclean : op = 0x11 → corePoison s c (vkProg d) (64 + 4 * vkProgLen d) = false) (hcause : vecCause s c k d = none) :
    (slotOf (vectorRow s c op mm) c k).ip = (slotOf s c k).ip + 1 := by
  have hissued : (slotOf (settleCore (issueTo (vectorQueued s c k) c k d) c) c k).ip = (slotOf s c k).ip + 1 := by
    rw [settleCore_ip, issueTo_ip, ip_of_stepPtrs (vectorQueued_stepPtrs ..)]
  rw [vectorRow_issues hstep hclean hcause]
  split
  · exact (ip_of_stepPtrs (runRow_stepPtrs ..) c k).trans hissued
  · exact hissued

theorem exec_vectorRow {e : Instr × Nat} (he : e ∈ [(Instr.vectorKernel c mm, 0x10), (Instr.expressionProgram c mm, 0x11)])
    (s : State) : exec e.1 s = .next (vectorRow s c e.2 mm) := by
  simp only [List.mem_cons, List.not_mem_nil, or_false] at he
  rcases he with rfl | rfl <;> rfl

/-! ### Merges -/

/-- The job of a merge step. -/
def mergeJobOf (s : State) (c k : Nat) (d : BitVec 512) : MergeJob :=
  let recs := (List.range (mgInputs d)).map (fun i => mgRecDone (mgEntry s c d i))
  { core := c, slot := k, step := (slotOf s c k).ip, desc := d, out := mgDone d, recs := recs, halt := none,
    taken := recs, prev := [], used := [], next := [], last := [], sum := none, emitting := false, segs := [], retried := false }

/-- The state in which a merge step is issued and queued at its hub. -/
def mergeQueued (s : State) (c k : Nat) (d : BitVec 512) : State :=
  let t := issueTo s c k d
  settleCore (setHub t (clusterOf c) { hubOf t (clusterOf c) with
    merges := (hubOf t (clusterOf c)).merges ++ [mergeJobOf s c k d] }) c

theorem mergeRow_issues (hprimary : (slotOf s c k).primary = none) (htwin : (slotOf s c k).twin = none)
    (hstep : fetchStep s c 0x20 = .step k d) (hgood : mgBad s c d = false) :
    mergeRow s c u = onUpset (mergeQueued s c k d) (.merge (clusterOf c)) u (fun s => mergeUpset s (clusterOf c))
      (fun s => pumpMerge s (clusterOf c)) := by
  rw [mergeRow, hstep]
  dsimp only
  rw [hgood, if_neg (by decide), gate_single hprimary htwin]
  rfl

theorem mergeRow_ip (hprimary : (slotOf s c k).primary = none) (htwin : (slotOf s c k).twin = none)
    (hstep : fetchStep s c 0x20 = .step k d) (hgood : mgBad s c d = false) :
    (slotOf (mergeRow s c u) c k).ip = (slotOf s c k).ip + 1 := by
  rw [mergeRow_issues hprimary htwin hstep hgood]
  refine (ip_of_stepPtrs (onUpset_stepPtrs (fun t ht => congrArg stepPtrs (mergeUpset_cores _ _ ht))
    (fun t => pumpMerge_stepPtrs ..)) c k).trans ?_
  exact (settleCore_ip ..).trans issueTo_ip

/-! ### Copies -/

theorem takeCopy_ip (unit : Unit) (cd : BitVec 1024) : (slotOf (takeCopy s c k unit d cd) c k).ip = (slotOf s c k).ip + 1 := by
  unfold takeCopy
  dsimp only
  rw [settleCore_ip, ip_of_stepPtrs (setJobs_stepPtrs ..), slotOf_congr (writeDone_cores ..), issueTo_ip]

section
variable {unit : Unit} (hprimary : (slotOf s c k).primary = none) (htwin : (slotOf s c k).twin = none)
  (hstep : fetchStep s c op = .step k d) (hgood : csReserved d = false) (hstream : csStream d = 0) (haligned : csDesc d % 128 = 0)
  (hinside : csDesc d + 128 ≤ coreBytes) (hclean : corePoison s c (csDesc d) 128 = false)

/-- The descriptor of a copy step. -/
def copyDesc (s : State) (c : Nat) (d : BitVec 512) : BitVec 1024 := recordOf 1024 (coreRead s c (csDesc d) 128)

include hstep hgood hstream haligned hinside hclean

theorem copyRow_full (hfull : 8 ≤ (jobsOf s unit).length) : copyRow s c op unit u = goCopies s unit u := by
  rw [copyRow, hstep]
  dsimp only
  rw [if_neg (by simp [hgood, hstream, haligned]), if_neg (by simp; omega), hclean, if_neg (by decide), if_pos hfull]

theorem copyRow_room (hroom : (jobsOf s unit).length < 8) : copyRow s c op unit u =
    match copyCause (copyDesc s c d) with
    | some x => settleCore (rejectStep s c k (slotOf s c k).ip x c 0 0) c
    | none =>
      if copyInside (copyDesc s c d) then goCopies (takeCopy s c k unit d (copyDesc s c d)) unit u
      else if cdDstSel (copyDesc s c d) = 1 then
        (if isTwin s c k then settleCore (issueTwin s c k d) c else goCopies (takeCopy s c k unit d (copyDesc s c d)) unit u)
      else
        match gate s c k (slotOf s c k).ip (crc32c (bytesOf 128 (copyDesc s c d).toNat)) with
        | .shut t => t
        | .twin t => settleCore (issueTwin t c k d) c
        | .open_ t => goCopies (takeCopy t c k unit d (copyDesc s c d)) unit u := by
  rw [copyRow, hstep]
  dsimp only
  rw [if_neg (by simp [hgood, hstream, haligned]), if_neg (by simp; omega), hclean, if_neg (by decide), if_neg (by omega)]
  rfl

theorem copyRow_rejects {x : Nat} (hroom : (jobsOf s unit).length < 8) (hcause : copyCause (copyDesc s c d) = some x) :
    copyRow s c op unit u = settleCore (rejectStep s c k (slotOf s c k).ip x c 0 0) c := by
  rw [copyRow_room hstep hgood hstream haligned hinside hclean hroom, hcause]

include hprimary htwin

theorem copyRow_takes (hroom : (jobsOf s unit).length < 8) (hcause : copyCause (copyDesc s c d) = none) :
    copyRow s c op unit u = goCopies (takeCopy s c k unit d (copyDesc s c d)) unit u := by
  have hsingle : isTwin s c k = false := by rw [isTwin, hprimary]; rfl
  rw [copyRow_room hstep hgood hstream haligned hinside hclean hroom, hcause, hsingle, gate_single hprimary htwin]
  dsimp only
  rw [if_neg Bool.false_ne_true, ite_self, ite_self]

theorem copyRow_ip (hroom : (jobsOf s unit).length < 8) (hcause : copyCause (copyDesc s c d) = none) :
    (slotOf (copyRow s c op unit u) c k).ip = (slotOf s c k).ip + 1 := by
  rw [copyRow_takes hprimary htwin hstep hgood hstream haligned hinside hclean hroom hcause]
  exact (ip_of_stepPtrs (goCopies_stepPtrs ..) c k).trans (takeCopy_ip ..)

end

theorem exec_copyRow {e : Instr × Nat × Unit}
    (he : e ∈ [(Instr.copy ⟨c, u⟩, 0x30, Unit.coreCopy c), (Instr.copyHub ⟨c, u⟩, 0x31, Unit.hubCopy (clusterOf c))])
    (s : State) : exec e.1 s = .next (copyRow s c e.2.1 e.2.2 u) := by
  simp only [List.mem_cons, List.not_mem_nil, or_false] at he
  rcases he with rfl | rfl <;> rfl

end

end Sys2Proof.Machine
end

section
/-! ## Streams, tile checks and fills, R354, R372 and R402 -/

namespace Sys2Proof.Machine
open Sys2Proof.Claims

section
variable {s : State} {c k n : Nat} {d : BitVec 512} {u : Upset}

theorem strmOf_setStrm (s : State) (c k n : Nat) (t : Stream) : strmOf (slotOf (setStrm s c k n t) c k) n = t := by
  rw [setStrm, slotOf_onSlot, strmOf, look_put_same]

/-! ### Binding -/

/-- A slot that runs releases a stream that writes no tiles, when it is free. -/
theorem strmRelease_reads (hrunning : (slotOf s c k).state = .running)
    (hreads : (strmOf (slotOf s c k) n).bound = false ∨ stForm (strmOf (slotOf s c k) n).desc ≠ 2) :
    strmRelease s c k n = (s, some (streamFree s c k n)) := by
  have hclose : closeTiles s c k n = s := by
    unfold closeTiles
    dsimp only
    exact if_pos (by rcases hreads with h | h <;> simp [h])
  rw [strmRelease, hclose, hrunning]
  rfl

/-- The state in which the slot has passed a step that gave stream `n` the record `t`. -/
def strmPassed (s : State) (c k n : Nat) (d : BitVec 512) (t : Stream) : State :=
  settleCore (passStep (setStrm s c k n t) c k d ((slotOf s c k).ip + 1)) c

theorem strmPassed_ip (t : Stream) : (slotOf (strmPassed s c k n d t) c k).ip = (slotOf s c k).ip + 1 :=
  (settleCore_ip ..).trans (passStep_state ..).1

theorem strmPassed_bindings (t : Stream) : bindings (strmPassed s c k n d t).cores = bindings (setStrm s c k n t).cores :=
  (settleCore_bindings ..).trans (passStep_bindings ..)

section
variable (hstep : fetchStep s c 0x34 = .step k d) (hgood : csReserved d = false) (haligned : csDesc d % 128 = 0)
  (hinside : csDesc d + 128 ≤ coreBytes) (hclean : corePoison s c (csDesc d) 128 = false)
  (hreads : (strmOf (slotOf s c k) (csStream d)).bound = false ∨ stForm (strmOf (slotOf s c k) (csStream d)).desc ≠ 2)
  (hsound : stBad (copyDesc s c d) = false)
include hstep hgood haligned hinside hclean hreads hsound

theorem bindRow_free (hfree : streamFree s c k (csStream d) = true) :
    bindRow s c = prefetch (recheckStream (strmPassed s c k (csStream d) d (boundStream (copyDesc s c d) (csDesc d)))
      c k (csStream d)) c k (csStream d) := by
  obtain ⟨_, hrun, _⟩ := fetchStep_step hstep
  rw [bindRow, hstep]
  dsimp only
  rw [if_neg (by simp [hgood, haligned]), if_neg (by simp; omega), hclean, if_neg (by decide),
    strmRelease_reads (running_of_runningSlot hrun) hreads, hfree]
  exact if_neg (by rw [← copyDesc, hsound]; decide)

theorem bindRow_waits (hheld : streamFree s c k (csStream d) = false) : bindRow s c = settleCore (giveUp s c k .blocked) c := by
  obtain ⟨_, hrun, _⟩ := fetchStep_step hstep
  rw [bindRow, hstep]
  dsimp only
  rw [if_neg (by simp [hgood, haligned]), if_neg (by simp; omega), hclean, if_neg (by decide),
    strmRelease_reads (running_of_runningSlot hrun) hreads, hheld]
  exact if_neg (by rw [← copyDesc, hsound]; decide)

theorem bindRow_effect (hfree : streamFree s c k (csStream d) = true) :
    let t := bindRow s c
    (slotOf t c k).ip = (slotOf s c k).ip + 1 ∧ (strmOf (slotOf t c k) (csStream d)).bound = true ∧
      (strmOf (slotOf t c k) (csStream d)).desc = copyDesc s c d := by
  dsimp only
  rw [bindRow_free hstep hgood haligned hinside hclean hreads hsound hfree]
  have hptrs := (prefetch_stepPtrs (recheckStream (strmPassed s c k (csStream d) d (boundStream (copyDesc s c d) (csDesc d)))
    c k (csStream d)) c k (csStream d)).trans (recheckStream_stepPtrs ..)
  have hbinds := ((prefetch_bindings (recheckStream (strmPassed s c k (csStream d) d (boundStream (copyDesc s c d) (csDesc d)))
    c k (csStream d)) c k (csStream d)).trans (recheckStream_bindings ..)).trans (strmPassed_bindings ..)
  refine ⟨(ip_of_stepPtrs hptrs c k).trans (strmPassed_ip _), (bound_of_bindings hbinds ..).trans ?_,
    (desc_of_bindings hbinds ..).trans ?_⟩ <;> rw [strmOf_setStrm] <;> rfl

end

theorem unbindRow_free (hstep : fetchStep s c 0x35 = .step k d) (hgood : csReserved d = false) (hdesc : csDesc d = 0)
    (hfree : streamFree s c k (csStream d) = true)
    (hreads : (strmOf (slotOf s c k) (csStream d)).bound = false ∨ stForm (strmOf (slotOf s c k) (csStream d)).desc ≠ 2) :
    unbindRow s c = recheckStream (strmPassed s c k (csStream d) d .fresh) c k (csStream d) := by
  obtain ⟨_, hrun, _⟩ := fetchStep_step hstep
  rw [unbindRow, hstep]
  dsimp only
  rw [if_neg (by simp [hgood, hdesc]), strmRelease_reads (running_of_runningSlot hrun) hreads, hfree]
  rfl

theorem unbindRow_effect (hstep : fetchStep s c 0x35 = .step k d) (hgood : csReserved d = false) (hdesc : csDesc d = 0)
    (hfree : streamFree s c k (csStream d) = true)
    (hreads : (strmOf (slotOf s c k) (csStream d)).bound = false ∨ stForm (strmOf (slotOf s c k) (csStream d)).desc ≠ 2) :
    (slotOf (unbindRow s c) c k).ip = (slotOf s c k).ip + 1 ∧ (strmOf (slotOf (unbindRow s c) c k) (csStream d)).bound = false := by
  rw [unbindRow_free hstep hgood hdesc hfree hreads]
  have hbinds := (recheckStream_bindings (strmPassed s c k (csStream d) d .fresh) c k (csStream d)).trans (strmPassed_bindings ..)
  refine ⟨(ip_of_stepPtrs (recheckStream_stepPtrs ..) c k).trans (strmPassed_ip _), (bound_of_bindings hbinds ..).trans ?_⟩
  rw [strmOf_setStrm]
  rfl

/-! ### Deliveries -/

/-- The state after a stream has had its turn, and its core and vector unit are settled. -/
def chunkDelivered (s : State) (c k n : Nat) (u : Upset) : State :=
  settleVector (settleCore (onUpset s (.stream c k n) u (fun s => strmUpset s c k n) (fun s => (pumpStream s c k n).1)) c) c

theorem chunkDelivered_stepPtrs : stepPtrs (chunkDelivered s c k n u).cores = stepPtrs s.cores :=
  ((settleVector_stepPtrs ..).trans (settleCore_stepPtrs ..)).trans
    (onUpset_stepPtrs (fun _ => strmUpset_stepPtrs _ _ _ _) (fun _ => pumpStream_stepPtrs ..))

theorem chunkDelivered_boxed : boxed (chunkDelivered s c k n u) = boxed s :=
  (boxed_of_quiet ((settleVector_quiet ..).trans (settleCore_quiet ..))).trans
    (onUpset_keeps boxed_of_quiet (fun _ ht => boxed_of_quiet (strmUpset_quiet _ _ _ _ ht)) (fun _ => pumpStream_boxed ..))

/-! ### Tile checks -/

theorem verifyStream_matches {rest : List Bool} (hchecks : (strmOf (slotOf s c k) n).checks = false :: rest)
    (hplant : plantedAt s 5 6 c = false) :
    verifyStream s c k n = bump (setStrm s c k n { strmOf (slotOf s c k) n with checks := rest }) ctrCopyVerified c 1 := by
  have hplant' (t : Stream) : plantedAt (bump (setStrm s c k n t) ctrCopyVerified c 1) 5 6 c = false := hplant
  rw [verifyStream, hchecks]
  dsimp only
  rw [hplant']
  rfl

theorem verifyStream_effect {rest : List Bool} :
    let t := bump (setStrm s c k n { strmOf (slotOf s c k) n with checks := rest }) ctrCopyVerified c 1
    slotOf t c k = { slotOf s c k with strms := (slotOf t c k).strms } ∧ (strmOf (slotOf t c k) n).checks = rest ∧
      t.mem = s.mem := by
  intro t
  have hslot : slotOf t c k = slotOf (setStrm s c k n { strmOf (slotOf s c k) n with checks := rest }) c k :=
    slotOf_congr (bump_cores ..) c k
  rw [hslot, strmOf_setStrm, setStrm, slotOf_onSlot]
  exact ⟨rfl, rfl, rfl⟩

/-! ### Fills -/

section
variable {r : Nat} {f : Fill} (hfind : (regOf s r).fills.find? (fun f => f.line = n) = some f) (halone : f.waiting = [])
include hfind halone

theorem fillReturns_clean (hshared : lineShared s n = true) : fillReturns s r n false =
    cacheInstall (setReg s r { regOf s r with fills := (regOf s r).fills.eraseP (fun f => f.line = n) }) r n := by
  have hshared' (v : Region) : lineShared (setReg s r v) n = true := hshared
  rw [fillReturns, hfind]
  dsimp only
  rw [halone, if_neg Bool.false_ne_true, hshared']
  rfl

theorem fillReturns_bad : fillReturns s r n true =
    setReg (wordsLost s (n * 512) 512) r { regOf (wordsLost s (n * 512) 512) r with
      fills := (regOf s r).fills.eraseP (fun f => f.line = n) } := by
  rw [fillReturns, hfind]
  dsimp only
  rw [halone]
  rfl

end

theorem cacheHolds_cacheInstall (s : State) (r line : Nat) : cacheHolds (cacheInstall s r line) r line = true := by
  rw [cacheHolds, cacheInstall, hubOf_setHub]
  dsimp only
  rw [installLine, contains_addTo, decide_eq_true rfl, Bool.true_or]

theorem wordsLost_hubs (s : State) (a n : Nat) : (wordsLost s a n).hubs = s.hubs := by
  unfold wordsLost
  dsimp only
  split <;> rfl

theorem wordsLost_mem (s : State) (a n : Nat) : (wordsLost s a n).mem = poisonRange s.mem a n := by
  unfold wordsLost
  dsimp only
  split <;> rfl

end

/-- Settles O48: each row is the operation it names over the state in which its step is issued, passed or rejected; no operation
that a unit carries out in its turn moves a step pointer, and none that follows a binding unbinds a stream. -/
theorem vectorCopyAndStreamSteps : Obligations.VectorCopyAndStreamSteps := by
  unfold Obligations.VectorCopyAndStreamSteps
  intro s c k n d mm u hprimary htwin v
  refine ⟨?_, ?_, ?_, ?_, ?_, ?_, ?_, ?_, ?_⟩
  · intro e he x hstep hclean hcause
    have hexec := exec_vectorRow he s
    have hquiet := vectorRow_quiet s c e.2 mm
    rw [vectorRow_rejects hstep hclean hcause] at hexec hquiet
    obtain ⟨hstate, hip⟩ := rejected_slot (s := s) (c := c) (k := k) v.ip x c 0 0
    exact ⟨hexec, _, hexec, hstate, hip, nv_of_quiet hquiet, frames_of_quiet hquiet⟩
  · intro e he hstep hclean hcause q t
    have hexec := exec_vectorRow he s
    have hquiet := vectorRow_quiet s c e.2 mm
    refine ⟨hexec.trans (congrArg Host.Outcome.next (vectorRow_issues hstep hclean hcause)), _, hexec,
      vectorRow_ip hstep hclean hcause, nv_of_quiet hquiet, frames_of_quiet hquiet⟩
  · intro hstep hgood recs j h t
    have hexec : exec (.merge ⟨c, u⟩) s = .next (mergeRow s c u) := rfl
    have hquiet := mergeRow_quiet s c u
    exact ⟨hexec.trans (congrArg Host.Outcome.next (mergeRow_issues hprimary htwin hstep hgood)), _, hexec,
      mergeRow_ip hprimary htwin hstep hgood, nv_of_quiet hquiet, frames_of_quiet hquiet⟩
  · intro e he hstep hgood hstream haligned hinside hclean
    have hexec := exec_copyRow he s
    have hquiet := copyRow_quiet s c e.2.1 e.2.2 u
    refine ⟨fun hfull => ?_, fun hroom => ⟨fun x hcause => ?_, fun hcause => ?_⟩⟩
    · exact hexec.trans (congrArg Host.Outcome.next (copyRow_full hstep hgood hstream haligned hinside hclean hfull))
    · refine ⟨_, hexec, ?_, nv_of_quiet hquiet⟩
      rw [copyRow_rejects hstep hgood hstream haligned hinside hclean hroom hcause]
      exact (rejected_slot ..).1
    · exact ⟨hexec.trans (congrArg Host.Outcome.next
          (copyRow_takes hprimary htwin hstep hgood hstream haligned hinside hclean hroom hcause)), _, hexec,
        copyRow_ip hprimary htwin hstep hgood hstream haligned hinside hclean hroom hcause, nv_of_quiet hquiet, frames_of_quiet hquiet⟩
  · intro hstep hgood haligned hinside hclean hreads sd hsound
    have hexec : exec (.strmBind c) s = .next (bindRow s c) := rfl
    refine ⟨fun hfree => ?_, fun hheld => ?_⟩
    · obtain ⟨hip, hbound, hdesc⟩ := bindRow_effect hstep hgood haligned hinside hclean hreads hsound hfree
      exact ⟨_, hexec, hip, hbound, hdesc, nv_of_boxed (bindRow_boxed ..), frames_of_boxed (bindRow_boxed ..)⟩
    · exact hexec.trans (congrArg Host.Outcome.next (bindRow_waits hstep hgood haligned hinside hclean hreads hsound hheld))
  · intro hstep hgood hdesc hfree hreads
    obtain ⟨hip, hbound⟩ := unbindRow_effect hstep hgood hdesc hfree hreads
    exact ⟨unbindRow s c, rfl, hip, hbound, nv_of_boxed (unbindRow_boxed ..), frames_of_boxed (unbindRow_boxed ..)⟩
  · exact ⟨rfl, chunkDelivered s c k n u, rfl, ip_of_stepPtrs chunkDelivered_stepPtrs c k, nv_of_boxed chunkDelivered_boxed,
      frames_of_boxed chunkDelivered_boxed⟩
  · intro rest hn hchecks hplant
    have hexec : exec (.operandCheckVerify c k n) s = .next (verifyStream s c k n) :=
      congrArg Host.Outcome.next (if_pos hn)
    rw [verifyStream_matches hchecks hplant] at hexec
    exact ⟨hexec, _, hexec, verifyStream_effect⟩
  · intro r f hfind halone
    refine ⟨fun hshared => ?_, ?_⟩
    · refine ⟨_, congrArg Host.Outcome.next (fillReturns_clean hfind halone hshared), cacheHolds_cacheInstall .., ?_, rfl⟩
      exact congrArg Region.fills (regOf_setReg ..)
    · refine ⟨_, congrArg Host.Outcome.next (fillReturns_bad hfind halone), wordsLost_hubs .., ?_, wordsLost_mem ..⟩
      rw [regOf_setReg]

end Sys2Proof.Machine
end
